-- ==== Sys2Proof/Word.lean ====
section
/-! DEFINITION. The word types of the model and the plainest arithmetic on them.

Register words are 32 bits (00 R3), process-image values are 32 bits with an 8-bit quality (00 R9),
the time word is 64 bits (07 R193). -/

namespace Sys2Proof

/-- One byte. -/
abbrev Byte := BitVec 8
/-- One object word (00 R3). -/
abbrev W32 := BitVec 32
/-- A time word in ns (07 R193). -/
abbrev W64 := BitVec 64
/-- IEEE 754 binary32 as its 32 bits (00 R9). -/
abbrev F32 := BitVec 32
/-- IEEE 754 binary64 as its 64 bits. -/
abbrev F64 := BitVec 64

/-- A sparse table: index and value pairs in rising index order, none equal to the default of the table. -/
abbrev Tab (α : Type) := List (Nat × α)

/-- The low 32 bits of a number as a word. -/
abbrev w32 (n : Nat) : W32 := BitVec.ofNat 32 n
/-- One bit of a Boolean as a number. -/
def b2n (b : Bool) : Nat := if b then 1 else 0
/-- Increment of a counter that saturates at `top`. -/
def satInc (top n : Nat) : Nat := if n < top then n + 1 else top
/-- The largest value of a 32-bit counter. -/
def top32 : Nat := 0xFFFFFFFF
/-- The largest value of a 16-bit counter. -/
def top16 : Nat := 0xFFFF
/-- `n` cut to 32 bits, for counters that wrap. -/
def wrap32 (n : Nat) : Nat := n % 4294967296
/-- The signed difference of two 32-bit counts, `(int32)(a - b)` (07 R198). -/
def sdiff32 (a b : W32) : Int := (a - b).toInt


/-- An event of the module: its code (01 R16) and the bit of the owning function's FN_EVSTAT that it sets. -/
structure EvKind where
  /-- CODE, class in [15:12]. -/
  code : Nat := 0
  /-- Bit of FN_EVSTAT, where the event sets one. -/
  bit : Option Nat := none
deriving DecidableEq, Repr, Inhabited

end Sys2Proof
end

