-- ==== Sys2Proof/Parts/Base.lean ====
section
/-! DEFINITION. Names shared by every part of the module: functions, function states, module states,
roles, qualities, process-image entries and events (chapters 00, 01, 09). -/

namespace Sys2Proof

/-- The functions of the module (01 R17). -/
inductive Fn where
  | module | logic | loop | bedrock | alarm | time | ring | recorder | pool | peg | panel | guy
  | bank (b : Fin 8)
  | group (g : Fin 8)
  | axis (a : Fin 4)
  | can (c : Fin 4)
deriving DecidableEq, Repr, Inhabited

/-- The states of a function, in the order of their codes (01 R19). -/
inductive FnState where
  | off | reset | pitch | run | drain | disabled | fault | standby
deriving DecidableEq, Repr, Inhabited

/-- The states of the module, in the order of their codes (01 R25). -/
inductive ModState where
  | off | selfTest | imageSelect | pitch | run | standby | hold | bivouac
deriving DecidableEq, Repr, Inhabited

/-- The causes of HOLD, in the order of their codes (01 R28). -/
inductive HoldCause where
  | none | noImage | imageAmbiguous | comparatorTest | sramTest | clockMonitor | fatalFunction
deriving DecidableEq, Repr, Inhabited

/-- The roles of MMP, in rising order (15 R467). -/
inductive Role where
  | observe | operate | engineer | commission
deriving DecidableEq, Repr, Inhabited

/-- What caused an event (19 R556): the module, an MMP role, the panel or a field input. -/
inductive Origin where
  | module | role (r : Role) | panel | field
deriving DecidableEq, Repr, Inhabited

/-- The four engines of chapter 10, by their codes in event data (10 R318). -/
inductive Engine where
  | logic | loop | bedrock | alarm
deriving DecidableEq, Repr, Inhabited

/-- A value with its quality byte, written and read as one unit (01 R13). -/
structure Qv where
  /-- The 32-bit value. -/
  val : W32 := 0
  /-- QUALITY: class in [7:6], substatus in [5:0] (00 R9). -/
  q : Byte := 0
deriving DecidableEq, Repr, Inhabited

/-- The type of a process-image entry or variable (09 R282). -/
inductive Vty where
  | bool | int32 | uint32 | real
deriving DecidableEq, Repr, Inhabited

/-- The writer of an output entry, named in the image (01 R14). -/
inductive Writer where
  | none
  | task (n : Nat)
  | loop (n : Nat)
  | safety (n : Nat)
  | alarm
deriving DecidableEq, Repr, Inhabited

/-- What a process-image entry stands for. -/
inductive Ref where
  /-- An index the layout section does not number. -/
  | unused
  /-- An entry that only logic tasks write and read. -/
  | user
  /-- Main entry of an analogue input row (05 R148). -/
  | aiMain (b c : Nat)
  /-- Second-path entry of a safety row (04 R140). -/
  | aiSecond (b c : Nat)
  /-- Output entry of an analogue output row. -/
  | aoOut (b c : Nat)
  /-- Readback entry of an analogue output row (03 R84). -/
  | aoRead (b c : Nat)
  /-- State entry of a digital input row (06 R168). -/
  | diState (g p : Nat)
  /-- Count entry (06 R171). -/
  | diCount (g p : Nat)
  /-- Frequency entry (06 R173). -/
  | diFreq (g p : Nat)
  /-- Preset entry of a counting row (06 R172). -/
  | diPreset (g p : Nat)
  /-- Output entry of a digital output row. -/
  | doOut (g p : Nat)
  /-- Readback entry of a digital output row (06 R177). -/
  | doRead (g p : Nat)
  /-- Entry k of loop n (11): 0 w, 1 u, 2 deviation, 3 effective mode. -/
  | loop (n k : Nat)
  /-- Output entry k of axis a (12): 0 target, 1 command. -/
  | axisOut (a k : Nat)
  /-- Input entry k of axis a (12). -/
  | axisIn (a k : Nat)
  /-- Demand entry of group g (13 R410). -/
  | vgDemand (g : Nat)
  /-- Voted value entry of group g (13). -/
  | vgValue (g : Nat)
  /-- Entry k of BSL connection c (13). -/
  | bsl (c k : Nat)
  /-- Status entry k of engine function `fn` (09 R275). -/
  | status (fn k : Nat)
  /-- The bivouac request entry of the logic engine (20 R586). -/
  | bivouac
deriving DecidableEq, Repr, Inhabited

/-- One entry of the layout section, type 0x03 (09 R265, R271; 10 R305). -/
structure LayEntry where
  ref : Ref := .unused
  ty : Vty := .real
  /-- True for an output entry, false for an input entry. -/
  out : Bool := false
  /-- Asynchronous entries are sampled by each pass itself (09 R271). -/
  async : Bool := false
  /-- DIV_LIMIT, 1–15, default 3 (10 R305). -/
  divLimit : Nat := 3
  writer : Writer := .none
deriving DecidableEq, Repr, Inhabited

/-- An event as the fabric carries it (01 R15, 19 R556). -/
structure Event where
  code : Nat := 0
  source : Nat := 0
  data : W32 := 0
  origin : Origin := .module
  /-- Time word of the event, or the earlier instant its chapter gives (19 R557). -/
  time : W64 := 0
  timeValid : Bool := false
  synced : Bool := false
  operSecs : Nat := 0
  powerCycles : Nat := 0
  /-- Reading of the 100 µs monotonic counter (19 R559). -/
  mono : Nat := 0
deriving DecidableEq, Repr, Inhabited

/-- The function header of one function (01 R19, R615). -/
structure FnHdr where
  state : FnState := .pitch
  /-- Configuration accepted and waiting for the module (01 R21, "PITCH, configured"). -/
  configured : Bool := false
  /-- Disabled before its domain went off and not yet enabled (01 R21). -/
  wasDisabled : Bool := false
  /-- Power domain on, FN_STATE[8]. -/
  powered : Bool := true
  /-- Clock running, FN_STATE[9]. -/
  clocked : Bool := true
  /-- Last fault code, FN_STATE[31:16]. -/
  fault : Nat := 0
  evstat : W32 := 0
  evmask : W32 := 0
  resets : Nat := 0
  imageref : W32 := 0
  /-- SHD_SECT; `none` while it shows the first section of the table of 01 R615. -/
  shdSect : Option Nat := none
  shdBase : Nat := 0
deriving DecidableEq, Repr, Inhabited

/-- One section of an image: its type and its bytes (02 R35). -/
structure Section where
  ty : Nat := 0
  bytes : List Byte := []
deriving DecidableEq, Repr, Inhabited

end Sys2Proof
end

