-- ==== Sys2Proof/Parts/Mmp.lean ====
section
/-! DEFINITION. Configuration and state of the ring ports and of the management protocol (chapter 15). -/

namespace Sys2Proof

/-- The two ring ports. -/
inductive Port where
  | a | b
deriving DecidableEq, Repr, Inhabited

/-- Reply status codes, in the order of their numbers (15 R473). -/
inductive Status where
  | ok | role | function | object | align | access | format | epoch | state | busy | type | tableFull | refused
deriving DecidableEq, Repr, Inhabited

/-- A peer of section 0x0B (15 R463). -/
structure PeerCfg where
  station : Nat := 0
  ip : Nat := 0
deriving DecidableEq, Repr, Inhabited

/-- A publish set (15 R463, R477). -/
structure PubCfg where
  /-- Period in units of 10 ms; 0 for an unused set. -/
  period : Nat := 0
  entries : List Nat := []
deriving DecidableEq, Repr, Inhabited

/-- The ring and MMP records of section 0x0B (15 R463). -/
structure MmpCfg where
  ip : Nat := 0
  mask : Nat := 0
  gw : Nat := 0
  vlan : Nat := 0
  peers : Tab PeerCfg := []
  notify : List Nat := []
  pubGrp : Nat := 0
  pubs : Tab PubCfg := []
deriving DecidableEq, Repr, Inhabited

/-- A received MMP message: the port, whether it found the request queue of 32 full (15 R475), and the bytes of
its datagram (15 R464). In part by log 12 (DEDUCED, unsafe). -/
structure Msg where
  port : Port := .a
  full : Bool := false
  bytes : List Byte := []
deriving DecidableEq, Repr, Inhabited

/-- A reply that the module sends (15 R473). -/
structure Reply where
  sender : Nat := 0
  role : Role := .observe
  type : Nat := 0
  seq : Nat := 0
  epoch : Nat := 0
  status : Status := .ok
  result : Nat := 0
  /-- The pad bytes: the index of the refused pair of a WRITE (15 R474). -/
  pad : Nat := 0
  /-- Further payload bytes. -/
  body : List Byte := []
  unsigned : Bool := false
deriving DecidableEq, Repr, Inhabited

/-- A request that has passed the checks of its frame (15 R465). -/
structure Req where
  port : Port := .a
  type : Nat := 0
  role : Role := .observe
  sender : Nat := 0
  epoch : Nat := 0
  seq : Nat := 0
  tag : List Byte := []
  unsigned : Bool := false
  payload : List Byte := []
deriving DecidableEq, Repr, Inhabited

/-- One sender-role pair of the sequence table (15 R471). -/
structure SeqPair where
  sender : Nat := 0
  role : Role := .observe
  /-- H, the highest SEQ accepted. -/
  high : Nat := 0
  /-- Bit k set: SEQ H − k was accepted. -/
  map : BitVec 64 := 0
  lastSeq : Nat := 0
  lastTag : List Byte := []
  cached : Option Reply := none
deriving DecidableEq, Repr, Inhabited

/-- State of one ring port (15 R462, R483; 07 R205). -/
structure PortSt where
  up : Bool := false
  /-- 0 none, 1 100BASE-TX, 2 1000BASE-T. -/
  speed : Nat := 0
  supOk : Bool := false
  downs : Nat := 0
  rx : Nat := 0
  tx : Nat := 0
  fwd : Nat := 0
  dup : Nat := 0
  fcs : Nat := 0
  size : Nat := 0
  drop : Nat := 0
  /-- Monotonic ns of the last supervision frame. -/
  supAt : Option Nat := none
deriving DecidableEq, Repr, Inhabited

/-- One number seen from a source (15 R461). -/
structure SeenNum where
  num : Nat := 0
  at' : Nat := 0
deriving DecidableEq, Repr, Inhabited

/-- One source of a duplicate table (15 R461), newest number first. -/
structure DupSrc where
  mac : Nat := 0
  nums : List SeenNum := []
deriving DecidableEq, Repr, Inhabited

/-- A datagram or ring frame that the module sends. -/
inductive RingOut where
  /-- An HSR supervision frame with its sequence number (15 R462). -/
  | supervision (seq : Nat)
  /-- A frame forwarded from the other port (15 R460). -/
  | forward (dst : Port) (id : Nat)
  | arp (ip mac : Nat)
  | echo (ip id seq : Nat) (data : List Byte)
  /-- PUBLISH of a set: count, time word and entries (15 R477). -/
  | publish (set count : Nat) (time : W64) (vals : List Qv)
  /-- HEALTH (15 R478). -/
  | health (word modState : W32) (time : W64) (imageref epoch : W32) (unsigned : Bool)
  /-- NOTIFY to peer `peer` (15 R478). -/
  | notify (peer : Nat) (events : List Event)
  /-- GROUP_STATE with its payload bytes (15 R475). -/
  | groupState (dst : Nat) (bytes : List Byte)
  /-- CALL_NOTIFY to a unit (08 R250). -/
  | callNotify (unit : Nat) (bytes : List Byte)
  /-- CALL_CLEAR to a unit (08 R251). -/
  | callClear (unit count : Nat)
  /-- An ALARM_CMD forwarded to a station (08 R253). -/
  | alarmCmd (station : Nat) (bytes : List Byte)
  /-- A BSL frame of a producer connection (13 R427). -/
  | bsl (conn : Nat) (bytes : List Byte)
  /-- Pdelay_Req of a port (07 R205). -/
  | pdelayReq (port : Port) (seq : Nat)
  /-- One-step Pdelay_Resp (07 R205). -/
  | pdelayResp (port : Port) (seq : Nat) (corr : Int)
  /-- A corrected Follow_Up or one-step event message sent on (07 R206, R207). -/
  | ptpForward (dst : Port) (id : Nat) (corr : Int)
deriving DecidableEq, Repr, Inhabited

/-- State of the ring ports and of the MMP endpoint. In part by log 2 (DESIGN CHOICE, safe). -/
structure MmpSt where
  ports : Tab PortSt := []
  /-- Duplicate tables, for delivery and for forwarding on each port. -/
  dupDeliver : List DupSrc := []
  dupForward : List DupSrc := []
  hsrSeq : Nat := 0
  /-- Starts since power-on, MMP_EPOCH[15:0] (15 R470). -/
  starts : Nat := 0
  rxOk : Nat := 0
  authFail : Nat := 0
  frameFail : Nat := 0
  replay : Nat := 0
  pubSkipped : Nat := 0
  notifyLost : Nat := 0
  pairs : List SeqPair := []
  /-- Epoch last seen from each peer station; `none` before its first message. -/
  peerEpochs : Tab (Option Nat) := []
  /-- Next outgoing SEQ of unsolicited messages (15 R470). -/
  outSeq : Nat := 1
  /-- Requests dropped in the present episode of a full queue (15 R475). -/
  queueEpisode : Nat := 0
  /-- Requests whose reply waits for what they started: 1 COMMISSION, 2 ROLE_KEY, 3 COMMIT, 4 OTP procedure. -/
  waits : Tab (Option Req) := []
  pubEpisode : Nat := 0
  /-- Events enabled for NOTIFY and not yet sent. -/
  notifyQ : List Event := []
  /-- Publication count of each set. -/
  pubCount : Tab Nat := []
  /-- Echo replies sent, with their monotonic ns, over the last second (15 R463). -/
  echoes : List Nat := []
  /-- Replies sent, newest first (the model's own record of what left the module). -/
  replies : List Reply := []
  /-- Frames and datagrams sent, newest first (the model's own record). -/
  sent : List RingOut := []
deriving DecidableEq, Repr, Inhabited

/-- What a received ring frame is (15 R460, R462). -/
inductive RingKind where
  /-- Addressed to this module alone. -/
  | mine
  /-- Addressed to another node alone. -/
  | other
  | multicast
  /-- An HSR supervision frame, a multicast. -/
  | supervision
deriving DecidableEq, Repr, Inhabited

/-- What a PTP message is to the transparent clock (07 R206, R207). Stamps are raw, in 2⁻¹⁶ ns of the time word. -/
inductive PtpFrame where
  /-- A Sync with twoStepFlag 0 or a Pdelay message, with its correctionField. -/
  | oneStep (corr ingress egress : Int)
  /-- A Sync with twoStepFlag 1. -/
  | twoStep (srcId seq domain : Nat) (ingress egress : Int)
  /-- A Follow_Up, with its correctionField. -/
  | followUp (srcId seq domain : Nat) (corr : Int)
deriving DecidableEq, Repr, Inhabited

/-- A received ring frame. -/
structure RingIn where
  /-- Source MAC address. -/
  src : Nat := 0
  /-- The source is this module (15 R460). -/
  own : Bool := false
  /-- HSR sequence number. -/
  seq : Nat := 0
  kind : RingKind := .other
  /-- Bytes with the HSR tag. -/
  len : Nat := 0
  fcsOk : Bool := true
  /-- Stands for the frame's content. -/
  id : Nat := 0
  /-- What the transparent clock corrects; `none` for any other frame. -/
  ptp : Option PtpFrame := none
deriving DecidableEq, Repr, Inhabited

end Sys2Proof
end

