-- ==== Sys2Proof/Parts/Time.lean ====
section
/-! DEFINITION. Configuration and state of the time unit (chapter 07). -/

namespace Sys2Proof

/-- The time record of section 0x0B (07 R221). `none` stands for an omitted field. -/
structure TimeCfg where
  domain : Nat := 0
  portPref : Nat := 0
  /-- The eight stamp constants in the order of R223, as given. -/
  consts : Tab (Option Int) := []
  capEn : Tab (Option Nat) := []
  capDelay : Tab (Option Nat) := []
  capSoe : Tab Nat := []
  capLogic : Nat := 0
  capCan : Nat := 0
  capPtp : Nat := 0
deriving DecidableEq, Repr, Inhabited

/-- Servo states in the order of TU_STATE[2:0] (07 R222). -/
inductive Servo where
  | free | locking | locked | holdover
deriving DecidableEq, Repr, Inhabited

/-- The dataset of an Announce message (07 R202). -/
structure Announce where
  port : Port := .a
  domain : Nat := 0
  gm : W64 := 0
  prio1 : Nat := 0
  clockClass : Nat := 0
  accuracy : Nat := 0
  variance : Nat := 0
  prio2 : Nat := 0
  stepsRemoved : Nat := 0
  utcOffset : Nat := 0
  utcValid : Bool := false
deriving DecidableEq, Repr, Inhabited

/-- A received Sync, with what its Follow_Up added where it was two-step (07 R210). -/
structure SyncMsg where
  port : Port := .a
  domain : Nat := 0
  gm : W64 := 0
  /-- originTimestamp in ns. -/
  origin : Nat := 0
  /-- correctionField in 2⁻¹⁶ ns. -/
  corr : Int := 0
  /-- Raw ingress stamp in 2⁻¹⁶ ns of the time word. -/
  ingress : Int := 0
  /-- Sync interval in ns: 62.5 ms to 1 s for logSyncInterval −4 to 0. -/
  interval : Nat := 1000000000
deriving DecidableEq, Repr, Inhabited

/-- Link delay measurement of a port (07 R205). Delays are in 2⁻¹⁶ ns. -/
structure LinkSt where
  delays : List Int := []
  missing : Nat := 0
  valid : Bool := false
  validRun : Nat := 0
  pending : Option Nat := none
  /-- Egress stamp of the pending Pdelay_Req, in 2⁻¹⁶ ns. -/
  t1 : Int := 0
  seq : Nat := 0
  /-- Consecutive valid Sync intervals seen on the port. -/
  syncRun : Nat := 0
  /-- Monotonic ns of the last Sync of the chosen master on the port, and its interval. -/
  lastSync : Option Nat := none
  interval : Nat := 1000000000
deriving DecidableEq, Repr, Inhabited

/-- An entry of the two-step table (07 R207). -/
structure TwoStep where
  srcId : Nat := 0
  seq : Nat := 0
  domain : Nat := 0
  sum : Int := 0
  at' : Nat := 0
deriving DecidableEq, Repr, Inhabited

/-- A match unit (07 R200, R224). -/
structure MatchSt where
  target : W32 := 0
  period : W32 := 0
  armed : Bool := false
  action : Nat := 0
  late : Bool := false
  stepped : Bool := false
  firings : Nat := 0
  mask0 : W32 := 0
  mask1 : W32 := 0
deriving DecidableEq, Repr, Inhabited

/-- Kind of a capture entry (07 R216), by its code. -/
inductive CapKind where
  | digital | can | ptp
deriving DecidableEq, Repr, Inhabited

/-- An entry of the capture FIFO (07 R216), with the consumers that still have to take it (07 R218). -/
structure CapEntry where
  stamp : W64 := 0
  source : Nat := 0
  /-- Word 2 bit 8. -/
  bit8 : Bool := false
  short : Bool := false
  timeValid : Bool := false
  locked : Bool := false
  stepped : Bool := false
  lostBefore : Bool := false
  kind : CapKind := .digital
  seq : Nat := 0
  word3 : W32 := 0
  forAlarm : Bool := false
  forLogic : Bool := false
deriving DecidableEq, Repr, Inhabited

/-- What is captured (07 R213, R216). -/
inductive CapSource where
  /-- An edge at a digital point: the latched time word in ns, the new level, and the length in ns of the level that ends. -/
  | edge (g p : Nat) (latched : Nat) (rising : Bool) (duration : Nat)
  /-- A start of frame on a CAN controller. -/
  | sof (c : Nat)
  /-- A PTP event message on a port. -/
  | ptp (port : Port) (egress : Bool) (msgType seqId : Nat)
deriving DecidableEq, Repr, Inhabited

/-- State of the time unit. -/
structure TimeSt where
  /-- Monotonic ns of the TCXO, which no step moves. -/
  mono : Nat := 0
  time : W64 := 0
  /-- Fraction of a ns in 2⁻³² ns. -/
  frac : BitVec 32 := 0
  valid : Bool := false
  /-- Adjustment per CK5 cycle in 2⁻³² ns (07 R193). -/
  adj : Int := 0
  hiLatch : W32 := 0
  servo : Servo := .free
  offset : Int := 0
  lockRun : Nat := 0
  unlockRun : Nat := 0
  adjs : List Int := []
  gm : Option W64 := none
  announces : List Announce := []
  utcOffset : Nat := 0
  utcValid : Bool := false
  holdAt : Nat := 0
  steps : Nat := 0
  /-- 0 none, 1 PA, 2 PB. -/
  activePort : Nat := 0
  links : Tab LinkSt := []
  twoStep : List TwoStep := []
  tcFwd : Nat := 0
  tcDrop : Nat := 0
  tcLate : Nat := 0
  tcResMax : Nat := 0
  canSeq : Nat := 0
  canStamp : W32 := 0
  canTime : W64 := 0
  canRate : Int := 0
  units : Tab MatchSt := []
  /-- Capture enables written at run time; `none` is the image. -/
  capEnSet : Option (BitVec 64) := none
  fifo : List CapEntry := []
  fifoMax : Nat := 0
  capLost : Nat := 0
  capEpisode : Nat := 0
  /-- CAP_OVERFLOW was raised in this episode. -/
  capOver : Bool := false
  capSeq : Nat := 0
  steppedSince : Bool := false
  /-- The 64 newest entries written, newest first (07 R220). -/
  newest : List CapEntry := []
deriving DecidableEq, Repr, Inhabited

end Sys2Proof
end

