-- ==== Sys2Proof/Parts/Alarm.lean ====
section
/-! DEFINITION. Configuration and state of the alarm engine and the engineer call (chapter 08). -/

namespace Sys2Proof

/-- An alarm point row (08 R228). Times are in ms. -/
structure AlmRow where
  ty : Nat := 0
  inp : Option Nat := none
  in2 : Option Nat := none
  limit : F32 := 0
  db : F32 := 0
  win : Nat := 10000
  abn : Bool := true
  /-- ALM_QMASK: BAD only. -/
  badOnly : Bool := false
  on : Nat := 0
  off : Nat := 0
  group : Nat := 0
  prio : Nat := 1
  supp : Option Nat := none
  suppPol : Bool := true
  suppRel : Nat := 0
  oosInit : Bool := false
  src : Nat := 0xDF
deriving DecidableEq, Repr, Inhabited

/-- The entries of one engineer (08 R247). -/
structure EngCfg where
  out : Option Nat := none
  ack : Option Nat := none
  duty : Option Nat := none
deriving DecidableEq, Repr, Inhabited

/-- Section 0x05 (08 R228, R247, R254, R260). -/
structure AlarmCfg where
  rows : Tab AlmRow := []
  /-- ALM_GRP_SHELVE of each group in min. -/
  shelve : Tab Nat := []
  master : Bool := false
  prio : Nat := 1
  grpEn : Tab Bool := []
  umsIn : Option Nat := none
  /-- T_ESC in s. -/
  esc : Nat := 120
  horn : Option Nat := none
  beacon : Option Nat := none
  engN : Nat := 1
  engs : List EngCfg := []
  bridgeOut : Option Nat := none
  bridgeAck : Option Nat := none
  msAck : List Nat := []
  msSil : List Nat := []
  /-- FWD_STATION_s. -/
  fwd : List Nat := []
  engSrc : Nat := 0xDF
  panelLoc : Nat := 0
  /-- Image value of CALL_UMS. -/
  ums : Nat := 0
  dmEnter : List Nat := []
  dmReset : List Nat := []
  dmLeave : List Nat := []
  dmOut : Option Nat := none
  /-- DM_T and DM_T2 in min. -/
  dmT : Nat := 27
  dmT2 : Nat := 3
deriving DecidableEq, Repr, Inhabited

/-- The visible states of a point, in the order of their codes (08 R259). -/
inductive AlmState where
  | normal | activeUnack | activeAck | rtnUnack | shelved | suppressed | oos | unused
deriving DecidableEq, Repr, Inhabited

/-- Why a point re-enters at step 3 (08 R233, R234). -/
inductive Reentry where
  | none
  | released
  /-- Unshelved, by time or by a command. -/
  | unshelved (timed : Bool)
  | service
deriving DecidableEq, Repr, Inhabited

/-- State of an alarm point. -/
structure AlmPt where
  state : AlmState := .unused
  /-- Row result (08 R263). -/
  code : Nat := 0
  raw : Bool := false
  delayed : Bool := false
  inputBad : Bool := false
  /-- RATE history, newest first. -/
  hist : List F32 := []
  /-- Ticks since the run of the raw condition began, and the tick time of its first tick. -/
  run : Nat := 0
  runAt : W64 := 0
  /-- The onset run's capture stamp, and that it was lost (08 R244). -/
  stamp : Option W64 := none
  lost : Bool := false
  suppOn : Bool := false
  /-- Ticks since the suppression condition ceased to hold, while the release delay runs. -/
  suppRun : Option Nat := none
  /-- Ticks of shelving left. -/
  shelve : Option Nat := none
  reentry : Reentry := .none
  /-- Who caused the re-entry. -/
  by' : Origin := .module
  stamped : Bool := false
  reacts : Nat := 0
  /-- Onset key of the last activation. -/
  key : W64 := 0
deriving DecidableEq, Repr, Inhabited

/-- One entry of a first-out list (08 R244, R245). -/
structure FoEntry where
  key : W64 := 0
  point : Nat := 0
  stamped : Bool := false
  lost : Bool := false
deriving DecidableEq, Repr, Inhabited

/-- State of an alarm group (08 R243, R260). -/
structure AlmGrp where
  openNow : Bool := false
  list : List FoEntry := []
  /-- Points that have joined in this episode. -/
  joined : List Nat := []
  uncertain : Bool := false
  episodes : Nat := 0
  seq : Nat := 0
  /-- Shelve limit written at run time; `none` is the image value. -/
  shelve : Option Nat := none
deriving DecidableEq, Repr, Inhabited

/-- A command that waits for step 2 of the next tick (08 R229). -/
inductive AlmCmd where
  /-- ACK with target, index and location. -/
  | ack (target index loc : Nat) (o : Origin)
  | shelve (point minutes : Nat) (o : Origin)
  | unshelve (point : Nat) (o : Origin)
  | silence (loc : Nat) (o : Origin)
  | oos (point : Nat) (set : Bool) (o : Origin)
deriving DecidableEq, Repr, Inhabited

/-- A calling condition (08 R248). -/
inductive CallCond where
  | point (n : Nat)
  /-- Group of a forwarding station. -/
  | fwd (station group point : Nat)
  | lost (station : Nat)
  | deadman
deriving DecidableEq, Repr, Inhabited

/-- One group of a GROUP_STATE message (15 R475). -/
structure FwdGroup where
  group : Nat := 0
  calling : Bool := false
  prio : Nat := 0
  point : Nat := 0
  count : Nat := 0
deriving DecidableEq, Repr, Inhabited

/-- A forwarding station as the master knows it. -/
structure FwdStation where
  groups : List FwdGroup := []
  /-- Monotonic ns of the last message, or of the engine's start. -/
  at' : Nat := 0
  heard : Bool := false
  lost : Bool := false
  unacked : Bool := false
deriving DecidableEq, Repr, Inhabited

/-- States of the dead-man timer, in the order of their codes (08 R254). -/
inductive DmState where
  | stopped | running | prewarn | alarm
deriving DecidableEq, Repr, Inhabited

/-- State of the alarm engine. -/
structure AlarmSt where
  pts : Tab AlmPt := []
  grps : Tab AlmGrp := []
  ticks : Nat := 0
  evalUs : Nat := 0
  evalMax : Nat := 0
  /-- Tick time of the last tick. -/
  tickTime : W64 := 0
  cmds : List AlmCmd := []
  /-- Capture entries read, with the tick times at which they were read, newest first. -/
  caps : List (CapEntry × W64) := []
  /-- Points that entered ACTIVE-UNACK since groups were last updated; true for a re-entry. -/
  entered : List (Nat × Bool) := []
  -- call
  stage : Nat := 0
  /-- Ticks since the call opened, and since the start of stage 2. -/
  openTicks : Nat := 0
  stage2 : Nat := 0
  calling : List CallCond := []
  opener : Option CallCond := none
  hornSil : Bool := false
  cabinSil : BitVec 8 := 0
  bridgeSil : Bool := false
  /-- Units notified in this call: 0–7 cabins, 8 the bridge. -/
  notified : List Nat := []
  calls : Nat := 0
  umsNow : Bool := false
  umsSet : Option Nat := none
  dutySel : Nat := 15
  dutyBad : Bool := false
  stations : Tab FwdStation := []
  -- dead-man
  dm : DmState := .stopped
  dmTicks : Nat := 0
  dmUnack : Bool := false
  /-- Entries whose last sampled level was 1. -/
  highs : List Nat := []
  /-- A tick has sampled those levels since the start. -/
  sampled : Bool := false
  foSel : Nat := 0
  cmdRes : Nat := 0
deriving DecidableEq, Repr, Inhabited

end Sys2Proof
end

