-- ==== Sys2Proof/Parts/Digital.lean ====
section
/-! DEFINITION. Configuration and state of the digital points and of the silence watchdog (chapter 06). -/

namespace Sys2Proof

/-- A point row of section 0x08 (06 R166). -/
structure DpCfg where
  mode : Nat := 0
  filtClk : Nat := 0
  filtN : Nat := 1000
  count : Nat := 0
  /-- FREQ_GATE in ms. -/
  freqGate : Nat := 1000
  loadMa : Nat := 500
  /-- WD_TIME in ms. -/
  wdTime : Nat := 1000
  safe : Nat := 0
deriving DecidableEq, Repr, Inhabited

/-- Watchdog states, in the order of the codes of DP_STATUS[26:24] (06 R187). -/
inductive WdState where
  | run | expired | rearmed | suspended
deriving DecidableEq, Repr, Inhabited

/-- The silence watchdog of one output (06 R182). -/
structure Wd where
  state : WdState := .run
  /-- Monotonic ns of the last restart, or of the expiry. -/
  since : Nat := 0
  /-- Value driven at expiry, for the safe state HOLD (06 R183). -/
  hold : W32 := 0
  /-- Release instant of the instance that rearmed it. -/
  rearmUnit : Nat := 0
deriving DecidableEq, Repr, Inhabited

/-- State of one digital point (06 R187). -/
structure DpSt where
  /-- Row result: 0 accepted, else refusal code. -/
  result : Nat := 0
  /-- Mode in effect. -/
  mode : Nat := 0
  c : Nat := 0
  state : Bool := false
  raw : Bool := false
  /-- A filter clock of RUN has passed since PITCH (06 R170). -/
  clocked : Bool := false
  count : W32 := 0
  /-- A preset that waits, with the monotonic ns of its release (06 R172). -/
  preset : Option (W32 × Nat) := none
  /-- Instants of counted edges in units of 100 ns, oldest first, within the present gate. -/
  edges : List Nat := []
  freq : F32 := 0
  freqOver : Bool := false
  -- output
  /-- The switch is on. -/
  on : Bool := false
  tripped : Bool := false
  retries : Nat := 0
  /-- UNCERTAIN/6 of a trip. -/
  trip6 : Bool := false
  latched : Bool := false
  readback : Bool := false
  /-- BAD/6: the readback reads 0 while the command is ON. -/
  noRead : Bool := false
  extFeed : Bool := false
  wd : Wd := {}
deriving DecidableEq, Repr, Inhabited

/-- State of one digital group (06 R188). -/
structure DgSt where
  vf : Nat := 0
  current : Nat := 0
  supplyLow : Bool := false
deriving DecidableEq, Repr, Inhabited

/-- An output with a silence watchdog (06 R182): an analogue output, a digital output or an axis target. -/
inductive OutRef where
  | ao (b : Fin 8) (c : Fin 16)
  | dig (g p : Fin 8)
  | axis (a : Fin 4)
deriving DecidableEq, Repr, Inhabited

end Sys2Proof
end

