-- ==== Sys2Proof/Parts/Axis.lean ====
section
/-! DEFINITION. Configuration and state of the stepper axes (chapter 12). -/

namespace Sys2Proof

/-- An axis row (12 R361). Currents in mA, points as group × 8 + point; omitted fields carry their defaults. -/
structure AxisCfg where
  /-- AX_MODE: 0 unused, 1 position, 2 step/direction, 3 PS-40 rate. -/
  mode : Nat := 0
  irun : Nat := 1000
  ihold : Nat := 500
  holdDly : Nat := 200
  dirInv : Bool := false
  vs : Nat := 12800
  ve : Nat := 12800
  vk : Nat := 102400
  vc : Nat := 256000
  a1 : Nat := 512000
  d1 : Nat := 512000
  a2 : Nat := 256000
  d2 : Nat := 256000
  qsd : Nat := 1024000
  revDwell : Nat := 20
  wdTime : Nat := 1000
  /-- AX_SAFE: 0 STOP, 1 QUICK_STOP, 2 HOLD, 3 STOP_NO_TORQUE. -/
  safe : Nat := 0
  softMin : Int := -2147483648
  softMax : Int := 2147483647
  limPos : Option Nat := none
  limNeg : Option Nat := none
  limPol : Nat := 0
  limRel : Nat := 2560
  homeMode : Nat := 0
  homePt : Option Nat := none
  /-- AX_HOME_DIR: true positive. -/
  homePos : Bool := false
  homeV : Nat := 25600
  homeI : Nat := 1000
  homeOfs : Int := 0
  homeBack : Nat := 0
  homeMax : Nat := 16777216
  stallAct : Nat := 2
  stallDeg : Nat := 110
  /-- Bank × 16 + channel. -/
  potCh : Option Nat := none
  potGain : F32 := 0x3F800000
  potOfs : F32 := 0
  potTol : Nat := 12800
  potAct : Nat := 0
  potInit : Nat := 0
  sdStep : Option Nat := none
  sdDir : Option Nat := none
  sdDiv : Nat := 16
  sdGap : Nat := 50
  psDiv : Nat := 256
  psVmin : Nat := 1
  psVmax : Nat := 1
  psAcc : Nat := 1
  psDec : Nat := 1
  psQdec : Nat := 1
deriving DecidableEq, Repr, Inhabited

/-- The states of an axis (12 R365), in the order of their codes. -/
inductive AxState where
  | noTorque | idle | moving | stopping | quickStopping | stopped | dwell | homing | fault | torqueRemoved
deriving DecidableEq, Repr, Inhabited

/-- Position source (12 R382), in the order of the codes. -/
inductive PosSrc where
  | unknown | homed | pot | restored
deriving DecidableEq, Repr, Inhabited

/-- Which deceleration a braking uses (12 R366, R367, R385). -/
inductive BrakeBy where
  | profile | quick | ss1 (decel : Nat)
deriving DecidableEq, Repr, Inhabited

/-- Where a homing stands (12 R378). -/
inductive HomePhase where
  | none
  /-- Moves away from an asserted reference; then the steps still to go after it is inactive. -/
  | away (left : Option Nat)
  | awayBrake
  | approach
  | brake
  | dwell
  | backoff
deriving DecidableEq, Repr, Inhabited

/-- Where a command comes from (12 R363, R364; 18 R546). -/
inductive CmdSrc where
  /-- The process-image entry AX_CMD. -/
  | entry
  /-- AX_MMP_CMD with the role of its writer. -/
  | mmp (r : Role)
  /-- The local panel. -/
  | panel
deriving DecidableEq, Repr, Inhabited

/-- State of an axis. -/
structure AxisSt where
  state : AxState := .noTorque
  source : PosSrc := .unknown
  /-- Commanded position in µsteps. -/
  pos : Int := 0
  /-- Target of the present move. -/
  target : Int := 0
  /-- Pending target; `none` when it has been dropped. -/
  pending : Option Int := none
  /-- AX_TGT as last taken. -/
  tgtSeen : Int := 0
  /-- The target as the panel has stepped it under local control (18 R546). -/
  panelTgt : Option Int := none
  /-- Commanded speed in µsteps/s, binary64. -/
  v : F64 := 0
  rem : F64 := 0
  interval : Nat := 0
  /-- Direction of the present motion. -/
  forward : Bool := true
  /-- No microstep of the present move has been issued. -/
  first : Bool := true
  braking : Bool := false
  brakeBy : BrakeBy := .profile
  /-- Braking for a reversal (R368). -/
  reversal : Bool := false
  /-- A limit stop: IDLE follows, with the move discarded. -/
  toIdle : Bool := false
  /-- NO_TORQUE follows the stop (DEENERGISE). -/
  toOff : Bool := false
  /-- Phase code of AX_STAT[15:14]. -/
  phase : Nat := 0
  /-- The hold current applies. -/
  hold : Bool := false
  /-- Monotonic ns since when the axis has been at rest. -/
  restAt : Nat := 0
  limP : Bool := false
  limN : Bool := false
  latP : Int := 0
  latN : Int := 0
  blocked : Bool := false
  blockRaised : Bool := false
  -- homing
  homePhase : HomePhase := .none
  homing : Nat := 0
  homeRes : Nat := 0
  homeShift : Int := 0
  pRef : Int := 0
  travelled : Nat := 0
  -- estimator
  estRun : Nat := 0
  estValid : Bool := false
  loadAng : Nat := 0
  loadMax : Nat := 0
  emf : F32 := 0
  stallRun : Nat := 0
  stalls : Nat := 0
  -- potentiometer
  potRun : Nat := 0
  potDev : Int := 0
  mismatch : Bool := false
  /-- The position may still be loaded from the potentiometer (R382). -/
  potInit : Bool := false
  runAt : Nat := 0
  -- coarse step and direction
  queue : Int := 0
  sdPrev : Option Nat := none
  sdInterval : Nat := 0
  sdLost : Nat := 0
  lagRaised : Bool := false
  -- PS-40
  vel : Nat := 0
  /-- Phase accumulator at `accAt`. -/
  acc : BitVec 32 := 0
  accAt : Nat := 0
  -- drive
  cause : Nat := 0
  /-- Drive protection condition present, 0 none. -/
  drive : Nat := 0
  supply : Nat := 0
  drainMs : Nat := 0
  code : Nat := 0
  /-- Torque removed by Bedrock, and its SS1 brake line. -/
  torqueOff : Bool := false
  ss1Line : Bool := false
  -- commands
  seq : Nat := 0
  mmpCmds : List (Nat × Role) := []
  panelCmds : List Nat := []
  cmdRes : Nat := 0
  cmdCode : Nat := 0
  cmdMmp : Bool := false
  wd : Wd := {}
  /-- The safe action of the present expiry has been performed. -/
  wdActed : Bool := false
deriving DecidableEq, Repr, Inhabited

end Sys2Proof
end

