-- ==== Sys2Proof/Parts/Bank.lean ====
section
/-! DEFINITION. Configuration and state of the analogue banks (chapters 03, 04 and 05). -/

namespace Sys2Proof

/-- A channel row of section 0x07 (03 R70, R79; 04 R107; 05 R147; 06 R181). -/
structure ChCfg where
  mode : Nat := 0
  /-- V_LIM in mV. -/
  vlim : Nat := 26000
  ne43 : Bool := false
  /-- Failure action: 0 NE43, 1 OFF, 2 REPORT; `none` takes the default of R79. -/
  action : Option Nat := none
  /-- NE 43 direction of the row: 0 none, 1 low, 2 high. -/
  dir : Nat := 0
  wdTime : Nat := 1000
  safe : Nat := 0
  safeVal : F32 := 0
  termA : Option Nat := none
  termB : Option Nat := none
  termC : Option Nat := none
  termD : Option Nat := none
  rate : Nat := 3
  notch : Nat := 1
  trackPt : Option (Nat × Nat) := none
  slot : Option Nat := none
  test : Option Nat := none
  wbCur : Nat := 1
  bias : Nat := 0
  /-- R_ELEM in ohms. -/
  rElem : Nat := 1000
  safety : Nat := 0
  /-- Configured lead resistance of a 2-wire RTD, binary64 ohms. -/
  lead : F64 := 0
  linSet : Nat := 0
  linC : List F32 := []
  xmin : F32 := 0xBF924DD3
  xmax : F32 := 0x3F924DD3
  compSrc : Option Nat := none
  compEntry : Nat := 0
  compFixed : F32 := 0x41C80000
  gain : F32 := 0x3F800000
  offset : F32 := 0
  spanLo : F32 := 0xF149F2CA
  spanHi : F32 := 0x7149F2CA
  /-- SPAN_BAND in % of span, binary32. -/
  spanBand : F32 := 0x40A00000
  badPolicy : Nat := 0
  subst : F32 := 0
  /-- RIDE_TIME in units of 0.1 s. -/
  ride : Nat := 20
deriving DecidableEq, Repr, Inhabited

/-- An entry of the excitation slot table (04 R112), as its two words. -/
structure SlotEntry where
  w0 : W32 := 0
  w1 : W32 := 0
deriving DecidableEq, Repr, Inhabited

/-- The record of one bank in section 0x07: 16 rows and the slot table. -/
structure BankCfg where
  rows : Tab ChCfg := []
  slots : Tab SlotEntry := []
deriving DecidableEq, Repr, Inhabited

/-- Tracking states of a notch (04 R129), by the codes of FE_ROW[17:16]. -/
inductive Track where
  | off | locked | holding | fallback
deriving DecidableEq, Repr, Inhabited

/-- State of compensation of a row (05 R151), by the codes of LIN_STAT[9:8]. -/
inductive Comp where
  | unused | live | held | failed
deriving DecidableEq, Repr, Inhabited

/-- State of the range and plausibility checks of one path (05 R153–R155). -/
structure RangeSt where
  /-- The row's own cause for its last result (05 R153), as a quality byte; `none` for none. -/
  own : Option Byte := none
  /-- A range cause has not yet been released by the hysteresis of R154. -/
  held : Bool := false
  /-- A BAD/15 cause stands. -/
  bad15 : Bool := false
  /-- Consecutive results well inside the window since (05 R155). -/
  clean : Nat := 0
deriving DecidableEq, Repr, Inhabited

/-- What the front-end comparators of a row showed during a conversion (04 R111, R135). -/
structure FeDiag where
  /-- The loop supply of a mode 0x02 row is in current limit. -/
  supplyLimit : Bool := false
  /-- The excitation source is at ≥ 11.5 V. -/
  excLimit : Bool := false
  /-- The excitation current of a potentiometer is outside 50–150 %. -/
  elementBad : Bool := false
  /-- The ratiometric excitation of the bank is in its current limit (04 R111). -/
  ratioLimit : Bool := false
deriving DecidableEq, Repr, Inhabited

/-- State of one analogue channel. -/
structure ChSt where
  result : Nat := 0
  mode : Nat := 0
  raw : Int := 0
  readback : F32 := 0
  supply : Nat := 0
  headroom : Nat := 0
  compLow : Bool := false
  compShort : Bool := false
  backfeed : Bool := false
  rbMismatch : Bool := false
  stageOff : Bool := false
  ne43 : Bool := false
  /-- Run of deviating counting visits. -/
  devRun : Nat := 0
  /-- Run of passing counting visits of a REPORT row. -/
  okRun : Nat := 0
  /-- The readback entry (03 R83). -/
  rbEntry : Qv := {}
  wd : Wd := {}
  /-- Value driven last, and none since PITCH (03 R614). -/
  driven : Option F32 := none
  /-- Changes of the commanded value over the last 2 ms, oldest first: monotonic ns, and the value before. -/
  cmdLog : List (Nat × F32) := []
  -- input side
  /-- Results left to discard (04 R130). -/
  discard : Nat := 0
  /-- A conversion was in progress at the trigger of the settling; its result does not count (04 R130). -/
  partial' : Bool := false
  /-- Monotonic ns at which the present window of an excited row started (04 R115, R116). -/
  winAt : Nat := 0
  /-- The second half of a slot with reversal runs (04 R115). -/
  half2 : Bool := false
  /-- The present window of an excited row has seen a conversion, and one that showed a break (04 R137). -/
  winSeen : Bool := false
  winBad : Bool := false
  /-- Last settled raw results of the two halves. -/
  res1 : Option Int := none
  res2 : Option Int := none
  /-- The settling is visible in the image. -/
  settling : Bool := false
  published : Bool := false
  /-- The range and plausibility checks of the main path. -/
  rng : RangeSt := {}
  /-- The range and plausibility checks of the second path (04 R140). -/
  rng2 : RangeSt := {}
  /-- Method of a wire break (04 R135). -/
  wireBreak : Option Nat := none
  wbPass : Nat := 0
  comp : Comp := .unused
  tComp : Option F32 := none
  /-- Lead resistance in use, binary64 ohms (04 R140). -/
  lead : F64 := 0
  x : F32 := 0
  t : F32 := 0
  y : F32 := 0
  lastGood : Option F32 := none
  /-- Value and quality of the entry as the row last wrote it. -/
  entry : Qv := { val := 0, q := 0x0B }
  /-- An episode with a BAD cause runs (05 R159). -/
  episode : Bool := false
  riding : Bool := false
  rideEnd : Nat := 0
  second : Qv := {}
  /-- Writes of the second-path entry, and the monotonic ns of the last one (13 R411). -/
  secondN : Nat := 0
  secondAt : Nat := 0
  -- notch and tests
  track : Track := .off
  notchFreq : Nat := 0
  /-- The last valid measurement, 0.01 Hz. -/
  lastFreq : Nat := 0
  /-- Notch length in use, in modulator samples. -/
  notchLen : Nat := 0
  /-- Monotonic ns since which measurements have been valid without a break. -/
  validSince : Option Nat := none
  testFailed : Bool := false
deriving DecidableEq, Repr, Inhabited

/-- Trim and calibration states, by the codes of TRIM_STATE[2:0] (03 R102). -/
inductive TrimState where
  | idle | point1 | point2 | computed | writing
deriving DecidableEq, Repr, Inhabited

/-- The trim and calibration procedure of a bank (03 R93–R102). -/
structure TrimSt where
  sel : Nat := 0
  meas : F32 := 0
  state : TrimState := .idle
  averaging : Bool := false
  /-- 0 none, 1 current output, 2 voltage output, 3 input calibration. -/
  kind : Nat := 0
  result : Nat := 0
  m1 : F32 := 0
  m2 : F32 := 0
  r1 : F64 := 0
  r2 : F64 := 0
  newGain : Int := 0
  newOffset : Int := 0
deriving DecidableEq, Repr, Inhabited

/-- State of one analogue bank. -/
structure BankSt where
  straps : Nat := 0
  effLock : Nat := 0
  lockSrc : Nat := 0
  strapInvalid : Bool := false
  conflict : Bool := false
  strapChanged : Bool := false
  rbCycle : Nat := 0
  rbMax : Nat := 0
  /-- Instant of the last visit to the bank's lowest output row; `none` before the first. -/
  rbStart : Option Nat := none
  trim : TrimSt := {}
  clampLive : BitVec 48 := 0
  clampLatch : BitVec 48 := 0
  slotAct : Tab SlotEntry := []
  slotShd : Tab SlotEntry := []
  slotPend : Option (Tab SlotEntry) := none
  frameCount : Nat := 0
  subResult : Nat := 0
  subEntry : Nat := 0
  /-- Entry in force in each lane. -/
  lanes : Tab Nat := []
  linBrowse : Nat := 0
  /-- Cold-junction sensors; `none` is invalid. -/
  cj0 : Option F32 := none
  cj1 : Option F32 := none
  /-- CJ_SENSOR_FAULT stands for a sensor. -/
  cjFault0 : Bool := false
  cjFault1 : Bool := false
  /-- The ratiometric excitation is in its current limit (04 R111). -/
  ratioLimit : Bool := false
deriving DecidableEq, Repr, Inhabited

/-- One visit of the readback converter (04 R138, R140). -/
inductive Visit where
  /-- An output row: the measured current or voltage. -/
  | output (v : F32)
  /-- A cross-check position of a safety row: raw value and result. -/
  | crossCheck (raw : Int) (r : F32)
  /-- A lead measurement of a 3-wire row, binary64 ohms. -/
  | lead (ohms : F64)
deriving DecidableEq, Repr, Inhabited

end Sys2Proof
end

