-- ==== Sys2Proof/Parts/Logic.lean ====
section
/-! DEFINITION. Configuration and state of the logic engine (chapter 09) and of time-redundant execution
(chapter 10). -/

namespace Sys2Proof

/-- Kind of a task (09 R290), by its code. -/
inductive TaskKind where
  | periodic | event | background | unused
deriving DecidableEq, Repr, Inhabited

/-- The task fields of section 0x01 (09 R266). -/
structure TaskCfg where
  kind : TaskKind := .unused
  prio : Nat := 15
  n : Nat := 0
  phase : Nat := 0
  evtSrc : Nat := 0
  /-- EVT_KIND: 0 fabric event, 1 capture entry. -/
  evtKind : Nat := 0
  evtMask : Nat := 0
  evtMatch : Nat := 0
  evtEdge : Nat := 3
  evtDepth : Nat := 8
  /-- Largest write set of one instance, in words (10 R301). -/
  writeSet : Nat := 0
  /-- A number that changes when the code of the task changes (09 R269, R287). -/
  code : Nat := 0
deriving DecidableEq, Repr, Inhabited

/-- Class of a program variable (09 R273); `edge` is an edge store (09 R280). -/
inductive VarCls where
  | local | global | retain | edge
deriving DecidableEq, Repr, Inhabited

/-- One variable of section 0x02. -/
structure VarCfg where
  ty : Vty := .bool
  cls : VarCls := .local
  /-- The task of a LOCAL variable or edge store. -/
  task : Nat := 0
  init : W32 := 0
  /-- False for an index the table does not define. -/
  defined : Bool := false
deriving DecidableEq, Repr, Inhabited

/-- Sections 0x01 and 0x02 (09 R265, R266). -/
structure LogicCfg where
  tasks : Tab TaskCfg := []
  vars : Tab VarCfg := []
  /-- BG_FLOOR in ms. -/
  bgFloor : Nat := 0
  /-- BG_WD in units of 10 ms. -/
  bgWd : Nat := 100
  leSrc : Nat := 0xD0
  progBytes : Nat := 0
  dataBytes : Nat := 0
deriving DecidableEq, Repr, Inhabited

/-- State of a task (09 R269), in the order of the codes of TASK_STAT. -/
inductive TaskState where
  | waiting | ready | running | preempted | fault
deriving DecidableEq, Repr, Inhabited

/-- An item of an event task's queue (09 R276). -/
structure TaskItem where
  source : Nat := 0
  code : Nat := 0
  data : W32 := 0
  time : W64 := 0
  lostBefore : Bool := false
  /-- Monotonic ns when the event or entry became readable: t0 of its instance (09 R270). -/
  since : Nat := 0
deriving DecidableEq, Repr, Inhabited

/-- A unit of work in progress (10 R294, R303, R304). -/
structure UnitRun where
  active : Bool := false
  /-- The unit runs from a latched snapshot: it is the repeat. -/
  repeated : Bool := false
  /-- The entry whose load mismatched in the first run; `none` for a repeat by 10 R310. -/
  divEntry : Option Nat := none
  /-- Pass P's samples of the asynchronous entries (or the snapshot of a repeat). -/
  samples : List (Nat × Qv) := []
  /-- Pass C's input buffer: its own samples, or the snapshot of a repeat. -/
  samplesC : List (Nat × Qv) := []
  /-- The last segment has compared equal. -/
  done : Bool := false
  /-- The raw sample pairs of flagged entries have been compared in this unit (10 R306). -/
  paired : Bool := false
  /-- Monotonic ns when pass P started. -/
  start : Nat := 0
  /-- The item of an event task this instance takes. -/
  item : Option TaskItem := none
deriving DecidableEq, Repr, Inhabited

/-- State of one task (09 R269, R275, R276, R290). -/
structure TaskSt where
  state : TaskState := .waiting
  cause : Nat := 0
  inst : Nat := 0
  ovr : Nat := 0
  lastUs : Nat := 0
  maxUs : Nat := 0
  rpt : Nat := 0
  queue : List TaskItem := []
  /-- An item was dropped since the last one queued. -/
  lost : Bool := false
  /-- EVENT_QUEUE_FULL was raised in this episode. -/
  fullRaised : Bool := false
  /-- Monotonic ns of the release t0 (09 R270). -/
  t0 : Nat := 0
  /-- A release that falls in a hold of releases waits for the end of the hold (02 R56). -/
  heldRelease : Bool := false
  unit : UnitRun := {}
deriving DecidableEq, Repr, Inhabited

/-- Kind of a force target (09 R282), in the order of the codes of FORCE_INFO; `free` marks a free slot. -/
inductive ForceKind where
  | input | output | variable | free
deriving DecidableEq, Repr, Inhabited

/-- One slot of the force table (09 R283, R291). -/
structure ForceSlot where
  kind : ForceKind := .free
  tgt : Nat := 0
  ty : Vty := .bool
  val : W32 := 0
  role : Nat := 0
  time : Nat := 0
  /-- The force acts: the base tick after its acceptance has passed. -/
  live : Bool := false
  /-- A RELEASE was accepted, and takes effect at the next base tick. -/
  ending : Bool := false
  /-- The value that acts while a replaced value waits for the next base tick. -/
  nextVal : Option W32 := none
deriving DecidableEq, Repr, Inhabited

/-- State of the logic engine (chapter 09). -/
structure LogicSt where
  /-- k of R267. -/
  ticks : Nat := 0
  tasks : Tab TaskSt := []
  /-- Released values of variables; `none` is the initial value of the table. -/
  vars : Tab (Option W32) := []
  forces : Tab ForceSlot := []
  /-- Releases held by a commit, handover or bivouac entry. -/
  held : Bool := false
  bgRunning : Bool := false
  /-- Monotonic ns of the background cycle's start. -/
  bgStart : Nat := 0
  softDrop : Nat := 0
  wrRefused : Nat := 0
  cmdRes : Nat := 0
  cmdSlot : Nat := 0
  forcesAccepted : Nat := 0
  /-- Busy spans (start, end) in monotonic ns, newest first, over the last second (R289). -/
  busy : List (Nat × Nat) := []
deriving DecidableEq, Repr, Inhabited

/-- Divergence state of one entry (10 R305, R306, R317). -/
structure DivSt where
  count : Nat := 0
  flag : Bool := false
  run : Nat := 0
  total : Nat := 0
deriving DecidableEq, Repr, Inhabited

/-- One entry of the write log, or one write of pass C (10 R296, R297). -/
structure LaneWrite where
  index : BitVec 9 := 0
  data : BitVec 40 := 0
  kind : BitVec 2 := 0
  /-- The asynchronous entry that the write loads, where KIND[1] = 1. -/
  entry : Nat := 0
deriving DecidableEq, Repr, Inhabited

/-- Comparator and parity state of one engine (10 R316). -/
structure TrxSt where
  passed : Nat := 0
  /-- 0 none, 1 pass, 2 fail. -/
  result : Nat := 0
  daily : Bool := false
  overdue : Bool := false
  firstFail : Nat := 0xFFFF
  testAt : Nat := 0
  faults : Nat := 0
  repeats : Nat := 0
  repairs : Nat := 0
  lastIndex : Nat := 0
  lastKind : Nat := 0
  lastRepeat : Bool := false
  lastUnit : Nat := 0
  maxSeg : Nat := 0
  /-- Next case of the daily test (R314). -/
  nextCase : Nat := 0
  /-- Cases passed so far in the daily test. -/
  partPassed : Nat := 0
  /-- The plain register file of 512 registers, as pass P last wrote it (R294). -/
  plainRegs : Tab (BitVec 40) := []
  /-- The coded register file of 512 registers, as pass C last wrote it (R294). -/
  codedRegs : Tab (BitVec 40) := []
  /-- The write log of the last segment: at most 512 entries (R296). -/
  wlog : List LaneWrite := []
deriving DecidableEq, Repr, Inhabited

/-- What the parity of the engine showed during a segment (10 R309–R311). -/
inductive ParityHit where
  | none
  /-- One copy of a state variable was flagged; `coded` says which was rebuilt. -/
  | one (coded : Bool) (word : Nat)
  /-- Both copies were flagged. -/
  | both (word : Nat)
  /-- A register file, the write log, an input buffer or a write set. -/
  | transient
deriving DecidableEq, Repr, Inhabited

/-- One segment pair as it ran (10 R295–R297): what pass P logged and what pass C wrote. -/
structure SegRun where
  log : List LaneWrite := []
  passC : List LaneWrite := []
  /-- Pass C reached the recorded program position. -/
  reached : Bool := true
  cyclesP : Nat := 0
  cyclesC : Nat := 0
  /-- The segment is the last of the unit. -/
  last : Bool := true
  /-- Pass C's raw samples, taken in its first segment (R303, R306). -/
  samplesC : List (Nat × Qv) := []
  parity : ParityHit := .none
deriving DecidableEq, Repr, Inhabited

/-- A software event raised by a program (09 R274). -/
structure SoftEvent where
  source : Nat := 0xD0
  code : Nat := 0
  data : W32 := 0
deriving DecidableEq, Repr, Inhabited

/-- The write set of one instance: what the program stored (09 R272, 10 R301). -/
structure WriteSet where
  /-- Output entries with their values and qualities. -/
  outs : List (Nat × Qv) := []
  /-- Variables and edge stores. -/
  vars : List (Nat × W32) := []
  events : List SoftEvent := []
deriving DecidableEq, Repr, Inhabited

end Sys2Proof
end

