-- ==== Sys2Proof/Parts/Bedrock.lean ====
section
/-! DEFINITION. Configuration and state of Bedrock and of the safety layer (chapter 13). -/

namespace Sys2Proof

/-- The SS1 fields of a function row (13 R412). -/
structure Ss1Cfg where
  /-- SS1_SRC: 0–3 own axis, 4 frequency entry. -/
  src : Nat := 0
  freq : Option Nat := none
  scale : F32 := 0x3F800000
  decel : Nat := 1
  stopOut : Option Nat := none
  amon : F32 := 0x3F800000
  vtol : F32 := 0
  /-- SS1_DELAY in ms. -/
  delay : Nat := 0
  vzero : F32 := 0
  nzero : Nat := 1
  /-- SS1_TMAX in ms. -/
  tmax : Nat := 10
deriving DecidableEq, Repr, Inhabited

/-- A function row (13 R398). -/
structure SfRow where
  /-- SF_TYPE: 0 unused, 1 SHUTDOWN, 2 SS1, 3 STO. -/
  ty : Nat := 0
  /-- SF_SAFE: true energise-to-trip. -/
  ett : Bool := false
  conds : List Nat := []
  outs : List Nat := []
  sto : Nat := 0
  axes : Nat := 0
  /-- SF_RESET_SRC: true BSL bit. -/
  resetBsl : Bool := false
  resetEntry : Option Nat := none
  resetConn : Option Nat := none
  resetBit : Nat := 0
  ss1 : Ss1Cfg := {}
deriving DecidableEq, Repr, Inhabited

/-- A channel of a voting group. -/
inductive VgCh where
  | entry (i : Nat)
  | bsl (conn bit : Nat)
deriving DecidableEq, Repr, Inhabited

/-- A group row (13 R405). -/
structure VgRow where
  kind : Nat := 0
  chs : List VgCh := []
  /-- VG_TRIP_LVL. -/
  level : Bool := false
  /-- VG_DIR: true low. -/
  low : Bool := false
  limit : F32 := 0
  db : F32 := 0
  band : F32 := 0
  xband : F32 := 0
  /-- VG_DISC_T in ms. -/
  discT : Nat := 1000
  discAct : Nat := 0
deriving DecidableEq, Repr, Inhabited

/-- An item of BSL_TX_MAP (13 R429). -/
inductive TxItem where
  | zero | normal (f : Nat) | healthy (g : Nat) | one | toggle (entry : Nat)
deriving DecidableEq, Repr, Inhabited

/-- A connection row (13 R429). -/
structure BslRow where
  /-- BSL_DIR: 0 unused, 1 consume, 2 produce. -/
  dir : Nat := 0
  /-- BSL_CARRIER: 0 MMP, 1–4 CAN0–CAN3. -/
  carrier : Nat := 0
  peer : Nat := 0
  canId : Nat := 0
  canIde : Bool := false
  connId : Nat := 0
  len : Nat := 1
  period : Nat := 1
  /-- BSL_WD in ms. -/
  wd : Nat := 100
  map : List TxItem := []
deriving DecidableEq, Repr, Inhabited

/-- Section 0x06 (13 R395). -/
structure BedrockCfg where
  /-- BR_CYCLE in ms. -/
  cycle : Nat := 10
  plainUs : Nat := 1
  restoreLim : Nat := 200
  fns : Tab SfRow := []
  groups : Tab VgRow := []
  conns : Tab BslRow := []
  /-- STO_TEST bits. -/
  stoTest : Nat := 0
  writeSet : Nat := 0
deriving DecidableEq, Repr, Inhabited

/-- The states of a safety function (13 R400), in the order of their codes. -/
inductive SfState where
  | unused | normal | stopping | tripped
deriving DecidableEq, Repr, Inhabited

/-- State of a safety function (13 R400, R413, R415, R417). -/
structure SfSt where
  state : SfState := .unused
  cause : Nat := 0
  demanded : Bool := false
  jammed : Bool := false
  /-- Cycles in which the reset input has read 1. -/
  n : Nat := 0
  /-- Cycles in which a jammed input has read 0. -/
  zeros : Nat := 0
  refusal : Nat := 0
  trips : Nat := 0
  /-- Reset bit of the previous accepted frame, and ms of its last change. -/
  bit : Option Bool := none
  bitAt : Option Nat := none
  v0 : F32 := 0
  /-- t of the present or last stop in ms. -/
  t : Nat := 0
  zeroRun : Nat := 0
deriving DecidableEq, Repr, Inhabited

/-- One channel of a voting group (13 R406, R407, R411). -/
structure VcSt where
  valid : Bool := false
  demand : Bool := false
  /-- The valid channel's demand with its hysteresis. -/
  hyst : Bool := false
  xfail : Bool := false
  stale : Bool := false
  /-- Comparisons in a row outside, and within, VG_XBAND. -/
  bad : Nat := 0
  good : Nat := 0
  /-- Writes of the second-path entry that have been compared. -/
  seen : Nat := 0
deriving DecidableEq, Repr, Inhabited

/-- State of a voting group (13 R408–R411, R436). -/
structure VgSt where
  demand : Bool := true
  /-- It demands only because channels are invalid. -/
  byInvalid : Bool := false
  c0 : VcSt := {}
  c1 : VcSt := {}
  c2 : VcSt := {}
  median : Bool := false
  disc : Bool := false
  /-- ms for which the channels have disagreed, and agreed; `none` while they do not. -/
  apart : Option Nat := none
  together : Option Nat := none
  val : F32 := 0
deriving DecidableEq, Repr, Inhabited

/-- A BSL frame as received: the bytes that travel (13 R427). -/
structure BslData where
  data : List Byte := []
  /-- Monotonic ms of its acceptance. -/
  time : Nat := 0
  /-- The first frame accepted after a return to RUN. -/
  first : Bool := false
deriving DecidableEq, Repr, Inhabited

/-- State of a connection (13 R430, R431, R437). -/
structure BslSt where
  /-- 0 unused, 1 FAILSAFE, 2 RUN. -/
  state : Nat := 0
  seq : Nat := 0
  texp : Nat := 0
  /-- Frames in a row that passed while in FAILSAFE. -/
  passed : Nat := 0
  data : List Byte := []
  /-- Frames accepted since the last t1. -/
  fresh : List BslData := []
  ok : Nat := 0
  rejCheck : Nat := 0
  rejOrder : Nat := 0
  lost : Nat := 0
  gapMs : Nat := 0
  at' : Option Nat := none
  /-- Producer: cycles since the last frame; true once its first frame has been sent. -/
  wait : Nat := 0
  started : Bool := false
  /-- Toggle bits of a producer and the run of each button's 1. -/
  toggles : Tab Bool := []
  runs : Tab Nat := []
deriving DecidableEq, Repr, Inhabited

/-- State of an STO pair (13 R401–R404, R437). -/
structure StoSt where
  on : Bool := false
  rb1 : Bool := false
  rb2 : Bool := false
  latched : Bool := false
  faulty2 : Bool := false
deriving DecidableEq, Repr, Inhabited

/-- State of Bedrock (13 R434). -/
structure BedrockSt where
  fns : Tab SfSt := []
  groups : Tab VgSt := []
  conns : Tab BslSt := []
  sto : Tab StoSt := []
  unit : UnitRun := {}
  tripCause : Nat := 8
  /-- The uncommissioned trip has been announced. -/
  uncom : Bool := false
  cycles : Nat := 0
  cycleUs : Nat := 0
  cycleMax : Nat := 0
  check : W32 := 0
  comm : Nat := 0
  partner : Nat := 0xFF
  restoreAge : Nat := 0
  restored : Bool := false
  refusedAge : Bool := false
  refusedValue : Bool := false
  refuseCode : Nat := 0
  refuseKind : Nat := 0
  refuseRow : Nat := 0
deriving DecidableEq, Repr, Inhabited

end Sys2Proof
end

