-- ==== Sys2Proof/Parts/Can.lean ====
section
/-! DEFINITION. Configuration and state of the CAN FD controllers (chapter 16). -/

namespace Sys2Proof

/-- A CAN frame. -/
structure CanFrame where
  id : Nat := 0
  ide : Bool := false
  rtr : Bool := false
  fdf : Bool := false
  brs : Bool := false
  esi : Bool := false
  dlc : Nat := 0
  data : List Byte := []
deriving DecidableEq, Repr, Inhabited

/-- The three words of a filter element (16 R493). -/
structure CanElem where
  w0 : W32 := 0
  w1 : W32 := 0
  w2 : W32 := 0
deriving DecidableEq, Repr, Inhabited

/-- Section 0x0A for one controller (16 R487, R493, R497). -/
structure CanCfg where
  mode : Nat := 0
  nbrp : Nat := 2
  ntseg1 : Nat := 63
  ntseg2 : Nat := 16
  nsjw : Nat := 16
  dbrp : Nat := 1
  dtseg1 : Nat := 29
  dtseg2 : Nat := 10
  dsjw : Nat := 10
  tdcOfs : Nat := 30
  brs : Nat := 1
  txOrder : Nat := 0
  /-- CAN_TXB_OWN_b: 0 logic engine, 1 Bedrock. -/
  own : List Nat := [0, 0, 0]
  oneshot : List Nat := [0, 0, 0]
  qdepth : List Nat := [64, 64]
  pairs : Tab CanElem := []
  list : Tab CanElem := []
  wake : Nat := 0
  wufIde : Bool := false
  wufDlc : Nat := 0
  wufId : Nat := 0
  wufMask : Nat := 0
  wufData : BitVec 64 := 0
deriving DecidableEq, Repr, Inhabited

/-- The states of a controller (16 R488), in the order of their codes. -/
inductive CanState where
  | off | active | passive | busOff | recovery | test | sleep
deriving DecidableEq, Repr, Inhabited

/-- An entry of a receive queue (16 R494). -/
structure CanEntry where
  frame : CanFrame := {}
  /-- Matched by the filter list. -/
  byList : Bool := false
  element : Nat := 0
  lostBefore : Bool := false
  seq : Nat := 0
  stamp : W32 := 0
  block : Nat := 0
deriving DecidableEq, Repr, Inhabited

/-- A receive queue. -/
structure CanQueue where
  entries : List CanEntry := []
  seq : Nat := 0
  /-- A frame was dropped since the last entry queued. -/
  lost : Bool := false
deriving DecidableEq, Repr, Inhabited

/-- A transmit buffer (16 R489, R490, R499). -/
structure CanTxb where
  frame : Option CanFrame := none
  busy : Bool := false
  next : Option CanFrame := none
  replaced : Nat := 0
  sent : Nat := 0
  /-- SOF stamp of the transmission under way. -/
  sof : W32 := 0
  stamp : W32 := 0
deriving DecidableEq, Repr, Inhabited

/-- State of a controller. In part by log 2 (DESIGN CHOICE, safe). -/
structure CanSt where
  state : CanState := .off
  tec : Nat := 0
  rec' : Nat := 0
  /-- Error-free frames counted in RECOVERY. -/
  okRun : Nat := 0
  rxDrop : Nat := 0
  noMatch : Nat := 0
  busOffs : Nat := 0
  code : Nat := 0
  tdc : Nat := 0
  q0 : CanQueue := {}
  q1 : CanQueue := {}
  b0 : CanTxb := {}
  b1 : CanTxb := {}
  b2 : CanTxb := {}
  /-- Filter set last announced: true the list. -/
  listSet : Bool := true
  test : Nat := 0
  /-- Pairs edited at run time; `none` is the image's pair. -/
  pairs : Tab (Option CanElem) := []
  /-- Staged words 0 and 1 of a pair. -/
  staged : Tab (Option (W32 × W32)) := []
  /-- CAN_WAKE word and CAN_WUF words as rewritten; `none` is the image. -/
  wake : Option W32 := none
  wufId : Option W32 := none
  wufMask : Option W32 := none
  wufData0 : Option W32 := none
  wufData1 : Option W32 := none
  /-- SOF stamp of the last frame on the bus (16 R496). -/
  sof : W32 := 0
  /-- Frames sent, newest first (the model's own record). -/
  sentFrames : List CanFrame := []
deriving DecidableEq, Repr, Inhabited

end Sys2Proof
end

