-- ==== Sys2Proof/Parts/Loop.lean ====
section
/-! DEFINITION. Configuration and state of the loop engine (chapter 11). -/

namespace Sys2Proof

/-- A coefficient bank (11 R326). -/
structure LBank where
  c0 : F32 := 0
  c1 : F32 := 0
  c2 : F32 := 0
  c3 : F32 := 0
  b : F32 := 0
  c : F32 := 0
deriving DecidableEq, Repr, Inhabited

/-- A loop row (11 R319). References are entry indexes of the layout; fields that the image omits carry their
defaults. -/
structure LoopRow where
  /-- LP_FORM: 0 unused, 1 ideal, 2 parallel. -/
  form : Nat := 0
  tsN : Nat := 80
  phase : Nat := 0
  pv : Option Nat := none
  out : Option Nat := none
  fb : Option Nat := none
  act : Nat := 0
  umin : F32 := 0
  umax : F32 := 0x42C80000
  spLo : F32 := 0xF149F2CA
  spHi : F32 := 0x7149F2CA
  spInit : F32 := 0
  spRate : F32 := 0
  modeInit : Nat := 0
  manInit : F32 := 0
  modeIn : Option Nat := none
  casRef : Option Nat := none
  trkCmd : Option Nat := none
  trkVal : Option Nat := none
  /-- LP_BADPV: 0 HOLD, 1 MAN, 2 SAFE. -/
  badPv : Nat := 0
  safeU : F32 := 0
  bankA : Option LBank := none
  /-- `none` is a copy of bank A. -/
  bankB : Option LBank := none
deriving DecidableEq, Repr, Inhabited

/-- Section 0x04: the loop rows by loop number. -/
structure LoopCfg where
  rows : Tab LoopRow := []
  /-- Largest write set of a loop sample in words (10 R301). -/
  writeSet : Nat := 0
deriving DecidableEq, Repr, Inhabited

/-- A command that waits for the next sample start (11 R332 step 1). -/
inductive LoopCmd where
  | target (v : F32)
  | manv (v : F32)
  | mode (m : Nat)
  | restart (o : Origin)
deriving DecidableEq, Repr, Inhabited

/-- The effective mode of a loop (11 R331), by its code in LP_STAT; `unused` is code 7. -/
inductive LoopMode where
  | man | auto | cascade | track | fault | unused
deriving DecidableEq, Repr, Inhabited

/-- State of one loop. -/
structure LpSt where
  mode : LoopMode := .unused
  /-- Requested mode: 0 MAN, 1 AUTO, 2 CASCADE. -/
  req : Nat := 0
  target : F32 := 0
  man : F32 := 0
  /-- Row result (11 R356). -/
  code : Nat := 0
  bankB : Bool := false
  swap : Bool := false
  /-- Who commanded the pending swap. -/
  swapBy : Origin := .module
  a : LBank := {}
  b : LBank := {}
  sample : Nat := 0
  y : F32 := 0
  w : F32 := 0
  u : F32 := 0
  i : F32 := 0
  d : F32 := 0
  pe : F32 := 0
  de : F32 := 0
  ovr : Nat := 0
  swapAt : Nat := 0
  /-- Released and not yet at t3. -/
  due : Bool := false
  /-- A release that waits for the end of a hold. -/
  heldRelease : Bool := false
  /-- Monotonic ns of the release. -/
  t0 : Nat := 0
  unit : UnitRun := {}
  /-- The next sample in AUTO or CASCADE is a preset sample. -/
  preset : Bool := false
  /-- w starts at y at the next evaluated AUTO sample. -/
  wFromY : Bool := false
  /-- A bank of the image changed online: step 2 of R339 applies at the next sample. -/
  rebase : Bool := false
  /-- u_m of the next preset sample, from a checkpoint (17 R516). -/
  umNext : Option F32 := none
  badPv : Bool := false
  open' : Bool := false
  ramp : Bool := false
  iClamp : Bool := false
  atLimit : Bool := false
  forced : Bool := false
  cmds : List LoopCmd := []
  /-- Value of LP_MODE_IN at the last sample. -/
  modeIn : Option W32 := none
  /-- Last GOOD track command and last track value. -/
  trkCmd : Bool := false
  trkVal : F32 := 0
deriving DecidableEq, Repr, Inhabited

/-- State of a test (11 R344–R349, R354), in the order of the codes of LT_STATE. -/
inductive TestState where
  | idle | pre | injecting | done | early
deriving DecidableEq, Repr, Inhabited

/-- The test-signal generator and the capture memory. -/
structure TestSt where
  loop : Nat := 0
  kind : Nat := 0
  /-- Injection point: false set-point, true output. -/
  point : Bool := false
  order : Nat := 7
  amp : F32 := 0
  /-- W in samples. -/
  width : Nat := 1
  /-- Capture decimation d − 1. -/
  dec : Nat := 0
  freq : F32 := 0
  guardLo : F32 := 0xFF800000
  guardHi : F32 := 0x7F800000
  pre : Nat := 0
  len : Nat := 65536
  state : TestState := .idle
  result : Nat := 0
  reason : Nat := 0
  /-- Next test sample j. -/
  j : Nat := 0
  /-- Effective mode at the start of the test. -/
  mode : LoopMode := .unused
  prbs : Nat := 0
  bit : Bool := false
  /-- Captured pairs (y, u), oldest first. -/
  pairs : List (F32 × F32) := []
  s0 : Nat := 0
  t0 : W64 := 0
  /-- LW_INDEX. -/
  index : Nat := 0
deriving DecidableEq, Repr, Inhabited

/-- State of the loop engine. -/
structure LoopSt where
  /-- Ticks of 125 µs since RUN. -/
  ticks : Nat := 0
  lps : Tab LpSt := []
  ovrTotal : Nat := 0
  cmdRes : Nat := 0
  cmdLoop : Nat := 0
  /-- Busy times in ns of the ticks of the last second, with the instant, newest first. -/
  busy : List (Nat × Nat) := []
  busyMax : Nat := 0
  test : TestSt := {}
deriving DecidableEq, Repr, Inhabited

end Sys2Proof
end

