-- ==== Sys2Proof/Parts/Pair.lean ====
section
/-! DEFINITION. Configuration and state of the pair logic and the guy line (chapter 17). -/

namespace Sys2Proof

/-- The pair section, type 0x0D (17 R521). -/
structure PairCfg where
  ckptMs : Nat := 1000
  holdoffMin : Nat := 10
  ckptMaxKiB : Nat := 512
deriving DecidableEq, Repr, Inhabited

/-- Roles of PAIR_STAT[9:7] (17 R522), in the order of their codes. -/
inductive PairRole where
  | single | active | standby | takingOver | handingOver | none
deriving DecidableEq, Repr, Inhabited

/-- The fields of a heartbeat (17 R506). -/
structure Heartbeat where
  health : W32 := 0
  modState : Nat := 0
  holdCause : Nat := 0
  imgSeq : W32 := 0
  repitch : Bool := false
  commissioned : W32 := 0
  prefOtp : Nat := 0
  position : Nat := 0
  ckptSeq : Nat := 0
  ckptAge : Nat := 0
  /-- 0 none, 1 handover request, 2 grant, 3 releasing. -/
  handshake : Nat := 0
  crcOk : Bool := true
deriving DecidableEq, Repr, Inhabited

/-- Something the module sends on the guy line. -/
inductive GuyOut where
  | heartbeat (h : Heartbeat)
  | imageChange (seq : W32)
  | bivouac (timer : Nat)
  | commission (value : W32)
  /-- The standby's result of a value handed on. -/
  | commissionResult (result : Nat)
  | wake
deriving DecidableEq, Repr, Inhabited

/-- State of the pair logic. In part by log 2 (DESIGN CHOICE, safe). -/
structure PairSt where
  role : PairRole := .single
  /-- 0 fore, 1 aft. -/
  preferred : Nat := 0
  /-- 0 default, 1 OTP, 2 strap. -/
  prefSource : Nat := 0
  straps : Nat := 0
  conflict : Bool := false
  heard : Bool := false
  everHeard : Bool := false
  heardAt : Nat := 0
  partner : Heartbeat := {}
  /-- Partner's claim asserted, as sensed. -/
  partnerClaim : Bool := false
  /-- This module's claim. -/
  claim : Bool := false
  /-- The role interlock enables this position (17 R504). -/
  enabled : Bool := true
  guyLost : Bool := false
  statePeg : Bool := false
  /-- Hold-off end in monotonic ns, where it runs. -/
  holdoffStart : Option Nat := none
  /-- Handshake code this module sends. -/
  handshake : Nat := 0
  /-- A handover request waits for a COMMIT, an open slot or local control to end. -/
  grantWaits : Bool := false
  /-- Releases held for a handover (t1 of R520). -/
  handoverHold : Bool := false
  repitch : Bool := false
  takeoverAt : Nat := 0
  takeoverByHandshake : Bool := false
  /-- The handover under way was asked for by the partner's MODULE_RESTART. -/
  byRestart : Bool := false
  /-- The wait of R508 has ended: what TAKEOVER_RESTORE completes is a start. -/
  startRestore : Bool := false
  /-- A take-over begins when the re-pitch of R59 ends. -/
  takeoverWaits : Option Nat := none
  ckptSkip : Nat := 0
  switches : Nat := 0
  handovers : Nat := 0
  last : Nat := 0
  lastAge : Nat := 0
  ckptBad : Bool := false
  /-- A commissioned value handed on to the standby and not yet answered (13 R422). -/
  handOnWaits : Bool := false
  /-- STANDBY until the partner is in RUN (17 R508), and the monotonic ns since when. -/
  waitUntilRun : Bool := false
  waitSince : Nat := 0
  lastHeartbeatAt : Nat := 0
  /-- Sent on the guy line, newest first (the model's own record). -/
  sent : List GuyOut := []
deriving DecidableEq, Repr, Inhabited

end Sys2Proof
end

