-- ==== Sys2Proof/Parts/Panel.lean ====
section
/-! DEFINITION. Configuration and state of the local panel (chapter 18). -/

namespace Sys2Proof

/-- A point of local control (18 R545, R550). -/
structure LocalPt where
  /-- 0 loop, 1 axis, 2 output entry. -/
  kind : Nat := 0
  index : Nat := 0
deriving DecidableEq, Repr, Inhabited

/-- What the panel may ask of a held point (18 R546). A step is up or down. -/
inductive LocalCmd where
  | man
  | auto
  | stepManv (up : Bool)
  | stepTarget (up : Bool)
  | stop
  | resume
  | home
  | on
  | off
  | step (up : Bool)
deriving DecidableEq, Repr, Inhabited

/-- What a page gives a function key (18 R540). -/
inductive KeyAct where
  | none
  | page (n : Nat)
  | select (p : LocalPt)
  | take
  | release
  | releaseAll
  | cmd (c : LocalCmd)
deriving DecidableEq, Repr, Inhabited

/-- A local-capable point with its step sizes: of its value or LP_MANV, and of its target (18 R546). -/
structure LocalCfg where
  pt : LocalPt := {}
  step : F32 := 0
  stepTgt : F32 := 0
  stepPos : Nat := 0
deriving DecidableEq, Repr, Inhabited

/-- A region of a page: its rectangle and the entries shown in it (18 R534). -/
structure RegionCfg where
  x : Nat := 0
  y : Nat := 0
  w : Nat := 0
  h : Nat := 0
  entries : List Nat := []
deriving DecidableEq, Repr, Inhabited

/-- A page. -/
structure PageCfg where
  regions : List RegionCfg := []
  /-- Actions of F1 to F6. -/
  keys : List KeyAct := []
deriving DecidableEq, Repr, Inhabited

/-- The panel section, type 0x0C. -/
structure PanelCfg where
  pages : List PageCfg := []
  locals : List LocalCfg := []
  bright : Nat := 0
  page : Nat := 0
deriving DecidableEq, Repr, Inhabited

/-- Where a region update stands (18 R535). -/
inductive RegPhase where
  | idle
  /-- t0: waits for back-area space. -/
  | waiting
  /-- t1: being rendered. -/
  | rendering
  /-- t2: rendered at `doneAt`. -/
  | rendered
  /-- t3: scanned out of its back buffer. -/
  | shown
deriving DecidableEq, Repr, Inhabited

/-- State of a region of the page shown. -/
structure RegionSt where
  phase : RegPhase := .idle
  /-- A request waits for the running update's t5 (18 R536). -/
  waits : Bool := false
  /-- The values that the renderer draws, taken at t1. -/
  vals : List Qv := []
  /-- Monotonic ns of t2. -/
  doneAt : Nat := 0
deriving DecidableEq, Repr, Inhabited

/-- What one frame shows: the page or the system page, the values drawn in each region, and the numbers of the system
strip and of the system page. -/
structure Frame where
  sys : Bool := false
  page : Nat := 0
  /-- The page as its image gives it. -/
  cfg : PageCfg := {}
  /-- Values drawn in a region; `none` before its first update. -/
  regions : Tab (Option (List Qv)) := []
  strip : List Nat := []
deriving DecidableEq, Repr, Inhabited

/-- The DC ledgers of a row, by column, and its mark (18 R527). -/
structure RowLedger where
  cells : Tab Int := []
  marked : Bool := false
deriving DecidableEq, Repr, Inhabited

/-- The scan of the glass (18 R525, R537). -/
inductive Scan where
  | on
  /-- Columns at VCOM with every gate line on. -/
  | discharging
  | off
deriving DecidableEq, Repr, Inhabited

/-- State of the panel. -/
structure PanelSt where
  /-- Points held, in the order of their taking. -/
  locals : List LocalPt := []
  /-- Operating seconds when a point was taken. -/
  takenAt : List (LocalPt × Nat) := []
  /-- The local-control key switch is on. -/
  keyOn : Bool := false
  keyFault : Bool := false
  /-- Runtime values of PNL_BRIGHT and PNL_PAGE; `none` is the image value. -/
  bright : Option Nat := none
  page : Option Nat := none
  sysPage : Bool := false
  /-- The point selected on the page. -/
  sel : Option LocalPt := none
  /-- The last step action, which a held + or − key repeats. -/
  lastStep : Option LocalCmd := none
  /-- The band chosen, and the one in force in this frame. -/
  band : Nat := 0
  bandNow : Nat := 0
  temp : Int := 0
  tempValid : Bool := false
  /-- PNL_SENSOR_FAULT has been raised for this loss. -/
  tempFault : Bool := false
  frames : Nat := 0
  balances : Nat := 0
  /-- Rows marked in the last frame. -/
  lastMarked : Nat := 0
  scan : Scan := .on
  /-- Monotonic ns of t2 of the discharge. -/
  dischargeAt : Nat := 0
  /-- The backlight and the lamps are off for the discharge. -/
  dark : Bool := false
  cur : Frame := {}
  /-- The frame before, whose levels the overdrive compares. -/
  prev : Frame := {}
  rows : Tab RowLedger := []
  regs : Tab RegionSt := []
  /-- Regions that wait for back-area space, in the order of their requests. -/
  queue : List Nat := []
  waitCount : Nat := 0
  locRes : Nat := 0
deriving DecidableEq, Repr, Inhabited

end Sys2Proof
end

