-- ==== Sys2Proof/Parts/Peg.lean ====
section
/-! DEFINITION. State of the peg, of image selection, of the online change and of the one-time settings
(chapter 02). -/

namespace Sys2Proof

/-- Status of a peg slot, in the order of the codes of SLOTn_STAT (02 R43). -/
inductive SlotStat where
  | empty | headerBad | formatUnsupported | crcBad | stationMismatch | verified | droppedSafety | chosen | writeOpen
deriving DecidableEq, Repr, Inhabited

/-- The slot fields of block 0x02 of function 0x09 (02 R43). -/
structure SlotSt where
  stat : SlotStat := .empty
  differs : Bool := false
  seq : W32 := 0
  safety : W32 := 0
  crc : W32 := 0
  /-- IMG_LENGTH of a verified copy, for R40. -/
  len : Nat := 0
deriving DecidableEq, Repr, Inhabited

/-- CHG_STATE codes (02 R60). -/
inductive ChgState where
  | idle | writing | verifying | staging | waitInstant | switching
deriving DecidableEq, Repr, Inhabited

/-- What identifies the image in use: its slot, sequence, safety value, Bedrock check, length and CRC. -/
structure ImgId where
  seq : W32 := 0
  safety : W32 := 0
  bedrock : W32 := 0
  len : Nat := 0
  crc : W32 := 0
deriving DecidableEq, Repr, Inhabited

/-- State of the peg interface and image loader. -/
structure PegSt where
  present : Bool := false
  /-- Bytes of the peg; an unlisted address reads 0xFF. -/
  mem : List (Nat × Byte) := []
  slots : Tab SlotSt := []
  /-- IMG_SEL[1:0]; 3 none. -/
  sel : Nat := 3
  uncommissioned : Bool := false
  /-- The reads of IMAGE SELECT or the second read are under way (R44, R45). -/
  reading : Bool := true
  /-- The choice of R39 has not been made yet. -/
  selecting : Bool := false
  /-- Slot open for writing. -/
  openSlot : Option Nat := none
  chg : ChgState := .idle
  /-- CHG_STATE[5:4]; 3 none. -/
  chgSlot : Nat := 3
  chgResult : Nat := 0
  chgSeq : W32 := 0
  chgInstant : W32 := 0
  chgPause : Nat := 0
  chgCount : Nat := 0
  /-- The image staged by an accepted COMMIT. -/
  staged : List Section := []
  stagedId : ImgId := {}
  /-- Monotonic ns of t2 of R54. -/
  holdAt : Nat := 0
  /-- A function reset of 0x09 that waits for t5 (15 R479). -/
  resetWaits : Bool := false
  /-- A disable of 0x09 that waits for t5 (20 R591). -/
  drainWaits : Bool := false
deriving DecidableEq, Repr, Inhabited

/-- One OTP slot that has been used: its value, and whether its read-back passed (02 R62, R66). -/
structure OtpSlot where
  bytes : List W32 := []
  passed : Bool := true
deriving DecidableEq, Repr, Inhabited

/-- Used slots of one item and index, oldest first. -/
abbrev OtpItem := List OtpSlot

/-- A programming of an OTP slot under way (02 R65, R66). -/
structure OtpBusy where
  item : Nat := 0
  index : Nat := 0
  value : List W32 := []
  origin : Origin := .module
  /-- Who asked: 0 generic procedure, 1 COMMISSION, 2 ROLE_KEY, 3 trim, 4 commissioning hand-on, 5 trim by the
  generic procedure. -/
  by' : Nat := 0
  /-- Role of a ROLE_KEY write. -/
  role : Nat := 0
deriving DecidableEq, Repr, Inhabited

/-- State of the one-time settings (02 R62–R68). -/
structure OtpSt where
  /-- Used slots, keyed by item × 256 + index. -/
  items : Tab OtpItem := []
  selItem : Nat := 0
  selIndex : Nat := 0
  data : W32 := 0
  result : Nat := 0
  busy : Option OtpBusy := none
deriving DecidableEq, Repr, Inhabited

/-- The operation of a PEG_WRITE message (02 R49). -/
inductive PegOp where
  | openSlot (slot : Nat)
  | data (slot off : Nat) (bytes : List Byte)
  | close (slot : Nat)
  | erase (slot : Nat)
deriving DecidableEq, Repr, Inhabited

end Sys2Proof
end

