-- ==== Sys2Proof/Parts/Pool.lean ====
section
/-! DEFINITION. Configuration and state of the buffer pool, the fabric and the arbiter (chapter 14). -/

namespace Sys2Proof

/-- The pool fields of section 0x0F (14 R444). -/
structure PoolCfg where
  /-- POOL_RES_r by rank. -/
  res : List Nat := [16, 64, 512, 512, 256, 32, 32, 512, 64, 16, 8, 64, 128, 256, 64, 128]
  /-- POOL_LE_BW in MB/s. -/
  leBw : Nat := 100
  /-- ARB_STARVE_US in µs. -/
  starve : Nat := 10000
deriving DecidableEq, Repr, Inhabited

/-- One block of the pool. -/
structure BlockSt where
  /-- ID of the function that holds it. -/
  owner : Option Nat := none
  /-- A parity error was found; it is retired when freed. -/
  marked : Bool := false
  retired : Bool := false
deriving DecidableEq, Repr, Inhabited

/-- A requester of the fabric: a function, with its port B for the ring (14 R446). -/
structure Requester where
  fn : Fn := .module
  portB : Bool := false
deriving DecidableEq, Repr, Inhabited

/-- A tag in flight (14 R440). -/
structure TagSt where
  fn : Nat := 0
  portB : Bool := false
  since : Nat := 0
deriving DecidableEq, Repr, Inhabited

/-- A requester that waits for the grant. -/
structure WaitSt where
  who : Requester := {}
  since : Nat := 0
  /-- ARB_STARVED was raised in this episode. -/
  starved : Bool := false
deriving DecidableEq, Repr, Inhabited

/-- One burst moved: when, by which function, bytes and CK4 cycles. -/
structure Burst where
  time : Nat := 0
  fn : Nat := 0
  bytes : Nat := 0
  cycles : Nat := 0
deriving DecidableEq, Repr, Inhabited

/-- Counters of one function (14 R457). -/
structure ArbFn where
  refusals : Nat := 0
  /-- POOL_EXHAUSTED was raised in this episode. -/
  exhausted : Bool := false
  /-- Longest wait in ns. -/
  wait : Nat := 0
  /-- Highest MB/s of one second. -/
  bwMax : Nat := 0
deriving DecidableEq, Repr, Inhabited

/-- A resource of the fixed order (14 R452, R453). -/
structure LockSt where
  owner : Option Nat := none
  waiters : List Nat := []
deriving DecidableEq, Repr, Inhabited

/-- State of the pool and the arbiter. -/
structure PoolSt where
  blocks : Tab BlockSt := []
  /-- Blocks taken at most at one time since module start, retired ones included. -/
  mostTaken : Nat := 0
  tags : Tab (Option TagSt) := []
  tagsMax : Nat := 0
  holder : Option Requester := none
  waits : List WaitSt := []
  /-- Bursts of the last second, newest first. -/
  bursts : List Burst := []
  utilMax : Nat := 0
  parity : Nat := 0
  orderCount : Nat := 0
  fns : Tab ArbFn := []
  locks : Tab LockSt := []
deriving DecidableEq, Repr, Inhabited

end Sys2Proof
end

