-- ==== Sys2Proof/Parts/Power.lean ====
section
/-! DEFINITION. Configuration and state of the module function, its power, clocks and bivouac
(chapters 01 and 20). -/

namespace Sys2Proof

/-- A wake input (20 R589). -/
structure WakeCfg where
  group : Nat := 0
  point : Nat := 0
  /-- 1 rising, 2 falling, 3 both. -/
  edge : Nat := 3
deriving DecidableEq, Repr, Inhabited

/-- The module record of section 0x0F (01 R615). -/
structure ModuleCfg where
  bivTimer : Nat := 0
  wakes : List WakeCfg := []
  /-- Largest checkpoint state of the image in KiB (17 R521). -/
  ckptKiB : Nat := 0
deriving DecidableEq, Repr, Inhabited

/-- How the present start began (20 R585): power-on, module restart or bivouac exit. -/
inductive StartKind where
  | powerOn | restart | bivouacExit
deriving DecidableEq, Repr, Inhabited

/-- Stages of a bivouac entry (20 R588). -/
inductive BivStage where
  | none
  /-- Accepted, before t2. -/
  | accepted
  /-- Releases held and the final checkpoint written; waits for t4. -/
  | held
deriving DecidableEq, Repr, Inhabited

/-- A wake cause with its controller or input (20 R589). -/
structure WakeCause where
  cause : Nat := 0
  arg : Nat := 0
deriving DecidableEq, Repr, Inhabited

/-- State of function 0x00 and of the power controller. -/
structure ModuleSt where
  state : ModState := .pitch
  hold : HoldCause := .none
  start : StartKind := .powerOn
  /-- HEALTH as last assembled (01 R28, R30). -/
  health : W32 := 0
  selfTestPass : Bool := true
  imageValid : Bool := true
  cmpLatched : Bool := false
  parityRepair : Bool := false
  /-- Groundsheet position coding: 0 single, 1 fore, 2 aft, other values invalid (17 R502). -/
  position : Nat := 0
  -- supplies (20 R571–R577), mV
  supplyA : Nat := 24000
  supplyB : Nat := 24000
  lostA : Bool := false
  lostB : Bool := false
  warning : Bool := false
  warnAt : Nat := 0
  /-- The event window of t3 has closed. -/
  windowClosed : Bool := false
  /-- t4 has passed: the non-held domains are off. -/
  below14 : Bool := false
  warnEnded : Nat := 0
  charge : Nat := 100
  storeGood : Bool := true
  -- temperature, 0.1 °C
  temp : Int := 0
  tempMax : Int := 0
  overTemp : Bool := false
  overTempCrit : Bool := false
  -- clocks
  clkDev : Int := 0
  driftRun : Nat := 0
  okRun : Nat := 0
  faultRun : Nat := 0
  drift : Bool := false
  /-- PWR_DOMAINS, bit n = PDn on. -/
  domains : BitVec 12 := 0xFFF
  /-- CLK_RUN, bit n = CKn running. -/
  clocks : BitVec 14 := 0x3FFF
  /-- Operating time in ns (operating seconds are its whole seconds). -/
  operNs : Nat := 0
  powerCycles : Nat := 0
  /-- Local checkpoint: the last start restored from a checkpoint. -/
  restored : Bool := false
  -- bivouac
  bivTimerSet : Option Nat := none
  bivStage : BivStage := .none
  bivRequestTimer : Nat := 0
  bivWakeLatched : Option WakeCause := none
  bivCause : Nat := 0
  bivArg : Nat := 0
  bivRejected : Nat := 0
  bivCount : Nat := 0
  /-- Silt timer of the present bivouac in s; 0 none. -/
  siltTimer : Nat := 0
  /-- A module restart under way began with handover first (15 R482). -/
  restartAfterHandover : Bool := false
deriving DecidableEq, Repr, Inhabited

end Sys2Proof
end

