-- ==== Sys2Proof/Parts/Recorder.lean ====
section
/-! DEFINITION. Configuration and state of the event recorder (chapter 19). -/

namespace Sys2Proof

/-- One record of the event ring or the audit region (19 R556). -/
structure Rec where
  seq : Nat := 0
  ev : Event := {}
  rep : Nat := 0
  lostBefore : Bool := false
  /-- Events lost in the episode that the record ends; REC_LOST follows it with this number. -/
  lostN : Nat := 0
  /-- The record is a copy in the audit region. -/
  audit : Bool := false
  /-- Last offset, in units of 0.1 s. -/
  lastOff : Nat := 0
  /-- REC_RECORD_BAD was raised for this record. -/
  badRaised : Bool := false
deriving DecidableEq, Repr, Inhabited

/-- A sender's cursor of one region (19 R563). -/
structure Cursor where
  sender : Nat := 0
  role : Role := .observe
  region : Nat := 0
  cur : Nat := 0
deriving DecidableEq, Repr, Inhabited

/-- State of the event recorder. -/
structure RecSt where
  /-- Events that the fabric has delivered and the recorder has not yet taken. -/
  inbox : List Event := []
  /-- The staging FIFO, oldest first (19 R560). -/
  staging : List Rec := []
  /-- Records of the event ring, newest first. -/
  ring : List Rec := []
  /-- Records of the audit region, newest first. -/
  auditRing : List Rec := []
  next : Nat := 0
  oldest : Nat := 0
  auditNext : Nat := 0
  auditOldest : Nat := 0
  lost : Nat := 0
  /-- Events lost in the present episode. -/
  lostEpisode : Nat := 0
  fifoMax : Nat := 0
  bad : Nat := 0
  /-- Audit records overwritten since the area was first used (19 R554). -/
  auditOverwritten : Nat := 0
  /-- A runtime value of REC_REPEAT; `none` is the image value. -/
  repeatSet : Option Nat := none
  /-- A REC_CLEAR waits for the next commit, with the origin of its write. -/
  clearWaits : Option Origin := none
  /-- Records staged before the clear was applied. -/
  clearAfter : Nat := 0
  cursors : List Cursor := []
  /-- Mirrors in the recorder header (19 R558). -/
  mirSecs : Nat := 0
  mirCycles : Nat := 0
  mirLost : Nat := 0
deriving DecidableEq, Repr, Inhabited

end Sys2Proof
end

