-- ==== Sys2Proof/Config.lean ====
section
/-! DEFINITION. What an image and an implementation fix: the configuration a Slohal image carries, and the
constants of the hardware that spec/ names and gives no value.

Each constant is opaque: nothing can be proved of its value, so a statement holds for every value. -/

namespace Sys2Proof

/-- The configuration that the sections of an image carry (02 R36). -/
structure ImageCfg where
  logic : LogicCfg := {}
  layout : Tab LayEntry := []
  loops : LoopCfg := {}
  alarm : AlarmCfg := {}
  bedrock : BedrockCfg := {}
  banks : Tab BankCfg := []
  /-- Point rows, keyed by group × 8 + point. -/
  points : Tab DpCfg := []
  axes : Tab AxisCfg := []
  can : Tab CanCfg := []
  time : TimeCfg := {}
  mmp : MmpCfg := {}
  panel : PanelCfg := {}
  pair : PairCfg := {}
  /-- REC_REPEAT of the recorder section (19 R568). -/
  recRepeat : Nat := 100
  module : ModuleCfg := {}
  pool : PoolCfg := {}
  /-- FN_EVMASK of each function, keyed by its ID (01 R19). -/
  evmask : Tab W32 := []
deriving DecidableEq, Repr, Inhabited

/-- What the sections of an image say. spec/ gives the fields of each section and not their byte layout.
In part by log 7 (DESIGN CHOICE, safe). -/
opaque Config.imageOf : List Section → ImageCfg
/-- The record of function `fn` inside a section that configures several functions (01 R615).
In part by log 7 (DESIGN CHOICE, safe). -/
opaque Config.recordOf : Nat → Nat → List Byte → List Byte
/-- The row record of row `r`, as stored, in the bytes of a section of type `ty` (13 R420).
In part by log 7 (DESIGN CHOICE, safe). -/
opaque Config.rowOf : Nat → Nat → List Byte → List Byte
/-- Free values, one for each reading of the counter State.freeCount. In part by log 1 (DESIGN CHOICE, safe). -/
opaque Config.freeWord : Nat → BitVec 32
/-- Hardware revision, FN_IDENT[15:0] (01 R19). In part by log 9 (DESIGN CHOICE, safe). -/
opaque Config.revision : BitVec 16
/-- The servo's frequency adjustment after a Sync, in 2⁻³² ns per cycle, before the limits of 07 R211.
In part by log 9 (DESIGN CHOICE, safe). -/
opaque Config.servoAdj : Nat → BitVec 32
/-- Factory PHY latencies in the order of 07 R223. In part by log 9 (DESIGN CHOICE, safe). -/
opaque Config.phyLatency : Nat → BitVec 32
/-- Volts at the converter input for one raw count of a mode, binary64 (03 R92).
In part by log 9 (DESIGN CHOICE, safe). -/
opaque Config.convScale : Nat → F64
/-- Factory trim set of a channel: gain and offset of a kind (02 R62; 03 R92).
In part by log 9 (DESIGN CHOICE, safe). -/
opaque Config.factoryTrim : Nat → Nat → BitVec 16 × BitVec 16
/-- Binary32 coefficients of a built-in set other than 0x0000, at index 6j + i (05 R152).
In part by log 9 (DESIGN CHOICE, safe). -/
opaque Config.linCoef : Nat → Nat → BitVec 32
/-- Plausibility window of a built-in set (05 R152, R163). In part by log 9 (DESIGN CHOICE, safe). -/
opaque Config.linWindow : Nat → BitVec 32 × BitVec 32
/-- Factory gamma table of a band: level to amplitude code (18 R531). In part by log 9 (DESIGN CHOICE, safe). -/
opaque Config.panelGamma : Nat → Nat → BitVec 6
/-- Factory overdrive table of a band, signed (18 R531, R533). In part by log 9 (DESIGN CHOICE, safe). -/
opaque Config.panelOverdrive : Nat → Nat → Nat → BitVec 7
/-- The level that the renderer draws at pixel x, y and colour k, from what a frame shows there (18 R535, R542, R543):
source 0 system strip, 1 system page, 2 region, 3 page ground; page, region, and the numbers drawn.
In part by log 9 (DESIGN CHOICE, safe) and log 61 (DESIGN CHOICE, unsafe). -/
opaque Config.panelPixel : Nat → Nat → Nat → List Nat → Nat → Nat → Nat → BitVec 6
/-- The command number of PNL_LOCAL_CMD (18 R552), of which spec/ gives no codes.
In part by log 9 (DESIGN CHOICE, safe). -/
opaque Config.localCmdCode : LocalCmd → BitVec 8

end Sys2Proof
end

