-- ==== Sys2Proof/Parts/Ckpt.lean ====
section
/-! DEFINITION. Checkpoints of process state (17 R511, R512; 20 R584, R585). -/

namespace Sys2Proof

/-- A checkpoint: its header, and the parts of process state listed in 17 R512. -/
structure Ckpt where
  /-- 32-bit sequence. -/
  seq : Nat := 0
  station : Nat := 0
  /-- Its instant on the silt count, in ns of monotonic time. -/
  instant : Nat := 0
  /-- Size in KiB. -/
  kib : Nat := 0
  /-- The image that ran, by which objects are matched (20 R585). -/
  img : ImageCfg := {}
  /-- Last commissioned value (13 R426). -/
  comm : Option W32 := none
  /-- RETAIN variables. -/
  vars : Tab (Option W32) := []
  forces : Tab ForceSlot := []
  lps : Tab LpSt := []
  /-- Readback of each loop's output. -/
  fbs : Tab (Option Qv) := []
  alarm : AlarmSt := {}
  fns : Tab SfSt := []
  /-- Output entries of banks and groups. -/
  outs : Tab (Option Qv) := []
  /-- Count entries, by group × 8 + point. -/
  counts : Tab W32 := []
  axes : Tab AxisSt := []
deriving DecidableEq, Repr, Inhabited

/-- A checkpoint being written. -/
structure CkptWrite where
  ck : Ckpt := {}
  /-- The local half that takes it: 0 A, 1 B. -/
  half : Nat := 0
  localDone : Bool := false
  /-- It is written to the state peg too. -/
  peg : Bool := false
  pegDone : Bool := false
deriving DecidableEq, Repr, Inhabited

/-- Local halves, and what the module knows of the state peg. -/
structure CkptSt where
  /-- Valid checkpoints in the halves of the MRAM. -/
  halfA : Option Ckpt := none
  halfB : Option Ckpt := none
  /-- The half written last: 0 A, 1 B. -/
  last : Nat := 1
  busy : Option CkptWrite := none
  /-- Checkpoints skipped in the present episode (17 R511). -/
  episode : Nat := 0
  /-- PAIR_CKPT_SEQ, the instant of that checkpoint and its size (17 R522). -/
  pairSeq : Nat := 0
  pairAt : Option Nat := none
  pairKib : Nat := 0
deriving DecidableEq, Repr, Inhabited

end Sys2Proof
end

