-- ==== Sys2Proof/Syntax.lean ====
section
/-! DEFINITION. The commands of the module: one constructor for each row of spec/opcode_table.json.

Each docstring gives the row and its rule. An operand is what the outside world supplies with the command
(a measured value, a received message, a written value), never a result of the module. -/

namespace Sys2Proof

/-- The commands of the HJ-M640, in the order of the opcode table, but that eight rows without operands stand last:
Lean's compiler takes no constructor with operands after the 244th. -/
inductive Instr where
  /-- POWER_GOOD (R572). Either supply input holds at or above its power-good threshold for 10 ms; the power-cycle count increments and SELF-TEST starts. -/
  | powerGood (supplyA supplyB : Nat) (coding : Nat)
  /-- SELF_TEST_END (R616). All self-tests finish; the module enters IMAGE SELECT, or enters HOLD with the cause of the first failing test. -/
  | selfTestEnd (sramOk : Bool) (fails : List (Nat × Nat)) (clockDev : Int)
  /-- IMAGE_SELECT_END (R39). The peg header and slots have been read and checked; an image is chosen and PITCH starts, or the module enters HOLD. -/
  | imageSelectEnd
  /-- SECOND_READ_END (R44). The second read of the chosen slot completes, sections are delivered to their functions and IMG_CRC is confirmed. -/
  | secondReadEnd (crc : W32)
  /-- FUNCTION_CONFIGURED (R21). A function accepts or refuses its configuration and moves to its next state. -/
  | functionConfigured (f : Fn)
  /-- PITCH_END (R508). PITCH ends; the module decides its role and enters RUN or STANDBY, restoring from a checkpoint where one is valid. -/
  | pitchEnd (peg : Option Ckpt) (claim same : Bool)
  /-- FUNCTION_RESET (R22). A write of 0xA5A5_0001 to FN_CTRL resets the function, which enters RESET. -/
  | functionReset (f : Fn) (r : Role)
  /-- FUNCTION_DISABLE (R21). A write of 0xA5A5_0002 to FN_CTRL moves the function from RUN or STANDBY into DRAIN. -/
  | functionDisable (f : Fn) (r : Role)
  /-- FUNCTION_ENABLE (R579). A write of 0xA5A5_0003 to FN_CTRL enables a disabled function; its domain powers up and it passes through RESET to PITCH. -/
  | functionEnable (f : Fn) (r : Role)
  /-- RESET_RELEASED (R21). The reset of a function is released, and the function enters PITCH with its arbiter mask removed. -/
  | resetReleased (f : Fn)
  /-- DRAIN_BREAK_POINT (R591). A draining function reaches its break point and enters DISABLED. -/
  | drainBreakPoint (f : Fn)
  /-- DRAIN_TIMEOUT (R592). A drain exceeds its maximum time, and the function enters FAULT. -/
  | drainTimeout (f : Fn)
  /-- POWER_FAIL_WARNING (R575). Both inputs stay below 16.5 V for 1 ms; counters are mirrored, the checkpoint is abandoned and the panel discharges. -/
  | powerFailWarning (supplyA supplyB : Nat)
  /-- EVENT_WINDOW_CLOSE (R575). 20 ms after the warning, the staging FIFO and the events admitted so far are committed. -/
  | eventWindowClose
  /-- INPUT_BELOW_14V (R575). The inputs fall below 14.0 V; the non-held domains switch off and the outputs go to their groundsheet states. -/
  | inputBelow14v (supplyA supplyB : Nat)
  /-- STORE_EXHAUSTED (R575). The hold-up store is exhausted and the module goes OFF. -/
  | storeExhausted
  /-- POWER_RESTORED (R577). An input returns to at least 18 V for 10 ms before t4, which ends the warning. -/
  | powerRestored (supplyA supplyB : Nat)
  /-- SUPPLY_LOST (R573). One input stays below 18 V for 10 ms while the other input is good. -/
  | supplyLost (b : Bool) (mv : Nat)
  /-- SUPPLY_OK (R573). A lost input has been at or above 18 V for 10 ms again. -/
  | supplyOk (b : Bool) (mv : Nat)
  /-- HOLDUP_LOW (R572). The charge of the hold-up store falls below its 40 ms level, and health bit 17 clears. -/
  | holdupLow (charge : Nat)
  /-- CLOCK_FAULT (R581). The Bedrock oscillator deviates by more than 2 % on two windows, and the module enters HOLD. -/
  | clockFault (ppm : Int)
  /-- CLOCK_DRIFT (R581). The Bedrock oscillator deviates by more than 0.02 % on 1000 consecutive windows. -/
  | clockDrift (ppm : Int)
  /-- CLOCK_LOST (R582). A phase-locked loop loses lock, and the functions clocked from that domain enter FAULT. -/
  | clockLost (domain : Fin 14)
  /-- TEMPERATURE_READ (R583). The internal temperature is measured every 100 ms and compared with the warning and critical thresholds. -/
  | temperatureRead (temp : Int)
  /-- CHECKPOINT (R584). The checkpoint period falls due, and the active module starts writing a checkpoint. -/
  | checkpoint
  /-- CHECKPOINT_COMPLETE (R511). A checkpoint write to the local half or the state peg completes, and its buffer header is written last. -/
  | checkpointComplete (onPeg : Bool)
  /-- HEADER_MIRROR (R558). Every 60 s, the operating seconds and the power-cycle count are mirrored to the recorder header. -/
  | headerMirror
  /-- BIVOUAC (R588). The BIVOUAC message requests entry; releases are held and a final checkpoint is written. -/
  | bivouac (m : Msg)
  /-- BIVOUAC_REQUEST (R586). The logic engine's request entry changes from 0 to a non-zero value, which requests bivouac entry. -/
  | bivouacRequest (timer : Nat)
  /-- BIVOUAC_ENTERED (R588). Entry completes: the panel is discharged, the outputs are at their groundsheet states and the domains are off. -/
  | bivouacEntered
  /-- CAN_WAKE (R497). A sleeping CAN transceiver sees its wake condition and wakes the module. -/
  | canWake (c : Fin 4) (f : Option CanFrame)
  /-- WAKE_INPUT (R589). The level of a wake input changes in its edge direction and holds for 10 ms. -/
  | wakeInput (n : Fin 8) (rising : Bool)
  /-- SILT_TIMER (R589). The silt timer of bivouac runs out. -/
  | siltTimer
  /-- MMP_WAKE (R589). A BIVOUAC wake datagram arrives; it is checked and either wakes the module or is rejected. -/
  | mmpWake (m : Msg)
  /-- MODULE_RESTART (R481). The MMP module restart takes every function through RESET, SELF-TEST, IMAGE SELECT and PITCH. -/
  | moduleRestart (m : Msg)
  /-- PEG_REMOVED (R48). The peg is removed while the module runs; an open slot or an early COMMIT is abandoned. -/
  | pegRemoved
  /-- PEG_INSERTED (R48). A peg is fitted; its header and slots are read, checked and classified. -/
  | pegInserted (mem : List (Nat × Byte))
  /-- PEG_WRITE_OPEN (R49). PEG_WRITE OPEN clears the magic of a slot and marks it WRITE_OPEN. -/
  | pegWriteOpen (m : Msg) (slot : Fin 3)
  /-- PEG_WRITE_DATA (R49). PEG_WRITE DATA writes bytes into the open slot. -/
  | pegWriteData (m : Msg) (slot : Fin 3) (off : Nat) (bytes : List Byte)
  /-- PEG_WRITE_CLOSE (R49). PEG_WRITE CLOSE reads the slot back and verifies it, then writes the magic or leaves the slot empty. -/
  | pegWriteClose (m : Msg) (slot : Fin 3)
  /-- PEG_WRITE_ERASE (R49). PEG_WRITE ERASE clears the magic of a slot. -/
  | pegWriteErase (m : Msg) (slot : Fin 3)
  /-- COMMIT (R53). The COMMIT message asks for an online change to a slot and is accepted or refused. -/
  | commit (m : Msg) (slot : Fin 3)
  /-- COMMIT_STAGED (R54). The slot has been read and verified, and the differing sections are staged in the image shadow. -/
  | commitStaged
  /-- COMMIT_SWITCH (R54). No logic instance is running after the hold, so the staged sections are switched into use. -/
  | commitSwitch
  /-- COMMIT_NO_IDLE (R54). No idle instant is found within 100 ms, so the commit is refused with NO_IDLE. -/
  | commitNoIdle
  /-- COMMIT_DONE (R54). The commit is recorded, FN_IMAGEREF is updated and the reply is sent. -/
  | commitDone
  /-- STANDBY_REPITCH (R59). The standby receives the image-change notice and repeats IMAGE SELECT and PITCH. -/
  | standbyRepitch
  /-- OTP_PROGRAM (R617). OTP_CMD 0x0A7B_0001 checks the request and programs the next unused slot, except the last. -/
  | otpProgram (r : Role)
  /-- OTP_PROGRAM_LAST (R617). OTP_CMD 0x0A7B_0002 checks the request and programs the next unused slot, the last one included. -/
  | otpProgramLast (r : Role)
  /-- OTP_WRITE (R66). Programming of an OTP slot completes with its read-back, and the audit record is written. -/
  | otpWrite (passed : Bool)
  /-- HEADROOM_MEASUREMENT (R76). The headroom of an output row is measured, at least every 2 ms. -/
  | headroomMeasurement (b : Fin 8) (c : Fin 16) (supply headroom : Nat)
  /-- CH_COMPLIANCE_LOW (R77). Headroom stays below 1.0 V for 8 ms, so compliance low is declared and the entry becomes UNCERTAIN/5. -/
  | chComplianceLow (b : Fin 8) (c : Fin 16)
  /-- CH_COMPLIANCE_SHORTFALL (R77). Compliance low lasts 100 ms, and the entry becomes BAD/5. -/
  | chComplianceShortfall (b : Fin 8) (c : Fin 16) (microamps : Nat)
  /-- CH_COMPLIANCE_OK (R77). Headroom stays at or above 1.5 V for 100 ms, which clears compliance low. -/
  | chComplianceOk (b : Fin 8) (c : Fin 16)
  /-- READBACK_VISIT (R84). The readback converter visits an output row, writes its readback entry and checks for deviation. -/
  | readbackVisit (b : Fin 8) (c : Fin 16) (v : Visit)
  /-- CH_BACKFEED (R88). Back-feed is sensed; the stage is disconnected and the back-feed bit latches. -/
  | chBackfeed (b : Fin 8) (c : Fin 16) (mv : Int)
  /-- CH_CLEAR (R86). A write of CH_CLEAR clears the back-feed and readback latches of the channels in the mask. -/
  | chClear (b : Fin 8) (mask : BitVec 16) (r : Role)
  /-- STRAP_SENSE (R82). The bank straps are sensed every 1 s. -/
  | strapSense (straps : List (Fin 4))
  /-- TRIM_START_CURRENT (R97). TRIM_CMD 0x7C1D_0001 starts a current output trim on the selected channel. -/
  | trimStartCurrent (b : Fin 8) (r : Role)
  /-- TRIM_START_VOLTAGE (R97). TRIM_CMD 0x7C1D_0002 starts a voltage output trim. -/
  | trimStartVoltage (b : Fin 8) (r : Role)
  /-- TRIM_START_INPUT (R97). TRIM_CMD 0x7C1D_0003 starts an input calibration. -/
  | trimStartInput (b : Fin 8) (r : Role)
  /-- TRIM_ACCEPT (R93). ACCEPT takes TRIM_MEAS for the present point and starts averaging 16 conversions. -/
  | trimAccept (b : Fin 8) (r : Role)
  /-- TRIM_AVERAGE_DONE (R94). The averaging of a point ends; the next point follows, or the correction is computed and checked against its limits. -/
  | trimAverageDone (b : Fin 8) (avg : F64)
  /-- TRIM_WRITE (R98). WRITE programs the computed set into OTP. -/
  | trimWrite (b : Fin 8) (r : Role)
  /-- TRIM_WRITTEN (R98). The trim OTP write completes, and the new set is in use. -/
  | trimWritten (b : Fin 8) (passed : Bool)
  /-- TRIM_ABORT (R96). ABORT ends the procedure without an OTP write. -/
  | trimAbort (b : Fin 8) (r : Role)
  /-- TRIM_TIMEOUT (R96). 30 min pass without a TRIM command, which ends the procedure. -/
  | trimTimeout (b : Fin 8)
  /-- SLOT_SUBMIT (R118). A write of SLOT_SUBMIT submits the shadow slot table, which is checked. -/
  | slotSubmit (b : Fin 8) (r : Role)
  /-- FRAME_START (R113). An excitation frame starts, and every lane restarts at its first entry. -/
  | frameStart (b : Fin 8)
  /-- EXCITATION_CHANGE (R114). The duration of a slot entry ends, and its lane moves to its next entry. -/
  | excitationChange (b : Fin 8) (lane : Fin 4)
  /-- CONVERSION_RESULT (R148). A converter result is linearised, scaled, checked and written to the image with its quality. -/
  | conversionResult (b : Fin 8) (c : Fin 16) (raw : Int) (d : FeDiag)
  /-- COMP_FAILED (R151). Compensation has been lost for 60 s, and the entry becomes BAD/8. -/
  | compFailed (b : Fin 8) (c : Fin 16)
  /-- RIDE_TIME_END (R158). RIDE_TIME expires, and the entry shows BAD with its cause. -/
  | rideTimeEnd (b : Fin 8) (c : Fin 16)
  /-- CJ_SENSOR_READ (R150). The cold-junction sensors are read every 100 ms. -/
  | cjSensorRead (b : Fin 8) (t0 t1 : Option F32)
  /-- TRACK_MEASUREMENT (R128). An 8-period frequency measurement of TRACK_PT completes and may change the notch length. -/
  | trackMeasurement (b : Fin 8) (c : Fin 16) (centihertz : Nat)
  /-- NOTCH_TRACK_LOST (R129). 1 s passes without a valid measurement, and the notch enters HOLDING. -/
  | notchTrackLost (b : Fin 8) (c : Fin 16)
  /-- NOTCH_FALLBACK (R129). A further 9 s pass without a valid measurement, and the combined notch is used. -/
  | notchFallback (b : Fin 8) (c : Fin 16)
  /-- CH_CLAMP_ACTIVE (R132). The clamp flag of a terminal is set, and the row's entries take cause 4. -/
  | chClampActive (b : Fin 8) (t : Fin 48)
  /-- CH_CLAMP_RELEASED (R131). 10 ms pass without clamp current, the flag clears and the row settles. -/
  | chClampReleased (b : Fin 8) (t : Fin 48)
  /-- TEST_PULSE (R134). A burnout or pull test pulse of a row runs and is judged. -/
  | testPulse (b : Fin 8) (c : Fin 16) (dev1 dev2 : Nat)
  /-- COUNTER_PRESET (R172). A released preset write loads the counter at the next filter clock. -/
  | counterPreset (g p : Fin 8) (v : W32)
  /-- FREQ_GATE_END (R173). A frequency gate completes, and the frequency entry is computed. -/
  | freqGateEnd (g p : Fin 8)
  /-- DP_OUT_TRIP (R175). A digital output trips on current limit or thermal shutdown; a retry is scheduled or the output latches. -/
  | dpOutTrip (g p : Fin 8)
  /-- OUTPUT_RETRY (R175). 100 ms after a trip, the output is switched on again. -/
  | outputRetry (g p : Fin 8)
  /-- TRIP_FREE_TIME (R175). 1 s of trip-free on-time ends the run of trips and clears UNCERTAIN/6. -/
  | tripFreeTime (g p : Fin 8)
  /-- DP_EXTERNAL_FEED (R177). The readback reads 1 for 2 ms while the command is OFF. -/
  | dpExternalFeed (g p : Fin 8) (mv : Nat)
  /-- DG_CLEAR (R176). A write of DG_CLEAR clears the trip latches and retry counts of the points in the mask. -/
  | dgClear (g : Fin 8) (mask : BitVec 8) (r : Role)
  /-- DG_SUPPLY_LOW (R180). VF g is below 18.0 V for 1 ms. -/
  | dgSupplyLow (g : Fin 8) (mv : Nat)
  /-- DG_SUPPLY_OK (R180). VF g is at or above 19.0 V for 10 ms. -/
  | dgSupplyOk (g : Fin 8) (mv : Nat)
  /-- DG_OVERLOAD (R180). The group or module output current exceeds its limit for its time. -/
  | dgOverload (g : Fin 8) (ma : Nat) (moduleLimit : Bool)
  /-- WD_EXPIRED (R182). The silence watchdog of an output expires, and the output drives its safe state. -/
  | wdExpired (o : OutRef)
  /-- SYNC (R210). A PTP Sync from the chosen master is taken by the servo. -/
  | sync (m : SyncMsg)
  /-- TU_HOLDOVER (R210). No valid Sync arrives for 3 s, and the servo enters HOLDOVER. -/
  | tuHoldover
  /-- ANNOUNCE (R202). A PTP Announce is received, and the best master choice is evaluated. -/
  | announce (a : Announce)
  /-- FOLLOW_UP (R207). A Follow_Up is matched to its two-step entry and corrected, or dropped. -/
  | followUp (port : Port) (srcId seq domain : Nat) (corr : Int)
  /-- TWO_STEP_EXPIRY (R207). A two-step entry without a Follow_Up is freed after 1 s. -/
  | twoStepExpiry (srcId seq domain : Nat)
  /-- PDELAY_REQ (R205). A received Pdelay_Req is answered with a one-step Pdelay_Resp. -/
  | pdelayReq (port : Port) (seq : Nat) (corr ingress egress : Int)
  /-- PDELAY_MEASUREMENT (R205). A port starts its link delay measurement, every 1 s. -/
  | pdelayMeasurement (port : Port) (egress : Int)
  /-- PDELAY_RESP (R205). A Pdelay_Resp completes a link delay measurement. -/
  | pdelayResp (port : Port) (seq : Nat) (corr t2 t3 t4 : Int)
  /-- CANREL_CAPTURE (R197). Every 10 ms the CAN stamp and the time word are captured together. -/
  | canrelCapture
  /-- MATCH_ARM (R200). A write of MATCH_CTRL[0] arms a match unit. -/
  | matchArm (n : Fin 8) (r : Role)
  /-- TU_MATCH (R200). A match unit fires and performs its action. -/
  | tuMatch (n : Fin 8)
  /-- TIME_LO_READ (R195). A read of TIME_LO latches TIME_HI in the same cycle. -/
  | timeLoRead
  /-- FIRST_OUT_CAPTURE (R213). A capture-enabled edge, SOF or PTP message is stamped and written to the capture FIFO. -/
  | firstOutCapture (c : CapSource)
  /-- ALARM_TICK (R229). The 10 ms alarm tick snapshots the image, applies commands, evaluates points, groups and the call, and releases outputs. -/
  | alarmTick (us : Nat)
  /-- ON_DELAY_END (R232). The on delay of a point runs out, and its delayed condition becomes 1. -/
  | onDelayEnd (n : Fin 2048)
  /-- OFF_DELAY_END (R232). The off delay of a point runs out, and its delayed condition becomes 0. -/
  | offDelayEnd (n : Fin 2048)
  /-- SHELVE_TIME_END (R233). The shelve time of a point runs out, and the point re-enters. -/
  | shelveTimeEnd (n : Fin 2048)
  /-- ALARM_RELEASED (R235). The suppression release delay ends, and the point re-enters. -/
  | alarmReleased (n : Fin 2048)
  /-- ESCALATION (R251). T_ESC passes in stage 2, and the call escalates to stage 3. -/
  | escalation
  /-- STATION_LOST (R248). No GROUP_STATE arrives from a forwarding station for 3 s. -/
  | stationLost (n : Fin 16)
  /-- DM_PREWARN (R254). The dead-man timer reaches DM_T, and the pre-warning output switches on. -/
  | dmPrewarn
  /-- DM_ALARM (R254). The dead-man timer reaches DM_T + DM_T2, and the dead-man alarm calls at stage 3. -/
  | dmAlarm
  /-- ACK (R241). ALARM_CMD ACK acknowledges points at location 0, or silences a cabin or the bridge. -/
  | ack (m : Msg)
  /-- SHELVE (R236). ALARM_CMD SHELVE shelves a point for a duration, or is refused. -/
  | shelve (m : Msg)
  /-- UNSHELVE (R233). ALARM_CMD UNSHELVE ends the shelving of a point. -/
  | unshelve (m : Msg)
  /-- ALM_OOS (R240). A write of ALM_OOS sets or clears the out-of-service state of a point at the next tick. -/
  | almOos (v : W32) (r : Role)
  /-- CALL_UMS (R249). A write of CALL_UMS selects follow, manned or UMS. -/
  | callUms (v : W32) (r : Role)
  /-- CALL_DUTY (R249). A write of CALL_DUTY selects the duty engineer, or is refused with INDEX. -/
  | callDuty (v : W32) (r : Role)
  /-- GROUP_STATE (R475). A received GROUP_STATE updates the forwarded groups at the call master. -/
  | groupState (m : Msg)
  /-- GROUP_STATE_SEND (R247). A forwarding station sends GROUP_STATE on a change and every 1 s. -/
  | groupStateSend (master : Nat)
  /-- CALL_NOTIFY_REPEAT (R475). CALL_NOTIFY is repeated to a unit every 5 s. -/
  | callNotifyRepeat (unit : Nat)
  /-- CALL_CLEAR_REPEAT (R475). CALL_CLEAR is repeated, three times in all, 1 s apart. -/
  | callClearRepeat (unit : Nat)
  /-- ACK_KEY (R239). The panel ACK key sends ACK of all points at PANEL_LOC. -/
  | ackKey
  /-- SILENCE_KEY (R239). The panel SILENCE key silences at PANEL_LOC. -/
  | silenceKey
  /-- LOGIC_BASE_TICK (R267). The 250 µs base tick releases the due periodic tasks and applies forces and commit holds. -/
  | logicBaseTick
  /-- EVENT_TASK_ITEM (R276). An event or capture entry arrives for an event task and is queued. -/
  | eventTaskItem (kind : Fin 2)
  /-- TASK_INSTANCE_START (R270). A ready instance is chosen; pass P starts and samples the asynchronous inputs. -/
  | taskInstanceStart (n : Fin 33) (reads : List Nat)
  /-- BACKGROUND_CYCLE_START (R277). The background cycle starts again after its release, or after BG_FLOOR. -/
  | backgroundCycleStart
  /-- SEGMENT_COMPARE (R297). Pass C completes a segment, which compares equal or mismatches. -/
  | segmentCompare (e : Engine) (unit : Nat) (r : SegRun)
  /-- TASK_RELEASE (R272). The last segment compares equal, and the instance commits and releases its outputs, variables and events together. -/
  | taskRelease (n : Fin 33) (w : WriteSet)
  /-- RUN_TIME_ERROR (R278). A run-time error in an instance puts its task in FAULT with cause 3. -/
  | runTimeError (n : Fin 33)
  /-- BACKGROUND_WATCHDOG (R277). The background cycle has not released within BG_WD, so it enters FAULT. -/
  | backgroundWatchdog
  /-- TASK_RESTART (R279). LE_TASK_CMD restarts a task in FAULT. -/
  | taskRestart (v : W32) (r : Role)
  /-- FORCE (R282). The FORCE message forces an input, output or variable, or is refused. -/
  | force (m : Msg) (kind : Fin 3) (ty : Vty) (tgt : Nat) (v : W32)
  /-- RELEASE (R286). The RELEASE message ends one force or all forces. -/
  | release (m : Msg) (kind : Fin 4) (tgt : Nat)
  /-- SCRUB (R312). The background scrub reads all SRAM and repairs single-copy errors. -/
  | scrub (hits : List (Engine × ParityHit))
  /-- COMPARATOR_TEST_PART (R314). A part of the daily difference-injection test runs at an idle point. -/
  | comparatorTestPart (e : Engine) (upto : Nat) (fails : List Nat)
  /-- COMPARATOR_TEST_OVERDUE (R315). The daily test has not completed 1 h after it fell due. -/
  | comparatorTestOverdue (e : Engine)
  /-- LOOP_RELEASE (R321). A 125 µs loop tick releases the due loop samples. -/
  | loopRelease
  /-- LOOP_SAMPLE (R327). A loop sample takes its inputs, evaluates its mode and law, and releases its output and loop entries. -/
  | loopSample (n : Fin 256)
  /-- LP_TARGET (R334). A write of LP_TARGET sets the loop target. -/
  | lpTarget (n : Fin 256) (v : F32) (r : Role)
  /-- LP_MANV (R352). A write of LP_MANV sets the manual value. -/
  | lpManv (n : Fin 256) (v : F32) (r : Role)
  /-- LP_MODE_REQ (R333). A write of LP_MODE_REQ requests a loop mode. -/
  | lpModeReq (n : Fin 256) (v : W32) (r : Role)
  /-- SWAP (R339). LP_CMD SWAP checks the inactive bank and makes a swap pending. -/
  | swap (n : Fin 256) (r : Role)
  /-- RESTART (R341). LP_CMD RESTART takes a loop out of FAULT into MAN. -/
  | restart (n : Fin 256) (r : Role)
  /-- LOOP_BANK_EDITED (R338). A write to the inactive coefficient bank is accepted and recorded. -/
  | loopBankEdited (n : Fin 256) (bankB : Bool) (word : Fin 6) (v : F32) (r : Role)
  /-- TEST_START (R344). LT_CMD START begins a test-signal test on a loop, or is refused. -/
  | testStart (r : Role)
  /-- TEST_STOP (R348). LT_CMD STOP ends the running test. -/
  | testStop (r : Role)
  /-- AXIS_TICK (R364). The 250 µs axis tick applies torque removals, faults, limits, commands and target changes in order, and writes the axis entries. -/
  | axisTick (a : Fin 4) (supply drive : Nat)
  /-- ENERGISE (R365). ENERGISE puts an axis from NO_TORQUE into STOPPED at hold current. -/
  | energise (a : Fin 4) (src : CmdSrc)
  /-- DEENERGISE (R365). DEENERGISE removes torque after a profile stop. -/
  | deenergise (a : Fin 4) (src : CmdSrc)
  /-- STOP (R369). STOP brakes the axis by its profile, or ends a dwell. -/
  | stop (a : Fin 4) (src : CmdSrc)
  /-- QUICK_STOP (R369). QUICK_STOP brakes the axis at AX_QSD. -/
  | quickStop (a : Fin 4) (src : CmdSrc)
  /-- RESUME (R369). RESUME starts a move to the pending target. -/
  | resume (a : Fin 4) (src : CmdSrc)
  /-- HOME (R378). HOME starts the homing sequence of the axis's mode. -/
  | home (a : Fin 4) (src : CmdSrc)
  /-- CLEAR (R365). CLEAR takes an axis out of FAULT. -/
  | clear (a : Fin 4) (src : CmdSrc)
  /-- SYNC_POT (R384). SYNC_POT sets the position from the potentiometer. -/
  | syncPot (a : Fin 4) (src : CmdSrc)
  /-- TARGET_CHANGE (R368). A new AX_TGT is taken, which starts or redirects a move. -/
  | targetChange (a : Fin 4) (t : W32)
  /-- MICROSTEP (R367). The step interval elapses, and a microstep is issued with the next speed and interval computed. -/
  | microstep (a : Fin 4)
  /-- DWELL_END (R368). The reversal dwell ends, and the next move starts, or the axis enters IDLE. -/
  | dwellEnd (a : Fin 4)
  /-- HOLD_DELAY_END (R359). AX_HOLD_DLY after rest passes, and the hold current applies. -/
  | holdDelayEnd (a : Fin 4)
  /-- AX_DRIVER_FAULT (R360). The drive detects a protection condition and removes torque. -/
  | axDriverFault (a : Fin 4) (cause : Nat)
  /-- AX_LIMIT (R376). A limit switch asserts, which latches the limit and stops motion toward it. -/
  | axLimit (a : Fin 4) (positive : Bool)
  /-- LOAD_ANGLE_ESTIMATE (R381). A load-angle estimate is taken every 64 µsteps. -/
  | loadAngleEstimate (a : Fin 4) (deg : Nat) (emf : F32)
  /-- POT_CHECK (R384). A new GOOD potentiometer value is checked against the position. -/
  | potCheck (a : Fin 4)
  /-- STEP_EDGE (R371). A coarse step edge in mode 2 adds microsteps to the queue and sets the interval. -/
  | stepEdge (a : Fin 4) (dir : Bool)
  /-- VELOCITY_UPDATE (R374). Every 1 ms the PS-40 velocity word is updated. -/
  | velocityUpdate (a : Fin 4)
  /-- CARRY (R373). A carry of the phase accumulator advances the axis by AX_PS_DIV µsteps. -/
  | carry (a : Fin 4)
  /-- SAFETY_CYCLE (R397). A Bedrock safety cycle samples, votes, trips, monitors SS1 and resets, then drives the outputs, STO and axis lines. -/
  | safetyCycle (us : Nat) (readback : BitVec 8)
  /-- BR_CYCLE_OVERRUN (R396). A cycle has not reached t3 by the next cycle start, so every function trips. -/
  | brCycleOverrun (us : Nat)
  /-- VOTE_DISCREPANCY (R409). The channels of a group disagree for VG_DISC_T. -/
  | voteDiscrepancy (g : Fin 128)
  /-- STO_TEST_PULSE (R402). An STO channel is pulsed off for its test every 2 s. -/
  | stoTestPulse (k : Fin 4) (ch : Fin 2) (ok : Bool)
  /-- STO_CHANNEL_FAULT (R403). An STO channel readback disagrees, so the pair switches off and latches. -/
  | stoChannelFault (k : Fin 4) (ch : Fin 2)
  /-- COMMISSION (R421). The COMMISSION message commissions the safety value into OTP, or is refused. -/
  | commission (m : Msg) (value : W32) (confirmLast : Bool)
  /-- COMMISSION_HAND_ON (R422). The standby receives a commissioned value over the guy line and checks it. -/
  | commissionHandOn (value : W32)
  /-- PARTNER_UNCOMMISSIONED (R422). The standby refuses the value, or does not answer within 1 s. -/
  | partnerUncommissioned (result : Nat)
  /-- BSL (R476). A received BSL message is offered to its consumer connections and checked. -/
  | bsl (m : Msg)
  /-- BSL_TIMEOUT (R431). BSL_WD passes without an accepted frame, so the data become safe values. -/
  | bslTimeout (c : Fin 16)
  /-- DECISION_POINT (R447). The arbiter grants the fabric to the highest-ranked requester at a decision point. -/
  | decisionPoint (reqs : List Requester) (beats : Nat) (cont : Option Nat) (last : Bool)
  /-- TAG_TIMEOUT (R440). A transaction is not complete 100 µs after taking its tag. -/
  | tagTimeout (f : Fn) (tag : Nat)
  /-- FABRIC_PARITY (R441). The repeat of a transaction with a parity error also fails, and the requester enters FAULT. -/
  | fabricParity (f : Fn) (tag : Nat)
  /-- POOL_ALLOCATE (R443). A request for pool blocks is granted whole or refused. -/
  | poolAllocate (f : Fn) (n : Nat)
  /-- BLOCK_FREE (R454). A function frees pool blocks; marked blocks are retired. -/
  | blockFree (f : Fn) (blocks : List Nat)
  /-- POOL_PARITY (R454). A pool read finds a parity error. -/
  | poolParity (block : Nat)
  /-- POOL_SCRUB (R454). The pool is scrubbed every 10 s. -/
  | poolScrub (bad : List Nat)
  /-- LOCK (R453). A LOCK transaction takes a resource, waits, or is refused. -/
  | lock (f : Fn) (res : Nat)
  /-- UNLOCK (R453). UNLOCK gives a resource back. -/
  | unlock (f : Fn) (res : Nat)
  /-- ARB_STARVED (R448). A request waits ARB_STARVE_US without a grant. -/
  | arbStarved (f : Fn)
  /-- RING_FRAME (R460). A ring frame is received; it is discarded as a duplicate, delivered and forwarded. -/
  | ringFrame (port : Port) (f : RingIn)
  /-- PORT_LINK_DOWN (R459). A ring port link goes down. -/
  | portLinkDown (port : Port)
  /-- PORT_LINK_UP (R459). A ring port link comes up at a negotiated speed. -/
  | portLinkUp (port : Port) (speed : Fin 3)
  /-- SUPERVISION_SEND (R462). An HSR supervision frame is sent every 2 s. -/
  | supervisionSend
  /-- RING_SUPERVISION_LOST (R29). No supervision frame arrives on a port for 6 s. -/
  | ringSupervisionLost (port : Port)
  /-- ARP (R463). An ARP request is answered. -/
  | arp (ip mac : Nat)
  /-- ICMP_ECHO (R463). An ICMP echo request is answered, rate-limited. -/
  | icmpEcho (ip id seq : Nat) (data : List Byte)
  /-- READ (R474). An MMP READ returns the requested object words. -/
  | read (m : Msg) (pairs : List (W32 × Nat))
  /-- WRITE (R474). An MMP WRITE applies its address-value pairs in order. -/
  | write (m : Msg)
  /-- REGISTER_WRITE (R5). A write to an object that has no row of its own acts as its access code states. -/
  | registerWrite (addr : W32) (v : W32) (r : Role)
  /-- FUNC_RESET (R479). The FUNC_RESET message resets one function, as a write of FN_CTRL does. -/
  | funcReset (m : Msg) (fid : Nat)
  /-- ROLE_KEY (R469). The ROLE_KEY message writes a role key into OTP. -/
  | roleKey (m : Msg)
  /-- PUBLISH (R477). A publish set sends its snapshot each period. -/
  | publish (n : Fin 16)
  /-- HEALTH (R478). The health message is sent every 100 ms. -/
  | health
  /-- NOTIFY (R478). Events enabled for notification are sent to the receivers within 50 ms. -/
  | notify
  /-- CAN_RX_FRAME (R491). A CAN frame is received, stamped and filtered into a queue, or passed to Bedrock. -/
  | canRxFrame (c : Fin 4) (f : CanFrame)
  /-- CAN_TX_REQUEST (R490). The owner requests a frame on a transmit buffer. -/
  | canTxRequest (c : Fin 4) (b : Fin 3) (f : CanFrame)
  /-- CAN_TX_END (R490). A frame on the bus ends: it was sent, or it is retransmitted or fails. -/
  | canTxEnd (c : Fin 4) (ok : Bool) (tdc : Option Nat)
  /-- CAN_ERROR (R488). A bus error updates the error counters and the error state. -/
  | canError (c : Fin 4) (tec rec' : Nat)
  /-- BUS_OFF_RECOVERY (R488). 128 occurrences of 11 recessive bits move the controller to RECOVERY. -/
  | busOffRecovery (c : Fin 4)
  /-- CAN_RECOVERED (R488). 128 error-free frames return the controller to ACTIVE. -/
  | canRecovered (c : Fin 4)
  /-- CAN_TEST (R500). A write of CAN_TEST enters or leaves a test mode at the next bus idle. -/
  | canTest (c : Fin 4) (v : W32) (r : Role)
  /-- CAN_FILTER_EDITED (R495). A write of pair word 2 loads a mask-and-match pair at the next SOF. -/
  | canFilterEdited (c : Fin 4) (pair : Fin 32) (v : W32) (r : Role)
  /-- HEARTBEAT_SEND (R506). A heartbeat is sent on the guy line every 20 ms, refreshing the claim. -/
  | heartbeatSend
  /-- HEARTBEAT (R507). A valid heartbeat is received from the partner. -/
  | heartbeat (h : Heartbeat) (claim : Bool)
  /-- PAIR_GUY_LOST (R507). 60 ms pass without a heartbeat while the partner's claim is asserted. -/
  | pairGuyLost
  /-- CLAIM_DROP (R505). The claim drops 40 ms after the last heartbeat sent. -/
  | claimDrop
  /-- PAIR_TAKEOVER (R513). The standby begins a take-over, asserts its claim and reads the newest checkpoint. -/
  | pairTakeover
  /-- TAKEOVER_RESTORE (R516). The checkpoint read completes; state is restored and the functions enter RUN. -/
  | takeoverRestore (peg : Option Ckpt)
  /-- HOLDOFF_END (R519). The hold-off ends, and the preferred module sends a handover request. -/
  | holdoffEnd
  /-- HANDOVER_REQUEST (R519). The active module receives a handover request and grants it when allowed. -/
  | handoverRequest
  /-- HANDOVER_IDLE (R520). No unit of any engine is running, so the final checkpoint is written. -/
  | handoverIdle
  /-- HANDOVER_CHECKPOINT (R520). The final checkpoint completes; handshake 3 is sent and the old active enters STANDBY. -/
  | handoverCheckpoint
  /-- STANDBY_CKPT_CHECK (R509). Every 10 s the standby reads the newest checkpoint in full and checks it. -/
  | standbyCkptCheck (seq ageMs kib : Nat) (buf : Bool) (ok : Bool)
  /-- PREF_STRAP_SENSE (R503). The preference straps are sensed every 1 s. -/
  | prefStrapSense (straps : Fin 4)
  /-- ROW_PERIOD (R527). A row is driven with its chosen polarities, and the ledgers are updated. -/
  | rowPeriod (row : Nat)
  /-- PANEL_TEMP_READ (R531). The panel temperature is read every 1 s, and the band is chosen. -/
  | panelTempRead (temp : Option Int)
  /-- REGION_UPDATE_REQUEST (R536). A region update is requested, started, or made pending. -/
  | regionUpdateRequest (r : Nat)
  /-- RENDER_COMPLETE (R535). The render of a region into its back buffer completes. -/
  | renderComplete (r : Nat)
  /-- FUNCTION_KEY (R540). A press of F1–F6 acts as the page defines. -/
  | functionKey (k : Fin 6)
  /-- PNL_KEYSWITCH (R544). The local-control key switch changes. -/
  | pnlKeyswitch (on : Bool)
  /-- TAKE (R545). TAKE puts a point under local control, or is refused. -/
  | take (kind : Fin 3) (index : Nat)
  /-- LOCAL_RELEASE (R547). Local control of a point ends. -/
  | localRelease (kind : Fin 4) (index : Nat)
  /-- PNL_LOCAL_CMD (R546). A panel command acts on a held point. -/
  | pnlLocalCmd (kind : Fin 3) (index : Nat) (cmd : LocalCmd)
  /-- REC_CLEAR (R566). A write of 0xC1EA_0001 to REC_CLEAR hides the event ring at the next commit. -/
  | recClear (v : W32) (r : Role)
  /-- RECWIN (R563). RECWIN returns records from the sender's cursor and advances it. -/
  | recwin (m : Msg) (bad : List Nat)
  /-- RECCURSOR (R565). RECCURSOR sets the sender's cursor of one region. -/
  | reccursor (m : Msg)
  /-- FILTER_CLOCK (R168). At each filter clock every digital input's integrating counter moves, its filtered state and state entry change at the bounds, and selected edges are counted. -/
  | filterClock (clk : Fin 2) (samples : BitVec 64)
  /-- OUTPUT_READBACK (R177). The terminal readback of a digital output changes, giving BAD/6 after 2 ms at 0 while ON, clearing at the first 1, and clearing external feed after 10 ms at 0. -/
  | outputReadback (g p : Fin 8) (level : Bool) (heldUs : Nat)
  /-- HOLD_UP_STORE_GOOD (R572). The hold-up store reaches its 40 ms level and health bit 17 becomes 1. -/
  | holdUpStoreGood (charge : Nat)
  /-- CLOCK_MONITOR_WINDOW (R581). A 1 ms comparison window of the Bedrock oscillator against the TCXO ends, and 1000 windows within ±0.02 % clear the drift item. -/
  | clockMonitorWindow (ppm : Int)
  /-- BUS_INTEGRATION (R488). After the controller leaves OFF, 11 recessive bits are seen on the bus and it enters ACTIVE. -/
  | busIntegration (c : Fin 4)
  /-- KEY_REPEAT (R540). A held + or − key repeats its action at 10 per second after 500 ms. -/
  | keyRepeat (plus : Bool)
  /-- GUY_LINE_BIVOUAC_REQUEST (R588). The standby receives the bivouac request over the guy line and enters BIVOUAC. -/
  | guyLineBivouacRequest (timer : Nat)
  /-- PANEL_FRAME (R525). A panel frame starts; the band, rendered regions and balancing apply. -/
  | panelFrame
  /-- DISCHARGE_END (R537). The gates switch off after 20 ms at VCOM, or when the store is exhausted. -/
  | dischargeEnd
  /-- F6_HELD (R540). F6 held for 2 s opens or closes the system page. -/
  | f6Held
  /-- PNL_KEYSWITCH_FAULT (R544). The key switch contacts disagree for 100 ms. -/
  | pnlKeyswitchFault
  /-- RECORD_EVENT (R554). An event reaches the recorder and is folded into the newest record, or staged as a new record. -/
  | recordEvent
  /-- STAGING_COMMIT (R560). Staged records are committed to the MRAM, and the header is updated. -/
  | stagingCommit
  /-- COUNT_ENTRY_UPDATE (R171). Every 1 ms the count entry of each counting row is written to the process image. -/
  | countEntryUpdate
  /-- WAKE_LINE (R590). The partner's groundsheet wake line wakes a module in BIVOUAC. -/
  | wakeLine
deriving DecidableEq, Repr

end Sys2Proof
end

