-- ==== Sys2Proof/Machine/State.lean ====
section
/-! DEFINITION. The state of the module: every register, FIFO, buffer, counter, mode and pin that spec/ gives
it, and the queue of commands that wait. -/

namespace Sys2Proof.Machine

/-- A step never faults: every command of the table has an effect that spec/ gives. No constructor.
In part by log 10 (DESIGN CHOICE, safe). -/
inductive Fault where
deriving DecidableEq, Repr

/-- Why a command has no meaning. In part by log 10 (DESIGN CHOICE, safe). -/
inductive Refusal where
  /-- Raised by an arm of exec for a command that this model does not give its meaning yet. Safe: the run stops. -/
  | notModelled (mnemonic : String)
deriving DecidableEq, Repr

/-- The state of one HJ-M640. -/
structure State where
  /-- Commands that wait, first in, first out. -/
  pending : List Instr := []
  /-- Function 0x00: module state, health, power, clocks, bivouac (01, 20). -/
  mod : ModuleSt := {}
  /-- Function headers, keyed by function ID (01 R19). -/
  fns : Tab FnHdr := []
  /-- The configuration in use. -/
  img : ImageCfg := {}
  /-- The sections of the image in use, as stored. -/
  sections : List Section := []
  /-- Identity of the image in use (02 R43). -/
  imgId : ImgId := {}
  peg : PegSt := {}
  otp : OtpSt := {}
  banks : Tab BankSt := []
  /-- Channels, keyed by bank × 16 + channel. -/
  chs : Tab ChSt := []
  groups : Tab DgSt := []
  /-- Points, keyed by group × 8 + point. -/
  points : Tab DpSt := []
  /-- Measured module output current in mA (06 R188). -/
  outCurrent : Nat := 0
  tu : TimeSt := {}
  alarm : AlarmSt := {}
  logic : LogicSt := {}
  /-- Divergence state, keyed by entry index (10 R305). -/
  div : Tab DivSt := []
  divSel : Nat := 0
  /-- Comparator state, keyed by engine code (10 R316). -/
  trx : Tab TrxSt := []
  loops : LoopSt := {}
  axes : Tab AxisSt := []
  bedrock : BedrockSt := {}
  pool : PoolSt := {}
  mmp : MmpSt := {}
  can : Tab CanSt := []
  pair : PairSt := {}
  panel : PanelSt := {}
  recd : RecSt := {}
  ckpt : CkptSt := {}
  /-- The process image: what the writer of each entry last released; `none` is the initial value 0 GOOD. -/
  pi : Tab (Option Qv) := []
  /-- Events offered to the event tasks and not yet taken (01 R15). -/
  taskInbox : List Event := []
  /-- The model's own field: how many free values have been taken. -/
  freeCount : Nat := 0
deriving DecidableEq, Repr, Inhabited

/-- The module right after reset: on entry to PITCH after a power-on (00 R7), every field at its reset value.
In part by log 3 (DESIGN CHOICE, unsafe) and log 6 (DEDUCED, unsafe). -/
def State.reset : State := {}

end Sys2Proof.Machine
end

