-- ==== Sys2Proof/Machine/Table.lean ====
section
/-! DEFINITION. Sparse tables: reading, writing and the canonical form.

A table lists only the entries that differ from the default of its type, in rising index order,
so equal tables are equal data. -/

namespace Sys2Proof

variable {α : Type} [Inhabited α] [DecidableEq α]

/-- The entry at index `k`; an unlisted entry is the default. -/
def Tab.look : Tab α → Nat → α
  | [], _ => default
  | (j, v) :: r, k => if j = k then v else Tab.look r k

/-- The table with entry `k` taken out. -/
def Tab.drop : Tab α → Nat → Tab α
  | [], _ => []
  | (j, v) :: r, k => if j = k then Tab.drop r k else (j, v) :: Tab.drop r k

/-- The table with a listed entry put in its place in the rising order. -/
def Tab.ins : Tab α → Nat → α → Tab α
  | [], k, v => [(k, v)]
  | (j, w) :: r, k, v =>
    if k < j then (k, v) :: (j, w) :: r
    else if k = j then (k, v) :: r
    else (j, w) :: Tab.ins r k v

/-- The table with entry `k` holding `v`; the default value is not listed. -/
def Tab.put (t : Tab α) (k : Nat) (v : α) : Tab α :=
  if v = default then Tab.drop t k else Tab.ins t k v

/-- The table with entry `k` changed by `f`. -/
def Tab.upd (t : Tab α) (k : Nat) (f : α → α) : Tab α := t.put k (f (t.look k))

/-- The listed indexes. -/
def Tab.keys (t : Tab α) : List Nat := t.map (·.1)

/-- The canonical form: indexes strictly rising and no default value listed. -/
def Tab.wf (t : Tab α) : Bool :=
  (t.map (·.1)).Pairwise (· < ·) && t.all (fun p => p.2 ≠ default)

/-- The element of a list at `i`, or the default. -/
def nth (l : List α) (i : Nat) : α := l.getD i default

/-- The list with the first element that satisfies `p` changed by `f`. -/
def updFirst (p : α → Bool) (f : α → α) : List α → List α
  | [] => []
  | a :: r => if p a then f a :: r else a :: updFirst p f r

/-- Applies `f` to the state once for each element, in order. -/
def forAll {β σ : Type} (l : List β) (f : β → σ → σ) (s : σ) : σ := l.foldl (fun t a => f a t) s

/-- Applies `f` to the state for `0`, `1`, …, `n − 1`. -/
def forRange {σ : Type} (n : Nat) (f : Nat → σ → σ) (s : σ) : σ := forAll (List.range n) f s

/-- Bits `hi` to `lo` of a number. -/
def bitsOf (hi lo n : Nat) : Nat := (n / 2 ^ lo) % 2 ^ (hi - lo + 1)

/-- Bit `i` of a number. -/
def bitOf (i n : Nat) : Bool := n.testBit i

/-- A signed number as its low 32 bits. -/
def s32 (i : Int) : Nat := (i % 4294967296).toNat

/-- A signed number as its low 16 bits. -/
def s16 (i : Int) : Nat := (i % 65536).toNat

/-- A signed number cut to the range of a signed 32-bit word. -/
def sat32s (i : Int) : Int := max (-2147483648) (min 2147483647 i)

/-- Little-endian bytes of a number. -/
def leBytes : Nat → Nat → List Byte
  | 0, _ => []
  | n + 1, v => BitVec.ofNat 8 v :: leBytes n (v / 256)

/-- The number that little-endian bytes spell. -/
def ofLe : List Byte → Nat
  | [] => 0
  | b :: r => b.toNat + 256 * ofLe r

/-- The little-endian field of `n` bytes at offset `o` of a byte list. -/
def leAt (bs : List Byte) (o n : Nat) : Nat := ofLe ((bs.drop o).take n)

end Sys2Proof
end

