-- ==== Sys2Proof/Machine/Clock.lean ====
section
/-! DEFINITION. The passing of time: one cycle of CK5 (07 R193, R194; 16; 20 R558). -/

namespace Sys2Proof.Machine

/-- The increment of one CK5 cycle in 2⁻³² ns: 4 ns plus the adjustment, no less than 3 ns and no more than 5 ns.
In part by log 4 (DESIGN CHOICE, unsafe). -/
def cycleInc (adj : Int) : Nat :=
  (max (3 * 4294967296) (min (5 * 4294967296) (4 * 4294967296 + adj))).toNat

/-- The time unit after one CK5 cycle. In part by log 4 (DESIGN CHOICE, unsafe). -/
def TimeSt.tick (t : TimeSt) : TimeSt :=
  let sum := t.frac.toNat + cycleInc t.adj
  { t with
    mono := t.mono + 4
    time := t.time + BitVec.ofNat 64 (sum / 4294967296)
    frac := BitVec.ofNat 32 sum }

/-- One CK5 cycle of the module; a module without power stands still. In part by log 4 (DESIGN CHOICE, unsafe). -/
def clockCycle (s : State) : State :=
  match s.mod.state with
  | .off => s
  | _ => { s with tu := Sys2Proof.Machine.TimeSt.tick s.tu, mod := { s.mod with operNs := s.mod.operNs + 4 } }

end Sys2Proof.Machine
end

