-- ==== Sys2Proof/Machine/Events.lean ====
section
/-! DEFINITION. The events of the module (01 R15, R16; 19 R570): the code of each, and the bit of the
owning function's FN_EVSTAT that it sets, as the event table of the owning chapter gives them. -/

namespace Sys2Proof.Ev

/-! Events of 02 R69. -/

/-- 02 R69: data `IMG_SEQ`. -/
def IMAGE_CHOSEN : EvKind := ⟨0x0001, none⟩
/-- 02 R69: data Slot mask in [2:0]. -/
def PEG_COPIES_DIFFER : EvKind := ⟨0x1002, none⟩
/-- 02 R69: data `IMG_SAFETY`. -/
def SAFETY_UNCOMMISSIONED : EvKind := ⟨0x4003, none⟩
/-- 02 R69: data Slot mask in [2:0]. -/
def IMAGE_AMBIGUOUS : EvKind := ⟨0x3004, none⟩
/-- 02 R69: data `SLOTn_STAT`[3:0] of slots 0–2 in [11:0]. -/
def NO_IMAGE : EvKind := ⟨0x3005, none⟩
/-- 02 R69: data Slot. -/
def PEG_READ_UNSTABLE : EvKind := ⟨0x3006, none⟩
/-- 02 R69: data 0. -/
def PEG_REMOVED : EvKind := ⟨0x1007, none⟩
/-- 02 R69: data 0. -/
def PEG_INSERTED : EvKind := ⟨0x0008, none⟩
/-- 02 R69: data `IMG_SEQ`. -/
def PEG_WRITE_CLOSED : EvKind := ⟨0x5009, none⟩
/-- 02 R69: data Slot. -/
def PEG_SLOT_ERASED : EvKind := ⟨0x500A, none⟩
/-- 02 R69: data New `IMG_SEQ`. -/
def COMMIT_DONE : EvKind := ⟨0x500B, none⟩
/-- 02 R69: data Reason code. -/
def COMMIT_REFUSED : EvKind := ⟨0x100C, none⟩
/-- 02 R69: data Reason code. -/
def PEG_WRITE_REFUSED : EvKind := ⟨0x100D, none⟩
/-- 02 R69: data As R63. -/
def OTP_WRITE : EvKind := ⟨0x5001, none⟩
/-- 02 R69: data Item [7:0], index [15:8]. -/
def OTP_LAST_SLOT : EvKind := ⟨0x1002, none⟩
/-- 02 R69: data Item [7:0], index [15:8]. -/
def OTP_PROGRAM_FAIL : EvKind := ⟨0x3003, none⟩
/-- 02 R69: data Result code. -/
def OTP_REFUSED : EvKind := ⟨0x1004, none⟩
/-! Events of 03 R104. -/

/-- 03 R104: data Terminal voltage, signed, mV. -/
def CH_BACKFEED : EvKind := ⟨0x3101, some 1⟩
/-- 03 R104: data [15:0] commanded, [31:16] readback, signed. -/
def CH_READBACK_MISMATCH : EvKind := ⟨0x3102, some 2⟩
/-- 03 R104: data Readback, signed. -/
def CH_READBACK_OK : EvKind := ⟨0x0103, none⟩
/-- 03 R104: data Readback, signed. -/
def CH_STAGE_OFF : EvKind := ⟨0x3104, some 2⟩
/-- 03 R104: data Headroom, mV. -/
def CH_COMPLIANCE_LOW : EvKind := ⟨0x1105, some 3⟩
/-- 03 R104: data Delivered current, µA. -/
def CH_COMPLIANCE_SHORTFALL : EvKind := ⟨0x3106, some 3⟩
/-- 03 R104: data Headroom, mV. -/
def CH_COMPLIANCE_OK : EvKind := ⟨0x0107, none⟩
/-- 03 R104: data [1:0] image direction, [3:2] effective, [5:4] source. -/
def NE43_DIRECTION_CONFLICT : EvKind := ⟨0x1108, some 4⟩
/-- 03 R104: data Strap bits. -/
def BANK_STRAP_INVALID : EvKind := ⟨0x1109, some 5⟩
/-- 03 R104: data New strap bits. -/
def BANK_STRAP_CHANGED : EvKind := ⟨0x110A, some 5⟩
/-- 03 R104: data Refusal code. -/
def CH_ROW_REFUSED : EvKind := ⟨0x310B, some 0⟩
/-- 03 R104: data [15:0] bank charge in mW, [23:16] bank, [24] 1 = module limit. -/
def FIELD_BUDGET_EXCEEDED : EvKind := ⟨0x310C, some 7⟩
/-- 03 R104: data Channel mask. -/
def CH_CLEARED : EvKind := ⟨0x510D, none⟩
/-- 03 R104: data Kind. -/
def TRIM_STARTED : EvKind := ⟨0x510E, some 6⟩
/-- 03 R104: data [7:0] kind, [15:8] slot. -/
def TRIM_WRITTEN : EvKind := ⟨0x510F, some 6⟩
/-! Events of 04 R145. -/

/-- 04 R145: data Terminal number. -/
def CH_CLAMP_ACTIVE : EvKind := ⟨0x3201, some 8⟩
/-- 04 R145: data Terminal number. -/
def CH_CLAMP_RELEASED : EvKind := ⟨0x0202, none⟩
/-- 04 R145: data Method: 1 current, 2 loop supply limit, 3 burnout, 4 pull, 5 excitation compliance, 6 sense open, 7 element, 8 wiper. -/
def CH_WIRE_BREAK : EvKind := ⟨0x3203, some 9⟩
/-- 04 R145: data Method. -/
def CH_WIRE_BREAK_CLEARED : EvKind := ⟨0x0204, none⟩
/-- 04 R145: data `FRAME_LEN` of the pending table. -/
def SLOT_SUBMITTED : EvKind := ⟨0x5205, none⟩
/-- 04 R145: data `FRAME_COUNT` at the swap. -/
def SLOT_SWAPPED : EvKind := ⟨0x0206, some 10⟩
/-- 04 R145: data 0. -/
def SLOT_SUBMIT_REPLACED : EvKind := ⟨0x1207, some 11⟩
/-- 04 R145: data [7:0] result, [15:8] entry. -/
def SLOT_SUBMIT_REFUSED : EvKind := ⟨0x1208, some 11⟩
/-- 04 R145: data Last valid frequency, 0.01 Hz. -/
def NOTCH_TRACK_LOST : EvKind := ⟨0x1209, some 12⟩
/-- 04 R145: data 0. -/
def NOTCH_FALLBACK : EvKind := ⟨0x120A, some 12⟩
/-- 04 R145: data Frequency, 0.01 Hz. -/
def NOTCH_TRACK_OK : EvKind := ⟨0x020B, none⟩
/-- 04 R145: data Entry whose sub-slot could not be placed. -/
def SLOT_TABLE_REFUSED : EvKind := ⟨0x320C, some 13⟩
/-! Events of 05 R165. -/

/-- 05 R165: data binary32 x. -/
def CH_SENSOR_MISMATCH : EvKind := ⟨0x3301, none⟩
/-- 05 R165: data binary32 y. -/
def CH_OVER_RANGE : EvKind := ⟨0x1302, none⟩
/-- 05 R165: data binary32 y. -/
def CH_UNDER_RANGE : EvKind := ⟨0x1303, none⟩
/-- 05 R165: data Source. -/
def COMP_LOST : EvKind := ⟨0x1304, none⟩
/-- 05 R165: data Source. -/
def COMP_FAILED : EvKind := ⟨0x3305, none⟩
/-- 05 R165: data Source. -/
def COMP_OK : EvKind := ⟨0x0306, none⟩
/-- 05 R165: data Sensor 0 or 1. -/
def CJ_SENSOR_FAULT : EvKind := ⟨0x1307, none⟩
/-- 05 R165: data Cause. -/
def CH_RIDE_THROUGH : EvKind := ⟨0x1308, none⟩
/-! Events of 06 R191. -/

/-- 06 R191: data Retry count. -/
def DP_OUT_TRIP : EvKind := ⟨0x3401, some 1⟩
/-- 06 R191: data 0. -/
def DP_OUT_LATCHED : EvKind := ⟨0x3402, some 2⟩
/-- 06 R191: data Terminal voltage, mV. -/
def DP_EXTERNAL_FEED : EvKind := ⟨0x3403, some 3⟩
/-- 06 R191: data Point mask. -/
def DP_CLEARED : EvKind := ⟨0x5404, none⟩
/-- 06 R191: data `VF g`, mV. -/
def DG_SUPPLY_LOW : EvKind := ⟨0x1405, some 4⟩
/-- 06 R191: data `VF g`, mV. -/
def DG_SUPPLY_OK : EvKind := ⟨0x0406, none⟩
/-- 06 R191: data [15:0] current in mA, [16] 1 = module limit. -/
def DG_OVERLOAD : EvKind := ⟨0x3407, some 5⟩
/-- 06 R191: data [15:0] declared mA, [23:16] group, [24] 1 = module limit. -/
def DG_LOAD_BUDGET : EvKind := ⟨0x3408, some 5⟩
/-- 06 R191: data Refusal code. -/
def DP_ROW_REFUSED : EvKind := ⟨0x3409, some 0⟩
/-- 06 R191: data binary32 frequency. -/
def DP_FREQ_OVER : EvKind := ⟨0x140A, some 7⟩
/-- 06 R191: data [7:0] function ID, [15:8] point or channel, 0 for an axis, [23:16] `SAFE` or `AX_SAFE`. -/
def WD_EXPIRED : EvKind := ⟨0x1001, none⟩
/-- 06 R191: data As WD_EXPIRED. -/
def WD_RETURNED : EvKind := ⟨0x0002, none⟩
/-! Events of 07 R226. -/

/-- 07 R226: data Offset, ns. -/
def TU_LOCKED : EvKind := ⟨0x0501, some 0⟩
/-- 07 R226: data 0. -/
def TU_HOLDOVER : EvKind := ⟨0x1502, some 1⟩
/-- 07 R226: data Offset, ns. -/
def TU_UNLOCKED : EvKind := ⟨0x1503, some 2⟩
/-- 07 R226: data Step, ns, signed, saturating. -/
def TU_STEPPED : EvKind := ⟨0x1504, some 3⟩
/-- 07 R226: data `TU_GM_ID1`. -/
def TU_GM_CHANGED : EvKind := ⟨0x0505, some 4⟩
/-- 07 R226: data New port: 1 PA, 2 PB. -/
def TU_PORT_SWITCH : EvKind := ⟨0x0506, some 5⟩
/-- 07 R226: data `CAP_LOST`. -/
def CAP_OVERFLOW : EvKind := ⟨0x1507, some 6⟩
/-- 07 R226: data Lost in the episode. -/
def CAP_RESUMED : EvKind := ⟨0x0508, some 7⟩
/-- 07 R226: data [2:0] unit, [8] late, [9] stepped. -/
def TU_MATCH : EvKind := ⟨0x0509, some 8⟩
/-- 07 R226: data [7:0] row, [15:8] element, as R221 gives. -/
def TU_CONFIG_REFUSED : EvKind := ⟨0x350A, some 9⟩
/-- 07 R226: data sequenceId. -/
def TC_FU_UNMATCHED : EvKind := ⟨0x1511, some 6⟩
/-- 07 R226: data 0. -/
def PTP_PDELAY_LOST : EvKind := ⟨0x1512, some 7⟩
/-- 07 R226: data Link delay, ns. -/
def PTP_PDELAY_OK : EvKind := ⟨0x0513, none⟩
/-- 07 R226: data Word 2 of the entry. -/
def CAP_EDGE : EvKind := ⟨0x0514, none⟩
/-! Events of 08 R264. -/

/-- 08 R264: data [10:0] point, [21:16] code. -/
def ALM_ROW_REFUSED : EvKind := ⟨0x3601, some 0⟩
/-- 08 R264: data [31:24] 1 = stamped key. -/
def ALARM_ACTIVE : EvKind := ⟨0x2602, some 1⟩
/-- 08 R264: data 0. -/
def ALARM_RETURNED : EvKind := ⟨0x0603, none⟩
/-- 08 R264: data [31:24] location. -/
def ALARM_ACKED : EvKind := ⟨0x5604, none⟩
/-- 08 R264: data As stated above. -/
def ALARM_SHELVED : EvKind := ⟨0x5605, none⟩
/-- 08 R264: data [24] 1 = timed out. -/
def ALARM_UNSHELVED : EvKind := ⟨0x0606, none⟩
/-- 08 R264: data 0. -/
def ALARM_SUPPRESSED : EvKind := ⟨0x0607, none⟩
/-- 08 R264: data 0. -/
def ALARM_RELEASED : EvKind := ⟨0x0608, none⟩
/-- 08 R264: data [24] 1 = set. -/
def ALARM_OOS : EvKind := ⟨0x5609, none⟩
/-- 08 R264: data 0. -/
def ALARM_INPUT_BAD : EvKind := ⟨0x160A, some 2⟩
/-- 08 R264: data [7:0] group, [18:8] new rank-1 point. -/
def FO_REORDERED : EvKind := ⟨0x060B, some 3⟩
/-- 08 R264: data [7:0] group, [18:8] point. -/
def FO_STAMP_LOST : EvKind := ⟨0x160C, some 3⟩
/-- 08 R264: data [1:0] stage, [9:2] group, [20:10] point, [21] forwarded. -/
def CALL_STAGE : EvKind := ⟨0x260D, some 4⟩
/-- 08 R264: data Call duration, s. -/
def CALL_ENDED : EvKind := ⟨0x060E, some 5⟩
/-- 08 R264: data Location. -/
def CALL_SILENCED : EvKind := ⟨0x560F, none⟩
/-- 08 R264: data Selector bits. -/
def DUTY_INVALID : EvKind := ⟨0x1610, some 6⟩
/-- 08 R264: data Station index. -/
def STATION_LOST : EvKind := ⟨0x2611, some 7⟩
/-- 08 R264: data Station index. -/
def STATION_OK : EvKind := ⟨0x0612, none⟩
/-- 08 R264: data 0. -/
def DM_PREWARN : EvKind := ⟨0x1613, some 8⟩
/-- 08 R264: data 0. -/
def DM_ALARM : EvKind := ⟨0x2614, some 8⟩
/-- 08 R264: data Input index. -/
def DM_STARTED : EvKind := ⟨0x0615, none⟩
/-- 08 R264: data 0. -/
def DM_STOPPED : EvKind := ⟨0x0616, none⟩
/-- 08 R264: data [0] UMS in force, [1] set by `CALL_UMS`. -/
def UMS_CHANGED : EvKind := ⟨0x5617, some 9⟩
/-- 08 R264: data Engineer. -/
def DUTY_CHANGED : EvKind := ⟨0x5618, some 10⟩
/-! Events of 09 R293. -/

/-- 09 R293: data [5:0] task, [15:8] cause. -/
def TASK_FAULT : EvKind := ⟨0x3701, some 0⟩
/-- 09 R293: data [5:0] task. -/
def TASK_OVERRUN : EvKind := ⟨0x1702, some 1⟩
/-- 09 R293: data [5:0] task. -/
def EVENT_QUEUE_FULL : EvKind := ⟨0x1703, some 2⟩
/-- 09 R293: data [7:0] slot, [9:8] kind, [11:10] type, [31:16] low half of the target. -/
def FORCE_SET : EvKind := ⟨0x5704, some 3⟩
/-- 09 R293: data [7:0] slot, [15:8] reason 0 RELEASE, 1 restart, 2 removed or type changed, 3 mode changed; [31:16] low half of the target. -/
def FORCE_RELEASED : EvKind := ⟨0x5705, some 3⟩
/-- 09 R293: data Count. -/
def FORCES_CLEARED : EvKind := ⟨0x5706, some 3⟩
/-- 09 R293: data Count. -/
def FORCE_RESTORED : EvKind := ⟨0x5707, some 3⟩
/-- 09 R293: data [5:0] task. -/
def TASK_RESTARTED : EvKind := ⟨0x0708, some 5⟩
/-- 09 R293: data [5:0] task, [8] reason of the first drop of the instance: 1 = limit, 0 = invalid code. -/
def SOFT_EVENT_DROPPED : EvKind := ⟨0x1709, some 4⟩
/-- 09 R293: data [15:0] entry, [21:16] task. -/
def OUTPUT_WRITE_REFUSED : EvKind := ⟨0x170A, some 6⟩
/-! Events of 10 R318. -/

/-- 10 R318: data [1:0] engine, [2] in repeat, [11:3] index, [13:12] kind, [31:16] unit. -/
def COMPARATOR_FAULT : EvKind := ⟨0x3801, some 8⟩
/-- 10 R318: data [14:0] entry, [17:16] engine, [31:24] unit. -/
def DIVERGENCE_REPEAT : EvKind := ⟨0x0802, some 9⟩
/-- 10 R318: data [14:0] entry, [19:16] `DIV_LIMIT`. -/
def DIVERGENCE_LIMIT : EvKind := ⟨0x1803, some 9⟩
/-- 10 R318: data [14:0] entry. -/
def DIVERGENCE_CLEARED : EvKind := ⟨0x0804, none⟩
/-- 10 R318: data [1:0] engine, [2] 1 = daily test. -/
def COMPARATOR_TEST_PASS : EvKind := ⟨0x0805, none⟩
/-- 10 R318: data [1:0] engine, [2] 1 = daily test, [15:8] case. -/
def COMPARATOR_TEST_FAIL : EvKind := ⟨0x3806, some 10⟩
/-- 10 R318: data [1:0] engine, [2] 1 = coded copy rebuilt, [3] 1 = found by scrub, [31:8] word address / 4. -/
def PARITY_REPAIRED : EvKind := ⟨0x0807, some 11⟩
/-- 10 R318: data [1:0] engine, [31:8] word address / 4. -/
def PARITY_UNCORRECTABLE : EvKind := ⟨0x3808, some 11⟩
/-! Events of 11 R357. -/

/-- 11 R357: data [15:8] code. -/
def LOOP_ROW_REFUSED : EvKind := ⟨0x3901, some 0⟩
/-- 11 R357: data 0. -/
def LOOP_FAULT : EvKind := ⟨0x3902, some 1⟩
/-- 11 R357: data [31:8] low 24 bits of `LP_OVR`. -/
def LOOP_OVERRUN : EvKind := ⟨0x1903, some 2⟩
/-- 11 R357: data [10:8] new requested mode, [15:11] 0 MMP, 1 panel, 2 `LP_MODE_IN`. -/
def LOOP_MODE_SET : EvKind := ⟨0x5904, none⟩
/-- 11 R357: data [10:8] new effective mode, [15:11] cause: 0 track, 1 PV bad, 2 cascade, 3 restart. -/
def LOOP_MODE_CHANGED : EvKind := ⟨0x0905, none⟩
/-- 11 R357: data [31:8] low 24 bits of the sample number. -/
def LOOP_SWAPPED : EvKind := ⟨0x5906, some 3⟩
/-- 11 R357: data [8] bank, [11:9] word. -/
def LOOP_BANK_EDITED : EvKind := ⟨0x5907, none⟩
/-- 11 R357: data [13:8] substatus of y. -/
def LOOP_PV_BAD : EvKind := ⟨0x1908, some 4⟩
/-- 11 R357: data 0. -/
def LOOP_PV_OK : EvKind := ⟨0x0909, none⟩
/-- 11 R357: data [15:8] primary. -/
def CASCADE_OPENED : EvKind := ⟨0x190A, some 5⟩
/-- 11 R357: data 0. -/
def LOOP_RESTARTED : EvKind := ⟨0x590B, none⟩
/-- 11 R357: data [10:8] kind, [11] point. -/
def TEST_STARTED : EvKind := ⟨0x590C, some 6⟩
/-- 11 R357: data [15:8] reason, [31:16] pairs captured, saturating. -/
def TEST_ENDED : EvKind := ⟨0x090D, some 6⟩
/-- 11 R357: data binary32 y truncated to its high 24 bits in [31:8]. -/
def TEST_GUARD : EvKind := ⟨0x190E, some 7⟩
/-! Events of 12 R391. -/

/-- 12 R391: data Refusal code. -/
def AX_ROW_REFUSED : EvKind := ⟨0x3A01, some 0⟩
/-- 12 R391: data Cause. -/
def AX_DRIVER_FAULT : EvKind := ⟨0x3A02, some 1⟩
/-- 12 R391: data Position. -/
def AX_STALL : EvKind := ⟨0x1A03, some 2⟩
/-- 12 R391: data [0] 1 = positive, [1] 1 = a move was stopped. -/
def AX_LIMIT : EvKind := ⟨0x1A04, some 3⟩
/-- 12 R391: data Target. -/
def AX_LIMIT_BLOCKED : EvKind := ⟨0x1A05, some 3⟩
/-- 12 R391: data [0] 1 = positive. -/
def AX_LIMIT_RELEASED : EvKind := ⟨0x0A06, none⟩
/-- 12 R391: data `AX_HOME_SHIFT`. -/
def AX_HOMED : EvKind := ⟨0x0A07, some 4⟩
/-- 12 R391: data Reason. -/
def AX_HOME_FAILED : EvKind := ⟨0x1A08, some 4⟩
/-- 12 R391: data Deviation, µsteps, signed. -/
def AX_POS_MISMATCH : EvKind := ⟨0x3A09, some 5⟩
/-- 12 R391: data New target. -/
def AX_REVERSAL : EvKind := ⟨0x0A0A, none⟩
/-- 12 R391: data Queue, µsteps. -/
def AX_STEP_LAG : EvKind := ⟨0x1A0B, some 6⟩
/-- 12 R391: data [0] 1 = SS1. -/
def AX_TORQUE_REMOVED : EvKind := ⟨0x4A0C, some 7⟩
/-- 12 R391: data 0. -/
def AX_TORQUE_RESTORED : EvKind := ⟨0x4A0D, some 7⟩
/-- 12 R391: data Command code. -/
def AX_MMP_COMMAND : EvKind := ⟨0x5A0E, none⟩
/-- 12 R391: data p_pot. -/
def AX_POS_SYNC : EvKind := ⟨0x0A0F, none⟩
/-! Events of 13 R438. -/

/-- 13 R438: data [5:0] function, [11:8] cause. -/
def SF_TRIPPED : EvKind := ⟨0x4B01, some 0⟩
/-- 13 R438: data [5:0] function, [31:8] v0 as binary32 high 24 bits. -/
def SS1_STARTED : EvKind := ⟨0x4B02, some 0⟩
/-- 13 R438: data [5:0] function, [11:8] reason (R413). -/
def SS1_STO : EvKind := ⟨0x4B03, some 0⟩
/-- 13 R438: data [5:0] function, [8] 1 = BSL source. -/
def SF_RESET : EvKind := ⟨0x4B04, none⟩
/-- 13 R438: data [5:0] function, [11:8] reason. -/
def SF_RESET_REFUSED : EvKind := ⟨0x1B05, some 1⟩
/-- 13 R438: data [5:0] function. -/
def RESET_JAMMED : EvKind := ⟨0x3B06, some 1⟩
/-- 13 R438: data [6:0] group. -/
def VOTE_DISCREPANCY : EvKind := ⟨0x1B07, some 2⟩
/-- 13 R438: data [6:0] group, [9:8] channel, [12] 1 = stale. -/
def XCHECK_FAIL : EvKind := ⟨0x3B08, some 2⟩
/-- 13 R438: data [6:0] group, [9:8] channel. -/
def XCHECK_OK : EvKind := ⟨0x0B09, none⟩
/-- 13 R438: data [3:0] connection. -/
def BSL_TIMEOUT : EvKind := ⟨0x3B0A, some 3⟩
/-- 13 R438: data [3:0] connection. -/
def BSL_RESTORED : EvKind := ⟨0x0B0B, none⟩
/-- 13 R438: data [3:0] connection, [11:8] reason. -/
def BSL_REJECTED : EvKind := ⟨0x1B0C, some 3⟩
/-- 13 R438: data [1:0] pair, [2] channel. -/
def STO_CHANNEL_FAULT : EvKind := ⟨0x3B0D, some 4⟩
/-- 13 R438: data Cause. -/
def SAFETY_ALL_TRIPPED : EvKind := ⟨0x4B0E, some 5⟩
/-- 13 R438: data t3 − t0, µs. -/
def BR_CYCLE_OVERRUN : EvKind := ⟨0x3B0F, some 5⟩
/-- 13 R438: data Value. -/
def SAFETY_COMMISSIONED : EvKind := ⟨0x5B10, some 6⟩
/-- 13 R438: data Result. -/
def COMMISSION_REFUSED : EvKind := ⟨0x1B11, some 6⟩
/-- 13 R438: data Partner's result, 0xFF none. -/
def PARTNER_UNCOMMISSIONED : EvKind := ⟨0x1B12, some 7⟩
/-! Events of 14 R458. -/

/-- 14 R458: data [7:0] function ID, [15:8] blocks requested. -/
def POOL_EXHAUSTED : EvKind := ⟨0x1C01, some 0⟩
/-- 14 R458: data [7:0] function ID, [11:8] highest order held, [15:12] order requested. -/
def ORDER_VIOLATION : EvKind := ⟨0x3C02, some 1⟩
/-- 14 R458: data [7:0] function ID, [11:8] rank. -/
def ARB_STARVED : EvKind := ⟨0x1C03, some 2⟩
/-- 14 R458: data [7:0] function ID, [15:8] tag. -/
def TAG_TIMEOUT : EvKind := ⟨0x3C04, some 3⟩
/-- 14 R458: data [7:0] function ID, [15:8] tag. -/
def FABRIC_PARITY : EvKind := ⟨0x3C05, some 4⟩
/-- 14 R458: data [12:0] block, [16] 1 = found by scrub. -/
def POOL_PARITY : EvKind := ⟨0x1C06, some 5⟩
/-- 14 R458: data [12:0] block, [31:16] retired in total. -/
def POOL_BLOCK_RETIRED : EvKind := ⟨0x1C07, some 5⟩
/-- 14 R458: data [7:0] function ID, [15:8] blocks returned, saturating, [21:16] tags freed. -/
def ARB_MASK_DROP : EvKind := ⟨0x0C08, none⟩
/-! Events of 15 R485. -/

/-- 15 R485: data Previous speed code. -/
def PORT_LINK_DOWN : EvKind := ⟨0x1D01, some 0⟩
/-- 15 R485: data Speed code. -/
def PORT_LINK_UP : EvKind := ⟨0x0D02, none⟩
/-- 15 R485: data 0. -/
def RING_SUPERVISION_LOST : EvKind := ⟨0x1D03, some 1⟩
/-- 15 R485: data 0. -/
def RING_SUPERVISION_OK : EvKind := ⟨0x0D04, none⟩
/-- 15 R485: data `SENDER`. -/
def MMP_AUTH_FAILED : EvKind := ⟨0x1D05, some 2⟩
/-- 15 R485: data `SENDER`. -/
def MMP_REPLAY : EvKind := ⟨0x1D06, some 3⟩
/-- 15 R485: data [7:0] FF, [15:8] BB, [29:16] OOOO / 4. -/
def MMP_WRITE : EvKind := ⟨0x5D07, none⟩
/-- 15 R485: data [1:0] role, [15:8] slot. -/
def ROLE_KEY_SET : EvKind := ⟨0x5D08, none⟩
/-- 15 R485: data Requests dropped in the episode. -/
def MMP_QUEUE_FULL : EvKind := ⟨0x1D09, some 4⟩
/-- 15 R485: data Set. -/
def PUBLISH_MISSED : EvKind := ⟨0x1D0A, some 5⟩
/-- 15 R485: data Function ID. -/
def FUNC_RESET_REQ : EvKind := ⟨0x5D0B, none⟩
/-- 15 R485: data [0] handover first, [2:1] role, [31:8] `SENDER` low 24 bits. -/
def MODULE_RESTART : EvKind := ⟨0x6D0C, none⟩
/-! Events of 16 R501. -/

/-- 16 R501: data Refusal code: 1 BIT_TIMING, 2 RANGE, 3 FILTER. -/
def CAN_CONFIG_REFUSED : EvKind := ⟨0x3E01, some 0⟩
/-- 16 R501: data [7:0] TEC, [15:8] REC. -/
def CAN_ERROR_PASSIVE : EvKind := ⟨0x1E02, some 1⟩
/-- 16 R501: data Bus-off count. -/
def CAN_BUS_OFF : EvKind := ⟨0x3E03, some 1⟩
/-- 16 R501: data 0. -/
def CAN_RECOVERED : EvKind := ⟨0x0E04, none⟩
/-- 16 R501: data [0] 1 = list. -/
def CAN_FILTER_SET : EvKind := ⟨0x0E05, some 2⟩
/-- 16 R501: data [0] queue, [1] 1 = pool refusal. -/
def CAN_RX_DROPPED : EvKind := ⟨0x1E06, some 3⟩
/-- 16 R501: data [1:0] buffer. -/
def CAN_TX_FAILED : EvKind := ⟨0x1E07, some 4⟩
/-- 16 R501: data [1:0] buffer. -/
def CAN_TX_ABORTED : EvKind := ⟨0x1E08, some 4⟩
/-- 16 R501: data [0] queue. -/
def CAN_RX_READY : EvKind := ⟨0x0E09, none⟩
/-- 16 R501: data [4:0] pair. -/
def CAN_FILTER_EDITED : EvKind := ⟨0x5E0A, some 5⟩
/-- 16 R501: data [28:0] identifier, [31] 1 = edge. -/
def CAN_WAKE : EvKind := ⟨0x6E0B, some 6⟩
/-! Events of 17 R523. -/

/-- 17 R523: data [7:0] trigger: 0 heartbeats, 1 handshake, 2 claim after link loss; [31:8] checkpoint sequence, low 24 bits. -/
def PAIR_TAKEOVER : EvKind := ⟨0x1F01, some 0⟩
/-- 17 R523: data [0] 1 = by restart. -/
def PAIR_HANDOVER : EvKind := ⟨0x0F02, none⟩
/-- 17 R523: data Partner `MOD_STATE` last seen. -/
def PAIR_PARTNER_LOST : EvKind := ⟨0x1F03, some 1⟩
/-- 17 R523: data 0. -/
def PAIR_GUY_LOST : EvKind := ⟨0x3F04, some 2⟩
/-- 17 R523: data 0. -/
def PAIR_GUY_OK : EvKind := ⟨0x0F05, none⟩
/-- 17 R523: data [1:0] straps, [3:2] own OTP, [5:4] partner OTP. -/
def PAIR_PREF_CONFLICT : EvKind := ⟨0x1F06, some 3⟩
/-- 17 R523: data [0] buffer. -/
def PAIR_CKPT_BAD : EvKind := ⟨0x3F07, some 4⟩
/-- 17 R523: data Skipped in the episode. -/
def PAIR_CKPT_SKIPPED : EvKind := ⟨0x1F08, some 4⟩
/-- 17 R523: data 0. -/
def PAIR_NO_CKPT : EvKind := ⟨0x3F09, some 5⟩
/-- 17 R523: data Hold-off, min. -/
def PAIR_REVERT_ARMED : EvKind := ⟨0x0F0A, none⟩
/-- 17 R523: data Coding read. -/
def PAIR_POSITION_INVALID : EvKind := ⟨0x3F0B, some 6⟩
/-! Events of 18 R552. -/

/-- 18 R552: data [2:0] band, [31:16] temperature, 0.1 °C. -/
def PNL_BAND_CHANGED : EvKind := ⟨0x0021, some 0⟩
/-- 18 R552: data Rows marked. -/
def PNL_BALANCE : EvKind := ⟨0x1022, some 1⟩
/-- 18 R552: data 0. -/
def PNL_SENSOR_FAULT : EvKind := ⟨0x1023, some 2⟩
/-- 18 R552: data [0] 1 = on. -/
def PNL_KEYSWITCH : EvKind := ⟨0x5024, some 3⟩
/-- 18 R552: data 0. -/
def PNL_KEYSWITCH_FAULT : EvKind := ⟨0x3025, some 3⟩
/-- 18 R552: data [1:0] kind, [16:2] index. -/
def PNL_LOCAL_TAKEN : EvKind := ⟨0x5026, some 4⟩
/-- 18 R552: data As PNL_LOCAL_TAKEN, [26:24] reason (R547). -/
def PNL_LOCAL_RELEASED : EvKind := ⟨0x5027, some 4⟩
/-- 18 R552: data As PNL_LOCAL_TAKEN, [31:24] command. -/
def PNL_LOCAL_CMD : EvKind := ⟨0x5028, none⟩
/-- 18 R552: data 0 power-fail, 1 bivouac, 2 restart, 3 function reset. -/
def PNL_DISCHARGED : EvKind := ⟨0x6029, some 5⟩
/-- 18 R552: data Page [4:0], region [13:8]. -/
def PNL_SECTION_REFUSED : EvKind := ⟨0x302A, some 6⟩
/-! Events of 19 R569. -/

/-- 19 R569: data Events lost in the episode. -/
def REC_LOST : EvKind := ⟨0x1041, some 0⟩
/-- 19 R569: data Records hidden. -/
def REC_CLEARED : EvKind := ⟨0x5042, some 1⟩
/-- 19 R569: data [0] region, [31:8] low 24 bits of the sequence. -/
def REC_RECORD_BAD : EvKind := ⟨0x3043, some 2⟩
/-- 19 R569: data Audit records overwritten in total, saturating. -/
def REC_AUDIT_WRAP : EvKind := ⟨0x1044, some 3⟩
/-! Events of 20 R597. -/

/-- 20 R597: data [15:0] supply A, [31:16] supply B, mV. -/
def POWER_FAIL_WARNING : EvKind := ⟨0x6001, some 0⟩
/-- 20 R597: data ms since the warning. -/
def POWER_RESTORED : EvKind := ⟨0x6002, some 0⟩
/-- 20 R597: data Power-cycle count. -/
def POWER_ON : EvKind := ⟨0x6003, none⟩
/-- 20 R597: data [0] 0 = A, 1 = B. -/
def SUPPLY_LOST : EvKind := ⟨0x1004, some 1⟩
/-- 20 R597: data [0] as SUPPLY_LOST. -/
def SUPPLY_OK : EvKind := ⟨0x0005, none⟩
/-- 20 R597: data Charge, %. -/
def HOLDUP_LOW : EvKind := ⟨0x1006, some 2⟩
/-- 20 R597: data Deviation, ppm, signed. -/
def CLOCK_FAULT : EvKind := ⟨0x3007, some 4⟩
/-- 20 R597: data Deviation, ppm, signed. -/
def CLOCK_DRIFT : EvKind := ⟨0x1008, some 4⟩
/-- 20 R597: data Clock domain. -/
def CLOCK_LOST : EvKind := ⟨0x3009, some 4⟩
/-- 20 R597: data Silt timer, s. -/
def BIVOUAC_ENTERED : EvKind := ⟨0x600A, some 5⟩
/-- 20 R597: data [2:0] cause, [15:8] controller or input. -/
def BIVOUAC_WAKE : EvKind := ⟨0x600B, some 5⟩
/-- 20 R597: data Result (R587). -/
def BIVOUAC_REFUSED : EvKind := ⟨0x100C, some 5⟩
/-- 20 R597: data Function ID. -/
def DRAIN_TIMEOUT : EvKind := ⟨0x300D, some 6⟩
/-- 20 R597: data [0] 0 local, 1 state peg; [31:8] low 24 bits of the sequence. -/
def CKPT_RESTORED : EvKind := ⟨0x000E, some 7⟩
/-- 20 R597: data 0. -/
def CKPT_NONE : EvKind := ⟨0x100F, some 7⟩
/-- 20 R597: data Temperature, 0.1 °C. -/
def OVER_TEMP : EvKind := ⟨0x1001, some 3⟩
/-- 20 R597: data Temperature, 0.1 °C. -/
def OVER_TEMP_OK : EvKind := ⟨0x0002, none⟩
/-- 20 R597: data Temperature, 0.1 °C. -/
def OVER_TEMP_CRITICAL : EvKind := ⟨0x3003, some 3⟩

end Sys2Proof.Ev
end

