-- ==== Sys2Proof/Machine/Flags.lean ====
section
/-! DEFINITION. Quality bytes and their precedence (00 R9; 05 R156), function identities (01 R17, R18), the
values of the one-time settings (02 R38, R62), and the health word (01 R29). -/

namespace Sys2Proof.Machine

/-! ### Quality -/

/-- BAD with a substatus. -/
def qBad (sub : Nat) : Byte := BitVec.ofNat 8 (sub % 64)
/-- UNCERTAIN with a substatus. -/
def qUnc (sub : Nat) : Byte := BitVec.ofNat 8 (0x40 + sub % 64)
/-- GOOD/0. -/
def qGood : Byte := 0x80#8
/-- GOOD-FORCED/0. -/
def qForced : Byte := 0xC0#8
/-- The class of a quality: 0 BAD, 1 UNCERTAIN, 2 GOOD, 3 GOOD-FORCED. -/
def qClass (q : Byte) : Nat := q.toNat / 64
/-- The substatus of a quality. -/
def qSub (q : Byte) : Nat := q.toNat % 64
/-- True for the two GOOD classes. -/
def qIsGood (q : Byte) : Bool := 2 ≤ qClass q
/-- True for class BAD. -/
def qIsBad (q : Byte) : Bool := qClass q == 0

/-- The order in which causes show (05 R156). -/
def subOrder : List Nat := [11, 10, 14, 4, 1, 5, 6, 15, 2, 3, 7, 12, 13, 8, 9]

/-- The place of a substatus in the order of 05 R156; 0 and reserved values stand after all others. -/
def subRank (sub : Nat) : Nat := subOrder.idxOf sub

/-- Of two qualities, the one that shows: the earlier cause, and for one cause the lower class. -/
def qWorse (a b : Byte) : Byte :=
  if subRank (qSub b) < subRank (qSub a) then b
  else if subRank (qSub a) < subRank (qSub b) then a
  else if qClass b < qClass a then b else a

/-- The quality that an entry shows, from its writer's quality and the causes that apply to it.
In part by log 13 (DEDUCED, unsafe). -/
def qShown (base : Byte) (causes : List Byte) : Byte := causes.foldl qWorse base

/-- A cause list with one quality when a condition holds. -/
def qIf (p : Bool) (q : Byte) : List Byte := if p then [q] else []

/-! ### Functions -/

/-- The function ID (01 R17). -/
def fnId : Fn → Nat
  | .module => 0x00 | .logic => 0x01 | .loop => 0x02 | .bedrock => 0x03 | .alarm => 0x04 | .time => 0x05
  | .ring => 0x06 | .recorder => 0x07 | .pool => 0x08 | .peg => 0x09 | .panel => 0x0A | .guy => 0x0B
  | .bank b => 0x10 + b.val | .group g => 0x18 + g.val | .axis a => 0x20 + a.val | .can c => 0x24 + c.val

/-- The function with an ID; reserved IDs have none (01 R17). -/
def fnOfId (n : Nat) : Option Fn :=
  if n = 0 then some .module else if n = 1 then some .logic else if n = 2 then some .loop
  else if n = 3 then some .bedrock else if n = 4 then some .alarm else if n = 5 then some .time
  else if n = 6 then some .ring else if n = 7 then some .recorder else if n = 8 then some .pool
  else if n = 9 then some .peg else if n = 10 then some .panel else if n = 11 then some .guy
  else if 0x10 ≤ n && n < 0x18 then some (.bank (Fin.ofNat 8 n))
  else if 0x18 ≤ n && n < 0x20 then some (.group (Fin.ofNat 8 n))
  else if 0x20 ≤ n && n < 0x24 then some (.axis (Fin.ofNat 4 n))
  else if 0x24 ≤ n && n < 0x28 then some (.can (Fin.ofNat 4 n))
  else none

/-- The function type, the lowest ID of its kind (01 R18). -/
def fnType : Fn → Nat
  | .bank _ => 0x10 | .group _ => 0x18 | .axis _ => 0x20 | .can _ => 0x24 | f => fnId f

/-- Every function of the module. -/
def allFns : List Fn :=
  [.module, .logic, .loop, .bedrock, .alarm, .time, .ring, .recorder, .pool, .peg, .panel, .guy]
    ++ (List.range 8).map (fun b => .bank (Fin.ofNat 8 b))
    ++ (List.range 8).map (fun g => .group (Fin.ofNat 8 g))
    ++ (List.range 4).map (fun a => .axis (Fin.ofNat 4 a))
    ++ (List.range 4).map (fun c => .can (Fin.ofNat 4 c))

/-- The functions that wait in STANDBY while the module does (01 R25). In part by log 13 (DEDUCED, unsafe). -/
def inStandbySet (f : Fn) : Bool :=
  (1 ≤ fnId f && fnId f ≤ 4) || (0x10 ≤ fnId f && fnId f ≤ 0x27)

/-- The power domain that holds a function (20 R578). -/
def domainOf : Fn → Nat
  | .logic => 1 | .bedrock => 2 | .loop => 3 | .alarm => 3
  | .time => 5 | .ring => 5 | .can _ => 6
  | .bank b => if b.val < 4 then 7 else 8
  | .group _ => 9 | .axis _ => 10 | .panel => 11
  | .module => 4 | .recorder => 4 | .pool => 4 | .peg => 4 | .guy => 4

/-- The clock domains that clock a function (20 R580). -/
def clocksOf : Fn → List Nat
  | .logic => [1] | .bedrock => [2] | .loop => [3] | .alarm => [3] | .time => [5] | .ring => [6, 7]
  | .can _ => [8] | .bank _ => [9] | .group _ => [10] | .axis _ => [11] | .panel => [12]
  | .peg => [13] | .guy => [13] | .module => [4] | .recorder => [4] | .pool => [4]

/-- The power domain that a clock domain belongs to (20 R580). -/
def domainsOfClock (k : Nat) : List Nat :=
  if k = 0 then [0] else if k = 1 then [1] else if k = 2 then [2] else if k = 3 then [3] else if k = 4 then [4]
  else if k ≤ 7 then [5] else if k = 8 then [6] else if k = 9 then [7, 8] else if k = 10 then [9]
  else if k = 11 then [10] else if k = 12 then [11] else [4]

/-- The code of a module state (01 R25). -/
def modCode : ModState → Nat
  | .off => 0 | .selfTest => 1 | .imageSelect => 2 | .pitch => 3 | .run => 4 | .standby => 5 | .hold => 6 | .bivouac => 7

/-- The code of a HOLD cause (01 R28). -/
def holdCode : HoldCause → Nat
  | .none => 0 | .noImage => 1 | .imageAmbiguous => 2 | .comparatorTest => 3 | .sramTest => 4 | .clockMonitor => 5
  | .fatalFunction => 6

/-- The code of a function state (01 R19). -/
def fnStateCode : FnState → Nat
  | .off => 0 | .reset => 1 | .pitch => 2 | .run => 3 | .drain => 4 | .disabled => 5 | .fault => 6 | .standby => 7

/-- The code of a pair role (17 R522). -/
def pairRoleCode : PairRole → Nat
  | .single => 0 | .active => 1 | .standby => 2 | .takingOver => 3 | .handingOver => 4 | .none => 5

/-- The header of a function. -/
def State.hdr (s : State) (f : Fn) : FnHdr := s.fns.look (fnId f)

/-- The state with the header of a function changed. -/
def State.setHdr (s : State) (f : Fn) (g : FnHdr → FnHdr) : State := { s with fns := s.fns.upd (fnId f) g }

/-- The state of a function. -/
def State.fnState (s : State) (f : Fn) : FnState := (s.hdr f).state

/-- True while a function works: RUN, STANDBY, or DRAIN until its break point.
In part by log 5 (DESIGN CHOICE, unsafe). -/
def State.live (s : State) (f : Fn) : Bool :=
  match s.fnState f with
  | .run => true | .standby => true | .drain => true
  | _ => false

/-- True while a function is in RUN. In part by log 13 (DEDUCED, unsafe). -/
def State.running (s : State) (f : Fn) : Bool := s.fnState f == .run

/-! ### One-time settings -/

/-- The key of an item and index in the table of used slots. -/
def otpKey (item index : Nat) : Nat := item * 256 + index

/-- Slots allowed for an item (02 R62). -/
def otpAllowed (item : Nat) : Nat :=
  if item = 1 then 4 else if item = 2 then 4 else if item = 3 then 64 else if item = 4 then 16
  else if item = 5 then 8 else if item = 6 then 4 else if item = 7 then 4 else 0

/-- Slots that the factory has used (02 R62). -/
def otpFactory (item : Nat) : Nat := if item = 6 ∨ item = 7 then 1 else 0

/-- Slots used for an item and index. -/
def State.otpUsed (s : State) (item index : Nat) : Nat :=
  otpFactory item + (s.otp.items.look (otpKey item index)).length

/-- The value of the highest used slot whose read-back passed; `none` is the blank or factory value (02 R62). -/
def State.otpValue (s : State) (item index : Nat) : Option (List W32) :=
  ((s.otp.items.look (otpKey item index)).filter (·.passed)).getLast?.map (·.bytes)

/-- The first word of an item's value, or a blank value. -/
def State.otpWord (s : State) (item index : Nat) (blank : W32) : W32 :=
  match s.otpValue item index with
  | some v => v.getD 0 blank
  | none => blank

/-- The last commissioned value (02 R38). -/
def State.lastCommissioned (s : State) : Option W32 := (s.otpValue 3 0).map (fun v => v.getD 0 0)

/-! ### Health -/

/-- Health bit 5: the safety check value of the image equals the last commissioned value (01 R29). -/
def State.safetyCommissioned (s : State) : Bool := s.lastCommissioned == some s.imgId.safety

/-- True for a force that acts (09 R283). -/
def forceActs (f : ForceSlot) : Bool := f.kind != .free && f.live

/-- Health bit 11: a slot of the present peg holds a verified image newer than the one in use (01 R29). -/
def State.changePending (s : State) : Bool :=
  s.peg.present && s.peg.slots.any fun p =>
    (p.2.stat == .verified || p.2.stat == .chosen || p.2.stat == .droppedSafety)
      && decide (s.imgId.seq.toNat < p.2.seq.toNat)

/-- Failed continuous self-test items (01 R29): drift, critical temperature, pool, daily tests, checkpoint. -/
def State.failedItems (s : State) : Nat :=
  min 255 (b2n s.mod.drift + b2n s.mod.overTempCrit + b2n (decide (256 < (s.pool.blocks.filter (fun p => p.2.retired)).length))
    + (s.trx.filter (fun p => p.2.overdue)).length + b2n s.pair.ckptBad)

/-- The partner is heard: a valid heartbeat arrived within the last 60 ms (17 R507). -/
def State.partnerHeard (s : State) : Bool := s.pair.heard && decide (s.tu.mono ≤ s.pair.heardAt + 60000000)

/-- The partner is a ready standby, from its last heartbeat (17 R510). -/
def State.partnerReady (s : State) : Bool :=
  let h := s.pair.partner
  h.modState == 5 && h.health.getLsbD 3 && h.health.getLsbD 4 && !h.health.getLsbD 18 && h.health.toNat / 16777216 == 0
    && !h.repitch && h.imgSeq == s.imgId.seq

/-- The health word as its bits now stand (01 R29, R30). -/
def State.healthNow (s : State) : W32 :=
  let run := s.mod.state == .run
  w32 (b2n run + 2 * b2n run
    + 4 * b2n (s.mod.state == .standby)
    + 8 * b2n s.mod.selfTestPass
    + 16 * b2n s.mod.imageValid
    + 32 * b2n s.safetyCommissioned
    + 64 * b2n (s.tu.servo == .locked)
    + 128 * b2n ((s.mmp.ports.look 0).up && (s.mmp.ports.look 0).supOk)
    + 256 * b2n ((s.mmp.ports.look 1).up && (s.mmp.ports.look 1).supOk)
    + 512 * b2n s.partnerHeard
    + 1024 * b2n (s.logic.forces.any (fun p => forceActs p.2))
    + 2048 * b2n s.changePending
    + 4096 * b2n s.mod.cmpLatched
    + 8192 * b2n s.mod.parityRepair
    + 16384 * b2n s.mod.overTemp
    + 32768 * b2n (decide (18000 ≤ s.mod.supplyA))
    + 65536 * b2n (decide (18000 ≤ s.mod.supplyB))
    + 131072 * b2n s.mod.storeGood
    + 262144 * b2n (allFns.any (fun f => s.fnState f == .fault))
    + 16777216 * s.failedItems)

end Sys2Proof.Machine
end

