-- ==== Sys2Proof/Machine/Num.lean ====
section
/-! DEFINITION. IEEE 754 binary32 and binary64 arithmetic on bit patterns: round to nearest, ties to even,
subnormals kept, no fused operation (05 R148, 11 R326, 12 R367). Every operation is computed exactly in
integers and rounded once at its end. -/

namespace Sys2Proof.Num
open Sys2Proof

/-- The value a bit pattern stands for: a NaN, an infinity, or sign, `m` and `e` with value `m * 2^e`. -/
inductive Val where
  | nan
  | inf (neg : Bool)
  | fin (neg : Bool) (m : Nat) (e : Int)
  deriving DecidableEq, Repr

/-- A binary format: exponent bits and fraction bits. -/
structure Fmt where
  eb : Nat
  mb : Nat
  deriving DecidableEq, Repr

def fmt32 : Fmt := ⟨8, 23⟩
def fmt64 : Fmt := ⟨11, 52⟩

def Fmt.bias (f : Fmt) : Nat := 2 ^ (f.eb - 1) - 1
/-- The bit pattern of positive infinity. -/
def Fmt.infBits (f : Fmt) : Nat := (2 ^ f.eb - 1) * 2 ^ f.mb
/-- The canonical quiet NaN (10 R298). -/
def Fmt.nanBits (f : Fmt) : Nat := f.infBits + 2 ^ (f.mb - 1)
def Fmt.signBit (f : Fmt) (neg : Bool) : Nat := if neg then 2 ^ (f.eb + f.mb) else 0

/-- The value of a bit pattern. -/
def unpack (f : Fmt) (x : Nat) : Val :=
  let neg := x / 2 ^ (f.eb + f.mb) % 2 == 1
  let ex := x / 2 ^ f.mb % 2 ^ f.eb
  let fr := x % 2 ^ f.mb
  if ex == 2 ^ f.eb - 1 then (if fr == 0 then .inf neg else .nan)
  else if ex == 0 then .fin neg fr (1 - (f.bias : Int) - f.mb)
  else .fin neg (2 ^ f.mb + fr) ((ex : Int) - f.bias - f.mb)

/-- `2^k` for `k ≥ 0`, and 1 below. -/
def pow2 (k : Int) : Nat := 2 ^ k.toNat

/-- The quotient `n / d` rounded to the nearest integer, ties to even. -/
def divRne (n d : Nat) : Nat :=
  let q := n / d
  let r := n % d
  if 2 * r < d then q else if d < 2 * r then q + 1 else q + q % 2

/-- The bits of the value nearest to `± n / d` (`d > 0`), ties to even. -/
def roundRat (f : Fmt) (neg : Bool) (n d : Nat) : Nat :=
  if n == 0 then f.signBit neg else
  let e0 : Int := (Nat.log2 n : Int) - Nat.log2 d
  let e1 : Int := if n * pow2 (-e0) < d * pow2 e0 then e0 - 1 else e0
  let e : Int := max e1 (1 - (f.bias : Int))
  let q : Int := e - f.mb
  let m := divRne (n * pow2 (-q)) (d * pow2 q)
  let bits := (e + f.bias - 1).toNat * 2 ^ f.mb + m
  f.signBit neg + (if bits < f.infBits then bits else f.infBits)

/-- The bits of the value nearest to `± m * 2^e`. -/
def roundDy (f : Fmt) (neg : Bool) (m : Nat) (e : Int) : Nat :=
  roundRat f neg (m * pow2 e) (pow2 (-e))

def add (f : Fmt) (x y : Nat) : Nat :=
  match unpack f x, unpack f y with
  | .nan, _ => f.nanBits
  | _, .nan => f.nanBits
  | .inf a, .inf b => if a == b then f.signBit a + f.infBits else f.nanBits
  | .inf a, _ => f.signBit a + f.infBits
  | _, .inf b => f.signBit b + f.infBits
  | .fin a m e, .fin b n g =>
    let lo := min e g
    let p : Int := (m * pow2 (e - lo) : Nat)
    let q : Int := (n * pow2 (g - lo) : Nat)
    let t := (if a then -p else p) + (if b then -q else q)
    if t = 0 then f.signBit (a && b && m == 0 && n == 0) else roundDy f (t < 0) t.natAbs lo

def neg (f : Fmt) (x : Nat) : Nat :=
  let s := 2 ^ (f.eb + f.mb)
  if x / s % 2 == 1 then x % s else x % s + s

def sub (f : Fmt) (x y : Nat) : Nat := add f x (neg f y)

def mul (f : Fmt) (x y : Nat) : Nat :=
  match unpack f x, unpack f y with
  | .nan, _ => f.nanBits
  | _, .nan => f.nanBits
  | .inf a, .inf b => f.signBit (a != b) + f.infBits
  | .inf a, .fin b n _ => if n == 0 then f.nanBits else f.signBit (a != b) + f.infBits
  | .fin a m _, .inf b => if m == 0 then f.nanBits else f.signBit (a != b) + f.infBits
  | .fin a m e, .fin b n g => roundDy f (a != b) (m * n) (e + g)

def div (f : Fmt) (x y : Nat) : Nat :=
  match unpack f x, unpack f y with
  | .nan, _ => f.nanBits
  | _, .nan => f.nanBits
  | .inf _, .inf _ => f.nanBits
  | .inf a, .fin b _ _ => f.signBit (a != b) + f.infBits
  | .fin a _ _, .inf b => f.signBit (a != b)
  | .fin a m e, .fin b n g =>
    if n == 0 then (if m == 0 then f.nanBits else f.signBit (a != b) + f.infBits)
    else roundRat f (a != b) (m * pow2 (e - g)) (n * pow2 (g - e))

/-- The integer square root, found bit by bit from bit `k - 1` down. -/
def isqrt : Nat → Nat → Nat → Nat
  | 0, _, r => r
  | k + 1, n, r => let t := r + 2 ^ k; isqrt k n (if t * t ≤ n then t else r)

/-- The correctly rounded square root (12 R367). -/
def sqrt (f : Fmt) (x : Nat) : Nat :=
  match unpack f x with
  | .nan => f.nanBits
  | .inf a => if a then f.nanBits else f.infBits
  | .fin a m e =>
    if m == 0 then x
    else if a then f.nanBits
    else
      let up : Nat := 2 * (f.mb + 4) + (if e % 2 = 0 then 0 else 1)
      let n := m * 2 ^ up
      let r := isqrt (f.mb + 4 + f.mb + 2) n 0
      let sticky := if r * r == n then 0 else 1
      roundDy f false (2 * r + sticky) ((e - up) / 2 - 1)

/-- The order key of a pattern that is no NaN: negative patterns below positive ones, both zeros equal. -/
def key (f : Fmt) (x : Nat) : Int :=
  let s := 2 ^ (f.eb + f.mb)
  if x / s % 2 == 1 then -((x % s : Nat) : Int) else ((x % s : Nat) : Int)

def isNan (f : Fmt) (x : Nat) : Bool := match unpack f x with | .nan => true | _ => false
def isFin (f : Fmt) (x : Nat) : Bool := match unpack f x with | .fin _ _ _ => true | _ => false
def lt (f : Fmt) (x y : Nat) : Bool := !isNan f x && !isNan f y && decide (key f x < key f y)
def le (f : Fmt) (x y : Nat) : Bool := !isNan f x && !isNan f y && decide (key f x ≤ key f y)
def feq (f : Fmt) (x y : Nat) : Bool := !isNan f x && !isNan f y && decide (key f x = key f y)

/-- The nearest value to an integer. -/
def ofInt (f : Fmt) (i : Int) : Nat := roundRat f (i < 0) i.natAbs 1

/-- The nearest integer, ties away from zero; 0 for a NaN or an infinity. -/
def toIntAway (f : Fmt) (x : Nat) : Int :=
  match unpack f x with
  | .fin a m e =>
    let n := m * pow2 e
    let d := pow2 (-e)
    let q : Int := ((2 * n + d) / (2 * d) : Nat)
    if a then -q else q
  | _ => 0

/-- The nearest integer, ties to even; 0 for a NaN or an infinity. -/
def toIntEven (f : Fmt) (x : Nat) : Int :=
  match unpack f x with
  | .fin a m e => let q : Int := (divRne (m * pow2 e) (pow2 (-e)) : Nat); if a then -q else q
  | _ => 0

/-- The largest integer not above the value; 0 for a NaN or an infinity. -/
def floorInt (f : Fmt) (x : Nat) : Int :=
  match unpack f x with
  | .fin a m e =>
    let n := m * pow2 e
    let d := pow2 (-e)
    if a then -((((n + d - 1) / d : Nat)) : Int) else ((n / d : Nat) : Int)
  | _ => 0

/-- The value of a pattern of format `f` rounded to format `g`. -/
def convert (f g : Fmt) (x : Nat) : Nat :=
  match unpack f x with
  | .nan => g.nanBits
  | .inf a => g.signBit a + g.infBits
  | .fin a m e => roundDy g a m e

end Sys2Proof.Num

namespace Sys2Proof
open Sys2Proof.Num

/-! binary32 -/
def F32.add (x y : F32) : F32 := BitVec.ofNat 32 (Num.add fmt32 x.toNat y.toNat)
def F32.sub (x y : F32) : F32 := BitVec.ofNat 32 (Num.sub fmt32 x.toNat y.toNat)
def F32.mul (x y : F32) : F32 := BitVec.ofNat 32 (Num.mul fmt32 x.toNat y.toNat)
def F32.div (x y : F32) : F32 := BitVec.ofNat 32 (Num.div fmt32 x.toNat y.toNat)
def F32.neg (x : F32) : F32 := BitVec.ofNat 32 (Num.neg fmt32 x.toNat)
/-- The value without its sign. -/
def F32.abs (x : F32) : F32 := x &&& 0x7FFFFFFF#32
def F32.lt (x y : F32) : Bool := Num.lt fmt32 x.toNat y.toNat
def F32.le (x y : F32) : Bool := Num.le fmt32 x.toNat y.toNat
def F32.eq (x y : F32) : Bool := Num.feq fmt32 x.toNat y.toNat
def F32.isNan (x : F32) : Bool := Num.isNan fmt32 x.toNat
def F32.isFin (x : F32) : Bool := Num.isFin fmt32 x.toNat
def F32.ofInt (i : Int) : F32 := BitVec.ofNat 32 (Num.ofInt fmt32 i)
/-- The binary32 value nearest to `n / d`. -/
def F32.ofRat (n : Int) (d : Nat) : F32 := BitVec.ofNat 32 (Num.roundRat fmt32 (n < 0) n.natAbs d)
def F32.toIntAway (x : F32) : Int := Num.toIntAway fmt32 x.toNat
def F32.toIntEven (x : F32) : Int := Num.toIntEven fmt32 x.toNat
def F32.max (x y : F32) : F32 := if F32.lt x y then y else x
def F32.min (x y : F32) : F32 := if F32.lt y x then y else x
/-- `x` limited to `lo` to `hi`. -/
def F32.clamp (lo hi x : F32) : F32 := if F32.lt x lo then lo else if F32.lt hi x then hi else x
def F32.zero : F32 := 0#32
def F32.one : F32 := 0x3F800000#32

/-! binary64 -/
def F64.add (x y : F64) : F64 := BitVec.ofNat 64 (Num.add fmt64 x.toNat y.toNat)
def F64.sub (x y : F64) : F64 := BitVec.ofNat 64 (Num.sub fmt64 x.toNat y.toNat)
def F64.mul (x y : F64) : F64 := BitVec.ofNat 64 (Num.mul fmt64 x.toNat y.toNat)
def F64.div (x y : F64) : F64 := BitVec.ofNat 64 (Num.div fmt64 x.toNat y.toNat)
def F64.sqrt (x : F64) : F64 := BitVec.ofNat 64 (Num.sqrt fmt64 x.toNat)
def F64.lt (x y : F64) : Bool := Num.lt fmt64 x.toNat y.toNat
def F64.le (x y : F64) : Bool := Num.le fmt64 x.toNat y.toNat
def F64.ofInt (i : Int) : F64 := BitVec.ofNat 64 (Num.ofInt fmt64 i)
/-- The binary64 value nearest to `n / d`. -/
def F64.ofRat (n : Int) (d : Nat) : F64 := BitVec.ofNat 64 (Num.roundRat fmt64 (n < 0) n.natAbs d)
def F64.ofF32 (x : F32) : F64 := BitVec.ofNat 64 (Num.convert fmt32 fmt64 x.toNat)
def F64.toF32 (x : F64) : F32 := BitVec.ofNat 32 (Num.convert fmt64 fmt32 x.toNat)
def F64.toIntAway (x : F64) : Int := Num.toIntAway fmt64 x.toNat
def F64.floor (x : F64) : Int := Num.floorInt fmt64 x.toNat
def F64.max (x y : F64) : F64 := if F64.lt x y then y else x
def F64.min (x y : F64) : F64 := if F64.lt y x then y else x
def F64.zero : F64 := 0#64
def F64.isFin (x : F64) : Bool := Num.isFin fmt64 x.toNat

namespace Num

/-- `2 * pi` in units of `2^-200`. -/
def twoPi200 : Nat := 10096689509235987743946820282484873672429286842977325943070736

/-- The alternating Taylor sum of the sine, in units of `2^-200`: `t` is the present term, `x2` the square of
the argument, `k` the index of the term. -/
def sinSeries : Nat → Nat → Nat → Nat → Int
  | 0, _, _, _ => 0
  | fuel + 1, t, x2, k =>
    let nxt := t * x2 / 2 ^ 200 / ((2 * k + 2) * (2 * k + 3))
    (t : Int) - sinSeries fuel nxt x2 (k + 1)

/-- The binary32 value of `sin (2 * pi * phi / 2^32)`, correctly rounded (11 R345): the angle is folded into the
first quadrant, where the two exact values 0 and 1 are taken as they are. In part by log 41 (DEDUCED, unsafe). -/
def sinPhase (phi : Nat) : F32 :=
  let q := phi % 4294967296
  let neg := decide (q ≥ 2147483648)
  let h := q % 2147483648
  let a := if h ≤ 1073741824 then h else 2147483648 - h
  if a == 0 then 0#32
  else if a == 1073741824 then (if neg then 0xBF800000#32 else 0x3F800000#32)
  else
    let x := twoPi200 * a / 4294967296
    let x2 := x * x / 2 ^ 200
    BitVec.ofNat 32 (roundRat fmt32 neg (sinSeries 40 x x2 0).toNat (2 ^ 200))

end Num
end Sys2Proof
end

