-- ==== Sys2Proof/Machine/Ops.lean ====
section
/-! DEFINITION. The operations that every family shares: raising an event, changing a function's state,
reading and writing the process image, the silence watchdog, driving the outputs, and entering HOLD. -/

namespace Sys2Proof.Machine

/-! ### Access to the parts of the state -/

/-- Whole operating seconds (01 R15). -/
def operSecs (s : State) : Nat := s.mod.operNs / 1000000000
/-- Monotonic time in ns. In part by log 60 (DEDUCED, unsafe). -/
def State.now (s : State) : Nat := s.tu.mono
/-- The module function changed. -/
def State.setMod (s : State) (g : ModuleSt → ModuleSt) : State := { s with mod := g s.mod }
/-- A bank. -/
def State.bank (s : State) (b : Nat) : BankSt := s.banks.look b
/-- A bank changed. -/
def State.setBank (s : State) (b : Nat) (g : BankSt → BankSt) : State := { s with banks := s.banks.upd b g }
/-- A channel. -/
def State.ch (s : State) (b c : Nat) : ChSt := s.chs.look (16 * b + c)
/-- A channel changed. -/
def State.setCh (s : State) (b c : Nat) (g : ChSt → ChSt) : State := { s with chs := s.chs.upd (16 * b + c) g }
/-- The configuration row of a channel. -/
def State.chCfg (s : State) (b c : Nat) : ChCfg := (s.img.banks.look b).rows.look c
/-- A digital point. -/
def State.point (s : State) (g p : Nat) : DpSt := s.points.look (8 * g + p)
/-- A digital point changed. -/
def State.setPoint (s : State) (g p : Nat) (f : DpSt → DpSt) : State :=
  { s with points := s.points.upd (8 * g + p) f }
/-- The configuration row of a digital point. -/
def State.dpCfg (s : State) (g p : Nat) : DpCfg := s.img.points.look (8 * g + p)
/-- A digital group. -/
def State.group (s : State) (g : Nat) : DgSt := s.groups.look g
/-- A digital group changed. -/
def State.setGroup (s : State) (g : Nat) (f : DgSt → DgSt) : State := { s with groups := s.groups.upd g f }
/-- An axis. -/
def State.axis (s : State) (a : Nat) : AxisSt := s.axes.look a
/-- An axis changed. -/
def State.setAxis (s : State) (a : Nat) (f : AxisSt → AxisSt) : State := { s with axes := s.axes.upd a f }
/-- The time unit changed. -/
def State.setTu (s : State) (f : TimeSt → TimeSt) : State := { s with tu := f s.tu }
/-- The logic engine changed. -/
def State.setLogic (s : State) (f : LogicSt → LogicSt) : State := { s with logic := f s.logic }
/-- The MMP endpoint changed. -/
def State.setMmp (s : State) (f : MmpSt → MmpSt) : State := { s with mmp := f s.mmp }
/-- The pair logic changed. -/
def State.setPair (s : State) (f : PairSt → PairSt) : State := { s with pair := f s.pair }
/-- The recorder changed. -/
def State.setRec (s : State) (f : RecSt → RecSt) : State := { s with recd := f s.recd }
/-- The peg interface changed. -/
def State.setPeg (s : State) (f : PegSt → PegSt) : State := { s with peg := f s.peg }

/-- The function of bank `b`. -/
def bankFn (b : Nat) : Fn := .bank (Fin.ofNat 8 b)
/-- The function of group `g`. -/
def groupFn (g : Nat) : Fn := .group (Fin.ofNat 8 g)
/-- The function of axis `a`. -/
def axisFn (a : Nat) : Fn := .axis (Fin.ofNat 4 a)
/-- The function of controller `c`. -/
def canFn (c : Nat) : Fn := .can (Fin.ofNat 4 c)

/-- A free value of 32 bits and the state that has taken it: nothing constrains the value.
In part by log 1 (DESIGN CHOICE, safe). -/
def takeFree (s : State) : W32 × State := (Config.freeWord s.freeCount, { s with freeCount := s.freeCount + 1 })

/-- True when a role is at least another (15 R467). -/
def roleAtLeast (r need : Role) : Bool :=
  let n : Role → Nat := fun x => match x with | .observe => 0 | .operate => 1 | .engineer => 2 | .commission => 3
  decide (n need ≤ n r)

/-! ### Events -/

/-- The function that owns an event source (01 R15; 06 R191 for source 0xFD). -/
def srcOwner (src : Nat) (data : W32) : Option Fn :=
  if src < 0x80 then some (bankFn (src / 16))
  else if src < 0xC0 then some (groupFn ((src - 0x80) / 8))
  else if src < 0xC4 then some (axisFn (src - 0xC0))
  else if src < 0xC8 then some (canFn (src - 0xC4))
  else if src < 0xCA then some .ring
  else if src = 0xCA then some .time
  else if src = 0xCB then some .guy
  else if src = 0xCC then some .panel
  else if src = 0xCD then some .peg
  else if src = 0xCE then some .pool
  else if src = 0xCF then some .recorder
  else if src < 0xE0 then some .logic
  else if src < 0xF0 then some .loop
  else if src < 0xF8 then some .bedrock
  else if src = 0xFD then fnOfId (data.toNat % 256)
  else if src < 0xFF then some .module
  else none

/-- The bit of FN_EVSTAT that a watchdog event of a function answers to (06 R191). -/
def wdBit : Fn → Option Nat
  | .group _ => some 6 | .bank _ => some 14 | .axis _ => some 8 | _ => none

/-- The bit whose mask governs the notification of an event (01 R15; 06 R191). -/
def evBit (k : EvKind) (src : Nat) (f : Fn) : Option Nat := if src = 0xFD then wdBit f else k.bit

/-- The event word of an occurrence now (19 R556, R557). -/
def mkEvent (k : EvKind) (src : Nat) (data : W32) (o : Origin) (s : State) : Event :=
  { code := k.code, source := src, data := data, origin := o, time := s.tu.time, timeValid := s.tu.valid,
    synced := s.tu.servo == .locked, operSecs := s.mod.operNs / 1000000000 % 4294967296,
    powerCycles := s.mod.powerCycles, mono := s.tu.mono / 100000 }

/-- True when an event task is bound to an event's source (01 R15, 09 R276). -/
def taskBound (s : State) (src : Nat) : Bool :=
  s.img.logic.tasks.any fun p => p.2.kind == .event && p.2.evtKind == 0 && p.2.evtSrc == src

/-- Puts an event on the fabric: the owner's FN_EVSTAT bit, the recorder, the event tasks bound to its source,
and MMP notification where the owner's FN_EVMASK enables it (01 R15, R19). Codes with CODE[11:8] = 6 belong to the
alarm engine on every source (08 R257, R264). -/
def deliver (k : EvKind) (e : Event) (s : State) : State :=
  let owner := if e.code / 256 % 16 = 6 then some Fn.alarm else srcOwner e.source e.data
  let bit := owner.bind (evBit k e.source)
  let s1 := match owner, bit with
    | some f, some n =>
      if e.source = 0xFD && e.code = 2 then s
      else s.setHdr f (fun h => { h with evstat := h.evstat ||| ((1 : W32) <<< n) })
    | _, _ => s
  let notify := match owner, bit with
    | some f, some n => (s.hdr f).evmask.getLsbD n
    | _, _ => false
  let s2 := s1.setRec (fun r => { r with inbox := r.inbox ++ [e] })
  let s3 := if taskBound s e.source then { s2 with taskInbox := s2.taskInbox ++ [e] } else s2
  if notify then s3.setMmp (fun m => { m with notifyQ := m.notifyQ ++ [e] }) else s3

/-- Raises an event now. In part by log 14 (DESIGN CHOICE, unsafe). -/
def raise (k : EvKind) (src : Nat) (data : W32) (o : Origin) (s : State) : State :=
  deliver k (mkEvent k src data o s) s

/-- Raises an event whose record shows an earlier time word (19 R557). -/
def raiseAt (t : W64) (k : EvKind) (src : Nat) (data : W32) (o : Origin) (s : State) : State :=
  deliver k { mkEvent k src data o s with time := t } s

/-- Raises an event of the module itself with a number as its data. -/
def raiseN (k : EvKind) (src data : Nat) (s : State) : State := raise k src (w32 data) .module s

/-- Raises an event when a condition holds. -/
def raiseIf (p : Bool) (k : EvKind) (src data : Nat) (s : State) : State := if p then raiseN k src data s else s

/-- The source of a channel. -/
def chSrc (b c : Nat) : Nat := 16 * b + c
/-- The source of a digital point. -/
def dpSrc (g p : Nat) : Nat := 0x80 + 8 * g + p

/-! ### Forces and the process image -/

/-- The value that a force on an entry makes every reader see (09 R283). -/
def forceOf (s : State) (i : Nat) : Option W32 :=
  match s.logic.forces.find? (fun p => (p.2.kind == .input || p.2.kind == .output) && p.2.tgt == i && p.2.live) with
  | some p => some (match p.2.nextVal with | some v => v | none => p.2.val)
  | none => none

/-- The value that a force on a variable makes every task see (09 R283). -/
def forceVar (s : State) (v : Nat) : Option W32 :=
  match s.logic.forces.find? (fun p => p.2.kind == .variable && p.2.tgt == v && p.2.live) with
  | some p => some (match p.2.nextVal with | some x => x | none => p.2.val)
  | none => none

/-- The index that the layout gives to what an entry stands for. -/
def layIdx (s : State) (r : Ref) : Option Nat := (s.img.layout.find? (fun p => p.2.ref == r)).map (·.1)

/-- The entry of the layout at an index. -/
def State.lay (s : State) (i : Nat) : LayEntry := s.img.layout.look i

/-- What the writer of an entry released last; the initial value is 0 GOOD. -/
def piRaw (s : State) (i : Nat) : Qv := match s.pi.look i with | some v => v | none => { val := 0, q := qGood }

/-- An entry released with value and quality together (01 R13). -/
def State.setPi (s : State) (i : Nat) (v : Qv) : State := { s with pi := s.pi.put i (some v) }

/-- The released value of what `r` stands for, where the layout numbers it. -/
def piOf (s : State) (r : Ref) : Qv :=
  match layIdx s r with | some i => piRaw s i | none => { val := 0, q := qGood }

/-- Releases the entry of `r`, where the layout numbers it. -/
def setRef (r : Ref) (v : Qv) (s : State) : State :=
  match layIdx s r with | some i => s.setPi i v | none => s

/-- The force on the entry of `r`, where the layout numbers it and a force acts. -/
def forceRef (s : State) (r : Ref) : Option W32 := (layIdx s r).bind (forceOf s)

/-- The watchdog of an output. -/
def wdOf (s : State) : Ref → Wd
  | .aoOut b c => (s.ch b c).wd
  | .doOut g p => (s.point g p).wd
  | .axisOut a 0 => (s.axis a).wd
  | _ => {}

/-- True for an output that has a silence watchdog (06 R182; 12 R370). In part by log 31 (DEDUCED, unsafe). -/
def hasWd : Ref → Bool
  | .aoOut _ _ => true | .doOut _ _ => true | .axisOut _ k => k == 0 | _ => false

/-- The watchdog of an output changed. -/
def setWd (r : Ref) (f : Wd → Wd) (s : State) : State :=
  match r with
  | .aoOut b c => s.setCh b c (fun x => { x with wd := f x.wd })
  | .doOut g p => s.setPoint g p (fun x => { x with wd := f x.wd })
  | .axisOut a 0 => s.setAxis a (fun x => { x with wd := f x.wd })
  | _ => s

/-- The safe state that an output's row names (06 R166, R181; 12 R370). -/
def wdSafe (s : State) : Ref → Nat
  | .aoOut b c => (s.chCfg b c).safe
  | .doOut g p => (s.dpCfg g p).safe
  | .axisOut a _ => (s.img.axes.look a).safe
  | _ => 0

/-- The watchdog timeout of an output in ns. In part by log 60 (DEDUCED, unsafe). -/
def wdTimeNs (s : State) : Ref → Nat
  | .aoOut b c => (s.chCfg b c).wdTime * 1000000
  | .doOut g p => (s.dpCfg g p).wdTime * 1000000
  | .axisOut a _ => (s.img.axes.look a).wdTime * 1000000
  | _ => 0

/-- The function that an output belongs to. -/
def outFn : Ref → Fn
  | .aoOut b _ => bankFn b | .doOut g _ => groupFn g | .axisOut a _ => axisFn a | _ => .module

/-- The data word of the watchdog events (06 R191): function, point or channel, safe state. -/
def wdData (s : State) (r : Ref) : Nat :=
  let idx := match r with | .aoOut _ c => c | .doOut _ p => p | _ => 0
  fnId (outFn r) + 256 * idx + 65536 * wdSafe s r

/-- The quality that an expired watchdog gives its output entry (06 R183; 12 R370). -/
def wdCause (s : State) (r : Ref) : List Byte :=
  match (wdOf s r).state with
  | .expired => [if wdSafe s r = 2 then qUnc 8 else qUnc 9]
  | .rearmed => [if wdSafe s r = 2 then qUnc 8 else qUnc 9]
  | _ => []

/-- Terminal A of a row, its default where the row names none (04 R107). -/
def termA (r : ChCfg) (c : Nat) : Nat := match r.termA with | some t => t | none => 3 * c
/-- Terminal B of a row. -/
def termB (r : ChCfg) (c : Nat) : Nat := match r.termB with | some t => t | none => 3 * c + 1
/-- True while a terminal of an output row is clamped (04 R132). -/
def outClamped (s : State) (b c : Nat) : Bool :=
  let r := s.chCfg b c
  (s.bank b).clampLive.getLsbD (termA r c) || (s.bank b).clampLive.getLsbD (termB r c)

/-- The causes of an analogue output entry (03 R77, R85, R88; 04 R132). -/
def aoCauses (s : State) (b c : Nat) : List Byte :=
  let x := s.ch b c
  qIf x.backfeed (qBad 14) ++ qIf (outClamped s b c) (qBad 4) ++ qIf x.compShort (qBad 5) ++ qIf x.compLow (qUnc 5) ++ qIf x.rbMismatch (qBad 6)
    ++ wdCause s (.aoOut b c) ++ qIf (x.mode == 0) (qBad 10)

/-- The causes of a digital output entry (06 R175, R177, R180). -/
def doCauses (s : State) (g p : Nat) : List Byte :=
  let x := s.point g p
  qIf x.extFeed (qBad 14) ++ qIf (s.group g).supplyLow (qBad 5) ++ qIf (x.latched || x.noRead) (qBad 6)
    ++ qIf x.trip6 (qUnc 6) ++ wdCause s (.doOut g p) ++ qIf (x.mode == 0) (qBad 10)

/-- The value and quality of an entry before forces, function state and divergence.
In part by log 29 (DEDUCED, unsafe). -/
def homeEntry (s : State) (i : Nat) : Ref → Qv
  | .aiMain b c => if (s.ch b c).mode = 0 then { val := 0, q := qBad 10 } else (s.ch b c).entry
  | .aiSecond b c => (s.ch b c).second
  | .aoOut b c => { val := (piRaw s i).val, q := qShown (piRaw s i).q (aoCauses s b c) }
  | .aoRead b c =>
    { val := (s.ch b c).rbEntry.val,
      q := qShown (s.ch b c).rbEntry.q (qIf (s.ch b c).backfeed (qBad 14) ++ qIf ((s.ch b c).mode == 0) (qBad 10)) }
  | .diState g p =>
    { val := w32 (b2n (s.point g p).state),
      q := if (s.point g p).mode = 0 then qBad 10 else if (s.point g p).clocked then qGood else qBad 11 }
  | .diCount g p => { val := (piRaw s i).val, q := if (s.point g p).mode = 0 then qBad 10 else qGood }
  | .diFreq g p =>
    { val := (s.point g p).freq,
      q := if (s.point g p).mode = 0 then qBad 10 else if (s.point g p).freqOver then qUnc 2 else qGood }
  | .doOut g p => { val := (piRaw s i).val, q := qShown (piRaw s i).q (doCauses s g p) }
  | .doRead g p =>
    { val := w32 (b2n (s.point g p).readback), q := if (s.point g p).mode = 0 then qBad 10 else qGood }
  | .axisOut a k =>
    { val := (piRaw s i).val, q := qShown (piRaw s i).q (if k = 0 then wdCause s (.axisOut a 0) else []) }
  | .loop n _ =>
    let x := s.loops.lps.look n
    { val := (piRaw s i).val,
      q := qShown (piRaw s i).q (qIf (x.code != 0 || x.mode == .unused) (qBad 10) ++ qIf (x.mode == .fault) (qBad 11)) }
  | _ => piRaw s i

/-- The function whose state an entry depends on (01 R24). -/
def refOwner : Ref → Option Fn
  | .aiMain b _ => some (bankFn b) | .aiSecond b _ => some (bankFn b)
  | .aoOut b _ => some (bankFn b) | .aoRead b _ => some (bankFn b)
  | .diState g _ => some (groupFn g) | .diCount g _ => some (groupFn g) | .diFreq g _ => some (groupFn g)
  | .diPreset g _ => some (groupFn g) | .doOut g _ => some (groupFn g) | .doRead g _ => some (groupFn g)
  | .loop _ _ => some .loop
  | .axisOut a _ => some (axisFn a) | .axisIn a _ => some (axisFn a)
  | .vgDemand _ => some .bedrock | .vgValue _ => some .bedrock | .bsl _ _ => some .bedrock
  | .status f _ => fnOfId f
  | .user => some .logic | .bivouac => some .logic
  | .unused => none

/-- The value and quality that a reader sees at an index of the process image (01 R13, R24; 05 R156; 09 R283). -/
def readEntry (s : State) (i : Nat) : Qv :=
  match forceOf s i with
  | some v => { val := v, q := qForced }
  | none =>
    let r := (s.lay i).ref
    let h := homeEntry s i r
    let dead := match refOwner r with | some f => !s.live f | none => false
    { val := h.val, q := qShown h.q (qIf dead (qBad 11) ++ qIf (s.div.look i).flag (qBad 7)) }

/-- What a reader sees of `r`, where the layout numbers it, and its own value otherwise. -/
def readRef (s : State) (r : Ref) : Qv :=
  match layIdx s r with
  | some i => readEntry s i
  | none =>
    let h := homeEntry s 0 r
    let dead := match refOwner r with | some f => !s.live f | none => false
    { val := h.val, q := qShown h.q (qIf dead (qBad 11)) }

/-! ### Driving the outputs -/

/-- The commanded state of a digital output: force, watchdog, then its entry, which the panel writes under
local control (06 R183; 09 R283; 18 R546). -/
def doCommand (s : State) (g p : Nat) : Bool :=
  match forceRef s (.doOut g p) with
  | some v => v != 0
  | none =>
      let safe := if (s.dpCfg g p).safe = 1 then true
        else if (s.dpCfg g p).safe = 2 then (s.point g p).wd.hold != 0 else false
      match (s.point g p).wd.state with
      | .expired => safe
      | .rearmed => safe
      | _ => (piOf s (.doOut g p)).val != 0

/-- Switches a digital output by its command. A latch or a wait for a retry keeps it off, and a command OFF ends
the wait (06 R175, R176). -/
def driveDo (g p : Nat) (s : State) : State :=
  if (s.point g p).mode != 8 || !s.pair.enabled then s
  else
    match s.fnState (groupFn g) with
    | .run | .drain | .disabled =>
      let c := doCommand s g p
      s.setPoint g p (fun x =>
        if x.latched then { x with on := false, tripped := false }
        else if x.tripped && c then { x with on := false }
        else { x with on := c, tripped := false })
    | .standby => s.setPoint g p (fun x => { x with on := false })
    | _ => s

/-- Lowest and highest value that an output mode drives (03 R73), in mA or V. -/
def aoRange (mode : Nat) : F32 × F32 :=
  if mode = 0x10 ∨ mode = 0x13 then (0#32, 0x41A40000#32)
  else if mode = 0x11 ∨ mode = 0x14 then (0x40600000#32, 0x41AC0000#32)
  else if mode = 0x12 ∨ mode = 0x15 then (0#32, 0x41C00000#32)
  else if mode = 0x16 then (0#32, 0x41280000#32)
  else (0xC1280000#32, 0x41280000#32)

/-- True for the output modes (03 R70). -/
def isOutMode (m : Nat) : Bool := 0x10 ≤ m && m ≤ 0x17
/-- True for the input modes (03 R70). -/
def isInMode (m : Nat) : Bool := 1 ≤ m && m ≤ 0x0C
/-- True for the current output modes. -/
def isCurMode (m : Nat) : Bool := 0x10 ≤ m && m ≤ 0x15

/-- A field of a correction set as a signed number. -/
def trimField (w : BitVec 16) : Int := w.toInt

/-- Gain and offset of an output trim set (03 R92): OTP item 6, or the factory set. -/
def outTrim (s : State) (b c : Nat) (current : Bool) : Int × Int :=
  match s.otpValue 6 (16 * b + c) with
  | some ws =>
    let w := ws.getD (if current then 0 else 1) 0
    (trimField (w.extractLsb' 0 16), trimField (w.extractLsb' 16 16))
  | none =>
    let f := Config.factoryTrim (if current then 1 else 2) (16 * b + c)
    (trimField f.1, trimField f.2)

/-- Gain and offset of a front-end calibration set (03 R92): OTP item 7, or the factory set. -/
def inCal (s : State) (b c : Nat) : Int × Int :=
  match s.otpValue 7 (16 * b + c) with
  | some ws => (trimField ((ws.getD 0 0).extractLsb' 0 16), trimField ((ws.getD 0 0).extractLsb' 16 16))
  | none => let f := Config.factoryTrim 3 (16 * b + c); (trimField f.1, trimField f.2)

/-- The correction formula of 03 R92 in binary64; `unit` is `n / d` of the value's unit. -/
def corrected (v : F64) (gain offset : Int) (n : Int) (d : Nat) : F64 :=
  F64.add (F64.mul v (F64.add (F64.ofInt 1) (F64.ofRat gain 1000000))) (F64.ofRat (offset * n) d)

/-- The DAC code of a corrected demand, nearest and saturating (03 R73, R99). In part by log 26 (DEDUCED, unsafe). -/
def dacCode (mode : Nat) (v : F64) : Int :=
  if isCurMode mode then
    max 0 (min 262143 (F64.toIntAway (F64.div (F64.mul v (F64.ofInt 262144)) (F64.ofInt 25))))
  else max (-131072) (min 131071 (F64.toIntAway (F64.div (F64.mul v (F64.ofInt 262144)) (F64.ofInt 25))))

/-- The effective NE 43 direction of a 4–20 mA output row: 1 low, 2 high (03 R80). -/
def effDir (s : State) (b c : Nat) : Nat :=
  if (s.bank b).effLock != 0 then (s.bank b).effLock
  else if (s.chCfg b c).dir = 2 then 2 else 1

/-- The NE 43 level of a row (03 R79): 3.5 mA or 21.5 mA. -/
def ne43Level (s : State) (b c : Nat) : F32 := if effDir s b c = 2 then 0x41AC0000#32 else 0x40600000#32

/-- The nominal point that an open output trim drives (03 R93); the second one stays until the procedure ends. -/
def trimPoint (t : TrimSt) : Option F32 :=
  if t.kind = 1 then
    match t.state with | .idle => none | .point1 => some 0x40800000#32 | _ => some 0x41A00000#32
  else if t.kind = 2 then
    match t.state with | .idle => none | .point1 => some 0#32 | _ => some 0x41200000#32
  else none

/-- True while an output trim or an input calibration is open on a channel.
In part by log 5 (DESIGN CHOICE, unsafe). -/
def trimOpen (s : State) (b c : Nat) : Bool := (s.bank b).trim.state != .idle && (s.bank b).trim.sel == c

/-- The value an analogue output is asked for, before clamping: readback action, force, trim, watchdog, then its entry (03 R85, R96; 06 R183; 09 R283; 18 R546).
In part by log 26 (DEDUCED, unsafe). -/
def aoCommand (s : State) (b c : Nat) : F32 :=
  let x := s.ch b c
  let cfg := s.chCfg b c
  if x.ne43 then ne43Level s b c
  else
    match forceRef s (.aoOut b c) with
    | some v => v
    | none =>
        match (if trimOpen s b c then trimPoint (s.bank b).trim else none) with
        | some v => v
        | none =>
          let safe := if cfg.safe = 2 then x.wd.hold else if cfg.safe = 3 then cfg.safeVal else 0#32
          match x.wd.state with
          | .expired => safe
          | .rearmed => safe
          | _ => (piOf s (.aoOut b c)).val

/-- True while the watchdog's safe state OFF drives a stage off: 0 mA or 0 V, not clamped (03 R613; 06 R183). -/
def aoDrivenOff (s : State) (b c : Nat) : Bool :=
  let x := s.ch b c
  !x.ne43 && (forceRef s (.aoOut b c)).isNone && !trimOpen s b c
    && (x.wd.state == .expired || x.wd.state == .rearmed)
    && !((s.chCfg b c).safe == 2 || (s.chCfg b c).safe == 3)

/-- Drives an analogue output by its command (03 R614): clamped to the drive range, a NaN keeps the last value,
and with none since PITCH the stage is driven off. In part by log 26 (DEDUCED, unsafe). -/
def driveAo (b c : Nat) (s : State) : State :=
  let x := s.ch b c
  if !isOutMode x.mode || !s.pair.enabled || !(s.running (bankFn b) || s.fnState (bankFn b) == .drain || s.fnState (bankFn b) == .disabled)
  then s
  else
    let cmd := aoCommand s b c
    let v : F32 :=
      if aoDrivenOff s b c then 0#32
      else if F32.isNan cmd then (match x.driven with | some d => d | none => 0#32)
      else F32.clamp (aoRange x.mode).1 (aoRange x.mode).2 cmd
    let t := outTrim s b c (isCurMode x.mode)
    let demand := if trimOpen s b c && (trimPoint (s.bank b).trim).isSome then F64.ofF32 v
      else corrected (F64.ofF32 v) t.1 t.2 1 100000
    s.setCh b c (fun y =>
      { y with
        cmdLog :=
          if y.driven == some v then y.cmdLog
          else y.cmdLog.filter (fun p => decide (s.now < p.1 + 2000000))
            ++ [(s.now, match y.driven with | some d => d | none => 0#32)]
        driven := some v
        raw := dacCode x.mode demand })

/-- Drives an output again after anything that decides its command has changed.
In part by log 26 (DEDUCED, unsafe). -/
def driveOut (r : Ref) (s : State) : State :=
  match r with
  | .aoOut b c => driveAo b c s
  | .doOut g p => driveDo g p s
  | _ => s

/-- Every output stage of the module at its groundsheet state (01 R26; 03 R613). -/
def switchOffBank (b : Nat) (s : State) : State :=
  forRange 16 (fun c t => t.setCh b c (fun x => { x with driven := none, raw := if isOutMode x.mode then 0 else x.raw })) s

/-- Every output of a group off. -/
def switchOffGroup (g : Nat) (s : State) : State :=
  forRange 8 (fun p t => t.setPoint g p (fun x => { x with on := false, tripped := false })) s

/-! ### The silence watchdog (06 R182) -/

/-- What an output drives now, as the word that the safe state HOLD keeps. -/
def drivenNow (s : State) : Ref → W32
  | .aoOut b c => match (s.ch b c).driven with | some v => v | none => 0#32
  | .doOut g p => w32 (b2n (doCommand s g p))
  | r => (piOf s r).val

/-- The watchdog expires: the safe state is driven and WD_EXPIRED is raised.
In part by log 26, 31 (DEDUCED, unsafe). -/
def wdExpire (r : Ref) (s : State) : State :=
  let h := drivenNow s r
  raiseN Ev.WD_EXPIRED 0xFD (wdData s r)
    (driveOut r (setWd r (fun w => { w with state := .expired, since := s.now, hold := h }) s))

/-- The watchdog enters RUN with its timer restarted. In part by log 31 (DEDUCED, unsafe). -/
def wdRestart (r : Ref) (s : State) : State :=
  driveOut r (setWd r (fun w => { w with state := .run, since := s.now }) s)

/-- The watchdog is suspended. In part by log 31 (DEDUCED, unsafe). -/
def wdSuspend (r : Ref) (s : State) : State :=
  driveOut r (setWd r (fun w => { w with state := .suspended, since := s.now }) s)

/-- The output entries that name a writer. -/
def outsOf (s : State) (w : Writer) : List (Nat × LayEntry) :=
  s.img.layout.filter (fun p => p.2.out && p.2.writer == w)

/-- The named writer enters FAULT, or its engine is disabled: its watchdogs expire at once (06 R182).
In part by log 31 (DEDUCED, unsafe). -/
def writerFault (w : Writer) (s : State) : State :=
  forAll (outsOf s w) (fun p t =>
    match (wdOf t p.2.ref).state with
    | .run => if hasWd p.2.ref then wdExpire p.2.ref t else t
    | .rearmed => if hasWd p.2.ref then wdExpire p.2.ref t else t
    | _ => t) s

/-- An instance of a writer released at `t0` completes its comparison: a watchdog that expired before that
release is rearmed (06 R182). -/
def instanceDone (w : Writer) (t0 : Nat) (s : State) : State :=
  forAll (outsOf s w) (fun p t =>
    if hasWd p.2.ref && (wdOf t p.2.ref).state == .expired && decide ((wdOf t p.2.ref).since < t0) then
      setWd p.2.ref (fun x => { x with state := .rearmed, rearmUnit := t0 }) t
    else t) s

/-- True when `w` is the named writer of output entry `i` (01 R14). -/
def mayWrite (s : State) (w : Writer) (i : Nat) : Bool :=
  (s.lay i).out && (s.lay i).writer == w && w != .none

/-- A write of output entry `i` by an instance of its named writer released at `t0`. A forced, suspended or
expired output discards it; a rearmed one takes the write of a later instance (01 R14; 06 R182; 09 R283).
In part by log 26 (DEDUCED, unsafe). -/
def writeOut (w : Writer) (t0 : Nat) (i : Nat) (v : Qv) (s : State) : State :=
  let r := (s.lay i).ref
  if !mayWrite s w i || (forceOf s i).isSome then s
  else if hasWd r then
    match (wdOf s r).state with
    | .run => wdRestart r (s.setPi i v)
    | .rearmed =>
      if t0 ≤ (wdOf s r).rearmUnit then s
      else raiseN Ev.WD_RETURNED 0xFD (wdData s r) (wdRestart r (s.setPi i v))
    | _ => s
  else
    match r with
    | .diPreset g p => (s.setPi i v).setPoint g p (fun x => { x with preset := some (v.val, s.now) })
    | _ => s.setPi i v

/-! ### What a masked function gives back (14 R450) -/

/-- A pool block. -/
def poolBlock (s : State) (b : Nat) : BlockSt := s.pool.blocks.look b
/-- The pool changed. -/
def State.setPool (s : State) (f : PoolSt → PoolSt) : State := { s with pool := f s.pool }

/-- Blocks retired in total. -/
def retiredBlocks (s : State) : Nat := (s.pool.blocks.filter (fun p => p.2.retired)).length

/-- One block returns to the pool: a marked one is retired (14 R454). In part by log 47 (DEDUCED, unsafe). -/
def freeBlock (b : Nat) (s : State) : State :=
  if (poolBlock s b).marked then
    let s1 := s.setPool (fun p => { p with blocks := p.blocks.put b { retired := true } })
    raiseN Ev.POOL_BLOCK_RETIRED 0xCE (b + 65536 * retiredBlocks s1) s1
  else s.setPool (fun p => { p with blocks := p.blocks.put b {} })

/-- Blocks of a function. -/
def blocksOf (s : State) (f : Fn) : List Nat :=
  (s.pool.blocks.filter (fun p => p.2.owner == some (fnId f))).map (·.1)

/-- Every block of a function returns. -/
def freeBlocksOf (f : Fn) (s : State) : State := forAll (blocksOf s f) freeBlock s

/-- Tags in flight of a function. -/
def tagsOf (s : State) (f : Fn) : List Nat :=
  (s.pool.tags.filter (fun p => match p.2 with | some t => t.fn == fnId f | none => false)).map (·.1)

/-- Order numbers of the resources that a function holds. -/
def locksOf (s : State) (f : Fn) : List Nat :=
  (s.pool.locks.filter (fun p => p.2.owner == some (fnId f))).map (·.1)

/-- The waiters of a resource in turn: one that holds a resource of no lower order is refused (14 R453). -/
def grantLock (n : Nat) : List Nat → State → State
  | [], s => s.setPool (fun p => { p with locks := p.locks.put n {} })
  | f :: r, s =>
    let held := (s.pool.locks.filter (fun p => p.2.owner == some f && p.1 != n)).map (·.1)
    if held.any (fun h => decide (n ≤ h)) then
      grantLock n r (raiseN Ev.ORDER_VIOLATION 0xCE (f + 256 * held.foldl max 0 + 4096 * n)
        (s.setPool (fun p => { p with orderCount := satInc top32 p.orderCount })))
    else s.setPool (fun p => { p with locks := p.locks.put n { owner := some f, waiters := r } })

/-- A resource is given back: the function that has waited longest takes it. In part by log 47 (DEDUCED, unsafe). -/
def passLock (n : Nat) (s : State) : State := grantLock n (s.pool.locks.look n).waiters s

/-- A function is masked by sideband: it loses its grant, tags, locks, pool blocks and requests (14 R450). -/
def maskFn (f : Fn) (s : State) : State :=
  let blocks := blocksOf s f
  let tags := tagsOf s f
  let locks := locksOf s f
  let s1 := s.setPool (fun p =>
    { p with
      holder := match p.holder with | some h => if h.fn = f then none else some h | none => none
      waits := p.waits.filter (fun w => w.who.fn != f)
      tags := p.tags.filter (fun q => !tags.contains q.1)
      locks := (p.locks.map (fun q => (q.1, { q.2 with waiters := q.2.waiters.filter (· != fnId f) }))).filter (fun q => q.2 != default) })
  let s2 := forAll locks passLock s1
  let s3 := freeBlocksOf f s2
  raiseIf (!blocks.isEmpty || !tags.isEmpty || !locks.isEmpty) Ev.ARB_MASK_DROP 0xCE
    (fnId f + 256 * min 255 blocks.length + 65536 * min 63 tags.length) s3

/-! ### Function and module states -/

/-- A function enters a state (01 R21). On entry to OFF or RESET its requesters are masked (01 R23). -/
def enterFn (f : Fn) (st : FnState) (s : State) : State :=
  let s1 := s.setHdr f (fun h => { h with state := st })
  match st with
  | .off | .reset => maskFn f s1
  | _ => s1

/-- Domains that stay on in HOLD (20 R578): PD0, PD4, PD5 and PD11. -/
def holdDomains : BitVec 12 := 0x831#12
/-- Clocks that run in HOLD. -/
def holdClocks : BitVec 14 := 0x30F1#14

/-- Every function of a domain that is off enters OFF (01 R21). -/
def applyDomains (s : State) : State :=
  forAll allFns (fun f t =>
    if t.mod.domains.getLsbD (domainOf f) then t
    else
      let u := t.setHdr f (fun h =>
        { h with wasDisabled := h.wasDisabled || h.state == .disabled, powered := false, clocked := false })
      if t.fnState f == .off then u else enterFn f .off u) s

/-- Every output at its groundsheet state (01 R26); both channels of each STO pair are off. -/
def outputsOff (s : State) : State :=
  let s1 := forRange 8 switchOffGroup (forRange 8 switchOffBank s)
  { s1 with bedrock := { s1.bedrock with sto := (s1.bedrock.sto.map (fun p => (p.1, { p.2 with on := false }))).filter (fun p => p.2 != default) } }

/-- Local control of an axis ends: STOPPED with pending target AX_TGT, after a profile stop when it moves (18 R546). -/
def localAxisEnd (a : Nat) (s : State) : State :=
  let t := (match forceRef s (.axisOut a 0) with | some v => v | none => (piOf s (.axisOut a 0)).val).toInt
  s.setAxis a (fun y =>
    let x := { y with panelTgt := none }
    match x.state with
    | .idle | .dwell | .stopped => { x with state := .stopped, pending := some t }
    | .moving =>
      if x.first then { x with state := .stopped, pending := some t, phase := 0 }
      else { x with state := .stopping, braking := true, brakeBy := .profile, reversal := false, phase := 3, pending := some t }
    | .stopping | .quickStopping => { x with pending := some t, toIdle := false }
    | _ => x)

/-- Local control of one point ends for a reason (18 R546, R547). In part by log 55 (DEDUCED, unsafe). -/
def endLocal (reason : Nat) (o : Origin) (p : LocalPt) (s : State) : State :=
  if !s.panel.locals.contains p then s
  else
    let s1 := { s with panel := { s.panel with locals := s.panel.locals.filter (fun q => q != p) } }
    let s2 := if p.kind = 2 then wdRestart (s1.lay p.index).ref s1
      else if p.kind = 1 then localAxisEnd p.index s1 else s1
    raise Ev.PNL_LOCAL_RELEASED 0xCC (w32 (p.kind + 4 * p.index + 16777216 * reason)) o s2

/-- Local control of every point that satisfies `p` ends for a reason. In part by log 21 (DEDUCED, unsafe). -/
def endLocals (reason : Nat) (o : Origin) (p : LocalPt → Bool) (s : State) : State :=
  forAll (s.panel.locals.filter p) (endLocal reason o) s

/-- The functions of the domains that stay on in HOLD run, those in RESET or PITCH too (01 R25). -/
def holdRuns (s : State) : State :=
  forAll allFns (fun f t =>
    match t.fnState f with
    | .reset | .pitch => if (t.hdr f).powered then t.setHdr f (fun h => { h with state := .run, configured := false }) else t
    | _ => t) s

/-- The module enters HOLD (01 R25, R28, R29; 17 R504; 18 R547; 20 R578). In part by log 58 (DEDUCED, unsafe). -/
def enterHold (c : HoldCause) (s : State) : State :=
  let s1 := endLocals 5 .module (fun _ => true) s
  let s2 := outputsOff s1
  holdRuns (applyDomains
    { s2 with
      mod := { s2.mod with state := .hold, hold := c, imageValid := false, bivStage := .none, domains := holdDomains, clocks := holdClocks }
      pair := { s2.pair with
        claim := false, handshake := 0, grantWaits := false, handoverHold := false, waitUntilRun := false, takeoverWaits := none
        role := if s2.mod.position = 0 then .single else .none } })

/-- A fault detected by or in a function (01 R21, R24). `code` is the code of its event.
In part by log 21 (DEDUCED, unsafe). -/
def fnFault (f : Fn) (code : Nat) (s : State) : State :=
  match s.fnState f with
  | .run | .drain | .standby =>
    let s1 := s.setHdr f (fun h => { h with state := .fault, fault := code % 4096 })
    if f = .module ∨ f = .pool then enterHold .fatalFunction s1 else s1
  | _ => s

end Sys2Proof.Machine
end

