-- ==== Sys2Proof/Machine/Digital.lean ====
section
/-! DEFINITION. Digital points, counters, outputs and the silence watchdog (chapter 06). -/

namespace Sys2Proof.Machine

/-! ### Rows -/

/-- True for the two input modes (06 R166). -/
def dpIsIn (m : Nat) : Bool := m == 1 || m == 2

/-- The first refusal code of a point row in code order, 0 when accepted (06 R186). `safeOk` and `periodOk` say
that R184 and R185 hold for its writer. -/
def dpRowCode (r : DpCfg) (safeOk periodOk : Bool) : Nat :=
  if !(r.mode == 0 || dpIsIn r.mode || r.mode == 8) then 1
  else if dpIsIn r.mode && (r.filtN == 0 || decide (65535 < r.filtN) || decide (1 < r.filtClk)) then 2
  else if dpIsIn r.mode && r.count != 0
      && (decide (r.freqGate < 10) || decide (10000 < r.freqGate) || r.freqGate % 10 != 0) then 3
  else if r.mode == 8 && decide (500 < r.loadMa) then 4
  else if r.mode == 8 && (decide (2 < r.safe) || !safeOk) then 5
  else if r.mode == 8 && (decide (r.wdTime < 10) || decide (60000 < r.wdTime) || !periodOk) then 6
  else if (dpIsIn r.mode && decide (3 < r.count)) || (r.mode == 8 && r.count != 0) then 7
  else 0

/-- A point pitched from its row (06 R170, R192): filters loaded from the sample, latches, retry counts and counts
cleared, the watchdog in RUN. -/
def dpPitch (r : DpCfg) (code now : Nat) (x : DpSt) : DpSt :=
  { result := code
    mode := if code = 0 then r.mode else 0
    raw := x.raw
    readback := x.readback
    state := x.raw && dpIsIn r.mode
    c := if x.raw then r.filtN else 0
    wd := { since := now } }

/-- One point of a group pitched, with DP_ROW_REFUSED where its row is refused (06 R186).
In part by log 30 (DEDUCED, unsafe). -/
def pitchPoint (safeOk periodOk : Nat → Nat → Bool) (g p : Nat) (s : State) : State :=
  let r := s.dpCfg g p
  let code := dpRowCode r (safeOk g p) (periodOk g p)
  raiseIf (code != 0) Ev.DP_ROW_REFUSED (dpSrc g p) code
    (s.setPoint g p (dpPitch r code s.now))

/-- Every point of a group pitched from the image (06 R192). -/
def pitchGroup (safeOk periodOk : Nat → Nat → Bool) (g : Nat) (s : State) : State :=
  forRange 8 (pitchPoint safeOk periodOk g) s

/-- The group's outputs resume at the value in their output entry, with their watchdogs in RUN (06 R182, R192). -/
def resumeGroup (g : Nat) (s : State) : State :=
  forRange 8 (fun p t => if (t.point g p).mode = 8 then wdRestart (.doOut g p) t else t) s

/-- The effect of a reset on a group before it is pitched again (06 R192). -/
def resetGroup (g : Nat) (s : State) : State :=
  forRange 8 (fun p t => t.setPoint g p (fun x =>
    { x with on := false, tripped := false, latched := false, retries := 0, trip6 := false, noRead := false,
             extFeed := false, count := 0, preset := none, edges := [], clocked := false })) s

/-- Declared load of the output rows of a group in mA (06 R179, R188). -/
def groupLoad (img : ImageCfg) (g : Nat) : Nat :=
  ((List.range 8).map (fun p =>
    let r := img.points.look (8 * g + p); if r.mode = 8 then r.loadMa else 0)).sum

/-! ### Inputs, counters and frequency -/

/-- A preset released before `now` loads the counter (06 R172). In part by log 30 (DEDUCED, unsafe). -/
def loadPreset (now : Nat) (x : DpSt) : DpSt :=
  match x.preset with
  | some v => if v.2 < now then { x with count := v.1, preset := none } else x
  | none => x

/-- One clock of the counter filter of R168 at `now`, and the counting of R171 on the edge it makes; the instants of
edges are kept in units of 100 ns. In part by log 30 (DEDUCED, unsafe). -/
def filterPoint (r : DpCfg) (smp : Bool) (now : Nat) (x0 : DpSt) : DpSt :=
  let x := loadPreset now x0
  let c1 := if smp && decide (x.c < r.filtN) then x.c + 1 else x.c
  let c2 := if !smp && decide (0 < c1) then c1 - 1 else c1
  let st1 := if c2 = r.filtN then true else x.state
  let st2 := if c2 = 0 then false else st1
  let rising := st2 && !x.state
  let falling := !st2 && x.state
  let counted := (rising && (r.count == 1 || r.count == 3)) || (falling && (r.count == 2 || r.count == 3))
  { x with
    raw := smp, c := c2, state := st2, clocked := true
    count := if counted then x.count + 1 else x.count
    edges := if counted then x.edges ++ [now / 100] else x.edges }

/-- One filter clock at every input point that uses it. -/
def filterClock (clk : Nat) (samples : BitVec 64) (s : State) : State :=
  forRange 64 (fun i t =>
    let g := i / 8
    let p := i % 8
    let r := t.dpCfg g p
    if dpIsIn (t.point g p).mode && r.filtClk == clk && t.live (groupFn g) then
      t.setPoint g p (filterPoint r (samples.getLsbD i) t.now)
    else t) s

/-- The count entries take the counters, every 1 ms (06 R171). -/
def countEntries (s : State) : State :=
  forRange 64 (fun i t =>
    let x := t.point (i / 8) (i % 8)
    if dpIsIn x.mode && (t.dpCfg (i / 8) (i % 8)).count != 0 then
      setRef (.diCount (i / 8) (i % 8)) { val := x.count, q := qGood } t
    else t) s

/-- The maximum count rate of a point as a fraction of Hz (06 R171): the lower of the hardware limit and
f_f / (2 × (FILT_N + 1)). -/
def maxRate (g : Nat) (r : DpCfg) : Nat × Nat :=
  let hw := if g < 2 then 100000 else 20000
  let ff := if r.filtClk = 0 then 1000000 else 10000
  if hw * (2 * (r.filtN + 1)) ≤ ff then (hw, 1) else (ff, 2 * (r.filtN + 1))

/-- A frequency gate completes (06 R173). Two counted edges at one instant leave the frequency open.
In part by log 1 (DESIGN CHOICE, safe) and log 30 (DEDUCED, unsafe). -/
def freqGate (g p : Nat) (s : State) : State :=
  let x := s.point g p
  let r := s.dpCfg g p
  if !dpIsIn x.mode || r.count == 0 || !s.live (groupFn g) then s
  else
    let n := x.edges.length
    if n < 2 then s.setPoint g p (fun y => { y with freq := 0, freqOver := false, edges := [] })
    else
      let dt := x.edges.getLastD 0 - x.edges.headD 0
      if dt = 0 then
        let fr := takeFree s
        fr.2.setPoint g p (fun y => { y with freq := fr.1, edges := [] })
      else
        let m := maxRate g r
        let high := decide (m.1 * dt < (n - 1) * 10000000 * m.2)
        let f := F32.ofRat (((n - 1) * 10000000 : Nat) : Int) dt
        raiseIf high Ev.DP_FREQ_OVER (dpSrc g p) f.toNat
          (s.setPoint g p (fun y => { y with freq := f, freqOver := high, edges := [] }))

/-- The released preset loads the counter (06 R172). In part by log 30 (DEDUCED, unsafe). -/
def counterPreset (g p : Nat) (v : W32) (s : State) : State :=
  if dpIsIn (s.point g p).mode && (s.dpCfg g p).count != 0 && s.live (groupFn g) then
    s.setPoint g p (fun x => { x with count := v, preset := none })
  else s

/-! ### Outputs -/

/-- A trip of an output that is on (06 R175). -/
def outTrip (g p : Nat) (s : State) : State :=
  let x := s.point g p
  if x.mode != 8 || !x.on then s
  else if x.retries < 10 then
    raiseN Ev.DP_OUT_TRIP (dpSrc g p) (x.retries + 1)
      (s.setPoint g p (fun y => { y with retries := y.retries + 1, on := false, tripped := true, trip6 := true }))
  else
    raiseN Ev.DP_OUT_LATCHED (dpSrc g p) 0
      (s.setPoint g p (fun y => { y with on := false, tripped := false, trip6 := false, latched := true }))

/-- The retry of a tripped output (06 R175). -/
def outRetry (g p : Nat) (s : State) : State :=
  if (s.point g p).tripped then driveDo g p (s.setPoint g p (fun y => { y with tripped := false })) else s

/-- 1 s of trip-free on-time ends the run of trips (06 R175). -/
def tripFree (g p : Nat) (s : State) : State :=
  if (s.point g p).on then s.setPoint g p (fun y => { y with retries := 0, trip6 := false }) else s

/-- The readback of an output stood at a level for a time (06 R177). -/
def outReadback (g p : Nat) (level : Bool) (heldUs : Nat) (s : State) : State :=
  if (s.point g p).mode != 8 then s
  else
    let cmd := doCommand s g p
    s.setPoint g p (fun y =>
      { y with
        readback := level
        extFeed := if !level && decide (10000 ≤ heldUs) then false else y.extFeed
        noRead := if level then false
          else if cmd && decide (2000 ≤ heldUs) && !y.tripped && !y.latched then true else y.noRead })

/-- A voltage at an output whose command is OFF (06 R177). In part by log 30 (DEDUCED, unsafe). -/
def extFeed (g p mv : Nat) (s : State) : State :=
  if (s.point g p).mode != 8 || doCommand s g p || (s.point g p).extFeed then s
  else raiseN Ev.DP_EXTERNAL_FEED (dpSrc g p) mv (s.setPoint g p (fun y => { y with extFeed := true, readback := true }))

/-- DG_CLEAR of the points in a mask, from a sender of role `r` (06 R176, R188). -/
def dgClear (g : Nat) (mask : BitVec 8) (r : Role) (s : State) : State :=
  if !roleAtLeast r .engineer then s
  else
    let s1 := forRange 8 (fun p t =>
      if mask.getLsbD p then
        driveDo g p (t.setPoint g p (fun y => { y with latched := false, retries := 0, trip6 := false }))
      else t) s
    raise Ev.DP_CLEARED (dpSrc g 0) (mask.setWidth 32) (.role r) s1

/-- VF of a group is low (06 R180). -/
def supplyLow (g mv : Nat) (s : State) : State :=
  if (s.group g).supplyLow then s.setGroup g (fun x => { x with vf := mv })
  else raiseN Ev.DG_SUPPLY_LOW (dpSrc g 0) mv (s.setGroup g (fun x => { x with vf := mv, supplyLow := true }))

/-- VF of a group has returned (06 R180). -/
def supplyOkGroup (g mv : Nat) (s : State) : State :=
  if (s.group g).supplyLow then
    raiseN Ev.DG_SUPPLY_OK (dpSrc g 0) mv (s.setGroup g (fun x => { x with vf := mv, supplyLow := false }))
  else s.setGroup g (fun x => { x with vf := mv })

/-- The output current of a group or of the module exceeds its limit (06 R180). -/
def overload (g ma : Nat) (moduleLimit : Bool) (s : State) : State :=
  let s1 := if moduleLimit then { s with outCurrent := ma }
    else forRange 8 (fun p t =>
      t.setPoint g p (fun y => if y.mode = 8 then { y with on := false, tripped := false, latched := true } else y))
      (s.setGroup g (fun x => { x with current := ma }))
  raiseN Ev.DG_OVERLOAD (dpSrc g 0) (ma % 65536 + 65536 * b2n moduleLimit) s1

/-- What an output reference stands for in the layout. -/
def refOfOut : OutRef → Ref
  | .ao b c => .aoOut b.val c.val
  | .dig g p => .doOut g.val p.val
  | .axis a => .axisOut a.val 0

/-- True while an output's row is in use and its function works. -/
def outInUse (s : State) : OutRef → Bool
  | .ao b c => isOutMode (s.ch b.val c.val).mode && s.live (.bank b)
  | .dig g p => (s.point g.val p.val).mode == 8 && s.live (.group g)
  | .axis a => s.live (.axis a)

/-- WD_TIME has passed since the last restart of an output's watchdog (06 R182). -/
def wdTimeout (o : OutRef) (s : State) : State :=
  if outInUse s o && (wdOf s (refOfOut o)).state == .run then wdExpire (refOfOut o) s else s

/-! ### Object blocks (06 R187, R188) -/

/-- Time left of an output's watchdog in units of 10 ms. -/
def wdLeft (s : State) (r : Ref) : Nat :=
  match (wdOf s r).state with
  | .run => (wdTimeNs s r - (s.now - (wdOf s r).since)) / 10000000
  | _ => 0

/-- The code of a watchdog state in DP_STATUS[26:24]. -/
def wdCode : WdState → Nat
  | .run => 0 | .expired => 1 | .rearmed => 2 | .suspended => 3

/-- DP_STATUS. -/
def dpStatus (s : State) (g p : Nat) : Nat :=
  let x := s.point g p
  x.mode % 16 + 256 * x.result + 65536 * b2n x.state + 131072 * b2n x.raw + 262144 * b2n x.readback
    + 524288 * b2n (x.mode == 8 && doCommand s g p) + 1048576 * b2n x.tripped + 2097152 * b2n x.latched
    + 4194304 * b2n x.extFeed + 8388608 * b2n (s.group g).supplyLow
    + 16777216 * (if x.mode = 8 then wdCode x.wd.state else 0) + 268435456 * x.retries

/-- Blocks 0x02 and 0x03 of a digital group; `none` where no object is defined. -/
def groupObj (s : State) (g blk off : Nat) : Option Nat :=
  if blk = 2 then
    if off < 0x80 then
      let p := off / 16
      let k := off % 16
      if k = 0 then some (dpStatus s g p)
      else if k = 4 then some (s.point g p).count.toNat
      else if k = 8 then some (s.point g p).freq.toNat
      else some ((s.point g p).c % 65536
        + 65536 * (if (s.point g p).mode = 8 then min 65535 (wdLeft s (.doOut g p)) else 0))
    else none
  else if blk = 3 then
    if off = 0 then some (min 65535 (s.group g).vf + 65536 * min 65535 (s.group g).current)
    else if off = 4 then some (min 65535 (groupLoad s.img g) + 65536 * min 65535 s.outCurrent)
    else if off = 8 then some 0
    else none
  else none

/-! ### Commands -/

/-- COUNTER_PRESET. -/
def execCounterPreset (g p : Fin 8) (v : W32) (s : State) : Host.Outcome State Fault Refusal :=
  .next (counterPreset g.val p.val v s)
/-- FREQ_GATE_END. -/
def execFreqGateEnd (g p : Fin 8) (s : State) : Host.Outcome State Fault Refusal := .next (freqGate g.val p.val s)
/-- DP_OUT_TRIP. -/
def execDpOutTrip (g p : Fin 8) (s : State) : Host.Outcome State Fault Refusal := .next (outTrip g.val p.val s)
/-- OUTPUT_RETRY. -/
def execOutputRetry (g p : Fin 8) (s : State) : Host.Outcome State Fault Refusal := .next (outRetry g.val p.val s)
/-- TRIP_FREE_TIME. -/
def execTripFreeTime (g p : Fin 8) (s : State) : Host.Outcome State Fault Refusal := .next (tripFree g.val p.val s)
/-- DP_EXTERNAL_FEED. -/
def execDpExternalFeed (g p : Fin 8) (mv : Nat) (s : State) : Host.Outcome State Fault Refusal :=
  .next (extFeed g.val p.val mv s)
/-- DG_CLEAR. -/
def execDgClear (g : Fin 8) (mask : BitVec 8) (r : Role) (s : State) : Host.Outcome State Fault Refusal :=
  .next (dgClear g.val mask r s)
/-- DG_SUPPLY_LOW. -/
def execDgSupplyLow (g : Fin 8) (mv : Nat) (s : State) : Host.Outcome State Fault Refusal :=
  .next (supplyLow g.val mv s)
/-- DG_SUPPLY_OK. -/
def execDgSupplyOk (g : Fin 8) (mv : Nat) (s : State) : Host.Outcome State Fault Refusal :=
  .next (supplyOkGroup g.val mv s)
/-- DG_OVERLOAD. -/
def execDgOverload (g : Fin 8) (ma : Nat) (moduleLimit : Bool) (s : State) : Host.Outcome State Fault Refusal :=
  .next (overload g.val ma moduleLimit s)
/-- WD_EXPIRED. -/
def execWdExpired (o : OutRef) (s : State) : Host.Outcome State Fault Refusal := .next (wdTimeout o s)
/-- FILTER_CLOCK. -/
def execFilterClock (clk : Fin 2) (samples : BitVec 64) (s : State) : Host.Outcome State Fault Refusal :=
  .next (filterClock clk.val samples s)
/-- COUNT_ENTRY_UPDATE. -/
def execCountEntryUpdate (s : State) : Host.Outcome State Fault Refusal := .next (countEntries s)
/-- OUTPUT_READBACK. -/
def execOutputReadback (g p : Fin 8) (level : Bool) (heldUs : Nat) (s : State) : Host.Outcome State Fault Refusal :=
  .next (outReadback g.val p.val level heldUs s)

end Sys2Proof.Machine
end

