-- ==== Sys2Proof/Machine/Linear.lean ====
section
/-! DEFINITION. Linearisation, scaling, range checks and the quality policy of one result (chapter 05). -/

namespace Sys2Proof.Machine

/-! ### Sets (05 R152) -/

/-- The range end of a mode in its natural unit, for set 0x0000 (05 R152). -/
def rangeEnd (mode : Nat) : F32 :=
  if mode = 1 ∨ mode = 2 then 0x41C00000#32
  else if mode = 3 then 0x41200000#32
  else if mode = 4 then 0x3F800000#32
  else if mode = 5 ∨ mode = 0x0B then 0x42C80000#32
  else if mode = 7 then 0x457A0000#32
  else if mode = 6 ∨ mode = 8 ∨ mode = 9 ∨ mode = 0x0A then 0x43C80000#32
  else 0x3F800000#32

/-- The scale end of a resistance or RTD row in ohms: 4 kΩ for mode 0x07, Pt500 and Pt1000 (03 R70).
In part by log 29 (DEDUCED, unsafe). -/
def ohmEnd (mode linSet : Nat) : Nat :=
  if mode = 7 ∨ ((mode = 8 ∨ mode = 9 ∨ mode = 0x0A) ∧ (linSet = 0x0102 ∨ linSet = 0x0103)) then 4000 else 400

/-- The built-in set IDs. -/
def isBuiltin (id : Nat) : Bool := id == 0 || (0x0101 ≤ id && id ≤ 0x0104) || (0x0201 ≤ id && id ≤ 0x020A)

/-- True when a built-in set needs compensation. -/
def setNeedsComp (id : Nat) : Bool := 0x0201 ≤ id && id ≤ 0x020A

/-- True when a built-in set serves a mode. -/
def setServes (id mode : Nat) : Bool :=
  if id = 0 then isInMode mode
  else if id < 0x0200 then mode == 8 || mode == 9 || mode == 0x0A
  else mode == 0x0B

/-- The fit error of a built-in set in °C as binary32: 0.02, 0.05 or 0.1; 0 for set 0x0000. -/
def setFit (id : Nat) : F32 :=
  if id = 0 then 0#32 else if id < 0x0200 then F32.ofRat 2 100
  else if id < 0x0208 then F32.ofRat 5 100 else F32.ofRat 1 10

/-- Coefficient c_ij of a row. -/
def rowCoef (r : ChCfg) (i j : Nat) : F32 :=
  if r.linSet = 0xFFFF then r.linC.getD (6 * j + i) 0
  else if r.linSet = 0 then (if i = 1 ∧ j = 0 then rangeEnd r.mode else 0#32)
  else Config.linCoef r.linSet (6 * j + i)

/-- The plausibility window of a row in x; `none` for set 0x0000, whose window covers the full code range. -/
def rowWindow (r : ChCfg) : Option (F32 × F32) :=
  if r.linSet = 0xFFFF then some (r.xmin, r.xmax)
  else if r.linSet = 0 then none
  else some (Config.linWindow r.linSet)

/-! ### Evaluation (05 R148) -/

/-- q[j]: the polynomial in x of one power of t, each product and sum rounded to binary32. -/
def polyX (r : ChCfg) (x : F32) (j : Nat) : F32 :=
  [4, 3, 2, 1, 0].foldl (fun p i => F32.add (F32.mul p x) (rowCoef r i j)) (rowCoef r 5 j)

/-- y of 05 R148 from x and t. -/
def evalY (r : ChCfg) (x t : F32) : F32 :=
  let v := [2, 1, 0].foldl (fun v j => F32.add (F32.mul v t) (polyX r x j)) (polyX r x 3)
  F32.add (F32.mul v r.gain) r.offset

/-- t from the compensation temperature (05 R148). -/
def tOf (tComp : F32) : F32 := F32.mul (F32.sub tComp 0x41C80000#32) 0x3C23D70A#32

/-- x from the corrected result r (05 R148). -/
def xOf (r : F32) : F32 := F32.div r 0x4AE00000#32

/-! ### Checks (03 R75; 05 R153–R155) -/

/-- The NE 43 class of a filtered current in mA, binary64; `none` for GOOD (03 R75). -/
def ne43Class (ma : F64) : Option Byte :=
  if F64.lt ma (F64.ofRat 5 10) then some (qBad 1)
  else if F64.le ma (F64.ofRat 36 10) then some (qBad 3)
  else if F64.lt ma (F64.ofRat 38 10) then some (qUnc 3)
  else if F64.le ma (F64.ofRat 205 10) then none
  else if F64.lt ma (F64.ofInt 21) then some (qUnc 2)
  else some (qBad 2)

/-- The span check of y (05 R154), with the state of its hysteresis. -/
def spanClass (r : ChCfg) (held : Bool) (y : F32) : Option Byte :=
  let lo := F64.ofF32 r.spanLo
  let hi := F64.ofF32 r.spanHi
  let yy := F64.ofF32 y
  let s := F64.sub hi lo
  let b := F64.mul (F64.div (F64.ofF32 r.spanBand) (F64.ofInt 100)) s
  if F64.lt (F64.add hi b) yy then some (qBad 2)
  else if F64.lt hi yy then some (qUnc 2)
  else if F64.lt yy (F64.sub lo b) then some (qBad 3)
  else if F64.lt yy lo then some (qUnc 3)
  else if held
      && !(F64.le (F64.add lo (F64.mul (F64.ofRat 5 1000) s)) yy
        && F64.le yy (F64.sub hi (F64.mul (F64.ofRat 5 1000) s))) then
    some (if F64.le (F64.sub hi yy) (F64.sub yy lo) then qUnc 2 else qUnc 3)
  else none

/-- True when x lies inside the window, and `deep` when it lies inside by 1 % of the width (05 R153, R155).
In part by log 29 (DEDUCED, unsafe). -/
def inWindow (r : ChCfg) (x : F32) (deep : Bool) : Bool :=
  match rowWindow r with
  | none => true
  | some w =>
    let lo := F64.ofF32 w.1
    let hi := F64.ofF32 w.2
    let m := if deep then F64.mul (F64.ofRat 1 100) (F64.sub hi lo) else F64.zero
    F64.le (F64.add lo m) (F64.ofF32 x) && F64.le (F64.ofF32 x) (F64.sub hi m)

/-- The checks of 05 R153 on one result, in their order. -/
def rangeCheck (r : ChCfg) (raw : Int) (rr x y : F32) (g : RangeSt) : RangeSt :=
  let sane := inWindow r x false && F32.isFin y
  let clean := if inWindow r x true && F32.isFin y then g.clean + 1 else 0
  let bad15 := if !sane then true else if g.bad15 && decide (clean < 2) then true else false
  let clean' := if !sane then 0 else if bad15 then clean else 0
  let ma := F64.div (F64.mul (F64.ofF32 rr) (F64.ofInt 24)) (F64.ofInt 7340032)
  if raw = 8388607 then { g with own := some (qBad 2), bad15 := bad15, clean := clean' }
  else if raw = -8388608 then { g with own := some (qBad 3), bad15 := bad15, clean := clean' }
  else if bad15 then { g with own := some (qBad 15), bad15 := bad15, clean := clean' }
  else
    match (if r.ne43 && (r.mode == 1 || r.mode == 2) then ne43Class ma else none) with
    | some q => { g with own := some q, bad15 := false, clean := 0 }
    | none =>
      let q := spanClass r g.held y
      { g with own := q, held := q.isSome, bad15 := false, clean := 0 }

/-- The events of a range cause, once per entry into its condition (05 R165). -/
def rangeEvents (src : Nat) (old new : RangeSt) (x y : F32) (s : State) : State :=
  let sub : Option Byte → Nat := fun o => match o with | some q => qSub q | none => 0
  if sub old.own = sub new.own then s
  else if sub new.own = 15 then raiseN Ev.CH_SENSOR_MISMATCH src x.toNat s
  else if sub new.own = 2 then raiseN Ev.CH_OVER_RANGE src y.toNat s
  else if sub new.own = 3 then raiseN Ev.CH_UNDER_RANGE src y.toNat s
  else s

/-! ### Compensation (05 R149–R151) -/

/-- A cold-junction sensor of a bank, with the other where it is invalid (05 R150). -/
def cjFor (k : BankSt) (c : Nat) : Option F32 :=
  let a := if c < 8 then k.cj0 else k.cj1
  let b := if c < 8 then k.cj1 else k.cj0
  match a with | some v => some v | none => b

/-- Mean of the two sensors of a bank, or the valid one (05 R149, R150). -/
def cjMean (k : BankSt) : Option F32 :=
  match k.cj0, k.cj1 with
  | some a, some b => some (F32.mul (F32.add a b) 0x3F000000#32)
  | some a, none => some a
  | none, o => o

/-- The compensation source of a row: the default of 05 R147 where the row names none. -/
def compSrc (r : ChCfg) : Nat := match r.compSrc with | some n => n | none => if r.mode = 0x0B then 1 else 0

/-- The live compensation temperature of a row, where its source is valid (05 R149, R151). -/
def liveComp (s : State) (b c : Nat) : Option F32 :=
  let r := s.chCfg b c
  if compSrc r = 1 then cjFor (s.bank b) c
  else if compSrc r = 2 then cjMean (s.bank b)
  else if compSrc r = 3 then
    let e := readEntry s r.compEntry
    if qIsGood e.q then some e.val else none
  else some r.compFixed

/-! ### The entry of a row (05 R156–R159) -/

/-- The causes that apply to the main entry of an input row. -/
def rowCauses (s : State) (b c : Nat) (clamped ratio : Bool) : List Byte :=
  let x := s.ch b c
  qIf x.backfeed (qBad 14) ++ qIf clamped (qBad 4) ++ qIf (x.wireBreak.isSome || ratio) (qBad 1)
    ++ (match x.rng.own with | some q => [q] | none => [])
    ++ qIf x.settling (if x.published then qUnc 13 else qBad 13)
    ++ (match x.comp with | .held => [qUnc 8] | .failed => [qBad 8] | _ => [])
    ++ qIf (trimOpen s b c) (qUnc 8)

/-- True for the causes under which ride-through runs (05 R159). In part by log 29 (DEDUCED, unsafe). -/
def rideCause (q : Byte) : Bool := [1, 2, 3, 4, 15].contains (qSub q)

/-- Writes the main entry of an input row from its last result and its causes (05 R156, R158, R159). `clamped` says
that a terminal of the row is clamped, `ratio` that its ratiometric excitation is in current limit.
In part by log 29 (DEDUCED, unsafe). -/
def publishRow (b c : Nat) (clamped ratio : Bool) (s : State) : State :=
  let x := s.ch b c
  let r := s.chCfg b c
  let cs := rowCauses s b c clamped ratio
  let win := qShown qGood cs
  let anyBad := cs.any qIsBad
  let otherBad := cs.any (fun q => qIsBad q && !rideCause q)
  let keep := x.settling || trimOpen s b c
  let riding0 := x.riding && anyBad && !otherBad
  let starts := anyBad && !x.episode && (r.badPolicy == 2 || r.badPolicy == 3) && rideCause win && qIsBad win && !otherBad
  let riding := riding0 || starts
  let lastOrSubst := match x.lastGood with | some v => v | none => r.subst
  let badVal := if r.badPolicy = 1 ∨ r.badPolicy = 3 then r.subst else lastOrSubst
  let badQ := if riding then (if r.badPolicy = 2 then qUnc 8 else qUnc 9) else win
  let e : Qv :=
    if qIsBad win then { val := badVal, q := badQ }
    else if keep then { val := x.entry.val, q := win }
    else { val := x.y, q := win }
  let s1 := s.setCh b c (fun y =>
    { y with
      entry := e, episode := anyBad, riding := riding
      rideEnd := if starts then s.now + r.ride * 100000000 else y.rideEnd
      lastGood := if qIsGood win && !keep then some y.y else y.lastGood
      published := y.published || !keep })
  raiseIf starts Ev.CH_RIDE_THROUGH (chSrc b c) (qSub win) s1

/-- The compensation state of a row at an evaluation, with its events (05 R151). -/
def compStep (b c : Nat) (s : State) : State :=
  let x := s.ch b c
  let r := s.chCfg b c
  if compSrc r = 0 then s.setCh b c (fun y => { y with comp := .unused })
  else
    match liveComp s b c with
    | some t =>
      raiseIf (x.comp == .held || x.comp == .failed) Ev.COMP_OK (chSrc b c) (compSrc r)
        (s.setCh b c (fun y => { y with comp := .live, tComp := some t }))
    | none =>
      let lost := !(x.comp == .held || x.comp == .failed)
      match x.tComp with
      | some _ =>
        raiseIf lost Ev.COMP_LOST (chSrc b c) (compSrc r)
          (s.setCh b c (fun y => { y with comp := if lost then .held else y.comp }))
      | none =>
        raiseIf (x.comp != .failed) Ev.COMP_FAILED (chSrc b c) (compSrc r)
          (raiseIf lost Ev.COMP_LOST (chSrc b c) (compSrc r)
            (s.setCh b c (fun y => { y with comp := .failed })))

/-- One settled result of a row: `rr` is the corrected result r of 05 R148. In part by log 1 (DESIGN CHOICE, safe). -/
def evaluateRow (b c : Nat) (raw : Int) (rr : F32) (clamped ratio : Bool) (s0 : State) : State :=
  let s1 := compStep b c s0
  let r := s1.chCfg b c
  let xs := s1.ch b c
  let x := xOf rr
  let ts : F32 × State :=
    if compSrc r = 0 then (0#32, s1)
    else match xs.tComp with
      | some t => (tOf t, s1)
      | none => takeFree s1
  let y := evalY r x ts.1
  let g := rangeCheck r raw rr x y xs.rng
  let s2 := ts.2.setCh b c (fun z => { z with x := x, t := ts.1, y := y, rng := g, settling := false })
  publishRow b c clamped ratio (rangeEvents (chSrc b c) xs.rng g x y s2)

/-- The second-path entry of a safety row after a cross-check (04 R140).
In part by log 1 (DESIGN CHOICE, safe) and log 29 (DEDUCED, unsafe). -/
def secondPath (b c : Nat) (raw : Int) (rr : F32) (s : State) : State :=
  let r := s.chCfg b c
  let xs := s.ch b c
  let x := xOf rr
  let ts : F32 × State :=
    if compSrc r = 0 then (0#32, s)
    else match (match liveComp s b c with | some t => some t | none => xs.tComp) with
      | some t => (tOf t, s)
      | none => takeFree s
  let y := evalY r x ts.1
  let g := rangeCheck r raw rr x y xs.rng2
  ts.2.setCh b c (fun z =>
    { z with rng2 := g, secondN := z.secondN + 1, secondAt := s.now,
             second := { val := y, q := match g.own with | some q => q | none => qGood } })

/-! ### Row refusals (05 R162) -/

/-- The first refusal code of a row in code order, 0 when none. `entryOk` says that source 3 names a permitted
entry. -/
def linCode (r : ChCfg) (entryOk : Bool) : Nat :=
  if !(isBuiltin r.linSet || r.linSet == 0xFFFF) then 0x40
  else if r.linSet != 0xFFFF && !setServes r.linSet r.mode then 0x41
  else if r.linSet == 0xFFFF
      && (!((List.range 24).all (fun i => F32.isFin (r.linC.getD i 0))) || r.linC.length != 24
        || !F32.isFin r.xmin || !F32.isFin r.xmax || !F32.lt r.xmin r.xmax) then 0x42
  else if !F32.isFin r.spanLo || !F32.isFin r.spanHi || !F32.lt r.spanLo r.spanHi
      || !F32.le 0#32 r.spanBand || !F32.le r.spanBand 0x41C80000#32 then 0x43
  else if !F32.isFin r.gain || !F32.isFin r.offset || F32.eq r.gain 0#32 then 0x44
  else if decide (4 < compSrc r) || (compSrc r == 3 && !entryOk)
      || (compSrc r == 4 && !(F32.le 0xC2200000#32 r.compFixed && F32.le r.compFixed 0x42C80000#32)) then 0x45
  else if setNeedsComp r.linSet && compSrc r == 0 then 0x46
  else if r.safety == 1 && (r.badPolicy == 2 || r.badPolicy == 3) then 0x47
  else if r.ride == 0 || decide (600 < r.ride) then 0x48
  else if !F32.isFin r.subst then 0x49
  else if decide (3 < r.badPolicy) then 0x4A
  else 0

/-- True when COMP_ENTRY of row c of bank b names the main entry of another analogue input row that does not itself
use source 3 (05 R147, R162). -/
def compEntryOk (img : ImageCfg) (b c : Nat) (e : Nat) : Bool :=
  match (img.layout.look e).ref with
  | .aiMain b2 c2 =>
    let r2 := (img.banks.look b2).rows.look c2
    !(b2 == b && c2 == c) && isInMode r2.mode && compSrc r2 != 3
  | _ => false

/-! ### Object blocks 0x09 and 0x0A (05 R163, R164) -/

/-- Block 0x09 of a bank. -/
def linBrowseObj (k : BankSt) (off : Nat) : Option Nat :=
  let id := k.linBrowse
  let known := isBuiltin id
  if off = 0 then some id
  else if off = 4 then some (b2n known + 2 * b2n (known && setNeedsComp id))
  else if off = 8 then some (if known then (Config.linWindow id).1.toNat else 0)
  else if off = 0xC then some (if known then (Config.linWindow id).2.toNat else 0)
  else if off = 0x10 then some (if known then (setFit id).toNat else 0)
  else if 0x40 ≤ off ∧ off ≤ 0x9C then
    let n := (off - 0x40) / 4
    some (if !known then 0 else if id = 0 then (if n = 1 then 0x3F800000 else 0) else (Config.linCoef id n).toNat)
  else none

/-- The code of a compensation state in LIN_STAT[9:8]. -/
def compCode : Comp → Nat
  | .unused => 0 | .live => 1 | .held => 2 | .failed => 3

/-- Block 0x0A of a bank. `clamped` and `ratio` are the row's front-end causes. -/
def linRowObj (s : State) (b c k : Nat) (clamped ratio : Bool) : Nat :=
  let x := s.ch b c
  if !isInMode x.mode then 0
  else if k = 0 then x.x.toNat
  else if k = 4 then x.t.toNat
  else if k = 8 then x.y.toNat
  else
    qSub (qShown qGood (rowCauses s b c clamped ratio)) + 256 * compCode x.comp + 1024 * b2n x.riding
      + 2048 * b2n x.lastGood.isSome
      + 65536 * (if x.riding then min 65535 ((x.rideEnd - s.now) / 100000000) else 0)

end Sys2Proof.Machine
end

