-- ==== Sys2Proof/Machine/FrontEnd.lean ====
section
/-! DEFINITION. Terminal roles, excitation slots, conversion, settling, clamps, wire breaks and the tracking notch
(chapter 04). -/

namespace Sys2Proof.Machine

/-! ### Terminals (04 R106–R109) -/

/-- Terminal C of a row. -/
def termC (r : ChCfg) (c : Nat) : Nat := match r.termC with | some t => t | none => 3 * c + 2
/-- Terminal D of a row: the C terminal of channel k + 1, or of channel 14 for channel 15. -/
def termD (r : ChCfg) (c : Nat) : Nat :=
  match r.termD with | some t => t | none => if c = 15 then 3 * 14 + 2 else 3 * (c + 1) + 2

/-- Role codes of TERM_ROLE (04 R141). -/
abbrev RoleCode := Nat

/-- The roles that a row gives to its terminals (04 R106), with BIAS on input −. -/
def rowRoles (r : ChCfg) (c : Nat) : List (Nat × RoleCode) :=
  let a := termA r c
  let b := termB r c
  let cc := termC r c
  let m := r.mode
  let bias : List (Nat × RoleCode) := if r.bias = 1 then [(b, 11)] else []
  if m = 1 then [(a, 3), (b, 4)]
  else if m = 2 then [(a, 3), (b, 4), (cc, 8)]
  else if 3 ≤ m ∧ m ≤ 5 then [(a, 1), (b, 2)] ++ bias
  else if 6 ≤ m ∧ m ≤ 8 then [(a, 5), (a, 1), (b, 6), (b, 2)]
  else if m = 9 then [(a, 1), (b, 2), (b, 6), (cc, 5)]
  else if m = 0x0A then [(a, 1), (b, 2), (cc, 5), (termD r c, 6)]
  else if m = 0x0B then [(a, 1), (b, 2)] ++ bias
  else if m = 0x0C then [(a, 1), (b, 2), (cc, 7)]
  else if isOutMode m then [(a, 9), (b, 10)]
  else []

/-- True for the driver roles: excitation out, ratiometric excitation, loop supply, output drive, bias.
In part by log 25 (DEDUCED, unsafe). -/
def isDriver (k : RoleCode) : Bool := k == 5 || k == 7 || k == 8 || k == 9 || k == 11
/-- True for the output roles. -/
def isOutRole (k : RoleCode) : Bool := k == 9 || k == 10
/-- True for the input roles. -/
def isInRole (k : RoleCode) : Bool := k == 1 || k == 2

/-- True when a mode uses its C terminal (04 R108). -/
def usesC (m : Nat) : Bool := m == 2 || m == 9 || m == 0x0A || m == 0x0C

/-- True for the modes that a slot entry excites (04 R107). In part by log 25 (DEDUCED, unsafe). -/
def isExcited (m : Nat) : Bool := 6 ≤ m && m ≤ 0x0A

/-- True when a row in effect has a role on a terminal. -/
def rowHasTerm (s : State) (b c t : Nat) : Bool :=
  (s.ch b c).mode != 0 && (rowRoles (s.chCfg b c) c).any (fun p => p.1 == t)

/-- True while a terminal of a row is clamped (04 R132). -/
def rowClamped (s : State) (b c : Nat) : Bool :=
  (s.ch b c).mode != 0
    && (rowRoles (s.chCfg b c) c).any (fun p => decide (p.1 < 48) && (s.bank b).clampLive.getLsbD p.1)

/-- True while a potentiometer row stands in the current limit of its excitation (04 R111). -/
def rowRatio (s : State) (b c : Nat) : Bool := (s.ch b c).mode == 0x0C && (s.bank b).ratioLimit

/-- Writes the main entry of an input row again after a cause has changed. -/
def publish (b c : Nat) (s : State) : State := publishRow b c (rowClamped s b c) (rowRatio s b c) s

/-! ### Rates, notches and settling (04 R123–R130) -/

/-- The decimation ratio of a data rate; the output period is that many modulator samples (04 R123). -/
def decim (rate : Nat) : Nat :=
  [102400, 64000, 51200, 40960, 32000, 20480, 10240, 5120, 4096, 2560, 2048, 1024, 512, 256, 128].getD rate 40960

/-- The data rate in units of S/s. -/
def rateOf (rate : Nat) : Nat :=
  [10, 16, 20, 25, 32, 50, 100, 200, 250, 400, 500, 1000, 2000, 4000, 8000].getD rate 25

/-- The notch group delay of a row in modulator samples (04 R125). A tracking row in FALLBACK has the combined
notch. -/
def notchDelay (r : ChCfg) (x : ChSt) : Nat :=
  if r.notch = 1 then 20480
  else if r.notch = 2 then 17067
  else if r.notch = 3 then 37547
  else if r.notch = 4 then (match x.track with | .fallback => 37547 | _ => x.notchLen)
  else 0

/-- N_s of 04 R130. -/
def settleCount (r : ChCfg) (x : ChSt) : Nat :=
  let n := decim r.rate
  3 + (notchDelay r x + n - 1) / n

/-- A settling that the image shows (04 R130). `inProgress` says that a conversion was running at the trigger. -/
def settleVisible (b c : Nat) (inProgress : Bool) (s : State) : State :=
  let n := settleCount (s.chCfg b c) (s.ch b c)
  publish b c (s.setCh b c (fun x => { x with discard := n, partial' := inProgress, settling := true }))

/-! ### Slot tables (04 R112–R122, R139) -/

/-- Source of an entry. -/
def slSource (e : SlotEntry) : Nat := bitsOf 1 0 e.w0.toNat
/-- Enable of an entry. -/
def slOn (e : SlotEntry) : Bool := e.w0.getLsbD 2
/-- Reversal of an entry. -/
def slRev (e : SlotEntry) : Bool := e.w0.getLsbD 3
/-- Out terminal of an entry. -/
def slOut (e : SlotEntry) : Nat := bitsOf 9 4 e.w0.toNat
/-- Return terminal of an entry. -/
def slRet (e : SlotEntry) : Nat := bitsOf 15 10 e.w0.toNat
/-- Duration of an entry in ms. -/
def slDur (e : SlotEntry) : Nat := bitsOf 23 16 e.w0.toNat
/-- Current of an entry in units of 10 µA. -/
def slCur (e : SlotEntry) : Nat := bitsOf 31 24 e.w0.toNat
/-- Sub-slot of an entry. -/
def slSub (e : SlotEntry) : Nat := bitsOf 1 0 e.w1.toNat

/-- The enabled entries of lane `l` in ascending order (04 R113). -/
def laneOf (t : Tab SlotEntry) (l : Nat) : List Nat :=
  (List.range 32).filter (fun n => slOn (t.look n) && slSource (t.look n) == l)

/-- Lane length in ms. -/
def laneLen (t : Tab SlotEntry) (l : Nat) : Nat := ((laneOf t l).map (fun n => slDur (t.look n))).sum

/-- Frame length F in ms (04 R113). -/
def frameLen (t : Tab SlotEntry) : Nat :=
  let m := ((List.range 4).map (laneLen t)).foldl max 0
  max 20 (20 * ((m + 19) / 20))

/-- The row in effect that is bound to an entry of a bank. -/
def rowOfSlot (s : State) (b n : Nat) : Option Nat :=
  (List.range 16).find? (fun c => isExcited (s.ch b c).mode && (s.chCfg b c).slot == some n)

/-- The window of an entry within the frame in ms: its start and its end, which is the frame's end for the last entry
of a lane (04 R113). -/
def slotWindow (t : Tab SlotEntry) (n : Nat) : Nat × Nat :=
  let lane := laneOf t (slSource (t.look n))
  let start := ((lane.takeWhile (fun k => k != n)).map (fun k => slDur (t.look k))).sum
  (start, if lane.getLast? = some n then frameLen t else start + slDur (t.look n))

/-- Places the sub-slots of a table in ascending entry order (04 R139): the pairs taken, and the first entry whose
sub-slot could not be placed. Pair `2k` starts at ms 20k + 16 of the frame, pair `2k + 1` at 20k + 18.
In part by log 28 (DEDUCED, unsafe). -/
def placeSubs (t : Tab SlotEntry) : List Nat → List Nat → Option Nat
  | [], _ => none
  | n :: rest, used =>
    let e := t.look n
    if slOn e && slSub e != 0 then
      let w := slotWindow t n
      let lo := max w.1 (w.2 - 40)
      let free := (List.range (frameLen t / 10)).find? (fun k =>
        let start := 20 * (k / 2) + 16 + 2 * (k % 2)
        decide (lo ≤ start) && decide (start + 2 ≤ w.2) && !used.contains k)
      match free with
      | some k => placeSubs t rest (k :: used)
      | none => some n
    else placeSubs t rest used

/-- The first entry whose sub-slot cannot be placed, if any. -/
def subsFail (t : Tab SlotEntry) : Option Nat := placeSubs t (List.range 32) []

/-- The longest notch delay of a row, for the window rule of 04 R117. -/
def windowDelay (r : ChCfg) : Nat :=
  if r.notch = 1 then 20480 else if r.notch = 2 then 17067 else if r.notch = 3 then 37547
  else if r.notch = 4 then 22756 else 0

/-- The window rule for a bound entry (04 R117). One ms is 1024 modulator samples. -/
def windowOk (r : ChCfg) (e : SlotEntry) : Bool :=
  let n := decim r.rate
  let ns := 3 + (windowDelay r + n - 1) / n
  let need := (if slRev e then 2 else 1) * (ns + 1) * n
  decide (need ≤ slDur e * 1024) && (slSub e == 0 || decide (40 ≤ slDur e))

/-- A change from one entry to another that is no excitation change (04 R114). -/
def continuous (a b : SlotEntry) : Bool :=
  slOut a == slOut b && slRet a == slRet b && slCur a == slCur b && !slRev b

/-- The window of an entry starts: its row's count restarts (04 R116, R130), unless the change is continuous. -/
def windowStart (b n : Nat) (prev : Option SlotEntry) (s : State) : State :=
  match rowOfSlot s b n with
  | none => s
  | some c =>
    let e := (s.bank b).slotAct.look n
    let cont := match prev with | some p => continuous p e | none => false
    s.setCh b c (fun x =>
      { x with
        winAt := s.now, half2 := false, res1 := none, res2 := none, winSeen := false, winBad := false
        partial' := if cont then x.partial' else false
        discard := if cont then x.discard else settleCount (s.chCfg b c) x })

/-! ### Conversion -/

/-- The corrected result of a row in raw units, binary64 before the one rounding (03 R92; 04 R140; 05 R148). `num`
over `den` is the raw value. -/
def correctedRaw (s : State) (b c : Nat) (num : Int) (den : Nat) : F64 :=
  let r := s.chCfg b c
  let cal := inCal s b c
  let g := F64.mul (F64.ofRat num den) (F64.add (F64.ofInt 1) (F64.ofRat cal.1 1000000))
  let v := if cal.2 = 0 then g
    else F64.add g (F64.div (F64.ofRat cal.2 10000000) (Config.convScale r.mode))
  let lead := if r.mode = 8 then r.lead else if r.mode = 9 then (s.ch b c).lead else F64.zero
  if r.mode = 8 ∨ r.mode = 9 then
    F64.sub v (F64.div (F64.mul lead (F64.ofInt 7340032)) (F64.ofInt (ohmEnd r.mode r.linSet)))
  else v

/-- The wire-break method that one conversion shows, 0 for none (04 R135). In part by log 28 (DEDUCED, unsafe). -/
def convBreak (r : ChCfg) (raw : Int) (rr : F64) (d : FeDiag) : Nat :=
  let ma := F64.div (F64.mul rr (F64.ofInt 24)) (F64.ofInt 7340032)
  if r.mode = 1 ∨ r.mode = 2 then
    if r.wbCur = 0 then 0
    else if r.mode = 2 ∧ d.supplyLimit then 2
    else if F64.lt ma (F64.ofRat 5 10) then 1 else 0
  else if isExcited r.mode then
    if d.excLimit then 5 else if raw = 8388607 ∨ raw = -8388607 ∨ raw = -8388608 then 6 else 0
  else if r.mode = 0x0C then
    if d.elementBad then 7
    else if F64.lt (F64.ofRat 102 100) (F64.div rr (F64.ofInt 7340032)) then 8 else 0
  else 0

/-- A wire break is declared (04 R136). -/
def declareBreak (b c m : Nat) (s : State) : State :=
  publish b c
    (raiseN Ev.CH_WIRE_BREAK (chSrc b c) m
      (s.setCh b c (fun x => { x with wireBreak := some m, wbPass := 0, res1 := none, res2 := none })))

/-- One pass of the method that declared a break; the second in a row clears it (04 R137).
In part by log 28 (DEDUCED, unsafe). -/
def breakPass (b c : Nat) (inProgress : Bool) (s : State) : State :=
  let x := s.ch b c
  match x.wireBreak with
  | none => s
  | some m =>
    if x.wbPass + 1 < 2 then s.setCh b c (fun y => { y with wbPass := y.wbPass + 1 })
    else
      settleVisible b c inProgress
        (raiseN Ev.CH_WIRE_BREAK_CLEARED (chSrc b c) m
          (s.setCh b c (fun y => { y with wireBreak := none, wbPass := 0 })))

/-- True when a row's conversions run: its bank works, it is not disconnected, and its slot entry is applied. -/
def converting (s : State) (b c : Nat) : Bool :=
  let x := s.ch b c
  let r := s.chCfg b c
  let applied := match r.slot with
    | some n => (s.bank b).lanes.look (slSource ((s.bank b).slotAct.look n)) == n + 1
    | none => false
  isInMode x.mode && s.live (bankFn b) && !x.backfeed && (!isExcited x.mode || applied)

/-- The half of a slot with reversal that runs now: true for the second (04 R115). -/
def inHalf2 (s : State) (b c : Nat) (e : SlotEntry) : Bool :=
  decide ((s.ch b c).winAt + (slDur e / 2) * 1000000 ≤ s.now)

/-- A settled conversion result: without reversal it is published at once, with reversal it is kept for the end of
the slot (04 R115). In part by log 28 (DEDUCED, unsafe). -/
def settledResult (b c : Nat) (raw : Int) (rr : F64) (s : State) : State :=
  let r := s.chCfg b c
  let e := match r.slot with | some n => (s.bank b).slotAct.look n | none => {}
  if isExcited r.mode && slRev e then
    s.setCh b c (fun x => if x.half2 then { x with res2 := some raw } else { x with res1 := some raw })
  else evaluateRow b c raw (F64.toF32 rr) (rowClamped s b c) (rowRatio s b c) s

/-- The ratiometric current limit of a bank is sampled; a change writes its potentiometer rows again (04 R111). -/
def ratioSample (b : Nat) (on : Bool) (s : State) : State :=
  if (s.bank b).ratioLimit = on then s
  else
    forRange 16 (fun c t => if (t.ch b c).mode = 0x0C then publish b c t else t)
      (s.setBank b (fun k => { k with ratioLimit := on }))

/-- A converter result (05 R148; 04 R130, R135). In part by log 28 (DEDUCED, unsafe). -/
def conversion (b c : Nat) (raw : Int) (d : FeDiag) (s0 : State) : State :=
  if !converting s0 b c then s0
  else
    let s1 := if (s0.chCfg b c).mode = 0x0C then ratioSample b d.ratioLimit s0 else s0
    let s2 := s1.setCh b c (fun x => { x with raw := raw })
    let r := s2.chCfg b c
    let rr := correctedRaw s2 b c raw 1
    let m := convBreak r raw rr d
    let s := s2.setCh b c (fun x => { x with winSeen := true, winBad := x.winBad || m != 0 })
    let x := s.ch b c
    let e := match r.slot with | some n => (s.bank b).slotAct.look n | none => {}
    if rowClamped s b c then s
    else if m != 0 then (match x.wireBreak with
      | some _ => s.setCh b c (fun y => { y with wbPass := 0 })
      | none => declareBreak b c m s)
    else
      match x.wireBreak with
      | some k => if k = 3 ∨ k = 4 ∨ isExcited r.mode then s else breakPass b c false s
      | none =>
        if rowRatio s b c then publish b c s
        else if isExcited r.mode && slRev e && inHalf2 s b c e && !x.half2 then
          s.setCh b c (fun y => { y with half2 := true, discard := settleCount r y, partial' := false })
        else if x.partial' then s.setCh b c (fun y => { y with partial' := false })
        else if x.discard != 0 then s.setCh b c (fun y => { y with discard := y.discard - 1 })
        else settledResult b c raw rr s

/-- A window ends: one without a detection is a pass of the method that declared the break (04 R137). -/
def windowPass (b c : Nat) (s : State) : State :=
  let x := s.ch b c
  if x.winSeen && !x.winBad && x.wireBreak.isSome then breakPass b c false s else s

/-- The end of a slot: its window counts, and with reversal the mean of the two halves is published (04 R115, R137).
In part by log 28 (DEDUCED, unsafe). -/
def slotEnd (b n : Nat) (s0 : State) : State :=
  match rowOfSlot s0 b n with
  | none => s0
  | some c =>
    let s := windowPass b c s0
    if !slRev ((s.bank b).slotAct.look n) || (s.ch b c).wireBreak.isSome || rowClamped s b c then s
    else
      match (s.ch b c).res1, (s.ch b c).res2 with
      | some a, some z =>
        let rr := correctedRaw s b c (a - z) 2
        evaluateRow b c ((a - z) / 2) (F64.toF32 rr) (rowClamped s b c) (rowRatio s b c) s
      | _, _ => s

/-- A lane moves to its next entry; the last one is held until the frame ends (04 R113, R114). -/
def excitationChange (b l : Nat) (s : State) : State :=
  let k := s.bank b
  let cur := k.lanes.look l
  if cur = 0 || !s.live (bankFn b) then s
  else
    match (laneOf k.slotAct l).find? (fun n => decide (cur - 1 < n)) with
    | none => s
    | some n =>
      let s1 := slotEnd b (cur - 1) s
      windowStart b n (some (k.slotAct.look (cur - 1)))
        (s1.setBank b (fun y => { y with lanes := y.lanes.put l (n + 1) }))

/-- One lane starts its first entry at a frame start (04 R113). `old` is the table before the swap. -/
def laneRestart (b : Nat) (old : Tab SlotEntry) (l : Nat) (s : State) : State :=
  let k := s.bank b
  let cur := k.lanes.look l
  match (laneOf k.slotAct l).head? with
  | none => s.setBank b (fun y => { y with lanes := y.lanes.put l 0 })
  | some n =>
    windowStart b n (if cur = 0 then none else some (old.look (cur - 1)))
      (s.setBank b (fun y => { y with lanes := y.lanes.put l (n + 1) }))

/-- Rows whose entry changed in current or reversal settle, as the image shows (04 R121). -/
def swapSettle (b : Nat) (old new : Tab SlotEntry) (s : State) : State :=
  forRange 32 (fun n t =>
    match rowOfSlot t b n with
    | some c =>
      if slCur (old.look n) != slCur (new.look n) || slRev (old.look n) != slRev (new.look n)
          || slOut (old.look n) != slOut (new.look n) || slRet (old.look n) != slRet (new.look n) then
        settleVisible b c false t
      else t
    | none => t) s

/-- A frame starts: a pending table becomes active, and every lane restarts (04 R113, R119). -/
def frameStart (b : Nat) (s : State) : State :=
  if !s.live (bankFn b) then s
  else
    let k := s.bank b
    let s0 := forRange 4 (fun l t =>
      let cur := (t.bank b).lanes.look l
      if cur = 0 then t else slotEnd b (cur - 1) t) s
    let s1 := s0.setBank b (fun y => { y with frameCount := wrap32 (y.frameCount + 1) })
    let s2 := match k.slotPend with
      | none => s1
      | some t =>
        swapSettle b k.slotAct t
          (raiseN Ev.SLOT_SWAPPED (chSrc b 0) (wrap32 (k.frameCount + 1))
            (s1.setBank b (fun y => { y with slotAct := t, slotShd := t, slotPend := none })))
    forRange 4 (laneRestart b k.slotAct) s2

/-- The code and entry that refuse a submission of the shadow table, in the order of 04 R118; code 0 accepts.
In part by log 28 (DEDUCED, unsafe). -/
def submitCode (s : State) (b : Nat) (r : Role) : Nat × Nat :=
  let k := s.bank b
  let all := List.range 32
  let bad : (Nat → Bool) → Option Nat := fun p => all.find? p
  let sh := fun n => k.slotShd.look n
  let ac := fun n => k.slotAct.look n
  if !roleAtLeast r .engineer then (1, 0)
  else match bad (fun n => slSource (sh n) != slSource (ac n) || slOut (sh n) != slOut (ac n) || slRet (sh n) != slRet (ac n)) with
  | some n => (2, n)
  | none => match bad (fun n => slOn (sh n) && (decide (slCur (sh n) < 5) || decide (200 < slCur (sh n)))) with
  | some n => (3, n)
  | none => match bad (fun n => slOn (sh n) && slDur (sh n) == 0) with
  | some n => (4, n)
  | none => match bad (fun n =>
      match rowOfSlot s b n with | some c => slOn (sh n) && !windowOk (s.chCfg b c) (sh n) | none => false) with
  | some n => (5, n)
  | none => match subsFail k.slotShd with
  | some n => (6, n)
  | none => match bad (fun n => (rowOfSlot s b n).isSome && !slOn (sh n)) with
  | some n => (8, n)
  | none => if s.running (bankFn b) then (0, 0) else (9, 0)

/-- SLOT_SUBMIT of the shadow table (04 R118–R120). In part by log 28 (DEDUCED, unsafe). -/
def slotSubmit (b : Nat) (r : Role) (s : State) : State :=
  let code := submitCode s b r
  if code.1 != 0 then
    raiseN Ev.SLOT_SUBMIT_REFUSED (chSrc b 0) (code.1 + 256 * code.2)
      (s.setBank b (fun k => { k with subResult := code.1, subEntry := code.2 }))
  else
    let s1 := raiseIf (s.bank b).slotPend.isSome Ev.SLOT_SUBMIT_REPLACED (chSrc b 0) 0 s
    raise Ev.SLOT_SUBMITTED (chSrc b 0) (w32 (frameLen (s.bank b).slotShd)) (.role r)
      (s1.setBank b (fun k => { k with slotPend := some k.slotShd, subResult := 0, subEntry := 0 }))

/-! ### Compensation, sensors, ride-through -/

/-- 60 s have passed since the loss of compensation (05 R151). -/
def compFail (b c : Nat) (s : State) : State :=
  if (s.ch b c).comp = .held then
    publish b c
      (raiseN Ev.COMP_FAILED (chSrc b c) (compSrc (s.chCfg b c))
        (s.setCh b c (fun x => { x with comp := .failed })))
  else s

/-- The ride-through time of a row ends (05 R159). In part by log 29 (DEDUCED, unsafe). -/
def rideEnds (b c : Nat) (s : State) : State :=
  if (s.ch b c).riding then publish b c (s.setCh b c (fun x => { x with riding := false })) else s

/-- A reading within −40 °C to +100 °C, or none (05 R150). -/
def cjValid (t : Option F32) : Option F32 :=
  match t with
  | some v => if F32.le 0xC2200000#32 v && F32.le v 0x42C80000#32 then some v else none
  | none => none

/-- True when an input row of the bank takes its compensation from cold-junction sensor `k` (05 R149). -/
def usesCj (s : State) (b k : Nat) : Bool :=
  (List.range 16).any (fun c =>
    isInMode (s.ch b c).mode
      && ((compSrc (s.chCfg b c) == 1 && (c / 8 == k)) || compSrc (s.chCfg b c) == 2))

/-- The cold-junction sensors are read (05 R150). -/
def cjRead (b : Nat) (t0 t1 : Option F32) (s : State) : State :=
  let a := cjValid t0
  let z := cjValid t1
  let f0 := a.isNone && z.isSome && usesCj s b 0
  let f1 := z.isNone && a.isSome && usesCj s b 1
  let k := s.bank b
  let s1 := s.setBank b (fun y => { y with cj0 := a, cj1 := z, cjFault0 := f0, cjFault1 := f1 })
  raiseIf (f1 && !k.cjFault1) Ev.CJ_SENSOR_FAULT (chSrc b 0) 1
    (raiseIf (f0 && !k.cjFault0) Ev.CJ_SENSOR_FAULT (chSrc b 0) 0 s1)

/-! ### Tracking notch (04 R128, R129) -/

/-- The notch length of a frequency in units of 0.01 Hz, in modulator samples, rounded to nearest (04 R125). -/
def notchLenOf (chz : Nat) : Nat := (2 * 102400000 + chz) / (2 * chz)

/-- The new length takes effect where it differs by at least 0.05 % (04 R128). In part by log 28 (DEDUCED, unsafe). -/
def takeNotch (chz : Nat) (x : ChSt) : ChSt :=
  let n := notchLenOf chz
  let d := if n ≤ x.notchLen then x.notchLen - n else n - x.notchLen
  if x.notchLen ≤ 2000 * d then { x with notchLen := n, notchFreq := chz, lastFreq := chz }
  else { x with lastFreq := chz }

/-- A frequency measurement of TRACK_PT (04 R128, R129). -/
def trackMeasure (b c chz : Nat) (s : State) : State :=
  let r := s.chCfg b c
  let x := s.ch b c
  if !(isInMode x.mode && r.notch == 4 && s.live (bankFn b)) then s
  else
    let good := match r.trackPt with | some gp => qIsGood (readRef s (.diState gp.1 gp.2)).q | none => false
    let valid := decide (4500 ≤ chz) && decide (chz ≤ 6500) && good
    if !valid then s.setCh b c (fun y => { y with validSince := none })
    else
      match x.track with
      | .locked => s.setCh b c (takeNotch chz)
      | .holding =>
        raiseN Ev.NOTCH_TRACK_OK (chSrc b c) chz
          (s.setCh b c (fun y => { takeNotch chz y with track := .locked }))
      | .fallback =>
        let since := match x.validSince with | some t => t | none => s.now
        if since + 1000000000 ≤ s.now then
          settleVisible b c true
            (raiseN Ev.NOTCH_TRACK_OK (chSrc b c) chz
              (s.setCh b c (fun y =>
                { y with track := .locked, notchLen := notchLenOf chz, notchFreq := chz, lastFreq := chz,
                         validSince := none })))
        else s.setCh b c (fun y => { y with validSince := some since, lastFreq := chz })
      | .off => s

/-- No valid measurement for 1 s (04 R129). -/
def trackLost (b c : Nat) (s : State) : State :=
  if (s.ch b c).track = .locked then
    raiseN Ev.NOTCH_TRACK_LOST (chSrc b c) (s.ch b c).lastFreq (s.setCh b c (fun x => { x with track := .holding }))
  else s

/-- No valid measurement for a further 9 s (04 R129). -/
def trackFallback (b c : Nat) (s : State) : State :=
  if (s.ch b c).track = .holding then
    settleVisible b c true
      (raiseN Ev.NOTCH_FALLBACK (chSrc b c) 0
        (s.setCh b c (fun x => { x with track := .fallback, validSince := none })))
  else s

/-! ### Clamps and test pulses (04 R131–R137) -/

/-- The clamp flag of a terminal is set (04 R131, R132). In part by log 29 (DEDUCED, unsafe). -/
def clampOn (b t : Nat) (s : State) : State :=
  let bit : BitVec 48 := (1 : BitVec 48) <<< t
  let was := (s.bank b).clampLive.getLsbD t
  let s1 := s.setBank b (fun k => { k with clampLive := k.clampLive ||| bit, clampLatch := k.clampLatch ||| bit })
  if was then s1
  else forRange 16 (fun c u =>
    if rowHasTerm u b c t then
      let u1 := raiseN Ev.CH_CLAMP_ACTIVE (chSrc b c) t u
      if isInMode (u1.ch b c).mode then publish b c u1 else u1
    else u) s1

/-- The clamp flag of a terminal clears (04 R131, R132). In part by log 29 (DEDUCED, unsafe). -/
def clampOff (b t : Nat) (s : State) : State :=
  if !(s.bank b).clampLive.getLsbD t then s
  else
    let bit : BitVec 48 := (1 : BitVec 48) <<< t
    let s1 := s.setBank b (fun k => { k with clampLive := k.clampLive &&& ~~~bit })
    forRange 16 (fun c u =>
      if rowHasTerm u b c t then
        let u1 := raiseN Ev.CH_CLAMP_RELEASED (chSrc b c) t u
        if isInMode (u1.ch b c).mode then settleVisible b c true u1 else u1
      else u) s1

/-- The default of TEST: 1 in modes 0x05 and 0x0B (04 R107). -/
def testOf (r : ChCfg) : Nat := match r.test with | some n => n | none => if r.mode = 5 ∨ r.mode = 0x0B then 1 else 0

/-- A test pulse is judged: departures in µV in the two halves (04 R134, R137). -/
def testPulse (b c dev1 dev2 : Nat) (s : State) : State :=
  let r := s.chCfg b c
  let x := s.ch b c
  if !(isInMode x.mode && testOf r == 1 && s.live (bankFn b)) then s
  else
    let m := if r.mode = 5 ∨ r.mode = 0x0B then 3 else 4
    let fail := decide (20000 ≤ dev1) || decide (20000 ≤ dev2)
    let s1 := s.setCh b c (fun y => { y with testFailed := fail })
    if fail then
      match x.wireBreak with
      | some _ => s1.setCh b c (fun y => { y with wbPass := 0 })
      | none => declareBreak b c m s1
    else if x.wireBreak == some m then breakPass b c true s1
    else s1

/-! ### Object blocks 0x05 to 0x08 (04 R141–R143) -/

/-- TERM_ROLE of a terminal (04 R141): a driver role shows before another. -/
def termRole (s : State) (b t : Nat) : Nat :=
  let all := (List.range 16).flatMap (fun c =>
    if (s.ch b c).mode = 0 then [] else
      ((rowRoles (s.chCfg b c) c).filter (fun p => p.1 == t)).map (fun p => (c, p.2)))
  let main := match all.find? (fun p => isDriver p.2) with | some p => some p | none => all.head?
  match main with
  | none => 0
  | some p =>
    let borrowed := (List.range 16).any (fun c =>
      (s.ch b c).mode == 0x0A && termD (s.chCfg b c) c == t)
    let shared := all.any (fun q => q.1 != p.1 && isInRole q.2)
    p.2 + 16 * p.1 + 256 * b2n borrowed + 512 * b2n shared

/-- A word of a slot entry, with the bound row in word 1 (04 R112). -/
def slotWord (s : State) (b n : Nat) (e : SlotEntry) (second : Bool) : Nat :=
  if second then
    slSub e + (match rowOfSlot s b n with | some c => 256 * c + 4096 | none => 0)
  else e.w0.toNat

/-- FE_ROW of a row (04 R143). In part by log 28 (DEDUCED, unsafe). -/
def feRow (s : State) (b c : Nat) : Nat :=
  let r := s.chCfg b c
  let x := s.ch b c
  if !isInMode x.mode then 0
  else
    let tc := if r.notch = 4 then (match x.track with | .off => 0 | .locked => 1 | .holding => 2 | .fallback => 3) else 0
    let f := if r.notch = 1 then 5000 else if r.notch = 2 then 6000 else if r.notch = 3 then 0xFFFF
      else if r.notch = 4 then (if tc = 1 ∨ tc = 2 then x.notchFreq % 65536 else 0xFFFF) else 0
    f + 65536 * tc + 262144 * b2n x.testFailed + 16777216 * min 255 x.discard

/-- Blocks 0x05 to 0x08 of a bank; `none` where no object is defined. -/
def frontObj (s : State) (b blk off : Nat) : Option Nat :=
  let k := s.bank b
  if blk = 5 then
    if off = 0 then some (k.clampLive.toNat % 4294967296)
    else if off = 4 then some (k.clampLive.toNat / 4294967296)
    else if off = 8 then some (k.clampLatch.toNat % 4294967296)
    else if off = 0xC then some (k.clampLatch.toNat / 4294967296)
    else if 0x40 ≤ off ∧ off ≤ 0xFC then some (termRole s b ((off - 0x40) / 4))
    else none
  else if blk = 6 then
    if off ≤ 0xFC then some (slotWord s b (off / 8) (k.slotAct.look (off / 8)) (off % 8 == 4))
    else if off = 0x100 then some (frameLen k.slotAct)
    else if off = 0x104 then some k.frameCount
    else none
  else if blk = 7 then
    if off ≤ 0xFC then some (slotWord s b (off / 8) (k.slotShd.look (off / 8)) (off % 8 == 4))
    else if off = 0x100 then some 0
    else if off = 0x104 then some (b2n k.slotPend.isSome + 256 * k.subResult + 65536 * k.subEntry)
    else none
  else if blk = 8 then
    if off ≤ 0x3C then some (feRow s b (off / 4)) else none
  else if blk = 9 then linBrowseObj k off
  else if blk = 0xA then
    if off ≤ 0xFC then
      some (linRowObj s b (off / 16) (off % 16) (rowClamped s b (off / 16)) (rowRatio s b (off / 16)))
    else none
  else none

/-! ### Commands -/

/-- SLOT_SUBMIT. -/
def execSlotSubmit (b : Fin 8) (r : Role) (s : State) : Host.Outcome State Fault Refusal := .next (slotSubmit b.val r s)
/-- FRAME_START. -/
def execFrameStart (b : Fin 8) (s : State) : Host.Outcome State Fault Refusal := .next (frameStart b.val s)
/-- EXCITATION_CHANGE. -/
def execExcitationChange (b : Fin 8) (lane : Fin 4) (s : State) : Host.Outcome State Fault Refusal :=
  .next (excitationChange b.val lane.val s)
/-- CONVERSION_RESULT. -/
def execConversionResult (b : Fin 8) (c : Fin 16) (raw : Int) (d : FeDiag) (s : State) :
    Host.Outcome State Fault Refusal := .next (conversion b.val c.val raw d s)
/-- COMP_FAILED. -/
def execCompFailed (b : Fin 8) (c : Fin 16) (s : State) : Host.Outcome State Fault Refusal :=
  .next (compFail b.val c.val s)
/-- RIDE_TIME_END. -/
def execRideTimeEnd (b : Fin 8) (c : Fin 16) (s : State) : Host.Outcome State Fault Refusal :=
  .next (rideEnds b.val c.val s)
/-- CJ_SENSOR_READ. -/
def execCjSensorRead (b : Fin 8) (t0 t1 : Option F32) (s : State) : Host.Outcome State Fault Refusal :=
  .next (cjRead b.val t0 t1 s)
/-- TRACK_MEASUREMENT. -/
def execTrackMeasurement (b : Fin 8) (c : Fin 16) (chz : Nat) (s : State) : Host.Outcome State Fault Refusal :=
  .next (trackMeasure b.val c.val chz s)
/-- NOTCH_TRACK_LOST. -/
def execNotchTrackLost (b : Fin 8) (c : Fin 16) (s : State) : Host.Outcome State Fault Refusal :=
  .next (trackLost b.val c.val s)
/-- NOTCH_FALLBACK. -/
def execNotchFallback (b : Fin 8) (c : Fin 16) (s : State) : Host.Outcome State Fault Refusal :=
  .next (trackFallback b.val c.val s)
/-- CH_CLAMP_ACTIVE. -/
def execChClampActive (b : Fin 8) (t : Fin 48) (s : State) : Host.Outcome State Fault Refusal :=
  .next (clampOn b.val t.val s)
/-- CH_CLAMP_RELEASED. -/
def execChClampReleased (b : Fin 8) (t : Fin 48) (s : State) : Host.Outcome State Fault Refusal :=
  .next (clampOff b.val t.val s)
/-- TEST_PULSE. -/
def execTestPulse (b : Fin 8) (c : Fin 16) (dev1 dev2 : Nat) (s : State) : Host.Outcome State Fault Refusal :=
  .next (testPulse b.val c.val dev1 dev2 s)

end Sys2Proof.Machine
end

