-- ==== Sys2Proof/Machine/Analog.lean ====
section
/-! DEFINITION. Analogue outputs: compliance, readback, back-feed, the alarm direction, trim and calibration
(chapter 03). -/

namespace Sys2Proof.Machine

/-- True for the active current output modes. -/
def isActiveCur (m : Nat) : Bool := 0x10 ≤ m && m ≤ 0x12
/-- True for the modes with a 4–20 mA range (03 R79). -/
def is420 (m : Nat) : Bool := m == 0x11 || m == 0x14

/-- The span of an output mode in mA or V (03 R73). -/
def outSpan (m : Nat) : Nat :=
  if m = 0x10 ∨ m = 0x13 then 20 else if m = 0x11 ∨ m = 0x14 then 16 else if m = 0x12 ∨ m = 0x15 then 24
  else if m = 0x16 then 10 else 20

/-- A value in mA or V as µA or mV, rounded (03 R104). -/
def milli (v : F32) : Int := F64.toIntAway (F64.mul (F64.ofF32 v) (F64.ofInt 1000))

/-- The failure action of a row: 0 NE43, 1 OFF, 2 REPORT (03 R79). -/
def failAction (r : ChCfg) : Nat := match r.action with | some a => a | none => if is420 r.mode then 0 else 2

/-! ### Headroom and compliance (03 R76, R77) -/

/-- The supply and headroom of an output row are measured. -/
def headroom (b c supply head : Nat) (s : State) : State :=
  let m := (s.ch b c).mode
  if !s.live (bankFn b) then s
  else if isCurMode m then s.setCh b c (fun x => { x with supply := supply, headroom := head })
  else if m = 2 then s.setCh b c (fun x => { x with supply := if x.backfeed then 0 else supply })
  else s

/-- Headroom has stayed below 1.0 V (03 R77, t1). -/
def compLow (b c : Nat) (s : State) : State :=
  let x := s.ch b c
  if isCurMode x.mode && !x.compLow then
    raiseN Ev.CH_COMPLIANCE_LOW (chSrc b c) x.headroom (s.setCh b c (fun y => { y with compLow := true }))
  else s

/-- The shortfall has lasted 100 ms (03 R77, t2). -/
def compShort (b c ua : Nat) (s : State) : State :=
  let x := s.ch b c
  if isCurMode x.mode && x.compLow && !x.compShort then
    raiseN Ev.CH_COMPLIANCE_SHORTFALL (chSrc b c) ua (s.setCh b c (fun y => { y with compShort := true }))
  else s

/-- Headroom has returned (03 R77, t4). -/
def compOk (b c : Nat) (s : State) : State :=
  let x := s.ch b c
  if isCurMode x.mode && x.compLow then
    raiseN Ev.CH_COMPLIANCE_OK (chSrc b c) x.headroom
      (s.setCh b c (fun y => { y with compLow := false, compShort := false }))
  else s

/-! ### Readback (03 R83–R86) -/

/-- The value commanded 2 ms ago. -/
def cmdBefore (x : ChSt) (now : Nat) : F32 :=
  match x.cmdLog.find? (fun p => decide (now < p.1 + 2000000)) with
  | some p => p.2
  | none => match x.driven with | some v => v | none => 0#32

/-- |a − b| > span × n / 1000 in binary64. -/
def awayBy (a b : F32) (span n : Nat) : Bool :=
  let d := F64.sub (F64.ofF32 a) (F64.ofF32 b)
  let lim := F64.ofRat ((span * n : Nat) : Int) 1000
  F64.lt lim d || F64.lt d (F64.sub F64.zero lim)

/-- The data word of CH_READBACK_MISMATCH. -/
def mismatchData (cmd rb : F32) : Nat := s16 (milli cmd) + 65536 * s16 (milli rb)

/-- A readback mismatch is declared, and the row's failure action applies (03 R85). -/
def declareMismatch (b c : Nat) (cmd rb : F32) (s : State) : State :=
  let a := failAction (s.chCfg b c)
  let s1 := raiseN Ev.CH_READBACK_MISMATCH (chSrc b c) (mismatchData cmd rb)
    (s.setCh b c (fun x => { x with rbMismatch := true, devRun := 0, okRun := 0 }))
  if a = 0 then driveAo b c (s1.setCh b c (fun x => { x with ne43 := true }))
  else if a = 1 then s1.setCh b c (fun x => { x with stageOff := true })
  else s1

/-- A counting visit (03 R84, R85). -/
def countVisit (b c : Nat) (cmd rb : F32) (s : State) : State :=
  let x := s.ch b c
  let dev := awayBy rb cmd (outSpan x.mode) 5
  if !x.rbMismatch then
    if !dev then s.setCh b c (fun y => { y with devRun := 0 })
    else if x.devRun + 1 < 3 then s.setCh b c (fun y => { y with devRun := y.devRun + 1 })
    else declareMismatch b c cmd rb s
  else if x.ne43 then
    if !dev then s.setCh b c (fun y => { y with devRun := 0 })
    else if x.devRun + 1 < 3 then s.setCh b c (fun y => { y with devRun := y.devRun + 1 })
    else
      raiseN Ev.CH_STAGE_OFF (chSrc b c) (s32 (milli rb))
        (s.setCh b c (fun y => { y with stageOff := true, devRun := 0 }))
  else if dev then s.setCh b c (fun y => { y with okRun := 0 })
  else if x.okRun + 1 < 3 then s.setCh b c (fun y => { y with okRun := y.okRun + 1 })
  else
    raiseN Ev.CH_READBACK_OK (chSrc b c) (s32 (milli rb))
      (s.setCh b c (fun y => { y with rbMismatch := false, okRun := 0, devRun := 0 }))

/-- Whether `c` is the lowest row of the bank with an output mode. -/
def lowestOutput (b c : Nat) (s : State) : Bool :=
  isOutMode (s.ch b c).mode && !(List.range c).any (fun d => isOutMode (s.ch b d).mode)

/-- RB_CYCLE: a cycle runs from one visit of the lowest output row to the next (DEDUCED from the
description of RB_CYCLE in 03, its registers). In part by log 27 (DEDUCED, unsafe). -/
def countCycle (b c : Nat) (s : State) : State :=
  if !lowestOutput b c s then s
  else
    s.setBank b (fun k =>
      match k.rbStart with
      | none => { k with rbStart := some s.now }
      | some t =>
        let us := (s.now - t) / 1000
        { k with rbCycle := us, rbMax := max k.rbMax us, rbStart := some s.now })

/-- The readback converter visits a row (03 R83; 04 R138, R140). In part by log 27 (DEDUCED, unsafe). -/
def readbackVisit (b c : Nat) (v : Visit) (s : State) : State :=
  let x := s.ch b c
  if !s.live (bankFn b) then s
  else
    match v with
    | .output rb =>
      if !isOutMode x.mode then s
      else
        let q := if trimOpen s b c then qUnc 0 else qGood
        let s1 := countCycle b c (s.setCh b c (fun y => { y with readback := rb, rbEntry := { val := rb, q := q } }))
        let cmd := match x.driven with | some d => d | none => 0#32
        let counts := !x.compLow && !x.stageOff && !x.backfeed && !awayBy cmd (cmdBefore x s.now) (outSpan x.mode) 1
        if counts then countVisit b c cmd rb s1 else s1
    | .crossCheck raw r =>
      if isInMode x.mode && (s.chCfg b c).safety == 1 then secondPath b c raw r s else s
    | .lead ohms =>
      if x.mode = 9 then s.setCh b c (fun y => { y with lead := ohms }) else s

/-! ### Back-feed and clearing (03 R86, R88) -/

/-- Back-feed is declared (03 R88). -/
def backfeed (b c : Nat) (mv : Int) (s : State) : State :=
  let x := s.ch b c
  if !(isActiveCur x.mode || x.mode == 0x16 || x.mode == 0x17 || x.mode == 2) || x.backfeed || !s.live (bankFn b) then s
  else
    let s1 := raiseN Ev.CH_BACKFEED (chSrc b c) (s32 mv)
      (s.setCh b c (fun y => { y with backfeed := true, supply := if y.mode = 2 then 0 else y.supply }))
    if x.mode = 2 then publish b c s1 else s1

/-- The latches of one channel are cleared (03 R85, R86, R88). -/
def clearChannel (b c : Nat) (s : State) : State :=
  let x := s.ch b c
  let latched := failAction (s.chCfg b c) != 2
  let s1 := s.setCh b c (fun y =>
    { y with
      backfeed := false, ne43 := false, stageOff := false, devRun := 0
      rbMismatch := if latched then false else y.rbMismatch })
  if isOutMode x.mode then driveAo b c s1
  else if isInMode x.mode && x.backfeed then publish b c s1
  else s1

/-- CH_CLEAR of the channels in a mask, from a sender of role `r` (03 R86, R101).
In part by log 26 (DEDUCED, unsafe). -/
def chClear (b : Nat) (mask : BitVec 16) (r : Role) (s : State) : State :=
  if !roleAtLeast r .engineer then s
  else
    raise Ev.CH_CLEARED (chSrc b 0) (mask.setWidth 32) (.role r)
      (forRange 16 (fun c t => if mask.getLsbD c then clearChannel b c t else t) s)

/-! ### Alarm direction (03 R80–R82) -/

/-- The OTP alarm-direction lock of a bank: 0 unlocked, 1 low, 2 high. -/
def dirLock (s : State) (b : Nat) : Nat := (s.otpWord 5 b 0).toNat

/-- The direction of exactly one fitted strap, 0 for none or both. -/
def strapDir (straps : Nat) : Nat := if straps = 1 then 1 else if straps = 2 then 2 else 0

/-- The effective direction of a bank decided at its PITCH, with its events (03 R80, R81). -/
def decideDir (b : Nat) (s : State) : State :=
  let st := (s.bank b).straps
  let sd := strapDir st
  let lock := dirLock s b
  let eff := if sd != 0 then sd else if lock = 1 ∨ lock = 2 then lock else 0
  let src := if sd != 0 then 2 else if eff != 0 then 1 else 0
  let s1 := s.setBank b (fun k =>
    { k with effLock := eff, lockSrc := src, strapInvalid := st == 3, strapChanged := false, conflict := false })
  let s2 := raiseIf (st == 3) Ev.BANK_STRAP_INVALID (chSrc b 0) st s1
  forRange 16 (fun c t =>
    let r := t.chCfg b c
    let differs := eff != 0 && r.dir != 0 && r.dir != eff
    let both := sd != 0 && (lock == 1 || lock == 2) && lock != sd
    if is420 (t.ch b c).mode && (differs || both) then
      raiseN Ev.NE43_DIRECTION_CONFLICT (chSrc b c) (r.dir + 4 * eff + 16 * src)
        (t.setBank b (fun k => { k with conflict := true }))
    else t) s2

/-- The straps of the eight banks are sensed (03 R82). -/
def strapSense (straps : List (Fin 4)) (s : State) : State :=
  forRange 8 (fun b t =>
    match straps[b]? with
    | none => t
    | some v =>
      if (t.bank b).straps = v.val then t
      else
        raiseN Ev.BANK_STRAP_CHANGED (chSrc b 0) v.val
          (t.setBank b (fun k => { k with straps := v.val, strapChanged := true }))) s

/-! ### Field power (03 R90, R91) -/

/-- The field power charge of a row in mW, rounded up (03 R90). In part by log 27 (DEDUCED, unsafe). -/
def rowCharge (r : ChCfg) : Nat :=
  if r.mode = 0x10 then (205 * r.vlim + 9999) / 10000
  else if r.mode = 0x11 then (215 * r.vlim + 9999) / 10000
  else if r.mode = 0x12 then (240 * r.vlim + 9999) / 10000
  else if r.mode = 2 then 600 else 0

/-- The charge of a bank in mW. In part by log 27 (DEDUCED, unsafe). -/
def bankCharge (img : ImageCfg) (b : Nat) : Nat :=
  ((List.range 16).map (fun c => rowCharge ((img.banks.look b).rows.look c))).sum

/-- The charge of the module in mW. In part by log 27 (DEDUCED, unsafe). -/
def moduleCharge (img : ImageCfg) : Nat := ((List.range 8).map (bankCharge img)).sum

/-! ### Trim and calibration (03 R92–R98) -/

/-- True when Bedrock reads or writes what the channel stands for (03 R97; 09 R282). -/
def channelIsSafety (s : State) (b c : Nat) : Bool :=
  (s.chCfg b c).safety == 1
    || (match layIdx s (.aoOut b c) with
        | some i => (match (s.lay i).writer with | .safety _ => true | _ => false)
        | none => false)

/-- True when a channel's mode matches a kind of trim (03 R93, R97). -/
def trimKindOk (mode kind : Nat) : Bool :=
  if kind = 1 then isCurMode mode
  else if kind = 2 then mode == 0x16 || mode == 0x17
  else isInMode mode

/-- The result that refuses a START, 0 when it is accepted (03 R97). -/
def trimStartCode (s : State) (b kind : Nat) (r : Role) : Nat :=
  let k := s.bank b
  if !roleAtLeast r .engineer then 1
  else if !s.running (bankFn b) then 5
  else if k.trim.state != .idle then 3
  else if !trimKindOk (s.ch b k.trim.sel).mode kind then 2
  else if channelIsSafety s b k.trim.sel && s.safetyCommissioned then 6
  else 0

/-- The trim procedure of a bank changed. -/
def setTrim (b : Nat) (f : TrimSt → TrimSt) (s : State) : State := s.setBank b (fun k => { k with trim := f k.trim })

/-- START of a procedure (03 R93, R96, R97). In part by log 27 (DEDUCED, unsafe). -/
def trimStart (b kind : Nat) (r : Role) (s : State) : State :=
  let code := trimStartCode s b kind r
  if code != 0 then setTrim b (fun t => { t with result := code }) s
  else
    let c := (s.bank b).trim.sel
    let s1 := setTrim b (fun t => { sel := t.sel, meas := t.meas, state := .point1, kind := kind }) s
    let s2 := if kind = 3 then publish b c s1 else wdSuspend (.aoOut b c) s1
    raise Ev.TRIM_STARTED (chSrc b c) (w32 kind) (.role r) s2

/-- The procedure ends: the channel returns to its writer or its input mode (03 R96). -/
def trimEnd (b result : Nat) (s : State) : State :=
  let t := (s.bank b).trim
  let s1 := setTrim b (fun t => { t with state := .idle, averaging := false, result := result }) s
  if t.state = .idle then s1
  else if t.kind = 3 then settleVisible b t.sel true s1
  else wdRestart (.aoOut b t.sel) s1

/-- Gain and offset of a correction from the two points (03 R94), and whether they are finite.
In part by log 27 (DEDUCED, unsafe). -/
def trimSolve (kind : Nat) (t : TrimSt) : Int × Int × Bool :=
  let x1 := if kind = 1 then F64.ofInt 4 else if kind = 2 then F64.zero else F64.ofF32 t.m1
  let x2 := if kind = 1 then F64.ofInt 20 else if kind = 2 then F64.ofInt 10 else F64.ofF32 t.m2
  let y1 := if kind = 3 then t.r1 else F64.ofF32 t.m1
  let y2 := if kind = 3 then t.r2 else F64.ofF32 t.m2
  let unit := if kind = 3 then F64.ofRat 1 10000000 else F64.ofRat 1 100000
  let k := F64.div (F64.sub y2 y1) (F64.sub x2 x1)
  let e := F64.sub y1 (F64.mul k x1)
  let g := F64.mul (F64.sub (F64.div (F64.ofInt 1) k) (F64.ofInt 1)) (F64.ofInt 1000000)
  let o := F64.div (F64.div (F64.sub F64.zero e) k) unit
  (F64.toIntAway g, F64.toIntAway o, F64.isFin g && F64.isFin o)

/-- The limits of 03 R95. -/
def trimInLimits (kind : Nat) (g o : Int) : Bool :=
  let gl : Int := if kind = 3 then 1000 else 2000
  let ol : Int := if kind = 1 then 5000 else if kind = 2 then 1000 else 2000
  decide (-gl ≤ g) && decide (g ≤ gl) && decide (-ol ≤ o) && decide (o ≤ ol)

/-- The second point is done: the correction is computed and checked (03 R94, R95).
In part by log 27 (DEDUCED, unsafe). -/
def trimCompute (b : Nat) (s : State) : State :=
  let t := (s.bank b).trim
  let r := trimSolve t.kind t
  if r.2.2 && trimInLimits t.kind r.1 r.2.1 then
    let s1 := setTrim b (fun t => { t with state := .computed, averaging := false, newGain := r.1, newOffset := r.2.1, result := 0 }) s
    if t.kind = 3 then s1 else driveAo b t.sel s1
  else trimEnd b 4 s

/-- ACCEPT (03 R93, R102). -/
def trimAccept (b : Nat) (r : Role) (s : State) : State :=
  let t := (s.bank b).trim
  if !roleAtLeast r .engineer then setTrim b (fun t => { t with result := 1 }) s
  else if t.averaging then setTrim b (fun t => { t with result := 3 }) s
  else
    match t.state with
    | .point1 =>
      if t.kind = 3 then setTrim b (fun t => { t with m1 := t.meas, averaging := true, result := 0 }) s
      else driveAo b t.sel (setTrim b (fun t => { t with m1 := t.meas, state := .point2, result := 0 }) s)
    | .point2 =>
      if t.kind = 3 then setTrim b (fun t => { t with m2 := t.meas, averaging := true, result := 0 }) s
      else trimCompute b (setTrim b (fun t => { t with m2 := t.meas }) s)
    | _ => setTrim b (fun t => { t with result := 5 }) s

/-- The averaging of a point ends with the module's own measurement (03 R93, R94).
In part by log 27 (DEDUCED, unsafe). -/
def trimAverage (b : Nat) (avg : F64) (s : State) : State :=
  let t := (s.bank b).trim
  if !t.averaging then s
  else
    match t.state with
    | .point1 => setTrim b (fun t => { t with r1 := avg, averaging := false, state := .point2 }) s
    | .point2 => trimCompute b (setTrim b (fun t => { t with r2 := avg, averaging := false }) s)
    | _ => s

/-- The OTP item that a kind of trim writes. -/
def trimItem (kind : Nat) : Nat := if kind = 3 then 7 else 6

/-- A gain and an offset as one word. -/
def trimWord (g o : Int) : W32 := w32 (s16 g + 65536 * s16 o)

/-- The fields of the set that WRITE programs: the trimmed kind's from TRIM_NEW, the others from the active set
(03 R98). -/
def trimSet (s : State) (b : Nat) : List W32 :=
  let t := (s.bank b).trim
  let new := trimWord t.newGain t.newOffset
  let cur := outTrim s b t.sel true
  let vol := outTrim s b t.sel false
  if t.kind = 3 then [new]
  else if t.kind = 1 then [new, trimWord vol.1 vol.2]
  else [trimWord cur.1 cur.2, new]

/-- The programming of the open procedure's set begins (03 R98; 02 R617). -/
def trimProgram (b : Nat) (o : Origin) (s : State) : State :=
  let t := (s.bank b).trim
  let s1 := setTrim b (fun t => { t with state := .writing, result := 0 }) s
  { s1 with otp := { s1.otp with busy := some (
    { item := trimItem t.kind, index := 16 * b + t.sel, value := trimSet s b, origin := o, by' := 3 } : OtpBusy) } }

/-- WRITE (03 R98). -/
def trimWriteCmd (b : Nat) (r : Role) (s : State) : State :=
  let t := (s.bank b).trim
  let used := s.otpUsed (trimItem t.kind) (16 * b + t.sel)
  let refuse := fun (n : Nat) => setTrim b (fun t => { t with result := n }) s
  if !roleAtLeast r .commission then refuse 1
  else if t.state != .computed then refuse 5
  else if s.otp.busy.isSome then refuse 3
  else if 4 ≤ used then refuse 8
  else if used = 3 then refuse 7
  else trimProgram b (.role r) s

/-- ABORT (03 R96). -/
def trimAbortCmd (b : Nat) (r : Role) (s : State) : State :=
  let t := (s.bank b).trim
  if !roleAtLeast r .engineer then setTrim b (fun t => { t with result := 1 }) s
  else if t.state = .idle ∨ t.state = .writing then setTrim b (fun t => { t with result := 5 }) s
  else trimEnd b 0 s

/-- 30 min without a TRIM command (03 R96). -/
def trimTimeoutCmd (b : Nat) (s : State) : State :=
  let t := (s.bank b).trim
  if t.state = .idle ∨ t.state = .writing then s else trimEnd b 10 s

/-! ### One-time settings (02 R63, R66, R67) -/

/-- A programmed slot is recorded after its read-back: the audit record, a failed read-back, and the last slot
(02 R63, R66, R67). -/
def otpFinish (k : OtpBusy) (passed : Bool) (s : State) : State :=
  let slot := s.otpUsed k.item k.index
  let s1 := { s with otp := { s.otp with
    items := s.otp.items.upd (otpKey k.item k.index) (fun l => l ++ [{ bytes := k.value, passed := passed }])
    result := if k.by' = 0 ∨ k.by' = 5 then (if passed then 0 else 5) else s.otp.result
    busy := none } }
  let s2 := raise Ev.OTP_WRITE 0xFC (w32 (k.item + 256 * k.index + 65536 * slot)) k.origin s1
  let s3 := raiseIf (!passed) Ev.OTP_PROGRAM_FAIL 0xFC (k.item + 256 * k.index) s2
  raiseIf (slot + 2 == otpAllowed k.item) Ev.OTP_LAST_SLOT 0xFC (k.item + 256 * k.index) s3

/-- The programming of a trim set completes (03 R98). -/
def trimFinish (b : Nat) (passed : Bool) (s : State) : State :=
  match s.otp.busy with
  | none => s
  | some k =>
    if (k.by' != 3 && k.by' != 5) ∨ (s.bank b).trim.state ≠ .writing ∨ k.index / 16 ≠ b then s
    else
      let t := (s.bank b).trim
      let slot := s.otpUsed k.item k.index
      let s1 := otpFinish k passed s
      let s2 := if passed then raise Ev.TRIM_WRITTEN (chSrc b t.sel) (w32 (t.kind + 256 * slot)) k.origin s1 else s1
      trimEnd b (if passed then 0 else 9) s2

/-! ### Object blocks 0x02 to 0x04 and 0x0B (03 R99–R102; 06 R189) -/

/-- The entry whose quality CH_STATUS shows: the main entry of an input, the output entry of an output. -/
def mainEntry (s : State) (b c : Nat) : Qv :=
  if isOutMode (s.ch b c).mode then readRef s (.aoOut b c) else readRef s (.aiMain b c)

/-- CH_STATUS. In part by log 13 (DEDUCED, unsafe). -/
def chStatus (s : State) (b c : Nat) : Nat :=
  let x := s.ch b c
  let q := (mainEntry s b c).q
  x.mode + 256 * x.result + 65536 * qSub q + 4194304 * qClass q + 16777216 * b2n x.compLow + 33554432 * b2n x.backfeed
    + 67108864 * b2n x.rbMismatch + 134217728 * b2n x.stageOff + 268435456 * b2n x.ne43
    + 536870912 * b2n x.settling + 1073741824 * b2n (trimOpen s b c)

/-- The active correction of the kind selected (03 R102). -/
def trimActive (s : State) (b : Nat) : Nat :=
  let t := (s.bank b).trim
  let a := if t.kind = 3 ∨ (t.kind = 0 ∧ isInMode (s.ch b t.sel).mode) then inCal s b t.sel
    else if t.kind = 2 ∨ (t.kind = 0 ∧ 0x16 ≤ (s.ch b t.sel).mode) then outTrim s b t.sel false
    else outTrim s b t.sel true
  (trimWord a.1 a.2).toNat

/-- The code of a trim state. -/
def trimStateCode : TrimState → Nat
  | .idle => 0 | .point1 => 1 | .point2 => 2 | .computed => 3 | .writing => 4

/-- Blocks of a bank; `none` where no object is defined. -/
def bankObj (s : State) (b blk off : Nat) : Option Nat :=
  let k := s.bank b
  if blk = 2 then
    if off ≤ 0xFC then
      let c := off / 16
      let x := s.ch b c
      if off % 16 = 0 then some (chStatus s b c)
      else if off % 16 = 4 then some (s32 x.raw)
      else if off % 16 = 8 then some (if isOutMode x.mode then x.readback.toNat else 0)
      else some (if isCurMode x.mode then min 65535 x.supply + 65536 * min 65535 x.headroom
        else if x.mode = 2 then min 65535 x.supply else 0)
    else none
  else if blk = 3 then
    if off = 0 then
      some (k.straps + 4 * dirLock s b + 16 * k.effLock + 64 * k.lockSrc + 256 * b2n k.strapInvalid
        + 512 * b2n k.conflict + 1024 * b2n k.strapChanged)
    else if off = 4 then some (min 65535 (bankCharge s.img b))
    else if off = 8 then some (min 65535 (moduleCharge s.img))
    else if off = 0xC then some 0
    else if off = 0x10 then some (min 65535 k.rbCycle + 65536 * min 65535 k.rbMax)
    else none
  else if blk = 4 then
    if off = 0 then some k.trim.sel
    else if off = 4 then some 0
    else if off = 8 then some k.trim.meas.toNat
    else if off = 0xC then
      some (trimStateCode k.trim.state + 8 * b2n k.trim.averaging + 16 * k.trim.kind + 256 * k.trim.result)
    else if off = 0x10 then some (trimWord k.trim.newGain k.trim.newOffset).toNat
    else if off = 0x14 then some (trimActive s b)
    else if off = 0x18 then some (s.otpUsed 6 (16 * b + k.trim.sel) + 256 * s.otpUsed 7 (16 * b + k.trim.sel))
    else none
  else if blk = 0xB then
    if off ≤ 0x3C then
      let c := off / 4
      some (if isOutMode (s.ch b c).mode then
        wdCode (s.ch b c).wd.state + 65536 * min 65535 (wdLeft s (.aoOut b c)) else 0)
    else none
  else frontObj s b blk off

/-! ### Commands -/

/-- HEADROOM_MEASUREMENT. -/
def execHeadroomMeasurement (b : Fin 8) (c : Fin 16) (supply head : Nat) (s : State) :
    Host.Outcome State Fault Refusal := .next (headroom b.val c.val supply head s)
/-- CH_COMPLIANCE_LOW. -/
def execChComplianceLow (b : Fin 8) (c : Fin 16) (s : State) : Host.Outcome State Fault Refusal :=
  .next (compLow b.val c.val s)
/-- CH_COMPLIANCE_SHORTFALL. -/
def execChComplianceShortfall (b : Fin 8) (c : Fin 16) (ua : Nat) (s : State) : Host.Outcome State Fault Refusal :=
  .next (compShort b.val c.val ua s)
/-- CH_COMPLIANCE_OK. -/
def execChComplianceOk (b : Fin 8) (c : Fin 16) (s : State) : Host.Outcome State Fault Refusal :=
  .next (compOk b.val c.val s)
/-- READBACK_VISIT. -/
def execReadbackVisit (b : Fin 8) (c : Fin 16) (v : Visit) (s : State) : Host.Outcome State Fault Refusal :=
  .next (readbackVisit b.val c.val v s)
/-- CH_BACKFEED. -/
def execChBackfeed (b : Fin 8) (c : Fin 16) (mv : Int) (s : State) : Host.Outcome State Fault Refusal :=
  .next (backfeed b.val c.val mv s)
/-- CH_CLEAR. -/
def execChClear (b : Fin 8) (mask : BitVec 16) (r : Role) (s : State) : Host.Outcome State Fault Refusal :=
  .next (chClear b.val mask r s)
/-- STRAP_SENSE. -/
def execStrapSense (straps : List (Fin 4)) (s : State) : Host.Outcome State Fault Refusal := .next (strapSense straps s)
/-- TRIM_START_CURRENT. -/
def execTrimStartCurrent (b : Fin 8) (r : Role) (s : State) : Host.Outcome State Fault Refusal :=
  .next (trimStart b.val 1 r s)
/-- TRIM_START_VOLTAGE. -/
def execTrimStartVoltage (b : Fin 8) (r : Role) (s : State) : Host.Outcome State Fault Refusal :=
  .next (trimStart b.val 2 r s)
/-- TRIM_START_INPUT. -/
def execTrimStartInput (b : Fin 8) (r : Role) (s : State) : Host.Outcome State Fault Refusal :=
  .next (trimStart b.val 3 r s)
/-- TRIM_ACCEPT. -/
def execTrimAccept (b : Fin 8) (r : Role) (s : State) : Host.Outcome State Fault Refusal := .next (trimAccept b.val r s)
/-- TRIM_AVERAGE_DONE. -/
def execTrimAverageDone (b : Fin 8) (avg : F64) (s : State) : Host.Outcome State Fault Refusal :=
  .next (trimAverage b.val avg s)
/-- TRIM_WRITE. -/
def execTrimWrite (b : Fin 8) (r : Role) (s : State) : Host.Outcome State Fault Refusal := .next (trimWriteCmd b.val r s)
/-- TRIM_WRITTEN. -/
def execTrimWritten (b : Fin 8) (passed : Bool) (s : State) : Host.Outcome State Fault Refusal :=
  .next (trimFinish b.val passed s)
/-- TRIM_ABORT. -/
def execTrimAbort (b : Fin 8) (r : Role) (s : State) : Host.Outcome State Fault Refusal := .next (trimAbortCmd b.val r s)
/-- TRIM_TIMEOUT. -/
def execTrimTimeout (b : Fin 8) (s : State) : Host.Outcome State Fault Refusal := .next (trimTimeoutCmd b.val s)

end Sys2Proof.Machine
end

