-- ==== Sys2Proof/Machine/Time.lean ====
section
/-! DEFINITION. The time unit: servo, transparent clock, match units, CAN relation and first-out capture
(chapter 07). -/

namespace Sys2Proof.Machine

/-! ### Constants and configuration -/

/-- A port as a number: 0 PA, 1 PB. -/
def portNo : Port → Nat
  | .a => 0 | .b => 1
/-- The other port. -/
def otherPort : Port → Port
  | .a => .b | .b => .a
/-- The event source of a port. -/
def portSrc (p : Port) : Nat := 0xC8 + portNo p
/-- A port's number in TU_STATE[5:4]. -/
def portCode (p : Port) : Nat := portNo p + 1

/-- Stamp constant `i` of R223 in units of 0.125 ns: the image's, or the factory PHY latency. -/
def stampConst (s : State) (i : Nat) : Int :=
  match s.img.time.consts.look i with
  | some v => v
  | none => (Config.phyLatency i).toInt

/-- The constants of a port for the link speed in use: receive and transmit (07 R208). -/
def portConsts (s : State) (p : Port) : Int × Int :=
  let base := 4 * portNo p + (if (s.mmp.ports.look (portNo p)).speed = 2 then 2 else 0)
  (stampConst s base, stampConst s (base + 1))

/-- A corrected ingress stamp in 2⁻¹⁶ ns (07 R208). -/
def corrIn (s : State) (p : Port) (raw : Int) : Int := raw - (portConsts s p).1 * 8192
/-- A corrected egress stamp in 2⁻¹⁶ ns (07 R208). -/
def corrOut (s : State) (p : Port) (raw : Int) : Int := raw + (portConsts s p).2 * 8192

/-- The first field of the time record that is out of range: its row and element (07 R221). -/
def timeConfigBad (c : TimeCfg) : Option (Nat × Nat) :=
  let firstOf : Nat → Nat → (Nat → Bool) → Option (Nat × Nat) := fun row n p =>
    ((List.range n).find? p).map (fun e => (row, e))
  let badConst := fun i => match c.consts.look i with
    | some v => decide (v < -2147483648) || decide (2147483647 < v)
    | none => false
  let badEn := fun i => match c.capEn.look i with | some v => decide (1 < v) | none => false
  let badDelay := fun i => match c.capDelay.look i with | some v => decide (4000 < v) | none => false
  if 255 < c.domain then some (0, 0)
  else if 1 < c.portPref then some (1, 0)
  else match firstOf 2 8 badConst with
  | some r => some r
  | none => match firstOf 3 64 badEn with
  | some r => some r
  | none => match firstOf 4 64 badDelay with
  | some r => some r
  | none => match firstOf 5 64 (fun i => decide (1 < c.capSoe.look i)) with
  | some r => some r
  | none =>
    if 1 < c.capLogic then some (6, 0)
    else if 15 < c.capCan then some (7, 0)
    else if 3 < c.capPtp then some (8, 0)
    else none

/-- The image's capture enables: 1 on input rows where the field is omitted (07 R221). -/
def capEnImage (img : ImageCfg) : BitVec 64 :=
  (List.range 64).foldl (fun a p =>
    let on := match img.time.capEn.look p with
      | some v => v == 1
      | none => dpIsIn (img.points.look p).mode
    if on then a ||| ((1 : BitVec 64) <<< p) else a) 0

/-- The capture enables in force. -/
def capEn (s : State) : BitVec 64 := match s.tu.capEnSet with | some v => v | none => capEnImage s.img

/-- CAP_DELAY of a point in units of 0.125 ns. -/
def capDelay (s : State) (p : Nat) : Nat := match s.img.time.capDelay.look p with | some v => v | none => 1680

/-- The short time (07 R196). -/
def shortTime (s : State) : W32 := s.tu.time.setWidth 32

/-- An adjustment in ppb: one part in 10⁹ of 4 ns is 2³⁴ / 10⁹ units. -/
def adjPpb (a : Int) : Int := (a * 1000000000) / 17179869184

/-- A frame leaves on a port whose link is up: PORT_TX (15 R483). In part by log 48 (DEDUCED, unsafe). -/
def countTx (p : Port) (s : State) : State :=
  s.setMmp (fun m =>
    { m with ports := m.ports.upd (portNo p) (fun x => if x.up then { x with tx := wrap32 (x.tx + 1) } else x) })

/-- A frame of the module's own leaves on both ports with one HSR sequence number (15 R460).
In part by log 2 (DESIGN CHOICE, safe). -/
def ownFrame (s : State) : State :=
  countTx .b (countTx .a (s.setMmp (fun m => { m with hsrSeq := (m.hsrSeq + 1) % 65536 })))

/-- Something leaves the module on the ring: it is counted on its ports, and recorded as sent.
In part by log 2 (DESIGN CHOICE, safe). -/
def send (o : RingOut) (s : State) : State :=
  let s1 := s.setMmp (fun m => { m with sent := o :: m.sent })
  match o with
  | .pdelayReq p _ => countTx p s1
  | .pdelayResp p _ _ => countTx p s1
  | .forward p _ => countTx p s1
  | .ptpForward p _ _ => countTx p s1
  | _ => ownFrame s1

/-- A port's link. -/
def linkOf (s : State) (p : Port) : LinkSt := s.tu.links.look (portNo p)
/-- A port's link changed. -/
def setLink (p : Port) (f : LinkSt → LinkSt) (s : State) : State :=
  s.setTu (fun t => { t with links := t.links.upd (portNo p) f })

/-- The mean of the last 8 link delays in 2⁻¹⁶ ns (07 R205). -/
def meanDelay (l : LinkSt) : Int := if l.delays = [] then 0 else l.delays.sum / (l.delays.length : Int)

/-- A signed ns value of 2⁻¹⁶ ns, to nearest with ties upward. -/
def nsOf (v : Int) : Int := (v + 32768) / 65536

/-! ### Match units (07 R198–R201) -/

/-- A match unit. -/
def unitOf (s : State) (n : Nat) : MatchSt := s.tu.units.look n
/-- A match unit changed. -/
def setUnit (n : Nat) (f : MatchSt → MatchSt) (s : State) : State :=
  s.setTu (fun t => { t with units := t.units.upd n f })

/-- A unit fires and performs its action (07 R200). -/
def fireUnit (n : Nat) (late stepped : Bool) (s : State) : State :=
  let u := unitOf s n
  let s1 := raiseN Ev.TU_MATCH 0xCA (n + 256 * b2n late + 512 * b2n stepped) s
  let mask : BitVec 64 := u.mask0.setWidth 64 ||| (u.mask1.setWidth 64 <<< 32)
  let s2 := if u.action = 1 then s1.setTu (fun t => { t with capEnSet := some (capEn s1 ||| mask) })
    else if u.action = 2 then s1.setTu (fun t => { t with capEnSet := some (capEn s1 &&& ~~~mask) })
    else s1
  setUnit n (fun u =>
    { u with
      late := late, stepped := stepped, firings := satInc top16 u.firings
      target := if u.period = 0 then u.target else u.target + u.period
      armed := u.period != 0 }) s2

/-- A unit is armed; a target at or before the short time fires at once, late (07 R199). -/
def armUnit (n : Nat) (s : State) : State :=
  let s1 := setUnit n (fun u => { u with armed := true, firings := 0, late := false, stepped := false }) s
  if sdiff32 (unitOf s n).target (shortTime s) ≤ 0 then fireUnit n true false s1 else s1

/-- After a step of the time word, armed units whose target lies at or before it fire at once (07 R201). -/
def unitsAfterStep (s : State) : State :=
  forRange 8 (fun n t =>
    if (unitOf t n).armed && decide (0 ≤ sdiff32 (shortTime t) (unitOf t n).target) then fireUnit n false true t
    else t) s

/-- MATCH_ARM from a sender of role `r` (07 R200). -/
def matchArm (n : Nat) (r : Role) (s : State) : State :=
  if roleAtLeast r .engineer && s.live .time then armUnit n s else s

/-- The short time reaches a unit's target (07 R200). -/
def matchReached (n : Nat) (s : State) : State :=
  if (unitOf s n).armed && s.live .time then fireUnit n false false s else s

/-! ### Servo (07 R204, R210, R211) -/

/-- An adjustment limited to ± `ppm`. -/
def limitAdj (ppm : Int) (a : Int) : Int :=
  let lim := ppm * 17179869184 / 1000000
  max (-lim) (min lim a)

/-- The servo takes a new adjustment, within the limit of its state. -/
def adjust (ppm : Int) (s : State) : State :=
  let a := limitAdj ppm (Config.servoAdj s.freeCount).toInt
  { s with
    freeCount := s.freeCount + 1
    tu := { s.tu with adj := a, adjs := (a :: s.tu.adjs).take 16 } }

/-- A signed value saturated to 32 bits, as a word. -/
def satWord (v : Int) : Nat := s32 (sat32s v)

/-- The time word is stepped to master time (07 R210, R211). In part by log 32 (DEDUCED, unsafe). -/
def stepTime (off : Int) (s : State) : State :=
  let s1 := s.setTu (fun t =>
    { t with
      time := t.time + BitVec.ofInt 64 off, valid := true, steps := wrap32 (t.steps + 1), steppedSince := true
      lockRun := 0 })
  unitsAfterStep (raiseN Ev.TU_STEPPED 0xCA (satWord off) s1)

/-- A valid Sync of offset `off` moves the servo (07 R210). In part by log 32 (DEDUCED, unsafe). -/
def servoSync (off : Int) (s0 : State) : State :=
  let s := s0.setTu (fun t => { t with offset := off })
  match s.tu.servo with
  | .free => stepTime off (s.setTu (fun t => { t with servo := .locking }))
  | .locking =>
    if 1000000 < off.natAbs then stepTime off s
    else
      let run := if off.natAbs ≤ 100 then s.tu.lockRun + 1 else 0
      if 8 ≤ run then
        raiseN Ev.TU_LOCKED 0xCA (satWord off)
          ((adjust 500 s).setTu (fun t => { t with servo := .locked, lockRun := 0, unlockRun := 0 }))
      else (adjust 500 s).setTu (fun t => { t with lockRun := run })
  | .locked =>
    let run := if 1000 < off.natAbs then s.tu.unlockRun + 1 else 0
    if 4 ≤ run then
      raiseN Ev.TU_UNLOCKED 0xCA (satWord off)
        ((adjust 20 s).setTu (fun t => { t with servo := .locking, lockRun := 0, unlockRun := 0 }))
    else (adjust 20 s).setTu (fun t => { t with unlockRun := run })
  | .holdover =>
    let s1 := s.setTu (fun t => { t with servo := .locking, lockRun := 0 })
    if 1000000 < off.natAbs then stepTime off s1 else adjust 500 s1

/-- A Sync of the chosen master within the last 2 Sync intervals on a port with a valid link delay (07 R204). -/
def portServes (s : State) (p : Port) : Bool :=
  (linkOf s p).valid
    && (match (linkOf s p).lastSync with
        | some t => decide (s.now ≤ t + 2 * (linkOf s p).interval)
        | none => false)

/-- The preferred time port. -/
def prefPort (s : State) : Port := if s.img.time.portPref = 1 then .b else .a

/-- The active time port by 07 R204: 0 none, 1 PA, 2 PB. In part by log 32 (DEDUCED, unsafe). -/
def choosePort (s : State) : Nat :=
  let p := prefPort s
  let q := otherPort p
  if s.tu.activePort = portCode p then
    if portServes s p then portCode p
    else if (linkOf s q).valid then portCode q
    else if (linkOf s p).valid then portCode p else 0
  else if s.tu.activePort = portCode q then
    if portServes s p && decide (16 ≤ (linkOf s p).syncRun) then portCode p
    else if (linkOf s q).valid then portCode q
    else if portServes s p then portCode p else 0
  else if portServes s p then portCode p
  else if portServes s q then portCode q
  else 0

/-- The active time port is chosen again; a change is reported (07 R204). In part by log 32 (DEDUCED, unsafe). -/
def updatePort (s : State) : State :=
  let n := choosePort s
  if n = s.tu.activePort then s
  else raiseIf (n != 0) Ev.TU_PORT_SWITCH 0xCA n (s.setTu (fun t => { t with activePort := n }))

/-- A Sync of the module's domain from the chosen master (07 R204, R210). -/
def syncIn (m : SyncMsg) (s : State) : State :=
  if !s.live .time || m.domain != s.img.time.domain || s.tu.gm != some m.gm then s
  else
    let l := linkOf s m.port
    let inTime := match l.lastSync with | some t => decide (s.now ≤ t + 2 * m.interval) | none => false
    let s1 := setLink m.port (fun l =>
      { l with lastSync := some s.now, interval := m.interval, syncRun := if inTime then l.syncRun + 1 else 1 }) s
    let s2 := updatePort s1
    if s2.tu.activePort != portCode m.port || !(linkOf s2 m.port).valid then s2
    else
      let master := (m.origin : Int) * 65536 + m.corr + meanDelay (linkOf s2 m.port)
      servoSync (nsOf (master - corrIn s2 m.port m.ingress)) s2

/-- No valid Sync for 3 s (07 R210). In part by log 32 (DEDUCED, unsafe). -/
def holdover (s : State) : State :=
  match s.tu.servo with
  | .locking | .locked =>
    let n := s.tu.adjs.length
    let mean := if n = 0 then s.tu.adj else s.tu.adjs.sum / (n : Int)
    raiseN Ev.TU_HOLDOVER 0xCA 0
      (s.setTu (fun t => { t with servo := .holdover, adj := mean, holdAt := s.now, announces := [], lockRun := 0 }))
  | _ => s

/-- The order of two Announce datasets: true when `a` is better than `b` (07 R202).
In part by log 11 (PRESUMED, unsafe). -/
def betterMaster (a b : Announce) : Bool :=
  let k : Announce → List Nat := fun x =>
    [x.prio1, x.clockClass, x.accuracy, x.variance, x.prio2, x.gm.toNat, x.stepsRemoved, portNo x.port]
  decide (k a < k b)

/-- The best of a list of datasets. In part by log 11 (PRESUMED, unsafe). -/
def bestMaster : List Announce → Option Announce
  | [] => none
  | a :: r => match bestMaster r with
    | none => some a
    | some b => some (if betterMaster b a then b else a)

/-- An Announce of the module's domain (07 R202, R210).
In part by log 11 (PRESUMED, unsafe) and log 32 (DEDUCED, unsafe). -/
def announceIn (a : Announce) (s : State) : State :=
  if !s.live .time || a.domain != s.img.time.domain then s
  else
    let l := a :: s.tu.announces.filter (fun x => !(x.gm == a.gm && x.port == a.port))
    match bestMaster l with
    | none => s
    | some b =>
      let changed := s.tu.announces.isEmpty || s.tu.gm != some b.gm
      let s1 := s.setTu (fun t =>
        { t with
          announces := l, gm := some b.gm, utcOffset := b.utcOffset, utcValid := b.utcValid
          lockRun := if changed then 0 else t.lockRun })
      raiseIf changed Ev.TU_GM_CHANGED 0xCA (b.gm.toNat % 4294967296) s1

/-! ### Link delay and transparent clock (07 R205–R208) -/

/-- A received Pdelay_Req is answered (07 R205). -/
def pdelayReqIn (p : Port) (seq : Nat) (corr ingress egress : Int) (s : State) : State :=
  if s.live .ring then send (.pdelayResp p seq (corr + (corrOut s p egress - corrIn s p ingress))) s else s

/-- A port's link delay becomes invalid (07 R205). -/
def linkLost (p : Port) (s : State) : State :=
  updatePort
    (raiseIf (linkOf s p).valid Ev.PTP_PDELAY_LOST (portSrc p) 0
      (setLink p (fun l => { l with valid := false, validRun := 0 }) s))

/-- A port starts its link delay measurement; a response still missing counts (07 R205). -/
def pdelayStart (p : Port) (egress : Int) (s : State) : State :=
  if !s.live .ring then s
  else
    let l := linkOf s p
    let missing := if l.pending.isSome then l.missing + 1 else l.missing
    let seq := (l.seq + 1) % 65536
    let s1 := setLink p (fun l => { l with missing := missing, seq := seq, pending := some seq, t1 := corrOut s p egress }) s
    let s2 := if 3 ≤ missing ∧ l.missing < 3 then linkLost p s1 else s1
    send (.pdelayReq p seq) s2

/-- A Pdelay_Resp completes a measurement (07 R205). In part by log 32 (DEDUCED, unsafe). -/
def pdelayRespIn (p : Port) (seq : Nat) (corr t2 t3 t4 : Int) (s : State) : State :=
  let l := linkOf s p
  if l.pending != some seq || !s.live .ring then s
  else
    let d := ((corrIn s p t4 - l.t1) - (t3 - t2) - corr) / 2
    let s1 := setLink p (fun l => { l with pending := none, missing := 0, delays := (d :: l.delays).take 8 }) s
    let mean := meanDelay (linkOf s1 p)
    if 10000 * 65536 < mean then linkLost p (setLink p (fun l => { l with validRun := 0 }) s1)
    else
      let run := if 10000 * 65536 < d then 0 else l.validRun + 1
      let s2 := setLink p (fun l => { l with validRun := run }) s1
      if !l.valid && decide (3 ≤ run) then
        updatePort
          (raiseN Ev.PTP_PDELAY_OK (portSrc p) (satWord (nsOf mean))
            (setLink p (fun l => { l with valid := true }) s2))
      else s2

/-- True for the entry of the two-step table that a Follow_Up names. -/
def twoStepKey (srcId seq domain : Nat) (e : TwoStep) : Bool :=
  e.srcId == srcId && e.seq == seq && e.domain == domain

/-- A Follow_Up without an entry is dropped (07 R207). -/
def followUpDrop (p : Port) (seq : Nat) (s : State) : State :=
  raiseN Ev.TC_FU_UNMATCHED (portSrc p) (seq % 65536) (s.setTu (fun t => { t with tcDrop := wrap32 (t.tcDrop + 1) }))

/-- A Follow_Up is corrected and forwarded, or dropped (07 R207). In part by log 32 (DEDUCED, unsafe). -/
def followUpIn (p : Port) (srcId seq domain : Nat) (corr : Int) (s : State) : State :=
  if !s.live .ring then s
  else match s.tu.twoStep.find? (twoStepKey srcId seq domain) with
  | some e =>
    send (.ptpForward (otherPort p) seq (corr + e.sum))
      (s.setTu (fun t =>
        { t with twoStep := t.twoStep.filter (fun x => !twoStepKey srcId seq domain x), tcFwd := wrap32 (t.tcFwd + 1) }))
  | none => followUpDrop p seq s

/-- A two-step entry is freed after 1 s (07 R207). -/
def twoStepFree (srcId seq domain : Nat) (s : State) : State :=
  s.setTu (fun t => { t with twoStep := t.twoStep.filter (fun x => !twoStepKey srcId seq domain x) })

/-- A two-step Sync enters the table of 16; when it is full the oldest entry is freed (07 R207). -/
def twoStepAdd (e : TwoStep) (s : State) : State :=
  s.setTu (fun t =>
    let l := t.twoStep.filter (fun x => !twoStepKey e.srcId e.seq e.domain x)
    { t with twoStep := (if l.length < 16 then l else l.drop 1) ++ [e] })

/-- The residence time of a frame that came in on `p` and leaves on the other port, in 2⁻¹⁶ ns (07 R208). -/
def residence (s : State) (p : Port) (ingress egress : Int) : Int := corrOut s (otherPort p) egress - corrIn s p ingress

/-- The link delay that a forwarded message takes of its ingress port; none while it is invalid (07 R205, R206). -/
def linkTerm (s : State) (p : Port) : Int := if (linkOf s p).valid then meanDelay (linkOf s p) else 0

/-- A residence beyond 1 ms (07 R209). -/
def tooLate (r : Int) : Bool := decide (1000000 * 65536 < r)

/-- TC_RES_MAX and, for a late frame, TC_LATE take note of a residence (07 R209, R223). -/
def noteResidence (r : Int) (s : State) : State :=
  s.setTu (fun t =>
    { t with
      tcResMax := min top32 (max t.tcResMax (nsOf r).toNat)
      tcLate := if tooLate r then wrap32 (t.tcLate + 1) else t.tcLate })

/-- The sequenceId of a Follow_Up that has no entry in the two-step table (07 R207). -/
def unmatched (x : Option PtpFrame) (s : State) : Option Nat :=
  match x with
  | some (.followUp srcId seq domain _) => if s.tu.twoStep.any (twoStepKey srcId seq domain) then none else some seq
  | _ => none

/-- A PTP message that came in on `p` leaves on the other port as the transparent clock makes it (07 R206, R207, R209).
A late two-step Sync keeps a sum of 0, so its Follow_Up is not corrected either.
In part by log 32 (DEDUCED, unsafe). -/
def ptpOut (p : Port) (id : Nat) (x : PtpFrame) (s : State) : State :=
  match x with
  | .oneStep corr ingress egress =>
    let r := residence s p ingress egress
    if tooLate r then send (.forward (otherPort p) id) (noteResidence r s)
    else
      send (.ptpForward (otherPort p) id (corr + r + linkTerm s p))
        ((noteResidence r s).setTu (fun t => { t with tcFwd := wrap32 (t.tcFwd + 1) }))
  | .twoStep srcId seq domain ingress egress =>
    let r := residence s p ingress egress
    send (.forward (otherPort p) id)
      (twoStepAdd
        { srcId := srcId, seq := seq, domain := domain, sum := if tooLate r then 0 else r + linkTerm s p, at' := s.now }
        (noteResidence r s))
  | .followUp srcId seq domain corr =>
    match s.tu.twoStep.find? (twoStepKey srcId seq domain) with
    | some e =>
      send (.ptpForward (otherPort p) id (corr + e.sum))
        (s.setTu (fun t =>
          { t with
            twoStep := t.twoStep.filter (fun x => !twoStepKey srcId seq domain x), tcFwd := wrap32 (t.tcFwd + 1) }))
    | none => s

/-! ### CAN relation and time reads (07 R195, R197) -/

/-- The CAN stamp: 40 MHz of the TCXO (07 R197). In part by log 60 (DEDUCED, unsafe). -/
def canStampNow (s : State) : W32 := w32 (s.tu.mono / 25)

/-- The CAN stamp and the time word are captured together (07 R197). -/
def canrel (s : State) : State :=
  s.setTu (fun t =>
    { t with canSeq := wrap32 (t.canSeq + 2), canStamp := canStampNow s, canTime := t.time, canRate := adjPpb t.adj })

/-- A read of TIME_LO latches TIME_HI (07 R195). In part by log 32 (DEDUCED, unsafe). -/
def latchTime (s : State) : State := s.setTu (fun t => { t with hiLatch := t.time.extractLsb' 32 32 })

/-! ### First-out capture (07 R213–R220) -/

/-- Word 2 of a capture entry (07 R216). -/
def capWord2 (e : CapEntry) : Nat :=
  e.source + 256 * b2n e.bit8 + 512 * b2n e.short + 1024 * b2n e.timeValid + 2048 * b2n e.locked + 4096 * b2n e.stepped
    + 8192 * b2n e.lostBefore
    + 16384 * (match e.kind with | .digital => 0 | .can => 1 | .ptp => 2) + 65536 * e.seq

/-- The entries that a consumer in RUN still has to take (07 R218). -/
def fifoHeld (s : State) : List CapEntry :=
  (s.tu.fifo.map (fun e =>
    { e with forAlarm := e.forAlarm && s.running .alarm, forLogic := e.forLogic && s.running .logic })).filter
    (fun e => e.forAlarm || e.forLogic)

/-- An entry is written to the FIFO, or lost when it is full (07 R216–R219). In part by log 33 (DEDUCED, unsafe). -/
def capWrite (e0 : CapEntry) (soe : Bool) (s0 : State) : State :=
  let s := s0.setTu (fun t => { t with fifo := fifoHeld s0 })
  if 1024 ≤ s.tu.fifo.length then
    let lost := satInc top32 s.tu.capLost
    raiseIf (!s.tu.capOver) Ev.CAP_OVERFLOW 0xCA lost
      (s.setTu (fun t => { t with capLost := lost, capEpisode := t.capEpisode + 1, capOver := true }))
  else
    let after := s.tu.capEpisode != 0
    let e : CapEntry :=
      { e0 with
        timeValid := s.tu.valid, locked := s.tu.servo == .locked, stepped := s.tu.steppedSince, lostBefore := after
        seq := s.tu.capSeq, forAlarm := s.running .alarm, forLogic := s.img.time.capLogic == 1 && s.running .logic }
    let keep := e.forAlarm || e.forLogic
    let fill := s.tu.fifo.length + b2n keep
    let s1 := s.setTu (fun t =>
      { t with
        fifo := if keep then t.fifo ++ [e] else t.fifo
        fifoMax := max t.fifoMax fill, capSeq := (t.capSeq + 1) % 65536, steppedSince := false
        capEpisode := 0, capOver := false, newest := (e :: t.newest).take 64 })
    let s2 := raiseIf after Ev.CAP_RESUMED 0xCA s.tu.capEpisode s1
    if soe && s.running .recorder then raiseAt e.stamp Ev.CAP_EDGE e.source (w32 (capWord2 e)) .module s2 else s2

/-- FILT_N / f_f of a point in ns (06 R169). -/
def filtNs (r : DpCfg) : Nat := r.filtN * (if r.filtClk = 0 then 1000 else 100000)

/-- A stamp from a latched value in ns and a delay in units of 0.125 ns, to the nearest ns with ties upward
(07 R214). In part by log 33 (DEDUCED, unsafe). -/
def stampOf (latched delay : Nat) : W64 := BitVec.ofInt 64 ((8 * (latched : Int) - delay + 4) / 8)

/-- An edge, a start of frame or a PTP event message is captured (07 R213, R216).
In part by log 30, 33 (DEDUCED, unsafe). -/
def capture (c : CapSource) (s : State) : State :=
  if !s.running .time then s
  else
    match c with
    | .edge g p latched rising dur =>
      let i := 8 * g + p
      if i < 64 && (capEn s).getLsbD i then
        capWrite
          { stamp := stampOf latched (capDelay s i), source := 0x80 + i, bit8 := rising, kind := .digital
            short := decide (dur < filtNs (s.dpCfg g p)), word3 := w32 (min dur top32) }
          (s.img.time.capSoe.look i == 1) s
      else s
    | .sof k =>
      if k < 4 && bitOf k s.img.time.capCan then
        capWrite { stamp := s.tu.time, source := 0xC4 + k, kind := .can, word3 := canStampNow s } false s
      else s
    | .ptp port egress ty seq =>
      if bitOf (portNo port) s.img.time.capPtp && (ty == 0 || ty == 2 || ty == 3) then
        capWrite
          { stamp := s.tu.time, source := portSrc port, bit8 := egress, kind := .ptp
            word3 := w32 (seq % 65536 + 65536 * ty) } false s
      else s

/-! ### Reset of the time unit (07 R194, R227) -/

/-- The FIFO emptied into CAP_LOST (07 R227; 20 R591). -/
def fifoDump (s : State) : State :=
  let n := (fifoHeld s).length
  s.setTu (fun t =>
    { t with fifo := [], capLost := min top32 (t.capLost + n), capEpisode := t.capEpisode + n })

/-- A function reset of 0x05 (07 R227). -/
def resetTime (s : State) : State :=
  (fifoDump s).setTu (fun t =>
    { t with
      servo := if t.valid then .locking else .free
      lockRun := 0, unlockRun := 0, units := [], twoStep := [], capEnSet := none })

/-! ### Object blocks (07 R222–R225) -/

/-- A link delay in TU_PATH; 0 before the first measurement. In part by log 32 (DEDUCED, unsafe). -/
def pathWord (l : LinkSt) : Nat :=
  if l.valid then s32 (meanDelay l / 8192) else if l.delays.isEmpty && decide (l.missing < 3) then 0 else 0xFFFFFFFF

/-- The code of a servo state. -/
def servoCode : Servo → Nat
  | .free => 0 | .locking => 1 | .locked => 2 | .holdover => 3

/-- Block 0x02 of the time unit. -/
def timeBlock2 (s : State) (off : Nat) : Option Nat :=
  let t := s.tu
  let gm := match t.gm with | some g => g.toNat | none => 0
  [(0x00, t.time.toNat % 4294967296), (0x04, t.hiLatch.toNat),
   (0x08, servoCode t.servo + 8 * b2n t.valid + 16 * t.activePort),
   (0x0C, satWord t.offset), (0x10, s32 (adjPpb t.adj)),
   (0x14, pathWord (linkOf s .a)), (0x18, pathWord (linkOf s .b)),
   (0x1C, if t.servo == .holdover then (s.now - t.holdAt) / 1000000000 else 0),
   (0x20, t.steps), (0x24, gm / 4294967296), (0x28, gm % 4294967296),
   (0x2C, t.utcOffset % 65536 + 65536 * b2n t.utcValid),
   (0x30, t.canSeq), (0x34, t.canStamp.toNat), (0x38, t.canTime.toNat % 4294967296),
   (0x3C, t.canTime.toNat / 4294967296), (0x40, s32 t.canRate), (0x44, (canStampNow s).toNat)].lookup off

/-- Blocks of the time unit; `none` where no object is defined. -/
def timeObj (s : State) (blk off : Nat) : Option Nat :=
  let t := s.tu
  if blk = 2 then timeBlock2 s off
  else if blk = 3 then
    if off ≤ 0x1C then some (s32 (stampConst s (off / 4)))
    else if off = 0x20 then some t.tcFwd
    else if off = 0x24 then some t.tcDrop
    else if off = 0x28 then some t.tcLate
    else if off = 0x2C then some t.tcResMax
    else none
  else if blk = 4 then
    if 0x100 ≤ off then none
    else
      let u := unitOf s (off / 0x20)
      let k := off % 0x20
      if k = 0 then some u.target.toNat
      else if k = 4 then some u.period.toNat
      else if k = 8 then some (b2n u.armed + 2 * u.action)
      else if k = 0xC then some (b2n u.armed + 2 * b2n u.late + 4 * b2n u.stepped + 65536 * u.firings)
      else if k = 0x10 then some u.mask0.toNat
      else if k = 0x14 then some u.mask1.toNat
      else none
  else if blk = 5 then
    if off = 0 then some ((capEn s).toNat % 4294967296)
    else if off = 4 then some ((capEn s).toNat / 4294967296)
    else if off = 8 then some ((fifoHeld s).length + 65536 * t.fifoMax)
    else if off = 0xC then some t.capLost
    else none
  else if blk = 6 then
    if 0x400 ≤ off then none
    else
      match t.newest[off / 16]? with
      | none => some 0
      | some e =>
        let k := off % 16
        some (if k = 0 then e.stamp.toNat % 4294967296 else if k = 4 then e.stamp.toNat / 4294967296
          else if k = 8 then capWord2 e else e.word3.toNat)
  else if blk = 7 then (if off ≤ 0xFC then some (capDelay s (off / 4)) else none)
  else none

/-! ### Commands -/

/-- SYNC. -/
def execSync (m : SyncMsg) (s : State) : Host.Outcome State Fault Refusal := .next (syncIn m s)
/-- TU_HOLDOVER. -/
def execTuHoldover (s : State) : Host.Outcome State Fault Refusal := .next (holdover s)
/-- ANNOUNCE. -/
def execAnnounce (a : Announce) (s : State) : Host.Outcome State Fault Refusal := .next (announceIn a s)
/-- FOLLOW_UP. -/
def execFollowUp (port : Port) (srcId seq domain : Nat) (corr : Int) (s : State) : Host.Outcome State Fault Refusal :=
  .next (followUpIn port srcId seq domain corr s)
/-- TWO_STEP_EXPIRY. -/
def execTwoStepExpiry (srcId seq domain : Nat) (s : State) : Host.Outcome State Fault Refusal :=
  .next (twoStepFree srcId seq domain s)
/-- PDELAY_REQ. -/
def execPdelayReq (port : Port) (seq : Nat) (corr ingress egress : Int) (s : State) : Host.Outcome State Fault Refusal :=
  .next (pdelayReqIn port seq corr ingress egress s)
/-- PDELAY_MEASUREMENT. -/
def execPdelayMeasurement (port : Port) (egress : Int) (s : State) : Host.Outcome State Fault Refusal :=
  .next (pdelayStart port egress s)
/-- PDELAY_RESP. -/
def execPdelayResp (port : Port) (seq : Nat) (corr t2 t3 t4 : Int) (s : State) : Host.Outcome State Fault Refusal :=
  .next (pdelayRespIn port seq corr t2 t3 t4 s)
/-- CANREL_CAPTURE. -/
def execCanrelCapture (s : State) : Host.Outcome State Fault Refusal := .next (canrel s)
/-- MATCH_ARM. -/
def execMatchArm (n : Fin 8) (r : Role) (s : State) : Host.Outcome State Fault Refusal := .next (matchArm n.val r s)
/-- TU_MATCH. -/
def execTuMatch (n : Fin 8) (s : State) : Host.Outcome State Fault Refusal := .next (matchReached n.val s)
/-- TIME_LO_READ. -/
def execTimeLoRead (s : State) : Host.Outcome State Fault Refusal := .next (latchTime s)
/-- FIRST_OUT_CAPTURE. -/
def execFirstOutCapture (c : CapSource) (s : State) : Host.Outcome State Fault Refusal := .next (capture c s)

end Sys2Proof.Machine
end

