-- ==== Sys2Proof/Machine/Unit.lean ====
section
/-! DEFINITION. The unit of work that every engine shares: the samples of its asynchronous entries and the
divergence state of an entry (10 R303–R306). -/

namespace Sys2Proof.Machine

/-- The divergence state of an entry changed. -/
def State.setDiv (s : State) (i : Nat) (f : DivSt → DivSt) : State := { s with div := s.div.upd i f }

/-- The comparator state of an engine changed. -/
def State.setTrx (s : State) (e : Nat) (f : TrxSt → TrxSt) : State := { s with trx := s.trx.upd e f }

/-- The code of an engine (10 R318). -/
def engineCode : Engine → Nat
  | .logic => 0 | .loop => 1 | .bedrock => 2 | .alarm => 3

/-- The function that an engine is. -/
def engineFn : Engine → Fn
  | .logic => .logic | .loop => .loop | .bedrock => .bedrock | .alarm => .alarm

/-- The asynchronous entries of a list with what pass P samples now (10 R303). In part by log 38 (DEDUCED, unsafe). -/
def sampleAsync (s : State) (reads : List Nat) : List (Nat × Qv) :=
  (reads.filter (fun i => (s.lay i).async)).map (fun i => (i, readEntry s i))

/-- One pair of raw samples of an entry (10 R306): sixteen consecutive equal pairs clear its flag.
In part by log 38 (DEDUCED, unsafe). -/
def divPair (i : Nat) (equal : Bool) (s : State) : State :=
  let d := s.div.look i
  if !d.flag then s
  else if !equal then s.setDiv i (fun x => { x with run := 0 })
  else if 16 ≤ d.run + 1 then
    raiseN Ev.DIVERGENCE_CLEARED 0xFA (i % 32768)
      (s.setDiv i (fun x => { x with flag := false, count := 0, run := 0 }))
  else s.setDiv i (fun x => { x with run := x.run + 1 })

/-- The repeat that an entry caused compares equal (10 R304 step 4, R305). -/
def divBump (e : Engine) (unit i : Nat) (s : State) : State :=
  let c := min 15 ((s.div.look i).count + 1)
  let limit := (s.lay i).divLimit
  let s1 := raiseN Ev.DIVERGENCE_REPEAT 0xFA (i % 32768 + 65536 * engineCode e + 16777216 * (unit % 256))
    (s.setDiv i (fun x => { x with count := c }))
  if limit ≤ c && !(s.div.look i).flag then
    raiseN Ev.DIVERGENCE_LIMIT 0xFA (i % 32768 + 65536 * (limit % 16))
      (s1.setDiv i (fun x => { x with flag := true, run := 0 }))
  else s1

/-- The last segment of a unit compares equal (10 R304–R306). A first run clears the counters of the entries that
it loaded and counts an equal pair of each flagged one; a repeat counts against the entry that caused it. -/
def unitEqual (e : Engine) (n : Nat) (u : UnitRun) (s : State) : State :=
  if u.done then s
  else if u.repeated then
    match u.divEntry with
    | some i => divBump e n i s
    | none => s
  else
    forAll u.samples (fun p t =>
      if (t.div.look p.1).flag then (if u.paired then t else divPair p.1 true t)
      else t.setDiv p.1 (fun x => { x with count := 0 })) s

end Sys2Proof.Machine
end

