-- ==== Sys2Proof/Machine/Logic.lean ====
section
/-! DEFINITION. The logic engine (chapter 09): tasks, releases, instances, event queues, faults and restarts. -/

namespace Sys2Proof.Machine

/-- A task changed. -/
def State.setTask (s : State) (n : Nat) (f : TaskSt → TaskSt) : State :=
  s.setLogic (fun l => { l with tasks := l.tasks.upd n f })

/-- The state of task `n`. -/
def taskOf (s : State) (n : Nat) : TaskSt := s.logic.tasks.look n

/-- The configuration of task `n`. -/
def taskCfg (s : State) (n : Nat) : TaskCfg := s.img.logic.tasks.look n

/-- Raises an event of the engine on LE_SRC (09 R293). -/
def raiseLe (k : EvKind) (data : Nat) (s : State) : State := raiseN k s.img.logic.leSrc data s

/-! ### Image-level checks (09 R265, R266; 10 R301, R305) -/

/-- A task's fields lie in their ranges. -/
def taskCfgOk (img : ImageCfg) (n : Nat) (c : TaskCfg) : Bool :=
  match c.kind with
  | .periodic => n < 16 && c.prio ≤ 15 && 2 ≤ c.n && c.n ≤ 40000 && c.phase < c.n
  | .event =>
    16 ≤ n && n < 32 && c.prio ≤ 15 && c.evtSrc ≤ 0xFE && c.evtKind ≤ 1 && c.evtMask < 65536 && c.evtMatch < 65536
      && 1 ≤ c.evtEdge && c.evtEdge ≤ 3 && 1 ≤ c.evtDepth && c.evtDepth ≤ 16
      && (c.evtKind == 0
        || (img.time.capLogic == 1
          && ((0x80 ≤ c.evtSrc && c.evtSrc ≤ 0xBF) || (0xC4 ≤ c.evtSrc && c.evtSrc ≤ 0xC9))))
  | .background => n == 32
  | .unused => true

/-- The logic program and the layout can run on the engine. -/
def logicImageOk (img : ImageCfg) : Bool :=
  let l := img.logic
  l.tasks.all (fun p => taskCfgOk img p.1 p.2)
    && l.bgFloor ≤ 10000 && 10 ≤ l.bgWd && l.bgWd ≤ 1000 && 0xD0 ≤ l.leSrc && l.leSrc ≤ 0xDF
    && l.progBytes ≤ 1048576 && l.dataBytes ≤ 524288
    && decide ((l.tasks.map (fun p => p.2.writeSet)).sum ≤ 65536)
    && img.layout.all (fun p => p.1 < 32768 && (!p.2.async || (1 ≤ p.2.divLimit && p.2.divLimit ≤ 15)))

/-! ### Scheduling (09 R268, R269) -/

/-- True for a task with an instance in progress. -/
def inProgress (t : TaskSt) : Bool := t.state == .running || t.state == .preempted

/-- The priority of a task; the background cycle stands after every other. -/
def taskPrio (s : State) (n : Nat) : Nat := if n = 32 then 16 else (taskCfg s n).prio

/-- True when task `a` runs before task `b`: priority, then release, then number. -/
def before (s : State) (a b : Nat) : Bool :=
  let pa := taskPrio s a
  let pb := taskPrio s b
  let ta := (taskOf s a).t0
  let tb := (taskOf s b).t0
  decide (pa < pb) || (pa == pb && (decide (ta < tb) || (ta == tb && decide (a < b))))

/-- True when no other ready or unfinished instance runs before task `n`. -/
def chosen (s : State) (n : Nat) : Bool :=
  s.logic.tasks.all fun p =>
    p.1 == n || !(p.2.state == .ready || inProgress p.2) || before s n p.1

/-- The engine takes up again the preempted instance that is chosen now, if it is the first of all. -/
def resumeChosen (s : State) : State :=
  match s.logic.tasks.find? (fun p => p.2.state == .preempted && chosen s p.1) with
  | some p => s.setTask p.1 (fun t => { t with state := .running })
  | none => s

/-- True while an instance of any task is in progress; `bg` counts the background cycle too. -/
def instanceRunning (s : State) (bg : Bool) : Bool :=
  s.logic.tasks.any fun p => inProgress p.2 && (bg || p.1 != 32)

/-- An instance of task `n` becomes ready with release instant `t0`. -/
def makeReady (n t0 : Nat) (s : State) : State :=
  s.setTask n (fun t => { t with state := .ready, t0 := t0, heldRelease := false, unit := {} })

/-- A release of task `n` at `t0`: it waits in a hold, is skipped over an unfinished instance, or makes the task
ready (09 R269, R275; 02 R56). In part by log 37 (DEDUCED, unsafe). -/
def releaseTask (n t0 : Nat) (s : State) : State :=
  match (taskOf s n).state with
  | .fault => s
  | .waiting =>
    if s.logic.held then s.setTask n (fun t => { t with heldRelease := true }) else makeReady n t0 s
  | _ =>
    if s.logic.held then s.setTask n (fun t => { t with heldRelease := true })
    else
      raiseLe Ev.TASK_OVERRUN n (s.setTask n (fun t => { t with ovr := satInc top32 t.ovr }))

/-- A waiting event task with an item in its queue becomes ready. -/
def wakeEvent (n : Nat) (s : State) : State :=
  let t := taskOf s n
  match t.queue with
  | [] => s
  | i :: _ => if t.state == .waiting && !s.logic.held then makeReady n i.since s else s

/-- Releases resume: those held are made now (02 R56). -/
def resumeReleases (s : State) : State :=
  forRange 33 (fun n t =>
    if (taskOf t n).heldRelease && (taskOf t n).state == .waiting then makeReady n t.now t else wakeEvent n t)
    (s.setLogic (fun l => { l with held := false }))

/-- True when a commit, a handover or a bivouac entry asks for a hold of releases (02 R54; 17 R520; 20 R588). -/
def holdWanted (s : State) : Bool :=
  s.peg.chg == .waitInstant || s.pair.role == .handingOver || s.mod.bivStage != .none

/-- True once the idle instant of a handover or a bivouac entry is reached: the hold then lasts. -/
def holdFixed (s : State) : Bool := s.pair.handoverHold || s.mod.bivStage == .held

/-! ### Forces at the base tick (09 R283) -/

/-- The driven output follows a force that begins to act: its watchdog is suspended. -/
def forceBegin (f : ForceSlot) (s : State) : State :=
  match f.kind with
  | .output =>
    let r := (s.lay f.tgt).ref
    if hasWd r then wdSuspend r s else s
  | _ => s

/-- A force ends: the watchdog of its output runs again, unless a trim procedure is open on it. -/
def forceEnd (f : ForceSlot) (s : State) : State :=
  match f.kind with
  | .output =>
    let r := (s.lay f.tgt).ref
    let open' := match r with | .aoOut b c => trimOpen s b c | _ => false
    if hasWd r && !open' then wdRestart r s else driveOut r s
  | _ => s

/-- The forces accepted since the last base tick begin to act, and those released end. -/
def forceTick (s : State) : State :=
  forRange 256 (fun k t =>
    let f := t.logic.forces.look k
    if f.kind == .free then t
    else if f.ending then
      let t1 := t.setLogic (fun l => { l with forces := l.forces.put k {} })
      if f.live then forceEnd f t1 else t1
    else if !f.live then
      forceBegin f (t.setLogic (fun l => { l with forces := l.forces.put k { f with live := true, nextVal := none } }))
    else
      match f.nextVal with
      | none => t
      | some _ =>
        let t1 := t.setLogic (fun l => { l with forces := l.forces.put k { f with nextVal := none } })
        if f.kind == .output then driveOut (t1.lay f.tgt).ref t1 else t1) s

/-! ### The base tick (09 R267) -/

/-- One base tick: forces, the holds of commit, handover and bivouac, and the releases due.
In part by log 23, 37 (DEDUCED, unsafe). -/
def baseTick (s : State) : State :=
  let resumed := if s.logic.held && !holdFixed s then resumeReleases s else s
  let want := holdWanted resumed
  let s1 := resumed.setLogic (fun l => { l with held := want })
  let s2 := if s1.peg.chg == .waitInstant then s1.setPeg (fun p => { p with holdAt := s1.now }) else s1
  if !s2.running .logic then s2
  else
    let s3 := forceTick s2
    let k := s3.logic.ticks
    let s4 := s3.setLogic (fun l => { l with ticks := l.ticks + 1 })
    forAll s4.img.logic.tasks (fun p t =>
      match p.2.kind with
      | .periodic => if p.2.n != 0 && k % p.2.n == p.2.phase then releaseTask p.1 t.now t else t
      | _ => t) s4

/-! ### Event tasks (09 R276) -/

/-- An item arrives at event task `n`. -/
def enqueue (n : Nat) (i : TaskItem) (s : State) : State :=
  let t := taskOf s n
  if t.state == .fault then s.setTask n (fun x => { x with ovr := satInc top32 x.ovr, lost := true })
  else if (taskCfg s n).evtDepth ≤ t.queue.length then
    raiseIf (!t.fullRaised) Ev.EVENT_QUEUE_FULL s.img.logic.leSrc n
      (s.setTask n (fun x => { x with ovr := satInc top32 x.ovr, lost := true, fullRaised := true }))
  else
    wakeEvent n
      (s.setTask n (fun x =>
        { x with queue := x.queue ++ [{ i with lostBefore := x.lost }], lost := false, fullRaised := false }))

/-- A fabric event is offered to the event tasks bound to its source. -/
def offerEvent (e : Event) (s : State) : State :=
  forAll s.img.logic.tasks (fun p t =>
    if p.2.kind == .event && p.2.evtKind == 0 && p.2.evtSrc == e.source && (Nat.land e.code p.2.evtMask) == p.2.evtMatch then
      enqueue p.1 { source := e.source, code := e.code, data := e.data, time := e.time, since := t.now } t
    else t) s

/-- True when a task takes the edge of a capture entry. -/
def edgeTaken (edge : Nat) (c : CapEntry) : Bool :=
  match c.kind with
  | .digital => if c.bit8 then bitOf 0 edge else bitOf 1 edge
  | _ => true

/-- A capture entry is delivered to each kind 1 task whose source and edge match. -/
def offerCapture (c : CapEntry) (s : State) : State :=
  forAll s.img.logic.tasks (fun p t =>
    if p.2.kind == .event && p.2.evtKind == 1 && p.2.evtSrc == c.source && edgeTaken p.2.evtEdge c then
      enqueue p.1
        { source := c.source, code := 0, data := w32 (capWord2 c), time := c.stamp, since := t.now } t
    else t) s

/-- The engine takes the next fabric event offered to its tasks. In part by log 37 (DEDUCED, unsafe). -/
def takeEvent (s : State) : State :=
  match s.taskInbox with
  | [] => s
  | e :: r =>
    let s1 := { s with taskInbox := r }
    if s1.running .logic then offerEvent e s1 else s1

/-- The engine takes the oldest capture entry that it has not taken (07 R218). -/
def takeCapture (s : State) : State :=
  if !s.running .logic || s.img.time.capLogic != 1 then s
  else
    match s.tu.fifo.find? (·.forLogic) with
    | none => s
    | some c =>
      let s1 := s.setTu (fun t => { t with fifo := updFirst (·.forLogic) (fun x => { x with forLogic := false }) t.fifo })
      offerCapture c (s1.setTu (fun t => { t with fifo := fifoHeld s1 }))

/-! ### Instances (09 R270–R274) -/

/-- The instance of task `n` starts: pass P samples the asynchronous entries of `reads`. -/
def startInstance (n : Nat) (reads : List Nat) (s : State) : State :=
  let t := taskOf s n
  if !s.running .logic || t.state != .ready || !chosen s n then s
  else
    let s1 := forAll s.logic.tasks (fun p u =>
      if p.2.state == .running then u.setTask p.1 (fun x => { x with state := .preempted }) else u) s
    s1.setTask n (fun x =>
      { x with
        state := .running
        queue := x.queue.drop 1
        unit := { active := true, samples := sampleAsync s1 reads, start := s1.now, item := x.queue.head? } })

/-- The background cycle starts again (09 R277). -/
def startBackground (s : State) : State :=
  if !s.running .logic || (taskCfg s 32).kind != .background || (taskOf s 32).state != .waiting then s
  else if s.logic.held then s
  else
    (makeReady 32 s.now s).setLogic (fun l => { l with bgRunning := true, bgStart := s.now })

/-- The busy spans of the last second with one more. In part by log 37 (DEDUCED, unsafe). -/
def addBusy (a b : Nat) (l : List (Nat × Nat)) : List (Nat × Nat) :=
  (a, b) :: l.filter (fun p => decide (b < p.2 + 1000000000))

/-- Time covered by spans listed with falling ends. -/
def covered : List (Nat × Nat) → Nat → Nat
  | [], _ => 0
  | (a, b) :: r, lim => (min b lim - a) + covered r (min lim a)

/-- True for a software event that a program may raise (09 R274). -/
def softOk (e : SoftEvent) : Bool :=
  0xD0 ≤ e.source && e.source ≤ 0xDF && e.code < 65536 && e.code / 4096 ≤ 2 && e.code / 256 % 16 ≤ 5

/-- The software events of an instance in order: `k` have come before. The first drop gives its reason.
In part by log 37 (DEDUCED, unsafe). -/
def softEvents (n : Nat) : List SoftEvent → Nat → Bool → State → State
  | [], _, _, s => s
  | e :: r, k, dropped, s =>
    if softOk e && k < 64 then
      softEvents n r (k + 1) dropped (raiseN ⟨e.code, none⟩ e.source e.data.toNat s)
    else
      let s1 := s.setLogic (fun l => { l with softDrop := satInc top32 l.softDrop })
      softEvents n r (k + 1) true
        (raiseIf (!dropped) Ev.SOFT_EVENT_DROPPED s.img.logic.leSrc (n + 256 * b2n (softOk e)) s1)

/-- An output entry written by task `n`; another writer's entry refuses it (01 R14). -/
def taskOut (n t0 : Nat) (p : Nat × Qv) (s : State) : State :=
  if mayWrite s (.task n) p.1 then writeOut (.task n) t0 p.1 p.2 s
  else
    raiseLe Ev.OUTPUT_WRITE_REFUSED (p.1 % 65536 + 65536 * n)
      (s.setLogic (fun l => { l with wrRefused := satInc top32 l.wrRefused }))

/-- True when task `n` may store to a variable (09 R273, R280). -/
def mayStore (s : State) (n v : Nat) : Bool :=
  let c := s.img.logic.vars.look v
  c.defined && (match c.cls with | .local => c.task == n | .edge => c.task == n | _ => true)

/-- A variable or edge store written by task `n`; a forced variable discards the write (09 R283). -/
def taskVar (n : Nat) (p : Nat × W32) (s : State) : State :=
  if mayStore s n p.1 && (forceVar s p.1).isNone then
    s.setLogic (fun l => { l with vars := l.vars.put p.1 (some p.2) })
  else s

/-- The end of an instance of task `n`: the next item makes an event task ready, and a held release waits on. -/
def endInstance (n : Nat) (s : State) : State :=
  let s1 := s.setTask n (fun t => { t with state := .waiting, unit := {} })
  let s2 := if n = 32 then s1.setLogic (fun l => { l with bgRunning := false }) else s1
  let s3 := if (taskOf s2 n).heldRelease && !s2.logic.held && n != 32 then makeReady n s2.now s2 else wakeEvent n s2
  resumeChosen s3

/-- The instance of task `n` releases everything together (09 R272; 10 R302). In part by log 37 (DEDUCED, unsafe). -/
def releaseInstance (n : Nat) (w : WriteSet) (s : State) : State :=
  let t := taskOf s n
  if !s.running .logic || t.state != .running then s
  else
    let s0 := unitEqual .logic n t.unit s
    let rpt := !t.unit.done && t.unit.repeated && t.unit.divEntry.isSome
    let s1 := instanceDone (.task n) t.t0 s0
    let s2 := forAll w.outs (taskOut n t.t0) s1
    let s3 := forAll w.vars (taskVar n) s2
    let s4 := softEvents n w.events 0 false s3
    let us := (s4.now - t.t0) / 1000
    let s5 := s4.setTask n (fun x =>
      { x with inst := wrap32 (x.inst + 1), lastUs := min us top32, maxUs := max x.maxUs (min us top32),
               rpt := if rpt then satInc top32 x.rpt else x.rpt })
    endInstance n (s5.setLogic (fun l => { l with busy := addBusy t.unit.start s5.now l.busy }))

/-! ### Task faults (09 R278, R279) -/

/-- Task `n` enters FAULT: its instance is discarded and its outputs go to their safe states. -/
def taskFault (n cause : Nat) (s : State) : State :=
  let start := (taskOf s n).unit.start
  let s1 := s.setTask n (fun t =>
    { t with state := .fault, cause := cause, queue := [], unit := {}, fullRaised := false, heldRelease := false })
  let s2 := s1.setLogic (fun l =>
    { l with bgRunning := if n = 32 then false else l.bgRunning, busy := addBusy start s.now l.busy })
  resumeChosen (raiseLe Ev.TASK_FAULT (n + 256 * cause) (writerFault (.task n) s2))

/-- A task's LOCAL variables and edge stores at their initial values. -/
def clearLocals (n : Nat) (s : State) : State :=
  s.setLogic (fun l =>
    { l with vars := l.vars.filter (fun p =>
        let c := s.img.logic.vars.look p.1
        !((c.cls == .local || c.cls == .edge) && c.task == n)) })

/-- The result of the last command of block 0x05. -/
def leResult (code slot : Nat) (s : State) : State := s.setLogic (fun l => { l with cmdRes := code, cmdSlot := slot })

/-- A write of LE_TASK_CMD (09 R279, R292). -/
def taskRestart (v : W32) (r : Role) (s : State) : State :=
  let n := v.toNat % 256
  if v.toNat / 256 != 0x7A5C00 || 32 < n then s
  else if !roleAtLeast r .engineer then leResult 1 0 s
  else if !s.running .logic then leResult 7 0 s
  else if (taskOf s n).state != .fault then leResult 9 0 s
  else
    let s1 := clearLocals n (s.setTask n (fun t => { t with state := .waiting, cause := 0, unit := {} }))
    leResult 0 0 (raise Ev.TASK_RESTARTED s.img.logic.leSrc (w32 n) (.role r) s1)

/-! ### Reset and online change (09 R287, R288) -/

/-- Every instance abandoned, every queue emptied: what leaving RUN does to the tasks (09 R269). -/
def stopTasks (s : State) : State :=
  s.setLogic (fun l =>
    { l with
      tasks := (l.tasks.map (fun p =>
        (p.1, { p.2 with state := .waiting, cause := 0, queue := [], unit := {}, lost := false, fullRaised := false,
                         heldRelease := false }))).filter (fun p => p.2 != default)
      bgRunning := false })

/-- A function reset of 0x01. -/
def resetLogic (s : State) : State :=
  (stopTasks s).setLogic (fun l =>
    { l with
      ticks := 0, tasks := [], held := false, bgStart := 0, softDrop := 0, wrRefused := 0, cmdRes := 0, cmdSlot := 0
      busy := []
      vars := l.vars.filter (fun p => (s.img.logic.vars.look p.1).cls == .retain) })

/-- What an online change keeps of the engine: `old` is the image before the switch (09 R287).
In part by log 23 (DEDUCED, unsafe). -/
def switchLogic (old : ImageCfg) (s : State) : State :=
  let new := s.img
  let keepVar := fun (p : Nat × Option W32) =>
    let a := old.logic.vars.look p.1
    let b := new.logic.vars.look p.1
    a.defined && b.defined && a.ty == b.ty
  let kept := (new.logic.vars.filter (fun p =>
    keepVar (p.1, none) && (s.logic.vars.look p.1).isNone && (old.logic.vars.look p.1).init != p.2.init))
  let step := fun (n : Nat) (t : State) =>
    let a := old.logic.tasks.look n
    let b := new.logic.tasks.look n
    let x := taskOf t n
    if b.kind == .unused then t.setTask n (fun _ => {})
    else if a.kind == .unused then t.setTask n (fun _ => {})
    else if x.state == .fault then
      if a.code == b.code then t else clearLocals n (t.setTask n (fun y => { y with state := .waiting, cause := 0 }))
    else if b.kind == .event && !(a.evtSrc == b.evtSrc && a.evtKind == b.evtKind) then
      t.setTask n (fun y => { y with queue := [], lost := false, fullRaised := false, state := if y.state == .ready then .waiting else y.state })
    else if n = 32 && inProgress x then t.setTask n (fun y => { y with state := .waiting, unit := {} })
    else t
  let s1 := s.setLogic (fun l =>
    { l with
      vars := forAll kept (fun p v => v.put p.1 (some (old.logic.vars.look p.1).init)) (l.vars.filter keepVar)
      bgRunning := false })
  forRange 33 step s1

/-! ### Object blocks (09 R289–R292) -/

/-- The code of a task state. -/
def taskStateCode : TaskState → Nat
  | .waiting => 0 | .ready => 1 | .running => 2 | .preempted => 3 | .fault => 4

/-- Busy time over the last second in units of 0.1 %. In part by log 37 (DEDUCED, unsafe). -/
def busyPermille (s : State) : Nat :=
  let lo := s.now - 1000000000
  let cut := s.logic.busy.map (fun p => (max p.1 lo, p.2))
  let live := (s.logic.tasks.filter (fun p => inProgress p.2)).map (fun p => (max p.2.unit.start lo, s.now))
  min 1000 (covered (live ++ cut) s.now / 1000000)

/-- The code of a force target's kind. -/
def forceKindCode : ForceKind → Nat
  | .input => 0 | .output => 1 | .variable => 2 | .free => 3
/-- The code of a type (09 R282). -/
def vtyCode : Vty → Nat
  | .bool => 0 | .int32 => 1 | .uint32 => 2 | .real => 3
/-- The code of a role (15 R467). -/
def roleCode : Role → Nat
  | .observe => 0 | .operate => 1 | .engineer => 2 | .commission => 3

/-- Forces in effect. -/
def forcesNow (s : State) : Nat := (s.logic.forces.filter (fun p => p.2.kind != .free)).length

/-- Blocks 0x02 to 0x05 of function 0x01. -/
def logicObj (s : State) (blk off : Nat) : Option Nat :=
  let l := s.logic
  if blk = 2 then
    if off = 0 then
      some ((l.tasks.filter (fun p => p.2.state == .fault)).length + 64 * b2n l.bgRunning + 128 * b2n l.held
        + 65536 * busyPermille s)
    else if off = 4 then some (wrap32 (l.ticks - 1))
    else if off = 8 then some (s.img.logic.progBytes % 2097152)
    else if off = 0xC then some (s.img.logic.dataBytes % 1048576)
    else if off = 0x10 then some (forcesNow s + 65536 * l.forcesAccepted)
    else if off = 0x14 then some l.softDrop
    else if off = 0x18 then some l.wrRefused
    else none
  else if blk = 3 then
    let n := off / 32
    if 32 < n then none
    else
      let t := taskOf s n
      let c := taskCfg s n
      let k := off % 32
      let kind := match c.kind with | .periodic => 0 | .event => 1 | .background => 2 | .unused => 3
      if k = 0 then
        some ((if kind = 3 then 5 else if s.running .logic then taskStateCode t.state else 0) + 16 * (c.prio % 16)
          + 256 * kind + 65536 * t.cause)
      else if k = 4 then
        some (match c.kind with
          | .periodic => c.n + 65536 * c.phase
          | .event => c.evtSrc + 256 * c.evtKind + 512 * c.evtDepth
          | .background => s.img.logic.bgFloor + 65536 * s.img.logic.bgWd
          | .unused => 0)
      else if k = 8 then some t.inst
      else if k = 0xC then some t.ovr
      else if k = 0x10 then some t.lastUs
      else if k = 0x14 then some t.maxUs
      else if k = 0x18 then some t.rpt
      else some t.queue.length
  else if blk = 4 then
    if 0x1000 ≤ off then none
    else
      let f := l.forces.look (off / 16)
      let k := off % 16
      if f.kind == .free then some (if k = 8 then 3 else 0)
      else some (if k = 0 then f.tgt else if k = 4 then f.val.toNat
        else if k = 8 then forceKindCode f.kind + 4 * vtyCode f.ty + 16 * f.role else f.time)
  else if blk = 5 then
    if off = 4 then some (l.cmdRes + 256 * l.cmdSlot) else none
  else none

/-! ### Commands -/

/-- EVENT_TASK_ITEM: kind 0 a fabric event, kind 1 a capture entry. -/
def execEventTaskItem (kind : Fin 2) (s : State) : Host.Outcome State Fault Refusal :=
  .next (if kind.val = 0 then takeEvent s else takeCapture s)
/-- TASK_INSTANCE_START. -/
def execTaskInstanceStart (n : Fin 33) (reads : List Nat) (s : State) : Host.Outcome State Fault Refusal :=
  .next (startInstance n.val reads s)
/-- BACKGROUND_CYCLE_START. -/
def execBackgroundCycleStart (s : State) : Host.Outcome State Fault Refusal := .next (startBackground s)
/-- TASK_RELEASE. -/
def execTaskRelease (n : Fin 33) (w : WriteSet) (s : State) : Host.Outcome State Fault Refusal :=
  .next (releaseInstance n.val w s)
/-- RUN_TIME_ERROR. -/
def execRunTimeError (n : Fin 33) (s : State) : Host.Outcome State Fault Refusal :=
  .next (if s.running .logic && (taskOf s n.val).state == .running then taskFault n.val 3 s else s)
/-- BACKGROUND_WATCHDOG. -/
def execBackgroundWatchdog (s : State) : Host.Outcome State Fault Refusal :=
  .next (if s.running .logic && s.logic.bgRunning then taskFault 32 2 s else s)
/-- TASK_RESTART. -/
def execTaskRestart (v : W32) (r : Role) (s : State) : Host.Outcome State Fault Refusal := .next (taskRestart v r s)

end Sys2Proof.Machine
end

