-- ==== Sys2Proof/Machine/Loop.lean ====
section
/-! DEFINITION. The loop engine (chapter 11): rows, releases, samples, modes, banks, tests and the capture. -/

namespace Sys2Proof.Machine

/-- A loop. -/
def loopOf (s : State) (n : Nat) : LpSt := s.loops.lps.look n
/-- The row of a loop. -/
def loopRow (s : State) (n : Nat) : LoopRow := s.img.loops.rows.look n
/-- The loop engine changed. -/
def State.setLoops (s : State) (f : LoopSt → LoopSt) : State := { s with loops := f s.loops }
/-- A loop changed. -/
def State.setLp (s : State) (n : Nat) (f : LpSt → LpSt) : State :=
  s.setLoops (fun l => { l with lps := l.lps.upd n f })
/-- The test changed. -/
def State.setTest (s : State) (f : TestSt → TestSt) : State := s.setLoops (fun l => { l with test := f l.test })
/-- The event source of a loop (11 R357). -/
def loopSrc (n : Nat) : Nat := 0xE0 + n / 16
/-- Raises an event of a loop; `data` stands above the loop number. -/
def raiseLoop (k : EvKind) (n data : Nat) (o : Origin) (s : State) : State :=
  raise k (loopSrc n) (w32 (n % 256 + 256 * data)) o s
/-- True for a loop that the image uses and the engine accepted. -/
def loopUsed (s : State) (n : Nat) : Bool := (loopRow s n).form != 0 && (loopOf s n).code == 0
/-- True while local control holds a point (18 R546). -/
def heldLocal (s : State) (kind index : Nat) : Bool := s.panel.locals.contains { kind := kind, index := index }

/-- The code of an effective mode (11 R331, R351). -/
def modeCode : LoopMode → Nat
  | .man => 0 | .auto => 1 | .cascade => 2 | .track => 3 | .fault => 4 | .unused => 7
/-- The mode that a request names. -/
def reqMode (m : Nat) : LoopMode := if m = 1 then .auto else if m = 2 then .cascade else .man
/-- True for AUTO and CASCADE. -/
def lawMode (m : LoopMode) : Bool := m == .auto || m == .cascade

/-! ### Banks and rows (11 R326, R356) -/

/-- A bank is valid for a form (11 R326). -/
def bankValid (form : Nat) (k : LBank) : Bool :=
  let fin := F32.isFin k.c0 && F32.isFin k.c1 && F32.isFin k.c2 && F32.isFin k.c3 && F32.isFin k.b && F32.isFin k.c
  let pos := F32.le 0#32 k.c0 && F32.le 0#32 k.c1 && F32.le 0#32 k.c2 && F32.le 0#32 k.c3
  let unit := F32.le 0#32 k.b && F32.le k.b F32.one && F32.le 0#32 k.c && F32.le k.c F32.one
  let n := form != 1 || !F32.lt 0#32 k.c2 || (F32.le F32.one k.c3 && F32.le k.c3 0x42C80000#32)
  fin && pos && unit && n

/-- The executed coefficients (11 R326). -/
structure LCoef where
  kp : F32
  kis : F32
  ad : F32
  bd : F32
  b : F32
  c : F32

/-- The sample period in seconds as binary32. -/
def loopTs (tsN : Nat) : F32 := F64.toF32 (F64.mul (F64.ofInt tsN) (F64.ofRat 125 1000000))

/-- The executed coefficients of a bank. -/
def deriveCoef (form tsN : Nat) (k : LBank) : LCoef :=
  let ts := loopTs tsN
  let ideal := form == 1
  let ki := if ideal then (if F32.eq k.c1 0#32 then 0#32 else F32.div k.c0 k.c1) else k.c1
  let kd := if ideal then F32.mul k.c0 k.c2 else k.c2
  let tf := if ideal then (if F32.eq k.c2 0#32 then 0#32 else F32.div k.c2 k.c3) else k.c3
  let den := F32.add tf ts
  { kp := k.c0, kis := F32.mul ki ts, ad := F32.div tf den, bd := F32.div kd den, b := k.b, c := k.c }

/-- A numeric entry of the layout: not BOOL. -/
def numericEntry (img : ImageCfg) (i : Nat) : Bool :=
  let e := img.layout.look i
  e.ref != .unused && e.ty != .bool

/-- `x` lies in `lo` to `hi`. -/
def inRange (lo hi x : F32) : Bool := F32.le lo x && F32.le x hi

/-- The refusal code of a loop row (11 R356); `fuel` counts the cascade levels that may stand above it. -/
def loopCode (img : ImageCfg) : Nat → Nat → Nat
  | fuel, n =>
    let r := img.loops.rows.look n
    let lim := fun lo hi : F32 => F32.isFin lo && F32.isFin hi && F32.lt lo hi
    let bool := fun i => (img.layout.look i).ref != .unused && (img.layout.look i).ty == .bool
    if 2 < r.form then 0x01
    else if r.tsN < 1 || 480000 < r.tsN || r.tsN ≤ r.phase then 0x02
    else if !(match r.pv with | some i => numericEntry img i | none => false)
      || !(match r.fb with | some i => numericEntry img i | none => true) then 0x03
    else if !lim r.umin r.umax || !lim r.spLo r.spHi then 0x04
    else if !(match r.bankA with | some k => bankValid r.form k | none => false)
      || !(match r.bankB with | some k => bankValid r.form k | none => true) then 0x05
    else if !(match r.casRef with
        | none => true
        | some p =>
          match fuel with
          | 0 => false
          | f + 1 => p != n && p < 256 && (img.loops.rows.look p).form != 0 && loopCode img f p == 0) then 0x06
    else if !F32.isFin r.spRate || F32.lt r.spRate 0#32 then 0x07
    else if !(match r.trkCmd, r.trkVal with
        | none, none => true | some a, some b => bool a && numericEntry img b | _, _ => false) then 0x08
    else if !inRange r.spLo r.spHi r.spInit || !inRange r.umin r.umax r.manInit || !inRange r.umin r.umax r.safeU then 0x09
    else if 2 < r.modeInit || (r.modeInit == 2 && r.casRef.isNone)
      || !(match r.modeIn with
        | none => true
        | some i => (img.layout.look i).ty == .uint32 && (img.layout.look i).out
            && (match (img.layout.look i).writer with | .task _ => true | _ => false)) then 0x0A
    else if 1 < r.act || 2 < r.badPv then 0x0B
    else 0

/-- The refusal code of row `n`: the cascade level of an accepted loop is at most 3. -/
def loopRowCode (img : ImageCfg) (n : Nat) : Nat := if (img.loops.rows.look n).form = 0 then 0 else loopCode img 3 n

/-- The cascade level of a loop (11 R322). -/
def loopLevel (img : ImageCfg) : Nat → Nat → Nat
  | 0, _ => 0
  | f + 1, n => match (img.loops.rows.look n).casRef with | none => 0 | some p => 1 + loopLevel img f p

/-- The declared load as a fraction: samples per second over the loops in use (11 R323). -/
def loopLoad (img : ImageCfg) : Nat × Nat :=
  img.loops.rows.foldl (fun a p =>
    if p.2.form = 0 || p.2.tsN = 0 then a else (a.1 * p.2.tsN + 8000 * a.2, a.2 * p.2.tsN)) (0, 1)

/-- The image-level checks of the loop engine (11 R323; 10 R301). -/
def loopImageOk (img : ImageCfg) : Bool :=
  decide ((loopLoad img).1 ≤ 2000000 * (loopLoad img).2) && decide (img.loops.writeSet ≤ 4096)
    && img.loops.rows.all (fun p => p.1 < 256)

/-- The two banks of a row. -/
def rowBanks (r : LoopRow) : LBank × LBank :=
  let a := match r.bankA with | some k => k | none => {}
  (a, match r.bankB with | some k => k | none => a)

/-- A loop as the image starts it (11 R342). -/
def initLoop (img : ImageCfg) (n : Nat) : LpSt :=
  let r := img.loops.rows.look n
  if r.form = 0 then {}
  else
    let k := rowBanks r
    let c := loopRowCode img n
    { mode := if c = 0 then reqMode r.modeInit else .unused, req := r.modeInit, target := r.spInit, man := r.manInit
      code := c, a := k.1, b := k.2, preset := true, wFromY := true }

/-- Every loop as the image starts it. -/
def initLoops (img : ImageCfg) : Tab LpSt :=
  (img.loops.rows.map (fun p => (p.1, initLoop img p.1))).filter (fun p => p.2 != default)

/-! ### Values -/

/-- An entry value as binary32. -/
def numOf (ty : Vty) (v : W32) : F32 :=
  match ty with
  | .real => v
  | .int32 => F32.ofInt v.toInt
  | .uint32 => F32.ofInt v.toNat
  | .bool => if v = 0 then 0#32 else F32.one

/-- A binary32 value as an entry of a type holds it: nearest integer, ties to even.
In part by log 29 (DEDUCED, unsafe). -/
def numTo (ty : Vty) (v : F32) : W32 :=
  match ty with
  | .real => v
  | .bool => if F32.eq v 0#32 then 0#32 else 1#32
  | _ => BitVec.ofInt 32 (F32.toIntEven v)

/-- What a sample of loop `n` reads at an entry: the snapshot in a repeat (10 R304), else the entry now. -/
def loopRead (s : State) (n i : Nat) : Qv :=
  let u := (loopOf s n).unit
  match (if u.repeated then u.samples.find? (fun p => p.1 == i) else none) with
  | some p => p.2
  | none => readEntry s i

/-- The measured value y of a loop with its quality. -/
def loopY (s : State) (n : Nat) : Qv :=
  match (loopRow s n).pv with
  | some i => let v := loopRead s n i; { val := numOf (s.lay i).ty v.val, q := v.q }
  | none => { val := 0#32, q := qBad 10 }

/-- LOOP_U of a loop as another loop sees it. -/
def loopU (s : State) (p : Nat) : Qv :=
  match layIdx s (.loop p 1) with
  | some i => readEntry s i
  | none =>
    let x := loopOf s p
    { val := x.u, q := if x.mode == .fault || !s.live .loop then qBad 11 else if x.code != 0 || x.mode == .unused then qBad 10 else qGood }

/-- The first secondary of a loop. -/
def secondaryOf (s : State) (n : Nat) : Option Nat :=
  (s.img.loops.rows.find? (fun p => p.2.casRef == some n && loopUsed s p.1)).map (·.1)

/-- The cascade of a primary is open (11 R335). -/
def cascadeOpen (s : State) (n : Nat) : Bool :=
  match secondaryOf s n with | some k => (loopOf s k).mode != .cascade | none => false

/-- The active bank's coefficients. -/
def loopCoef (s : State) (n : Nat) : LCoef :=
  let x := loopOf s n
  deriveCoef (loopRow s n).form (loopRow s n).tsN (if x.bankB then x.b else x.a)

/-- The measured output u_m (11 R329; 17 R516). -/
def measuredOut (s : State) (n : Nat) : F32 :=
  let r := loopRow s n
  let x := loopOf s n
  let v :=
    match x.umNext with
    | some v => v
    | none =>
      if cascadeOpen s n then (match secondaryOf s n with | some k => (loopOf s k).w | none => x.u)
      else
        match r.fb with
        | some i => let q := loopRead s n i; if qIsBad q.q then x.u else numOf (s.lay i).ty q.val
        | none => x.u
  F32.clamp r.umin r.umax v

/-- True while the output entry of a loop is forced (11 R337). -/
def loopForced (s : State) (n : Nat) : Bool :=
  match (loopRow s n).out with | some i => (forceOf s i).isSome | none => false

/-! ### The test (11 R344–R349) -/

/-- True while a test runs. -/
def testRunning (s : State) : Bool := s.loops.test.state == .pre || s.loops.test.state == .injecting

/-- The running test ends for a reason. -/
def testEnd (reason : Nat) (s : State) : State :=
  if !testRunning s then s
  else
    let t := s.loops.test
    raiseLoop Ev.TEST_ENDED t.loop (reason + 256 * min top16 t.pairs.length) .module
      (s.setTest (fun x => { x with state := if reason = 0 then .done else .early, reason := reason }))

/-- The running test ends if it runs on loop `n`. In part by log 41 (DEDUCED, unsafe). -/
def testEndOn (n reason : Nat) (s : State) : State := if s.loops.test.loop = n then testEnd reason s else s

/-- The taps of the PRBS register of order `n` (11 R346). In part by log 41 (DEDUCED, unsafe). -/
def prbsTaps (n : Nat) : List Nat :=
  if n = 7 then [7, 6] else if n = 8 then [8, 6, 5, 4] else if n = 9 then [9, 5] else if n = 10 then [10, 7]
  else if n = 11 then [11, 9] else if n = 12 then [12, 11, 10, 4] else if n = 13 then [13, 12, 11, 8]
  else if n = 14 then [14, 13, 12, 2] else [15, 14]

/-- One new bit of the PRBS register: a_i is bit i − 1. Gives the bit and the shifted register.
In part by log 41 (DEDUCED, unsafe). -/
def prbsNext (n reg : Nat) : Bool × Nat :=
  let fb := ((prbsTaps n).filter (fun t => bitOf (t - 1) reg)).length % 2
  (bitOf (n - 1) reg, (2 * reg) % 2 ^ n + fb)

/-- The phase step of the sine: f × ts × 2³² to the nearest integer. In part by log 41 (DEDUCED, unsafe). -/
def sineStep (s : State) (t : TestSt) : Int :=
  F64.toIntAway (F64.mul (F64.mul (F64.ofF32 t.freq) (F64.ofF32 (loopTs (loopRow s t.loop).tsN))) (F64.ofInt 4294967296))

/-- The signal of test sample j (11 R345) and the generator after it. In part by log 41 (DEDUCED, unsafe). -/
def testSignal (s : State) (t : TestSt) : F32 × TestSt :=
  if t.j < t.pre then (0#32, t)
  else
    let m := t.j - t.pre
    if t.kind = 1 then (t.amp, t)
    else if t.kind = 2 then (if m < t.width then t.amp else 0#32, t)
    else if t.kind = 3 then
      let g := if m % t.width = 0 then prbsNext t.order t.prbs else (t.bit, t.prbs)
      (if g.1 then t.amp else F32.neg t.amp, { t with bit := g.1, prbs := g.2 })
    else if t.kind = 4 then
      let phi := ((m : Int) * sineStep s t % 4294967296).toNat
      (F32.mul t.amp (Num.sinPhase phi), t)
    else (0#32, t)

/-- The result code of a START (11 R344). In part by log 41 (DEDUCED, unsafe). -/
def testCheck (s : State) (r : Role) : Nat :=
  let t := s.loops.test
  let x := loopOf s t.loop
  let y := readEntry s (match (loopRow s t.loop).pv with | some i => i | none => 0)
  let yv := numOf (s.lay (match (loopRow s t.loop).pv with | some i => i | none => 0)).ty y.val
  let d := t.dec + 1
  let fmax := F64.div (F64.ofInt 1) (F64.mul (F64.ofInt 4) (F64.ofF32 (loopTs (loopRow s t.loop).tsN)))
  if !roleAtLeast r .engineer then 1
  else if !loopUsed s t.loop || x.mode == .fault then 2
  else if 4 < t.kind || !F32.isFin t.amp || t.len < 1 || 65536 < t.len || t.len * d ≤ t.pre
    || ((t.kind == 2 || t.kind == 3) && t.width < 1) || (t.kind == 3 && (t.order < 7 || 15 < t.order))
    || (t.kind == 4 && !(F32.lt 0#32 t.freq && F64.le (F64.ofF32 t.freq) fmax)) then 3
  else if !(if t.point then x.mode == .man || x.mode == .auto else x.mode == .auto) then 4
  else if testRunning s then 5
  else if loopForced s t.loop then 6
  else if qIsBad y.q || F32.lt yv t.guardLo || F32.lt t.guardHi yv || F32.isNan yv then 7
  else if !s.running .loop then 8
  else 0

/-- LT_CMD START. In part by log 41 (DEDUCED, unsafe). -/
def testStart (r : Role) (s : State) : State :=
  let t := s.loops.test
  let c := testCheck s r
  if c != 0 then s.setTest (fun x => { x with result := c })
  else
    raiseLoop Ev.TEST_STARTED t.loop (t.kind + 8 * b2n t.point) (.role r)
      (s.setTest (fun x =>
        { x with state := if x.pre = 0 then .injecting else .pre, result := 0, reason := 0, j := 0, pairs := [], s0 := 0,
                 t0 := 0, mode := (loopOf s t.loop).mode, prbs := 2 ^ x.order - 1, bit := false }))

/-- LT_CMD STOP. -/
def testStop (r : Role) (s : State) : State := if roleAtLeast r .engineer then testEnd 1 s else s

/-! ### Commands to a loop (11 R332, R333, R352) -/

/-- The result of a loop command. -/
def loopResult (code n : Nat) (s : State) : State := s.setLoops (fun l => { l with cmdRes := code, cmdLoop := n })

/-- The mode requested once the waiting commands are taken. -/
def reqAfter (x : LpSt) : Nat :=
  x.cmds.foldl (fun m c => match c with | .mode k => k | .restart _ => 0 | _ => m) x.req

/-- Puts a command in the list that the next sample start takes. -/
def pushCmd (n : Nat) (c : LoopCmd) (s : State) : State := s.setLp n (fun x => { x with cmds := x.cmds ++ [c] })

/-- A mode request from `src` (0 MMP, 1 panel) that has passed its checks. -/
def acceptMode (n m src : Nat) (o : Origin) (s : State) : State :=
  if 3 ≤ m then loopResult 3 n s
  else if m = 2 && (loopRow s n).casRef.isNone then loopResult 4 n s
  else if reqAfter (loopOf s n) = m then loopResult 0 n s
  else loopResult 0 n (raiseLoop Ev.LOOP_MODE_SET n (m + 8 * src) o (pushCmd n (.mode m) s))

/-- The common checks of an MMP command to a loop: role, state, loop, local control. -/
def loopGate (n : Nat) (r need : Role) (s : State) (k : State → State) : State :=
  if !roleAtLeast r need then loopResult 1 n s
  else if !s.running .loop then loopResult 6 n s
  else if !loopUsed s n then loopResult 2 n s
  else if heldLocal s 0 n then loopResult 7 n s
  else k s

/-- A write of LP_TARGET. -/
def lpTarget (n : Nat) (v : F32) (r : Role) (s : State) : State :=
  loopGate n r .operate s (fun t =>
    if inRange (loopRow t n).spLo (loopRow t n).spHi v then loopResult 0 n (pushCmd n (.target v) t) else loopResult 3 n t)

/-- A write of LP_MANV. -/
def lpManv (n : Nat) (v : F32) (r : Role) (s : State) : State :=
  loopGate n r .operate s (fun t =>
    if inRange (loopRow t n).umin (loopRow t n).umax v then loopResult 0 n (pushCmd n (.manv v) t) else loopResult 3 n t)

/-- A write of LP_MODE_REQ. -/
def lpModeReq (n : Nat) (v : W32) (r : Role) (s : State) : State :=
  loopGate n r .operate s (acceptMode n (v.toNat % 4) 0 (.role r))

/-- LP_CMD SWAP (11 R339). -/
def loopSwap (n : Nat) (r : Role) (s : State) : State :=
  loopGate n r .engineer s (fun t =>
    let x := loopOf t n
    if x.swap then loopResult 0 n t
    else if bankValid (loopRow t n).form (if x.bankB then x.a else x.b) then
      loopResult 0 n (t.setLp n (fun y => { y with swap := true, swapBy := .role r }))
    else loopResult 10 n t)

/-- LP_CMD RESTART (11 R341). -/
def loopRestart (n : Nat) (r : Role) (s : State) : State :=
  loopGate n r .engineer s (fun t =>
    if (loopOf t n).mode == .fault then loopResult 0 n (pushCmd n (.restart (.role r)) t) else loopResult 8 n t)

/-- The word `k` of a bank changed. -/
def bankSet (b : LBank) (k : Nat) (v : F32) : LBank :=
  if k = 0 then { b with c0 := v } else if k = 1 then { b with c1 := v } else if k = 2 then { b with c2 := v }
  else if k = 3 then { b with c3 := v } else if k = 4 then { b with b := v } else { b with c := v }

/-- The word `k` of a bank. -/
def bankWord (b : LBank) (k : Nat) : F32 :=
  if k = 0 then b.c0 else if k = 1 then b.c1 else if k = 2 then b.c2 else if k = 3 then b.c3
  else if k = 4 then b.b else b.c

/-- A write to a coefficient bank (11 R338). -/
def bankEdit (n : Nat) (inB : Bool) (k : Nat) (v : F32) (r : Role) (s : State) : State :=
  loopGate n r .engineer s (fun t =>
    let x := loopOf t n
    if x.bankB == inB || x.swap then loopResult 6 n t
    else
      loopResult 0 n
        (raiseLoop Ev.LOOP_BANK_EDITED n (b2n inB + 2 * k) (.role r)
          (t.setLp n (fun y => if inB then { y with b := bankSet y.b k v } else { y with a := bankSet y.a k v }))))

/-! ### Releases (11 R321, R325) -/

/-- A loop is released. -/
def releaseLoop (n : Nat) (s : State) : State :=
  let x := loopOf s n
  if s.logic.held then s.setLp n (fun y => { y with heldRelease := true })
  else if x.due then
    let o := satInc top32 x.ovr
    raiseLoop Ev.LOOP_OVERRUN n (o % 16777216) .module
      ((s.setLp n (fun y => { y with ovr := o })).setLoops (fun l => { l with ovrTotal := satInc top32 l.ovrTotal }))
  else
    s.setLp n (fun y => { y with due := true, heldRelease := false, t0 := s.now, sample := wrap32 (y.sample + 1), unit := {} })

/-- The loop samples held over a hold are released (02 R56). -/
def resumeLoops (s : State) : State :=
  forAll s.loops.lps (fun p t => if p.2.heldRelease && !p.2.due then releaseLoop p.1 t else t) s

/-- One tick of 125 µs. -/
def loopTick (s : State) : State :=
  if !s.running .loop then s
  else
    let k := s.loops.ticks
    let s1 := s.setLoops (fun l => { l with ticks := l.ticks + 1 })
    forAll s1.img.loops.rows (fun p t =>
      if loopUsed t p.1 && p.2.tsN != 0 && k % p.2.tsN == p.2.phase then releaseLoop p.1 t else t) s1

/-- Loop `a` samples before loop `b` (11 R322). -/
def loopBefore (s : State) (a b : Nat) : Bool :=
  let ta := (loopOf s a).t0
  let tb := (loopOf s b).t0
  let la := loopLevel s.img 4 a
  let lb := loopLevel s.img 4 b
  let na := (loopRow s a).tsN
  let nb := (loopRow s b).tsN
  decide (ta < tb) || (ta == tb &&
    (decide (la < lb) || (la == lb && (decide (na < nb) || (na == nb && decide (a < b))))))

/-- Loop `n` is released and stands first among those released. In part by log 40 (DEDUCED, unsafe). -/
def loopTurn (s : State) (n : Nat) : Bool :=
  (loopOf s n).due && s.loops.lps.all (fun p => p.1 == n || !p.2.due || loopBefore s n p.1)

/-! ### A sample (11 R327–R337) -/

/-- Step 1 of R332: one waiting command. -/
def takeCmd (n : Nat) (c : LoopCmd) (s : State) : State :=
  match c with
  | .target v => s.setLp n (fun x => { x with target := v })
  | .manv v => s.setLp n (fun x => { x with man := v })
  | .mode m =>
    s.setLp n (fun x =>
      if m = x.req then x
      else { x with req := m, man := if m = 0 && lawMode x.mode then x.u else x.man })
  | .restart o =>
    if (loopOf s n).mode != .fault then s
    else
      let um := measuredOut s n
      let y := (loopY s n).val
      raiseLoop Ev.LOOP_MODE_CHANGED n (0 + 8 * 3) .module
        (raiseLoop Ev.LOOP_RESTARTED n 0 o
          (s.setLp n (fun x => { x with mode := .man, req := 0, man := um, w := y, preset := true })))

/-- Step 1 of R332. In part by log 40 (DEDUCED, unsafe). -/
def takeCmds (n : Nat) (s : State) : State :=
  forAll (loopOf s n).cmds (takeCmd n) (s.setLp n (fun x => { x with cmds := [] }))

/-- Step 2 of R332: a change of LP_MODE_IN. In part by log 40 (DEDUCED, unsafe). -/
def takeModeIn (n : Nat) (s : State) : State :=
  match (loopRow s n).modeIn with
  | none => s
  | some i =>
    let v := (loopRead s n i).val
    let s1 := s.setLp n (fun x => { x with modeIn := some v })
    match (loopOf s n).modeIn with
    | none => s1
    | some p =>
      if p = v || heldLocal s 0 n then s1
      else if 2 < v.toNat then loopResult 3 n s1
      else if v.toNat = 2 && (loopRow s n).casRef.isNone then loopResult 4 n s1
      else if (loopOf s n).req = v.toNat then s1
      else takeCmd n (.mode v.toNat) (raiseLoop Ev.LOOP_MODE_SET n (v.toNat + 8 * 2) .module s1)

/-- The integrator after a change of coefficients (11 R339 step 2). -/
def rebaseI (s : State) (n : Nat) (x : LpSt) : LpSt :=
  if lawMode x.mode then { x with i := F32.sub x.u (F32.add (F32.mul (loopCoef s n).kp x.pe) x.d) } else x

/-- Step 3 of R332: a pending bank swap, or banks that an online change has replaced.
In part by log 40 (DEDUCED, unsafe). -/
def takeSwap (n : Nat) (s : State) : State :=
  let x := loopOf s n
  if x.swap then
    let s1 := s.setLp n (fun y => { y with bankB := !y.bankB, swap := false, rebase := false, swapAt := y.sample })
    raiseLoop Ev.LOOP_SWAPPED n (x.sample % 16777216) x.swapBy (s1.setLp n (rebaseI s1 n))
  else if x.rebase then s.setLp n (fun y => rebaseI s n { y with rebase := false })
  else s

/-- Step 4 of R332: the track command and value. In part by log 40 (DEDUCED, unsafe). -/
def takeTrack (n : Nat) (s : State) : State :=
  match (loopRow s n).trkCmd, (loopRow s n).trkVal with
  | some a, some b =>
    let c := loopRead s n a
    let v := loopRead s n b
    s.setLp n (fun x =>
      { x with
        trkCmd := if qIsBad c.q then x.trkCmd else c.val != 0
        trkVal := if qIsBad v.q then x.trkVal else numOf (s.lay b).ty v.val })
  | _, _ => s

/-- The effective mode that the inputs ask for, before the quality of y. -/
def wantedMode (x : LpSt) : LoopMode :=
  if x.mode == .fault then .fault else if x.trkCmd then .track else reqMode x.req

/-- A secondary whose primary's output is BAD takes AUTO (11 R335). -/
def takeCascade (n : Nat) (y : F32) (s : State) : State :=
  match (loopRow s n).casRef with
  | some p =>
    if wantedMode (loopOf s n) == .cascade && qIsBad (loopU s p).q then
      raiseLoop Ev.LOOP_MODE_CHANGED n (1 + 8 * 2) .module
        (raiseLoop Ev.CASCADE_OPENED n p .module
          (s.setLp n (fun x => { x with req := 1, target := if x.mode == .cascade then x.w else y })))
    else s
  | none => s

/-- Step 5 of R332: the quality of y (11 R336). In part by log 40 (DEDUCED, unsafe). -/
def takeQuality (n : Nat) (y : Qv) (s : State) : State :=
  let x := loopOf s n
  if !lawMode (wantedMode x) then s.setLp n (fun z => { z with badPv := false })
  else if qIsBad y.q then
    let s1 := if x.badPv then s else raiseLoop Ev.LOOP_PV_BAD n (qSub y.q) .module s
    if (loopRow s n).badPv = 1 then
      raiseLoop Ev.LOOP_MODE_CHANGED n (0 + 8 * 1) .module
        (s1.setLp n (fun z => { z with req := 0, man := z.u, badPv := false }))
    else s1.setLp n (fun z => { z with badPv := true })
  else if x.badPv then
    raiseLoop Ev.LOOP_PV_OK n 0 .module (s.setLp n (fun z => { z with badPv := false, preset := true }))
  else s

/-- The change of the effective mode (11 R331, R333, R334). -/
def takeMode (n : Nat) (s : State) : State :=
  let x := loopOf s n
  let m := wantedMode x
  let track := (m == .track) != (x.mode == .track)
  let s1 := s.setLp n (fun z =>
    { z with
      mode := m
      preset := z.preset || (lawMode m && !lawMode z.mode)
      wFromY := if m == .auto then (if z.mode == .auto then z.wFromY else z.mode != .cascade) else false
      target := if m == .auto && z.mode == .cascade then z.w else z.target
      man := if m == .man && z.mode == .track then z.u else z.man })
  if track then raiseLoop Ev.LOOP_MODE_CHANGED n (modeCode m + 8 * 0) .module s1 else s1

/-- The set-point of an AUTO sample: w moves toward the target (11 R334). In part by log 40 (DEDUCED, unsafe). -/
def rampW (rate ts w target : F32) : F32 :=
  let r := F32.mul rate ts
  let g := F32.sub target w
  if F32.eq rate 0#32 || F32.le (F32.abs g) r then target
  else if F32.lt 0#32 g then F32.add w r
  else F32.sub w r

/-- The effective set-point of a sample. -/
def sampleW (s : State) (n : Nat) (y : F32) : F32 :=
  let r := loopRow s n
  let x := loopOf s n
  match x.mode with
  | .auto => if x.wFromY then y else rampW r.spRate (loopTs r.tsN) x.w x.target
  | .cascade =>
    match r.casRef with | some p => F32.clamp r.spLo r.spHi (loopU s p).val | none => x.w
  | _ => y

/-- The stores of a sample that does not evaluate the integrator, or of a preset sample: u as given, d := 0 and
i := u − p (11 R330, R331). `w` is the set-point of the law. -/
def storeAt (s : State) (n : Nat) (y w u : F32) (x : LpSt) : LpSt :=
  let k := loopCoef s n
  let neg := (loopRow s n).act != 0
  let sg := fun v => if neg then F32.neg v else v
  let pe := sg (F32.sub (F32.mul k.b w) y)
  let de := sg (F32.sub (F32.mul k.c w) y)
  { x with pe := pe, de := de, d := 0#32, i := F32.sub u (F32.mul k.kp pe), u := u, iClamp := false }

/-- The sign of the integrator term that a saturated secondary stops (11 R335): `some true` positive. -/
def stopSign (s : State) (n : Nat) : Option Bool :=
  match secondaryOf s n with
  | none => none
  | some k =>
    let r := loopRow s k
    let u := (loopOf s k).u
    let pos := r.act == 0
    if F32.le r.umax u then some pos else if F32.le u r.umin then some (!pos) else none

/-- The law of R327 with set-point `w`. -/
def lawStep (s : State) (n : Nat) (y w : F32) (x : LpSt) : LpSt :=
  let r := loopRow s n
  let k := loopCoef s n
  let sign := if r.act != 0 then 0xBF800000#32 else F32.one
  let e := F32.mul sign (F32.sub w y)
  let pe := F32.mul sign (F32.sub (F32.mul k.b w) y)
  let de := F32.mul sign (F32.sub (F32.mul k.c w) y)
  let p := F32.mul k.kp pe
  let d := F32.add (F32.mul k.ad x.d) (F32.mul k.bd (F32.sub de x.de))
  let pd := F32.add p d
  let t := F32.mul k.kis e
  let term := match stopSign s n with
    | some true => if F32.lt 0#32 t then 0#32 else t
    | some false => if F32.lt t 0#32 then 0#32 else t
    | none => t
  let i0 := F32.add x.i term
  let i1 := if F32.lt (F32.sub r.umax pd) i0 then F32.sub r.umax pd else i0
  let i2 := if F32.lt i1 (F32.sub r.umin pd) then F32.sub r.umin pd else i1
  let u0 := F32.add (F32.add p i2) d
  let u1 := if F32.lt r.umax u0 then r.umax else u0
  let u2 := if F32.lt u1 r.umin then r.umin else u1
  { x with pe := pe, de := de, d := d, i := i2, u := u2, iClamp := i2 != i0 }

/-- The evaluation of a sample of loop `n`: `sj` is the test signal at this sample, none without a test. -/
def evalSample (n : Nat) (y : Qv) (sj : Option F32) (s : State) : State :=
  let r := loopRow s n
  let x := loopOf s n
  let out := s.loops.test.point
  let um := measuredOut s n
  let inject := fun (z : LpSt) => match sj with
    | some v => if out then { z with u := F32.clamp r.umin r.umax (F32.add z.u v) } else z
    | none => z
  let z : LpSt :=
    if loopForced s n then
      let z1 := storeAt s n y.val x.w um x
      { z1 with forced := true, man := if x.mode == .man then um else x.man, preset := false, umNext := none, open' := false }
    else
      let x0 := { x with forced := false, open' := false }
      match x.mode with
      | .man => inject (storeAt s n y.val y.val (F32.clamp r.umin r.umax x.man) { x0 with w := y.val })
      | .track => inject (storeAt s n y.val y.val (F32.clamp r.umin r.umax x.trkVal) { x0 with w := y.val })
      | .auto | .cascade =>
        if x.badPv then { x0 with d := 0#32, u := if r.badPv = 2 then r.safeU else x.u }
        else
          let w := sampleW s n y.val
          let wl := match sj with | some v => if out then w else F32.add w v | none => w
          let openNow := x.mode == .auto && cascadeOpen s n
          let x1 := { x0 with w := w, wFromY := false, open' := openNow, preset := false, umNext := none }
          if x.preset || openNow then storeAt s n y.val wl um x1
          else inject (lawStep s n y.val wl x1)
      | _ => x0
  s.setLp n (fun _ =>
    { z with
      y := y.val
      ramp := z.mode == .auto && !F32.eq z.w z.target
      atLimit := F32.le r.umax z.u || F32.le z.u r.umin })

/-- The quality of a loop's output entry (11 R331, R336). -/
def outQuality (s : State) (n : Nat) : Byte :=
  if (loopOf s n).badPv then (if (loopRow s n).badPv = 2 then qUnc 9 else qUnc 8) else qGood

/-- The output entry and the four loop entries of loop `n` are released (11 R320, R324). -/
def releaseOut (n : Nat) (y : Qv) (s : State) : State :=
  let x := loopOf s n
  if x.mode == .fault then s
  else
    let s1 := match (loopRow s n).out with
      | some i => writeOut (.loop n) x.t0 i { val := numTo (s.lay i).ty x.u, q := outQuality s n } s
      | none => s
    setRef (.loop n 3) { val := w32 (modeCode x.mode), q := qGood }
      (setRef (.loop n 2) { val := F32.sub x.y x.w, q := if qClass y.q = 2 then qGood else y.q }
        (setRef (.loop n 1) { val := x.u, q := qGood } (setRef (.loop n 0) { val := x.w, q := qGood } s1)))

/-- What the test does at a sample of its loop, after the evaluation (11 R348, R349).
In part by log 41 (DEDUCED, unsafe). -/
def testStep (n : Nat) (y : Qv) (s : State) : State :=
  let t := s.loops.test
  if !testRunning s || t.loop != n then s
  else if (loopOf s n).mode != t.mode then testEnd 3 s
  else if loopForced s n then testEnd 7 s
  else if qIsBad y.q then testEnd 5 s
  else
    let d := t.dec + 1
    let first := t.j == 0
    let t1 := if t.j % d = 0 then { t with pairs := t.pairs ++ [(y.val, (loopOf s n).u)] } else t
    let t2 := { t1 with
      j := t.j + 1, s0 := if first then (loopOf s n).sample else t.s0, t0 := if first then s.tu.time else t.t0
      state := if t.j + 1 < t.pre then .pre else .injecting }
    let s1 := s.setTest (fun _ => t2)
    if F32.lt y.val t.guardLo || F32.lt t.guardHi y.val then
      raise Ev.TEST_GUARD (loopSrc n) ((y.val &&& 0xFFFFFF00#32) ||| w32 (n % 256)) .module (testEnd 2 s1)
    else if t.len ≤ t2.pairs.length then testEnd 0 s1
    else s1

/-- The entries that a sample of a loop reads. In part by log 40 (DEDUCED, unsafe). -/
def loopReads (r : LoopRow) : List Nat :=
  [r.pv, r.fb, r.trkCmd, r.trkVal, r.modeIn].filterMap id

/-- A sample of loop `n`: inputs in the order of R332, the law, the releases and the test.
In part by log 40 (DEDUCED, unsafe). -/
def loopSample (n : Nat) (s : State) : State :=
  if !s.running .loop || !loopUsed s n || !loopTurn s n then s
  else
    let u := (loopOf s n).unit
    let s0 := unitEqual .loop n (if u.active then u else { u with samples := sampleAsync s (loopReads (loopRow s n)) }) s
    let y := loopY s0 n
    let s1 := takeTrack n (takeSwap n (takeModeIn n (takeCmds n s0)))
    let s2 := takeMode n (takeQuality n y (takeCascade n y.val s1))
    let g := if testRunning s2 && s2.loops.test.loop == n then
        let p := testSignal s2 s2.loops.test
        (some p.1, p.2)
      else (none, s2.loops.test)
    let s3 := evalSample n y g.1 (s2.setTest (fun _ => g.2))
    let s4 := if (loopOf s3 n).mode == .fault then s3 else releaseOut n y (instanceDone (.loop n) (loopOf s3 n).t0 s3)
    let s5 := testStep n y s4
    let b := s5.now - (loopOf s5 n).t0
    (s5.setLp n (fun x => { x with due := false, unit := {} })).setLoops (fun l =>
      { l with busyMax := max l.busyMax b
               busy := (s5.now, b) :: l.busy.filter (fun p => decide (s5.now < p.1 + 1000000000)) })

/-- Loop `n` enters FAULT after a comparator fault (10 R308; 11 R341). In part by log 40 (DEDUCED, unsafe). -/
def loopFault (n : Nat) (s : State) : State :=
  let s1 := s.setLp n (fun x => { x with mode := .fault, due := false, unit := {}, badPv := false })
  testEndOn n 4 (raiseLoop Ev.LOOP_FAULT n 0 .module (writerFault (.loop n) s1))

/-! ### Reset and online change (11 R342, R343) -/

/-- A function reset of 0x02. -/
def resetLoops (s : State) : State :=
  let s1 := testEnd 6 s
  s1.setLoops (fun l =>
    { l with ticks := 0, lps := initLoops s1.img, ovrTotal := 0, cmdRes := 0, cmdLoop := 0, busy := [], busyMax := 0
             test := { reason := l.test.reason, result := l.test.result } })

/-- A loop starts from the image, with LOOP_ROW_REFUSED where its row is refused (11 R356). -/
def startLoop (n : Nat) (s : State) : State :=
  let c := loopRowCode s.img n
  let s1 := s.setLp n (fun _ => initLoop s.img n)
  if c = 0 then s1 else raiseLoop Ev.LOOP_ROW_REFUSED n c .module s1

/-- What an online change keeps of the loops: `old` is the image before the switch. -/
def switchLoops (old : ImageCfg) (s : State) : State :=
  forAll (old.loops.rows.keys ++ (s.img.loops.rows.keys.filter (fun k => !old.loops.rows.keys.contains k)))
    (fun n t =>
      let a := old.loops.rows.look n
      let b := t.img.loops.rows.look n
      let t1 := if a != b then testEndOn n 6 t else t
      if b.form = 0 then t1.setLp n (fun _ => {})
      else if a.form != b.form || (loopOf t n).code != 0 then
        startLoop n t1
      else
        let c := loopRowCode t.img n
        let kb := rowBanks b
        if c != 0 then startLoop n t1
        else if rowBanks a != kb then
          t1.setLp n (fun x => { x with a := kb.1, b := kb.2, bankB := false, swap := false, rebase := true })
        else t1) s

/-! ### Object blocks (11 R350–R355) -/

/-- The last accepted LP_TARGET, taken or still waiting. -/
def targetNow (x : LpSt) : F32 := x.cmds.foldl (fun v c => match c with | .target w => w | _ => v) x.target
/-- The last accepted LP_MANV. -/
def manNow (x : LpSt) : F32 := x.cmds.foldl (fun v c => match c with | .manv w => w | _ => v) x.man

/-- LP_STAT. -/
def lpStat (s : State) (n : Nat) : Nat :=
  let x := loopOf s n
  modeCode x.mode + 8 * reqAfter x + 32 * b2n x.bankB + 64 * b2n x.swap + 128 * b2n x.ramp + 256 * b2n x.iClamp
    + 512 * b2n x.atLimit + 1024 * b2n x.badPv + 2048 * b2n x.open' + 4096 * b2n (loopForced s n)
    + 8192 * b2n (testRunning s && s.loops.test.loop == n) + 16384 * b2n (heldLocal s 0 n) + 65536 * x.code

/-- The code of LT_STATE. -/
def testCode : TestState → Nat
  | .idle => 0 | .pre => 1 | .injecting => 2 | .done => 3 | .early => 4

/-- Block 0x06 of the loop engine. -/
def testObj (s : State) (off : Nat) : Option Nat :=
  let t := s.loops.test
  if off = 0 then some (t.loop + 256 * t.kind + 2048 * b2n t.point + 4096 * t.order)
  else if off = 4 then some t.amp.toNat
  else if off = 8 then some (t.width + 65536 * t.dec)
  else if off = 0xC then some t.freq.toNat
  else if off = 0x10 then some t.guardLo.toNat
  else if off = 0x14 then some t.guardHi.toNat
  else if off = 0x18 then some t.pre
  else if off = 0x1C then some t.len
  else if off = 0x24 then some (testCode t.state + 256 * t.result + 65536 * t.reason)
  else if off = 0x28 then some t.pairs.length
  else if off = 0x2C then some t.s0
  else if off = 0x30 then some (t.t0.toNat % 4294967296)
  else if off = 0x34 then some (t.t0.toNat / 4294967296)
  else none

/-- Blocks 0x02 to 0x07 of function 0x02. -/
def loopObj (s : State) (blk off : Nat) : Option Nat :=
  let l := s.loops
  if blk = 2 then
    if off = 0 then some ((loopLoad s.img).1 / (loopLoad s.img).2)
    else if off = 4 then
      let recent := (l.busy.filter (fun p => decide (s.now < p.1 + 1000000000))).foldl (fun a p => max a p.2) 0
      some (min top16 (recent / 10) + 65536 * min top16 (l.busyMax / 10))
    else if off = 8 then
      some ((s.img.loops.rows.filter (fun p => p.2.form != 0)).length
        + 65536 * (l.lps.filter (fun p => p.2.mode == .fault)).length)
    else if off = 0xC then some l.ovrTotal
    else if off = 0x10 then some (l.cmdRes + 256 * l.cmdLoop)
    else none
  else if blk = 3 then
    let n := off / 32
    if 256 ≤ n then none
    else
      let x := loopOf s n
      let k := off % 32
      some (if k = 0 then lpStat s n else if k = 4 then x.sample else if k = 8 then x.y.toNat
        else if k = 0xC then x.w.toNat else if k = 0x10 then x.u.toNat else if k = 0x14 then x.i.toNat
        else if k = 0x18 then x.ovr else x.swapAt)
  else if blk = 4 then
    let n := off / 16
    if 256 ≤ n then none
    else
      let x := loopOf s n
      let k := off % 16
      if k = 0 then some (targetNow x).toNat else if k = 4 then some (manNow x).toNat
      else if k = 8 then some (reqAfter x) else none
  else if blk = 5 then
    let n := off / 64
    if 256 ≤ n then none
    else
      let x := loopOf s n
      let k := off % 64 / 4
      some (if k < 6 then (bankWord x.a k).toNat else if 8 ≤ k && k < 14 then (bankWord x.b (k - 8)).toNat else 0)
  else if blk = 6 then testObj s off
  else if blk = 7 then
    if off = 0 then some l.test.index
    else if 0x100 ≤ off && off < 0x300 then
      let q := l.test.index + (off - 0x100) / 8
      match l.test.pairs[q]? with
      | some p => some (if off % 8 = 0 then p.1.toNat else p.2.toNat)
      | none => some 0
    else none
  else none

/-! ### Commands -/

/-- LOOP_RELEASE. -/
def execLoopRelease (s : State) : Host.Outcome State Fault Refusal := .next (loopTick s)
/-- LOOP_SAMPLE. -/
def execLoopSample (n : Fin 256) (s : State) : Host.Outcome State Fault Refusal := .next (loopSample n.val s)
/-- LP_TARGET. -/
def execLpTarget (n : Fin 256) (v : F32) (r : Role) (s : State) : Host.Outcome State Fault Refusal :=
  .next (lpTarget n.val v r s)
/-- LP_MANV. -/
def execLpManv (n : Fin 256) (v : F32) (r : Role) (s : State) : Host.Outcome State Fault Refusal :=
  .next (lpManv n.val v r s)
/-- LP_MODE_REQ. -/
def execLpModeReq (n : Fin 256) (v : W32) (r : Role) (s : State) : Host.Outcome State Fault Refusal :=
  .next (lpModeReq n.val v r s)
/-- SWAP. -/
def execSwap (n : Fin 256) (r : Role) (s : State) : Host.Outcome State Fault Refusal := .next (loopSwap n.val r s)
/-- RESTART. -/
def execRestart (n : Fin 256) (r : Role) (s : State) : Host.Outcome State Fault Refusal := .next (loopRestart n.val r s)
/-- LOOP_BANK_EDITED. -/
def execLoopBankEdited (n : Fin 256) (bankB : Bool) (word : Fin 6) (v : F32) (r : Role) (s : State) :
    Host.Outcome State Fault Refusal := .next (bankEdit n.val bankB word.val v r s)
/-- TEST_START. -/
def execTestStart (r : Role) (s : State) : Host.Outcome State Fault Refusal := .next (testStart r s)
/-- TEST_STOP. -/
def execTestStop (r : Role) (s : State) : Host.Outcome State Fault Refusal := .next (testStop r s)

end Sys2Proof.Machine
end

