-- ==== Sys2Proof/Machine/Alarm.lean ====
section
/-! DEFINITION. The alarm engine (chapter 08): points, commands, groups and first-out, the engineer call and the
dead-man timer. -/

namespace Sys2Proof.Machine

/-- The row of a point. -/
def almRow (s : State) (n : Nat) : AlmRow := s.img.alarm.rows.look n
/-- A point. -/
def almOf (s : State) (n : Nat) : AlmPt := s.alarm.pts.look n
/-- A group. -/
def grpOf (s : State) (g : Nat) : AlmGrp := s.alarm.grps.look g
/-- The alarm engine changed. -/
def State.setAlm (s : State) (f : AlarmSt → AlarmSt) : State := { s with alarm := f s.alarm }
/-- A point changed. -/
def State.setPt (s : State) (n : Nat) (f : AlmPt → AlmPt) : State := s.setAlm (fun a => { a with pts := a.pts.upd n f })
/-- A group changed. -/
def State.setGrp (s : State) (g : Nat) (f : AlmGrp → AlmGrp) : State :=
  s.setAlm (fun a => { a with grps := a.grps.upd g f })
/-- The code of a point state (08 R259). -/
def almCode : AlmState → Nat
  | .normal => 0 | .activeUnack => 1 | .activeAck => 2 | .rtnUnack => 3 | .shelved => 4 | .suppressed => 5
  | .oos => 6 | .unused => 7
/-- True for a point that the image uses and the engine accepted. -/
def almUsed (s : State) (n : Nat) : Bool := (almOf s n).state != .unused
/-- The points of the image, ascending. -/
def almPoints (s : State) : List Nat := s.img.alarm.rows.keys
/-- True in the states that keep a group's episode open. -/
def inEpisode (x : AlmState) : Bool := x == .activeUnack || x == .activeAck || x == .rtnUnack
/-- True in the hidden states (R237). -/
def almHidden (x : AlmState) : Bool := x == .shelved || x == .suppressed || x == .oos

/-- The event source of a point (R257). -/
def almSrc (s : State) (n : Nat) : Nat :=
  let r := almRow s n
  match (match r.inp with | some i => (s.lay i).ref | none => .unused) with
  | .aiMain b c => chSrc b c | .aiSecond b c => chSrc b c
  | .diState g p => dpSrc g p | .diCount g p => dpSrc g p | .diFreq g p => dpSrc g p
  | .loop k _ => loopSrc k
  | _ => r.src

/-- The data word of a point event, with `top` in [31:24] (R264). -/
def almData (s : State) (n top : Nat) : Nat :=
  let r := almRow s n
  n + 2048 * (r.prio % 4) + 8192 * almCode (almOf s n).state + 65536 * (r.group % 256) + 16777216 * top

/-- Raises an event of a point. -/
def raisePt (k : EvKind) (n top : Nat) (o : Origin) (s : State) : State :=
  raise k (almSrc s n) (w32 (almData s n top)) o s
/-- Raises an event of the engine on ENG_SRC. -/
def raiseEng (k : EvKind) (data : Nat) (o : Origin) (s : State) : State :=
  raise k s.img.alarm.engSrc (w32 data) o s

/-! ### Conditions (08 R230, R231) -/

/-- A value as binary32 by the type of its entry. -/
def almVal (s : State) (i : Nat) (v : W32) : F32 :=
  match (s.lay i).ty with
  | .real => v | .int32 => F32.ofInt v.toInt | .uint32 => F32.ofInt (v.toNat : Int)
  | .bool => F32.ofInt (b2n (v != 0) : Nat)

/-- A threshold condition with its hysteresis: above `l` it becomes 1, at or below `l − db` it becomes 0. -/
def above (was : Bool) (v l db : F32) : Bool :=
  if F32.lt l v then true else if F32.le v (F32.sub l db) then false else was
/-- Below `l` the condition becomes 1, at or above `l + db` it becomes 0. -/
def below (was : Bool) (v l db : F32) : Bool :=
  if F32.lt v l then true else if F32.le (F32.add l db) v then false else was

/-- Ticks of the RATE window. -/
def rateTicks (r : AlmRow) : Nat := r.win / 10

/-- The rate r of R230 from a full history, newest first. -/
def almRate (r : AlmRow) (hist : List F32) : F32 :=
  F32.div (F32.mul (F32.sub (hist.getD 0 0#32) (hist.getD (rateTicks r) 0#32)) 0x42700000#32) (F32.ofRat r.win 1000)

/-- The raw condition of a point at a tick with the history and the flag of a BAD input (R230, R231). -/
def rawNow (s : State) (r : AlmRow) (x : AlmPt) : Bool × List F32 × Bool :=
  match r.inp with
  | none => (x.raw, x.hist, false)
  | some i =>
    let q := readEntry s i
    let v := almVal s i q.val
    let q2 := match r.in2 with | some j => readEntry s j | none => { val := 0, q := qGood }
    let v2 := match r.in2 with | some j => almVal s j q2.val | none => 0#32
    let bad := qIsBad q.q || (r.ty == 5 && qIsBad q2.q)
    if r.ty = 8 then (qIsBad q.q || (!r.badOnly && qClass q.q == 1), [], false)
    else if bad then (x.raw, [], true)
    else if r.ty = 1 ∨ r.ty = 2 then (above x.raw v r.limit r.db, [], false)
    else if r.ty = 3 ∨ r.ty = 4 then (below x.raw v r.limit r.db, [], false)
    else if r.ty = 5 then (above x.raw (F32.abs (F32.sub v v2)) r.limit r.db, [], false)
    else if r.ty = 6 then
      let h := (v :: x.hist).take (rateTicks r + 1)
      if h.length < rateTicks r + 1 then (x.raw, h, false)
      else if F32.lt 0#32 r.limit then (above x.raw (almRate r h) r.limit r.db, h, false)
      else (below x.raw (almRate r h) r.limit r.db, h, false)
    else ((q.val != 0) == r.abn, [], false)

/-! ### First-out (08 R243–R245) -/

/-- The capture stamp of a DIGITAL point whose run begins at tick time `t`: the stamp, and that one was lost. -/
def onsetStamp (s : State) (n : Nat) (t : W64) : Option W64 × Bool :=
  let r := almRow s n
  if r.ty != 7 then (none, false)
  else
    match r.inp with
    | none => (none, false)
    | some i =>
      match (s.lay i).ref with
      | .diState g p =>
        if !(capEn s).getLsbD (8 * g + p) then (none, false)
        else
          let lo : Int := t.toNat - filtNs (s.dpCfg g p) - 20000000
          let inWin := fun w : W64 => decide (lo ≤ w.toNat) && decide (w.toNat ≤ t.toNat)
          let e := s.alarm.caps.find? (fun c =>
            c.1.kind == .digital && c.1.source == dpSrc g p && inWin c.1.stamp && c.1.bit8 == r.abn)
          let gap := s.alarm.caps.any (fun c => c.1.lostBefore && inWin c.2)
          match e with
          | some c => if gap then (none, true) else (some c.1.stamp, false)
          | none => (none, true)
      | _ => (none, false)

/-- True when a first-out entry stands before another: key, then point. -/
def foBefore (a b : FoEntry) : Bool := decide (a.key < b.key) || (a.key == b.key && decide (a.point < b.point))

/-- An entry put into its place of the rising order; the list holds eight. In part by log 33, 36 (DEDUCED, unsafe). -/
def foInsert (e : FoEntry) : List FoEntry → List FoEntry
  | [] => [e]
  | a :: r => if foBefore e a then e :: a :: r else a :: foInsert e r

/-- A point joins its group's first-out list (R243, R245). -/
def foJoin (n : Nat) (e : FoEntry) (s : State) : State :=
  let g := (almRow s n).group
  let x := grpOf s g
  if x.joined.contains n then s
  else
    let l := (foInsert e x.list).take 8
    let s1 := s.setGrp g (fun y =>
      { y with list := l, joined := y.joined ++ [n], uncertain := y.uncertain || e.lost, seq := wrap32 (y.seq + 1) })
    let s2 := if (match l with | a :: _ => a.point == n | [] => false)
      then raiseEng Ev.FO_REORDERED (g + 256 * n) .module s1 else s1
    if e.lost then raiseEng Ev.FO_STAMP_LOST (g + 256 * n) .module s2 else s2

/-- A point enters ACTIVE-UNACK: its onset key and its event, whose record shows the key (R244, R246). -/
def enterUnack (n : Nat) (re : Bool) (s : State) : State :=
  let x := almOf s n
  let key : W64 := if re then s.alarm.tickTime else match x.stamp with | some t => t | none => x.runAt
  let stamped := !re && x.stamp.isSome
  let s1 := s.setPt n (fun y => { y with state := .activeUnack, key := key, stamped := stamped })
  let s2 := raiseAt key Ev.ALARM_ACTIVE (almSrc s1 n) (w32 (almData s1 n (b2n stamped))) .module s1
  s2.setAlm (fun a => { a with entered := a.entered ++ [(n, re)] })

/-- Step 4 for group `g`: its episode, and the points that join its list (R243). -/
def updateGroup (g : Nat) (s : State) : State :=
  let x := grpOf s g
  let mine := s.alarm.entered.filter (fun p => (almRow s p.1).group == g)
  let any := (almPoints s).any (fun n => (almRow s n).group == g && inEpisode (almOf s n).state)
  let s1 :=
    if x.openNow && !any then s.setGrp g (fun y => { y with openNow := false, uncertain := false })
    else if !x.openNow && !mine.isEmpty && any then
      s.setGrp g (fun y =>
        { y with openNow := true, list := [], joined := [], uncertain := false, episodes := satInc top16 y.episodes
                 seq := wrap32 (y.seq + 1) })
    else s
  if (grpOf s1 g).openNow then
    forAll mine (fun p t =>
      let y := almOf t p.1
      foJoin p.1 { key := y.key, point := p.1, stamped := y.stamped, lost := !p.2 && y.lost } t) s1
  else s1

/-- The groups that points of the image belong to. -/
def almGroups (s : State) : List Nat := (s.img.alarm.rows.map (fun p => p.2.group)).eraseDups

/-- Step 4 of a tick. In part by log 34 (DEDUCED, unsafe). -/
def updateGroups (s : State) : State :=
  (forAll (almGroups s) updateGroup s).setAlm (fun a => { a with entered := [] })

/-! ### Points (08 R232–R235) -/

/-- The state that a point takes on re-entry, with its events (R234). In part by log 35 (DEDUCED, unsafe). -/
def reenter (n : Nat) (s : State) : State :=
  let x := almOf s n
  let say := fun (t : State) =>
    match x.reentry with
    | .none => t
    | .released => raisePt Ev.ALARM_RELEASED n 0 x.by' t
    | .unshelved timed => raisePt Ev.ALARM_UNSHELVED n (b2n timed) x.by' t
    | .service => raisePt Ev.ALARM_OOS n 0 x.by' t
  let clear := fun (t : State) => t.setPt n (fun y => { y with reentry := .none, by' := .module })
  if x.shelve.isSome then say (clear (s.setPt n (fun y => { y with state := .shelved })))
  else if x.suppOn then say (clear (s.setPt n (fun y => { y with state := .suppressed })))
  else if x.delayed then
    enterUnack n true (say (clear (s.setPt n (fun y => { y with state := .activeUnack }))))
  else say (clear (s.setPt n (fun y => { y with state := .normal })))

/-- The suppression of a point at a tick (R235). In part by log 35 (DEDUCED, unsafe). -/
def stepSupp (s : State) (r : AlmRow) (x : AlmPt) : AlmPt :=
  match r.supp with
  | none => { x with suppOn := false, suppRun := none }
  | some i =>
    let q := readEntry s i
    if qClass q.q < 2 then { x with suppOn := false, suppRun := none }
    else if (q.val != 0) == r.suppPol then { x with suppOn := true, suppRun := none }
    else if !x.suppOn then { x with suppRun := none }
    else
      let k := match x.suppRun with | some k => k + 1 | none => 0
      if r.suppRel / 10 ≤ k then { x with suppOn := false, suppRun := none } else { x with suppRun := some k }

/-- The delayed condition from a run of the raw condition (R232). -/
def stepDelay (r : AlmRow) (x : AlmPt) : AlmPt :=
  if x.raw && !x.delayed && r.on / 10 ≤ x.run then { x with delayed := true }
  else if !x.raw && x.delayed && r.off / 10 ≤ x.run then { x with delayed := false }
  else x

/-- The transitions of a point that its conditions decide (R233). -/
def almTrans (n : Nat) (s : State) : State :=
  let x := almOf s n
  match x.state with
  | .shelved | .oos | .suppressed =>
    if x.reentry != .none then reenter n s
    else if x.state == .suppressed && !x.suppOn then reenter n (s.setPt n (fun y => { y with reentry := .released }))
    else s
  | .unused => s
  | st =>
    if x.suppOn then raisePt Ev.ALARM_SUPPRESSED n 0 .module (s.setPt n (fun y => { y with state := .suppressed }))
    else
      match st, x.delayed with
      | .normal, true => enterUnack n false s
      | .activeUnack, false => raisePt Ev.ALARM_RETURNED n 0 .module (s.setPt n (fun y => { y with state := .rtnUnack }))
      | .activeAck, false => raisePt Ev.ALARM_RETURNED n 0 .module (s.setPt n (fun y => { y with state := .normal }))
      | .rtnUnack, true => enterUnack n false (s.setPt n (fun y => { y with reacts := satInc 255 y.reacts }))
      | _, _ => s

/-- Step 3 for point `n`. In part by log 34 (DEDUCED, unsafe). -/
def evalPoint (n : Nat) (s : State) : State :=
  if !almUsed s n then s
  else
    let r := almRow s n
    let x := almOf s n
    let c := rawNow s r x
    let turns := c.1 != x.raw
    let st := if turns && c.1 then onsetStamp s n s.alarm.tickTime else (x.stamp, x.lost)
    let x1 := { x with
      raw := c.1, hist := c.2.1, inputBad := c.2.2
      run := if turns then 0 else x.run + 1
      runAt := if turns then s.alarm.tickTime else x.runAt
      stamp := st.1, lost := st.2 }
    let x2 := stepSupp s r (stepDelay r x1)
    let left := match x2.shelve with | some k => some (k - 1) | none => none
    let ends := x2.state == .shelved && left == some 0
    let x3 := { x2 with
      shelve := if ends then none else left
      reentry := if ends then .unshelved true else x2.reentry, by' := if ends then .module else x2.by' }
    let s1 := s.setPt n (fun _ => x3)
    almTrans n (if c.2.2 && !x.inputBad then raisePt Ev.ALARM_INPUT_BAD n 0 .module s1 else s1)

/-! ### Commands (08 R236, R238–R242, R253) -/

/-- An acknowledgement of one point at location 0. -/
def ackPoint (o : Origin) (n : Nat) (s : State) : State :=
  match (almOf s n).state with
  | .activeUnack => raisePt Ev.ALARM_ACKED n 0 o (s.setPt n (fun y => { y with state := .activeAck }))
  | .rtnUnack => raisePt Ev.ALARM_ACKED n 0 o (s.setPt n (fun y => { y with state := .normal }))
  | _ => s

/-- The bytes of an ALARM_CMD: ACK of all points at location 0 (15 R475). -/
def ackAllBytes : List Byte := [1#8, 2#8, 0#8, 0#8, 0#8, 0#8, 0#8, 0#8]

/-- The horn, a cabin or the bridge is silenced (R253). In part by log 36 (DEDUCED, unsafe). -/
def silence (loc : Nat) (o : Origin) (s : State) : State :=
  let on := s.alarm.stage != 0
  raiseEng Ev.CALL_SILENCED loc o
    (s.setAlm (fun a =>
      if !on then a
      else if loc = 0 then { a with hornSil := true }
      else if loc = 9 then { a with bridgeSil := true }
      else { a with cabinSil := a.cabinSil ||| ((1 : BitVec 8) <<< (loc - 1)) }))

/-- A command applied at step 2 of a tick. In part by log 35 (DEDUCED, unsafe). -/
def applyAlm (c : AlmCmd) (s : State) : State :=
  match c with
  | .ack target index loc o =>
    if loc != 0 then silence loc o s
    else if target = 0 then ackPoint o index s
    else if target = 1 then forAll ((almPoints s).filter (fun n => (almRow s n).group == index)) (ackPoint o) s
    else if target = 2 then
      let s1 := forAll (almPoints s) (ackPoint o) s
      let s2 := s1.setAlm (fun a =>
        { a with stations := (a.stations.map (fun p => (p.1, { p.2 with unacked := false }))).filter (fun p => p.2 != default) })
      if s.img.alarm.master then forAll s.img.alarm.fwd (fun st t => send (.alarmCmd st ackAllBytes) t) s2 else s2
    else s.setAlm (fun a => { a with dmUnack := false })
  | .shelve n minutes o =>
    if (almOf s n).state == .oos || !almUsed s n then s
    else
      let left := some (minutes * 6000 + 1)
      if (almOf s n).state == .shelved then s.setPt n (fun y => { y with shelve := left, reentry := .none })
      else
        let r := almRow s n
        let s1 := s.setPt n (fun y => { y with state := .shelved, shelve := left, reentry := .none })
        raise Ev.ALARM_SHELVED (almSrc s1 n) (w32 (n + 2048 * (r.prio % 4) + 8192 * (minutes % 2048) + 16777216 * (r.group % 256))) o s1
  | .unshelve n o =>
    if (almOf s n).state == .shelved then
      s.setPt n (fun y => { y with shelve := none, reentry := .unshelved false, by' := o })
    else s
  | .silence loc o => silence loc o s
  | .oos n set o =>
    if !almUsed s n then s
    else if set then
      if (almOf s n).state == .oos then s.setPt n (fun y => { y with reentry := .none })
      else raisePt Ev.ALARM_OOS n 1 o (s.setPt n (fun y => { y with state := .oos, shelve := none, reentry := .none }))
    else if (almOf s n).state == .oos then s.setPt n (fun y => { y with reentry := .service, by' := o })
    else s

/-- The result of the last command in ALM_CMD_RES. In part by log 35 (DEDUCED, unsafe). -/
def almResult (n : Nat) (s : State) : State := s.setAlm (fun a => { a with cmdRes := n })

/-- A command waits for the next tick. -/
def almQueue (c : AlmCmd) (s : State) : State :=
  almResult 0 (s.setAlm (fun a => { a with cmds := a.cmds ++ [c] }))

/-- The shelve limit of a group in min. -/
def shelveLimit (s : State) (g : Nat) : Nat :=
  match (grpOf s g).shelve with | some n => n | none => s.img.alarm.shelve.look g

/-- A location that the image knows. -/
def locOk (s : State) (loc : Nat) : Bool := loc == 0 || loc == 9 || (1 ≤ loc && loc ≤ s.img.alarm.engN)

/-- An ACK arrives: its result code (R238, R241). In part by log 35 (DEDUCED, unsafe). -/
def ackArrives (target index loc : Nat) (o : Origin) (s : State) : State :=
  if 3 < target || (target = 0 && 2048 ≤ index) || (target = 1 && 256 ≤ index) then almResult 2 s
  else if !locOk s loc then almResult 5 s
  else almQueue (.ack target index loc o) s

/-- A SHELVE arrives (R236). In part by log 35 (DEDUCED, unsafe). -/
def shelveArrives (target index loc minutes : Nat) (o : Origin) (s : State) : State :=
  if target != 0 || 2048 ≤ index || !almUsed s index then almResult 2 s
  else if loc != 0 then almResult 5 s
  else
    let lim := shelveLimit s (almRow s index).group
    if (almRow s index).prio = 0 || lim = 0 then almResult 3 s
    else if minutes < 1 || lim < minutes then almResult 4 s
    else if (almOf s index).state == .oos then almResult 6 s
    else almQueue (.shelve index minutes o) s

/-- An UNSHELVE arrives. In part by log 35 (DEDUCED, unsafe). -/
def unshelveArrives (target index loc : Nat) (o : Origin) (s : State) : State :=
  if target != 0 || 2048 ≤ index || !almUsed s index then almResult 2 s
  else if loc != 0 then almResult 5 s
  else almQueue (.unshelve index o) s

/-- A write of ALM_OOS: none when the word is refused (R240, R262). In part by log 35 (DEDUCED, unsafe). -/
def oosWrite (v : W32) (r : Role) (s : State) : Option State :=
  let n := v.toNat % 2048
  if !roleAtLeast r .engineer then some (almResult 1 s)
  else if v.toNat / 16777216 != 0x0A || v.toNat / 2048 % 32 != 0 || v.toNat / 131072 % 128 != 0 then none
  else if !almUsed s n then some (almResult 2 s)
  else some (almQueue (.oos n (v.getLsbD 16) (.role r)) s)

/-! ### Engineer call (08 R247–R253) -/

/-- An input entry reads 1 and is not BAD or UNCERTAIN. -/
def high (s : State) (i : Nat) : Bool := let q := readEntry s i; 2 ≤ qClass q.q && q.val != 0

/-- Input entries whose edges the engine follows. -/
def edgeInputs (c : AlarmCfg) : List Nat :=
  c.msAck ++ c.msSil ++ (c.engs.take c.engN).filterMap (·.ack) ++ c.bridgeAck.toList
    ++ c.dmEnter ++ c.dmReset ++ c.dmLeave

/-- A rising edge at an input since the last tick; the first tick after a start samples the levels only. -/
def rises (s : State) (i : Nat) : Bool := s.alarm.sampled && high s i && !s.alarm.highs.contains i

/-- The buttons of the call act as commands of a field input (R253). -/
def buttonCmds (s : State) : List AlmCmd :=
  let c := s.img.alarm
  let cabins := (List.range c.engN).filterMap (fun e =>
    match (c.engs.getD e {}).ack with
    | some i => if rises s i then some (AlmCmd.ack 2 0 (e + 1) .field) else none
    | none => none)
  (if c.msAck.any (rises s) then [AlmCmd.ack 2 0 0 .field] else [])
    ++ (if c.msSil.any (rises s) then [AlmCmd.silence 0 .field] else [])
    ++ cabins ++ (if c.bridgeAck.toList.any (rises s) then [AlmCmd.ack 2 0 9 .field] else [])

/-- CALL_UMS as it stands. -/
def umsSel (s : State) : Nat := match s.alarm.umsSet with | some n => n | none => s.img.alarm.ums

/-- UMS is in force (R249). -/
def umsInForce (s : State) : Bool :=
  if umsSel s = 1 then false else if umsSel s = 2 then true
  else match s.img.alarm.umsIn with
    | none => false
    | some i => let q := readEntry s i; qClass q.q < 2 || q.val != 0

/-- Bits of the duty selector inputs. -/
def dutyBits (s : State) : Nat :=
  ((List.range s.img.alarm.engN).map (fun e =>
    match (s.img.alarm.engs.getD e {}).duty with | some i => b2n (high s i) * 2 ^ e | none => 0)).sum

/-- The duty engineer, where one is valid (R249). -/
def dutyEngineer (s : State) : Option Nat :=
  let c := s.img.alarm
  if s.alarm.dutySel < c.engN then some s.alarm.dutySel
  else
    let ins := (List.range c.engN).filterMap (fun e => (c.engs.getD e {}).duty)
    let ok := ins.all (fun i => 2 ≤ qClass (readEntry s i).q)
    let on := (List.range c.engN).filter (fun e =>
      match (c.engs.getD e {}).duty with | some i => high s i | none => false)
    match on with
    | [e] => if ok then some e else none
    | _ => none

/-- A local point is a calling condition (R248). -/
def pointCalls (s : State) (n : Nat) : Bool :=
  (almOf s n).state == .activeUnack && s.img.alarm.grpEn.look (almRow s n).group && (almRow s n).prio ≤ s.img.alarm.prio

/-- The calling conditions as they stand: points, forwarded groups, lost stations, the dead-man alarm. -/
def callingNow (s : State) : List CallCond :=
  let pts := ((almPoints s).filter (pointCalls s)).map CallCond.point
  let fwd := (List.range s.img.alarm.fwd.length).flatMap (fun i =>
    ((s.alarm.stations.look i).groups.filter (fun g => 1 ≤ g.count)).map (fun g => CallCond.fwd i g.group g.point))
  let lost := ((List.range s.img.alarm.fwd.length).filter (fun i => (s.alarm.stations.look i).unacked)).map CallCond.lost
  pts ++ (if s.img.alarm.master then fwd ++ lost else []) ++ (if s.alarm.dmUnack then [CallCond.deadman] else [])

/-- Same condition, whichever point stands at its group's rank 1. -/
def sameCond : CallCond → CallCond → Bool
  | .fwd a g _, .fwd b h _ => a == b && g == h
  | x, y => x == y

/-- Group, point and forwarding of a calling condition. -/
def condWord (s : State) : CallCond → Nat × Nat × Bool
  | .point n => ((almRow s n).group, n, false)
  | .fwd _ g p => (g, p, true)
  | _ => (0, 0, false)

/-- CALL_STAGE of a condition (R251, R252). In part by log 36 (DEDUCED, unsafe). -/
def raiseStage (c : CallCond) (s : State) : State :=
  let w := condWord s c
  raiseEng Ev.CALL_STAGE (s.alarm.stage + 4 * w.1 + 1024 * w.2.1 + 2097152 * b2n w.2.2) .module s

/-- The rank-1 point of the group of a condition. -/
def condFirst (s : State) : CallCond → Nat × W64
  | .point n =>
    match (grpOf s (almRow s n).group).list with
    | a :: _ => (a.point, a.key)
    | [] => (n, (almOf s n).key)
  | .fwd _ _ p => (p, 0)
  | _ => (0, 0)

/-- The payload of CALL_NOTIFY for the opening condition (R250; 15 R475). In part by log 2 (DESIGN CHOICE, safe). -/
def notifyBytes (s : State) (c : CallCond) : List Byte :=
  let w := condWord s c
  let f := condFirst s c
  let station := match c with
    | .fwd i _ _ => s.img.alarm.fwd.getD i 0
    | .lost i => s.img.alarm.fwd.getD i 0
    | _ => (s.otpWord 1 0 0).toNat
  let prio := match c with
    | .point n => (almRow s n).prio
    | .fwd i g _ => (((s.alarm.stations.look i).groups.find? (fun x => x.group == g)).map (·.prio)).getD 0
    | _ => 0
  leBytes 4 station ++ leBytes 1 w.1 ++ leBytes 1 prio ++ leBytes 1 s.alarm.stage ++ leBytes 1 (b2n w.2.2)
    ++ leBytes 2 f.1 ++ leBytes 2 0 ++ leBytes 8 f.2.toNat

/-- The units that the present stage notifies: cabins, and 8 for the bridge (R250). -/
def stageUnits (s : State) : List Nat :=
  let c := s.img.alarm
  if s.alarm.stage = 3 then List.range c.engN ++ [8]
  else if s.alarm.stage = 2 then
    (match dutyEngineer s with | some e => [e] | none => List.range c.engN)
  else []

/-- True while a unit is silenced. -/
def unitSilenced (s : State) (u : Nat) : Bool :=
  if u = 8 then s.alarm.bridgeSil else s.alarm.cabinSil.getLsbD u

/-- CALL_NOTIFY goes to a unit. -/
def notifyUnit (u : Nat) (s : State) : State :=
  match s.alarm.opener with
  | none => s
  | some c =>
    (send (.callNotify u (notifyBytes s c)) s).setAlm (fun a =>
      { a with notified := if a.notified.contains u then a.notified else a.notified ++ [u] })

/-- The call enters a stage: CALL_STAGE and the messages of the stage. Stage 3 ends the silence of the cabins. -/
def enterStage (st : Nat) (s : State) : State :=
  let s1 := s.setAlm (fun a =>
    { a with stage := st, stage2 := if st = 2 then 0 else a.stage2, cabinSil := if st = 3 then 0 else a.cabinSil })
  let s2 := match s1.alarm.opener with | some c => raiseStage c s1 | none => s1
  forAll (stageUnits s2) notifyUnit s2

/-- The call opens on a condition: stage 3 at once where a dead-man alarm calls (R251, R254). -/
def openCall (c : CallCond) (s : State) : State :=
  let st := if !s.img.alarm.master || !s.alarm.umsNow then 1 else if s.alarm.calling.contains .deadman then 3 else 2
  enterStage st
    (s.setAlm (fun a =>
      { a with opener := some c, openTicks := 0, calls := wrap32 (a.calls + 1), hornSil := false, cabinSil := 0
               bridgeSil := false, notified := [] }))

/-- CALL_CLEAR to a unit. -/
def clearUnit (u : Nat) (s : State) : State := send (.callClear u s.alarm.calls) s

/-- The last calling condition has gone: stage 0, CALL_ENDED and CALL_CLEAR. In part by log 36 (DEDUCED, unsafe). -/
def closeCall (s : State) : State :=
  let s1 := raiseEng Ev.CALL_ENDED (s.alarm.openTicks / 100) .module
    (s.setAlm (fun a => { a with stage := 0, hornSil := false, cabinSil := 0, bridgeSil := false, stage2 := 0 }))
  forAll s.alarm.notified clearUnit s1

/-- Step 5: the engineer call of a tick. In part by log 36 (DEDUCED, unsafe). -/
def runCall (s : State) : State :=
  let now := callingNow s
  let fresh := now.filter (fun c => !s.alarm.calling.any (sameCond c))
  let s1 := s.setAlm (fun a => { a with calling := now, openTicks := a.openTicks + 1, stage2 := a.stage2 + 1 })
  if s.alarm.stage = 0 then
    match now with
    | [] => s1
    | c :: r => forAll r raiseStage (openCall c s1)
  else if now.isEmpty then closeCall s1
  else
    let s2 := if fresh.isEmpty then s1 else s1.setAlm (fun a => { a with hornSil := false })
    let s3 := forAll fresh raiseStage s2
    let st := s3.alarm.stage
    if !s3.img.alarm.master then s3
    else if !s3.alarm.umsNow then (if 2 ≤ st then enterStage 1 s3 else s3)
    else if fresh.contains .deadman && st != 3 then enterStage 3 s3
    else if st = 1 then enterStage 2 s3
    else if st = 2 && 100 * s3.img.alarm.esc ≤ s3.alarm.stage2 then enterStage 3 s3
    else s3

/-- A forwarding station has not been heard for 3 s (R248). In part by log 36 (DEDUCED, unsafe). -/
def stationLost (i : Nat) (s : State) : State :=
  if !s.img.alarm.master || s.img.alarm.fwd.length ≤ i || (s.alarm.stations.look i).lost then s
  else
    raiseEng Ev.STATION_LOST i .module
      (s.setAlm (fun a => { a with stations := a.stations.upd i (fun x => { x with lost := true, heard := false, unacked := true }) }))

/-- UMS comes into force or ends. In part by log 36 (DEDUCED, unsafe). -/
def stepUms (s : State) : State :=
  let u := umsInForce s
  if u == s.alarm.umsNow then s
  else
    raiseEng Ev.UMS_CHANGED (b2n u + 2 * b2n (umsSel s != 0)) (if umsSel s = 0 then .field else .module)
      (s.setAlm (fun a => { a with umsNow := u }))

/-- The duty selection of a master is checked; DUTY_INVALID once per episode (R249).
In part by log 36 (DEDUCED, unsafe). -/
def stepDuty (s : State) : State :=
  if !s.img.alarm.master then s
  else
    let bad := (dutyEngineer s).isNone
    let s1 := s.setAlm (fun a => { a with dutyBad := bad })
    if bad && !s.alarm.dutyBad then raiseEng Ev.DUTY_INVALID (dutyBits s) .module s1 else s1

/-! ### Dead-man timer (08 R254) -/

/-- Ticks of DM_T, and of DM_T + DM_T2. In part by log 36 (DEDUCED, unsafe). -/
def dmLimit (s : State) (both : Bool) : Nat := (s.img.alarm.dmT + (if both then s.img.alarm.dmT2 else 0)) * 6000

/-- The pre-warning begins. -/
def dmPrewarn (s : State) : State :=
  if s.alarm.dm != .running then s
  else raiseEng Ev.DM_PREWARN 0 .module (s.setAlm (fun a => { a with dm := .prewarn, dmTicks := max a.dmTicks (dmLimit s false) }))

/-- The dead-man alarm begins. -/
def dmAlarm (s : State) : State :=
  if s.alarm.dm != .prewarn then s
  else raiseEng Ev.DM_ALARM 0 .module (s.setAlm (fun a => { a with dm := .alarm, dmUnack := true }))

/-- The dead-man timer over one tick. In part by log 36 (DEDUCED, unsafe). -/
def runDeadman (s : State) : State :=
  let c := s.img.alarm
  let leaves := c.dmLeave.any (rises s) || !s.alarm.umsNow
  let s1 := if leaves && s.alarm.dm != .stopped then
      raiseEng Ev.DM_STOPPED 0 .module (s.setAlm (fun a => { a with dm := .stopped, dmTicks := 0 }))
    else s
  match s1.alarm.dm with
  | .stopped =>
    match (List.range c.dmEnter.length).find? (fun j => rises s (c.dmEnter.getD j 0)) with
    | some j =>
      if s1.alarm.umsNow && !leaves then raiseEng Ev.DM_STARTED j .field (s1.setAlm (fun a => { a with dm := .running, dmTicks := 0 }))
      else s1
    | none => s1
  | st =>
    if c.dmReset.any (rises s) then s1.setAlm (fun a => { a with dm := .running, dmTicks := 0 })
    else
      let s2 := s1.setAlm (fun a => { a with dmTicks := a.dmTicks + 1 })
      if st == .running && dmLimit s false ≤ s2.alarm.dmTicks then dmPrewarn s2
      else if st == .prewarn && dmLimit s true ≤ s2.alarm.dmTicks then dmAlarm s2
      else s2

/-! ### Outputs (08 R250) -/

/-- The outputs of the engine with their values. -/
def almOuts (s : State) : List (Nat × Bool) :=
  let c := s.img.alarm
  let st := s.alarm.stage
  let stage1 := (c.horn.toList.map (fun i => (i, 1 ≤ st && !s.alarm.hornSil))) ++ (c.beacon.toList.map (fun i => (i, decide (1 ≤ st))))
  let units := stageUnits s
  let cabins := (List.range c.engN).flatMap (fun e =>
    ((c.engs.getD e {}).out.toList).map (fun i => (i, units.contains e && !unitSilenced s e)))
  let bridge := c.bridgeOut.toList.map (fun i => (i, units.contains 8 && !unitSilenced s 8))
  let dm := c.dmOut.toList.map (fun i => (i, s.alarm.dm == .prewarn || s.alarm.dm == .alarm))
  stage1 ++ (if c.master then cabins ++ bridge else []) ++ dm

/-- Step 6: the outputs of a tick are released. -/
def almRelease (t0 : Nat) (s : State) : State :=
  forAll (almOuts s) (fun p t => writeOut .alarm t0 p.1 { val := w32 (b2n p.2), q := qGood } t) (instanceDone .alarm t0 s)

/-! ### The tick (08 R229) -/

/-- Step 1: the tick time, and the capture entries that the engine has not read.
In part by log 33 (DEDUCED, unsafe). -/
def readCaptures (s : State) : State :=
  let mine := s.tu.fifo.filter (·.forAlarm)
  let now := s.tu.time
  let s1 := s.setTu (fun t => { t with fifo := t.fifo.map (fun e => { e with forAlarm := false }) })
  let s2 := s1.setTu (fun t => { t with fifo := fifoHeld s1 })
  s2.setAlm (fun a =>
    { a with
      tickTime := now
      caps := (mine.reverse.map (fun e => (e, now)))
        ++ a.caps.filter (fun p => decide (now.toNat < p.1.stamp.toNat + 10000000000)) })

/-- One tick of the alarm engine, whose six steps took `us` µs. In part by log 34 (DEDUCED, unsafe). -/
def alarmTick (us : Nat) (s : State) : State :=
  if !s.running .alarm then s
  else
    let s1 := readCaptures s
    let cmds := s1.alarm.cmds ++ buttonCmds s1
    let s2 := forAll cmds applyAlm (s1.setAlm (fun a => { a with cmds := [] }))
    let s3 := forAll (almPoints s2) evalPoint s2
    let s4 := updateGroups s3
    let s5 := forRange s4.img.alarm.fwd.length (fun i t =>
      if (t.alarm.stations.look i).at' + 3000000000 ≤ t.now then stationLost i t else t) s4
    let s6 := runCall (runDeadman (stepDuty (stepUms s5)))
    let s7 := almRelease s.now s6
    s7.setAlm (fun a =>
      { a with
        ticks := wrap32 (a.ticks + 1), evalUs := min us top16, evalMax := max a.evalMax (min us top16)
        highs := (edgeInputs s.img.alarm).filter (high s7), sampled := true })

/-- The instants of a tick that end a delay of one point: `f` sets the condition that the delay decides.
In part by log 34 (DEDUCED, unsafe). -/
def pointInstant (n : Nat) (f : AlmPt → AlmPt) (s : State) : State :=
  if !s.running .alarm || !almUsed s n then s
  else
    updateGroup (almRow s n).group (almTrans n ((s.setPt n f).setAlm (fun a => { a with tickTime := s.tu.time }))) |>.setAlm
      (fun a => { a with entered := [] })

/-- The on delay of a point ends. In part by log 34 (DEDUCED, unsafe). -/
def onDelayEnd (n : Nat) (s : State) : State :=
  let x := almOf s n
  if x.raw && !x.delayed then pointInstant n (fun y => { y with delayed := true }) s else s

/-- The off delay of a point ends. In part by log 34 (DEDUCED, unsafe). -/
def offDelayEnd (n : Nat) (s : State) : State :=
  let x := almOf s n
  if !x.raw && x.delayed then pointInstant n (fun y => { y with delayed := false }) s else s

/-- The shelve time of a point ends. In part by log 34 (DEDUCED, unsafe). -/
def shelveTimeEnd (n : Nat) (s : State) : State :=
  if (almOf s n).state == .shelved then
    pointInstant n (fun y => { y with shelve := none, reentry := .unshelved true, by' := .module }) s
  else s

/-- The release delay of a point ends. In part by log 34 (DEDUCED, unsafe). -/
def suppReleased (n : Nat) (s : State) : State :=
  if (almOf s n).suppRun.isSome then pointInstant n (fun y => { y with suppOn := false, suppRun := none }) s else s

/-- T_ESC has passed in stage 2. -/
def escalate (s : State) : State :=
  if s.running .alarm && s.img.alarm.master && s.alarm.stage == 2 then enterStage 3 s else s

/-! ### Forwarding (08 R247, R248; 15 R475) -/

/-- The groups of a GROUP_STATE message. -/
def fwdGroups : Nat → List Byte → List FwdGroup
  | 0, _ => []
  | n + 1, bs =>
    let w := leAt bs 0 4
    { group := w % 256, calling := bitOf 8 w, prio := bitsOf 10 9 w, point := bitsOf 22 12 w, count := leAt bs 4 4 % 4096 }
      :: fwdGroups n (bs.drop 8)

/-- A GROUP_STATE of a station arrives at the master. In part by log 36 (DEDUCED, unsafe). -/
def groupState (station : Nat) (bytes : List Byte) (s : State) : State :=
  if !s.running .alarm || !s.img.alarm.master then s
  else
    match (List.range s.img.alarm.fwd.length).find? (fun i => s.img.alarm.fwd.getD i 0 == station) with
    | none => s
    | some i =>
      let was := (s.alarm.stations.look i).lost
      let s1 := s.setAlm (fun a =>
        { a with stations := a.stations.upd i (fun x =>
          { x with groups := fwdGroups (min 256 (leAt bytes 8 2)) (bytes.drop 10), at' := s.now, heard := true, lost := false }) })
      if was then raiseEng Ev.STATION_OK i .module s1 else s1

/-- Points of a group that call. -/
def callingOf (s : State) (g : Nat) : List Nat :=
  (almPoints s).filter (fun n => (almRow s n).group == g && pointCalls s n)

/-- The highest priority, the lowest code, of a list of points; 0 when empty. -/
def topPrio (s : State) (l : List Nat) : Nat :=
  match l.map (fun n => (almRow s n).prio) with | [] => 0 | a :: r => r.foldl min a

/-- The rank-1 point of a group, 0 when its list is empty. -/
def firstOut (s : State) (g : Nat) : Nat := match (grpOf s g).list with | a :: _ => a.point | [] => 0

/-- The payload of a GROUP_STATE message of this station. -/
def groupStateBytes (s : State) : List Byte :=
  let gs := s.img.alarm.grpEn.keys.filter (fun g => s.img.alarm.grpEn.look g)
  leBytes 8 s.alarm.tickTime.toNat ++ leBytes 2 gs.length
    ++ gs.flatMap (fun g =>
      let c := callingOf s g
      leBytes 4 (g + 256 * b2n (!c.isEmpty) + 512 * topPrio s c + 4096 * firstOut s g) ++ leBytes 4 c.length)

/-- A station that is no master publishes its calling groups. -/
def groupStateSend (master : Nat) (s : State) : State :=
  if !s.running .alarm || s.img.alarm.master then s else send (.groupState master (groupStateBytes s)) s

/-- CALL_NOTIFY is repeated while the stage lasts and the unit is not silenced. -/
def notifyRepeat (u : Nat) (s : State) : State :=
  if s.running .alarm && (stageUnits s).contains u && !unitSilenced s u then notifyUnit u s else s

/-- CALL_CLEAR is sent again after the call has closed. -/
def clearRepeat (u : Nat) (s : State) : State :=
  if s.running .alarm && s.alarm.stage == 0 && s.alarm.notified.contains u then clearUnit u s else s

/-! ### Writes (08 R249, R262) -/

/-- A write of CALL_UMS: none for the refused value. -/
def umsWrite (v : W32) (r : Role) (s : State) : Option State :=
  if !roleAtLeast r .engineer then some (almResult 1 s)
  else if v.toNat % 4 = 3 then none
  else some (almResult 0 (s.setAlm (fun a => { a with umsSet := some (v.toNat % 4) })))

/-- A write of CALL_DUTY (R249). -/
def dutyWrite (v : W32) (r : Role) (s : State) : State :=
  let e := v.toNat % 16
  if !roleAtLeast r .operate then almResult 1 s
  else if e != 15 && s.img.alarm.engN ≤ e then almResult 2 s
  else
    let s1 := almResult 0 (s.setAlm (fun a => { a with dutySel := e }))
    if e == s.alarm.dutySel then s1
    else raiseEng Ev.DUTY_CHANGED (match dutyEngineer s1 with | some d => d | none => 15) (.role r) s1

/-- A write of a group's shelve limit: none outside 0 to 1440. -/
def shelveWrite (g : Nat) (v : W32) (s : State) : Option State :=
  if 1440 < v.toNat % 2048 then none else some (s.setGrp g (fun y => { y with shelve := some (v.toNat % 2048) }))

/-- The panel's ACK key: all points at PANEL_LOC (R239). -/
def ackKey (s : State) : State :=
  if s.running .alarm then ackArrives 2 0 s.img.alarm.panelLoc .panel s else s
/-- The panel's SILENCE key at PANEL_LOC. -/
def silenceKey (s : State) : State :=
  if s.running .alarm then almQueue (.silence s.img.alarm.panelLoc .panel) s else s

/-! ### The section, start, reset and online change (08 R228, R255, R256, R263) -/

/-- The refusal code of a point row, 0 when accepted (R263). In part by log 35 (DEDUCED, unsafe). -/
def almRowCode (img : ImageCfg) (r : AlmRow) : Nat :=
  let used := fun i => (img.layout.look i).ref != .unused
  let isBool := fun i => (img.layout.look i).ty == .bool
  let num := fun o : Option Nat => match o with | some i => used i && !isBool i | none => false
  let dly := fun lo hi n : Nat => lo ≤ n && n ≤ hi && n % 10 == 0
  let inOk :=
    if r.ty = 7 then (match r.inp with | some i => used i && isBool i | none => false)
    else if r.ty = 8 then (match r.inp with | some i => used i | none => false)
    else if r.ty = 5 then num r.inp && num r.in2
    else num r.inp
  let limOk := 7 ≤ r.ty || (F32.isFin r.limit && F32.isFin r.db && F32.le 0#32 r.db
    && (r.ty != 6 || (!F32.eq r.limit 0#32 && F32.lt r.db (F32.abs r.limit))))
  if 8 < r.ty || 3 < r.prio || 255 < r.group then 1
  else if !inOk then 2
  else if !limOk then 3
  else if !(dly 0 600000 r.on && dly 0 600000 r.off && dly 0 600000 r.suppRel && dly 1000 60000 r.win) then 4
  else if !(match r.supp with | some i => used i && isBool i | none => true) then 5
  else if r.src < 0xD0 || 0xDF < r.src then 6
  else 0

/-- A point as it starts. -/
def initPoint (img : ImageCfg) (n : Nat) : AlmPt :=
  let r := img.alarm.rows.look n
  if r.ty = 0 then {}
  else
    let c := almRowCode img r
    if c != 0 then { code := c } else { state := if r.oosInit then .oos else .normal }

/-- Every point as it starts. -/
def initPoints (img : ImageCfg) : Tab AlmPt :=
  (img.alarm.rows.map (fun p => (p.1, initPoint img p.1))).filter (fun p => p.2 != default)

/-- The refused rows are announced. -/
def almRefusals (s : State) : State :=
  forAll (almPoints s) (fun n t =>
    let c := (almOf t n).code
    if c = 0 then t else raiseN Ev.ALM_ROW_REFUSED (almSrc t n) (n + 65536 * c) t) s

/-- A function reset of 0x04: the dead-man timer is kept (R256). -/
def resetAlarm (s : State) : State :=
  let s1 := if s.alarm.stage = 0 then s else closeCall s
  s1.setAlm (fun a =>
    { pts := initPoints s1.img, dm := a.dm, dmTicks := a.dmTicks, dmUnack := a.dmUnack, umsNow := a.umsNow
      stations := (List.range s1.img.alarm.fwd.length).map (fun i => (i, { at' := s1.now + 1 })) })

/-- What an online change keeps of the engine: `old` is the image before the switch (R255). -/
def switchAlarm (old : ImageCfg) (s : State) : State :=
  let new := s.img.alarm.rows
  let keep := fun n =>
    let a := old.alarm.rows.look n
    let b := new.look n
    a.ty == b.ty && b.ty != 0 && almRowCode s.img b == 0 && (s.alarm.pts.look n).state != .unused
  let pts := (new.map (fun p => (p.1, if keep p.1 then s.alarm.pts.look p.1 else initPoint s.img p.1))).filter
    (fun p => p.2 != default)
  let s1 := s.setAlm (fun a => { a with pts := pts })
  let moved := new.keys.filter (fun n => keep n && (old.alarm.rows.look n).group != (new.look n).group)
  let s2 := forAll moved (fun n t =>
    let g := (old.alarm.rows.look n).group
    let x := almOf t n
    let t1 := t.setGrp g (fun y =>
      { y with list := y.list.filter (fun e => e.point != n), joined := y.joined.filter (fun k => k != n) })
    if inEpisode x.state then t1.setAlm (fun a => { a with entered := a.entered ++ [(n, false)] }) else t1) s1
  updateGroups s2

/-! ### Object blocks (08 R258–R262) -/

/-- Points of a list in given states. -/
def countIn (s : State) (l : List Nat) (p : AlmState → Bool) : Nat := (l.filter (fun n => p (almOf s n).state)).length

/-- One word of ALM_PT. -/
def almPtWord (s : State) (n : Nat) : Nat :=
  let x := almOf s n
  let r := almRow s n
  almCode x.state + 8 * (r.prio % 4) + 32 * b2n x.raw + 64 * b2n x.delayed + 128 * b2n x.inputBad + 256 * b2n x.suppOn
    + 512 * b2n x.stamped + 1024 * (x.code % 64) + 65536 * (r.group % 256) + 16777216 * x.reacts

/-- Blocks 0x02 to 0x06 of function 0x04. -/
def almObj (s : State) (blk off : Nat) : Option Nat :=
  let a := s.alarm
  let unack := fun x => x == AlmState.activeUnack || x == .rtnUnack
  let act := fun x => x == AlmState.activeUnack || x == .activeAck
  if blk = 2 then
    if off = 0 then some a.ticks
    else if off = 4 then some (a.evalUs + 65536 * a.evalMax)
    else if off = 8 then some (countIn s (almPoints s) act + 4096 * countIn s (almPoints s) unack)
    else if off = 0xC then
      some (countIn s (almPoints s) (· == .shelved) + 4096 * countIn s (almPoints s) (· == .suppressed))
    else if off = 0x10 then some (countIn s (almPoints s) (· == .oos))
    else none
  else if blk = 3 then
    if 0x2000 ≤ off then none else some (almPtWord s (off / 4))
  else if blk = 4 then
    if 0x1000 ≤ off then none
    else
      let g := off / 16
      let x := grpOf s g
      let mine := (almPoints s).filter (fun n => (almRow s n).group == g)
      let un := mine.filter (fun n => unack (almOf s n).state)
      let k := off % 16
      if k = 0 then
        some (countIn s mine act + 4096 * un.length + 16777216 * topPrio s un + 67108864 * b2n (!un.isEmpty)
          + 134217728 * b2n x.openNow + 268435456 * b2n (!(callingOf s g).isEmpty) + 536870912 * b2n x.uncertain)
      else if k = 4 then some (firstOut s g + 2048 * x.list.length + 65536 * x.episodes)
      else if k = 8 then some (shelveLimit s g)
      else some 0
  else if blk = 5 then
    if off = 0 then some a.foSel
    else if off = 4 then some (grpOf s a.foSel).seq
    else if 0x10 ≤ off && off < 0x90 then
      let k := off % 16
      match (grpOf s a.foSel).list[off / 16 - 1]? with
      | none => some 0
      | some e =>
        some (if k = 0 then
            e.point + 2048 * b2n e.stamped + 4096 * b2n e.lost + 8192 * ((almRow s e.point).prio % 4) + 32768
          else if k = 4 then e.key.toNat % 4294967296 else if k = 8 then e.key.toNat / 4294967296 else 0)
    else none
  else if blk = 6 then
    let duty := dutyEngineer s
    if off = 0 then
      some (a.stage + 4 * b2n a.umsNow + 8 * b2n s.img.alarm.master + 16 * b2n a.hornSil
        + 32 * (match duty with | some e => e % 8 | none => 0) + 256 * b2n duty.isSome
        + 65536 * (if a.stage = 2 then (100 * s.img.alarm.esc - a.stage2) / 100 else 0))
    else if off = 4 then some (a.cabinSil.toNat + 256 * b2n a.bridgeSil)
    else if off = 8 then
      some (match a.opener with
        | none => 0
        | some c =>
          let w := condWord s c
          let st := match c with | .fwd i _ _ => i | .lost i => i | _ => 0
          let kind := match c with | .lost _ => 1 | .deadman => 2 | _ => 0
          w.1 + 256 * (condFirst s c).1 + 524288 * b2n w.2.2 + 1048576 * (st % 16) + 16777216 * kind)
    else if off = 0xC then
      some (((List.range 16).map (fun i => b2n (a.stations.look i).heard * 2 ^ i)).sum
        + 65536 * (2 ^ (min 16 s.img.alarm.fwd.length) - 1))
    else if off = 0x10 then
      let st := match a.dm with | .stopped => 0 | .running => 1 | .prewarn => 2 | .alarm => 3
      let left := match a.dm with
        | .running => dmLimit s false - a.dmTicks
        | .prewarn => dmLimit s true - a.dmTicks
        | _ => 0
      some (st + 4 * b2n a.dmUnack + 65536 * (left / 100))
    else if off = 0x14 then some (umsSel s)
    else if off = 0x18 then some a.dutySel
    else if off = 0x20 then some a.cmdRes
    else if off = 0x24 then some a.calls
    else none
  else none

/-! ### Commands -/

/-- ALARM_TICK. -/
def execAlarmTick (us : Nat) (s : State) : Host.Outcome State Fault Refusal := .next (alarmTick us s)
/-- ON_DELAY_END. -/
def execOnDelayEnd (n : Fin 2048) (s : State) : Host.Outcome State Fault Refusal := .next (onDelayEnd n.val s)
/-- OFF_DELAY_END. -/
def execOffDelayEnd (n : Fin 2048) (s : State) : Host.Outcome State Fault Refusal := .next (offDelayEnd n.val s)
/-- SHELVE_TIME_END. -/
def execShelveTimeEnd (n : Fin 2048) (s : State) : Host.Outcome State Fault Refusal := .next (shelveTimeEnd n.val s)
/-- ALARM_RELEASED. -/
def execAlarmReleased (n : Fin 2048) (s : State) : Host.Outcome State Fault Refusal := .next (suppReleased n.val s)
/-- ESCALATION. -/
def execEscalation (s : State) : Host.Outcome State Fault Refusal := .next (escalate s)
/-- STATION_LOST. -/
def execStationLost (i : Fin 16) (s : State) : Host.Outcome State Fault Refusal :=
  .next (if s.running .alarm then stationLost i.val s else s)
/-- DM_PREWARN. -/
def execDmPrewarn (s : State) : Host.Outcome State Fault Refusal :=
  .next (if s.running .alarm then dmPrewarn s else s)
/-- DM_ALARM. -/
def execDmAlarm (s : State) : Host.Outcome State Fault Refusal := .next (if s.running .alarm then dmAlarm s else s)
/-- ALM_OOS. -/
def execAlmOos (v : W32) (r : Role) (s : State) : Host.Outcome State Fault Refusal :=
  .next ((oosWrite v r s).getD s)
/-- CALL_UMS. -/
def execCallUms (v : W32) (r : Role) (s : State) : Host.Outcome State Fault Refusal := .next ((umsWrite v r s).getD s)
/-- CALL_DUTY. -/
def execCallDuty (v : W32) (r : Role) (s : State) : Host.Outcome State Fault Refusal := .next (dutyWrite v r s)
/-- GROUP_STATE_SEND. -/
def execGroupStateSend (master : Nat) (s : State) : Host.Outcome State Fault Refusal := .next (groupStateSend master s)
/-- CALL_NOTIFY_REPEAT. -/
def execCallNotifyRepeat (unit : Nat) (s : State) : Host.Outcome State Fault Refusal := .next (notifyRepeat unit s)
/-- CALL_CLEAR_REPEAT. -/
def execCallClearRepeat (unit : Nat) (s : State) : Host.Outcome State Fault Refusal := .next (clearRepeat unit s)
/-- ACK_KEY. -/
def execAckKey (s : State) : Host.Outcome State Fault Refusal := .next (ackKey s)
/-- SILENCE_KEY. -/
def execSilenceKey (s : State) : Host.Outcome State Fault Refusal := .next (silenceKey s)

end Sys2Proof.Machine
end

