-- ==== Sys2Proof/Machine/Axis.lean ====
section
/-! DEFINITION. The stepper axes (chapter 12): states, profile, commands, limits, homing, stall detection, the
potentiometer check, coarse steps and the PS-40 rate mode. -/

namespace Sys2Proof.Machine

/-- The row of an axis. -/
def axCfg (s : State) (a : Nat) : AxisCfg := s.img.axes.look a
/-- The event source of an axis. -/
def axSrc (a : Nat) : Nat := 0xC0 + a
/-- Raises an event of an axis. -/
def raiseAx (k : EvKind) (a : Nat) (data : Nat) (s : State) : State := raiseN k (axSrc a) data s
/-- An axis in use whose function works. -/
def axLive (s : State) (a : Nat) : Bool :=
  (axCfg s a).mode != 0 && (s.running (axisFn a) || s.fnState (axisFn a) == .drain)

/-! ### Row checks (12 R390) and the drain time (12 R386) -/

/-- The refusal code of an axis row. `inputPt` says whether a point is an input row, `potMode` the mode of a channel,
`shared` whether a step point serves another axis, `period` whether the watchdog fits its writer (06 R185). -/
def axisCode (r : AxisCfg) (inputPt : Nat → Bool) (potMode : Nat → Nat) (shared period : Bool) : Nat :=
  let pt := fun o : Option Nat => match o with | some p => inputPt p | none => true
  let acc := fun n : Nat => 1 ≤ n && n ≤ 256000000
  if r.mode = 0 then 0
  else if 3 < r.mode then 0x01
  else if r.irun < 100 || 6000 < r.irun || r.irun % 10 != 0 || r.irun < r.ihold || r.homeI < 100 || r.irun < r.homeI then 0x02
  else if r.vs < 1 || r.ve < 1 || 1024000 < r.vc || r.vk < r.vs || r.vk < r.ve || r.vc < r.vk
    || r.homeV < r.vs || r.vk < r.homeV then 0x03
  else if !acc r.a1 || !acc r.a2 || !acc r.d1 || !acc r.d2 || r.qsd < r.d1 || r.qsd < r.d2 then 0x04
  else if !pt r.limPos || !pt r.limNeg || !pt r.homePt || !pt r.sdStep || !pt r.sdDir || shared
    || (r.mode == 2 && (r.sdStep.isNone || r.sdDir.isNone)) then 0x05
  else if 3 < r.homeMode || (r.homeMode == 1 && r.homePt.isNone)
    || (r.homeMode == 2 && (if r.homePos then r.limPos else r.limNeg).isNone)
    || (r.homeMode == 3 && (r.homeV < 6400 || r.stallAct == 0)) then 0x06
  else if !(match r.potCh with | some k => potMode k == 0x0C | none => true) || !F32.isFin r.potGain || !F32.isFin r.potOfs
    then 0x07
  else if r.wdTime < 10 || 60000 < r.wdTime || !period then 0x08
  else if 3 < r.safe then 0x09
  else if r.mode == 3 && (r.psVmin < 1 || r.psVmax < r.psVmin || 16777215 < r.psVmax || r.psAcc < 1 || 65535 < r.psAcc
    || r.psDec < 1 || 65535 < r.psDec || r.psQdec < 1 || 65535 < r.psQdec || r.psDiv < 1 || 256 < r.psDiv) then 0x0A
  else if r.softMax ≤ r.softMin then 0x0B
  else 0

/-- AX_DRAIN_MS: the stopping time from AX_VC along AX_D2 and AX_D1, rounded up, plus 10 ms. -/
def drainMs (r : AxisCfg) : Nat :=
  let num := 1000 * ((r.vc - r.vk) * r.d1 + (r.vk - r.ve) * r.d2)
  let den := r.d1 * r.d2
  (if den = 0 then 0 else (num + den - 1) / den) + 10

/-! ### Profile (12 R366, R367) -/

/-- The parameters of a move. -/
structure Prof where
  vs : F64
  ve : F64
  vk : F64
  vc : F64
  a1 : F64
  a2 : F64
  d1 : F64
  d2 : F64

/-- The profile of a row with the deceleration of a braking; an approach and a back-off run at AX_HOME_V. -/
def profOf (r : AxisCfg) (by' : BrakeBy) (home : Bool) : Prof :=
  let n := fun k : Nat => F64.ofInt k
  let d1 := match by' with | .profile => r.d1 | .quick => r.qsd | .ss1 d => d
  let d2 := match by' with | .profile => r.d2 | .quick => r.qsd | .ss1 d => d
  { vs := n r.vs, ve := n r.ve, vk := n (if home then r.homeV else r.vk), vc := n (if home then r.homeV else r.vc)
    a1 := n r.a1, a2 := n r.a2, d1 := n d1, d2 := n d2 }

/-- The braking distance of 12 R367 in microsteps. -/
def brakeDist (p : Prof) (v : F64) : F64 :=
  let two := F64.ofInt 2
  let sq := fun x : F64 => F64.mul x x
  if F64.lt p.vk v then
    F64.add (F64.div (F64.sub (sq v) (sq p.vk)) (F64.mul two p.d2)) (F64.div (F64.sub (sq p.vk) (sq p.ve)) (F64.mul two p.d1))
  else F64.max (F64.div (F64.sub (sq v) (sq p.ve)) (F64.mul two p.d1)) F64.zero

/-- The square root of `v·v + 2·a` or `v·v − 2·a`; a speed that the braking would carry below zero counts as 0. -/
def speedStep (v a : F64) (up : Bool) : F64 :=
  let t := F64.mul (F64.ofInt 2) a
  let q := F64.mul v v
  let x := if up then F64.add q t else F64.sub q t
  if F64.lt x F64.zero then F64.zero else F64.sqrt x

/-- The speed of the next microstep and whether the axis brakes (12 R367). `n` is the number of microsteps left,
this one included; `none` in an approach. -/
def nextSpeed (p : Prof) (first braking : Bool) (v : F64) (n : Option Nat) : F64 × Bool :=
  if first then (p.vs, braking)
  else
    let arrive := match n with | some k => F64.lt (F64.ofInt ((k : Int) - 1)) (brakeDist p v) | none => false
    if braking || arrive then
      (if F64.lt p.vk v then F64.max (speedStep v p.d2 false) p.vk else F64.max (speedStep v p.d1 false) p.ve, true)
    else if F64.lt v p.vk then (F64.min (speedStep v p.a1 true) p.vk, false)
    else if F64.lt v p.vc then (F64.min (speedStep v p.a2 true) p.vc, false)
    else (v, false)

/-- The step interval in ticks of 10 ns and the remainder carried on (12 R367). -/
def nextInterval (v rem : F64) : Nat × F64 :=
  let q := F64.div (F64.ofInt 100000000) v
  let sum := F64.add q rem
  let i := F64.floor sum
  ((min (max i 97) 4294967295).toNat, F64.sub sum (F64.ofInt i))

/-! ### PS-40 words (12 R373, R374) -/

/-- The phase accumulator at the present instant: one addition of vel at every 1 MHz clock. -/
def accNow (s : State) (x : AxisSt) : BitVec 32 := x.acc + BitVec.ofNat 32 (x.vel * ((s.now - x.accAt) / 1000))

/-- The velocity word changed, with the accumulator brought up to the present instant. -/
def setVel (s : State) (v : Nat) (x : AxisSt) : AxisSt := { x with acc := accNow s x, accAt := s.now, vel := v }

/-- b of 12 R374: carries needed to brake. -/
def psBrake (r : AxisCfg) (vel : Nat) : Int :=
  let num : Int := ((vel : Int) * vel - (r.psVmin : Int) * r.psVmin) * 500
  let den : Int := (r.psDec : Int) * 4294967296
  1 - ((-num) / (max 1 den))

/-- Carries left to the target. -/
def carriesLeft (r : AxisCfg) (x : AxisSt) : Nat := ((x.target - x.pos).natAbs + r.psDiv - 1) / max 1 r.psDiv

/-- The velocity word of AX_HOME_V, to the nearest word. -/
def homeWord (r : AxisCfg) : Nat :=
  max r.psVmin (min r.psVmax ((2 * r.homeV * 4294967296 + 1000000 * r.psDiv) / (2 * 1000000 * max 1 r.psDiv)))

/-- A target rounded to the nearest multiple of AX_PS_DIV, ties away from zero. -/
def psRound (div : Nat) (t : Int) : Int :=
  let d := max 1 div
  let k : Int := ((2 * t.natAbs + d) / (2 * d) * d : Nat)
  if t < 0 then -k else k

/-! ### Inputs -/

/-- AX_TGT as the axis reads it. -/
def tgtNow (s : State) (a : Nat) : Int :=
  (match forceRef s (.axisOut a 0) with | some v => v | none => (piOf s (.axisOut a 0)).val).toInt

/-- A target after clamping to the soft limits and rounding, and whether it was clamped (12 R374, R377). -/
def prepTarget (r : AxisCfg) (x : AxisSt) (t : Int) : Int × Bool :=
  let c := if x.source == .unknown then t else max r.softMin (min r.softMax t)
  (if r.mode = 3 then psRound r.psDiv c else c, c != t)

/-- The asserted state of a limit switch (12 R376). -/
def limitIn (s : State) (a : Nat) (positive : Bool) : Bool :=
  let r := axCfg s a
  match (if positive then r.limPos else r.limNeg) with
  | none => false
  | some p =>
    let e := readRef s (.diState (p / 8) (p % 8))
    qIsBad e.q || ((e.val != 0) != bitOf (if positive then 0 else 1) r.limPol)

/-- The asserted state of the homing reference (12 R378). -/
def homeRef (s : State) (a : Nat) : Bool :=
  let r := axCfg s a
  if r.homeMode = 1 then
    match r.homePt with | some p => (readRef s (.diState (p / 8) (p % 8))).val != 0 | none => false
  else if r.homeMode = 2 then limitIn s a r.homePos
  else false

/-- The potentiometer's p_pot, where the channel is configured and GOOD (12 R384).
In part by log 42 (DEDUCED, unsafe). -/
def potValue (s : State) (a : Nat) : Option Int :=
  let r := axCfg s a
  match r.potCh with
  | none => none
  | some k =>
    let e := readRef s (.aiMain (k / 16) (k % 16))
    if qIsGood e.q then some (F32.toIntAway (F32.add (F32.mul e.val r.potGain) r.potOfs)) else none

/-! ### Rest and motion -/

/-- True while steps may be issued. In part by log 5 (DESIGN CHOICE, unsafe). -/
def inMotion (x : AxisSt) : Bool :=
  x.state == .moving || x.state == .stopping || x.state == .quickStopping || (x.state == .homing && x.homePhase != .dwell)

/-- True while the motor carries current (12 R365). -/
def energised (x : AxisSt) : Bool :=
  !(x.state == .noTorque || x.state == .torqueRemoved || (x.state == .fault && 1 ≤ x.cause && x.cause ≤ 5))

/-- The axis comes to rest in a state, with the run current until the hold delay ends. -/
def restIn (s : State) (st : AxState) (x : AxisSt) : AxisSt :=
  { setVel s 0 x with
    state := st, v := F64.zero, rem := F64.zero, first := true, braking := false, brakeBy := .profile, reversal := false
    toIdle := false, toOff := false, phase := 0, hold := false, restAt := s.now, homePhase := .none
    cause := if x.cause = 8 then 0 else x.cause }

/-- A move toward `t` begins from rest. In part by log 42 (DEDUCED, unsafe). -/
def beginMove (s : State) (r : AxisCfg) (t : Int) (x : AxisSt) : AxisSt :=
  { setVel s (if r.mode = 3 then r.psVmin else 0) x with
    target := t, v := F64.zero, rem := F64.zero, first := true, braking := false, brakeBy := .profile, reversal := false
    forward := decide (x.pos < t), toIdle := false, toOff := false, hold := false, phase := 1 }

/-- True when a latched limit bars motion in a direction. -/
def barred (x : AxisSt) (fwd : Bool) : Bool := if fwd then x.limP else x.limN

/-- A move from rest to `t` where it is allowed (12 R365, R376, R377): 0 done, 2 STATE, 3 NOT_HOMED, 4 LIMIT. An
axis that may not move stays where it is. -/
def tryMove (a : Nat) (t0 : Int) (s : State) : State × Nat :=
  let r := axCfg s a
  let x := s.axis a
  let t := (prepTarget r x t0).1
  let clamped := (prepTarget r x t0).2
  if x.torqueOff || x.ss1Line then (s, 2)
  else if t = x.pos then
    (s.setAxis a (fun y => { (if y.state == .idle then y else { restIn s .idle y with hold := y.hold }) with
      target := t, pending := some t, blocked := clamped }), 0)
  else if x.source == .unknown && r.homeMode != 0 then (s, 3)
  else if barred x (decide (x.pos < t)) then
    let s1 := s.setAxis a (fun y => { y with blocked := true, blockRaised := true })
    (if x.blockRaised then s1 else raiseAx Ev.AX_LIMIT_BLOCKED a (s32 t) s1, 4)
  else
    (s.setAxis a (fun y => { beginMove s r t y with state := .moving, pending := some t, blocked := clamped }), 0)

/-- The axis ends its homing FAILED (12 R379). -/
def homeFail (a reason : Nat) (s : State) : State :=
  raiseAx Ev.AX_HOME_FAILED a reason
    (s.setAxis a (fun x => { x with homing := 2, homeRes := reason, source := .unknown, homePhase := .none }))

/-- A stop with a deceleration: the axis brakes, or is at rest at once when no step has been issued. -/
def brakeTo (a : Nat) (st : AxState) (by' : BrakeBy) (rest : AxState) (s : State) : State :=
  s.setAxis a (fun x =>
    if x.first && (axCfg s a).mode != 3 then { restIn s rest x with toOff := false }
    else { x with state := st, braking := true, brakeBy := by', reversal := false, phase := 3 })

/-- DEENERGISE at rest: no torque, pending target dropped. -/
def deenergised (a : Nat) (s : State) : State :=
  s.setAxis a (fun x => { restIn s .noTorque x with pending := none, queue := 0 })

/-- The axis enters FAULT (12 R360, R365, R381, R384). -/
def axFault (a cause : Nat) (s : State) : State :=
  let wasHoming := (s.axis a).state == .homing
  let speed := inMotion (s.axis a)
  let s1 := s.setAxis a (fun x =>
    { restIn s .fault x with
      cause := cause, queue := 0, hold := true
      source := if cause ≤ 5 && speed then .unknown else x.source })
  if wasHoming then homeFail a (if cause = 6 then 3 else 5) s1 else s1

/-- The drive detects a protection condition (12 R360); only Bedrock's release ends TORQUE_REMOVED (12 R385).
In part by log 42 (DEDUCED, unsafe). -/
def driverFault (a cause : Nat) (s : State) : State :=
  let s1 := s.setAxis a (fun x => { x with drive := cause })
  if (s.axis a).state == .torqueRemoved
      || ((s.axis a).state == .fault && decide (1 ≤ (s.axis a).cause) && decide ((s.axis a).cause ≤ 5)) then s1
  else raiseAx Ev.AX_DRIVER_FAULT a cause (axFault a cause s1)

/-- Bedrock removes torque (12 R385): steps end, the pending target is dropped.
In part by log 42 (DEDUCED, unsafe). -/
def torqueRemoved (a : Nat) (ss1 : Bool) (s : State) : State :=
  if (s.axis a).state == .torqueRemoved then s
  else
    let wasHoming := (s.axis a).state == .homing
    let s1 := s.setAxis a (fun x =>
      { restIn s .torqueRemoved x with pending := none, queue := 0, source := .unknown, ss1Line := false })
    let s2 := if wasHoming then homeFail a 5 s1 else s1
    raiseAx Ev.AX_TORQUE_REMOVED a (b2n ss1) s2

/-- Bedrock releases the torque removal: STOPPED at hold current. -/
def torqueRestored (a : Nat) (s : State) : State :=
  if (s.axis a).state != .torqueRemoved then s
  else raiseAx Ev.AX_TORQUE_RESTORED a 0 (s.setAxis a (fun x => { restIn s .stopped x with hold := true }))

/-- Bedrock asserts the SS1 brake line with the function's deceleration (12 R385). -/
def ss1Brake (a decel : Nat) (s : State) : State :=
  let x := s.axis a
  if x.ss1Line then s
  else
    let s1 := s.setAxis a (fun y => { y with ss1Line := true })
    if !inMotion x then
      s1.setAxis a (fun y => { y with queue := 0, state := if y.state == .dwell then .stopped else y.state })
    else
      let s2 := if x.state == .homing then homeFail a 5 s1 else s1
      (brakeTo a .quickStopping (.ss1 decel) .stopped s2).setAxis a
        (fun y => { y with cause := if y.state == .quickStopping then 8 else y.cause, toIdle := false })

/-! ### Targets (12 R365, R368, R369) -/

/-- A new AX_TGT is taken. In part by log 42 (DEDUCED, unsafe). -/
def targetChange (a : Nat) (raw : Int) (s0 : State) : State :=
  let s := s0.setAxis a (fun x => { x with tgtSeen := raw })
  let r := axCfg s a
  let x := s.axis a
  let t := (prepTarget r x raw).1
  let clamped := (prepTarget r x raw).2
  if r.mode = 2 then s
  else
    match x.state with
    | .idle => (tryMove a raw s).1
    | .dwell => s.setAxis a (fun y => { y with target := t, pending := some t, blocked := clamped })
    | .moving =>
      if x.reversal then s.setAxis a (fun y => { y with target := t, pending := some t, blocked := clamped })
      else if x.first && r.mode != 3 then
        (tryMove a raw (s.setAxis a (fun y => { restIn s .idle y with hold := y.hold }))).1
      else
        let ahead := if x.forward then decide (x.pos < t) else decide (t < x.pos)
        let n := (t - x.pos).natAbs
        let far :=
          if r.mode = 3 then decide (psBrake r x.vel < ((n / max 1 r.psDiv : Nat) : Int))
          else F64.le (brakeDist (profOf r .profile false) x.v) (F64.ofInt ((n : Int) - 1))
        if ahead && far then
          s.setAxis a (fun y => { y with target := t, pending := some t, braking := false, blocked := clamped })
        else
          raiseAx Ev.AX_REVERSAL a (s32 t)
            (s.setAxis a (fun y =>
              { y with target := t, pending := some t, braking := true, reversal := true, phase := 3, blocked := clamped }))
    | .stopped | .stopping | .quickStopping =>
      s.setAxis a (fun y => { y with pending := some t, blocked := clamped })
    | _ => s

/-! ### Homing (12 R378) -/

/-- An approach or another homing motion begins. In part by log 42 (DEDUCED, unsafe). -/
def homeMotion (s : State) (a : Nat) (fwd : Bool) (ph : HomePhase) (x : AxisSt) : AxisSt :=
  let r := axCfg s a
  { setVel s (if r.mode = 3 then r.psVmin else 0) x with
    state := .homing, homePhase := ph, forward := fwd, first := true, v := F64.zero, rem := F64.zero, braking := false
    brakeBy := .profile, reversal := false, phase := 1, hold := false, travelled := 0 }

/-- HOME begins. -/
def homeStart (a : Nat) (s : State) : State :=
  let r := axCfg s a
  s.setAxis a (fun x =>
    let y := if homeRef s a then homeMotion s a (!r.homePos) (.away none) x else homeMotion s a r.homePos .approach x
    { y with homing := 3, toOff := false, toIdle := false })

/-- Homing ends done. -/
def homeDone (a : Nat) (s : State) : State :=
  let t := tgtNow s a
  let s1 := s.setAxis a (fun x =>
    { restIn s .stopped x with
      homing := 1, homeRes := 0, source := .homed, mismatch := false, potRun := 0 })
  raiseAx Ev.AX_HOMED a (s32 (s.axis a).homeShift)
    (s1.setAxis a (fun x => { x with pending := some (prepTarget (axCfg s a) x t).1 }))

/-- The reference gives the position, and the dwell before the back-off begins (12 R378 step 4). -/
def homeSet (a : Nat) (s : State) : State :=
  let r := axCfg s a
  s.setAxis a (fun x =>
    let p := if r.homeMode = 3 then r.homeOfs else x.pos - x.pRef + r.homeOfs
    { restIn s .homing x with pos := p, homeShift := p - x.pos, homePhase := .dwell })

/-- The dwell of a homing ends: the back-off. -/
def homeBackoff (a : Nat) (s : State) : State :=
  let r := axCfg s a
  if r.homeBack = 0 then homeDone a s
  else
    s.setAxis a (fun x =>
      { homeMotion s a (!r.homePos) .backoff x with
        target := if r.homePos then x.pos - r.homeBack else x.pos + r.homeBack })

/-- The reference is looked at while an approach runs. In part by log 42 (DEDUCED, unsafe). -/
def homeWatch (a : Nat) (s : State) : State :=
  let x := s.axis a
  if x.state == .homing && x.homePhase == .approach && homeRef s a then
    s.setAxis a (fun y => { y with pRef := y.pos, homePhase := .brake, braking := true, phase := 3 })
  else if x.state == .homing && x.homePhase == .away none && !homeRef s a then
    s.setAxis a (fun y => { y with homePhase := .away (some (axCfg s a).limRel) })
  else s

/-! ### Limits (12 R376) -/

/-- A limit switch asserts: the latch, and the stop of a motion toward it. -/
def limitAssert (a : Nat) (positive : Bool) (s : State) : State :=
  let x := s.axis a
  let r := axCfg s a
  if barred x positive then s
  else
    let s1 := s.setAxis a (fun y =>
      if positive then { y with limP := true, latP := y.pos } else { y with limN := true, latN := y.pos })
    let reference := x.state == .homing && r.homeMode = 2 && r.homePos == positive
    let toward := inMotion x && x.forward == positive
    let s2 :=
      if r.mode = 2 then
        if (positive && decide (0 < x.queue)) || (!positive && decide (x.queue < 0)) then
          s1.setAxis a (fun y => { y with queue := 0, v := F64.zero })
        else s1
      else if x.state == .homing then
        if reference then s1 else brakeTo a .quickStopping .quick .stopped (homeFail a 2 s1)
      else if !toward then s1
      else
        match x.state with
        | .moving => (brakeTo a .quickStopping .quick .idle s1).setAxis a (fun y => { y with toIdle := true, pending := none })
        | .stopping => s1.setAxis a (fun y => { y with brakeBy := .quick, braking := true })
        | _ => s1
    let stopped := toward && !reference
    raiseAx Ev.AX_LIMIT a (b2n positive + 2 * b2n stopped) (homeWatch a s2)

/-- A latch releases when the input is inactive and the axis is away from the latched position. -/
def limitRelease (a : Nat) (positive : Bool) (s : State) : State :=
  let x := s.axis a
  let lat := if positive then x.latP else x.latN
  if barred x positive && !limitIn s a positive && decide ((axCfg s a).limRel ≤ (x.pos - lat).natAbs) then
    raiseAx Ev.AX_LIMIT_RELEASED a (b2n positive)
      (s.setAxis a (fun y =>
        { (if positive then { y with limP := false } else { y with limN := false }) with
          blocked := false, blockRaised := false }))
  else s

/-- Both limits at a tick. -/
def limitTick (a : Nat) (s : State) : State :=
  let one := fun (p : Bool) (t : State) => if limitIn t a p then limitAssert a p t else limitRelease a p t
  one false (one true s)

/-! ### Commands (12 R363–R365, R369) -/

/-- STOP. -/
def cmdStop (a : Nat) (s : State) : State × Nat :=
  let x := s.axis a
  let t := tgtNow s a
  match x.state with
  | .moving =>
    (brakeTo a .stopping .profile .stopped (s.setAxis a (fun y => { y with pending := some y.target })), 0)
  | .dwell => (s.setAxis a (fun y => { restIn s .stopped y with pending := some y.target }), 0)
  | .idle =>
    (s.setAxis a (fun y =>
      { restIn s .stopped y with
        queue := 0, hold := y.hold, restAt := y.restAt
        pending := if (axCfg s a).mode = 2 then none else some (prepTarget (axCfg s a) y t).1 }), 0)
  | .homing =>
    if x.homePhase == .dwell then (homeFail a 4 (s.setAxis a (fun y => restIn s .stopped y)), 0)
    else (brakeTo a .stopping .profile .stopped (homeFail a 4 s), 0)
  | _ => (s, 2)

/-- QUICK_STOP. -/
def cmdQuick (a : Nat) (s : State) : State × Nat :=
  let x := s.axis a
  match x.state with
  | .moving =>
    (brakeTo a .quickStopping .quick .stopped (s.setAxis a (fun y => { y with pending := some y.target })), 0)
  | .stopping => (s.setAxis a (fun y => { y with state := .quickStopping, brakeBy := .quick }), 0)
  | .homing =>
    if x.homePhase == .dwell then (homeFail a 4 (s.setAxis a (fun y => restIn s .stopped y)), 0)
    else (brakeTo a .quickStopping .quick .stopped (homeFail a 4 s), 0)
  | .idle => if (axCfg s a).mode = 2 then cmdStop a s else (s, 2)
  | _ => (s, 2)

/-- DEENERGISE. -/
def cmdDeenergise (a : Nat) (s : State) : State × Nat :=
  let x := s.axis a
  if !energised x then (s, 2)
  else
    match x.state with
    | .moving | .homing =>
      let s1 := (cmdStop a s).1
      (if inMotion (s1.axis a) then s1.setAxis a (fun y => { y with toOff := true }) else deenergised a s1, 0)
    | .stopping | .quickStopping => (s.setAxis a (fun y => { y with toOff := true }), 0)
    | _ => (deenergised a s, 0)

/-- ENERGISE. -/
def cmdEnergise (a : Nat) (s : State) : State × Nat :=
  let x := s.axis a
  if x.state != .noTorque || x.torqueOff then (s, 2)
  else
    let t := (prepTarget (axCfg s a) x (tgtNow s a)).1
    (s.setAxis a (fun y => { restIn s .stopped y with hold := true, pending := some t }), 0)

/-- CLEAR. -/
def cmdClear (a : Nat) (s : State) : State × Nat :=
  let x := s.axis a
  if x.state != .fault || x.drive != 0 then (s, 2)
  else
    let t := (prepTarget (axCfg s a) x (tgtNow s a)).1
    let st : AxState := if 1 ≤ x.cause && x.cause ≤ 5 then .noTorque else .stopped
    (s.setAxis a (fun y => { restIn s st y with cause := 0, hold := true, pending := some t }), 0)

/-- RESUME. -/
def cmdResume (a : Nat) (s : State) : State × Nat :=
  let x := s.axis a
  if x.state != .stopped || x.ss1Line then (s, 2)
  else if (axCfg s a).mode = 2 then (s.setAxis a (fun y => { y with state := .idle, sdPrev := none }), 0)
  else
    match x.pending with
    | none => (s.setAxis a (fun y => { y with state := .idle, target := y.pos }), 0)
    | some t => tryMove a t s

/-- HOME. -/
def cmdHome (a : Nat) (s : State) : State × Nat :=
  let x := s.axis a
  let r := axCfg s a
  if !(x.state == .idle || x.state == .stopped) || r.homeMode = 0 || r.mode = 2 || x.ss1Line then (s, 2)
  else (homeStart a s, 0)

/-- SYNC_POT. -/
def cmdSyncPot (a : Nat) (s : State) : State × Nat :=
  match potValue s a with
  | none => (s, 6)
  | some p =>
    if inMotion (s.axis a) then (s, 2)
    else
      (raiseAx Ev.AX_POS_SYNC a (s32 p)
        (s.setAxis a (fun y => { y with pos := p, source := .pot, mismatch := false, potRun := 0 })), 0)

/-- The effect of a command code and its result (12 R363, R389). In part by log 42 (DEDUCED, unsafe). -/
def axEffect (a code : Nat) (s : State) : State × Nat :=
  if !s.running (axisFn a) || (axCfg s a).mode = 0 then (s, 2)
  else if code = 1 then cmdEnergise a s
  else if code = 2 then cmdDeenergise a s
  else if code = 3 then cmdStop a s
  else if code = 4 then cmdQuick a s
  else if code = 5 then cmdResume a s
  else if code = 6 then cmdHome a s
  else if code = 7 then cmdClear a s
  else if code = 8 then cmdSyncPot a s
  else (s, 5)

/-- The result of a command is shown. -/
def axResult (a code res : Nat) (mmp : Bool) (s : State) : State :=
  s.setAxis a (fun x => { x with cmdRes := res, cmdCode := code, cmdMmp := mmp })

/-- A command is taken (12 R363, R364; 18 R546). -/
def axCommand (a code : Nat) (src : CmdSrc) (s : State) : State :=
  match src with
  | .panel => (axEffect a code s).1
  | .entry =>
    if heldLocal s 1 a then axResult a code 7 false s
    else axResult a code (axEffect a code s).2 false (axEffect a code s).1
  | .mmp r =>
    if !roleAtLeast r .engineer then axResult a code 1 true s
    else if heldLocal s 1 a then axResult a code 7 true s
    else
      let s1 := if 1 ≤ code && code ≤ 8 then raise Ev.AX_MMP_COMMAND (axSrc a) (w32 code) (.role r) s else s
      axResult a code (axEffect a code s1).2 true (axEffect a code s1).1

/-- A write of AX_MMP_CMD waits for the next axis tick; a writer below ENGINEER is refused at once (12 R389). -/
def axMmpWrite (a : Nat) (v : W32) (r : Role) (s : State) : State :=
  if v.toNat / 256 != 0xA7C500 then s
  else if !roleAtLeast r .engineer then axResult a (v.toNat % 256) 1 true s
  else s.setAxis a (fun x => { x with mmpCmds := x.mmpCmds ++ [(v.toNat % 256, r)] })

/-! ### The axis tick (12 R362–R364) -/

/-- The order in which the commands of one tick apply. -/
def cmdOrder : List Nat := [2, 4, 3, 7, 1, 6, 5, 8]

/-- The safe action of an expired watchdog (12 R370). In part by log 42 (DEDUCED, unsafe). -/
def wdAction (a : Nat) (s : State) : State :=
  let x := s.axis a
  if x.wd.state == .expired && !x.wdActed then
    let s1 := s.setAxis a (fun y => { y with wdActed := true })
    let safe := (axCfg s a).safe
    if safe = 0 then (cmdStop a s1).1
    else if safe = 1 then (cmdQuick a s1).1
    else if safe = 3 then
      let s2 := (cmdStop a s1).1
      (cmdDeenergise a s2).1
    else s1
  else if x.wd.state == .run then s.setAxis a (fun y => { y with wdActed := false })
  else s

/-- The speed in fs/s as binary32, signed. -/
def axSpeed (s : State) (a : Nat) : F32 :=
  let x := s.axis a
  let r := axCfg s a
  let sp : F64 :=
    if r.mode = 3 then F64.div (F64.mul (F64.ofInt (x.vel * r.psDiv)) (F64.ofInt 1000000)) (F64.mul (F64.ofInt 4294967296) (F64.ofInt 256))
    else if r.mode = 2 then
      if x.queue = 0 || x.sdInterval = 0 then F64.zero
      else F64.div (F64.ofInt 100000000) (F64.mul (F64.ofInt x.sdInterval) (F64.ofInt 256))
    else F64.div x.v (F64.ofInt 256)
  let neg := if r.mode = 2 then decide (x.queue < 0) else !x.forward
  let f := F64.toF32 sp
  if neg && f != 0#32 then F32.neg f else f

/-- The code of an axis state. In part by log 43 (DEDUCED, unsafe). -/
def axStateCode : AxState → Nat
  | .noTorque => 0 | .idle => 1 | .moving => 2 | .stopping => 3 | .quickStopping => 4 | .stopped => 5
  | .dwell => 6 | .homing => 7 | .fault => 8 | .torqueRemoved => 9

/-- The code of a position source. -/
def posSrcCode : PosSrc → Nat
  | .unknown => 0 | .homed => 1 | .pot => 2 | .restored => 3

/-- AX_STAT (12 R388). -/
def axStat (x : AxisSt) : Nat :=
  axStateCode x.state + 16 * posSrcCode x.source + 64 * b2n x.limP + 128 * b2n x.limN + 256 * b2n x.braking
    + 512 * b2n x.blocked + 1024 * b2n x.estValid + 2048 * b2n x.mismatch + 4096 * x.homing + 16384 * x.phase
    + 65536 * x.code + 16777216 * x.cause

/-- The quality of AX_POS (12 R382). -/
def posQuality (x : AxisSt) : Byte :=
  if x.mismatch then qBad 6
  else match x.source with | .homed => qGood | .pot => qGood | _ => qUnc 0

/-- The phase current setting in effect in mA (12 R359, R388). -/
def curSetting (r : AxisCfg) (x : AxisSt) : Nat :=
  if !energised x then 0
  else if x.state == .homing && r.homeMode = 3 && x.homePhase == .approach then r.homeI
  else if x.hold then r.ihold
  else r.irun

/-- The commanded speed in µsteps/s. -/
def speedNow (r : AxisCfg) (x : AxisSt) : F64 :=
  if r.mode = 3 then F64.div (F64.mul (F64.ofInt (x.vel * r.psDiv)) (F64.ofInt 1000000)) (F64.ofInt 4294967296) else x.v

/-- The conditions under which the load-angle and back-EMF estimates are valid (12 R380).
In part by log 43 (DEDUCED, unsafe). -/
def estOk (r : AxisCfg) (x : AxisSt) : Bool :=
  F64.le (F64.ofInt 6400) (speedNow r x) && decide (300 ≤ curSetting r x) && decide (18000 ≤ x.supply)

/-- A coarse step came within AX_SD_GAP; a mode other than 2 has no such gap. -/
def stepsCome (s : State) (r : AxisCfg) (x : AxisSt) : Bool :=
  r.mode != 2 || (match x.sdPrev with | some p => decide (s.now / 100 ≤ p + r.sdGap * 10000) | none => false)

/-- The estimator stops as soon as one of its conditions fails. In part by log 43 (DEDUCED, unsafe). -/
def estTick (a : Nat) (s : State) : State :=
  s.setAxis a (fun x =>
    if estOk (axCfg s a) x && stepsCome s (axCfg s a) x then x
    else { x with estRun := 0, estValid := false, stallRun := 0 })

/-- The input entries of an axis are written as one unit (12 R362). -/
def axEntries (a : Nat) (s : State) : State :=
  let x := s.axis a
  let est := if x.estValid then qGood else qUnc 0
  setRef (.axisIn a 4) { val := F32.ofInt x.loadAng, q := est }
    (setRef (.axisIn a 3) { val := x.emf, q := est }
      (setRef (.axisIn a 2) { val := axSpeed s a, q := qGood }
        (setRef (.axisIn a 1) { val := w32 (axStat x), q := qGood }
          (setRef (.axisIn a 0) { val := BitVec.ofInt 32 x.pos, q := posQuality x } s))))

/-- One axis tick of 250 µs: `supply` is the motor supply in mV, `drive` the drive condition present (0 none).
In part by log 42 (DEDUCED, unsafe). -/
def axisTick (a supply drive : Nat) (s0 : State) : State :=
  let s := s0.setAxis a (fun x => { x with supply := supply, drive := drive })
  let s1 := if (s.axis a).torqueOff then torqueRemoved a false s else s
  if !axLive s1 a then s1
  else
    let s2 := if drive != 0 then driverFault a drive s1 else s1
    let s3 := homeWatch a (limitTick a s2)
    let s4 := wdAction a s3
    let w := (readRef s4 (.axisOut a 1)).val.toNat
    let seq := w / 256 % 256
    let entry := if seq != (s4.axis a).seq then [w % 256] else []
    let mmp := (s4.axis a).mmpCmds
    let panel := (s4.axis a).panelCmds
    let s5 := s4.setAxis a (fun x => { x with seq := seq, mmpCmds := [], panelCmds := [] })
    let s6 := forAll cmdOrder (fun c t =>
      let t1 := forAll (entry.filter (· == c)) (fun _ u => axCommand a c .entry u) t
      let t2 := forAll (mmp.filter (fun p => p.1 == c)) (fun p u => axCommand a c (.mmp p.2) u) t1
      forAll (panel.filter (· == c)) (fun _ u => axCommand a c .panel u) t2) s5
    let s7 := forAll (entry.filter (fun c => !cmdOrder.contains c)) (fun c u => axCommand a c .entry u) s6
    let s8 := forAll (mmp.filter (fun p => !cmdOrder.contains p.1)) (fun p u => axCommand a p.1 (.mmp p.2) u) s7
    let t := if heldLocal s8 1 a then
        (match (s8.axis a).panelTgt with | some p => p | none => (s8.axis a).tgtSeen)
      else tgtNow s8 a
    let s9 := if t != (s8.axis a).tgtSeen then targetChange a t s8 else s8
    axEntries a (estTick a s9)

/-! ### Steps (12 R365–R378) -/

/-- What follows an advance of a moving axis: `left` is the way still to go, `slow` says that a braking has reached
the stop speed. -/
def afterAdvance (a left : Nat) (slow : Bool) (s : State) : State :=
  let x := s.axis a
  let r := axCfg s a
  match x.state with
  | .moving =>
    if x.reversal then
      if slow then s.setAxis a (fun y => { restIn s .dwell y with hold := false }) else s
    else if left = 0 then s.setAxis a (fun y => restIn s .idle y)
    else s
  | .stopping | .quickStopping =>
    if slow || (left = 0 && !x.reversal && x.homePhase == .none && x.pending == some x.pos) then
      if x.toOff then deenergised a s
      else if x.toIdle then
        let s1 := s.setAxis a (fun y => restIn s .idle y)
        match x.pending with | some t => (tryMove a t s1).1 | none => s1
      else s.setAxis a (fun y => restIn s .stopped y)
    else s
  | .homing =>
    match x.homePhase with
    | .away (some k) =>
      if k = 0 then s.setAxis a (fun y => { y with homePhase := .awayBrake, braking := true, phase := 3 })
      else s.setAxis a (fun y => { y with homePhase := .away (some (k - 1)) })
    | .away none => homeWatch a s
    | .awayBrake => if slow then s.setAxis a (homeMotion s a r.homePos .approach) else s
    | .approach =>
      if r.homeMax < x.travelled then brakeTo a .stopping .profile .stopped (homeFail a 1 s) else homeWatch a s
    | .brake => if slow then homeSet a s else s
    | .backoff => if left = 0 then homeDone a s else s
    | _ => s
  | _ => s

/-- The microsteps still to go that braking for arrival counts with: none in an approach. -/
def stepsLeft (x : AxisSt) : Option Nat :=
  match x.state with
  | .homing => if x.homePhase == .backoff then some (x.target - x.pos).natAbs else none
  | _ => if x.reversal then none else some (x.target - x.pos).natAbs

/-- A microstep of a position move (12 R367). -/
def moveStep (a : Nat) (s : State) : State :=
  let x := s.axis a
  let p := profOf (axCfg s a) x.brakeBy (x.state == .homing)
  let g := nextSpeed p x.first x.braking x.v (stepsLeft x)
  let iv := nextInterval g.1 x.rem
  let pos := if x.forward then x.pos + 1 else x.pos - 1
  let s1 := s.setAxis a (fun y =>
    { y with
      v := g.1, braking := g.2, interval := iv.1, rem := iv.2, first := false, pos := pos, travelled := y.travelled + 1
      phase := if g.2 then 3 else if F64.lt y.v g.1 then 1 else 2 })
  let left := match stepsLeft (s1.axis a) with | some n => n | none => 1
  afterAdvance a left (g.2 && !x.first && F64.le g.1 p.ve) s1

/-- A microstep of the coarse step queue (12 R372). -/
def queueStep (a : Nat) (s : State) : State :=
  s.setAxis a (fun x =>
    if x.queue = 0 then x
    else if 0 < x.queue then { x with pos := x.pos + 1, queue := x.queue - 1, interval := x.sdInterval, forward := true }
    else { x with pos := x.pos - 1, queue := x.queue + 1, interval := x.sdInterval, forward := false })

/-- A microstep is issued. -/
def microstep (a : Nat) (s : State) : State :=
  if !axLive s a then s
  else
    let x := s.axis a
    match (axCfg s a).mode with
    | 1 => if inMotion x then moveStep a s else s
    | 2 => if x.state == .idle && x.queue != 0 then queueStep a s else s
    | _ => s

/-- The reversal or homing dwell ends (12 R365, R378). -/
def dwellEnd (a : Nat) (s : State) : State :=
  if !axLive s a then s
  else
    let x := s.axis a
    if x.state == .dwell then
      let g := tryMove a x.target s
      if g.2 = 0 then g.1 else g.1.setAxis a (fun y => { y with state := .idle })
    else if x.state == .homing && x.homePhase == .dwell then homeBackoff a s
    else s

/-- AX_HOLD_DLY after rest has passed: the hold current applies (12 R359). -/
def holdDelay (a : Nat) (s : State) : State :=
  s.setAxis a (fun x => if energised x && !inMotion x then { x with hold := true } else x)

/-! ### PS-40 rate mode (12 R373–R375) -/

/-- The velocity word after 1 ms. -/
def velocityUpdate (a : Nat) (s : State) : State :=
  let x := s.axis a
  let r := axCfg s a
  if !axLive s a || r.mode != 3 || !inMotion x then s
  else
    let vmax := if x.state == .homing then homeWord r else r.psVmax
    let arrive := match stepsLeft x with
      | some _ => decide ((carriesLeft r x : Int) ≤ psBrake r x.vel)
      | none => false
    let quick := match x.brakeBy with | .profile => false | _ => true
    let v :=
      if x.braking && quick then max (x.vel - r.psQdec) r.psVmin
      else if x.braking || arrive then max (x.vel - r.psDec) r.psVmin
      else min (x.vel + r.psAcc) vmax
    s.setAxis a (fun y =>
      { setVel s v y with
        braking := y.braking, phase := if y.braking || arrive then 3 else if y.vel < v then 1 else 2 })

/-- A carry advances the axis by AX_PS_DIV µsteps. In part by log 42 (DEDUCED, unsafe). -/
def carryStep (a : Nat) (s : State) : State :=
  let x := s.axis a
  let r := axCfg s a
  if !axLive s a || r.mode != 3 || !inMotion x || x.vel = 0 then s
  else
    let d : Int := r.psDiv
    let s1 := s.setAxis a (fun y =>
      { y with
        pos := if y.forward then y.pos + d else y.pos - d
        interval := 429496729600 / (y.vel * max 1 r.psDiv)
        first := false, travelled := y.travelled + r.psDiv })
    let y := s1.axis a
    let passed := if y.forward then decide (y.target ≤ y.pos) else decide (y.pos ≤ y.target)
    let left := match stepsLeft y with | some n => if passed then 0 else n | none => 1
    afterAdvance a left (x.braking && decide (x.vel ≤ r.psVmin)) s1

/-! ### Coarse steps (12 R371, R372) -/

/-- A coarse step edge. In part by log 43 (DEDUCED, unsafe). -/
def stepEdge (a : Nat) (dir : Bool) (s : State) : State :=
  let x := s.axis a
  let r := axCfg s a
  if !axLive s a || r.mode != 2 || x.state != .idle || x.ss1Line then s
  else if x.source == .unknown && r.homeMode != 0 then s
  else if barred x dir then
    let s1 := s.setAxis a (fun y => { y with blocked := true, blockRaised := true })
    if x.blockRaised then s1 else raiseAx Ev.AX_LIMIT_BLOCKED a (s32 x.pos) s1
  else
    let q1 : Int := if dir then x.queue + r.sdDiv else x.queue - r.sdDiv
    let lost := decide (65535 < q1.natAbs)
    let q0 := if lost then x.queue else q1
    let t := prepTarget r x (x.pos + q0)
    let q := t.1 - x.pos
    let edge := s.now / 100
    let per := match x.sdPrev with | some p => some (edge - p) | none => none
    let i := match per with
      | some k => if k ≤ r.sdGap * 10000 then (if q.natAbs = 0 then x.sdInterval else 10 * k / q.natAbs) else 100000000 / max 1 r.vs
      | none => 100000000 / max 1 r.vs
    let iv := max i ((100000000 + r.vc - 1) / max 1 r.vc)
    let lag := 16 * r.sdDiv < q.natAbs
    let s1 := s.setAxis a (fun y =>
      { y with
        queue := q, sdLost := if lost then satInc top32 y.sdLost else y.sdLost, sdPrev := some edge, sdInterval := iv
        lagRaised := decide lag, blocked := t.2, hold := false, v := F64.div (F64.ofInt 100000000) (F64.ofInt iv) })
    raiseIf (decide lag && !x.lagRaised) Ev.AX_STEP_LAG (axSrc a) (s32 q) s1

/-! ### Estimator and stall (12 R380, R381) -/

/-- The currents of phases A and B in mA as binary32 (12 R359). -/
def phaseCurrents (r : AxisCfg) (x : AxisSt) : F32 × F32 :=
  let e := (x.pos % 1024).toNat
  let i := F32.ofInt (curSetting r x)
  let sa := Num.sinPhase (e * 4194304)
  (F32.mul i (if r.dirInv then F32.neg sa else sa), F32.mul i (Num.sinPhase (e * 4194304 + 1073741824)))

/-- A stall is declared. -/
def stall (a : Nat) (s : State) : State :=
  let x := s.axis a
  let r := axCfg s a
  let s1 := s.setAxis a (fun y => { y with stalls := satInc top16 y.stalls, stallRun := 0 })
  if x.state == .homing && r.homeMode = 3 && x.homePhase == .approach then
    homeSet a (s1.setAxis a (fun y => { y with pRef := y.pos }))
  else if r.stallAct = 0 then s1
  else
    let s2 := raiseAx Ev.AX_STALL a (s32 x.pos) (s1.setAxis a (fun y => { y with source := .unknown }))
    if r.stallAct = 2 then axFault a 6 s2
    else if x.state == .homing then homeFail a 3 (s2.setAxis a (fun y => restIn s .stopped y))
    else s2

/-- A load-angle estimate of `deg` degrees, with the back-EMF speed estimate. -/
def loadEstimate (a deg : Nat) (emf : F32) (s : State) : State :=
  if !axLive s a then s
  else
    let x := s.axis a
    let r := axCfg s a
    let run := if estOk r x then min 65536 (x.estRun + 64) else 0
    let valid := decide (512 ≤ run)
    let sr := if valid && decide (r.stallDeg ≤ deg) then x.stallRun + 1 else 0
    let s1 := s.setAxis a (fun y =>
      { y with estRun := run, estValid := valid, loadAng := min deg 255, loadMax := max y.loadMax (min deg 255), emf := emf
               stallRun := sr })
    if 8 ≤ sr then stall a s1 else s1

/-! ### Potentiometer (12 R382–R384) -/

/-- A new GOOD potentiometer value. -/
def potCheck (a : Nat) (s : State) : State :=
  if !axLive s a then s
  else
    match potValue s a with
    | none => s
    | some p =>
      let x := s.axis a
      let r := axCfg s a
      if x.potInit && decide (s.now ≤ x.runAt + 1000000000) && x.source == .unknown then
        s.setAxis a (fun y => { y with pos := p, source := .pot, potInit := false })
      else if !((x.state == .idle || x.state == .stopped || x.state == .noTorque) && decide (x.restAt + 500000000 ≤ s.now)) then s
      else
        let dev := p - x.pos
        if r.potTol < dev.natAbs then
          let n := x.potRun + 1
          let s1 := s.setAxis a (fun y => { y with potDev := dev, potRun := min n 3 })
          if n = 3 && !x.mismatch then
            let s2 := raiseAx Ev.AX_POS_MISMATCH a (s32 dev) (s1.setAxis a (fun y => { y with mismatch := true }))
            if r.potAct = 1 && energised x then axFault a 7 s2 else s2
          else s1
        else
          s.setAxis a (fun y =>
            { y with potDev := dev, potRun := 0, source := if y.source == .restored then .pot else y.source })

/-! ### Pitch and reset (12 R376, R386, R387) -/

/-- The limits already asserted latch at once. -/
def latchLimits (a : Nat) (s : State) : State :=
  let one := fun (p : Bool) (t : State) => if limitIn t a p then limitAssert a p t else t
  one false (one true s)

/-- The row is pitched: the axis enters NO_TORQUE. -/
def pitchAxis (a code : Nat) (cold : Bool) (s : State) : State :=
  let r := axCfg s a
  let s1 := s.setAxis a (fun x =>
    { restIn s .noTorque x with
      code := code, drainMs := if r.mode = 0 then 0 else drainMs r, potInit := cold && r.potInit == 1, runAt := s.now
      pending := none, queue := 0, cause := 0, tgtSeen := tgtNow s a, limP := false, limN := false, blocked := false
      blockRaised := false, wdActed := false, ss1Line := false })
  if r.mode = 0 || code != 0 then s1 else latchLimits a s1

/-- A function reset of an axis: torque removed at once, position kept. In part by log 43 (DEDUCED, unsafe). -/
def resetAxis (a : Nat) (s : State) : State :=
  s.setAxis a (fun x =>
    { (default : AxisSt) with
      pos := x.pos, source := if inMotion x then .unknown else x.source, supply := x.supply, torqueOff := x.torqueOff
      drainMs := x.drainMs, code := x.code, seq := x.seq, tgtSeen := x.tgtSeen, restAt := s.now, wd := x.wd })

/-- The drain of a disable begins: STOP (12 R386). -/
def drainAxis (a : Nat) (s : State) : State := (cmdStop a s).1

/-- The drain ends, or runs over its time: torque is removed. -/
def drainedAxis (a : Nat) (late : Bool) (s : State) : State :=
  s.setAxis a (fun x =>
    { restIn s .noTorque x with pending := none, queue := 0, source := if late then .unknown else x.source })

/-! ### Object blocks (12 R388, R389) -/

/-- Blocks 0x02 and 0x03 of an axis. -/
def axisObj (s : State) (a blk off : Nat) : Option Nat :=
  let x := s.axis a
  let r := axCfg s a
  if blk = 2 then
    if off = 0 then some (axStat x)
    else if off = 4 then some (s32 x.pos)
    else if off = 8 then
      some (s32 (match x.state with
        | .moving | .dwell => x.target
        | _ => match x.pending with | some t => t | none => x.pos))
    else if off = 0xC then some x.interval
    else if off = 0x10 then some (x.loadAng + 256 * x.loadMax)
    else if off = 0x14 then some (min top16 x.supply + 65536 * curSetting r x)
    else if off = 0x18 then some (s32 x.latP)
    else if off = 0x1C then some (s32 x.latN)
    else if off = 0x20 then some x.homeRes
    else if off = 0x24 then some (s32 x.homeShift)
    else if off = 0x28 then some (s32 x.potDev)
    else if off = 0x2C then some x.sdLost
    else if off = 0x30 then some (x.stalls + 65536 * min top16 x.drainMs)
    else none
  else if blk = 3 then (if off = 4 then some (x.cmdRes + 256 * x.cmdCode + 65536 * b2n x.cmdMmp) else none)
  else none

/-! ### Commands -/

/-- AXIS_TICK. -/
def execAxisTick (a : Fin 4) (supply drive : Nat) (s : State) : Host.Outcome State Fault Refusal :=
  .next (axisTick a.val supply drive s)
/-- ENERGISE. -/
def execEnergise (a : Fin 4) (src : CmdSrc) (s : State) : Host.Outcome State Fault Refusal := .next (axCommand a.val 1 src s)
/-- DEENERGISE. -/
def execDeenergise (a : Fin 4) (src : CmdSrc) (s : State) : Host.Outcome State Fault Refusal := .next (axCommand a.val 2 src s)
/-- STOP. -/
def execStop (a : Fin 4) (src : CmdSrc) (s : State) : Host.Outcome State Fault Refusal := .next (axCommand a.val 3 src s)
/-- QUICK_STOP. -/
def execQuickStop (a : Fin 4) (src : CmdSrc) (s : State) : Host.Outcome State Fault Refusal := .next (axCommand a.val 4 src s)
/-- RESUME. -/
def execResume (a : Fin 4) (src : CmdSrc) (s : State) : Host.Outcome State Fault Refusal := .next (axCommand a.val 5 src s)
/-- HOME. -/
def execHome (a : Fin 4) (src : CmdSrc) (s : State) : Host.Outcome State Fault Refusal := .next (axCommand a.val 6 src s)
/-- CLEAR. -/
def execClear (a : Fin 4) (src : CmdSrc) (s : State) : Host.Outcome State Fault Refusal := .next (axCommand a.val 7 src s)
/-- SYNC_POT. -/
def execSyncPot (a : Fin 4) (src : CmdSrc) (s : State) : Host.Outcome State Fault Refusal := .next (axCommand a.val 8 src s)
/-- TARGET_CHANGE. -/
def execTargetChange (a : Fin 4) (t : W32) (s : State) : Host.Outcome State Fault Refusal :=
  .next (if s.running (axisFn a.val) && (axCfg s a.val).mode != 0 then targetChange a.val t.toInt s else s)
/-- MICROSTEP. -/
def execMicrostep (a : Fin 4) (s : State) : Host.Outcome State Fault Refusal := .next (microstep a.val s)
/-- DWELL_END. -/
def execDwellEnd (a : Fin 4) (s : State) : Host.Outcome State Fault Refusal := .next (dwellEnd a.val s)
/-- HOLD_DELAY_END. -/
def execHoldDelayEnd (a : Fin 4) (s : State) : Host.Outcome State Fault Refusal := .next (holdDelay a.val s)
/-- AX_DRIVER_FAULT. -/
def execAxDriverFault (a : Fin 4) (cause : Nat) (s : State) : Host.Outcome State Fault Refusal :=
  .next (if axLive s a.val && 1 ≤ cause && cause ≤ 5 then driverFault a.val cause s else s)
/-- AX_LIMIT. -/
def execAxLimit (a : Fin 4) (positive : Bool) (s : State) : Host.Outcome State Fault Refusal :=
  .next (if axLive s a.val then limitAssert a.val positive s else s)
/-- LOAD_ANGLE_ESTIMATE. -/
def execLoadAngleEstimate (a : Fin 4) (deg : Nat) (emf : F32) (s : State) : Host.Outcome State Fault Refusal :=
  .next (loadEstimate a.val deg emf s)
/-- POT_CHECK. -/
def execPotCheck (a : Fin 4) (s : State) : Host.Outcome State Fault Refusal := .next (potCheck a.val s)
/-- STEP_EDGE. -/
def execStepEdge (a : Fin 4) (dir : Bool) (s : State) : Host.Outcome State Fault Refusal := .next (stepEdge a.val dir s)
/-- VELOCITY_UPDATE. -/
def execVelocityUpdate (a : Fin 4) (s : State) : Host.Outcome State Fault Refusal := .next (velocityUpdate a.val s)
/-- CARRY. -/
def execCarry (a : Fin 4) (s : State) : Host.Outcome State Fault Refusal := .next (carryStep a.val s)

end Sys2Proof.Machine
end

