-- ==== Sys2Proof/Machine/Pool.lean ====
section
/-! DEFINITION. The fabric, its arbiter and the buffer pool (chapter 14). -/

namespace Sys2Proof.Machine

/-- The rank of a requester (14 R446). The pool's own requests stand with the management background. -/
def rankOf (r : Requester) : Nat :=
  match r.fn with
  | .bedrock => 0 | .time => 1 | .ring => if r.portB then 3 else 2 | .logic => 4 | .loop => 5 | .alarm => 6
  | .can _ => 7 | .bank _ => 8 | .group _ => 9 | .axis _ => 10 | .recorder => 11 | .peg => 12 | .guy => 13
  | .panel => 14 | .module => 15 | .pool => 15

/-- True when requester `a` is granted before requester `b`: rank, then function ID (14 R447). -/
def grantedBefore (a b : Requester) : Bool :=
  decide (rankOf a < rankOf b) || (rankOf a == rankOf b && decide (fnId a.fn < fnId b.fn))

/-- True while a function's requesters are masked by sideband (01 R23). In part by log 13 (DEDUCED, unsafe). -/
def masked (s : State) (f : Fn) : Bool := s.fnState f == .off || s.fnState f == .reset

/-- The arbiter's counters of a function changed. -/
def setArb (f : Fn) (g : ArbFn → ArbFn) (s : State) : State :=
  s.setPool (fun p => { p with fns := p.fns.upd (fnId f) g })

/-! ### Tags (14 R440) -/

/-- Tags in flight. -/
def tagsInFlight (s : State) : Nat := (s.pool.tags.filter (fun p => p.2.isSome)).length

/-- The lowest free tag, where one is free. -/
def freeTag (s : State) : Option Nat := (List.range 256).find? (fun t => (s.pool.tags.look t).isNone)

/-- A requester finds a tag for a new transaction: one is free and its function holds fewer than 32. -/
def tagAvailable (s : State) (f : Fn) : Bool := (freeTag s).isSome && decide ((tagsOf s f).length < 32)

/-- A tag returns. -/
def dropTag (t : Nat) (s : State) : State := s.setPool (fun p => { p with tags := p.tags.put t none })

/-! ### Decision points (14 R447–R449) -/

/-- Bytes that the logic engine moved in the last 10 µs. -/
def logicBytes (s : State) : Nat :=
  ((s.pool.bursts.filter (fun b => b.fn == 1 && decide (s.now < b.time + 10000))).map (·.bytes)).sum

/-- The logic engine is over POOL_LE_BW, averaged over 10 µs. -/
def throttled (s : State) : Bool := decide (s.img.pool.leBw * 10 < logicBytes s)

/-- True when tag `t` is in flight for a requester. -/
def ownsTag (s : State) (r : Requester) (t : Nat) : Bool :=
  match s.pool.tags.look t with
  | some x => x.fn == fnId r.fn && x.portB == r.portB
  | none => false

/-- True when a raised request counts at this decision point. `cont` is the transaction that the burst continues.
In part by log 47 (DEDUCED, unsafe). -/
def eligible (s : State) (cont : Option Nat) (r : Requester) : Bool :=
  !masked s r.fn && !(r.fn == .logic && throttled s)
    && ((match cont with | some t => ownsTag s r t | none => false) || tagAvailable s r.fn)

/-- The first of a list by rank and function ID. -/
def firstGranted : List Requester → Option Requester
  | [] => none
  | a :: r =>
    match firstGranted r with
    | none => some a
    | some b => if grantedBefore b a then some b else some a

/-- The requester that holds the grant after a decision point: the holder, unless a higher rank requests. -/
def decide' (s : State) (reqs : List Requester) : Option Requester :=
  match s.pool.holder, firstGranted reqs with
  | some h, some w => if reqs.contains h && !decide (rankOf w < rankOf h) then some h else some w
  | _, w => w

/-- Bytes that function `f` moved over the last second. -/
def bytesOf (s : State) (id : Nat) : Nat :=
  ((s.pool.bursts.filter (fun b => b.fn == id && decide (s.now < b.time + 1000000000))).map (·.bytes)).sum

/-- Fabric busy over the last second, in units of 0.1 % of 250 M cycles. -/
def fabricUtil (s : State) : Nat :=
  min 1000 (((s.pool.bursts.filter (fun b => decide (s.now < b.time + 1000000000))).map (·.cycles)).sum / 250000)

/-- One burst of `beats` beats by a requester, with two cycles of turnaround (14 R439). -/
def moveBurst (r : Requester) (beats : Nat) (s : State) : State :=
  let s1 := s.setPool (fun p =>
    { p with bursts := { time := s.now, fn := fnId r.fn, bytes := 8 * beats, cycles := beats + 2 }
                :: p.bursts.filter (fun b => decide (s.now < b.time + 1000000000)) })
  setArb r.fn (fun a => { a with bwMax := max a.bwMax (bytesOf s1 (fnId r.fn) / 1000000) })
    (s1.setPool (fun p => { p with utilMax := max p.utilMax (fabricUtil s1) }))

/-- The pending requests after a decision: those raised that did not get the grant, each with its instant. -/
def waitsAfter (s : State) (reqs : List Requester) (w : Option Requester) : List WaitSt :=
  (reqs.filter (fun r => some r != w && !masked s r.fn)).map (fun r =>
    match s.pool.waits.find? (fun x => x.who == r) with
    | some x => x
    | none => { who := r, since := s.now })

/-- A decision point: the requests raised, the beats of the burst that follows, the transaction that it continues
(`none` starts one), and whether it is the transaction's last. In part by log 47 (DEDUCED, unsafe). -/
def decisionPoint (reqs : List Requester) (beats : Nat) (cont : Option Nat) (last : Bool) (s : State) : State :=
  let live := reqs.filter (eligible s cont)
  let w := decide' s live
  let waited := match w with
    | none => 0
    | some r => match s.pool.waits.find? (fun x => x.who == r) with | some x => s.now - x.since | none => 0
  let s1 := s.setPool (fun p => { p with holder := w, waits := waitsAfter s reqs w })
  match w with
  | none => s1
  | some r =>
    let s2 := setArb r.fn (fun a => { a with wait := max a.wait (min waited top32) }) s1
    let tag := match cont with
      | some t => if ownsTag s r t then some t else freeTag s
      | none => freeTag s
    match tag with
    | none => s2
    | some t =>
      let fresh := (s.pool.tags.look t).isNone
      let s3 := if fresh then
          s2.setPool (fun p => { p with tags := p.tags.put t (some { fn := fnId r.fn, portB := r.portB, since := s.now }) })
        else s2
      let s4 := s3.setPool (fun p => { p with tagsMax := max p.tagsMax (tagsInFlight s3) })
      let s5 := moveBurst r (max 1 (min 16 beats)) s4
      if last then dropTag t s5 else s5

/-! ### Allocation (14 R443–R445) -/

/-- The reserve that the blocks of a function count against: the ring has the reserves of both its ports. -/
def reserveOf (cfg : PoolCfg) (f : Fn) : Nat :=
  let r := fun n => nth cfg.res n
  match f with
  | .ring => r 2 + r 3
  | _ => r (rankOf { fn := f })

/-- The functions that share a rank. -/
def rankMates (f : Fn) : List Fn := allFns.filter (fun g => rankOf { fn := g } == rankOf { fn := f })

/-- Blocks held by the functions of a rank. -/
def heldByRank (s : State) (f : Fn) : Nat :=
  (s.pool.blocks.filter (fun p => (rankMates f).any (fun g => p.2.owner == some (fnId g)))).length

/-- One function for each reserve. -/
def rankHeads : List Fn :=
  [.bedrock, .time, .ring, .logic, .loop, .alarm, .can 0, .bank 0, .group 0, .axis 0, .recorder, .peg, .guy,
   .panel, .module]

/-- The common part (14 R444). -/
def commonSize (cfg : PoolCfg) : Nat := 8192 - cfg.res.sum

/-- Blocks of the common part in use: what the ranks hold above their reserves, and the retired blocks. -/
def commonUsed (s : State) : Nat :=
  (rankHeads.map (fun f => heldByRank s f - reserveOf s.img.pool f)).sum + retiredBlocks s

/-- Free blocks of a bank, lowest index first. -/
def freeIn (s : State) (k : Nat) : List Nat :=
  let taken := (s.pool.blocks.filter (fun p => p.2.owner.isSome || p.2.retired)).map (·.1)
  ((List.range 1024).map (fun i => 1024 * k + i)).filter (fun b => !taken.contains b)

/-- Blocks that are owned or retired. -/
def blocksTaken (s : State) : Nat := (s.pool.blocks.filter (fun p => p.2.owner.isSome || p.2.retired)).length

/-- The blocks that a request gets, or none (14 R443, R445). In part by log 47 (DEDUCED, unsafe). -/
def poolPick (s : State) (f : Fn) (n : Nat) : Option (List Nat) :=
  if (reserveOf s.img.pool f - heldByRank s f) + (commonSize s.img.pool - commonUsed s) < n then none
  else ((List.range 8).map (freeIn s)).findSome? (fun l => if n ≤ l.length then some (l.take n) else none)

/-- A request for 1–64 blocks: the blocks, or none with the refusal counted (14 R443, R445).
In part by log 47 (DEDUCED, unsafe). -/
def poolAlloc (f : Fn) (n : Nat) (s : State) : Option (List Nat) × State :=
  match poolPick s f n with
  | some bs =>
    let s1 := forAll bs (fun b t =>
      t.setPool (fun p => { p with blocks := p.blocks.upd b (fun x => { x with owner := some (fnId f) }) })) s
    let s2 := s1.setPool (fun p => { p with mostTaken := max p.mostTaken (blocksTaken s1) })
    (some bs, setArb f (fun a => { a with exhausted := false }) s2)
  | none =>
    let told := (s.pool.fns.look (fnId f)).exhausted
    let s1 := setArb f (fun a => { a with refusals := satInc 16383 a.refusals, exhausted := true }) s
    (none, raiseIf (!told) Ev.POOL_EXHAUSTED 0xCE (fnId f + 256 * n) s1)

/-- The entry of a receive queue that lies in a block is gone with it. -/
def queueWithout (q : CanQueue) (b : Nat) : CanQueue :=
  { q with entries := q.entries.filter (fun e => e.block != b) }

/-- A function frees one block that it owns. In part by log 47 (DEDUCED, unsafe). -/
def giveBack (f : Fn) (b : Nat) (s : State) : State :=
  if (poolBlock s b).owner != some (fnId f) then s
  else
    let s1 := freeBlock b s
    match f with
    | .can c => { s1 with can := s1.can.upd c.val (fun x => { x with q0 := queueWithout x.q0 b, q1 := queueWithout x.q1 b }) }
    | _ => s1

/-! ### Parity in the pool (14 R454) -/

/-- A read finds a parity error. -/
def poolParity (b : Nat) (s : State) : State :=
  if 8192 ≤ b || (poolBlock s b).retired then s
  else
    raiseN Ev.POOL_PARITY 0xCE b
      (s.setPool (fun p => { p with blocks := p.blocks.upd b (fun x => { x with marked := true }) }))

/-- The scrub finds a parity error: a free block is retired, an allocated one is marked.
In part by log 47 (DEDUCED, unsafe). -/
def scrubFinds (b : Nat) (s : State) : State :=
  if 8192 ≤ b || (poolBlock s b).retired then s
  else
    let s1 := raiseN Ev.POOL_PARITY 0xCE (b + 65536)
      (s.setPool (fun p => { p with blocks := p.blocks.upd b (fun x => { x with marked := true }) }))
    if (poolBlock s b).owner.isNone then freeBlock b s1 else s1

/-! ### The resource order (14 R452, R453) -/

/-- A LOCK transaction. In part by log 47 (DEDUCED, unsafe). -/
def lockRes (f : Fn) (n : Nat) (s : State) : State :=
  if 10 < n || masked s f then s
  else
    let held := locksOf s f
    if held.any (fun h => decide (n ≤ h)) then
      raiseN Ev.ORDER_VIOLATION 0xCE (fnId f + 256 * held.foldl max 0 + 4096 * n)
        (s.setPool (fun p => { p with orderCount := satInc top32 p.orderCount }))
    else
      s.setPool (fun p => { p with locks := p.locks.upd n (fun l =>
        match l.owner with
        | none => { l with owner := some (fnId f) }
        | some _ => if l.waiters.contains (fnId f) then l else { l with waiters := l.waiters ++ [fnId f] }) })

/-- An UNLOCK transaction of the function that holds the resource. In part by log 47 (DEDUCED, unsafe). -/
def unlockRes (f : Fn) (n : Nat) (s : State) : State :=
  if (s.pool.locks.look n).owner == some (fnId f) then passLock n s else s

/-! ### Starvation and errors -/

/-- A request of a function has waited ARB_STARVE_US (14 R448). -/
def arbStarved (f : Fn) (s : State) : State :=
  match s.pool.waits.find? (fun w => w.who.fn == f && !w.starved) with
  | none => s
  | some w =>
    raiseN Ev.ARB_STARVED 0xCE (fnId f + 256 * rankOf w.who)
      (s.setPool (fun p => { p with waits := updFirst (fun x => x == w) (fun x => { x with starved := true }) p.waits }))

/-- A transaction is not complete 100 µs after it took its tag (14 R440). In part by log 47 (DEDUCED, unsafe). -/
def tagTimeout (f : Fn) (t : Nat) (s : State) : State :=
  raiseN Ev.TAG_TIMEOUT 0xCE (fnId f + 256 * (t % 256)) (dropTag (t % 256) s)

/-- The error and its repeat of R441, before the function's fault. In part by log 47 (DEDUCED, unsafe). -/
def fabricParity (f : Fn) (t : Nat) (s : State) : State :=
  raiseN Ev.FABRIC_PARITY 0xCE (fnId f + 256 * (t % 256))
    ((dropTag (t % 256) s).setPool (fun p => { p with parity := min top32 (p.parity + 2) }))

/-! ### Image-level check (14 R444) -/

/-- The pool fields of the image are in range and the reserves sum to at most 6144 blocks. -/
def poolImageOk (img : ImageCfg) : Bool :=
  let c := img.pool
  c.res.length == 16 && c.res.all (fun n => n ≤ 1024) && c.res.sum ≤ 6144 && 10 ≤ c.leBw && c.leBw ≤ 400
    && 100 ≤ c.starve && c.starve ≤ 100000 && c.starve % 100 == 0

/-! ### Object blocks (14 R456, R457) -/

/-- Blocks 0x02 and 0x03 of function 0x08. -/
def poolObj (s : State) (blk off : Nat) : Option Nat :=
  let p := s.pool
  if blk = 2 then
    if off = 0 then some (8192 - blocksTaken s + 65536 * (8192 - max p.mostTaken (blocksTaken s)))
    else if 4 ≤ off && off ≤ 0x20 then
      let k := off / 4 - 1
      some ((freeIn s k).length + 65536 * (p.blocks.filter (fun q => q.2.retired && q.1 / 1024 == k)).length)
    else if off = 0x24 then
      some (commonSize s.img.pool + 65536 * (commonSize s.img.pool - commonUsed s))
    else if off = 0x28 then some (tagsInFlight s + 65536 * p.tagsMax)
    else if off = 0x2C then some (fabricUtil s + 65536 * p.utilMax)
    else if off = 0x30 then some p.parity
    else if off = 0x34 then some p.orderCount
    else none
  else if blk = 3 then
    if 0x280 ≤ off then none
    else
      match fnOfId (off / 16) with
      | none => some 0
      | some f =>
        let a := p.fns.look (fnId f)
        let k := off % 16
        some (
          if k = 0 then
            (tagsOf s f).length + 64 * b2n (masked s f)
              + 128 * b2n (match p.holder with | some h => h.fn == f | none => false)
              + 256 * ((locksOf s f).map (fun n => 2 ^ n)).sum
          else if k = 4 then min top16 (bytesOf s (fnId f) / 1000000) + 65536 * min top16 a.bwMax
          else if k = 8 then a.wait
          else (blocksOf s f).length + 65536 * a.refusals)
  else none

/-! ### Commands -/

/-- DECISION_POINT. -/
def execDecisionPoint (reqs : List Requester) (beats : Nat) (cont : Option Nat) (last : Bool) (s : State) :
    Host.Outcome State Fault Refusal := .next (decisionPoint reqs beats cont last s)
/-- TAG_TIMEOUT. -/
def execTagTimeout (f : Fn) (tag : Nat) (s : State) : Host.Outcome State Fault Refusal := .next (tagTimeout f tag s)
/-- POOL_ALLOCATE: a request of 1–64 blocks by a function that is not masked. -/
def execPoolAllocate (f : Fn) (n : Nat) (s : State) : Host.Outcome State Fault Refusal :=
  .next (if n = 0 || 64 < n || masked s f then s else (poolAlloc f n s).2)
/-- BLOCK_FREE. -/
def execBlockFree (f : Fn) (blocks : List Nat) (s : State) : Host.Outcome State Fault Refusal :=
  .next (forAll blocks (giveBack f) s)
/-- POOL_PARITY. -/
def execPoolParity (block : Nat) (s : State) : Host.Outcome State Fault Refusal := .next (poolParity block s)
/-- POOL_SCRUB. -/
def execPoolScrub (bad : List Nat) (s : State) : Host.Outcome State Fault Refusal := .next (forAll bad scrubFinds s)
/-- LOCK. -/
def execLock (f : Fn) (res : Nat) (s : State) : Host.Outcome State Fault Refusal := .next (lockRes f res s)
/-- UNLOCK. -/
def execUnlock (f : Fn) (res : Nat) (s : State) : Host.Outcome State Fault Refusal := .next (unlockRes f res s)
/-- ARB_STARVED. -/
def execArbStarved (f : Fn) (s : State) : Host.Outcome State Fault Refusal := .next (arbStarved f s)

end Sys2Proof.Machine
end

