-- ==== Sys2Proof/Machine/Bsl.lean ====
section
/-! DEFINITION. The Bedrock safety layer as a consumer: the frame, its check, and the states of a connection
(13 R427–R432). -/

namespace Sys2Proof.Machine

/-- Bedrock changed. -/
def State.setBr (s : State) (f : BedrockSt → BedrockSt) : State := { s with bedrock := f s.bedrock }
/-- The row of a connection. -/
def bslRow (s : State) (c : Nat) : BslRow := s.img.bedrock.conns.look c
/-- A connection. -/
def bslOf (s : State) (c : Nat) : BslSt := s.bedrock.conns.look c
/-- A connection changed. -/
def State.setBsl (s : State) (c : Nat) (f : BslSt → BslSt) : State :=
  s.setBr (fun b => { b with conns := b.conns.upd c f })
/-- Raises an event of a connection or an STO pair (13 R438). -/
def raiseBsl (k : EvKind) (c data : Nat) (s : State) : State := raiseN k 0xF6 (c + data) s

/-- Monotonic ms. In part by log 60 (DEDUCED, unsafe). -/
def nowMs (s : State) : Nat := s.now / 1000000

/-- The check of a frame: CRC-32C over the virtual connection ID and the bytes before the check (13 R428). -/
def bslCrc (connId : Nat) (bytes : List Byte) : BitVec 32 := crc32c (leBytes 4 connId ++ bytes)

/-- Check 1 of R430: the length and the CRC with the consumer's connection ID. Bytes after the check are not
checked. In part by log 46 (DEDUCED, unsafe). -/
def bslCheck (r : BslRow) (bytes : List Byte) : Bool :=
  let n := leAt bytes 6 1
  n == r.len && 12 + n ≤ bytes.length && leAt bytes (8 + n) 4 == (bslCrc r.connId (bytes.take (8 + n))).toNat

/-- A frame is rejected with a reason (13 R430). In part by log 46 (DEDUCED, unsafe). -/
def bslReject (c reason : Nat) (s : State) : State :=
  raiseBsl Ev.BSL_REJECTED c (256 * reason)
    (s.setBsl c (fun x =>
      { x with
        rejCheck := if reason = 1 then satInc top16 x.rejCheck else x.rejCheck
        rejOrder := if reason = 1 then x.rejOrder else satInc top16 x.rejOrder
        passed := if reason = 1 then 0 else x.passed }))

/-- A frame is accepted: its references, its gap, its data, and the watchdog. `gap` is the difference of SEQ.
In part by log 46 (DEDUCED, unsafe). -/
def bslAccept (c seq texp gap : Nat) (safe first : Bool) (data : List Byte) (live : Bool) (s : State) : State :=
  let ms := nowMs s
  s.setBsl c (fun x =>
    let d := if safe then data.map (fun _ => 0#8) else data
    { x with
      seq := seq
      texp := texp
      ok := wrap32 (x.ok + 1)
      lost := if 2 ≤ gap then min top16 (x.lost + (gap - 1)) else x.lost
      gapMs := match x.at' with | some t => max x.gapMs (min top16 (ms - t)) | none => x.gapMs
      at' := some ms
      data := if live then d else x.data
      fresh := if live then x.fresh ++ [{ data := d, time := ms, first := first }] else x.fresh })

/-- A frame that has passed check 1 (13 R430, R431). In part by log 46 (DEDUCED, unsafe). -/
def bslPassed (c : Nat) (bytes : List Byte) (s : State) : State :=
  let r := bslRow s c
  let x := bslOf s c
  let seq := leAt bytes 0 2
  let texp := leAt bytes 2 4
  let flags := leAt bytes 7 1
  let data := (bytes.drop 8).take r.len
  let gap := (seq + 65536 - x.seq % 65536) % 65536
  let dt := (w32 texp - w32 x.texp).toInt
  let seqOk := 1 ≤ gap && gap ≤ 16
  let timeOk := decide (0 < dt) && decide (dt ≤ (r.wd * 1000 : Nat))
  if x.state = 2 then
    if bitOf 1 flags then bslAccept c seq texp 0 (bitOf 0 flags) false data true s
    else if !seqOk then bslReject c 2 s
    else if !timeOk then bslReject c 3 s
    else bslAccept c seq texp gap (bitOf 0 flags) false data true s
  else
    let rising := 0 < x.passed && seqOk && timeOk
    let n := if rising then x.passed + 1 else 1
    if n < 3 then
      (bslAccept c seq texp (if rising then gap else 0) (bitOf 0 flags) false data false s).setBsl c
        (fun y => { y with passed := n })
    else
      raiseBsl Ev.BSL_RESTORED c 0
        ((bslAccept c seq texp gap (bitOf 0 flags) true data true s).setBsl c
          (fun y => { y with state := 2, passed := 0 }))

/-- True for a consumer connection that takes frames: Bedrock is in RUN (13 R425). -/
def bslTakes (s : State) (c : Nat) : Bool :=
  s.running .bedrock && (bslRow s c).dir == 1 && (bslOf s c).state != 0

/-- A frame is offered to consumer connections in ascending order: the first whose check 1 passes takes it, and
with none it counts as rejected on the first (15 R476). In part by log 46 (DEDUCED, unsafe). -/
def bslOffer (conns : List Nat) (bytes : List Byte) (s : State) : State :=
  let cs := conns.filter (bslTakes s)
  match cs.find? (fun c => bslCheck (bslRow s c) bytes) with
  | some c => bslPassed c bytes s
  | none => match cs with | c :: _ => bslReject c 1 s | [] => s

/-- Consumer connections of a peer station over MMP. -/
def bslFromPeer (s : State) (station : Nat) : List Nat :=
  (List.range 16).filter (fun c =>
    let r := bslRow s c
    r.dir == 1 && r.carrier == 0 && r.peer == station)

/-- Consumer connections of an identifier on a controller (16 R491). -/
def bslFromCan (s : State) (c : Nat) (f : CanFrame) : List Nat :=
  (List.range 16).filter (fun k =>
    let r := bslRow s k
    r.dir == 1 && r.carrier == c + 1 && r.canId == f.id && r.canIde == f.ide)

/-- BSL_WD has passed without an accepted frame (13 R431). In part by log 46 (DEDUCED, unsafe). -/
def bslTimeout (c : Nat) (s : State) : State :=
  if bslTakes s c && (bslOf s c).state == 2 then
    raiseBsl Ev.BSL_TIMEOUT c 0
      (s.setBsl c (fun x => { x with state := 1, passed := 0, data := x.data.map (fun _ => 0#8) }))
  else s

/-- BSL_TIMEOUT. -/
def execBslTimeout (c : Fin 16) (s : State) : Host.Outcome State Fault Refusal := .next (bslTimeout c.val s)

end Sys2Proof.Machine
end

