-- ==== Sys2Proof/Machine/Can.lean ====
section
/-! DEFINITION. The CAN FD controllers (chapter 16). -/

namespace Sys2Proof.Machine

/-- A controller. -/
def canOf (s : State) (c : Nat) : CanSt := s.can.look c
/-- The row of a controller. -/
def canCfg (s : State) (c : Nat) : CanCfg := s.img.can.look c
/-- A controller changed. -/
def State.setCan (s : State) (c : Nat) (f : CanSt → CanSt) : State := { s with can := s.can.upd c f }
/-- Raises an event of a controller. -/
def raiseCan (k : EvKind) (c data : Nat) (s : State) : State := raiseN k (0xC4 + c) data s
/-- A transmit buffer. -/
def txb (x : CanSt) (b : Nat) : CanTxb := if b = 0 then x.b0 else if b = 1 then x.b1 else x.b2
/-- A transmit buffer changed. -/
def setTxb (b : Nat) (f : CanTxb → CanTxb) (x : CanSt) : CanSt :=
  if b = 0 then { x with b0 := f x.b0 } else if b = 1 then { x with b1 := f x.b1 } else { x with b2 := f x.b2 }
/-- A receive queue. -/
def canQ (x : CanSt) (q : Nat) : CanQueue := if q = 0 then x.q0 else x.q1
/-- A receive queue changed. -/
def setQ (q : Nat) (f : CanQueue → CanQueue) (x : CanSt) : CanSt :=
  if q = 0 then { x with q0 := f x.q0 } else { x with q1 := f x.q1 }

/-! ### Filters (16 R491–R493) -/

/-- True while the filter list is in force. -/
def listInForce (s : State) (c : Nat) : Bool :=
  s.fnState (canFn c) == .pitch
    || (match (canOf s c).state with | .test | .busOff | .recovery | .off => true | _ => false)

/-- A change of the set in force raises CAN_FILTER_SET. -/
def filterNote (c : Nat) (s : State) : State :=
  let now := listInForce s c
  if (canOf s c).listSet == now then s
  else raiseCan Ev.CAN_FILTER_SET c (b2n now) (s.setCan c (fun x => { x with listSet := now }))

/-- A pair as it stands, its image value where no edit has been loaded. -/
def pairOf (s : State) (c n : Nat) : CanElem :=
  match (canOf s c).pairs.look n with | some e => e | none => (canCfg s c).pairs.look n

/-- True when an element matches a frame; `list` tells which set it belongs to. -/
def elemMatches (list : Bool) (e : CanElem) (f : CanFrame) : Bool :=
  let id := BitVec.ofNat 29 f.id
  let a : BitVec 29 := e.w0.extractLsb' 0 29
  let b : BitVec 29 := e.w1.extractLsb' 0 29
  let kind := (e.w2.extractLsb' 4 2).toNat
  let mask := (id ^^^ a) &&& b == 0
  e.w2.getLsbD 0 && e.w2.getLsbD 1 == f.ide
    && (if !list then mask
        else if kind = 1 then a ≤ id && id ≤ b
        else if kind = 2 then id == a || id == b
        else if kind = 3 then mask else false)

/-- The first enabled element in ascending index that matches: its index and its queue. -/
def filterFrame (s : State) (c : Nat) (f : CanFrame) : Option (Nat × Nat) :=
  let list := listInForce s c
  let elem := fun n => if list then (canCfg s c).list.look n else pairOf s c n
  ((List.range (if list then 128 else 32)).find? (fun n => elemMatches list (elem n) f)).map
    (fun n => (n, b2n ((elem n).w2.getLsbD 2)))

/-- The CAN stamp of a start of frame latched now: the receive delay of 90 ns is subtracted (16 R496). -/
def sofStamp (s : State) : W32 := w32 ((s.tu.mono - 90) / 25)

/-- A dropped frame (16 R494). -/
def dropFrame (c q : Nat) (byPool : Bool) (s : State) : State :=
  let told := (canQ (canOf s c) q).lost
  raiseIf (!told) Ev.CAN_RX_DROPPED (0xC4 + c) (q + 2 * b2n byPool)
    (s.setCan c (fun x => setQ q (fun y => { y with lost := true }) { x with rxDrop := satInc top32 x.rxDrop }))

/-- A frame that an element accepted joins its queue with one pool block (16 R494). -/
def queueFrame (c q elem : Nat) (f : CanFrame) (s : State) : State :=
  let x := canOf s c
  let byList := listInForce s c
  if (canCfg s c).qdepth.getD q 64 ≤ (canQ x q).entries.length then dropFrame c q false s
  else
    let a := poolAlloc (canFn c) 1 s
    match a.1 with
    | none => dropFrame c q true a.2
    | some bs =>
      let e : CanEntry :=
        { frame := f, byList := byList, element := elem, lostBefore := (canQ x q).lost, seq := (canQ x q).seq
          stamp := x.sof, block := bs.headD 0 }
      raiseIf (canQ x q).entries.isEmpty Ev.CAN_RX_READY (0xC4 + c) q
        (a.2.setCan c (setQ q (fun y =>
          { y with entries := y.entries ++ [e], seq := (y.seq + 1) % 65536, lost := false })))

/-- A received frame, or one sent in loopback, in the order of R491. -/
def deliverFrame (c : Nat) (f : CanFrame) (s : State) : State :=
  match bslFromCan s c f with
  | [] =>
    match filterFrame s c f with
    | some (n, q) => queueFrame c q n f s
    | none => s.setCan c (fun x => { x with noMatch := satInc top32 x.noMatch })
  | cs => bslOffer cs f.data s

/-! ### Transmission (16 R489, R490) -/

/-- The arbitration field as a number: the lower wins. -/
def arbKey (f : CanFrame) : Nat :=
  let r := b2n (f.rtr && !f.fdf)
  if f.ide then (f.id / 262144 % 2048) * 2097152 + 1048576 + 524288 + (f.id % 262144) * 2 + r
  else (f.id % 2048) * 2097152 + r * 1048576

/-- True while a buffer's transmission is under way. -/
def sending (x : CanSt) : Option Nat := [0, 1, 2].find? (fun b => (txb x b).busy)

/-- The buffer that is sent next (R489). -/
def nextBuffer (order : Nat) (x : CanSt) : Option Nat :=
  let ready := [0, 1, 2].filter (fun b => (txb x b).frame.isSome)
  let key : Nat → Nat := fun b => match (txb x b).frame with | some f => arbKey f | none => 0
  match ready with
  | [] => none
  | b :: r => some (if order = 1 then b else r.foldl (fun a k => if key k < key a then k else a) b)

/-- True in the states in which the controller transmits. -/
def maySend (x : CanSt) : Bool :=
  match x.state with
  | .active | .passive => true
  | .test => x.test == 2
  | _ => false

/-- The next frame starts on an idle bus. In part by log 51 (DEDUCED, unsafe). -/
def startFrame (c : Nat) (s : State) : State :=
  let x := canOf s c
  if !maySend x || (sending x).isSome then s
  else
    match nextBuffer (canCfg s c).txOrder x with
    | none => s
    | some b => s.setCan c (fun y => setTxb b (fun t => { t with busy := true, sof := sofStamp s }) { y with sof := sofStamp s })

/-- True while the function of a controller takes frames. -/
def canFnOn (s : State) (c : Nat) : Bool :=
  match s.fnState (canFn c) with | .pitch | .run | .standby => true | _ => false

/-- A buffer's owner requests a frame (R489, R490). While the bus is still being integrated the frame is pending.
In part by log 51 (DEDUCED, unsafe). -/
def canRequest (c b : Nat) (f : CanFrame) (s : State) : State :=
  let x := canOf s c
  let t := txb x b
  let cfg := canCfg s c
  if cfg.mode == 0 || !canFnOn s c || x.state == .sleep || (cfg.mode == 2 && f.fdf) then s
  else
    let g := { f with brs := f.brs && f.fdf && cfg.brs == 1 }
    let s1 := s.setCan c (setTxb b (fun y =>
      if y.busy || y.next.isSome then { y with next := some g }
      else { y with frame := some g, replaced := if t.frame.isSome then satInc 255 y.replaced else y.replaced }))
    startFrame c s1

/-- A buffer's frame is over: the held frame becomes pending. -/
def nextHeld (t : CanTxb) : CanTxb := { t with frame := t.next, next := none, busy := false }

/-! ### Error states (16 R488) -/

/-- The state that the counters and CAN_TEST give, with its events. -/
def errState (c : Nat) (s : State) : State :=
  let x := canOf s c
  let high := 127 < x.tec || 127 < x.rec'
  match x.state with
  | .active =>
    if high then
      raiseCan Ev.CAN_ERROR_PASSIVE c (min 255 x.tec + 256 * min 255 x.rec')
        (s.setCan c (fun y => { y with state := .passive }))
    else s
  | .passive => if high then s else s.setCan c (fun y => { y with state := .active })
  | _ => s

/-- A test mode is entered or left while the bus is idle. In part by log 51 (DEDUCED, unsafe). -/
def canTestStep (c : Nat) (s : State) : State :=
  let x := canOf s c
  if (sending x).isSome then s
  else
    match x.state with
    | .active | .passive | .recovery => if x.test != 0 then s.setCan c (fun y => { y with state := .test }) else s
    | .test => if x.test == 0 then errState c (s.setCan c (fun y => { y with state := .active })) else s
    | _ => s

/-- What follows every change of a controller: test mode, the filter set, the next frame. -/
def settleCan (c : Nat) (s : State) : State := startFrame c (filterNote c (canTestStep c s))

/-- The counters after a frame received without error: REC falls by 1, and from above 127 to a value from 119 to
127 (ISO 11898-1). In part by log 1 (DESIGN CHOICE, safe) and log 51 (DEDUCED, unsafe). -/
def recDown (c : Nat) (s : State) : State :=
  let x := canOf s c
  if 127 < x.rec' then
    let t := takeFree s
    t.2.setCan c (fun y => { y with rec' := 119 + t.1.toNat % 9 })
  else s.setCan c (fun y => { y with rec' := y.rec' - 1 })

/-- An error-free frame counts in RECOVERY. In part by log 51 (DEDUCED, unsafe). -/
def okFrame (c : Nat) (s : State) : State :=
  s.setCan c (fun y => if y.state == .recovery then { y with okRun := min 128 (y.okRun + 1) } else y)

/-- A frame is received from the bus. In part by log 51 (DEDUCED, unsafe). -/
def canReceive (c : Nat) (f : CanFrame) (s : State) : State :=
  let x := canOf s c
  let hears := match x.state with
    | .active | .passive | .recovery => true
    | .test => x.test == 1
    | _ => false
  if !canFnOn s c || !hears || ((canCfg s c).mode == 2 && f.fdf) then s
  else
    let s1 := s.setCan c (fun y => { y with sof := sofStamp s })
    let s2 := deliverFrame c f (filterNote c s1)
    settleCan c (errState c (okFrame c (recDown c s2)))

/-- The transmission under way ends: sent, or lost in arbitration or by an error. `tdc` is the transmitter delay
measured in it, where it switched its bit rate. -/
def canTxEnd (c : Nat) (ok : Bool) (tdc : Option Nat) (s0 : State) : State :=
  let s := match tdc with | some d => s0.setCan c (fun y => { y with tdc := min 127 d }) | none => s0
  let x := canOf s c
  match sending x with
  | none => s
  | some b =>
    match (txb x b).frame with
    | none => s
    | some f =>
      if ok then
        let s1 := s.setCan c (fun y =>
          setTxb b (fun t => nextHeld { t with sent := (t.sent + 1) % 65536, stamp := t.sof })
            { y with tec := y.tec - 1, sentFrames := f :: y.sentFrames })
        let s2 := if x.state == .test && x.test == 2 then deliverFrame c f (filterNote c s1) else s1
        settleCan c (errState c (okFrame c s2))
      else if (canCfg s c).oneshot.getD b 0 = 1 then
        settleCan c (raiseCan Ev.CAN_TX_FAILED c b (s.setCan c (setTxb b nextHeld)))
      else settleCan c (s.setCan c (setTxb b (fun t => { t with busy := false })))

/-- Every transmission stops at bus-off: a one-shot frame under way fails, others stay pending. -/
def busOffStops (c : Nat) (s : State) : State :=
  forAll [0, 1, 2] (fun b t =>
    if !(txb (canOf t c) b).busy then t
    else if (canCfg t c).oneshot.getD b 0 = 1 then raiseCan Ev.CAN_TX_FAILED c b (t.setCan c (setTxb b nextHeld))
    else t.setCan c (setTxb b (fun y => { y with busy := false }))) s

/-- A bus error: ISO 11898-1 gives the counters after it. In part by log 51 (DEDUCED, unsafe). -/
def canError (c tec rec' : Nat) (s : State) : State :=
  let x := canOf s c
  match x.state with
  | .active | .passive | .recovery =>
    let s1 := s.setCan c (fun y => { y with tec := min 256 tec, rec' := min 255 rec', okRun := 0 })
    if 255 < tec then
      let n := satInc top16 x.busOffs
      let s2 := busOffStops c (s1.setCan c (fun y => { y with state := .busOff, busOffs := n }))
      settleCan c (raiseCan Ev.CAN_BUS_OFF c n s2)
    else settleCan c (errState c s1)
  | .test => s.setCan c (fun y => { y with tec := min 256 tec, rec' := min 255 rec' })
  | _ => s

/-- 128 occurrences of 11 recessive bits have been seen in BUS_OFF. -/
def busOffRecovery (c : Nat) (s : State) : State :=
  if (canOf s c).state == .busOff then
    settleCan c (s.setCan c (fun y => { y with state := .recovery, tec := 0, rec' := 0, okRun := 0 }))
  else s

/-- 128 error-free frames have been counted in RECOVERY. In part by log 51 (DEDUCED, unsafe). -/
def canRecovered (c : Nat) (s : State) : State :=
  if (canOf s c).state == .recovery && 128 ≤ (canOf s c).okRun then
    settleCan c (errState c (raiseCan Ev.CAN_RECOVERED c 0 (s.setCan c (fun y => { y with state := .active, okRun := 0 }))))
  else s

/-- 11 recessive bits have been seen after OFF. In part by log 51 (DEDUCED, unsafe). -/
def busIntegration (c : Nat) (s : State) : State :=
  if (canOf s c).state == .off && canFnOn s c && (canCfg s c).mode != 0 then
    settleCan c (s.setCan c (fun y => { y with state := .active }))
  else s

/-! ### Run-time settings (16 R495, R500) -/

/-- A write of CAN_TEST. -/
def canTestWrite (c : Nat) (v : W32) (r : Role) (s : State) : State :=
  if !roleAtLeast r .engineer || v.toNat % 4 = 3 then s
  else settleCan c (s.setCan c (fun y => { y with test := v.toNat % 4 }))

/-- A write of word 0 or 1 of a pair is staged. -/
def pairStage (c n k : Nat) (v : W32) (s : State) : State :=
  let e := pairOf s c n
  let cur := match (canOf s c).staged.look n with | some w => w | none => (e.w0, e.w1)
  let w := v &&& 0x1FFFFFFF#32
  s.setCan c (fun y => { y with staged := y.staged.put n (some (if k = 0 then (w, cur.2) else (cur.1, w))) })

/-- A write of word 2 loads the pair. -/
def pairLoad (c n : Nat) (v : W32) (r : Role) (s : State) : State :=
  if !roleAtLeast r .engineer then s
  else
    let e := pairOf s c n
    let cur := match (canOf s c).staged.look n with | some w => w | none => (e.w0, e.w1)
    raise Ev.CAN_FILTER_EDITED (0xC4 + c) (w32 n) (.role r)
      (s.setCan c (fun y =>
        { y with
          staged := y.staged.put n none
          pairs := y.pairs.put n (some { w0 := cur.1, w1 := cur.2, w2 := v &&& 7#32 }) }))

/-- CAN_WAKE as it stands. -/
def wakeWord (s : State) (c : Nat) : W32 :=
  match (canOf s c).wake with
  | some w => w
  | none => let g := canCfg s c; w32 (g.wake % 4 + 4 * b2n g.wufIde + 8 * (g.wufDlc % 16))

/-- CAN_WUF_ID, CAN_WUF_MASK, CAN_WUF_DATA0 and CAN_WUF_DATA1 as they stand. -/
def wufWord (s : State) (c k : Nat) : W32 :=
  let x := canOf s c
  let g := canCfg s c
  if k = 0 then (match x.wufId with | some w => w | none => w32 (g.wufId % 536870912))
  else if k = 1 then (match x.wufMask with | some w => w | none => w32 (g.wufMask % 536870912))
  else if k = 2 then (match x.wufData0 with | some w => w | none => g.wufData.extractLsb' 0 32)
  else match x.wufData1 with | some w => w | none => g.wufData.extractLsb' 32 32

/-- A write of block 0x06 but CAN_TEST: none for a value that is refused or an offset without an object. -/
def wakeWrite (c off : Nat) (v : W32) (s : State) : Option State :=
  if off = 4 then
    if v.toNat % 4 = 3 || 8 < v.toNat / 8 % 16 then none
    else some (s.setCan c (fun y => { y with wake := some (v &&& 0x7F#32) }))
  else if off = 8 then some (s.setCan c (fun y => { y with wufId := some (v &&& 0x1FFFFFFF#32) }))
  else if off = 0xC then some (s.setCan c (fun y => { y with wufMask := some (v &&& 0x1FFFFFFF#32) }))
  else if off = 0x10 then some (s.setCan c (fun y => { y with wufData0 := some v }))
  else if off = 0x14 then some (s.setCan c (fun y => { y with wufData1 := some v }))
  else none

/-! ### Sleep, wake, drain and reset (15 R479; 16 R497; 20 R591) -/

/-- The frame on the wire completes, and what is pending ends with CAN_TX_ABORTED. -/
def abortFrames (c : Nat) (s : State) : State :=
  forAll [0, 1, 2] (fun b t =>
    let y := txb (canOf t c) b
    let t1 := match y.frame with
      | some f =>
        if y.busy then
          t.setCan c (fun x =>
            setTxb b (fun z => { z with sent := (z.sent + 1) % 65536, stamp := z.sof }) { x with sentFrames := f :: x.sentFrames })
        else t
      | none => t
    let t2 := t1.setCan c (setTxb b (fun z => { z with frame := none, next := none, busy := false }))
    raiseIf ((y.frame.isSome && !y.busy) || y.next.isSome) Ev.CAN_TX_ABORTED (0xC4 + c) b t2) s

/-- The transceiver goes to sleep on entry to BIVOUAC. -/
def canSleep (c : Nat) (s : State) : State :=
  let s1 := abortFrames c s
  if (canCfg s c).mode = 0 then s1 else s1.setCan c (fun y => { y with state := .sleep })

/-- True when a frame is a wake frame of mode 2. -/
def wakeFrame (s : State) (c : Nat) (f : CanFrame) : Bool :=
  let w := wakeWord s c
  let id : BitVec 29 := BitVec.ofNat 29 f.id
  let mask := leBytes 4 (wufWord s c 2).toNat ++ leBytes 4 (wufWord s c 3).toNat
  !f.fdf && f.ide == w.getLsbD 2
    && ((id ^^^ (wufWord s c 0).extractLsb' 0 29) &&& (wufWord s c 1).extractLsb' 0 29) == 0
    && f.dlc == w.toNat / 8 % 16
    && (List.zip f.data mask).any (fun p => (p.1 &&& p.2) != 0)

/-- A function reset of a controller. -/
def resetCan (c : Nat) (s : State) : State :=
  let s1 := freeBlocksOf (canFn c) (abortFrames c s)
  let x := canOf s1 c
  filterNote c (s1.setCan c (fun _ =>
    { busOffs := x.busOffs, code := x.code, sentFrames := x.sentFrames, listSet := x.listSet }))

/-! ### The section (16 R487, R493) -/

/-- The refusal code of a controller's row, 0 when accepted. In part by log 51 (DEDUCED, unsafe). -/
def canCode (g : CanCfg) : Nat :=
  let nq := g.nbrp * (1 + g.ntseg1 + g.ntseg2)
  let dq := g.dbrp * (1 + g.dtseg1 + g.dtseg2)
  let inR := fun lo hi n : Nat => lo ≤ n && n ≤ hi
  let timing := inR 1 32 g.nbrp && inR 2 256 g.ntseg1 && inR 1 128 g.ntseg2 && inR 1 g.ntseg2 g.nsjw
    && inR 1 32 g.dbrp && inR 1 32 g.dtseg1 && inR 1 16 g.dtseg2 && inR 1 g.dtseg2 g.dsjw && g.tdcOfs ≤ 127
    && g.brs ≤ 1 && g.txOrder ≤ 1 && g.own.length == 3 && g.own.all (· ≤ 1) && g.oneshot.length == 3
    && g.oneshot.all (· ≤ 1) && g.qdepth.length == 2 && g.qdepth.all (inR 1 64)
    && inR 80 8000 nq && (g.mode == 2 || (dq ≤ nq && 16 ≤ dq))
  let elemOk := fun (e : CanElem) => e.w0.toNat < 536870912 && e.w1.toNat < 536870912
  let listOk := g.list.all (fun p => p.1 < 128 && elemOk p.2 && (!p.2.w2.getLsbD 0 || (p.2.w2.extractLsb' 4 2).toNat != 0))
  let pairsOk := g.pairs.all (fun p => p.1 < 32 && elemOk p.2)
  if 2 < g.mode then 1
  else if g.mode = 0 then 0
  else if !timing then 1
  else if 2 < g.wake || 8 < g.wufDlc then 2
  else if !(listOk && pairsOk) then 3
  else 0

/-- The image-level check: a BSL connection on a controller needs a buffer of Bedrock, and a mode that carries it. -/
def canImageOk (img : ImageCfg) : Bool :=
  img.bedrock.conns.all fun p =>
    p.2.dir == 0 || p.2.carrier == 0
      || ((img.can.look (p.2.carrier - 1)).mode != 2 && (img.can.look (p.2.carrier - 1)).own.contains 1)

/-! ### Object blocks (16 R498–R500) -/

/-- The code of a controller state. -/
def canStateCode : CanState → Nat
  | .off => 0 | .active => 1 | .passive => 2 | .busOff => 3 | .recovery => 4 | .test => 5 | .sleep => 6

/-- Blocks 0x02 to 0x06 of a controller. -/
def canObj (s : State) (c blk off : Nat) : Option Nat :=
  let x := canOf s c
  if blk = 2 then
    if off = 0 then
      some (canStateCode x.state + 8 * b2n x.listSet + 16 * (x.okRun % 128) + 65536 * min 255 x.tec + 16777216 * min 255 x.rec')
    else if off = 4 then some (x.q0.entries.length + 65536 * x.q1.entries.length)
    else if off = 8 then some x.rxDrop
    else if off = 0xC then some x.noMatch
    else if off = 0x10 then some (x.busOffs + 65536 * x.code)
    else if off = 0x14 then some (x.tdc % 128)
    else none
  else if blk = 3 then
    if 0x18 ≤ off then none
    else
      let b := off / 8
      let t := txb x b
      if off % 8 = 4 then some t.stamp.toNat
      else
        let st := if t.next.isSome then 3 else if t.busy then 2 else if t.frame.isSome then 1 else 0
        some (st + 4 * ((canCfg s c).own.getD b 0 % 2) + 256 * t.replaced + 65536 * t.sent)
  else if blk = 4 then
    if 0x200 ≤ off then none
    else
      let n := off / 16
      let e := pairOf s c n
      let w := match x.staged.look n with | some w => w | none => (e.w0, e.w1)
      some (if off % 16 = 0 then w.1.toNat else if off % 16 = 4 then w.2.toNat
        else if off % 16 = 8 then e.w2.toNat else 0)
  else if blk = 5 then
    if 0x800 ≤ off then none
    else
      let e := (canCfg s c).list.look (off / 16)
      some (if off % 16 = 0 then e.w0.toNat else if off % 16 = 4 then e.w1.toNat
        else if off % 16 = 8 then e.w2.toNat else 0)
  else if blk = 6 then
    if off = 0 then some x.test
    else if off = 4 then some (wakeWord s c).toNat
    else if 8 ≤ off && off ≤ 0x14 then some (wufWord s c (off / 4 - 2)).toNat
    else none
  else none

/-! ### Commands -/

/-- CAN_RX_FRAME. -/
def execCanRxFrame (c : Fin 4) (f : CanFrame) (s : State) : Host.Outcome State Fault Refusal :=
  .next (canReceive c.val f s)
/-- CAN_TX_REQUEST. -/
def execCanTxRequest (c : Fin 4) (b : Fin 3) (f : CanFrame) (s : State) : Host.Outcome State Fault Refusal :=
  .next (canRequest c.val b.val f s)
/-- CAN_TX_END. -/
def execCanTxEnd (c : Fin 4) (ok : Bool) (tdc : Option Nat) (s : State) : Host.Outcome State Fault Refusal :=
  .next (canTxEnd c.val ok tdc s)
/-- CAN_ERROR. -/
def execCanError (c : Fin 4) (tec rec' : Nat) (s : State) : Host.Outcome State Fault Refusal :=
  .next (canError c.val tec rec' s)
/-- BUS_OFF_RECOVERY. -/
def execBusOffRecovery (c : Fin 4) (s : State) : Host.Outcome State Fault Refusal := .next (busOffRecovery c.val s)
/-- CAN_RECOVERED. -/
def execCanRecovered (c : Fin 4) (s : State) : Host.Outcome State Fault Refusal := .next (canRecovered c.val s)
/-- CAN_TEST. -/
def execCanTest (c : Fin 4) (v : W32) (r : Role) (s : State) : Host.Outcome State Fault Refusal :=
  .next (canTestWrite c.val v r s)
/-- CAN_FILTER_EDITED. -/
def execCanFilterEdited (c : Fin 4) (pair : Fin 32) (v : W32) (r : Role) (s : State) :
    Host.Outcome State Fault Refusal := .next (pairLoad c.val pair.val v r s)
/-- BUS_INTEGRATION. -/
def execBusIntegration (c : Fin 4) (s : State) : Host.Outcome State Fault Refusal := .next (busIntegration c.val s)

end Sys2Proof.Machine
end

