-- ==== Sys2Proof/Machine/Bedrock.lean ====
section
/-! DEFINITION. Bedrock (chapter 13): voting groups, safety functions, safe stop 1, resets, the STO pairs and axis
lines, and the safety cycle. -/

namespace Sys2Proof.Machine

/-- The row of a safety function. -/
def sfRow (s : State) (f : Nat) : SfRow := s.img.bedrock.fns.look f
/-- A safety function. -/
def sfOf (s : State) (f : Nat) : SfSt := s.bedrock.fns.look f
/-- A safety function changed. -/
def State.setSf (s : State) (f : Nat) (g : SfSt → SfSt) : State := s.setBr (fun b => { b with fns := b.fns.upd f g })
/-- The row of a voting group. -/
def vgRow (s : State) (g : Nat) : VgRow := s.img.bedrock.groups.look g
/-- A voting group. -/
def vgOf (s : State) (g : Nat) : VgSt := s.bedrock.groups.look g
/-- A voting group changed. -/
def State.setVg (s : State) (g : Nat) (f : VgSt → VgSt) : State := s.setBr (fun b => { b with groups := b.groups.upd g f })
/-- An STO pair. -/
def stoOf (s : State) (k : Nat) : StoSt := s.bedrock.sto.look k
/-- An STO pair changed. -/
def State.setSto (s : State) (k : Nat) (f : StoSt → StoSt) : State := s.setBr (fun b => { b with sto := b.sto.upd k f })
/-- Raises an event of a safety function; `data` stands above the function number (13 R438). -/
def raiseSf (k : EvKind) (f data : Nat) (s : State) : State := raiseN k (0xF0 + f / 16) (f + 256 * data) s
/-- Raises an event of a group. -/
def raiseVg (k : EvKind) (g data : Nat) (s : State) : State := raiseN k (0xF4 + g / 64) (g + data) s
/-- The functions in use, ascending. -/
def sfUsed (s : State) : List Nat := (List.range 64).filter (fun f => (sfRow s f).ty != 0)
/-- The groups in use, ascending. -/
def vgUsed (s : State) : List Nat := (List.range 128).filter (fun g => (vgRow s g).kind != 0)
/-- Class GOOD, without GOOD-FORCED (13 R406). -/
def good2 (q : Byte) : Bool := qClass q == 2

/-! ### STO pairs and axis lines (13 R399, R401; 12 R385) -/

/-- True when a function names an STO pair. -/
def namesSto (s : State) (f k : Nat) : Bool := (sfRow s f).ty != 0 && bitOf k (sfRow s f).sto
/-- True when a function names an axis. -/
def namesAxis (s : State) (f a : Nat) : Bool := (sfRow s f).ty != 0 && bitOf a (sfRow s f).axes
/-- True when a stopping function brakes an axis: one that it names, or its speed source. -/
def brakesAxis (s : State) (f a : Nat) : Bool :=
  (sfOf s f).state == .stopping && (namesAxis s f a || (sfRow s f).ss1.src == a)

/-- A pair is on while the function that names it is NORMAL or STOPPING and no fault is latched. -/
def stoLine (k : Nat) (s : State) : State :=
  let permit := s.running .bedrock && s.pair.enabled && !(stoOf s k).latched
    && (sfUsed s).any (fun f => namesSto s f k && ((sfOf s f).state == .normal || (sfOf s f).state == .stopping))
  s.setSto k (fun x => { x with on := permit })

/-- The torque-off and SS1 brake lines of an axis. In part by log 44 (DEDUCED, unsafe). -/
def axisLine (a : Nat) (s : State) : State :=
  match (sfUsed s).find? (fun f => namesAxis s f a) with
  | none =>
    match (sfUsed s).find? (fun f => brakesAxis s f a) with
    | some f => ss1Brake a (sfRow s f).ss1.decel s
    | none => if (s.axis a).ss1Line then s.setAxis a (fun x => { x with ss1Line := false }) else s
  | some f =>
    if !s.running .bedrock || (sfOf s f).state == .tripped then
      let s1 := s.setAxis a (fun x => { x with torqueOff := true })
      torqueRemoved a ((sfRow s f).ty == 2) s1
    else
      let s1 := if (s.axis a).torqueOff then torqueRestored a (s.setAxis a (fun x => { x with torqueOff := false })) else s
      match (sfUsed s1).find? (fun h => brakesAxis s1 h a) with
      | some h => ss1Brake a (sfRow s1 h).ss1.decel s1
      | none => if (s1.axis a).ss1Line then s1.setAxis a (fun x => { x with ss1Line := false }) else s1

/-- Every line of the partition follows the states of the functions. In part by log 44 (DEDUCED, unsafe). -/
def brLines (s : State) : State := forRange 4 axisLine (forRange 4 stoLine s)

/-! ### Trips (13 R400, R418) -/

/-- A function enters TRIPPED with a cause; a function already TRIPPED keeps its first cause.
In part by log 44 (DEDUCED, unsafe). -/
def sfTrip (f cause : Nat) (s : State) : State :=
  match (sfOf s f).state with
  | .normal | .stopping =>
    raiseSf Ev.SF_TRIPPED f cause
      (s.setSf f (fun x => { x with state := .tripped, cause := cause, trips := satInc top16 x.trips }))
  | _ => s

/-- Every safety function trips. -/
def tripEvery (cause : Nat) (s : State) : State :=
  brLines (forAll (sfUsed s) (fun f t => sfTrip f cause t) (s.setBr (fun b => { b with tripCause := cause })))

/-- An engine-wide trip: SAFETY_ALL_TRIPPED is raised once. -/
def tripAll (cause : Nat) (s : State) : State := raiseN Ev.SAFETY_ALL_TRIPPED 0xF7 cause (tripEvery cause s)

/-- A fault of a function; one of Bedrock trips every safety function, with the cause of an engine fault
(01 R24). -/
def faultFn (f : Fn) (code : Nat) (s : State) : State :=
  let was := s.fnState f
  let s1 := fnFault f code s
  if f = .bedrock && (was == .run || was == .drain || was == .standby) then tripEvery 6 s1 else s1

/-! ### Channels (13 R406, R407, R411) -/

/-- What a channel reads. -/
def chanQv (s : State) : VgCh → Qv
  | .entry i => readEntry s i
  | .bsl c b =>
    let x := bslOf s c
    { val := w32 (b2n ((x.data.getD (b / 8) 0).getLsbD (b % 8))), q := if x.state = 2 then qGood else qBad 0 }

/-- A digital kind of group. -/
def vgDigital (k : Nat) : Bool := 1 ≤ k && k ≤ 4
/-- Channels that a kind uses. -/
def vgChans (k : Nat) : Nat := if k = 1 ∨ k = 5 then 1 else if k = 4 ∨ k = 7 then 3 else 2

/-- Channel `i` of a group changed. -/
def setVc (i : Nat) (f : VcSt → VcSt) (x : VgSt) : VgSt :=
  if i = 0 then { x with c0 := f x.c0 } else if i = 1 then { x with c1 := f x.c1 } else { x with c2 := f x.c2 }
/-- Channel `i` of a group. -/
def vcOf (x : VgSt) (i : Nat) : VcSt := if i = 0 then x.c0 else if i = 1 then x.c1 else x.c2

/-- The demand of a value with its hysteresis (R407). -/
def analogDemand (r : VgRow) (was : Bool) (v : F32) : Bool :=
  if r.low then (if was then !F32.le (F32.add r.limit r.db) v else F32.lt v r.limit)
  else (if was then !F32.le v (F32.sub r.limit r.db) else F32.lt r.limit v)

/-- The time after which a second-path entry that has not been written is stale, in ns (R411).
In part by log 60 (DEDUCED, unsafe). -/
def staleNs (s : State) (b c : Nat) : Nat :=
  3 * max 100 (if isExcited (s.ch b c).mode then frameLen (s.bank b).slotAct else 0) * 1000000

/-- The cross-check of channel `i` of group `g` against its second path. In part by log 44 (DEDUCED, unsafe). -/
def crossCheck (g i : Nat) (main : F32) (b c : Nat) (s : State) : State :=
  let r := vgRow s g
  let x := s.ch b c
  let v := vcOf (vgOf s g) i
  if x.secondN != v.seen then
    let apart := !F32.le (F32.abs (F32.sub main x.second.val)) r.xband
    let bad := if apart then min 2 (v.bad + 1) else 0
    let good := if apart then 0 else min 3 (v.good + 1)
    let fails := 2 ≤ bad && !v.xfail
    let heals := 3 ≤ good && v.xfail
    let s1 := s.setVg g (setVc i (fun y =>
      { y with seen := x.secondN, bad := bad, good := good, stale := false
               xfail := if fails then true else if heals then false else y.xfail }))
    let s2 := if fails then raiseVg Ev.XCHECK_FAIL g (256 * i) s1 else s1
    if heals then raiseVg Ev.XCHECK_OK g (256 * i) s2 else s2
  else if !v.stale && x.secondAt + staleNs s b c ≤ s.now then
    raiseVg Ev.XCHECK_FAIL g (256 * i + 4096)
      (s.setVg g (setVc i (fun y => { y with stale := true, xfail := true, bad := 0, good := 0 })))
  else s

/-- Cross-check and validity of channel `i` of group `g`. -/
def evalChan (g i : Nat) (s : State) : State :=
  let r := vgRow s g
  match r.chs[i]? with
  | none => s.setVg g (setVc i (fun y => { y with valid := false, demand := true }))
  | some ch =>
    let v := chanQv s ch
    if vgDigital r.kind then
      let valid := good2 v.q
      let d := (v.val != 0) == r.level
      s.setVg g (setVc i (fun y => { y with valid := valid, hyst := valid && d, demand := !valid || d }))
    else
      let s1 := match ch with
        | .entry e => (match (s.lay e).ref with | .aiMain b c => crossCheck g i v.val b c s | _ => s)
        | _ => s
      s1.setVg g (setVc i (fun y =>
        let valid := good2 v.q && !y.xfail
        let h := if valid then analogDemand r y.hyst v.val else y.hyst
        { y with valid := valid, hyst := h, demand := !valid || h }))

/-! ### Voting groups (13 R408–R410) -/

/-- The more demanding of two values. -/
def moreDemanding (r : VgRow) (a b : F32) : F32 := if r.low then F32.min a b else F32.max a b
/-- The middle of three values. -/
def median3 (a b c : F32) : F32 := F32.max (F32.min a b) (F32.min (F32.max a b) c)

/-- What a group's vote gives: its demand, whether only invalid channels demand, its value, the median's hysteresis. -/
structure Vote where
  demand : Bool
  byInvalid : Bool
  val : F32
  median : Bool

/-- The vote of a group from its channels and their values (R408). In part by log 44 (DEDUCED, unsafe). -/
def vote (r : VgRow) (x : VgSt) (vals : List F32) : Vote :=
  let n := vgChans r.kind
  let ds := (List.range n).map (fun i => (vcOf x i).demand)
  let live := (List.range n).filter (fun i => (vcOf x i).valid)
  let own := (List.range n).map (fun i => (vcOf x i).valid && (vcOf x i).hyst)
  let cnt := fun l : List Bool => (l.filter id).length
  let most := match live.map (fun i => vals.getD i 0#32) with
    | [] => x.val
    | a :: l => l.foldl (moreDemanding r) a
  let need := if r.kind = 3 ∨ r.kind = 4 then 2 else 1
  if r.kind = 7 then
    match live.length with
    | 3 =>
      let m := median3 (vals.getD 0 0#32) (vals.getD 1 0#32) (vals.getD 2 0#32)
      let d := analogDemand r x.median m
      ⟨d, false, m, d⟩
    | 2 => ⟨1 ≤ cnt own, false, most, x.median⟩
    | _ => ⟨true, true, x.val, x.median⟩
  else
    let d := need ≤ cnt ds
    let v := if r.kind = 5 then vals.getD 0 0#32 else if r.kind = 6 then most else 0#32
    ⟨d, d && !decide (need ≤ cnt own), v, x.median⟩

/-- True when the valid channels of a group differ (R409). -/
def apartNow (r : VgRow) (x : VgSt) (vals : List W32) : Bool :=
  let vs := ((List.range (vgChans r.kind)).filter (fun i => (vcOf x i).valid)).map (fun i => vals.getD i 0#32)
  match vs with
  | [] => false
  | a :: l =>
    if vgDigital r.kind then l.any (fun b => (b != 0) != (a != 0))
    else F32.lt r.band (F32.sub (l.foldl F32.max a) (l.foldl F32.min a))

/-- A group evaluated in one cycle of `t` ms: its vote, its discrepancy timers, its two entries.
In part by log 44 (DEDUCED, unsafe). -/
def evalGroup (g : Nat) (s : State) : State :=
  let r := vgRow s g
  let t := s.img.bedrock.cycle
  let vals := r.chs.map (fun c => (chanQv s c).val)
  let x := vgOf s g
  let v := vote r x vals
  let diff := apartNow r x vals
  let apart := if diff then (match x.apart with | some n => some (n + t) | none => some 0) else none
  let together := if diff then none else (match x.together with | some n => some (n + t) | none => some 0)
  let begins := !x.disc && (match apart with | some n => decide (r.discT ≤ n) | none => false)
  let disc := begins || (x.disc && !(match together with | some n => decide (r.discT ≤ n) | none => false))
  let d := v.demand || (disc && r.discAct == 1)
  let s1 := s.setVg g (fun y =>
    { y with demand := d, byInvalid := v.byInvalid && !(disc && r.discAct == 1), median := v.median, disc := disc
             apart := apart, together := together, val := v.val })
  if begins then raiseVg Ev.VOTE_DISCREPANCY g 0 s1 else s1

/-- The entries of a group as Bedrock writes them at t3 (R410). -/
def groupEntries (g : Nat) (s : State) : State :=
  let x := vgOf s g
  let q := if x.demand && x.byInvalid then qBad 12 else if x.disc then qUnc 12 else qGood
  let s1 := setRef (.vgDemand g) { val := w32 (b2n x.demand), q := q } s
  if vgDigital (vgRow s g).kind then s1 else setRef (.vgValue g) { val := x.val, q := q } s1

/-- The channels of a group have disagreed for VG_DISC_T. -/
def voteDiscrepancy (g : Nat) (s : State) : State :=
  let x := vgOf s g
  if !s.running .bedrock || (vgRow s g).kind == 0 || x.disc || x.apart.isNone then s
  else raiseVg Ev.VOTE_DISCREPANCY g 0 (s.setVg g (fun y => { y with disc := true, together := none }))

/-! ### Safe stop 1 (13 R412, R413) -/

/-- The speed sample of a function: |v|, whether the sample is BAD, and the own axis's validity and commanded speed. -/
structure Ss1Sample where
  v : F32
  bad : Bool
  valid : Bool
  speed : F32

/-- 25 fs/s. -/
def f25 : F32 := 0x41C80000#32

/-- The speed sample of this cycle. -/
def ss1Sample (s : State) (r : Ss1Cfg) : Ss1Sample :=
  if r.src < 4 then
    let x := s.axis r.src
    ⟨F32.abs x.emf, !s.live (axisFn r.src), x.estValid, F32.abs (axSpeed s r.src)⟩
  else
    match r.freq with
    | some i => let q := readEntry s i; ⟨F32.abs (F32.mul q.val r.scale), qIsBad q.q, true, 0#32⟩
    | none => ⟨0#32, true, true, 0#32⟩

/-- The envelope v_lim at `t` ms (R413). -/
def ss1Limit (r : Ss1Cfg) (v0 : F32) (t : Nat) : F32 :=
  if t ≤ r.delay then F32.add v0 r.vtol
  else
    let dt := F32.sub (F32.ofRat t 1000) (F32.ofRat r.delay 1000)
    F32.add (F32.max (F32.sub v0 (F32.mul r.amon dt)) 0#32) r.vtol

/-- SS1 monitoring of a stopping function: the stop ends at the first condition, in the order of R413. -/
def ss1Monitor (f : Nat) (s : State) : State :=
  if (sfOf s f).state != .stopping then s
  else
    let r := (sfRow s f).ss1
    let p := ss1Sample s r
    let own := decide (r.src < 4)
    let run := if !own && F32.le p.v r.vzero then (sfOf s f).zeroRun + 1 else 0
    let s1 := s.setSf f (fun x => { x with zeroRun := run })
    let x := sfOf s1 f
    let reason :=
      if p.bad || (own && !p.valid && F32.lt f25 p.speed) then 4
      else if F32.lt (ss1Limit r x.v0 x.t) p.v then 1
      else if (own && !p.valid) || (!own && r.nzero ≤ run) then 2
      else if r.tmax ≤ x.t then 3 else 0
    if reason = 0 then s1
    else
      let cause := if reason = 1 then 2 else if reason = 2 then 3 else if reason = 3 then 4 else 5
      raiseSf Ev.SS1_STO f reason
        (s1.setSf f (fun y => { y with state := .tripped, cause := cause, trips := satInc top16 y.trips }))

/-- Demand of a function: NORMAL goes to TRIPPED, or to STOPPING for type 2; a stop under way goes on in time. -/
def sfDemand (f : Nat) (s : State) : State :=
  let r := sfRow s f
  let d := r.conds.any (fun g => (vgOf s g).demand)
  let s1 := s.setSf f (fun x =>
    { x with demanded := d, t := if x.state == .stopping then x.t + s.img.bedrock.cycle else x.t })
  if (sfOf s1 f).state == .normal && d then
    if r.ty = 2 then
      let p := ss1Sample s1 r.ss1
      raiseN Ev.SS1_STARTED (0xF0 + f / 16) (f + 256 * (p.v.toNat / 256))
        (s1.setSf f (fun x => { x with state := .stopping, v0 := p.v, t := 0, zeroRun := 0 }))
    else sfTrip f 1 s1
  else s1

/-! ### Reset (13 R414–R417) -/

/-- A reset attempt: none, valid, or an input pulse too short. -/
inductive ResetTry where
  | none | valid | short
deriving DecidableEq

/-- A reset input over one cycle: the pulse that ends, and the jam (R415, R417). -/
def inputReset (f i : Nat) (s : State) : State × ResetTry :=
  let t := s.img.bedrock.cycle
  let v := readEntry s i
  let one := good2 v.q && v.val != 0
  let x := sfOf s f
  if one then
    let n := x.n + 1
    let jams := decide (3000 < n * t) && !x.jammed
    let s1 := s.setSf f (fun y => { y with n := n, zeros := 0, jammed := y.jammed || jams })
    (if jams then raiseSf Ev.RESET_JAMMED f 0 s1 else s1, .none)
  else
    let zeros := if x.jammed then x.zeros + 1 else 0
    let s1 := s.setSf f (fun y => { y with n := 0, zeros := zeros, jammed := y.jammed && !decide (1000 ≤ zeros * t) })
    if x.n = 0 || 3000 < x.n * t then (s1, .none)
    else if x.n * t < 100 then (s1, .short)
    else (s1, .valid)

/-- The reset bit of one accepted frame: reference, change, and the attempt it makes (R415). -/
def bitReset (bit : Nat) (acc : SfSt × ResetTry) (d : BslData) : SfSt × ResetTry :=
  let b := (d.data.getD (bit / 8) 0).getLsbD (bit % 8)
  let x := acc.1
  match (if d.first then none else x.bit) with
  | none => ({ x with bit := some b }, acc.2)
  | some p =>
    if b == p then acc
    else
      let ok := match x.bitAt with | some t => decide (t + 100 ≤ d.time) | none => true
      ({ x with bit := some b, bitAt := some d.time }, if ok then .valid else acc.2)

/-- The reset source of a function over one cycle. In part by log 44 (DEDUCED, unsafe). -/
def resetTry (f : Nat) (s : State) : State × ResetTry :=
  let r := sfRow s f
  if r.resetBsl then
    match r.resetConn with
    | none => (s, .none)
    | some c =>
      let p := (bslOf s c).fresh.foldl (bitReset r.resetBit) (sfOf s f, .none)
      (s.setSf f (fun _ => p.1), p.2)
  else
    match r.resetEntry with
    | none => (s, .none)
    | some i => inputReset f i s

/-- The first reset condition that is not met, 0 when all are (R416). -/
def resetReason (s : State) (f : Nat) : Nat :=
  let x := sfOf s f
  if x.demanded then 1
  else if !s.safetyCommissioned then 2
  else if x.jammed then 3
  else if (List.range 4).any (fun k => namesSto s f k && ((stoOf s k).rb1 || (stoOf s k).rb2)) then 4
  else 0

/-- A reset is refused. -/
def resetRefused (f reason : Nat) (s : State) : State :=
  raiseSf Ev.SF_RESET_REFUSED f reason (s.setSf f (fun x => { x with refusal := reason }))

/-- The reset step of a function. In part by log 44 (DEDUCED, unsafe). -/
def sfReset (f : Nat) (s : State) : State :=
  let p := resetTry f s
  if (sfOf p.1 f).state != .tripped then p.1
  else
    match p.2 with
    | .none => p.1
    | .short => resetRefused f 5 p.1
    | .valid =>
      let n := resetReason p.1 f
      if n != 0 then resetRefused f n p.1
      else
        let s1 := forRange 4 (fun k t => if namesSto t f k then t.setSto k (fun y => { y with latched := false }) else t) p.1
        raiseSf Ev.SF_RESET f (b2n (sfRow s f).resetBsl) (s1.setSf f (fun x => { x with state := .normal, cause := 0 }))

/-- One safety function: demand and trip, SS1 monitoring, reset (R397 step 5). In part by log 44 (DEDUCED, unsafe). -/
def evalSf (f : Nat) (s : State) : State := sfReset f (ss1Monitor f (sfDemand f s))

/-! ### Outputs and frames at t3 (13 R399, R427–R429) -/

/-- The output entries of a function with the value of its state. -/
def sfOuts (s : State) (f : Nat) : List (Nat × Bool) :=
  let r := sfRow s f
  let st := (sfOf s f).state
  let stop := match r.ss1.stopOut with | some i => if r.ty = 2 then [i] else [] | none => []
  (r.outs ++ stop).map (fun i =>
    let normal := st == .normal || (st == .stopping && !stop.contains i)
    (i, normal != r.ett))

/-- A function writes each of its outputs. -/
def sfWrite (t0 f : Nat) (s : State) : State :=
  let q := if (sfOf s f).state == .tripped && !s.safetyCommissioned then qBad 10 else qGood
  forAll (sfOuts s f) (fun p t => writeOut (.safety f) t0 p.1 { val := w32 (b2n p.2), q := q } t)
    (instanceDone (.safety f) t0 s)

/-- The toggle bit of a producer's button over one cycle: it changes at each valid reset pulse (R415, R429). -/
def stepToggle (c i : Nat) (s : State) : State :=
  let t := s.img.bedrock.cycle
  let v := readEntry s i
  let one := good2 v.q && v.val != 0
  let n := (bslOf s c).runs.look i
  let pulse := !one && 100 ≤ n * t && n * t ≤ 3000
  s.setBsl c (fun x =>
    { x with
      runs := x.runs.put i (if one then n + 1 else 0)
      toggles := if pulse then x.toggles.put i (!x.toggles.look i) else x.toggles })

/-- The input entries whose pulses a producer follows. -/
def toggleInputs (r : BslRow) : List Nat :=
  (r.map.filterMap (fun t => match t with | .toggle i => some i | _ => none)).eraseDups

/-- The value of one item of BSL_TX_MAP. In part by log 46 (DEDUCED, unsafe). -/
def txBit (s : State) (c : Nat) : TxItem → Bool
  | .zero => false
  | .normal f => (sfOf s f).state == .normal
  | .healthy g => !(vgOf s g).demand
  | .one => true
  | .toggle i => (bslOf s c).toggles.look i

/-- Bytes from bits, eight at a time; `n` bytes are made. -/
def bytesOfBits : Nat → List Bool → List Byte
  | 0, _ => []
  | n + 1, l =>
    BitVec.ofNat 8 ((List.range 8).map (fun i => b2n (l.getD i false) * 2 ^ i)).sum :: bytesOfBits n (l.drop 8)

/-- The frame that a producer sends now, with its sequence number (R427, R428).
In part by log 46 (DEDUCED, unsafe). -/
def bslFrame (s : State) (c seq : Nat) : List Byte :=
  let r := bslRow s c
  let safe := !s.running .bedrock || !s.safetyCommissioned
  let data := if safe then List.replicate r.len 0#8 else bytesOfBits r.len (r.map.map (txBit s c))
  let head := leBytes 2 seq ++ leBytes 4 (s.now / 1000) ++ leBytes 1 r.len
    ++ leBytes 1 (b2n safe + 2 * b2n (!(bslOf s c).started)) ++ data
  head ++ leBytes 4 (bslCrc r.connId head).toNat

/-- The first transmit buffer of a controller that Bedrock owns. In part by log 51 (DEDUCED, unsafe). -/
def bedrockBuffer (s : State) (c : Nat) : Option Nat := [0, 1, 2].find? (fun b => (canCfg s c).own.getD b 0 == 1)

/-- One cycle of a producer connection. -/
def bslProduce (c : Nat) (s0 : State) : State :=
  let r := bslRow s0 c
  if r.dir != 2 then s0
  else
    let s := forAll (toggleInputs r) (stepToggle c) s0
    let x := bslOf s c
    if x.started && x.wait + 1 < r.period then s.setBsl c (fun y => { y with wait := y.wait + 1 })
    else
      let seq := if x.started then (x.seq + 1) % 65536 else x.seq
      let bytes := bslFrame s c seq
      let s1 := s.setBsl c (fun y => { y with wait := 0, started := true, seq := seq, ok := wrap32 (y.ok + 1) })
      if r.carrier = 0 then send (.bsl c bytes) s1
      else
        match bedrockBuffer s1 (r.carrier - 1) with
        | none => s1
        | some b =>
          canRequest (r.carrier - 1) b
            { id := r.canId, ide := r.canIde, fdf := true, brs := true, dlc := 15
              data := bytes ++ List.replicate (64 - bytes.length) 0#8 } s1

/-! ### The safety cycle (13 R396, R397) -/

/-- The asynchronous entries that a cycle samples. -/
def brReads (s : State) : List Nat :=
  (vgUsed s).flatMap (fun g => (vgRow s g).chs.filterMap (fun c => match c with | .entry i => some i | _ => none))
    ++ (sfUsed s).flatMap (fun f => (sfRow s f).resetEntry.toList ++ (sfRow s f).ss1.freq.toList)

/-- Uncommissioned safety trips every function for as long as it lasts; it is announced once (13 R418; 02 R41).
In part by log 45 (DEDUCED, unsafe). -/
def uncommissionedTrip (s : State) : State :=
  if s.safetyCommissioned then (if s.bedrock.uncom then s.setBr (fun b => { b with uncom := false }) else s)
  else
    let s1 := forAll (sfUsed s) (fun f t => sfTrip f 9 t) s
    if s1.bedrock.uncom then s1
    else raiseN Ev.SAFETY_ALL_TRIPPED 0xF7 9 (s1.setBr (fun b => { b with uncom := true, tripCause := 9 }))

/-- The readback of the STO channels in this cycle: bit 2k is `STO k.1`, bit 2k + 1 is `STO k.2`. -/
def takeReadback (rb : BitVec 8) (s : State) : State :=
  forRange 4 (fun k t => t.setSto k (fun x => { x with rb1 := rb.getLsbD (2 * k), rb2 := rb.getLsbD (2 * k + 1) })) s

/-- One safety cycle to its t3, `us` µs after its t0. In part by log 44 (DEDUCED, unsafe). -/
def safetyCycle (us : Nat) (rb : BitVec 8) (s : State) : State :=
  match s.fnState .bedrock with
  | .fault => forRange 16 bslProduce s
  | .run =>
    let u := s.bedrock.unit
    let s0 := unitEqual .bedrock 0 (if u.active then u else { u with samples := sampleAsync s (brReads s) }) s
    let s1 := takeReadback rb s0
    let s2 := forAll (vgUsed s1) (fun g t => forRange (vgChans (vgRow t g).kind) (evalChan g) t) s1
    let s3 := forAll (vgUsed s2) evalGroup s2
    let s4 := uncommissionedTrip s3
    let s5 := forAll (sfUsed s4) evalSf s4
    let s6 := forAll (vgUsed s5) groupEntries s5
    let s7 := brLines (forAll (sfUsed s6) (sfWrite s.now) s6)
    let s8 := forRange 16 bslProduce s7
    s8.setBr (fun b =>
      { b with
        unit := {}
        conns := (b.conns.map (fun p => (p.1, { p.2 with fresh := [] }))).filter (fun p => p.2 != default)
        cycles := wrap32 (b.cycles + 1)
        cycleUs := min us top16
        cycleMax := max b.cycleMax (min us top16) })
  | _ => s

/-- A cycle has not reached t3 by the next t0: it is discarded and every function trips. -/
def cycleOverrun (us : Nat) (s : State) : State :=
  if !s.running .bedrock then s
  else
    raiseN Ev.BR_CYCLE_OVERRUN 0xF7 us (tripAll 7 (s.setBr (fun b => { b with unit := {} })))

/-! ### STO channel faults (13 R402–R404) -/

/-- A channel fault of a pair: both channels off, the latch, and the trip of the functions that name it. -/
def stoFault (k : Nat) (ch2 : Bool) (s : State) : State :=
  if !s.running .bedrock || (stoOf s k).latched then s
  else
    let s1 := raiseBsl Ev.STO_CHANNEL_FAULT k (4 * b2n ch2)
      (s.setSto k (fun x => { x with on := false, latched := true, faulty2 := ch2 }))
    brLines (forAll (sfUsed s1) (fun f t => if namesSto t f k then sfTrip f 10 t else t) s1)

/-- The test pulse of a channel while its pair is on; a pulse that is not seen is a fault. -/
def stoPulse (k : Nat) (ch2 ok : Bool) (s : State) : State :=
  if (stoOf s k).on && bitOf k s.img.bedrock.stoTest && !ok then stoFault k ch2 s else s

/-! ### Start and reset (13 R419, R425, R431) -/

/-- Every function starts TRIPPED with a cause; consumers start in FAILSAFE and producers send a first frame. -/
def startBedrock (cause : Nat) (s : State) : State :=
  let s1 := forAll (sfUsed s) (fun f t =>
    t.setSf f (fun x => { state := .tripped, cause := cause, trips := x.trips, refusal := x.refusal })) s
  let s2 := forRange 16 (fun c t =>
    if (bslRow t c).dir == 0 then t
    else t.setBsl c (fun x =>
      { x with state := if (bslRow t c).dir == 1 then 1 else 0, started := false, passed := 0, wait := 0
               data := List.replicate (if (bslRow t c).dir == 1 then (bslRow t c).len else 0) 0#8, fresh := [] })) s1
  brLines (s2.setBr (fun b => { b with tripCause := cause, uncom := false, unit := {} }))

/-- A function reset of 0x03: every function trips at once, and the counters since PITCH are cleared. -/
def resetBedrock (s : State) : State :=
  let s1 := tripEvery 8 s
  let b := s1.bedrock
  startBedrock 8 { s1 with bedrock :=
    { check := b.check, comm := b.comm, partner := b.partner, restoreAge := b.restoreAge, restored := b.restored,
      refusedAge := b.refusedAge, refusedValue := b.refusedValue,
      sto := (b.sto.map (fun p => (p.1, { p.2 with on := false }))).filter (fun p => p.2 != default) } }

/-! ### The section (13 R394, R420, R433) -/

/-- The row of what an entry stands for: section type and row number. In part by log 7 (DESIGN CHOICE, safe). -/
def rowKey : Ref → Option (Nat × Nat)
  | .aiMain b c | .aiSecond b c | .aoOut b c | .aoRead b c => some (7, 16 * b + c)
  | .diState g p | .diCount g p | .diFreq g p | .diPreset g p | .doOut g p | .doRead g p => some (8, 8 * g + p)
  | .axisOut a _ | .axisIn a _ => some (9, a)
  | _ => none

/-- The bytes of a section of an image. -/
def sectionBytes (secs : List Section) (ty : Nat) : List Byte :=
  match secs.find? (fun x => x.ty == ty) with | some x => x.bytes | none => []

/-- The process-image entries that the check value covers, ascending and without repeats (R420). -/
def checkEntries (img : ImageCfg) : List Nat :=
  let br := img.bedrock
  let used := (br.fns.filter (fun p => p.2.ty != 0)).map (·.2)
  let chans := (br.groups.filter (fun p => p.2.kind != 0)).flatMap (fun p =>
    p.2.chs.filterMap (fun c => match c with | .entry i => some i | _ => none))
  let seconds := chans.flatMap (fun i =>
    match (img.layout.look i).ref with
    | .aiMain b c => (img.layout.filter (fun p => p.2.ref == .aiSecond b c)).map (·.1)
    | _ => [])
  let speeds := used.flatMap (fun r => if r.ty = 2 && r.ss1.src = 4 then r.ss1.freq.toList else [])
  let resets := used.flatMap (fun r => if r.resetBsl then [] else r.resetEntry.toList)
  let outs := used.flatMap (fun r => r.outs ++ (if r.ty = 2 then r.ss1.stopOut.toList else []))
  let all := chans ++ seconds ++ resets ++ speeds ++ outs
  (img.layout.map (·.1)).filter (fun i => all.contains i)

/-- The axes that the check value covers. -/
def checkAxes (img : ImageCfg) : List Nat :=
  (List.range 4).filter (fun a =>
    img.bedrock.fns.any (fun p => p.2.ty != 0 && (bitOf a p.2.axes || (p.2.ty == 2 && p.2.ss1.src == a))))

/-- The safety check value of an image (R420). In part by log 45 (DEDUCED, unsafe). -/
def checkValue (img : ImageCfg) (secs : List Section) : W32 :=
  let rec' := fun k : Nat × Nat => Config.rowOf k.1 k.2 (sectionBytes secs k.1)
  crc32c (sectionBytes secs 6
    ++ (checkEntries img).flatMap (fun i => match rowKey (img.layout.look i).ref with | some k => rec' k | none => [])
    ++ (checkAxes img).flatMap (fun a => rec' (9, a)))

/-- The outputs of the safety functions. -/
def sfOutputs (img : ImageCfg) : List Nat :=
  (img.bedrock.fns.filter (fun p => p.2.ty != 0)).flatMap (fun p =>
    p.2.outs ++ (if p.2.ty = 2 then p.2.ss1.stopOut.toList else []))

/-- The image-level checks of R394: the value against IMG_SAFETY, the cycle's time, and the writers of its outputs.
In part by log 45 (DEDUCED, unsafe). -/
def bedrockImageOk (img : ImageCfg) (secs : List Section) (safety : W32) : Bool :=
  let br := img.bedrock
  checkValue img secs == safety
    && br.plainUs * 412 + 12500 ≤ br.cycle * 100000
    && (sfOutputs img).all (fun i => match (img.layout.look i).writer with | .task _ => false | .loop _ => false | .alarm => false | _ => true)

/-- A digital input row's state entry. -/
def isDiState (img : ImageCfg) (i : Nat) : Bool :=
  match (img.layout.look i).ref with | .diState g p => !((img.points.look (8 * g + p)).mode == 8) | _ => false

/-- The refusal code of a group row. In part by log 44 (DEDUCED, unsafe). -/
def vgCode (img : ImageCfg) (r : VgRow) : Nat :=
  let n := vgChans r.kind
  let chOk := fun c : VgCh =>
    match c with
    | .entry i =>
      if vgDigital r.kind then isDiState img i
      else (match (img.layout.look i).ref with
        | .aiMain b c => ((img.banks.look b).rows.look c).safety == 1
        | _ => false)
    | .bsl c b => vgDigital r.kind && c < 16 && (img.bedrock.conns.look c).dir == 1 && b < 8 * (img.bedrock.conns.look c).len
  if 7 < r.kind || r.chs.length < n || !(r.chs.take n).all chOk then 0x04
  else if !vgDigital r.kind
      && !(F32.isFin r.limit && F32.isFin r.db && F32.le 0#32 r.db && F32.isFin r.band && F32.lt 0#32 r.band
        && F32.isFin r.xband && F32.lt 0#32 r.xband) then 0x05
  else if r.discT < 10 || 10000 < r.discT || r.discT % 10 != 0 || 1 < r.discAct then 0x05
  else 0

/-- The refusal code of an SS1 function's fields. -/
def ss1Code (img : ImageCfg) (r : Ss1Cfg) : Nat :=
  let srcOk :=
    if r.src < 4 then (img.axes.look r.src).mode != 0
    else r.src == 4 && (match r.freq with | some i => (match (img.layout.look i).ref with | .diFreq _ _ => true | _ => false) | none => false)
  let pos := fun x : F32 => F32.isFin x && F32.lt 0#32 x
  let nonneg := fun x : F32 => F32.isFin x && F32.le 0#32 x
  if !srcOk then 0x08
  else if !(pos r.amon && nonneg r.vtol && r.delay ≤ 1000 && 10 ≤ r.tmax && r.tmax ≤ 60000 && r.delay < r.tmax)
      || (r.src == 4 && !(pos r.scale && nonneg r.vzero && 1 ≤ r.nzero && r.nzero ≤ 16))
      || (r.src < 4 && !(1 ≤ r.decel && r.decel ≤ 256000000
          && F64.le (F64.mul (F64.ofF32 r.amon) (F64.ofInt 256)) (F64.ofInt r.decel))) then 0x09
  else 0

/-- The refusal code of a function row. -/
def sfCode (img : ImageCfg) (f : Nat) (r : SfRow) : Nat :=
  let shares := img.bedrock.fns.any (fun p =>
    p.1 != f && p.2.ty != 0 && (Nat.land p.2.sto r.sto != 0 || Nat.land p.2.axes r.axes != 0))
  let outOk := fun i =>
    match (img.layout.look i).ref with
    | .doOut g p => (img.points.look (8 * g + p)).mode == 8 && (img.points.look (8 * g + p)).safe == b2n r.ett
    | _ => false
  let resetOk :=
    if r.resetBsl then
      (match r.resetConn with
        | some c => c < 16 && (img.bedrock.conns.look c).dir == 1 && r.resetBit < 8 * (img.bedrock.conns.look c).len
        | none => false)
    else (match r.resetEntry with | some i => isDiState img i | none => false)
  if 3 < r.ty || (r.ett && 2 ≤ r.ty) then 0x03
  else if !r.outs.all outOk || !(match r.ss1.stopOut with | some i => r.ty != 2 || outOk i | none => true) then 0x06
  else if shares then 0x07
  else if r.ty == 2 && ss1Code img r.ss1 != 0 then ss1Code img r.ss1
  else if !resetOk then 0x0A
  else if r.conds.any (fun g => 128 ≤ g || (img.bedrock.groups.look g).kind == 0) then 0x0C
  else 0

/-- The refusal code of a connection row. -/
def bslCode (img : ImageCfg) (c : Nat) (r : BslRow) : Nat :=
  let dup := img.bedrock.conns.any (fun p => p.1 != c && p.2.dir == r.dir && p.2.connId == r.connId)
  if r.dir ≤ 2 && r.carrier ≤ 4 && 1 ≤ r.connId && r.connId ≤ top32 && 1 ≤ r.len && r.len ≤ 48
      && 1 ≤ r.period && r.period ≤ 100 && 10 ≤ r.wd && r.wd ≤ 10000 && r.map.length ≤ 8 * r.len && !dup
      && r.canId < (if r.canIde then 536870912 else 2048) then 0 else 0x0B

/-- The first row that breaks a rule: code, row kind and row index; none when the section is accepted (R433). -/
def bedrockRefusal (img : ImageCfg) : Option (Nat × Nat × Nat) :=
  let br := img.bedrock
  let first := fun {α : Type} (kind : Nat) (l : Tab α) (code : Nat → α → Nat) =>
    l.findSome? (fun p => if code p.1 p.2 != 0 then some (code p.1 p.2, kind, p.1) else none)
  if br.cycle < 1 || 20 < br.cycle || br.plainUs < 1 || 20000 < br.plainUs then some (0x01, 0, 0)
  else if br.restoreLim < 100 || 1000 < br.restoreLim || br.restoreLim % 10 != 0 then some (0x02, 0, 0)
  else
    match first 1 br.fns (fun f r => if r.ty = 0 then 0 else sfCode img f r) with
    | some x => some x
    | none =>
      match first 2 br.groups (fun _ r => if r.kind = 0 then 0 else vgCode img r) with
      | some x => some x
      | none => first 3 br.conns (fun c r => if r.dir = 0 then 0 else bslCode img c r)

/-! ### Object blocks (13 R434–R437) -/

/-- The code of a function's state. -/
def sfCodeOf : SfState → Nat
  | .unused => 0 | .normal => 1 | .stopping => 2 | .tripped => 3

/-- Blocks 0x02 to 0x06 of function 0x03. -/
def sfObj (s : State) (blk off : Nat) : Option Nat :=
  let b := s.bedrock
  if blk = 2 then
    if off = 0 then
      some (b2n s.safetyCommissioned + 16 * (b.tripCause % 16) + 256 * (sfUsed s).length
        + 65536 * ((sfUsed s).filter (fun f => (sfOf s f).state == .tripped)).length)
    else if off = 4 then some (b.cycleUs + 65536 * b.cycleMax)
    else if off = 8 then some b.check.toNat
    else if off = 0xC then some (b.comm % 256 + 256 * s.otpUsed 3 0 + 65536 * (b.partner % 256))
    else if off = 0x10 then some b.cycles
    else if off = 0x14 then
      some (min top16 b.restoreAge + 65536 * b2n b.restored + 131072 * b2n b.refusedAge + 262144 * b2n b.refusedValue)
    else if off = 0x18 then some (b.refuseCode + 256 * b.refuseKind + 65536 * b.refuseRow)
    else none
  else if blk = 3 then
    if 0x200 ≤ off then none
    else
      let f := off / 8
      let r := sfRow s f
      let x := sfOf s f
      if r.ty = 0 then some 0
      else if off % 8 = 4 then some (x.trips + 65536 * min top16 (x.t / 10))
      else
        some (sfCodeOf x.state + 4 * (r.ty % 4) + 16 * b2n r.ett + 32 * b2n x.demanded + 64 * b2n x.jammed
          + 128 * b2n (0 < x.n) + 256 * (x.cause % 16) + 4096 * (x.refusal % 16))
  else if blk = 4 then
    if 0x400 ≤ off then none
    else
      let g := off / 8
      let x := vgOf s g
      if off % 8 = 4 then some x.val.toNat
      else
        let bits := fun (p : VcSt → Bool) => b2n (p x.c0) + 2 * b2n (p x.c1) + 4 * b2n (p x.c2)
        some (b2n x.demand + 2 * bits (·.valid) + 16 * bits (·.demand) + 128 * b2n x.disc + 256 * bits (·.xfail))
  else if blk = 5 then
    if 0x100 ≤ off then none
    else
      let c := off / 16
      let x := bslOf s c
      let k := off % 16
      some (if k = 0 then x.state + 4 * b2n ((bslRow s c).dir == 2) + 65536 * x.seq
        else if k = 4 then x.ok
        else if k = 8 then x.rejCheck + 65536 * x.rejOrder
        else x.lost + 65536 * x.gapMs)
  else if blk = 6 then
    if 0x10 ≤ off then none
    else
      let k := off / 4
      let x := stoOf s k
      some (3 * b2n x.on + 4 * b2n x.rb1 + 8 * b2n x.rb2 + 16 * b2n x.latched + 32 * b2n x.faulty2
        + 64 * b2n (bitOf k s.img.bedrock.stoTest))
  else none

/-! ### Commands -/

/-- SAFETY_CYCLE. -/
def execSafetyCycle (us : Nat) (readback : BitVec 8) (s : State) : Host.Outcome State Fault Refusal :=
  .next (safetyCycle us readback s)
/-- BR_CYCLE_OVERRUN. -/
def execBrCycleOverrun (us : Nat) (s : State) : Host.Outcome State Fault Refusal := .next (cycleOverrun us s)
/-- VOTE_DISCREPANCY. -/
def execVoteDiscrepancy (g : Fin 128) (s : State) : Host.Outcome State Fault Refusal := .next (voteDiscrepancy g.val s)
/-- STO_TEST_PULSE. -/
def execStoTestPulse (k : Fin 4) (ch : Fin 2) (ok : Bool) (s : State) : Host.Outcome State Fault Refusal :=
  .next (stoPulse k.val (ch.val == 1) ok s)
/-- STO_CHANNEL_FAULT. -/
def execStoChannelFault (k : Fin 4) (ch : Fin 2) (s : State) : Host.Outcome State Fault Refusal :=
  .next (stoFault k.val (ch.val == 1) s)
/-- FABRIC_PARITY: the requester's function enters FAULT (14 R441). -/
def execFabricParity (f : Fn) (tag : Nat) (s : State) : Host.Outcome State Fault Refusal :=
  .next (faultFn f 0xC05 (fabricParity f tag s))

end Sys2Proof.Machine
end

