-- ==== Sys2Proof/Machine/Msg.lean ====
section
/-! DEFINITION. The MMP message frame and the checks of a received message (15 R464–R472), and the reply (15 R473). -/

namespace Sys2Proof.Machine

/-! ### The frame (15 R464) -/

/-- TYPE of a message. -/
def msgType (m : Msg) : Nat := leAt m.bytes 3 1
/-- FLAGS of a message. -/
def msgFlags (m : Msg) : Nat := leAt m.bytes 4 2
/-- The role of the key that signs a message, FLAGS[3:2]. -/
def msgRole (m : Msg) : Role :=
  match bitsOf 3 2 (msgFlags m) with | 0 => .observe | 1 => .operate | 2 => .engineer | _ => .commission
/-- The payload of a message. -/
def msgPayload (m : Msg) : List Byte := (m.bytes.drop 24).take (leAt m.bytes 6 2)
/-- The bytes that the tag covers. -/
def msgSigned (m : Msg) : List Byte := m.bytes.take (24 + leAt m.bytes 6 2)
/-- The tag of a message. -/
def msgTag (m : Msg) : List Byte := m.bytes.drop (24 + leAt m.bytes 6 2)
/-- Check 1: MAGIC, VERSION and LENGTH. -/
def msgFormed (m : Msg) : Bool :=
  40 ≤ m.bytes.length && leAt m.bytes 0 2 == 0x4D4D && leAt m.bytes 2 1 == 1
    && leAt m.bytes 6 2 == m.bytes.length - 40
/-- The request that a message carries. -/
def msgReq (m : Msg) : Req :=
  { port := m.port, type := msgType m, role := msgRole m, sender := leAt m.bytes 8 4, epoch := leAt m.bytes 16 4,
    seq := leAt m.bytes 20 4, tag := msgTag m, unsigned := bitOf 1 (msgFlags m), payload := msgPayload m }

/-- The code of a role in FLAGS and in payloads (15 R464). -/
def roleNo : Role → Nat
  | .observe => 0 | .operate => 1 | .engineer => 2 | .commission => 3

/-- The role with a code. -/
def roleOf (n : Nat) : Role := match n with | 0 => .observe | 1 => .operate | 2 => .engineer | _ => .commission

/-! ### Keys and epoch (15 R468–R470) -/

/-- This station's identity, OTP item 0x01 (02 R62; 15 R466). -/
def State.station (s : State) : Nat := (s.otpWord 1 0 0).toNat

/-- The bytes of a role's key: the last slot of OTP item 0x04 whose read-back passed and whose first word names the
role; a key of zeros is no key (15 R468). -/
def State.roleKey (s : State) (r : Role) : Option (List Byte) :=
  let mine := (s.otp.items.look (otpKey 4 0)).filter (fun o => o.passed && (o.bytes.getD 0 0).toNat == roleNo r)
  match mine.getLast? with
  | none => none
  | some o =>
    let k := (o.bytes.drop 1).flatMap (fun w => leBytes 4 w.toNat)
    if k.all (· == 0#8) then none else some k

/-- MMP_EPOCH (15 R470). -/
def State.epoch (s : State) : Nat := 65536 * (s.mod.powerCycles % 65536) + s.mmp.starts % 65536

/-- True for the first COMMISSION key: ROLE_KEY for role 3, unsigned, while no COMMISSION key exists and the
local-control key switch is on (15 R469). -/
def firstKey (s : State) (q : Req) : Bool :=
  q.type == 0x0D && q.role == .commission && q.unsigned && leAt q.payload 0 1 == 3 && s.panel.keyOn

/-- True for a READ of function 0x00 blocks 0x00 and 0x02 alone, unsigned (15 R469). -/
def firstRead (q : Req) (addrs : List W32) : Bool :=
  q.type == 0x01 && q.unsigned && addrs.all (fun a => a.toNat / 65536 == 0 || a.toNat / 65536 == 2)

/-- Check 3: a key exists for the role and the tag matches, or the message is one of the two that R469 takes while
no COMMISSION key exists. In part by log 49 (DEDUCED, unsafe). -/
def authentic (s : State) (m : Msg) (addrs : List W32) : Bool :=
  let q := msgReq m
  match s.roleKey .commission with
  | none => firstKey s q || firstRead q addrs
  | some _ =>
    match s.roleKey q.role with
    | none => false
    | some k => msgTag m == (hmacSha256 k (msgSigned m)).take 16

/-! ### Replies (15 R473) -/

/-- The pair of a sender and role in the sequence table. -/
def isPair (q : Req) (p : SeqPair) : Bool := p.sender == q.sender && p.role == q.role

/-- A reply leaves the module. In part by log 2 (DESIGN CHOICE, safe). -/
def sendReply (a : Reply) (s : State) : State := ownFrame (s.setMmp (fun m => { m with replies := a :: m.replies }))

/-- The reply to a request: it is sent, and kept for a repeat of the pair's last accepted request.
In part by log 2 (DESIGN CHOICE, safe). -/
def reply (q : Req) (st : Status) (result pad : Nat) (body : List Byte) (s : State) : State :=
  let a : Reply :=
    { sender := q.sender, role := q.role, type := q.type, seq := q.seq, epoch := s.epoch, status := st,
      result := result, pad := pad, body := body, unsigned := q.unsigned }
  (sendReply a s).setMmp (fun m =>
    { m with
      pairs := updFirst (fun p => isPair q p && p.lastSeq == q.seq) (fun p => { p with cached := some a }) m.pairs })

/-- A reply without a result byte, pad or body. -/
def answer (q : Req) (st : Status) (s : State) : State := reply q st 0 0 [] s

/-- The reply REFUSED with its reason. -/
def refused (q : Req) (reason : Nat) (s : State) : State := reply q .refused reason 0 [] s

/-- A request waits for its reply under a key of MmpSt.waits. -/
def State.hold (s : State) (k : Nat) (q : Req) : State := s.setMmp (fun m => { m with waits := m.waits.put k (some q) })

/-- The request that waits under a key gets its reply. -/
def answerHeld (k : Nat) (st : Status) (result : Nat) (s : State) : State :=
  match s.mmp.waits.look k with
  | none => s
  | some q => reply q st result 0 [] (s.setMmp (fun m => { m with waits := m.waits.put k none }))

/-! ### Sequence (15 R471) -/

/-- A SEQ is new: above H, or unmarked in the window below it; 0 is no SEQ. -/
def seqNew (p : SeqPair) (seq : Nat) : Bool :=
  seq != 0 && (decide (p.high < seq) || (decide (p.high < seq + 64) && !p.map.getLsbD (p.high - seq)))

/-- The pair after a SEQ is accepted. In part by log 49 (DEDUCED, unsafe). -/
def seqTake (p : SeqPair) (q : Req) : SeqPair :=
  let p1 := if p.high < q.seq then { p with high := q.seq, map := (p.map <<< (q.seq - p.high)) ||| 1#64 }
    else { p with map := p.map ||| (1#64 <<< (p.high - q.seq)) }
  { p1 with lastSeq := q.seq, lastTag := q.tag, cached := none }

/-- An old SEQ or epoch: MMP_REPLAY. -/
def replayed (q : Req) (s : State) : State :=
  raise Ev.MMP_REPLAY (portSrc q.port) (w32 q.sender) .module
    (s.setMmp (fun m => { m with replay := satInc top32 m.replay }))

/-- Check 5. `peer` is true for an unsolicited message, which gets no reply. In part by log 49 (DEDUCED, unsafe). -/
def checkSeq (q : Req) (peer : Bool) (s : State) : Option Req × State :=
  match s.mmp.pairs.find? (isPair q) with
  | none =>
    if 64 ≤ s.mmp.pairs.length then (none, if peer then s else answer q .tableFull s)
    else if q.seq = 0 then (none, replayed q s)
    else
      (some q, s.setMmp (fun m =>
        { m with
          pairs := m.pairs ++ [seqTake { sender := q.sender, role := q.role } q]
          rxOk := wrap32 (m.rxOk + 1) }))
  | some p =>
    if p.lastSeq = q.seq ∧ p.lastTag = q.tag ∧ q.seq ≠ 0 then
      (none, match p.cached with
        | some a => sendReply a s
        | none => s)
    else if seqNew p q.seq then
      (some q, s.setMmp (fun m =>
        { m with pairs := updFirst (isPair q) (fun x => seqTake x q) m.pairs, rxOk := wrap32 (m.rxOk + 1) }))
    else (none, replayed q s)

/-! ### Receiving (15 R465, R466, R470–R472, R475) -/

/-- The message types of 15 R472 that are requests of a station. -/
def isRequestType (t : Nat) : Bool := 1 ≤ t && t ≤ 0x0E
/-- The types that a station sends without being asked: GROUP_STATE and BSL. In part by log 49 (DEDUCED, unsafe). -/
def isPeerType (t : Nat) : Bool := t == 0x13 || t == 0x16
/-- The reserved types. In part by log 49 (DEDUCED, unsafe). -/
def isReservedType (t : Nat) : Bool := t == 0x00 || t == 0x0F || 0x17 ≤ t

/-- True while the ports deliver messages to the module: not from the start of a module restart to the end of PITCH
of function 0x06, nor while that function is out of RUN, but in HOLD (15 R472, R480, R481).
In part by log 49 (DEDUCED, unsafe). -/
def delivers (s : State) : Bool :=
  s.mod.state == .hold || ((s.mod.state == .run || s.mod.state == .standby || s.mod.state == .pitch) && s.running .ring)

/-- An episode of a full request queue ends (15 R475). -/
def queueFree (p : Port) (s : State) : State :=
  if s.mmp.queueEpisode = 0 then s
  else
    raiseN Ev.MMP_QUEUE_FULL (portSrc p) s.mmp.queueEpisode (s.setMmp (fun m => { m with queueEpisode := 0 }))

/-- A request finds the queue full (15 R473, R475). In part by log 49 (DEDUCED, unsafe). -/
def queueDrop (q : Req) (peer : Bool) (s : State) : State :=
  let s1 := s.setMmp (fun m => { m with queueEpisode := m.queueEpisode + 1 })
  if peer then s1
  else
    sendReply
      { sender := q.sender, role := q.role, type := q.type, seq := q.seq, epoch := s.epoch, status := .busy,
        unsigned := q.unsigned } s1

/-- Checks 4 and 5 of an unsolicited message: its epoch is its sender's (15 R470).
In part by log 49 (DEDUCED, unsafe). -/
def receivePeer (q : Req) (full : Bool) (s : State) : Option Req × State :=
  match s.mmp.peerEpochs.look q.sender with
  | some e =>
    if q.epoch < e then (none, replayed q s)
    else if full then (none, queueDrop q true s)
    else
      let s1 := if e < q.epoch then
          s.setMmp (fun m =>
            { m with
              peerEpochs := m.peerEpochs.put q.sender (some q.epoch)
              pairs := m.pairs.filter (fun p => p.sender != q.sender) })
        else s
      checkSeq q true (queueFree q.port s1)
  | none =>
    if full then (none, queueDrop q true s)
    else
      checkSeq q true (queueFree q.port
        (s.setMmp (fun m => { m with peerEpochs := m.peerEpochs.put q.sender (some q.epoch) })))

/-- Checks 1 to 5 of a received message, and the reply TYPE to a reserved type: the request that goes on to check 6,
and the state. `addrs` are the addresses of a READ. In part by log 49 (DEDUCED, unsafe). -/
def receive (m : Msg) (addrs : List W32) (s : State) : Option Req × State :=
  let q := msgReq m
  if !delivers s then (none, s)
  else if !msgFormed m then (none, s.setMmp (fun x => { x with frameFail := satInc top16 x.frameFail }))
  else if leAt m.bytes 12 4 = 0xFFFFFFFF ∨ leAt m.bytes 12 4 ≠ s.station then (none, s)
  else if !authentic s m addrs then
    (none, raise Ev.MMP_AUTH_FAILED (portSrc m.port) (w32 q.sender) .module
      (s.setMmp (fun x => { x with authFail := satInc top16 x.authFail })))
  else if bitOf 0 (msgFlags m) then (none, s)
  else if isPeerType q.type then receivePeer q m.full s
  else if !isRequestType q.type && !isReservedType q.type then (none, s)
  else if q.epoch ≠ s.epoch then (none, answer q .epoch s)
  else if m.full then (none, queueDrop q false s)
  else
    match checkSeq q false (queueFree q.port s) with
    | (none, t) => (none, t)
    | (some r, t) => if isReservedType r.type then (none, answer r .type t) else (some r, t)

/-- True for a type that STANDBY accepts (15 R472). -/
def inStandbyTypes (t : Nat) : Bool :=
  t == 1 || t == 4 || t == 8 || t == 9 || t == 0x0C || t == 0x0D
/-- True for a type that HOLD accepts (15 R472). -/
def inHoldTypes (t : Nat) : Bool := t == 1 || t == 4 || t == 8 || t == 9 || t == 0x0D

/-- True when the module state accepts a type (15 R472). -/
def stateTakes (s : State) (t : Nat) : Bool :=
  match s.mod.state with
  | .standby => inStandbyTypes t
  | .hold => inHoldTypes t
  | _ => true

/-- A message of the row's own type: checks 1 to 6 and the module state, then the row's own meaning `k`. `mine` says
which messages are the row's, `need` is the least role, and `note` records a refusal where the type has a result
object of its own. -/
def onNoted (m : Msg) (addrs : List W32) (mine : Req → Bool) (need : Role) (note : Status → State → State)
    (k : Req → State → State) (s : State) : State :=
  match receive m addrs s with
  | (none, t) => t
  | (some q, t) =>
    if !mine q then s
    else if !roleAtLeast q.role need then answer q .role (note .role t)
    else if !stateTakes t q.type then answer q .state (note .state t)
    else k q t

/-- A message of the row's own type, where the type has no result object. In part by log 12, 49 (DEDUCED, unsafe). -/
def onMessage (m : Msg) (addrs : List W32) (mine : Req → Bool) (need : Role) (k : Req → State → State) (s : State) :
    State :=
  onNoted m addrs mine need (fun _ t => t) k s

/-- A message of one type whose payload holds at least the fields that the type gives it.
In part by log 12, 49 (DEDUCED, unsafe). -/
def onSized (m : Msg) (ty : Nat) (need : Role) (len : Nat) (k : Req → State → State) (s : State) : State :=
  onMessage m [] (fun q => q.type == ty) need
    (fun q t => if q.payload.length < len then answer q .format t else k q t) s

/-- An unsolicited message of the row's own type: checks 1 to 6, and no reply (15 R470). -/
def onPeer (m : Msg) (ty : Nat) (need : Role) (k : Req → State → State) (s : State) : State :=
  match receive m [] s with
  | (none, t) => t
  | (some q, t) =>
    if q.type != ty then s
    else if !roleAtLeast q.role need || !stateTakes t q.type then t
    else k q t

end Sys2Proof.Machine
end

