-- ==== Sys2Proof/Machine/Force.lean ====
section
/-! DEFINITION. Forcing (chapter 09, R282–R286): the FORCE and RELEASE messages and what else ends a force. -/

namespace Sys2Proof.Machine

/-- The points of local control that an entry stands for (18 R545, R547): the output entry itself, its axis, and the
loop that has or writes it. -/
def pointsOfEntry (s : State) (i : Nat) : List LocalPt :=
  let l := s.lay i
  [{ kind := 2, index := i }]
    ++ (match l.ref with
        | .axisOut a _ => [({ kind := 1, index := a } : LocalPt)]
        | .loop n _ => [({ kind := 0, index := n } : LocalPt)]
        | _ => [])
    ++ (match l.writer with | .loop n => [({ kind := 0, index := n } : LocalPt)] | _ => [])

/-- True for a target that a Bedrock safety function reads or writes (09 R282).
In part by log 39 (DEDUCED, unsafe). -/
def safetyTarget (s : State) (i : Nat) : Bool :=
  (brReads s).contains i || (sfOutputs s.img).contains i
    || (match (s.lay i).writer with | .safety _ => true | _ => false)
    || (match (s.lay i).ref with
        | .aiSecond _ _ => true
        | .aiMain b c => (s.chCfg b c).safety == 1
        | .aoOut b c => (s.chCfg b c).safety == 1
        | .aoRead b c => (s.chCfg b c).safety == 1
        | .vgDemand _ => true
        | .vgValue _ => true
        | .bsl _ _ => true
        | _ => false)

/-- The kind of a force target by its number (09 R282). -/
def forceKindOf (n : Nat) : ForceKind :=
  match n with | 0 => .input | 1 => .output | 2 => .variable | _ => .free

/-- The type of a target of kind `k`; `none` where the target does not exist. -/
def targetType (s : State) (k : ForceKind) (t : Nat) : Option Vty :=
  match k with
  | .input => if (s.lay t).ref != .unused && !(s.lay t).out then some (s.lay t).ty else none
  | .output => if (s.lay t).ref != .unused && (s.lay t).out then some (s.lay t).ty else none
  | .variable =>
    let v := s.img.logic.vars.look t
    if v.defined && v.cls != .edge then some v.ty else none
  | .free => none

/-- The slot that holds a force on a target. -/
def slotOf (s : State) (k : ForceKind) (t : Nat) : Option Nat :=
  (s.logic.forces.find? (fun p => p.2.kind == k && p.2.kind != .free && p.2.tgt == t)).map (·.1)

/-- The lowest free slot of the force table. -/
def freeSlot (s : State) : Option Nat :=
  (List.range 256).find? (fun n => (s.logic.forces.look n).kind == .free)

/-- The data of FORCE_SET. -/
def forceSetData (slot : Nat) (k : ForceKind) (ty : Vty) (t : Nat) : Nat :=
  slot + 256 * forceKindCode k + 1024 * vtyCode ty + 65536 * (t % 65536)

/-- The value as the slot keeps it: a BOOL in bit 0. -/
def forceValue (ty : Vty) (v : W32) : W32 := match ty with | .bool => v &&& 1#32 | _ => v

/-- The result code of a FORCE (09 R282, R292), and the slot it takes. In part by log 39 (DEDUCED, unsafe). -/
def forceCheck (s : State) (r : Role) (k : ForceKind) (ty : Vty) (t : Nat) (v : W32) : Nat × Nat :=
  if !roleAtLeast r .engineer then (1, 0)
  else if !s.running .logic || s.mod.state != .run then (7, 0)
  else
    match targetType s k t with
    | none => (2, 0)
    | some ty' =>
      if k != .variable && safetyTarget s t then (3, 0)
      else if ty != ty' then (4, 0)
      else if ty == .real && !F32.isFin v then (8, 0)
      else
        match slotOf s k t with
        | some n => (0, n)
        | none => match freeSlot s with | some n => (0, n) | none => (5, 0)

/-- A force as its slot holds it after acceptance: a replaced value goes on acting until the next base tick. -/
def forceSlotAfter (s : State) (r : Role) (k : ForceKind) (ty : Vty) (t : Nat) (v : W32) (n : Nat) : ForceSlot :=
  let old := s.logic.forces.look n
  let acting := match old.nextVal with | some x => x | none => old.val
  { kind := k, tgt := t, ty := ty, val := forceValue ty v, role := roleCode r, time := operSecs s,
    live := if old.kind == .free then false else old.live, ending := false,
    nextVal := if old.kind == .free || !old.live then none else some acting }

/-- FORCE: the result code is in LE_CMD_RES; an accepted force ends local control of its point (09 R282, R283, R285;
18 R547). In part by log 39 (DEDUCED, unsafe). -/
def forceSet (r : Role) (k : ForceKind) (ty : Vty) (t : Nat) (v : W32) (s : State) : State :=
  match forceCheck s r k ty t v with
  | (0, n) =>
    let s1 := s.setLogic (fun l =>
      { l with
        forces := l.forces.put n (forceSlotAfter s r k ty t v n)
        forcesAccepted := satInc top16 l.forcesAccepted })
    let s2 := raise Ev.FORCE_SET s.img.logic.leSrc (w32 (forceSetData n k ty t)) (.role r) s1
    let pts := if k == .variable then [] else pointsOfEntry s t
    leResult 0 n (endLocals 2 (.role r) (fun p => pts.contains p) s2)
  | (c, _) => leResult c 0 s

/-- One force ends at the next base tick: FORCE_RELEASED is raised now. -/
def forceDrop (reason : Nat) (o : Origin) (n : Nat) (s : State) : State :=
  let f := s.logic.forces.look n
  raise Ev.FORCE_RELEASED s.img.logic.leSrc (w32 (n + 256 * reason + 65536 * (f.tgt % 65536))) o
    (s.setLogic (fun l => { l with forces := l.forces.put n { f with ending := true } }))

/-- The slots whose force has not been released. -/
def forcedSlots (s : State) : List Nat :=
  (s.logic.forces.filter (fun p => p.2.kind != .free && !p.2.ending)).map (·.1)

/-- RELEASE of one target, or of all forces with kind 3 (09 R286). In part by log 39 (DEDUCED, unsafe). -/
def forceRelease (r : Role) (kind t : Nat) (s : State) : State :=
  if !roleAtLeast r .engineer then leResult 1 0 s
  else if !s.running .logic || s.mod.state != .run then leResult 7 0 s
  else if kind = 3 then leResult 0 0 (forAll (forcedSlots s) (forceDrop 0 (.role r)) s)
  else
    match slotOf s (forceKindOf kind) t with
    | some n =>
      if (s.logic.forces.look n).ending then leResult 6 0 s
      else leResult 0 n (forceDrop 0 (.role r) n s)
    | none => leResult 6 0 s

/-- A force ends at once for a reason, where no base tick follows (09 R286). In part by log 39 (DEDUCED, unsafe). -/
def forceEndNow (reason : Nat) (n : Nat) (s : State) : State :=
  let f := s.logic.forces.look n
  let s1 := if f.ending then s
    else raise Ev.FORCE_RELEASED s.img.logic.leSrc (w32 (n + 256 * reason + 65536 * (f.tgt % 65536))) .module s
  let s2 := s1.setLogic (fun l => { l with forces := l.forces.put n {} })
  if f.live then forceEnd f s2 else s2

/-- The reply to a FORCE or RELEASE by LE_CMD_RES (15 R473; 09 R292). -/
def forceReply (q : Req) (s : State) : State :=
  match s.logic.cmdRes with
  | 0 => reply q .ok 0 0 [] s
  | 1 => answer q .role s
  | 7 => answer q .state s
  | c => refused q c s

/-- The result that a refusal by role or module state leaves in LE_CMD_RES. In part by log 39 (DEDUCED, unsafe). -/
def forceNote (st : Status) (s : State) : State := leResult (if st == .role then 1 else 7) 0 s

/-- FORCE (09 R282). -/
def execForce (m : Msg) (kind : Fin 3) (ty : Vty) (tgt : Nat) (v : W32) (s : State) :
    Host.Outcome State Fault Refusal :=
  .next (onNoted m [] (fun q => q.type == 5) .engineer forceNote
    (fun q t => forceReply q (forceSet q.role (forceKindOf kind.val) ty tgt v t)) s)

/-- RELEASE (09 R286). -/
def execRelease (m : Msg) (kind : Fin 4) (tgt : Nat) (s : State) : Host.Outcome State Fault Refusal :=
  .next (onNoted m [] (fun q => q.type == 6) .engineer forceNote
    (fun q t => forceReply q (forceRelease q.role kind.val tgt t)) s)

end Sys2Proof.Machine
end

