-- ==== Sys2Proof/Machine/Ckpt.lean ====
section
/-! DEFINITION. Checkpoints (17 R511, R512, R516; 20 R584, R585): what one holds, writing it, and restoring from it. -/

namespace Sys2Proof.Machine

/-- The checkpoint state changed. -/
def State.setCkpt (s : State) (f : CkptSt → CkptSt) : State := { s with ckpt := f s.ckpt }

/-! ### What a checkpoint holds (17 R512) -/

/-- The readback entry of a loop's output, where the loop has one. -/
def loopReadback (s : State) (n : Nat) : Option Qv := (loopRow s n).fb.map (loopRead s n)

/-- An output entry of a bank or group. -/
def isFieldOut : Ref → Bool
  | .aoOut _ _ => true | .doOut _ _ => true | _ => false

/-- The released state of every engine now. -/
def snapshot (s : State) (seq : Nat) : Ckpt :=
  { seq := seq, station := s.station, instant := s.now, kib := s.img.module.ckptKiB, img := s.img
    comm := s.lastCommissioned
    vars := s.logic.vars.filter (fun p => (s.img.logic.vars.look p.1).cls == .retain)
    forces := s.logic.forces.filter (fun p => !p.2.ending)
    lps := s.loops.lps
    fbs := (s.loops.lps.map (fun p => (p.1, loopReadback s p.1))).filter (fun p => p.2.isSome)
    alarm := s.alarm
    fns := s.bedrock.fns
    outs := (s.img.layout.filter (fun p => p.2.out && isFieldOut p.2.ref)).map (fun p => (p.1, some (piRaw s p.1)))
    counts := (s.points.map (fun p => (p.1, p.2.count))).filter (fun p => p.2 != 0)
    axes := s.axes }

/-- The later of two sequences by `(int32)(a - b)` (17 R512). -/
def later (a b : Ckpt) : Bool := 0 < sdiff32 (w32 a.seq) (w32 b.seq)

/-- A checkpoint is valid for this station (17 R512). -/
def ckptMine (s : State) (c : Ckpt) : Bool := c.station == 0 || s.station == 0 || c.station == s.station

/-- The newer of two sources. -/
def newer (a b : Option Ckpt) : Option Ckpt :=
  match a, b with
  | some x, some y => if later y x then some y else some x
  | some x, none => some x
  | none, y => y

/-- The newest valid local half. -/
def newestLocal (s : State) : Option Ckpt :=
  newer (s.ckpt.halfA.filter (ckptMine s)) (s.ckpt.halfB.filter (ckptMine s))

/-- The newest valid source, and whether it is the state peg (20 R585). -/
def newestSource (s : State) (peg : Option Ckpt) : Option (Ckpt × Bool) :=
  match newestLocal s, peg.filter (ckptMine s) with
  | some a, some b => if later b a then some (b, true) else some (a, false)
  | some a, none => some (a, false)
  | none, some b => some (b, true)
  | none, none => none

/-! ### Writing (17 R511; 20 R584) -/

/-- The sequence of the next checkpoint. -/
def nextCkptSeq (s : State) : Nat :=
  match newestLocal s with
  | some c => if 0 < sdiff32 (w32 s.ckpt.pairSeq) (w32 c.seq) then wrap32 (s.ckpt.pairSeq + 1) else wrap32 (c.seq + 1)
  | none => wrap32 (s.ckpt.pairSeq + 1)

/-- The local half with a number. -/
def setHalf (h : Nat) (v : Option Ckpt) (k : CkptSt) : CkptSt := if h = 0 then { k with halfA := v } else { k with halfB := v }

/-- A checkpoint begins, in the half that does not hold the newest one; a write in progress is given up.
In part by log 53 (DEDUCED, unsafe). -/
def beginCkpt (s : State) : State :=
  let h := match s.ckpt.busy with | some b => b.half | none => 1 - s.ckpt.last
  let w : CkptWrite :=
    { ck := snapshot s (nextCkptSeq s), half := h, peg := s.mod.position != 0 && s.pair.statePeg && s.live .guy }
  s.setCkpt (fun k => { setHalf h none k with busy := some w })

/-- A write in progress is abandoned; the other half and the other buffer stay valid (20 R575).
In part by log 53 (DEDUCED, unsafe). -/
def abandonCkpt (s : State) : State := s.setCkpt (fun k => { k with busy := none })

/-- True for the member of the station that takes checkpoints. -/
def takesCkpt (s : State) : Bool :=
  s.mod.state == .run && !s.mod.warning && (s.pair.role == .single || s.pair.role == .active)

/-- An episode of skipped checkpoints ends. -/
def ckptEpisodeEnd (s : State) : State :=
  raiseIf (s.ckpt.episode != 0) Ev.PAIR_CKPT_SKIPPED 0xCB s.ckpt.episode (s.setCkpt (fun k => { k with episode := 0 }))

/-- The checkpoint period falls due. -/
def ckptDue (s : State) : State :=
  if !takesCkpt s then s
  else if s.ckpt.busy.isSome then
    (s.setPair (fun p => { p with ckptSkip := satInc top32 p.ckptSkip })).setCkpt (fun k => { k with episode := k.episode + 1 })
  else beginCkpt (ckptEpisodeEnd s)

/-- A write of the checkpoint in progress completes: the local half, or the buffer of the state peg.
In part by log 53 (DEDUCED, unsafe). -/
def ckptWritten (onPeg : Bool) (s : State) : State :=
  match s.ckpt.busy with
  | none => s
  | some w0 =>
    if onPeg && !w0.peg then s
    else
      let w := if onPeg then { w0 with pegDone := true } else { w0 with localDone := true }
      let whole := w.localDone && (!w.peg || w.pegDone)
      s.setCkpt (fun k =>
        let k1 := if onPeg then { k with pairSeq := w.ck.seq, pairAt := some w.ck.instant, pairKib := w.ck.kib }
          else { setHalf w.half (some w.ck) k with last := w.half }
        let k2 := if w.peg then k1
          else { k1 with pairSeq := w.ck.seq, pairAt := some w.ck.instant, pairKib := w.ck.kib }
        { k2 with busy := if whole then none else some w })

/-! ### Restoring (17 R516; 20 R585; 13 R426) -/

/-- RETAIN variables of the same ID and type. In part by log 23 (DEDUCED, unsafe). -/
def restoreVars (c : Ckpt) (s : State) : State :=
  forAll s.img.logic.vars (fun p t =>
    let a := c.img.logic.vars.look p.1
    let b := p.2
    if b.defined && a.defined && b.cls == .retain && a.cls == .retain && a.ty == b.ty then
      let v := match c.vars.look p.1 with | some x => some x | none => if a.init == b.init then none else some a.init
      t.setLogic (fun l => { l with vars := l.vars.put p.1 v })
    else t) s

/-- The force table is restored at a take-over (09 R286); a force whose target is gone is left out. -/
def restoreForces (c : Ckpt) (s : State) : State :=
  let l := c.forces.filter (fun p => p.2.kind != .free && targetType s p.2.kind p.2.tgt == some p.2.ty)
  let s1 := s.setLogic (fun x => { x with forces := l.map (fun p => (p.1, { p.2 with live := false, nextVal := none })) })
  raiseIf (!l.isEmpty) Ev.FORCE_RESTORED s.img.logic.leSrc l.length s1

/-- The measured output that a loop's first sample presets from: the readback held, or u. -/
def restoredUm (c : Ckpt) (n : Nat) : F32 :=
  match c.fbs.look n with
  | some q =>
    if qIsGood q.q then
      (match (c.img.loops.rows.look n).fb with
        | some i => numOf (c.img.layout.look i).ty q.val
        | none => (c.lps.look n).u)
    else (c.lps.look n).u
  | none => (c.lps.look n).u

/-- Loops of the same number and form. In part by log 53 (DEDUCED, unsafe). -/
def restoreLoops (c : Ckpt) (s : State) : State :=
  forAll c.lps (fun p t =>
    let a := c.img.loops.rows.look p.1
    let b := loopRow t p.1
    let x := p.2
    if b.form != 0 && a.form == b.form && (loopOf t p.1).code == 0 && x.code == 0 then
      t.setLp p.1 (fun y =>
        { y with
          mode := reqMode x.req, req := x.req, target := x.target, man := x.man, w := x.w, u := x.u, i := x.i, d := x.d
          pe := x.pe, de := x.de, ramp := x.ramp, preset := true, umNext := some (restoredUm c p.1), wFromY := false })
    else t) s

/-- Alarm points of the same index and type; out of service and shelve limits return to the image (20 R594).
In part by log 53 (DEDUCED, unsafe). -/
def restoreAlarm (c : Ckpt) (s : State) : State :=
  let pts := forAll c.alarm.pts (fun p (acc : Tab AlmPt) =>
    let now := acc.look p.1
    if (c.img.alarm.rows.look p.1).ty == (almRow s p.1).ty && now.state != .unused && now.state != .oos
        && p.2.state != .unused && p.2.state != .oos then
      acc.put p.1 { p.2 with code := now.code }
    else acc) s.alarm.pts
  s.setAlm (fun a =>
    { a with
      pts := pts
      grps := c.alarm.grps.map (fun p => (p.1, { p.2 with shelve := none }))
      stage := c.alarm.stage, openTicks := c.alarm.openTicks, stage2 := c.alarm.stage2, calling := c.alarm.calling
      opener := c.alarm.opener, notified := c.alarm.notified
      dm := c.alarm.dm, dmTicks := c.alarm.dmTicks, dmUnack := c.alarm.dmUnack })

/-- A safety function as it restores (13 R426). -/
def restoredSf (x : SfSt) : SfSt :=
  match x.state with
  | .normal => { state := .normal, cause := x.cause, trips := x.trips }
  | .stopping => { state := .tripped, cause := 2, trips := x.trips }
  | st => { state := st, cause := x.cause, trips := x.trips }

/-- Safety functions restore only with a fresh checkpoint of the same commissioning value; otherwise every one starts
TRIPPED with cause 11 (13 R426). -/
def restoreBedrock (c : Option Ckpt) (ageMs : Nat) (s : State) : State :=
  match c with
  | none => startBedrock 11 s
  | some k =>
    let fresh := decide (ageMs ≤ s.img.bedrock.restoreLim)
    let same := k.comm.isSome && k.comm == s.lastCommissioned && k.comm == some s.imgId.safety
    let s1 := startBedrock 11 (s.setBr (fun b =>
      { b with restoreAge := min top16 ageMs, restored := fresh && same, refusedAge := !fresh, refusedValue := !same }))
    if fresh && same then
      brLines (forAll (sfUsed s1) (fun f t =>
        if (k.fns.look f).state == .unused then t else t.setSf f (fun _ => restoredSf (k.fns.look f))) s1)
    else s1

/-- Output entries of banks and groups, and digital count entries, of the same entry and type. -/
def restoreField (c : Ckpt) (s : State) : State :=
  let s1 := forAll c.outs (fun p t =>
    let a := c.img.layout.look p.1
    let b := t.lay p.1
    match p.2 with
    | some v => if a.ref == b.ref && a.ty == b.ty && b.out then t.setPi p.1 v else t
    | none => t) s
  forAll c.counts (fun p t =>
    if (c.img.points.look p.1).mode == (t.img.points.look p.1).mode then
      setRef (.diCount (p.1 / 8) (p.1 % 8)) { val := p.2, q := qGood }
        (t.setPoint (p.1 / 8) (p.1 % 8) (fun x => { x with count := p.2 }))
    else t) s1

/-- Position, pending target and energised state of each axis (12 R383). -/
def restoreAxes (c : Ckpt) (s : State) : State :=
  forAll c.axes (fun p t =>
    let x := p.2
    if (c.img.axes.look p.1).mode == (axCfg t p.1).mode && (axCfg t p.1).mode != 0 then
      t.setAxis p.1 (fun y =>
        { y with
          pos := x.pos, pending := x.pending, source := .restored, potInit := false
          state := if energised x then .stopped else y.state, hold := energised x })
    else t) s

/-- What a start or a take-over restores, Bedrock and forces apart. In part by log 53 (DEDUCED, unsafe). -/
def restoreProcess (c : Ckpt) (s : State) : State :=
  restoreAxes c (restoreField c (restoreAlarm c (restoreLoops c (restoreVars c s))))

/-- Age of a checkpoint in ms. In part by log 53 (DEDUCED, unsafe). -/
def ckptAge (s : State) (c : Ckpt) : Nat := (s.now - c.instant) / 1000000

/-! ### The commands -/

/-- The checkpoint period falls due (20 R584). -/
def execCheckpoint (s : State) : Host.Outcome State Fault Refusal := .next (ckptDue s)
/-- A checkpoint write completes (20 R584; 17 R511). -/
def execCheckpointComplete (onPeg : Bool) (s : State) : Host.Outcome State Fault Refusal := .next (ckptWritten onPeg s)

end Sys2Proof.Machine
end

