-- ==== Sys2Proof/Machine/Image.lean ====
section
/-! DEFINITION. The bytes of the peg, the check of an image copy, and the choice of the image (02 R32–R40, R43). -/

namespace Sys2Proof.Machine

/-! ### Bytes of the peg -/

/-- Bytes of the peg: 16 MiB (02 R32). -/
def pegSize : Nat := 0x1000000

/-- The byte at an address; an unlisted address reads 0xFF. In part by log 8 (DESIGN CHOICE, unsafe). -/
def pegByte : List (Nat × Byte) → Nat → Byte
  | [], _ => 0xFF#8
  | (a, v) :: r, k => if a = k then v else pegByte r k

/-- The memory with one byte written, in the canonical form: addresses strictly rising, no 0xFF listed.
In part by log 8 (DESIGN CHOICE, unsafe). -/
def pegPut : List (Nat × Byte) → Nat → Byte → List (Nat × Byte)
  | [], k, v => if v = 0xFF#8 then [] else [(k, v)]
  | (a, w) :: r, k, v =>
    if k < a then (if v = 0xFF#8 then (a, w) :: r else (k, v) :: (a, w) :: r)
    else if k = a then (if v = 0xFF#8 then r else (k, v) :: r)
    else (a, w) :: pegPut r k v

/-- The memory with a run of bytes written from an address on. In part by log 8 (DESIGN CHOICE, unsafe). -/
def pegWrite : List (Nat × Byte) → Nat → List Byte → List (Nat × Byte)
  | m, _, [] => m
  | m, k, v :: r => pegWrite (pegPut m k v) (k + 1) r

/-- The bytes of `n` addresses from `k` on. -/
def pegBytes (m : List (Nat × Byte)) (k n : Nat) : List Byte := (List.range n).map (fun i => pegByte m (k + i))

/-- The canonical form of the peg's memory. In part by log 8 (DESIGN CHOICE, unsafe). -/
abbrev Memory.wf (m : List (Nat × Byte)) : Prop :=
  (m.map (·.1)).Pairwise (· < ·) ∧ ∀ p ∈ m, p.2 ≠ 0xFF#8

/-- A peg as fitted: its bytes, each address once, in the canonical form. In part by log 8 (DESIGN CHOICE, unsafe). -/
def pegOf (l : List (Nat × Byte)) : List (Nat × Byte) :=
  (l.filter (fun p => p.1 < pegSize)).foldl (fun m p => pegPut m p.1 p.2) []

/-- The first address of slot `n` (02 R32). -/
def slotBase (n : Nat) : Nat := 0x10000 + 0x400000 * n
/-- A little-endian field of slot `n`. -/
def slotField (m : List (Nat × Byte)) (n off len : Nat) : Nat := ofLe (pegBytes m (slotBase n + off) len)
/-- `IMG_MAGIC` (02 R35). -/
def imgMagic : Nat := 0x4D42494D

/-! ### The check of a copy (02 R33–R37) -/

/-- The peg header is valid (02 R33). -/
def pegHeaderOk (m : List (Nat × Byte)) : Bool :=
  ofLe (pegBytes m 0 4) == 0x48475031 && ofLe (pegBytes m 4 2) == 1
    && ofLe (pegBytes m 0x10 4) == (crc32c (pegBytes m 0 0x10)).toNat

/-- One entry of the section table: type, offset, length, CRC. -/
structure SectEntry where
  ty : Nat := 0
  off : Nat := 0
  len : Nat := 0
  crc : Nat := 0
deriving DecidableEq, Repr, Inhabited

/-- The section table of slot `n`. In part by log 7 (DESIGN CHOICE, safe). -/
def sectTable (m : List (Nat × Byte)) (n : Nat) : List SectEntry :=
  (List.range (slotField m n 6 2)).map (fun i =>
    { ty := slotField m n (0x20 + 16 * i) 2, off := slotField m n (0x24 + 16 * i) 4
      len := slotField m n (0x28 + 16 * i) 4, crc := slotField m n (0x2C + 16 * i) 4 })

/-- No two sections overlap. -/
def sectsApart : List SectEntry → Bool
  | [] => true
  | e :: r => r.all (fun f => e.off + e.len ≤ f.off || f.off + f.len ≤ e.off) && sectsApart r

/-- Ranges, placement, overlap and required types: condition 4 of 02 R37. In part by log 7 (DESIGN CHOICE, safe). -/
def imgHeaderOk (m : List (Nat × Byte)) (n : Nat) : Bool :=
  let k := slotField m n 6 2
  let len := slotField m n 0xC 4
  let seq := slotField m n 8 4
  if k < 1 || 16 < k || len < 0x200 || 0x400000 < len || seq < 1 || 0xFFFFFFFE < seq then false
  else
    let t := sectTable m n
    t.all (fun e => 0x200 ≤ e.off && e.off + e.len ≤ len) && sectsApart t
      && [1, 3, 6].all (fun ty => t.any (fun e => e.ty == ty))

/-- The bytes of an image with `IMG_CRC` taken as 0; `IMG_MAGIC` stands in place where it is assumed (02 R35, R49). -/
def imgBytes (m : List (Nat × Byte)) (n : Nat) (assumed : Bool) : List Byte :=
  let len := slotField m n 0xC 4
  (if assumed then leBytes 4 imgMagic else pegBytes m (slotBase n) 4)
    ++ pegBytes m (slotBase n + 4) 0x1F8 ++ List.replicate 4 0#8 ++ pegBytes m (slotBase n + 0x200) (len - 0x200)

/-- The sections of slot `n`, with their bytes. -/
def imgSections (m : List (Nat × Byte)) (n : Nat) : List Section :=
  (sectTable m n).map (fun e => { ty := e.ty, bytes := pegBytes m (slotBase n + e.off) e.len })

/-- The bytes of the first section of a type; none where the image has none. In part by log 18 (DEDUCED, unsafe). -/
def sectOf (l : List Section) (ty : Nat) : List Byte :=
  match l.find? (fun x => x.ty == ty) with | some x => x.bytes | none => []

/-- The code of a copy by 02 R37: `verified` when every condition holds. -/
def verifyCode (m : List (Nat × Byte)) (station n : Nat) (assumed : Bool) : SlotStat :=
  if !pegHeaderOk m then .empty
  else if !assumed && slotField m n 0 4 != imgMagic then .empty
  else if !(slotField m n 4 2 == 1 || slotField m n 4 2 == 2) then .formatUnsupported
  else if !imgHeaderOk m n then .headerBad
  else if slotField m n 0x1FC 4 != (crc32c (imgBytes m n assumed)).toNat
    || slotField m n 0x18 4 != (crc32c (sectOf (imgSections m n) 6)).toNat then .crcBad
  else if !(slotField m n 0x10 4 == 0 || station == 0 || slotField m n 0x10 4 == station) then .stationMismatch
  else .verified

/-- The slot fields of a copy as read: values only where it verifies (02 R43). -/
def readSlot (m : List (Nat × Byte)) (station n : Nat) : SlotSt :=
  match verifyCode m station n false with
  | .verified =>
    { stat := .verified, seq := w32 (slotField m n 8 4), safety := w32 (slotField m n 0x14 4)
      crc := w32 (slotField m n 0x1FC 4), len := slotField m n 0xC 4 }
  | c => { stat := c }

/-- What identifies the copy of slot `n`. -/
def slotId (m : List (Nat × Byte)) (n : Nat) : ImgId :=
  { seq := w32 (slotField m n 8 4), safety := w32 (slotField m n 0x14 4), bedrock := w32 (slotField m n 0x18 4)
    len := slotField m n 0xC 4, crc := w32 (slotField m n 0x1FC 4) }

/-- A verified copy, whatever R39 or R43 made of it. -/
def slotVerified (x : SlotSt) : Bool := x.stat == .verified || x.stat == .chosen || x.stat == .droppedSafety

/-- Two copies are identical (02 R40). -/
def slotIs (x : SlotSt) (i : ImgId) : Bool := x.len == i.len && x.crc == i.crc

/-! ### The choice (02 R38, R39) -/

/-- The outcome of IMAGE SELECT. -/
inductive Choice where
  | noImage
  /-- The slots in top. -/
  | ambiguous (top : List Nat)
  | chosen (slot : Nat) (uncommissioned : Bool) (dropped : List Nat)
deriving DecidableEq, Repr, Inhabited

/-- The pseudocode of 02 R39 over the three slots as read. -/
def chooseImage (slots : Tab SlotSt) (comm : Option W32) : Choice :=
  let cand := (List.range 3).filter (fun n => slotVerified (slots.look n))
  if cand.isEmpty then .noImage
  else
    let mine := cand.filter (fun n => comm == some (slots.look n).safety)
    let matching := if mine.isEmpty then cand else mine
    let best := (matching.map (fun n => (slots.look n).seq.toNat)).foldl max 0
    let top := matching.filter (fun n => (slots.look n).seq.toNat == best)
    match top with
    | [] => .noImage
    | a :: r =>
      if r.any (fun n => (slots.look n).len != (slots.look a).len || (slots.look n).crc != (slots.look a).crc) then
        .ambiguous top
      else .chosen a mine.isEmpty (if mine.isEmpty then [] else cand.filter (fun n => !mine.contains n))

/-- The slots classified against an image in use, chosen in slot `sel` (02 R39, R40, R43). -/
def classify (slots : Tab SlotSt) (comm : Option W32) (use : ImgId) (sel : Nat) : Tab SlotSt :=
  let carried := fun (n : Nat) => (List.range 3).any (fun k =>
    k != n && slotVerified (slots.look k) && comm == some (slots.look k).safety)
  forRange 3 (fun n (t : Tab SlotSt) =>
    let x := t.look n
    if !slotVerified x then t
    else
      let same := slotIs x use
      t.put n { x with
        differs := !same
        stat := if n = sel && same then .chosen
          else if comm != some x.safety && carried n then .droppedSafety
          else .verified }) slots

/-- The slots whose copies differ from the one in use, as a mask. -/
def differMask (slots : Tab SlotSt) : Nat :=
  ((List.range 3).map (fun n => if (slots.look n).differs then 2 ^ n else 0)).sum

/-- Every slot read from the peg and classified against the image in use (02 R43). -/
def refreshSlots (s : State) : State :=
  let m := s.peg.mem
  let read : Tab SlotSt := forRange 3 (fun n (t : Tab SlotSt) => t.put n (readSlot m s.station n)) []
  { s with peg := { s.peg with slots := classify read s.lastCommissioned s.imgId s.peg.sel } }

/-- The code of a slot status (02 R43). -/
def slotCode : SlotStat → Nat
  | .empty => 0 | .headerBad => 1 | .formatUnsupported => 2 | .crcBad => 3 | .stationMismatch => 4 | .verified => 5
  | .droppedSafety => 6 | .chosen => 7 | .writeOpen => 8

/-- The slot states as NO_IMAGE shows them (02 R69). -/
def slotCodes (s : State) : Nat :=
  ((List.range 3).map (fun n => slotCode (s.peg.slots.look n).stat * 16 ^ n)).sum

end Sys2Proof.Machine
end

