-- ==== Sys2Proof/Machine/Panel.lean ====
section
/-! DEFINITION. The local panel (chapter 18): direct drive and DC ledger, bands, regions, discharge, keys, lamps and
local control. -/

namespace Sys2Proof.Machine

/-- The panel changed. -/
def State.setPanel (s : State) (f : PanelSt → PanelSt) : State := { s with panel := f s.panel }

/-- True while the panel drives its glass: in RUN and in the states that show the system page alone (18 R534, R540). -/
def panelDrives (s : State) : Bool :=
  match s.fnState .panel with
  | .run => true | .standby => true | .drain => true | .fault => true
  | .pitch => s.mod.state == .hold
  | _ => false

/-! ### Pages (18 R534, R550) -/

/-- The page that PNL_PAGE selects. -/
def pageNo (s : State) : Nat := match s.panel.page with | some n => n | none => s.img.panel.page
/-- The backlight in %. -/
def brightness (s : State) : Nat := match s.panel.bright with | some n => n | none => s.img.panel.bright
/-- The configuration of the page selected. -/
def pageCfg (s : State) : PageCfg := nth s.img.panel.pages (pageNo s)
/-- Only the system page is shown. -/
def systemOnly (s : State) : Bool := s.mod.state != .run || s.fnState .panel == .fault

/-- Two regions overlap. -/
def regOverlap (a b : RegionCfg) : Bool :=
  decide (a.x < b.x + b.w) && decide (b.x < a.x + a.w) && decide (a.y < b.y + b.h) && decide (b.y < a.y + a.h)

/-- The first region of a page that breaks a rule of R534. In part by log 54 (DEDUCED, unsafe). -/
def badRegion (p : PageCfg) : Option Nat :=
  if 64 < p.regions.length then some 64
  else (List.range p.regions.length).find? (fun i =>
    let r := nth p.regions i
    r.x % 4 != 0 || r.w % 4 != 0 || 128000 < r.w * r.h
      || (List.range i).any (fun j => regOverlap (nth p.regions j) r))

/-- The page and region for which the section is refused (18 R534). -/
def panelRefusal (img : ImageCfg) : Option (Nat × Nat) :=
  let ps := img.panel.pages
  if 32 < ps.length then some (32, 0)
  else
    match (List.range ps.length).find? (fun i => (badRegion (nth ps i)).isSome) with
    | some i => some (i, (badRegion (nth ps i)).getD 0)
    | none => none

/-! ### Region updates (18 R535, R536) -/

/-- A region of the page shown. -/
def regOf (s : State) (r : Nat) : RegionSt := s.panel.regs.look r
/-- A region changed. -/
def setReg (r : Nat) (f : RegionSt → RegionSt) (s : State) : State :=
  s.setPanel (fun p => { p with regs := p.regs.upd r f })
/-- Bytes of the back buffer of a region. -/
def regBytes (s : State) (r : Nat) : Nat :=
  let g := nth (pageCfg s).regions r
  g.w / 4 * 9 * g.h
/-- A region between t1 and t5. -/
def regBusy (x : RegionSt) : Bool := x.phase == .rendering || x.phase == .rendered || x.phase == .shown
/-- Free bytes of the back area (18 R526). -/
def backFree (s : State) : Nat :=
  315648 - ((s.panel.regs.filter (fun p => regBusy p.2)).map (fun p => regBytes s p.1)).sum

/-- t1: the back buffer is allocated, and the renderer takes the values present. -/
def startRegion (r : Nat) (s : State) : State :=
  setReg r (fun x =>
    { x with phase := .rendering, vals := (nth (pageCfg s).regions r).entries.map (readEntry s) }) s

/-- The regions that wait get space in the order of their requests. -/
def grantRegions : List Nat → State → State
  | [], s => s.setPanel (fun p => { p with queue := [] })
  | r :: l, s =>
    if regBytes s r ≤ backFree s then grantRegions l (startRegion r s)
    else s.setPanel (fun p => { p with queue := r :: l })

/-- A request for a region. In part by log 54 (DEDUCED, unsafe). -/
def requestRegion (r : Nat) (s : State) : State :=
  if (pageCfg s).regions.length ≤ r then s
  else if (regOf s r).phase != .idle then setReg r (fun x => { x with waits := true }) s
  else if s.panel.queue.isEmpty && decide (regBytes s r ≤ backFree s) then startRegion r s
  else
    (setReg r (fun x => { x with phase := .waiting }) s).setPanel (fun p =>
      { p with queue := p.queue ++ [r], waitCount := satInc top32 p.waitCount })

/-- Every region of the page is drawn again. -/
def redrawAll (s : State) : State :=
  forRange (pageCfg s).regions.length requestRegion (s.setPanel (fun p => { p with regs := [], queue := [] }))

/-- The render of a region completes: t2. In part by log 54 (DEDUCED, unsafe). -/
def renderComplete (r : Nat) (s : State) : State :=
  if (regOf s r).phase == .rendering then setReg r (fun x => { x with phase := .rendered, doneAt := s.now }) s else s

/-- t5 at a frame start: the back buffer is freed, and the pending request takes t0. -/
def regionEnds (l : List Nat) (s : State) : State :=
  let s1 := forAll l (fun r t => setReg r (fun x => { x with phase := .idle }) t) s
  let s2 := grantRegions s1.panel.queue s1
  forAll l (fun r t =>
    if (regOf t r).waits then requestRegion r (setReg r (fun x => { x with waits := false }) t) else t) s2

/-- t3 at a frame start: the region is scanned out of its back buffer. -/
def regionShows (s : State) : State :=
  forAll ((s.panel.regs.filter (fun p => p.2.phase == .rendered && decide (p.2.doneAt + 100000 ≤ s.now))).map (·.1))
    (fun r t =>
      (setReg r (fun x => { x with phase := .shown }) t).setPanel (fun p =>
        { p with cur := { p.cur with regions := p.cur.regions.put r (some (p.regs.look r).vals) } })) s

/-- A page is selected: its regions are requested. In part by log 54 (DEDUCED, unsafe). -/
def showPage (n : Nat) (s : State) : State := redrawAll (s.setPanel (fun p => { p with page := some n, sel := none }))

/-! ### What a frame shows (18 R541–R543) -/

/-- The numbers of the system strip and of the system page (18 R542, R543). -/
def stripOf (s : State) : List Nat :=
  let faults := allFns.filter (fun f => s.fnState f == .fault)
  [ s.station, modCode s.mod.state, pairRoleCode s.pair.role, b2n s.tu.valid, s.tu.time.toNat,
    (s.logic.forces.filter (fun p => forceActs p.2)).length, s.panel.locals.length, b2n s.safetyCommissioned,
    s.imgId.safety.toNat, faults.length, s.healthNow.toNat, holdCode s.mod.hold,
    (match s.lastCommissioned with | some v => v.toNat | none => 0), s.otpUsed 3 0, s.imgId.seq.toNat,
    s.pair.partner.modState, b2n s.partnerReady ]
    ++ faults.flatMap (fun f => [fnId f, (s.hdr f).fault])

/-- State of a lamp. -/
inductive Lamp where
  | off | steady
  | flash (hertz : Nat)
deriving DecidableEq, Repr

/-- RUN, green (18 R541). -/
def lampRun (s : State) : Lamp :=
  if s.panel.dark then .off else if s.healthNow.getLsbD 0 then .steady
  else if s.mod.state == .standby then .flash 1 else .off
/-- F, amber. -/
def lampForce (s : State) : Lamp := if s.panel.dark then .off else if s.healthNow.getLsbD 10 then .steady else .off
/-- FLT, red. -/
def lampFault (s : State) : Lamp :=
  let h := s.healthNow
  if s.panel.dark then .off
  else if h.getLsbD 12 || h.getLsbD 18 || decide (0 < h.toNat / 16777216) then .steady
  else if s.mod.state == .hold then .flash 2 else .off
/-- L, white. -/
def lampLocal (s : State) : Lamp :=
  if s.panel.dark then .off else if !s.panel.locals.isEmpty then .steady
  else if s.panel.keyOn then .flash 1 else .off

/-- A value as the renderer takes it. -/
def qvNats (l : List Qv) : List Nat := l.flatMap (fun v => [v.val.toNat, v.q.toNat])

/-- The level of colour `k` of pixel x, y in a frame. -/
def frameLevel (f : Frame) (x y k : Nat) : Nat :=
  if y < 32 then (Config.panelPixel 0 0 0 f.strip x y k).toNat
  else if f.sys then (Config.panelPixel 1 0 0 f.strip x y k).toNat
  else
    let hit := (List.range f.cfg.regions.length).find? (fun i =>
      let g := nth f.cfg.regions i
      decide (g.x ≤ x) && decide (x < g.x + g.w) && decide (g.y ≤ y) && decide (y < g.y + g.h))
    match hit with
    | some i =>
      match f.regions.look i with
      | some v => (Config.panelPixel 2 f.page i (qvNats v) x y k).toNat
      | none => (Config.panelPixel 3 f.page 0 [] x y k).toNat
    | none => (Config.panelPixel 3 f.page 0 [] x y k).toNat

/-! ### Drive and ledger (18 R525–R530, R533) -/

/-- The amplitude code of a subpixel: gamma, and overdrive in the frame of a level change (18 R533). -/
def amplitude (band old new : Nat) : Nat :=
  let od : Int := if old = new then 0 else (Config.panelOverdrive band (old / 8) (new / 8)).toInt
  (max 0 (min 63 (((Config.panelGamma band new).toNat : Int) + od))).toNat

/-- The ledger weight of an amplitude code (18 R527). -/
def driveWeight (a : Nat) : Int := if a ≤ 21 then 1 else if a ≤ 42 then 2 else 3

/-- The polarity of a subpixel (18 R528). -/
def polarity (marked : Bool) (l : Int) (f r c : Nat) : Int :=
  let dflt : Int := if (f + r + c) % 2 = 0 then 1 else -1
  if marked then (if l = 0 then dflt else -l.sign) else if 4 ≤ l.natAbs then -l.sign else dflt

/-- The sum of a ledger and a drive, clamped, and whether it was clamped (18 R527). -/
def ledgerStep (l p w : Int) : Int × Bool :=
  let n := l + p * w
  (max (-7) (min 7 n), decide (n < -7) || decide (7 < n))

/-- A row of the glass after it has been driven. -/
def driveRow (s : State) (r : Nat) : RowLedger :=
  let g := s.panel.rows.look r
  let step := fun c =>
    let x := c / 3
    let a := amplitude s.panel.bandNow (frameLevel s.panel.prev x r (c % 3)) (frameLevel s.panel.cur x r (c % 3))
    ledgerStep (g.cells.look c) (polarity g.marked (g.cells.look c) s.panel.frames r c) (driveWeight a)
  let cols := (List.range 2400).map (fun c => (c, step c))
  { cells := (cols.map (fun p => (p.1, p.2.1))).filter (fun p => p.2 != 0), marked := cols.any (fun p => p.2.2) }

/-- A row period that drives row `r`. -/
def rowPeriod (r : Nat) (s : State) : State :=
  if s.panel.scan == .on && panelDrives s && decide (r < 480) then
    s.setPanel (fun p => { p with rows := p.rows.put r (driveRow s r) })
  else s

/-- A frame starts (18 R525, R529, R532, R535). In part by log 54 (DEDUCED, unsafe). -/
def frameBegin (s : State) : State :=
  let n := (s.panel.rows.filter (fun p => p.2.marked)).length
  let ends := (s.panel.regs.filter (fun p => p.2.phase == .shown)).map (·.1)
  let s1 := s.setPanel (fun p =>
    { p with
      frames := wrap32 (p.frames + 1)
      bandNow := p.band
      balances := if n = 0 then p.balances else satInc top16 p.balances
      lastMarked := n
      prev := p.cur
      cur :=
        { sys := p.sysPage || systemOnly s
          page := pageNo s
          cfg := pageCfg s
          regions := if p.cur.page == pageNo s && p.cur.cfg == pageCfg s then p.cur.regions else []
          strip := stripOf s } })
  raiseIf (n != 0) Ev.PNL_BALANCE 0xCC n (regionShows (regionEnds ends s1))

/-- A panel frame: after a discharge the panel restarts and redraws every region (18 R538).
In part by log 54 (DEDUCED, unsafe). -/
def panelFrame (s : State) : State :=
  if !panelDrives s then s
  else
    match s.panel.scan with
    | .on => frameBegin s
    | .discharging => s
    | .off =>
      if s.mod.warning then s
      else frameBegin (redrawAll (s.setPanel (fun p => { p with scan := .on, dark := false })))

/-- The glass is discharged (18 R537, R539): 0 power-fail, 1 bivouac, 2 restart, 3 function reset. -/
def panelDischarge (cause : Nat) (s : State) : State :=
  if s.fnState .panel == .off then s
  else
    raiseN Ev.PNL_DISCHARGED 0xCC cause
      (s.setPanel (fun p => { p with scan := .discharging, dark := true, dischargeAt := s.now, regs := [], queue := [] }))

/-- The gates switch off. In part by log 54 (DEDUCED, unsafe). -/
def dischargeEnd (s : State) : State :=
  if s.panel.scan == .discharging then s.setPanel (fun p => { p with scan := .off }) else s

/-! ### Temperature bands (18 R531, R532) -/

/-- Lower edge of a band, 0.1 °C. -/
def bandEdge (b : Nat) : Int := 120 * (b : Int) - 250
/-- The lower bands, from a band down, while the temperature stays below the edge by more than 1 °C. -/
def bandDown : Nat → Int → Nat
  | 0, _ => 0
  | b + 1, t => if t < bandEdge (b + 1) - 10 then bandDown b t else b + 1
/-- The band for a temperature, from the present band. In part by log 54 (DEDUCED, unsafe). -/
def bandFor (b : Nat) (t : Int) : Nat :=
  let up := ((List.range 8).filter (fun k => k = 0 || decide (bandEdge k ≤ t))).foldl max 0
  if b < up then up else bandDown b t

/-- The panel temperature is read. `none` is an open or shorted path. In part by log 54 (DEDUCED, unsafe). -/
def panelTemp (temp : Option Int) (s : State) : State :=
  let good := match temp with | some t => decide (-400 ≤ t) && decide (t ≤ 1000) | none => false
  let t := if good then temp.getD 0 else s.mod.temp - 50
  let b := bandFor s.panel.band t
  let s1 := s.setPanel (fun p =>
    { p with temp := temp.getD p.temp, tempValid := good, tempFault := !good, band := b })
  raiseIf (b != s.panel.band) Ev.PNL_BAND_CHANGED 0xCC (b + 65536 * s16 t)
    (raiseIf (!good && !s.panel.tempFault) Ev.PNL_SENSOR_FAULT 0xCC 0 s1)

/-! ### Local control (18 R544–R548) -/

/-- The key switch is read as on or off. In part by log 55 (DEDUCED, unsafe). -/
def keySwitch (on : Bool) (s : State) : State :=
  if s.panel.keyOn == on then s.setPanel (fun p => { p with keyFault := false })
  else
    let s1 := raise Ev.PNL_KEYSWITCH 0xCC (w32 (b2n on)) .panel
      (s.setPanel (fun p => { p with keyOn := on, keyFault := false }))
    if on then s1 else endLocals 1 .panel (fun _ => true) s1

/-- The contacts of the key switch disagree: it counts as off. In part by log 55 (DEDUCED, unsafe). -/
def keySwitchFault (s : State) : State :=
  if s.panel.keyFault then s
  else
    raiseN Ev.PNL_KEYSWITCH_FAULT 0xCC 0
      ((keySwitch false s).setPanel (fun p => { p with keyFault := true }))

/-- The panel section's entry of a point. -/
def localCfg (s : State) (p : LocalPt) : Option LocalCfg := s.img.panel.locals.find? (fun c => c.pt == p)

/-- A force on the point: on its output entry, on the entries of its axis, or on the output of its loop. -/
def pointForced (s : State) (p : LocalPt) : Bool :=
  s.logic.forces.any (fun f => f.2.kind == .output && (pointsOfEntry s f.2.tgt).contains p)

/-- The result of TAKE (18 R545, R551). In part by log 55 (DEDUCED, unsafe). -/
def takeCode (s : State) (p : LocalPt) : Nat :=
  if (localCfg s p).isNone then 1
  else if !s.panel.keyOn then 2
  else if 16 ≤ s.panel.locals.length then 3
  else if pointForced s p then 4
  else if p.kind = 2
      && ((sfOutputs s.img).contains p.index || (match (s.lay p.index).writer with | .safety _ => true | _ => false)) then 5
  else if s.mod.state != .run then 6
  else if p.kind = 2 && (match (s.lay p.index).writer with | .alarm => true | .loop _ => true | _ => false) then 7
  else 0

/-- TAKE (18 R545, R546). In part by log 55 (DEDUCED, unsafe). -/
def takePoint (p : LocalPt) (s : State) : State :=
  let c := takeCode s p
  let s0 := s.setPanel (fun x => { x with locRes := c })
  if c != 0 || s.panel.locals.contains p then s0
  else
    let s1 := s0.setPanel (fun x =>
      { x with
        locals := x.locals ++ [p]
        takenAt := (p, operSecs s) :: x.takenAt.filter (fun q => q.1 != p) })
    let s2 := if p.kind = 2 then wdSuspend (s1.lay p.index).ref s1
      else if p.kind = 1 then s1.setAxis p.index (fun x => { x with panelTgt := none }) else s1
    raise Ev.PNL_LOCAL_TAKEN 0xCC (w32 (p.kind + 4 * p.index)) .panel s2

/-- A stepped value. -/
def stepped (up : Bool) (v step : F32) : F32 := if up then F32.add v step else F32.sub v step

/-- The effect of a panel command on a held loop, at step 1 of its next sample (18 R546). -/
def loopLocal (n : Nat) (c : LocalCmd) (k : LocalCfg) (s : State) : Option State :=
  let x := loopOf s n
  let r := loopRow s n
  let ask := fun (m : Nat) =>
    if reqAfter x = m then s else raiseLoop Ev.LOOP_MODE_SET n (m + 8) .panel (pushCmd n (.mode m) s)
  match c with
  | .man => some (ask 0)
  | .auto => some (ask 1)
  | .stepManv up => some (pushCmd n (.manv (F32.clamp r.umin r.umax (stepped up (manNow x) k.step))) s)
  | .stepTarget up => some (pushCmd n (.target (F32.clamp r.spLo r.spHi (stepped up (targetNow x) k.stepTgt))) s)
  | _ => none

/-- The effect of a panel command on a held axis, at its next tick. -/
def axisLocal (a : Nat) (c : LocalCmd) (k : LocalCfg) (s : State) : Option State :=
  let push := fun (code : Nat) => s.setAxis a (fun x => { x with panelCmds := x.panelCmds ++ [code] })
  match c with
  | .stop => some (push 3)
  | .resume => some (push 5)
  | .home => some (push 6)
  | .stepTarget up =>
    let x := s.axis a
    let base : Int := match x.panelTgt with | some p => p | none => x.tgtSeen
    let t : Int := if up then base + k.stepPos else base - k.stepPos
    let g := s.img.axes.look a
    some (s.setAxis a (fun y => { y with panelTgt := some (max g.softMin (min g.softMax t)) }))
  | _ => none

/-- The effect of a panel command on a held output entry. -/
def outLocal (i : Nat) (c : LocalCmd) (k : LocalCfg) (s : State) : Option State :=
  let r := (s.lay i).ref
  let write := fun (v : W32) => driveOut r (s.setPi i { val := v, q := qGood })
  match c, r with
  | .on, .doOut _ _ => some (write 1)
  | .off, .doOut _ _ => some (write 0)
  | .step up, .aoOut b ch =>
    let g := aoRange (s.ch b ch).mode
    some (write (F32.clamp g.1 g.2 (stepped up (piRaw s i).val k.step)))
  | _, _ => none

/-- A panel command acts on a held point (18 R546). In part by log 55 (DEDUCED, unsafe). -/
def localCmd (p : LocalPt) (c : LocalCmd) (s : State) : State :=
  match (if s.panel.locals.contains p then localCfg s p else none) with
  | none => s
  | some k =>
    match (if p.kind = 0 then loopLocal p.index c k s else if p.kind = 1 then axisLocal p.index c k s
      else outLocal p.index c k s) with
    | none => s
    | some t =>
      raise Ev.PNL_LOCAL_CMD 0xCC (w32 (p.kind + 4 * p.index + 16777216 * (Config.localCmdCode c).toNat)) .panel t

/-! ### Keys (18 R540) -/

/-- The direction of a step, where the command is one. -/
def stepDir : LocalCmd → Option Bool
  | .stepManv up => some up | .stepTarget up => some up | .step up => some up | _ => none

/-- The keys of a page act only in RUN with the page shown. -/
def pageKeys (s : State) : Bool := s.running .panel && s.mod.state == .run && !s.panel.sysPage

/-- A press of a function key. In part by log 55 (DEDUCED, unsafe). -/
def functionKey (k : Nat) (s : State) : State :=
  if !pageKeys s then s
  else
    match nth (pageCfg s).keys k with
    | .none => s
    | .page n => if n < s.img.panel.pages.length then showPage n s else s
    | .select p => s.setPanel (fun x => { x with sel := some p })
    | .take => match s.panel.sel with | some p => takePoint p s | none => s
    | .release => match s.panel.sel with | some p => endLocal 0 .panel p s | none => s
    | .releaseAll => endLocals 0 .panel (fun _ => true) s
    | .cmd c =>
      match s.panel.sel with
      | some p => localCmd p c (s.setPanel (fun x => { x with lastStep := if (stepDir c).isSome then some c else none }))
      | none => s

/-- A held + or − key repeats its action. In part by log 55 (DEDUCED, unsafe). -/
def keyRepeat (plus : Bool) (s : State) : State :=
  if !pageKeys s then s
  else
    match s.panel.sel, s.panel.lastStep with
    | some p, some c => if stepDir c == some plus then localCmd p c s else s
    | _, _ => s

/-! ### Writes, reset and objects (18 R549, R550; 15 R479) -/

/-- A write of PNL_BRIGHT. -/
def brightWrite (v : W32) (s : State) : Option State :=
  let n := v.toNat % 128
  if n ≤ 100 then some (s.setPanel (fun p => { p with bright := some n })) else none
/-- A write of PNL_PAGE. -/
def pageWrite (v : W32) (s : State) : Option State :=
  let n := v.toNat % 32
  if n < s.img.panel.pages.length then some (showPage n s) else none

/-- A function reset of 0x0A: discharge, then a redraw; the ledger is kept, and local control ends. -/
def resetPanel (s : State) : State :=
  let s1 := endLocals 3 .module (fun _ => true) (panelDischarge 3 s)
  s1.setPanel (fun p =>
    { p with bright := none, page := none, sysPage := false, sel := none, lastStep := none, waitCount := 0, frames := 0 })

/-- Kind and index of a held point as PNL_LOC_PT shows them. -/
def locWord (s : State) (n : Nat) : Nat :=
  if n < s.panel.locals.length then
    let p := nth s.panel.locals n
    p.kind + 4 * p.index
  else 3
/-- Operating seconds when a held point was taken. -/
def locAt (s : State) (n : Nat) : Nat :=
  if n < s.panel.locals.length then
    match s.panel.takenAt.find? (fun q => q.1 == nth s.panel.locals n) with | some q => q.2 | none => 0
  else 0

/-- Blocks of function 0x0A. In part by log 54 (DEDUCED, unsafe). -/
def panelObj (s : State) (blk off : Nat) : Option Nat :=
  let p := s.panel
  if blk = 2 then
    if off = 0 then
      some (pageNo s % 32 + 32 * (p.band % 8) + 256 * b2n p.keyOn + 512 * b2n p.keyFault
        + 1024 * b2n (panelDrives s && (p.sysPage || systemOnly s)) + 65536 * p.locals.length)
    else if off = 4 then some (s16 p.temp + 65536 * b2n p.tempValid)
    else if off = 8 then some p.frames
    else if off = 0xC then some (p.balances + 65536 * p.lastMarked)
    else if off = 0x10 then
      some ((p.regs.filter (fun q => regBusy q.2)).length + 256 * (p.regs.filter (fun q => q.2.waits)).length
        + 65536 * (backFree s / 64))
    else if off = 0x14 then some p.waitCount
    else if off = 0x18 then some p.locRes
    else none
  else if blk = 3 then
    if off = 0 then some (brightness s) else if off = 4 then some (pageNo s) else none
  else if blk = 4 then
    if off < 0x80 then some (if off % 8 = 0 then locWord s (off / 8) else locAt s (off / 8)) else none
  else none

/-! ### The commands -/

/-- A panel frame starts (18 R525). -/
def execPanelFrame (s : State) : Host.Outcome State Fault Refusal := .next (panelFrame s)
/-- A row is driven (18 R527). -/
def execRowPeriod (row : Nat) (s : State) : Host.Outcome State Fault Refusal := .next (rowPeriod row s)
/-- The panel temperature is read (18 R531). -/
def execPanelTempRead (temp : Option Int) (s : State) : Host.Outcome State Fault Refusal :=
  .next (if panelDrives s then panelTemp temp s else s)
/-- A region update is requested (18 R536). -/
def execRegionUpdateRequest (r : Nat) (s : State) : Host.Outcome State Fault Refusal :=
  .next (if s.running .panel && s.panel.scan == .on then requestRegion r s else s)
/-- A render completes (18 R535). -/
def execRenderComplete (r : Nat) (s : State) : Host.Outcome State Fault Refusal := .next (renderComplete r s)
/-- The gates switch off (18 R537). -/
def execDischargeEnd (s : State) : Host.Outcome State Fault Refusal := .next (dischargeEnd s)
/-- F1 to F6 (18 R540). -/
def execFunctionKey (k : Fin 6) (s : State) : Host.Outcome State Fault Refusal := .next (functionKey k.val s)
/-- F6 held (18 R540). -/
def execF6Held (s : State) : Host.Outcome State Fault Refusal :=
  .next (if panelDrives s then s.setPanel (fun p => { p with sysPage := !p.sysPage }) else s)
/-- The key switch changes (18 R544). -/
def execPnlKeyswitch (on : Bool) (s : State) : Host.Outcome State Fault Refusal :=
  .next (if s.mod.domains.getLsbD 11 then keySwitch on s else s)
/-- The key switch contacts disagree (18 R544). -/
def execPnlKeyswitchFault (s : State) : Host.Outcome State Fault Refusal :=
  .next (if s.mod.domains.getLsbD 11 then keySwitchFault s else s)
/-- TAKE (18 R545). -/
def execTake (kind : Fin 3) (index : Nat) (s : State) : Host.Outcome State Fault Refusal :=
  .next (if s.running .panel then takePoint { kind := kind.val, index := index } s else s)
/-- RELEASE of a point, or of all points with kind 3 (18 R547). -/
def execLocalRelease (kind : Fin 4) (index : Nat) (s : State) : Host.Outcome State Fault Refusal :=
  .next (if !s.running .panel then s
    else if kind.val = 3 then endLocals 0 .panel (fun _ => true) s
    else endLocal 0 .panel { kind := kind.val, index := index } s)
/-- A panel command on a held point (18 R546). -/
def execPnlLocalCmd (kind : Fin 3) (index : Nat) (cmd : LocalCmd) (s : State) : Host.Outcome State Fault Refusal :=
  .next (if s.running .panel then localCmd { kind := kind.val, index := index } cmd s else s)
/-- A held + or − key repeats (18 R540). -/
def execKeyRepeat (plus : Bool) (s : State) : Host.Outcome State Fault Refusal := .next (keyRepeat plus s)

end Sys2Proof.Machine
end

