-- ==== Sys2Proof/Machine/Recorder.lean ====
section
/-! DEFINITION. The event recorder (chapter 19): folding, staging, commit, reading and clearing. -/

namespace Sys2Proof.Machine

/-- Records of the event ring and of the audit region (19 R553). -/
def ringSize : Nat := 90048
/-- Records of the audit region. -/
def auditSize : Nat := 8192
/-- Records of the staging FIFO (19 R560). -/
def stagingSize : Nat := 512

/-- The repeat window in use, in units of 0.1 s (19 R568). -/
def repeatWindow (s : State) : Nat := match s.recd.repeatSet with | some n => n | none => s.img.recRepeat

/-- The image value of REC_REPEAT lies in its range (19 R568). -/
def recImageOk (img : ImageCfg) : Bool := 1 ≤ img.recRepeat && img.recRepeat ≤ 36000

/-! ### Record layout (19 R556) -/

/-- The code of an origin in the flags. -/
def originCode : Origin → Nat
  | .module => 0
  | .role r => match r with | .observe => 1 | .operate => 2 | .engineer => 3 | .commission => 4
  | .panel => 5
  | .field => 6

/-- The 30 bytes of a record under its check. -/
def recBody (r : Rec) : List Byte :=
  leBytes 2 r.ev.code ++ leBytes 2 (r.ev.source % 256) ++ leBytes 2 r.rep
    ++ leBytes 2 (b2n r.ev.timeValid + 2 * b2n r.ev.synced + 4 * originCode r.ev.origin + 32 * b2n r.lostBefore
        + 64 * b2n r.audit)
    ++ leBytes 8 r.ev.time.toNat ++ leBytes 4 r.ev.operSecs ++ leBytes 4 r.ev.powerCycles ++ leBytes 4 r.ev.data.toNat
    ++ leBytes 2 r.lastOff

/-- The 32 bytes of a record. -/
def recBytes (r : Rec) : List Byte := recBody r ++ leBytes 2 (crc16 (recBody r)).toNat

/-! ### Sequences and visibility (19 R555) -/

/-- `(uint32)(a - b)`. -/
def seqDiff (a b : Nat) : Nat := (a + 4294967296 - b % 4294967296) % 4294967296

/-- Newest-first records of a region, its next and its oldest visible sequence: 0 the event ring, 1 the audit region. -/
def regionOf (s : State) (region : Nat) : List Rec × Nat × Nat :=
  if region = 0 then (s.recd.ring, s.recd.next, s.recd.oldest)
  else (s.recd.auditRing, s.recd.auditNext, s.recd.auditOldest)

/-- A sequence of a region is visible. -/
def recVisible (s : State) (region q : Nat) : Bool :=
  let g := regionOf s region
  let d := seqDiff g.2.1 q
  1 ≤ d && d ≤ seqDiff g.2.1 g.2.2

/-! ### Folding and staging (19 R554, R559–R561) -/

/-- An event folds into a record (19 R559), visibility apart. In part by log 56 (DEDUCED, unsafe). -/
def folds (s : State) (e : Event) (r : Rec) : Bool :=
  e.code == r.ev.code && e.source == r.ev.source && e.data == r.ev.data && e.code / 4096 != 5
    && r.rep < 65535 && !r.lostBefore && e.mono ≤ r.ev.mono + 1000 * repeatWindow s

/-- The record with one more occurrence. -/
def foldIn (e : Event) (r : Rec) : Rec :=
  { r with rep := r.rep + 1, lastOff := min 65535 ((e.mono - r.ev.mono) / 1000) }

/-- The last element of a list changed. -/
def updLast (f : Rec → Rec) (l : List Rec) : List Rec :=
  match l.reverse with | [] => [] | a :: r => (f a :: r).reverse

/-- The newest record takes the event, where it can: the newest staged record, or else the newest one of the ring.
In part by log 56 (DEDUCED, unsafe). -/
def foldEvent (e : Event) (s : State) : Option State :=
  match s.recd.staging.getLast? with
  | some r =>
    let hidden := s.recd.clearWaits.isSome && s.recd.staging.length == s.recd.clearAfter
    if !hidden && folds s e r then some (s.setRec (fun x => { x with staging := updLast (foldIn e) x.staging })) else none
  | none =>
    match s.recd.ring with
    | r :: rest =>
      if s.recd.clearWaits.isNone && recVisible s 0 r.seq && folds s e r then
        some (s.setRec (fun x => { x with ring := foldIn e r :: rest }))
      else none
    | [] => none

/-- An event is not recorded (19 R561). In part by log 56 (DEDUCED, unsafe). -/
def loseEvent (inEpisode : Bool) (s : State) : State :=
  s.setRec (fun x =>
    { x with lost := satInc top32 x.lost, lostEpisode := if inEpisode then x.lostEpisode + 1 else x.lostEpisode })

/-- An event joins the staging FIFO; after a loss it carries lost-before. In part by log 56 (DEDUCED, unsafe). -/
def stageEvent (e : Event) (s : State) : State :=
  s.setRec (fun x =>
    { x with
      staging := x.staging ++ [{ ev := e, lostBefore := x.lostEpisode != 0, lostN := x.lostEpisode }]
      lostEpisode := 0
      fifoMax := max x.fifoMax (x.staging.length + 1) })

/-- An event raised later than 20 ms after the power-fail warning (19 R561). In part by log 56 (DEDUCED, unsafe). -/
def pastWindow (s : State) (e : Event) : Bool :=
  s.mod.warning && decide (s.mod.warnAt + 20000000 < e.mono * 100000)

/-- An event reaches the recorder: folded, lost or staged (19 R554, R559–R561).
In part by log 56 (DEDUCED, unsafe). -/
def recordOne (e : Event) (s : State) : State :=
  if pastWindow s e then loseEvent false s
  else
    match foldEvent e s with
    | some t => t
    | none => if stagingSize ≤ s.recd.staging.length then loseEvent true s else stageEvent e s

/-- The oldest event that waits reaches the recorder. -/
def recordNext (s : State) : State :=
  match s.recd.inbox with
  | [] => s
  | e :: r => recordOne e (s.setRec (fun x => { x with inbox := r }))

/-! ### Commit (19 R553, R554, R560, R566) -/

/-- An event that the recorder raises and writes itself: it reaches everything but the recorder's inbox. -/
def raiseOwn (k : EvKind) (data : Nat) (o : Origin) (s : State) : Event × State :=
  let e := mkEvent k 0xCF (w32 data) o s
  let inbox := s.recd.inbox
  (e, (deliver k e s).setRec (fun x => { x with inbox := inbox }))

/-- A record is written to the event ring. -/
def writeRing (r : Rec) (s : State) : State :=
  s.setRec (fun x =>
    let n := wrap32 (x.next + 1)
    { x with
      ring := ({ r with seq := x.next } :: x.ring).take ringSize
      next := n
      oldest := if ringSize < seqDiff n x.oldest then wrap32 (x.oldest + 1) else x.oldest })

/-- A record of class 5 is written to the audit region too. -/
def writeAudit (r : Rec) (s : State) : State :=
  if r.ev.code / 4096 != 5 then s
  else
    s.setRec (fun x =>
      let full := decide (auditSize ≤ x.auditRing.length)
      { x with
        auditRing := ({ r with seq := x.auditNext, audit := true } :: x.auditRing).take auditSize
        auditNext := wrap32 (x.auditNext + 1)
        auditOldest := if full then wrap32 (x.auditOldest + 1) else x.auditOldest
        auditOverwritten := if full then x.auditOverwritten + 1 else x.auditOverwritten })

/-- REC_AUDIT_WRAP at the overwrite that brings the count to 1, 8193, 16 385 and so on; `before` is the count before
the write (19 R554). In part by log 56 (DEDUCED, unsafe). -/
def auditWrap (before : Nat) (s : State) : State :=
  let n := s.recd.auditOverwritten
  raiseIf (decide (before < n) && n % auditSize == 1) Ev.REC_AUDIT_WRAP 0xCF (min top32 n) s

/-- One record is committed; REC_LOST follows a record with lost-before, and REC_AUDIT_WRAP the overwrites that
report. In part by log 56 (DEDUCED, unsafe). -/
def commitRec (r : Rec) (s : State) : State :=
  let s1 := writeAudit r (writeRing r s)
  let s2 := if r.lostBefore then
      let p := raiseOwn Ev.REC_LOST r.lostN .module s1
      writeRing { ev := p.1 } p.2
    else s1
  auditWrap s.recd.auditOverwritten s2

/-- The clear takes effect: the records so far are hidden, and its own record is the first visible one (19 R566).
In part by log 56 (DEDUCED, unsafe). -/
def clearNow (s : State) : State :=
  match s.recd.clearWaits with
  | none => s
  | some o =>
    let hidden := seqDiff s.recd.next s.recd.oldest
    let p := raiseOwn Ev.REC_CLEARED hidden o
      (s.setRec (fun x => { x with clearWaits := none, clearAfter := 0, oldest := x.next }))
    auditWrap s.recd.auditOverwritten (writeAudit { ev := p.1 } (writeRing { ev := p.1 } p.2))

/-- Every staged record is committed, and a clear that waits takes effect after the records staged before it.
In part by log 56 (DEDUCED, unsafe). -/
def commitAll (s : State) : State :=
  let l := s.recd.staging
  let k := if s.recd.clearWaits.isSome then s.recd.clearAfter else 0
  let s1 := forAll (l.take k) commitRec (s.setRec (fun x => { x with staging := [] }))
  forAll (l.drop k) commitRec (clearNow s1)

/-- True while the recorder commits: not while it is off, disabled, in FAULT, or inside a function reset, when events
wait in staging (15 R479). In part by log 56 (DEDUCED, unsafe). -/
def recorderCommits (s : State) : Bool :=
  match s.fnState .recorder with
  | .off => false | .reset => false | .disabled => false | .fault => false
  | .pitch => s.mod.state != .run && s.mod.state != .standby
  | _ => true

/-- The recorder's commit. -/
def stagingCommit (s : State) : State := if recorderCommits s then commitAll s else s

/-- A write of REC_CLEAR (19 R566). -/
def recClear (v : W32) (r : Role) (s : State) : Status × State :=
  if !roleAtLeast r .commission then (.role, s)
  else if v != 0xC1EA0001#32 then (.access, s)
  else (.ok, s.setRec (fun x => { x with clearWaits := some (.role r), clearAfter := x.staging.length }))

/-- A write of REC_REPEAT (19 R568). -/
def recRepeatWrite (v : W32) (s : State) : Option State :=
  let n := v.toNat % 65536
  if 1 ≤ n && n ≤ 36000 then some (s.setRec (fun x => { x with repeatSet := some n })) else none

/-! ### Reading (19 R562–R565) -/

/-- The cursor of a sender and role in a region; it starts at the oldest visible sequence. -/
def cursorOf (s : State) (q : Req) (region : Nat) : Nat :=
  match s.recd.cursors.find? (fun c => c.sender == q.sender && c.role == q.role && c.region == region) with
  | some c => c.cur
  | none => (regionOf s region).2.2

/-- The cursor set. -/
def setCursor (q : Req) (region v : Nat) (s : State) : State :=
  s.setRec (fun x =>
    { x with cursors :=
        { sender := q.sender, role := q.role, region := region, cur := v }
          :: x.cursors.filter (fun c => !(c.sender == q.sender && c.role == q.role && c.region == region)) })

/-- The record with a sequence of a region. -/
def recAt (s : State) (region q : Nat) : Option Rec := (regionOf s region).1.find? (fun r => r.seq == q)

/-- A record fails its check when it is read: it is counted, and announced once (19 R562). -/
def badRecord (region q : Nat) (s : State) : State :=
  match recAt s region q with
  | none => s
  | some r =>
    let mark := fun (l : List Rec) => updFirst (fun x => x.seq == q) (fun x => { x with badRaised := true }) l
    let s1 := s.setRec (fun x =>
      { x with
        bad := satInc top32 x.bad
        ring := if region = 0 then mark x.ring else x.ring
        auditRing := if region = 0 then x.auditRing else mark x.auditRing })
    raiseIf (!r.badRaised) Ev.REC_RECORD_BAD 0xCF (region + 256 * (q % 16777216)) s1

/-- The answer to RECWIN: records from the cursor on. `bad` names the records, counted from the cursor, whose stored
check fails. -/
def recWindow (q : Req) (region count : Nat) (bad : List Nat) (s : State) : State :=
  let g := regionOf s region
  let c0 := cursorOf s q region
  let seen := recVisible s region c0 || c0 == g.2.1
  let c := if seen then c0 else g.2.2
  let n := min count (seqDiff g.2.1 c)
  let seqs := (List.range n).map (fun i => wrap32 (c + i))
  let bads := (List.range n).filter (fun i => bad.contains i)
  let newest := if region = 0 then (match g.1 with | r :: _ => r.rep | [] => 0) else 0
  let body := leBytes 4 c ++ leBytes 1 n ++ leBytes 1 (b2n (!seen) + 2 * b2n (n == 0))
    ++ leBytes 2 ((bads.map (fun i => 2 ^ i)).sum) ++ leBytes 2 newest ++ leBytes 2 0
    ++ seqs.flatMap (fun x => match recAt s region x with | some r => recBytes r | none => [])
  let s1 := setCursor q region (wrap32 (c + n)) s
  reply q .ok 0 0 body (forAll bads (fun i t => badRecord region (wrap32 (c + i)) t) s1)

/-- RECWIN (19 R563). In part by log 56 (DEDUCED, unsafe). -/
def recWin (q : Req) (bad : List Nat) (s : State) : State :=
  let region := leAt q.payload 0 1
  let count := leAt q.payload 1 1
  if 1 < region || count < 1 || 16 < count then answer q .format s else recWindow q region count bad s

/-- RECCURSOR (19 R565). -/
def recCursor (q : Req) (s : State) : State :=
  let region := leAt q.payload 0 1
  let op := leAt q.payload 1 1
  let v := leAt q.payload 4 4
  let g := regionOf s region
  if 1 < region || 2 < op then answer q .format s
  else if op = 1 then answer q .ok (setCursor q region g.2.2 s)
  else if op = 2 then answer q .ok (setCursor q region g.2.1 s)
  else if recVisible s region v || v == g.2.1 then answer q .ok (setCursor q region v s)
  else answer q .access s

/-! ### Reset and objects (15 R479; 19 R567, R568) -/

/-- A function reset of 0x07: staged records are committed first, and the repeat window returns to the image. -/
def resetRecorder (s : State) : State := (commitAll s).setRec (fun x => { x with repeatSet := none })

/-- What a module start clears in the recorder. -/
def restartRecorder (s : State) : State :=
  s.setRec (fun x => { x with bad := 0, fifoMax := x.staging.length, repeatSet := none, cursors := [] })

/-- Blocks of function 0x07. -/
def recObj (s : State) (blk off : Nat) : Option Nat :=
  let x := s.recd
  if blk = 2 then
    if off = 0 then some x.next
    else if off = 4 then some x.oldest
    else if off = 8 then some x.auditNext
    else if off = 0xC then some x.auditOldest
    else if off = 0x10 then some x.lost
    else if off = 0x14 then some (x.staging.length + 65536 * x.fifoMax)
    else if off = 0x18 then some x.bad
    else none
  else if blk = 3 then
    if off = 0 then some (repeatWindow s) else if off = 4 then some 0 else none
  else none

/-! ### The commands -/

/-- An event reaches the recorder (19 R554). -/
def execRecordEvent (s : State) : Host.Outcome State Fault Refusal := .next (recordNext s)
/-- Staged records are committed (19 R560). -/
def execStagingCommit (s : State) : Host.Outcome State Fault Refusal := .next (stagingCommit s)
/-- REC_CLEAR (19 R566). -/
def execRecClear (v : W32) (r : Role) (s : State) : Host.Outcome State Fault Refusal := .next (recClear v r s).2
/-- RECWIN (19 R563). -/
def execRecwin (m : Msg) (bad : List Nat) (s : State) : Host.Outcome State Fault Refusal :=
  .next (onSized m 8 .observe 2 (fun q t => recWin q bad t) s)
/-- RECCURSOR (19 R565). -/
def execReccursor (m : Msg) (s : State) : Host.Outcome State Fault Refusal :=
  .next (onSized m 9 .observe 8 recCursor s)

end Sys2Proof.Machine
end

