-- ==== Sys2Proof/Machine/Redundancy.lean ====
section
/-! DEFINITION. Time-redundant execution and comparison (chapter 10): the compare of a segment, the divergence
repeat, comparator faults, parity repair and the comparator test. -/

namespace Sys2Proof.Machine

/-! ### Value transforms (10 R298) -/

/-- The coded form of a binary32 value: −2x in the extended format. -/
def codedF32 (x : F32) : BitVec 40 :=
  let n := x.toNat
  let sign := 1 - n / 2147483648
  let e := n / 8388608 % 256
  let f := n % 8388608
  let w : Nat × Nat × Nat :=
    if e = 255 then (if f = 0 then (sign, 511, 0) else (1, 511, 4194304))
    else if e = 0 then
      if f = 0 then (sign, 0, 0)
      else
        let k := Nat.log2 f
        (sign, k + 107, f * 2 ^ (23 - k) % 8388608)
    else (sign, e + 129, f)
  BitVec.ofNat 40 (w.1 * 2 ^ 39 + w.2.1 * 2 ^ 30 + w.2.2 * 128)

/-- The coded form of a logged value, chosen by INDEX[8] and KIND[0]. -/
def coded (w : LaneWrite) : BitVec 40 :=
  let v : W32 := w.data.extractLsb' 0 32
  if w.kind.getLsbD 0 then BitVec.ofNat 40 (0xFF00000000 + (~~~v).toNat)
  else if w.index.getLsbD 8 then codedF32 v
  else BitVec.ofInt 40 (59 * v.toInt)

/-- A write of pass C equals the transform of its log entry. -/
def laneEqual (log c : LaneWrite) : Bool := log.index == c.index && log.kind == c.kind && coded log == c.data

/-! ### The compare of a segment (10 R297) -/

/-- How a segment compares. -/
inductive SegResult where
  | equal
  /-- A mismatch on the load of an asynchronous entry. -/
  | load (w : LaneWrite)
  | mismatch (index kind : Nat)
deriving DecidableEq, Repr

/-- The first write that differs, the write beyond the log, or the logged write that pass C did not make.
In part by log 38 (DEDUCED, unsafe). -/
def compareWrites : List LaneWrite → List LaneWrite → SegResult
  | [], [] => .equal
  | [], c :: _ => .mismatch c.index.toNat c.kind.toNat
  | w :: _, [] => .mismatch w.index.toNat w.kind.toNat
  | w :: l, c :: r =>
    if laneEqual w c then compareWrites l r
    else if w.kind.getLsbD 1 then .load w else .mismatch w.index.toNat w.kind.toNat

/-- The result of a segment: its writes, its end, its length. In part by log 38 (DEDUCED, unsafe). -/
def compareSeg (r : SegRun) : SegResult :=
  match compareWrites r.log r.passC with
  | .equal => if !r.reached || 4 * r.cyclesP < r.cyclesC then .mismatch 0 0 else .equal
  | x => x

/-! ### The unit of an engine -/

/-- The unit in progress of an engine, where one is. -/
def runOf (s : State) (e : Engine) (n : Nat) : Option UnitRun :=
  match e with
  | .logic => if s.running .logic && (taskOf s n).state == .running then some (taskOf s n).unit else none
  | .loop => if s.running .loop && (loopOf s n).due then some (loopOf s n).unit else none
  | .bedrock => if s.running .bedrock then some s.bedrock.unit else none
  | .alarm => none

/-- The unit of an engine changed. -/
def setUnitRun (e : Engine) (n : Nat) (f : UnitRun → UnitRun) (s : State) : State :=
  match e with
  | .logic => s.setTask n (fun t => { t with unit := f t.unit })
  | .loop => s.setLp n (fun x => { x with unit := f x.unit })
  | .bedrock => s.setBr (fun b => { b with unit := f b.unit })
  | .alarm => s

/-- A sample or a safety cycle opens its unit at its first segment: pass P samples the asynchronous entries. -/
def openUnit (e : Engine) (n : Nat) (s : State) : State :=
  let reads := match e with
    | .loop => loopReads (loopRow s n)
    | .bedrock => brReads s
    | _ => []
  match e, runOf s e n with
  | .logic, _ => s
  | _, some u =>
    if u.active then s
    else setUnitRun e n (fun _ => { active := true, samples := sampleAsync s reads, start := s.now }) s
  | _, none => s

/-- A comparator fault and the reaction of its engine (10 R308). In part by log 38 (DEDUCED, unsafe). -/
def comparatorFault (e : Engine) (n index kind : Nat) (inRepeat : Bool) (s : State) : State :=
  let c := engineCode e
  let s1 := (s.setTrx c (fun x =>
    { x with faults := satInc top32 x.faults, lastIndex := index, lastKind := kind, lastRepeat := inRepeat
             lastUnit := n })).setMod (fun m => { m with cmpLatched := true })
  let s2 := raiseN Ev.COMPARATOR_FAULT 0xFA (c + 4 * b2n inRepeat + 8 * index + 4096 * kind + 65536 * (n % 65536)) s1
  match e with
  | .logic => taskFault n 1 s2
  | .loop => loopFault n s2
  | .bedrock => tripAll 6 (setUnitRun .bedrock 0 (fun _ => {}) s2)
  | .alarm => s2

/-- The unit is discarded and runs once more from its start, from one snapshot (10 R304, R310). -/
def repeatUnit (e : Engine) (n : Nat) (entry : Option Nat) (s : State) : State :=
  let s1 := s.setTrx (engineCode e) (fun x => { x with repeats := satInc top32 x.repeats })
  let s2 := match entry with
    | some i => s1.setDiv i (fun d => { d with total := satInc top32 d.total })
    | none => s1
  setUnitRun e n (fun u =>
    let snapshot := u.samples.map (fun p => (p.1, readEntry s p.1))
    { u with repeated := true, divEntry := entry, done := false, samples := snapshot, samplesC := snapshot }) s2

/-! ### Parity (10 R309–R312) -/

/-- One copy is rebuilt from the other. -/
def parityRepair (e : Engine) (coded scrub : Bool) (word : Nat) (s : State) : State :=
  let c := engineCode e
  raiseN Ev.PARITY_REPAIRED 0xFB (c + 4 * b2n coded + 8 * b2n scrub + 256 * (word % 16777216))
    ((s.setTrx c (fun x => { x with repairs := satInc top32 x.repairs })).setMod (fun m => { m with parityRepair := true }))

/-- Both copies of a variable are flagged: the owning function enters FAULT. -/
def parityLost (e : Engine) (word : Nat) (s : State) : State :=
  faultFn (engineFn e) 0x808 (raiseN Ev.PARITY_UNCORRECTABLE 0xFB (engineCode e + 256 * (word % 16777216)) s)

/-- What the scrub finds in the state of an engine. -/
def scrubHit (p : Engine × ParityHit) (s : State) : State :=
  match p.2 with
  | .one c w => parityRepair p.1 c true w s
  | .both w => parityLost p.1 w s
  | _ => s

/-! ### A segment pair -/

/-- The raw samples of pass C against those of pass P, once in a unit (10 R306).
In part by log 38 (DEDUCED, unsafe). -/
def pairSamples (e : Engine) (n : Nat) (sc : List (Nat × Qv)) (s : State) : State :=
  match runOf s e n with
  | none => s
  | some u =>
    if u.paired || sc.isEmpty then s
    else
      let s1 := forAll u.samples (fun p t =>
        match sc.find? (fun q => q.1 == p.1) with
        | some q => divPair p.1 (q.2.val == p.2.val) t
        | none => t) s
      setUnitRun e n (fun x => { x with paired := true, samplesC := sc }) s1

/-- The write log and the register files after a segment pair: pass P wrote the plain file, pass C the coded one
(10 R294, R296, R297). In part by log 38 (DEDUCED, unsafe). -/
def keepWrites (r : SegRun) (x : TrxSt) : TrxSt :=
  { x with
    wlog := r.log
    plainRegs := r.log.foldl (fun t w => t.upd w.index.toNat (fun _ => w.data)) x.plainRegs
    codedRegs := r.passC.foldl (fun t w => t.upd w.index.toNat (fun _ => w.data)) x.codedRegs
    maxSeg := min top16 (max x.maxSeg (r.cyclesP + r.cyclesC)) }

/-- The end of a segment of pass C, without parity errors. -/
def segmentEnd (e : Engine) (n : Nat) (r : SegRun) (u : UnitRun) (s : State) : State :=
  let s1 := s.setTrx (engineCode e) (keepWrites r)
  match compareSeg r with
  | .equal =>
    let s2 := pairSamples e n r.samplesC s1
    if r.last then
      let v := match runOf s2 e n with | some x => x | none => u
      setUnitRun e n (fun x => { x with done := true }) (unitEqual e n v s2)
    else s2
  | .load w =>
    if u.repeated then comparatorFault e n w.index.toNat w.kind.toNat true s1 else repeatUnit e n (some w.entry) s1
  | .mismatch i k => comparatorFault e n i k u.repeated s1

/-- Pass C completes a segment (10 R297, R304, R308–R311). The alarm engine has no passes; its reads meet parity
errors alone. In part by log 38 (DEDUCED, unsafe). -/
def segmentCompare (e : Engine) (n : Nat) (r : SegRun) (s0 : State) : State :=
  let s := openUnit e n s0
  match e with
  | .alarm =>
    if !s.running .alarm then s
    else match r.parity with
      | .one c w => parityRepair .alarm c false w s
      | .both w => parityLost .alarm w s
      | _ => s
  | _ =>
    match runOf s e n with
    | none => s
    | some u =>
      if u.done then s
      else
        match r.parity with
        | .none => segmentEnd e n r u s
        | .one c w => segmentEnd e n r u (parityRepair e c false w s)
        | .both w => parityLost e w s
        | .transient => if u.repeated then comparatorFault e n 0 0 true s else repeatUnit e n none s

/-! ### The comparator test (10 R313–R315) -/


/-- An engine stands at an idle point (R314). -/
def engineIdle (s : State) (e : Engine) : Bool :=
  match e with
  | .logic => !s.logic.tasks.any (fun p => p.2.state == .ready || inProgress p.2)
  | .loop => !s.loops.lps.any (fun p => p.2.due)
  | .bedrock => !s.bedrock.unit.active
  | .alarm => false

/-- The daily test of an engine is due or under way. -/
def dailyDue (s : State) (e : Engine) : Bool :=
  let x := s.trx.look (engineCode e)
  x.daily || x.testAt + 86400 ≤ operSecs s

/-- A part of the daily test: the cases up to `upto`, and those that gave the wrong result.
In part by log 38 (DEDUCED, unsafe). -/
def testPart (e : Engine) (upto : Nat) (fails : List Nat) (s : State) : State :=
  let c := engineCode e
  let x := s.trx.look c
  let on := s.running (engineFn e) || s.fnState (engineFn e) == .standby
  if e = .alarm || !on || !engineIdle s e || !dailyDue s e || upto ≤ x.nextCase || 106 < upto then s
  else
    match (List.range 106).find? (fun k => x.nextCase ≤ k && k < upto && fails.contains k) with
    | some k =>
      enterHold .comparatorTest
        (raiseN Ev.COMPARATOR_TEST_FAIL 0xFA (c + 4 + 256 * k)
          (s.setTrx c (fun y => { y with result := 2, firstFail := k, daily := false, nextCase := 0, partPassed := 0 })))
    | none =>
      if upto < 106 then s.setTrx c (fun y => { y with daily := true, nextCase := upto, partPassed := upto })
      else
        raiseN Ev.COMPARATOR_TEST_PASS 0xFA (c + 4)
          (s.setTrx c (fun y =>
            { y with passed := 106, result := 1, firstFail := 0xFFFF, testAt := operSecs s, daily := false
                     overdue := false, nextCase := 0, partPassed := 0 }))

/-- The daily test has not completed 1 h after it fell due. -/
def testOverdue (e : Engine) (s : State) : State :=
  if e = .alarm || !dailyDue s e then s else s.setTrx (engineCode e) (fun y => { y with overdue := true })

/-! ### Object blocks (10 R316, R317) -/

/-- Blocks 0x04 and 0x05 of function 0x00. -/
def trxObj (s : State) (blk off : Nat) : Option Nat :=
  if blk = 4 then
    if 0x80 ≤ off then none
    else
      let e := off / 32
      let x := s.trx.look e
      let k := off % 32
      some (
        if k = 0 then
          if e = 3 then 0
          else x.passed + 256 * x.result + 1024 * b2n x.daily + 2048 * b2n x.overdue + 65536 * x.firstFail
        else if k = 4 then (if e = 3 then 0 else x.testAt)
        else if k = 8 then (if e = 3 then 0 else x.faults)
        else if k = 0xC then (if e = 3 then 0 else x.repeats)
        else if k = 0x10 then x.repairs
        else if k = 0x14 then
          (if e = 3 then 0 else x.lastIndex + 512 * x.lastKind + 2048 * b2n x.lastRepeat + 65536 * (x.lastUnit % 65536))
        else if k = 0x18 then (if e = 3 then 0 else x.maxSeg)
        else 0)
  else if blk = 5 then
    let i := s.divSel
    let d := s.div.look i
    let l := s.lay i
    if off = 0 then some i
    else if off = 4 then
      some (d.count + 16 * (if l.async then l.divLimit else 0) + 256 * b2n d.flag + 512 * b2n l.async + 65536 * d.run)
    else if off = 8 then some d.total
    else if off = 0xC then some ((s.div.filter (fun p => p.2.flag)).length % 65536)
    else none
  else none

/-! ### Commands -/

/-- SEGMENT_COMPARE. -/
def execSegmentCompare (e : Engine) (unit : Nat) (r : SegRun) (s : State) : Host.Outcome State Fault Refusal :=
  .next (segmentCompare e unit r s)
/-- SCRUB. -/
def execScrub (hits : List (Engine × ParityHit)) (s : State) : Host.Outcome State Fault Refusal :=
  .next (forAll hits scrubHit s)
/-- COMPARATOR_TEST_PART. -/
def execComparatorTestPart (e : Engine) (upto : Nat) (fails : List Nat) (s : State) :
    Host.Outcome State Fault Refusal := .next (testPart e upto fails s)
/-- COMPARATOR_TEST_OVERDUE. -/
def execComparatorTestOverdue (e : Engine) (s : State) : Host.Outcome State Fault Refusal := .next (testOverdue e s)

end Sys2Proof.Machine
end

