-- ==== Sys2Proof/Machine/Rows.lean ====
section
/-! DEFINITION. Accepting and refusing the rows of banks, groups and axes at PITCH and at an online change
(03 R100, R105; 04 R108, R109, R139; 06 R184, R185). -/

namespace Sys2Proof.Machine

/-! ### The writer of an output (06 R184, R185) -/

/-- The writer that the layout names for what an entry stands for. -/
def writerOf (img : ImageCfg) (r : Ref) : Writer :=
  match img.layout.find? (fun p => p.2.ref == r && p.2.out) with | some p => p.2.writer | none => .none

/-- The period of a periodic writer in ns. -/
def writerPeriod (img : ImageCfg) : Writer → Nat
  | .task n => match (img.logic.tasks.look n).kind with | .periodic => (img.logic.tasks.look n).n * 250000 | _ => 0
  | .loop n => (img.loops.rows.look n).tsN * 125000
  | .safety _ => img.bedrock.cycle * 1000000
  | _ => 0

/-- A watchdog time in ms is at least twice its writer's period (06 R185). -/
def wdPeriodOk (img : ImageCfg) (r : Ref) (ms : Nat) : Bool := 2 * writerPeriod img (writerOf img r) ≤ ms * 1000000

/-- The safe state of an output that a safety function writes is the function's own: OFF, or ON where it is
energise-to-trip (06 R184). -/
def wdSafeOk (img : ImageCfg) (r : Ref) (safe : Nat) : Bool :=
  match writerOf img r with
  | .safety f => safe == b2n (img.bedrock.fns.look f).ett
  | _ => true

/-! ### Bank rows -/

/-- A role in place on a terminal: its code, the row that gave it, and whether it drives the terminal. -/
structure Placed where
  t : Nat := 0
  k : Nat := 0
  row : Nat := 0
  drives : Bool := false
deriving DecidableEq, Repr, Inhabited

/-- The roles of a row in place; a passive output drives nothing (04 R106). The D role of a 4-wire row stands only
where its borrow was granted. -/
def rowPlaced (r : ChCfg) (c : Nat) (granted : List (Nat × Nat)) : List Placed :=
  ((rowRoles r c).filter (fun p => r.mode != 0x0A || p.2 != 6 || granted.contains (termD r c, c))).map (fun p =>
    { t := p.1, k := p.2, row := c, drives := isDriver p.2 && !(0x13 ≤ r.mode && r.mode ≤ 0x15) })

/-- The borrows granted, in ascending channel order (04 R108): terminal and row.
In part by log 25 (DEDUCED, unsafe). -/
def grantBorrows (rows : Nat → ChCfg) : List Nat → List (Nat × Nat) → List (Nat × Nat)
  | [], g => g
  | c :: rest, g =>
    let r := rows c
    let t := termD r c
    if r.mode = 0x0A ∧ t < 48 ∧ t % 3 = 2 ∧ t / 3 ≠ c ∧ ¬ g.any (fun p => p.1 == t) then
      grantBorrows rows rest (g ++ [(t, c)])
    else grantBorrows rows rest g

/-- Refusal codes 0x01 to 0x07 in code order (03 R100). In part by log 25 (DEDUCED, unsafe). -/
def ownCode (img : ImageCfg) (b c : Nat) (r : ChCfg) : Nat :=
  let m := r.mode
  let ref := Ref.aoOut b c
  let act := failAction r
  if !(m == 0 || isInMode m || isOutMode m) then 0x01
  else if isActiveCur m && (decide (r.vlim < 12000) || decide (26000 < r.vlim)) then 0x02
  else if isInMode m && r.ne43 && !(m == 1 || m == 2) then 0x03
  else if !isOutMode m then 0
  else if act == 0 && !is420 m then 0x03
  else if !(F32.le (aoRange m).1 r.safeVal && F32.le r.safeVal (aoRange m).2) then 0x04
  else if !(r.safe == 0 || r.safe == 2 || r.safe == 3) || !wdSafeOk img ref r.safe then 0x05
  else if r.wdTime < 10 || 60000 < r.wdTime || !wdPeriodOk img ref r.wdTime then 0x06
  else if 2 < act then 0x07
  else 0

/-- What the rows checked before a row have taken (04 R109). -/
structure RowsSoFar where
  placed : List Placed := []
  /-- R_ELEM of the potentiometer rows. -/
  elems : List Nat := []
  /-- Slot entries bound. -/
  slots : List Nat := []
deriving DecidableEq, Repr, Inhabited

/-- The ratiometric load of some elements is above 30 mA (04 R109, R111). -/
def ratioOver (elems : List Nat) : Bool :=
  let f := elems.foldl (fun a r => (a.1 * r + 2500 * a.2, a.2 * r)) (0, 1)
  decide (30 * f.2 < f.1)

/-- The excitation terminals of a row: out and return. -/
def excTerms (r : ChCfg) (c : Nat) : Nat × Nat :=
  (((rowRoles r c).find? (fun p => p.2 == 5)).elim 48 (·.1), ((rowRoles r c).find? (fun p => p.2 == 6)).elim 48 (·.1))

/-- Codes 0x25, 0x2E and 0x30: `1` the entry of SLOT does not serve the row, `3` its sub-slots lack a cross-check. -/
def slotServes (t : Tab SlotEntry) (r : ChCfg) (c : Nat) : Bool :=
  match r.slot with
  | none => false
  | some n =>
    let e := t.look n
    slOn e && slOut e == (excTerms r c).1 && slRet e == (excTerms r c).2
      && (r.mode != 9 || slSub e == 1 || slSub e == 3)

/-- The entry that a row binds. -/
def rowEntry (t : Tab SlotEntry) (r : ChCfg) : SlotEntry := match r.slot with | some n => t.look n | none => {}

/-- Refusal codes 0x20 to 0x34 (04 R109): 0x31 to 0x34 first, the rest in code order. `refused` says that the slot
table itself is refused (04 R139). In part by log 25 (DEDUCED, unsafe). -/
def crossCode (img : ImageCfg) (t : Tab SlotEntry) (refused : Bool) (granted : List (Nat × Nat)) (z : RowsSoFar) (c : Nat)
    (r : ChCfg) : Nat :=
  let m := r.mode
  let mine := rowPlaced r c granted
  let isIn := isInMode m
  let others := fun (x : Nat) => z.placed.filter (fun p => p.t == x && p.row != c)
  let own := fun (x : Nat) => mine.filter (fun p => p.t == x)
  let terms := (mine.map (·.t)).eraseDups
  let exc := fun (k : Nat) => k == 5 || k == 6 || k == 7 || k == 8 || k == 11
  let shunt := fun (k : Nat) => k == 3 || k == 4
  let flag := fun (n : Nat) => decide (1 < n)
  let test := testOf r
  if m = 0 then 0
  else if 48 ≤ termA r c || 48 ≤ termB r c || (usesC m && 48 ≤ termC r c) then 0x31
  else if m == 0x0C && (r.rElem < 200 || 10000 < r.rElem) then 0x32
  else if isIn && 4 < r.notch then 0x33
  else if flag test || flag r.bias || ((m == 1 || m == 2) && flag r.wbCur) || (isIn && flag r.safety)
    || (isExcited m && (match r.slot with | some n => decide (32 ≤ n) | none => false)) then 0x34
  else if terms.any (fun x => 1 < ((others x ++ own x).filter (·.drives)).length) then 0x20
  else if terms.any (fun x => (others x ++ own x).any (fun p => exc p.k) && (others x ++ own x).any (fun p => shunt p.k)) then 0x21
  else if terms.any (fun x => (!(others x).isEmpty) && (others x ++ own x).any (fun p => isOutRole p.k)) then 0x22
  else if usesC m && granted.any (fun g => g.1 == 3 * c + 2 && g.1 == termC r c) then 0x23
  else if m == 0x0A && !granted.contains (termD r c, c) then 0x24
  else if isExcited m && (refused || !slotServes t r c) then 0x25
  else if isExcited m && !windowOk r (rowEntry t r) then 0x26
  else if m == 0x0C && ratioOver (r.rElem :: z.elems) then 0x27
  else if isIn && 0x0E < r.rate then 0x28
  else if isIn && r.notch != 0 && 200 < rateOf r.rate then 0x29
  else if isIn && r.notch == 4
    && !(match r.trackPt with
      | some gp => dpIsIn (img.points.look (8 * gp.1 + gp.2)).mode && (img.points.look (8 * gp.1 + gp.2)).count != 0
      | none => false) then 0x2A
  else if isIn && test == 1 && 100 < rateOf r.rate then 0x2B
  else if test == 1 && !((3 ≤ m && m ≤ 5) || m == 0x0B) then 0x2C
  else if terms.any (fun x => (!(others x).isEmpty) && (others x ++ own x).any (fun p => p.k == 3)) then 0x2D
  else if isExcited m && (match r.slot with | some n => z.slots.contains n | none => false) then 0x2E
  else if r.bias == 1 && !((3 ≤ m && m ≤ 5) || m == 0x0B) then 0x2F
  else if isExcited m && r.safety == 1 && !(slSub (rowEntry t r) == 2 || slSub (rowEntry t r) == 3) then 0x30
  else 0

/-- The refusal code of a row: the first rule broken, in the order of 03 R100. In part by log 25 (DEDUCED, unsafe). -/
def rowCode (img : ImageCfg) (b : Nat) (refused : Bool) (granted : List (Nat × Nat)) (z : RowsSoFar) (c : Nat) : Nat :=
  let k := img.banks.look b
  let r := k.rows.look c
  let a := ownCode img b c r
  if a != 0 then a
  else
    let x := crossCode img k.slots refused granted z c r
    if x != 0 then x
    else if isInMode r.mode then linCode r (match r.compSrc with | some _ => compEntryOk img b c r.compEntry | none => true)
    else 0

/-- What a row adds to those after it. -/
def rowTaken (r : ChCfg) (c : Nat) (granted : List (Nat × Nat)) (z : RowsSoFar) : RowsSoFar :=
  { placed := z.placed.filter (fun p => p.row != c) ++ rowPlaced r c granted
    elems := if r.mode = 0x0C then r.rElem :: z.elems else z.elems
    slots := if isExcited r.mode then r.slot.toList ++ z.slots else z.slots }

/-- The codes of the rows in a list, checked in its order. A refused row's roles and its borrow are removed before
the next row is checked (04 R109). In part by log 25 (DEDUCED, unsafe). -/
def checkRows (img : ImageCfg) (b : Nat) (refused : Bool) :
    List Nat → List (Nat × Nat) → RowsSoFar → List (Nat × Nat)
  | [], _, _ => []
  | c :: rest, granted, z =>
    let code := rowCode img b refused granted z c
    if code = 0 then (c, 0) :: checkRows img b refused rest granted (rowTaken ((img.banks.look b).rows.look c) c granted z)
    else
      (c, code) :: checkRows img b refused rest (granted.filter (fun p => p.2 != c))
        { z with placed := z.placed.filter (fun p => p.row != c) }

/-- The codes of the rows `todo` of a bank; the rows `kept` run on and hold their roles. -/
def bankCodes (img : ImageCfg) (b : Nat) (kept todo : List Nat) : List (Nat × Nat) :=
  let k := img.banks.look b
  let granted := grantBorrows k.rows.look todo (grantBorrows k.rows.look kept [])
  let borrows : List Placed := (granted.map (fun p => ({ t := p.1, k := 6, row := p.2, drives := false } : Placed)))
  checkRows img b (subsFail k.slots).isSome todo granted
    (forAll kept (fun c z => rowTaken (k.rows.look c) c granted z) { placed := borrows })

/-- A row configured with its code: inputs settle as the image shows (04 R130), latches stay, and the notch starts
LOCKED where a valid measurement exists (04 R129). -/
def configureRow (b c code : Nat) (s : State) : State :=
  let r := s.chCfg b c
  let x := s.ch b c
  let m := if code = 0 then r.mode else 0
  let out := isOutMode m
  let s1 := s.setCh b c (fun _ =>
    { result := code, mode := m, readback := x.readback, supply := x.supply, headroom := x.headroom
      backfeed := x.backfeed && (out || m == 2), rbMismatch := x.rbMismatch && out, stageOff := x.stageOff && out
      ne43 := x.ne43 && out, rbEntry := x.rbEntry, wd := { since := s.now }
      lead := if m = 8 then r.lead else x.lead
      lastFreq := x.lastFreq, notchLen := x.notchLen, notchFreq := x.notchFreq
      track := if isInMode m && r.notch == 4 then (if 4500 ≤ x.lastFreq && x.validSince.isSome then .locked else .fallback)
        else .off
      validSince := x.validSince })
  if isInMode m then settleVisible b c false s1 else s1

/-- One row of a bank pitched, with CH_ROW_REFUSED where it is refused (03 R100).
In part by log 25 (DEDUCED, unsafe). -/
def pitchRow (b : Nat) (p : Nat × Nat) (s : State) : State :=
  raiseIf (p.2 != 0) Ev.CH_ROW_REFUSED (chSrc b p.1) p.2 (configureRow b p.1 p.2 s)

/-- A bank pitched from the image (03 R80, R100; 04 R108, R109, R139). In part by log 25 (DEDUCED, unsafe). -/
def pitchBank (b : Nat) (s : State) : State :=
  let t := (s.img.banks.look b).slots
  let s1 := s.setBank b (fun k =>
    { k with slotAct := t, slotShd := t, slotPend := none, lanes := [] })
  let s2 := match subsFail t with
    | some n => raiseN Ev.SLOT_TABLE_REFUSED (chSrc b 0) n s1
    | none => s1
  let s3 := forAll (bankCodes s2.img b [] (List.range 16)) (pitchRow b) s2
  forRange 4 (laneRestart b t) (decideDir b s3)

/-- The outputs of a bank resume at the values in their output entries, with their watchdogs in RUN (03 R105;
06 R182). -/
def resumeBank (b : Nat) (s : State) : State :=
  forRange 16 (fun c t => if isOutMode (t.ch b c).mode then wdRestart (.aoOut b c) t else t) s

/-- A function reset of a bank before it is pitched again (03 R105; 04 R146): stages off, latches, clamps and open
procedures cleared. -/
def resetBank (b : Nat) (s : State) : State :=
  let s1 := switchOffBank b s
  let s2 := forRange 16 (fun c t => t.setCh b c (fun x =>
    { (default : ChSt) with
      readback := x.readback, supply := x.supply, headroom := x.headroom, lead := x.lead, lastFreq := x.lastFreq
      notchLen := x.notchLen, notchFreq := x.notchFreq, validSince := x.validSince })) s1
  s2.setBank b (fun k =>
    { k with trim := {}, clampLive := 0, clampLatch := 0, slotPend := none, subResult := 0, subEntry := 0, linBrowse := 0
             ratioLimit := false })

/-- A row without its linearisation fields, which output rows ignore (05 R147). -/
def frontOnly (r : ChCfg) : ChCfg :=
  { r with
    linSet := 0, linC := [], xmin := 0, xmax := 0, compSrc := none, compEntry := 0, compFixed := 0, gain := 0, offset := 0
    spanLo := 0, spanHi := 0, spanBand := 0, badPolicy := 0, subst := 0, ride := 0 }

/-- One row of a bank at an online change: a change of linearisation fields alone does not settle it, and a running
ride-through continues under policy 2 or 3 (05 R161). -/
def switchRow (o n : ChCfg) (b : Nat) (p : Nat × Nat) (s : State) : State :=
  if isInMode n.mode && frontOnly o == frontOnly n && p.2 == 0 && (s.ch b p.1).result == 0 then
    s.setCh b p.1 (fun x => { x with riding := x.riding && (n.badPolicy == 2 || n.badPolicy == 3) })
  else
    let u := pitchRow b p s
    if isOutMode (u.ch b p.1).mode then driveAo b p.1 u else u

/-- An online change of a bank's record: the rows that differ are reconfigured (02 R57; 03 R74; 04 R109), and a changed
slot table becomes pending (04 R122). `old` is the image before the switch. -/
def switchBank (old : ImageCfg) (b : Nat) (s : State) : State :=
  let o := old.banks.look b
  let n := s.img.banks.look b
  let differs := fun (c : Nat) =>
    frontOnly (o.rows.look c) != frontOnly (n.rows.look c) || (isInMode (n.rows.look c).mode && o.rows.look c != n.rows.look c)
  let todo := (List.range 16).filter differs
  let kept := (List.range 16).filter (fun c => !todo.contains c && (s.ch b c).result == 0)
  let s1 := forAll (bankCodes s.img b kept todo) (fun p t => switchRow (o.rows.look p.1) (n.rows.look p.1) b p t) s
  if o.slots = n.slots then s1 else s1.setBank b (fun k => { k with slotPend := some n.slots })

/-! ### Groups and axes -/

/-- The rows of a group pitched (06 R186, R192). -/
def pitchGroupNow (g : Nat) (s : State) : State :=
  pitchGroup (fun g p => wdSafeOk s.img (.doOut g p) (s.dpCfg g p).safe)
    (fun g p => wdPeriodOk s.img (.doOut g p) (s.dpCfg g p).wdTime) g s

/-- An online change of a group's record: the rows that differ are reconfigured. -/
def switchGroup (old : ImageCfg) (g : Nat) (s : State) : State :=
  forRange 8 (fun p t =>
    if old.points.look (8 * g + p) = t.dpCfg g p then t
    else
      let u := pitchPoint (fun g p => wdSafeOk t.img (.doOut g p) (t.dpCfg g p).safe)
        (fun g p => wdPeriodOk t.img (.doOut g p) (t.dpCfg g p).wdTime) g p t
      driveDo g p u) s

/-- The refusal code of the row of axis `a` in an image. In part by log 25 (DEDUCED, unsafe). -/
def axisRowCode (img : ImageCfg) (a : Nat) : Nat :=
  let r := img.axes.look a
  axisCode r (fun p => dpIsIn (img.points.look p).mode) (fun k => ((img.banks.look (k / 16)).rows.look (k % 16)).mode)
    (r.mode == 2 && r.sdStep.isSome && img.axes.any (fun p => p.1 != a && p.2.mode == 2 && p.2.sdStep == r.sdStep))
    (wdPeriodOk img (.axisOut a 0) r.wdTime)

/-- The row of an axis pitched, with AX_ROW_REFUSED where it is refused. -/
def pitchAxisNow (a : Nat) (cold : Bool) (s : State) : State :=
  let code := axisRowCode s.img a
  raiseIf (code != 0) Ev.AX_ROW_REFUSED (axSrc a) code (pitchAxis a code cold s)

/-! ### Image-level checks (01 R14; 02 R46; 03 R91; 06 R179) -/

/-- FIELD_BUDGET_EXCEEDED of each bank concerned (03 R91). -/
def budgetEvents (img : ImageCfg) (s : State) : State :=
  let over' := decide (48000 < moduleCharge img)
  forRange 8 (fun b t =>
    let q := bankCharge img b
    if 6500 < q then raiseN Ev.FIELD_BUDGET_EXCEEDED (chSrc b 0) (q % 65536 + 65536 * b) t
    else if over' && 0 < q then raiseN Ev.FIELD_BUDGET_EXCEEDED (chSrc b 0) (q % 65536 + 65536 * b + 16777216) t
    else t) s

/-- The declared load of every digital group in mA. -/
def moduleLoad (img : ImageCfg) : Nat := ((List.range 8).map (groupLoad img)).sum

/-- DG_LOAD_BUDGET of each group concerned (06 R179). -/
def loadEvents (img : ImageCfg) (s : State) : State :=
  let over' := decide (16000 < moduleLoad img)
  forRange 8 (fun g t =>
    let q := groupLoad img g
    if 4000 < q then raiseN Ev.DG_LOAD_BUDGET (dpSrc g 0) (q % 65536 + 65536 * g) t
    else if over' && 0 < q then raiseN Ev.DG_LOAD_BUDGET (dpSrc g 0) (q % 65536 + 65536 * g + 16777216) t
    else t) s

/-- The field power and the output load stay within their limits. -/
def budgetsOk (img : ImageCfg) : Bool :=
  (List.range 8).all (fun b => bankCharge img b ≤ 6500) && decide (moduleCharge img ≤ 48000)
    && (List.range 8).all (fun g => groupLoad img g ≤ 4000) && decide (moduleLoad img ≤ 16000)

end Sys2Proof.Machine
end

