-- ==== Sys2Proof/Machine/Start.lean ====
section
/-! DEFINITION. Loading an image, configuring the functions, and a function's entry to RUN and STANDBY (01 R14, R21, R25;
02 R44–R47; 17 R503, R508). -/

namespace Sys2Proof.Machine

/-! ### Loading an image (02 R36, R46) -/

/-- The output entries that the sections give to loops, safety functions and the alarm engine (01 R14).
In part by log 19 (DEDUCED, unsafe). -/
def namedWriters (img : ImageCfg) : List (Nat × Writer) :=
  let loops := img.loops.rows.flatMap (fun p => if p.2.form = 0 then [] else p.2.out.toList.map (fun i => (i, Writer.loop p.1)))
  let safety := img.bedrock.fns.flatMap (fun p =>
    if p.2.ty = 0 then []
    else (p.2.outs ++ (if p.2.ty = 2 then p.2.ss1.stopOut.toList else [])).map (fun i => (i, Writer.safety p.1)))
  let c := img.alarm
  let call := c.horn.toList ++ c.beacon.toList ++ c.engs.flatMap (fun e => e.out.toList) ++ c.bridgeOut.toList ++ c.dmOut.toList
  loops ++ safety ++ call.map (fun i => (i, Writer.alarm))

/-- Two writers are named for one output entry (01 R14). In part by log 19 (DEDUCED, unsafe). -/
def writersOk (img : ImageCfg) : Bool :=
  let l := namedWriters img
  l.all (fun p => ((img.layout.look p.1).writer == .none || (img.layout.look p.1).writer == p.2)
    && l.all (fun q => q.1 != p.1 || q.2 == p.2))

/-- The layout with the writers that only other sections name. In part by log 19 (DEDUCED, unsafe). -/
def withWriters (img : ImageCfg) : ImageCfg :=
  { img with layout := img.layout.map (fun p =>
      if p.2.writer = .none then
        match (namedWriters img).find? (fun q => q.1 == p.1) with
        | some q => (p.1, { p.2 with writer := q.2 })
        | none => p
      else p) }

/-- The configuration that sections carry. In part by log 7 (DESIGN CHOICE, safe) and log 18 (DEDUCED, unsafe). -/
def loadImage (secs : List Section) : ImageCfg := withWriters (Config.imageOf secs)

/-- Every image-level check of 02 R46. -/
def imageChecks (img : ImageCfg) (secs : List Section) (safety : W32) : Bool :=
  writersOk img && budgetsOk img && logicImageOk img && loopImageOk img && bedrockImageOk img secs safety && canImageOk img
    && poolImageOk img && recImageOk img && decide (img.module.ckptKiB ≤ img.pair.ckptMaxKiB)

/-- The pair section is in range (17 R521). -/
def pairCfgOk (c : PairCfg) : Bool :=
  50 ≤ c.ckptMs && c.ckptMs ≤ 10000 && c.ckptMs % 10 == 0 && 1 ≤ c.holdoffMin && c.holdoffMin ≤ 60 && 16 ≤ c.ckptMaxKiB
    && c.ckptMaxKiB ≤ 512

/-! ### Configuring a function (01 R21; 02 R47) -/

/-- A function refuses its configuration and enters FAULT; `code` is the code of its event, where it raises one.
In part by log 20 (DEDUCED, unsafe). -/
def refuseFn (f : Fn) (code : Option Nat) (s : State) : State :=
  s.setHdr f (fun h => { h with state := .fault, fault := match code with | some c => c % 4096 | none => h.fault })

/-- A function takes its part of the image: refused with FAULT, or accepted. -/
def configureFn (f : Fn) (s0 : State) : State :=
  let s := s0.setHdr f (fun h => { h with evmask := s0.img.evmask.look (fnId f) })
  match f with
  | .loop =>
    forAll s.img.loops.rows.keys (fun n t =>
      let c := loopRowCode t.img n
      if c = 0 then t else raiseLoop Ev.LOOP_ROW_REFUSED n c .module t) s
  | .alarm => almRefusals s
  | .bedrock =>
    match bedrockRefusal s.img with
    | some (c, k, r) => refuseFn .bedrock none (s.setBr (fun b => { b with refuseCode := c, refuseKind := k, refuseRow := r }))
    | none =>
      forAll (sfUsed s) (fun n t => t.setSf n (fun x => { x with state := .tripped, cause := 8 }))
        (s.setBr (fun b => { b with refuseCode := 0, refuseKind := 0, refuseRow := 0 }))
  | .time =>
    match timeConfigBad s.img.time with
    | some (r, e) => refuseFn .time (some Ev.TU_CONFIG_REFUSED.code) (raiseN Ev.TU_CONFIG_REFUSED 0xCA (r + 256 * e) s)
    | none => s
  | .panel =>
    match panelRefusal s.img with
    | some (p, r) => refuseFn .panel (some Ev.PNL_SECTION_REFUSED.code) (raiseN Ev.PNL_SECTION_REFUSED 0xCC (p % 32 + 256 * (r % 64)) s)
    | none => s
  | .can c =>
    let k := canCode (canCfg s c.val)
    let s1 := s.setCan c.val (fun x => { x with code := k })
    if k = 0 then s1 else refuseFn f (some Ev.CAN_CONFIG_REFUSED.code) (raiseCan Ev.CAN_CONFIG_REFUSED c.val k s1)
  | .guy => if pairCfgOk s.img.pair then s else refuseFn .guy none s
  | .bank b => pitchBank b.val s
  | .group g => pitchGroupNow g.val s
  | .axis a => pitchAxisNow a.val (s.mod.state == .pitch) s
  | _ => s

/-! ### Entering RUN and STANDBY (01 R21; 06 R182) -/

/-- The outputs of a function that a live force holds keep their watchdogs suspended (09 R283).
In part by log 31 (DEDUCED, unsafe). -/
def reSuspend (f : Fn) (s : State) : State :=
  forAll (s.logic.forces.filter (fun p => p.2.kind == .output && p.2.live)) (fun p t =>
    let r := (t.lay p.2.tgt).ref
    if hasWd r && outFn r == f then wdSuspend r t else t) s

/-- A consumer of the capture FIFO returns: it starts at the newest entry (07 R218).
In part by log 33 (DEDUCED, unsafe). -/
def skipCaptures (f : Fn) (s : State) : State :=
  s.setTu (fun t =>
    { t with
      fifo := (t.fifo.map (fun e => { e with forAlarm := e.forAlarm && f != .alarm, forLogic := e.forLogic && f != .logic })).filter
        (fun e => e.forAlarm || e.forLogic) })

/-- What a function does on entry to RUN. -/
def runEffects (f : Fn) (s : State) : State :=
  match f with
  | .logic => skipCaptures f (s.setLogic (fun l => { l with ticks := 0, held := false }))
  | .alarm => skipCaptures f s
  | .loop => s.setLoops (fun l => { l with ticks := 0 })
  | .bedrock => startBedrock 8 s
  | .panel => redrawAll s
  | .bank b => reSuspend f (resumeBank b.val s)
  | .group g => reSuspend f (resumeGroup g.val s)
  | .axis a => reSuspend f (wdRestart (.axisOut a.val 0) (s.setAxis a.val (fun x => { x with runAt := s.now })))
  | .can c => settleCan c.val s
  | _ => s

/-- A function enters RUN. -/
def enterRun (f : Fn) (s : State) : State :=
  runEffects f ((enterFn f .run s).setHdr f (fun h => { h with configured := false, wasDisabled := false, imageref := s.imgId.seq }))

/-- A function enters STANDBY: it drives nothing. -/
def enterStandby (f : Fn) (s : State) : State :=
  let s1 := (enterFn f .standby s).setHdr f (fun h => { h with configured := false, imageref := s.imgId.seq })
  match f with
  | .bank b => switchOffBank b.val s1
  | .group g => switchOffGroup g.val s1
  | .bedrock => forRange 4 stoLine s1
  | .can c => filterNote c.val s1
  | .logic => stopTasks s1
  | .loop => s1.setLoops (fun l =>
      { l with lps := (l.lps.map (fun p => (p.1, { p.2 with due := false, heldRelease := false, unit := {} }))).filter (fun p => p.2 != default) })
  | .axis a =>
    s1.setAxis a.val (fun x =>
      if (axCfg s1 a.val).mode = 0 then x else { restIn s1 .noTorque x with pending := none, queue := 0, source := .unknown })
  | _ => s1

/-- Configuration accepted: where the function goes depends on the module (01 R21, R25).
In part by log 18 (DEDUCED, unsafe). -/
def acceptFn (f : Fn) (s : State) : State :=
  match s.mod.state with
  | .run => enterRun f s
  | .hold => enterRun f s
  | .standby => if inStandbySet f && !s.pair.repitch then enterStandby f s
      else if inStandbySet f then s.setHdr f (fun h => { h with configured := true })
      else enterRun f s
  | .pitch => s.setHdr f (fun h => { h with configured := true })
  | _ => s

/-- The function takes its configuration and moves on (01 R21). -/
def functionConfigured (f : Fn) (s : State) : State :=
  let h := s.hdr f
  if h.state != .pitch || h.configured then s
  else
    let on := match s.mod.state with
      | .run => true | .hold => true | .standby => !s.peg.reading | .pitch => !s.peg.reading
      | _ => false
    if !on then s
    else
      let s1 := configureFn f s
      if s1.fnState f == .fault then s1 else acceptFn f s1

/-! ### The engines at the delivery of their sections (02 R44) -/

/-- Every object at its image value, and the runtime settings of 20 R594 too. -/
def imageValues (s : State) : State :=
  { s with
    logic := { forces := s.logic.forces, forcesAccepted := s.logic.forcesAccepted }
    loops := { lps := initLoops s.img }
    alarm :=
      { pts := initPoints s.img
        stations := (List.range s.img.alarm.fwd.length).map (fun i => (i, { at' := s.now + 1 })) }
    bedrock := { s.bedrock with check := checkValue s.img s.sections, unit := {} }
    panel := { s.panel with bright := none, page := none }
    recd := { s.recd with repeatSet := none }
    tu := { s.tu with capEnSet := none, units := [] }
    can := (s.can.map (fun p => (p.1, { p.2 with
      pairs := [], staged := [], wake := none, wufId := none, wufMask := none, wufData0 := none, wufData1 := none, test := 0 }))).filter
        (fun p => p.2 != default)
    mod := { s.mod with bivTimerSet := none } }

/-! ### The choice and the second read (02 R39, R44–R46) -/

/-- HOLD with cause NO_IMAGE and its event (02 R39, R46). -/
def noImage (s : State) : State := enterHold .noImage (raiseN Ev.NO_IMAGE 0xCD (slotCodes s) s)

/-- The health word on entry to PITCH holds the bits measured then (01 R29). -/
def pitchHealth (s : State) : State := s.setMod (fun m => { m with health := s.healthNow &&& 0x0003C038#32 })

/-- The choice of R39 is made. -/
def imageSelectEnd (s : State) : State :=
  let again := s.pair.repitch && s.mod.state == .standby
  if !s.peg.selecting || !(again || s.mod.state == .imageSelect) then s
  else
    let m := s.peg.mem
    let read : Tab SlotSt :=
      if s.peg.present then forRange 3 (fun n (t : Tab SlotSt) => t.put n (readSlot m s.station n)) [] else []
    let s1 := s.setPeg (fun p => { p with slots := read, selecting := false })
    match chooseImage read s.lastCommissioned with
    | .noImage => noImage (s1.setPeg (fun p => { p with sel := 3, reading := false }))
    | .ambiguous top =>
      enterHold .imageAmbiguous (raiseN Ev.IMAGE_AMBIGUOUS 0xCD ((top.map (fun n => 2 ^ n)).sum)
        (s1.setPeg (fun p => { p with sel := 3, reading := false })))
    | .chosen n uncom _ =>
      let id := slotId m n
      let slots := classify read s.lastCommissioned id n
      let s2 := { s1 with imgId := id, peg := { s1.peg with slots := slots, sel := n, uncommissioned := uncom } }
      let s3 := raise Ev.IMAGE_CHOSEN 0xCD id.seq .module s2
      let s4 := raiseIf (differMask slots != 0) Ev.PEG_COPIES_DIFFER 0xCD (differMask slots) s3
      if again then s4
      else
        let s5 := s4.setMod (fun g => { g with state := .pitch, imageValid := true })
        pitchHealth (forAll allFns (fun f t => if t.fnState f == .reset then enterFn f .pitch t else t) s5)

/-- The second read of the chosen slot gave `crc`; the sections go to their functions when it confirms the first, and
the image-level checks follow. -/
def secondReadEnd (crc : W32) (s : State) : State :=
  let again := s.pair.repitch && s.mod.state == .standby
  if !s.peg.reading || s.peg.selecting || !(again || s.mod.state == .pitch) then s
  else
    let s0 := s.setPeg (fun p => { p with reading := false })
    if crc != (s.peg.slots.look s.peg.sel).crc then
      enterHold .noImage (raiseN Ev.PEG_READ_UNSTABLE 0xCD s.peg.sel s0)
    else
      let secs := imgSections s.peg.mem s.peg.sel
      let img := loadImage secs
      let s1 := loadEvents img (budgetEvents img s0)
      if !imageChecks img secs s.imgId.safety then noImage s1
      else imageValues { s1 with img := img, sections := secs }

/-- The peg is removed between the start of the first read and the end of the second (02 R45). -/
def pegPulledWhileReading (s : State) : Bool :=
  s.peg.reading && (s.mod.state == .imageSelect || s.mod.state == .pitch || (s.mod.state == .standby && s.pair.repitch))

/-! ### The role within a pair (17 R503, R508) -/

/-- OTP item 0x02 (02 R62). -/
def ownPref (s : State) : Nat := (s.otpWord 2 0 0#32).toNat

/-- PAIR_PREF_CONFLICT with what each side prefers. -/
def prefConflict (s : State) : State :=
  raiseN Ev.PAIR_PREF_CONFLICT 0xCB (s.pair.straps % 4 + 4 * (ownPref s % 4) + 16 * (s.pair.partner.prefOtp % 4)) s

/-- The preferred position is decided (17 R503). In part by log 24, 52 (DEDUCED, unsafe). -/
def decidePref (s : State) : State :=
  if s.mod.position = 0 then s
  else
    let st := s.pair.straps
    if st = 1 || st = 2 then s.setPair (fun p => { p with preferred := st - 1, prefSource := 2, conflict := false })
    else
      let s1 := if st = 3 then prefConflict (s.setPair (fun p => { p with conflict := true }))
        else s.setPair (fun p => { p with conflict := false })
      if s.pair.everHeard then
        if ownPref s = s.pair.partner.prefOtp then s1.setPair (fun p => { p with preferred := ownPref s, prefSource := 1 })
        else prefConflict (s1.setPair (fun p => { p with preferred := 0, prefSource := 0 }))
      else s1.setPair (fun p => { p with preferred := 0, prefSource := 0 })

/-- This module is in the preferred position. -/
def isPreferred (s : State) : Bool := s.mod.position == s.pair.preferred + 1

/-- What R508 decides at the end of PITCH. -/
inductive StartRole where
  | run
  | standby
  /-- STANDBY until the partner is in RUN, for at most 3 s. -/
  | wait
  /-- STANDBY with PAIR_GUY_LOST. -/
  | guyLost
deriving DecidableEq, Repr, Inhabited

/-- The table of 17 R508; `claim` is the partner's claim as sensed. -/
def startRole (s : State) (claim : Bool) : StartRole :=
  if s.mod.position = 0 then .run
  else if !s.partnerHeard then (if claim then .guyLost else .run)
  else
    let st := s.pair.partner.modState
    if st = 4 then .standby
    else if 1 ≤ st && st ≤ 3 then (if isPreferred s then .run else .wait)
    else if st = 5 then (if isPreferred s then .run else .standby)
    else .run

/-- The standby module is ready (17 R510). -/
def standbyReady (s : State) : Bool :=
  s.mod.state == .standby && s.mod.selfTestPass && s.mod.imageValid && s.failedItems == 0
    && !allFns.any (fun f => s.fnState f == .fault) && !s.pair.repitch && s.imgId.seq == s.pair.partner.imgSeq

/-- The hold-off runs on the ready and preferred standby whose partner is heard and active, and starts again whenever
that was not so (17 R518). -/
def holdoffNote (s : State) : State :=
  if s.mod.state == .standby && isPreferred s && s.partnerHeard && s.pair.partner.modState == 4 && standbyReady s then
    (if s.pair.holdoffStart.isSome || s.pair.handshake != 0 then s
     else
      raiseN Ev.PAIR_REVERT_ARMED 0xCB s.img.pair.holdoffMin (s.setPair (fun p => { p with holdoffStart := some s.now })))
  else s.setPair (fun p => { p with holdoffStart := none })

/-! ### The end of PITCH (01 R25–R27; 17 R508; 20 R585) -/

/-- The module enters STANDBY and its functions follow (01 R21, R25). In part by log 18 (DEDUCED, unsafe). -/
def enterModStandby (s : State) : State :=
  let s1 := s.setMod (fun m => { m with state := .standby })
  let s2 := s1.setPair (fun p => { p with role := .standby, claim := false, enabled := false })
  forAll allFns (fun f t =>
    if !(t.hdr f).configured then t
    else if inStandbySet f then enterStandby f t else enterRun f t) s2

/-- Every configured function, and every function in STANDBY, enters RUN. -/
def runConfigured (s : State) : State :=
  forAll allFns (fun f t => if (t.hdr f).configured || t.fnState f == .standby then enterRun f t else t) s

/-- The claim is asserted; on the double groundsheet the interlock enables the position whose claim came first, fore
when both came in one microsecond (17 R504). -/
def assertClaim (theirs same : Bool) (s : State) : State :=
  if s.mod.position = 0 then s.setPair (fun p => { p with enabled := true, role := .single })
  else
    s.setPair (fun p =>
      { p with role := .active, claim := true, lastHeartbeatAt := s.now
               enabled := if same then s.mod.position == 1 else !theirs })

/-- Every output driven from its entry, and every safety line from its state (17 R514; 20 R585). -/
def driveAll (s : State) : State :=
  brLines (forRange 8 (fun g t => forRange 8 (fun p u => driveDo g p u) t)
    (forRange 8 (fun b t => forRange 16 (fun c u => driveAo b c u) t) s))

/-- The module enters RUN at the end of PITCH and restores from the newest valid source (20 R585). `peg` is the newest
valid buffer of the state peg. -/
def startRun (peg : Option Ckpt) (s : State) : State :=
  let cold := s.mod.start == .powerOn
  let src := newestSource s (if s.mod.position = 0 then none else peg)
  let s1 := s.setMod (fun m => { m with state := .run, restored := src.isSome })
  let s2 := match src with
    | some (c, _) => restoreProcess c s1
    | none => s1
  let s3 := runConfigured s2
  let s4 := match src with
    | some (c, onPeg) =>
      let t := raiseN Ev.CKPT_RESTORED 0xF8 (b2n onPeg + 256 * (c.seq % 16777216)) s3
      if cold || t.fnState .bedrock != .run then t else restoreBedrock (some c) (ckptAge t c) t
    | none => raiseN Ev.CKPT_NONE 0xF8 0 s3
  let held := match newestLocal s with
    | some c => (c.forces.filter (fun p => p.2.kind != .free)).length
    | none => 0
  driveAll (raiseIf (cold && held != 0) Ev.FORCES_CLEARED s.img.logic.leSrc held s4)

/-- `FN_IMAGEREF` of every function takes the sequence in use (01 R19). -/
def setImageRefs (s : State) : State :=
  forAll allFns (fun f t => t.setHdr f (fun h => { h with imageref := s.imgId.seq })) s

/-- Every function has accepted or refused its configuration (01 R27 t3). -/
def allConfigured (s : State) : Bool :=
  allFns.all (fun f =>
    match s.fnState f with
    | .pitch => (s.hdr f).configured
    | .reset => false
    | _ => true)

/-- SAFETY_UNCOMMISSIONED of an image that runs uncommissioned (02 R41). In part by log 45 (DEDUCED, unsafe). -/
def announceUncommissioned (s : State) : State :=
  if s.safetyCommissioned then s else raise Ev.SAFETY_UNCOMMISSIONED 0xCD s.imgId.safety .module s

/-- PITCH of the whole module ends, or the re-pitch of a standby. `claim`: the partner's claim is asserted; `same`: both
modules assert theirs in one microsecond. In part by log 18 (DEDUCED, unsafe). -/
def pitchEnd (peg : Option Ckpt) (claim same : Bool) (s : State) : State :=
  if s.peg.reading || !allConfigured s then s
  else if s.mod.state == .standby && s.pair.repitch then
    let s1 := (setImageRefs s).setPair (fun p => { p with repitch := false })
    forAll allFns (fun f t => if (t.hdr f).configured then enterStandby f t else t) (announceUncommissioned s1)
  else if s.mod.state != .pitch then s
  else
    let s1 := decidePref (announceUncommissioned (setImageRefs (s.setPair (fun p => { p with partnerClaim := claim }))))
    match startRole s1 claim with
    | .run =>
      let s2 := assertClaim claim same s1
      if s2.pair.enabled then startRun peg s2 else prefConflict (enterModStandby s2)
    | .standby => holdoffNote (enterModStandby s1)
    | .wait => (enterModStandby s1).setPair (fun p => { p with waitUntilRun := true, waitSince := s.now })
    | .guyLost => enterModStandby (raiseN Ev.PAIR_GUY_LOST 0xCB 0 (s1.setPair (fun p => { p with guyLost := true })))

/-! ### The commands -/

/-- The reads of IMAGE SELECT end and the choice is made (02 R39, R44 t3). -/
def execImageSelectEnd (s : State) : Host.Outcome State Fault Refusal := .next (imageSelectEnd s)
/-- The second read of the chosen slot ends (02 R44 t4, t5). -/
def execSecondReadEnd (crc : W32) (s : State) : Host.Outcome State Fault Refusal := .next (secondReadEnd crc s)
/-- A function accepts or refuses its configuration (01 R21). -/
def execFunctionConfigured (f : Fn) (s : State) : Host.Outcome State Fault Refusal := .next (functionConfigured f s)

end Sys2Proof.Machine
end

