-- ==== Sys2Proof/Machine/Function.lean ====
section
/-! DEFINITION. Resets, disables and enables of functions, and the starts of the module (01 R19–R25, R616; 15 R479–R481;
20 R572, R579, R591, R592). -/

namespace Sys2Proof.Machine

/-! ### Ring ports -/

/-- A ring port. -/
def portOf (s : State) (p : Port) : PortSt := s.mmp.ports.look (portNo p)
/-- A ring port changed. -/
def setPort (p : Port) (f : PortSt → PortSt) (s : State) : State := s.setMmp (fun m => { m with ports := m.ports.upd (portNo p) f })

/-- The link of a port goes down (15 R483, R485; 07 R205). -/
def portDown (p : Port) (s : State) : State :=
  let x := portOf s p
  if !x.up then s
  else
    linkLost p (raiseN Ev.PORT_LINK_DOWN (portSrc p) x.speed
      (setPort p (fun y => { y with up := false, speed := 0, supOk := false, supAt := none, downs := satInc top16 y.downs }) s))

/-- A function reset of 0x06: both links renegotiate and the tables are cleared. -/
def resetRing (s : State) : State :=
  let s1 := portDown .b (portDown .a s)
  ((s1.setMmp (fun m => { m with dupDeliver := [], dupForward := [] })).setTu (fun t => { t with twoStep := [] }))

/-! ### Peg operations that end (02 R48, R51, R54) -/

/-- A COMMIT ends refused with a reason. In part by log 21 (DEDUCED, unsafe). -/
def commitRefused (reason : Nat) (s : State) : State :=
  answerHeld 3 .refused reason
    (raiseN Ev.COMMIT_REFUSED 0xCD reason
      (s.setPeg (fun p => { p with chg := .idle, chgSlot := 3, chgResult := reason, staged := [], stagedId := {} })))

/-- An open slot is abandoned: it has no magic and reads EMPTY. -/
def abandonSlot (s : State) : State :=
  match s.peg.openSlot with
  | none => s
  | some n => s.setPeg (fun p => { p with openSlot := none, chg := .idle, chgSlot := 3, slots := p.slots.put n {} })

/-- A COMMIT is in progress. -/
def committing (s : State) : Bool :=
  s.peg.chg == .staging || s.peg.chg == .waitInstant || s.peg.chg == .switching

/-- A COMMIT has passed t2 of 02 R54: releases are held, or the switch has begun. -/
def pastHold (s : State) : Bool := s.peg.chg == .switching || (s.peg.chg == .waitInstant && s.logic.held)

/-- An open slot, or a COMMIT before t2, ends with a function reset or a disable of 0x09. -/
def pegStops (s : State) : State := if committing s then commitRefused 2 s else abandonSlot s

/-! ### Function resets (01 R21, R22; 15 R479) -/

/-- The points of local control that belong to a function. In part by log 55 (DEDUCED, unsafe). -/
def localOf (s : State) (f : Fn) (p : LocalPt) : Bool :=
  if p.kind = 0 then f == .loop else if p.kind = 1 then f == axisFn p.index else outFn (s.lay p.index).ref == f

/-- What a function reset does to the state of its function. In part by log 20 (DEDUCED, unsafe). -/
def resetEffects (f : Fn) (s : State) : State :=
  match f with
  | .logic => resetLogic s
  | .loop => resetLoops s
  | .bedrock => resetBedrock s
  | .alarm => resetAlarm s
  | .time => resetTime s
  | .ring => resetRing s
  | .recorder => resetRecorder s
  | .peg => pegStops s
  | .panel => resetPanel s
  | .guy => s.setCkpt (fun k =>
      { k with busy := match k.busy with | some w => if w.localDone then none else some { w with peg := false } | none => none })
  | .bank b => resetBank b.val s
  | .group g => resetGroup g.val s
  | .axis a => resetAxis a.val s
  | .can c => resetCan c.val s
  | .module | .pool => s

/-- The header after a function reset: counters and the last fault code are kept.
In part by log 20 (DEDUCED, unsafe). -/
def resetHdr (h : FnHdr) : FnHdr :=
  { state := .reset, powered := h.powered, clocked := h.clocked, fault := h.fault, evmask := h.evmask
    resets := satInc top32 h.resets, imageref := h.imageref }

/-- A function other than the module and the pool is reset. In part by log 20 (DEDUCED, unsafe). -/
def resetFn (f : Fn) (s : State) : State :=
  let s1 := resetEffects f (endLocals 3 .module (localOf s f) s)
  (enterFn f .reset s1).setHdr f resetHdr

/-! ### Starts of the module (01 R25; 15 R481; 20 R572, R590, R593) -/

/-- What a bank keeps over a start: what is measured and sensed. -/
def freshBank (x : BankSt) : BankSt := { straps := x.straps, cj0 := x.cj0, cj1 := x.cj1 }
/-- What a channel keeps over a start. -/
def freshCh (x : ChSt) : ChSt := { readback := x.readback, supply := x.supply, headroom := x.headroom }
/-- What a point keeps over a start. -/
def freshPoint (x : DpSt) : DpSt := { raw := x.raw, readback := x.readback }
/-- What an axis keeps over a start: its supply and its drive. -/
def freshAxis (x : AxisSt) : AxisSt := { supply := x.supply, drive := x.drive, tgtSeen := 0 }
/-- What a port keeps over a module restart: its link (15 R481). -/
def freshPort (x : PortSt) : PortSt := { up := x.up, speed := x.speed, supOk := x.supOk, supAt := x.supAt }

/-- The entries of a table after each has kept what `f` says. -/
def mapTab {α : Type} [Inhabited α] [DecidableEq α] (f : α → α) (t : Tab α) : Tab α :=
  (t.map (fun p => (p.1, f p.2))).filter (fun p => p.2 != default)

/-- Function 0x00 at a start: SELF-TEST begins, every domain and clock is on. -/
def freshModule (k : StartKind) (m : ModuleSt) : ModuleSt :=
  { m with
    state := .selfTest, hold := .none, start := k, health := 0, selfTestPass := false, imageValid := false
    cmpLatched := false, parityRepair := false, clkDev := 0, driftRun := 0, okRun := 0, faultRun := 0, drift := false
    domains := 0xFFF#12, clocks := 0x3FFF#14, restored := false, bivTimerSet := none, bivStage := .none
    bivRequestTimer := 0, bivWakeLatched := none, siltTimer := 0, restartAfterHandover := false }

/-- The time unit at a start: the time word is kept but at a power-on (07 R194). -/
def freshTime (k : StartKind) (t : TimeSt) : TimeSt :=
  match k with
  | .powerOn => { mono := t.mono }
  | _ =>
    { mono := t.mono, time := t.time, frac := t.frac, valid := t.valid, adj := t.adj, links := t.links, canSeq := t.canSeq
      canStamp := t.canStamp, canTime := t.canTime, canRate := t.canRate, offset := t.offset
      servo := if t.valid then .locking else .free }

/-- Every state that a start clears is cleared, and every function is in RESET (20 R593). -/
def freshStart (k : StartKind) (s : State) : State :=
  let warm := k == .restart
  { pending := s.pending
    mod := freshModule k s.mod
    fns := allFns.foldl (fun (t : Tab FnHdr) f => t.put (fnId f) { state := .reset }) []
    peg := { present := s.peg.present, mem := s.peg.mem, reading := true, selecting := true }
    otp := { items := s.otp.items, busy := s.otp.busy }
    banks := mapTab freshBank s.banks
    chs := mapTab freshCh s.chs
    groups := mapTab (fun x => { vf := x.vf, current := x.current, supplyLow := x.supplyLow }) s.groups
    points := mapTab freshPoint s.points
    outCurrent := s.outCurrent
    tu := freshTime k s.tu
    axes := mapTab freshAxis s.axes
    mmp :=
      { ports := if k == .powerOn then [] else mapTab freshPort s.mmp.ports
        dupForward := if warm then s.mmp.dupForward else []
        starts := if k == .powerOn then 0 else (s.mmp.starts + 1) % 65536
        replies := s.mmp.replies, sent := s.mmp.sent, hsrSeq := s.mmp.hsrSeq }
    pair :=
      { straps := s.pair.straps, statePeg := s.pair.statePeg, heard := s.pair.heard && k != .powerOn, heardAt := s.pair.heardAt
        everHeard := s.pair.everHeard && k != .powerOn, partner := if k == .powerOn then {} else s.pair.partner
        partnerClaim := s.pair.partnerClaim, enabled := s.mod.position == 0, sent := s.pair.sent }
    panel :=
      { keyOn := s.panel.keyOn, keyFault := s.panel.keyFault, temp := s.panel.temp, tempValid := s.panel.tempValid
        band := s.panel.band, bandNow := s.panel.bandNow, rows := if warm then s.panel.rows else []
        scan := .off, dark := true }
    recd := s.recd
    ckpt := { halfA := s.ckpt.halfA, halfB := s.ckpt.halfB, last := s.ckpt.last }
    freeCount := s.freeCount }

/-- A warm start: local control ends, the glass is discharged, forces are released, every function enters RESET, and
SELF-TEST begins (15 R481 t1). In part by log 20 (DEDUCED, unsafe). -/
def restartNow (k : StartKind) (s : State) : State :=
  let s1 := endLocals 3 .module (fun _ => true) s
  let s2 := if k == .restart then panelDischarge 2 s1 else s1
  let s3 := forAll (s2.logic.forces.filter (fun p => p.2.kind != .free)) (fun p t => forceEndNow 1 p.1 t) s2
  let s4 := forAll allFns (fun f t => if t.fnState f == .off then t else enterFn f .reset t) (outputsOff s3)
  restartRecorder (freshStart k s4)

/-- Power-good: a cold start, or HOLD where the position coding is invalid (19 R558; 20 R572; 17 R502).
In part by log 18 (DEDUCED, unsafe). -/
def powerGood (a b coding : Nat) (s : State) : State :=
  if s.mod.state != .off then s
  else
    let s1 := freshStart .powerOn s
    let s2 := s1.setMod (fun m =>
      { m with
        supplyA := a, supplyB := b, position := coding, operNs := s.recd.mirSecs * 1000000000
        powerCycles := wrap32 (s.recd.mirCycles + 1), warning := false
        windowClosed := false, below14 := false, warnEnded := 0, lostA := false, lostB := false, charge := 0
        storeGood := false, overTemp := false, overTempCrit := false, tempMax := m.temp, bivCount := 0 })
    let s3 := restartRecorder (raiseN Ev.POWER_ON 0xF8 s2.mod.powerCycles s2)
    if coding ≤ 2 then s3.setPair (fun p => { p with enabled := coding == 0, statePeg := coding != 0 })
    else enterHold .fatalFunction (raiseN Ev.PAIR_POSITION_INVALID 0xCB coding s3)

/-- The comparator test of an engine in SELF-TEST: the cases that gave the wrong result (10 R313–R315).
In part by log 18 (DEDUCED, unsafe). -/
def selfTestEngine (fails : List (Nat × Nat)) (e : Nat) (s : State) : State :=
  let bad := (List.range 106).filter (fun c => fails.contains (e, c))
  match bad with
  | [] =>
    raiseN Ev.COMPARATOR_TEST_PASS 0xFA e
      (s.setTrx e (fun x => { x with passed := 106, result := 1, firstFail := 0xFFFF, testAt := operSecs s }))
  | c :: _ =>
    raiseN Ev.COMPARATOR_TEST_FAIL 0xFA (e + 256 * c)
      (s.setTrx e (fun x => { x with passed := 106 - bad.length, result := 2, firstFail := c }))

/-- Every test of SELF-TEST has ended (01 R616). `clockDev` is the deviation of the cross-check in ppm.
In part by log 18 (DEDUCED, unsafe). -/
def selfTestEnd (sramOk : Bool) (fails : List (Nat × Nat)) (clockDev : Int) (s : State) : State :=
  if s.mod.state != .selfTest then s
  else
    let s1 := forRange 3 (selfTestEngine fails) s
    let s2 := s1.setMod (fun m => { m with clkDev := clockDev })
    let badClock := decide (20000 < clockDev.natAbs)
    let s3 := raiseIf badClock Ev.CLOCK_FAULT 0xF8 (s32 clockDev) s2
    let badCmp := fails.any (fun p => p.1 < 3 && p.2 < 106)
    if !sramOk then enterHold .sramTest s3
    else if badCmp then enterHold .comparatorTest s3
    else if badClock then enterHold .clockMonitor s3
    else
      (s3.setMod (fun m => { m with state := .imageSelect, selfTestPass := true })).setPeg
        (fun p => { p with reading := true, selecting := true })

/-! ### Writes of FN_CTRL (01 R20–R22; 20 R579, R591) -/

/-- A function reset as commanded. -/
def doReset (f : Fn) (s : State) : State :=
  match s.fnState f with
  | .off | .reset | .pitch => s
  | _ =>
    if f = .module then s
    else if f = .pool then restartNow .restart s
    else if f = .peg && pastHold s then s.setPeg (fun p => { p with resetWaits := true })
    else resetFn f s

/-- A disable: RUN or STANDBY enters DRAIN, which takes no new work. In part by log 21 (DEDUCED, unsafe). -/
def doDisable (f : Fn) (s : State) : State :=
  match s.fnState f with
  | .run | .standby =>
    let s1 := enterFn f .drain s
    match f with
    | .logic => (s1.setLogic (fun l => { l with bgRunning := false })).setTask 32 (fun x => { x with state := .waiting, unit := {} })
    | .axis a => drainAxis a.val s1
    | .peg => if pastHold s1 then s1.setPeg (fun p => { p with drainWaits := true }) else s1
    | _ => s1
  | _ => s

/-- An enable: DISABLED enters PITCH; one whose domain went off switches it on again, and the others of the domain
return to DISABLED. -/
def doEnable (f : Fn) (s : State) : State :=
  match s.fnState f with
  | .disabled => (enterFn f .pitch s).setHdr f (fun h => { h with configured := false, wasDisabled := false })
  | .off =>
    if !(s.hdr f).wasDisabled || !(s.mod.state == .run || s.mod.state == .standby) then s
    else
      let d := domainOf f
      let s1 := s.setMod (fun m =>
        { m with
          domains := m.domains ||| (1#12 <<< d)
          clocks := (List.range 14).foldl (fun (c : BitVec 14) k => if (domainsOfClock k).contains d then c ||| (1#14 <<< k) else c) m.clocks })
      forAll allFns (fun g t =>
        if domainOf g != d then t
        else if g = f then
          (enterFn g .reset t).setHdr g (fun h => { h with powered := true, clocked := true, wasDisabled := false })
        else if t.fnState g == .off then
          t.setHdr g (fun h => { h with state := .disabled, powered := true, clocked := true })
        else t) s1
  | _ => s

/-- A write of FN_CTRL: the refusals of 01 R20 in their order, then its effect. -/
def fnCtrl (f : Fn) (v : W32) (r : Role) (s : State) : Status × State :=
  if !roleAtLeast r .engineer then (.role, s)
  else if !(v == 0xA5A50001#32 || v == 0xA5A50002#32 || v == 0xA5A50003#32) then (.access, s)
  else if f = .module then (.access, s)
  else if v == 0xA5A50002#32 && f == .bedrock then (.access, s)
  else if v == 0xA5A50003#32 && s.fnState f == .drain then (.access, s)
  else (.ok, if v == 0xA5A50001#32 then doReset f s else if v == 0xA5A50002#32 then doDisable f s else doEnable f s)

/-- The reset of a function is released: it enters PITCH (01 R21). -/
def resetReleased (f : Fn) (s : State) : State :=
  if s.fnState f != .reset then s
  else
    match s.mod.state with
    | .pitch | .run | .standby | .hold => enterFn f .pitch s
    | _ => s

/-! ### Break points (20 R591, R592) -/

/-- What a function that stops holding them gives back: tags and pool blocks. -/
def giveBackAll (f : Fn) (s : State) : State :=
  let tags := tagsOf s f
  freeBlocksOf f (s.setPool (fun p => { p with tags := p.tags.filter (fun q => !tags.contains q.1) }))

/-- An output at its `SAFE` value: its watchdog stands expired, without an event.
In part by log 21 (DEDUCED, unsafe). -/
def toSafe (r : Ref) (s : State) : State :=
  match (wdOf s r).state with
  | .suspended => s
  | _ =>
    let h := drivenNow s r
    driveOut r (setWd r (fun w => { w with state := .expired, since := s.now, hold := h }) s)

/-- The effect of a break point on the function that reaches it. In part by log 21 (DEDUCED, unsafe). -/
def breakEffects (f : Fn) (s : State) : State :=
  match f with
  | .logic => forRange 33 (fun n => writerFault (.task n)) s
  | .loop => forRange 256 (fun n => writerFault (.loop n)) s
  | .alarm => writerFault .alarm s
  | .time => fifoDump s
  | .ring => portDown .b (portDown .a s)
  | .recorder => commitAll s
  | .peg => pegStops s
  | .panel =>
    let s1 := endLocals 3 .module (fun _ => true) s
    s1.setPanel (fun p => { p with scan := .discharging, dark := true, dischargeAt := s.now, regs := [], queue := [] })
  | .bank b => forRange 16 (fun c t => if isOutMode (t.ch b.val c).mode then toSafe (.aoOut b.val c) t else t) s
  | .group g => forRange 8 (fun p t => if (t.point g.val p).mode = 8 then toSafe (.doOut g.val p) t else t) s
  | .axis a => drainedAxis a.val false s
  | .can c => abortFrames c.val s
  | .module | .bedrock | .pool | .guy => s

/-- A domain all of whose functions are DISABLED is switched off, but for PD0, PD2, PD4 and PD5 (20 R579). -/
def domainCheck (d : Nat) (s : State) : State :=
  if d = 0 || d = 2 || d = 4 || d = 5 || !(allFns.filter (fun f => domainOf f == d)).all (fun f => s.fnState f == .disabled) then s
  else
    let doms := s.mod.domains &&& ~~~(1#12 <<< d)
    let clks := (List.range 14).foldl (fun (c : BitVec 14) k =>
      if (domainsOfClock k).all (fun e => !doms.getLsbD e) then c &&& ~~~(1#14 <<< k) else c) s.mod.clocks
    applyDomains (s.setMod (fun m => { m with domains := doms, clocks := clks }))

/-- A function in DRAIN reaches its break point and is DISABLED. -/
def breakPoint (f : Fn) (s : State) : State :=
  if s.fnState f != .drain || (f == .peg && pastHold s) then s
  else
    let s1 := giveBackAll f (breakEffects f s)
    let s2 := enterFn f .disabled s1
    if f = .pool then enterHold .fatalFunction s2 else domainCheck (domainOf f) s2

/-- A drain exceeds its maximum: FAULT; an axis loses its torque and is DISABLED (12 R386).
In part by log 21 (DEDUCED, unsafe). -/
def drainTimeout (f : Fn) (s : State) : State :=
  if s.fnState f != .drain then s
  else
    match f with
    | .axis a => domainCheck 10 (enterFn f .disabled (giveBackAll f (drainedAxis a.val true s)))
    | _ => faultFn f Ev.DRAIN_TIMEOUT.code (raiseN Ev.DRAIN_TIMEOUT 0xF8 (fnId f) s)

/-! ### The commands -/

/-- Power-good on a supply (20 R572). -/
def execPowerGood (supplyA supplyB coding : Nat) (s : State) : Host.Outcome State Fault Refusal :=
  .next (powerGood supplyA supplyB coding s)
/-- SELF-TEST ends (01 R616). -/
def execSelfTestEnd (sramOk : Bool) (fails : List (Nat × Nat)) (clockDev : Int) (s : State) : Host.Outcome State Fault Refusal :=
  .next (selfTestEnd sramOk fails clockDev s)
/-- A function reset by FN_CTRL (01 R20–R22). -/
def execFunctionReset (f : Fn) (r : Role) (s : State) : Host.Outcome State Fault Refusal := .next (fnCtrl f 0xA5A50001#32 r s).2
/-- A disable by FN_CTRL (01 R20–R22). -/
def execFunctionDisable (f : Fn) (r : Role) (s : State) : Host.Outcome State Fault Refusal := .next (fnCtrl f 0xA5A50002#32 r s).2
/-- An enable by FN_CTRL (01 R20–R22). -/
def execFunctionEnable (f : Fn) (r : Role) (s : State) : Host.Outcome State Fault Refusal := .next (fnCtrl f 0xA5A50003#32 r s).2
/-- The reset of a function is released (01 R21). -/
def execResetReleased (f : Fn) (s : State) : Host.Outcome State Fault Refusal := .next (resetReleased f s)
/-- A drain reaches its break point (20 R591). -/
def execDrainBreakPoint (f : Fn) (s : State) : Host.Outcome State Fault Refusal := .next (breakPoint f s)
/-- A drain exceeds its maximum (20 R592). -/
def execDrainTimeout (f : Fn) (s : State) : Host.Outcome State Fault Refusal := .next (drainTimeout f s)

end Sys2Proof.Machine
end

