-- ==== Sys2Proof/Machine/Otp.lean ====
section
/-! DEFINITION. One-time settings: the generic procedure, COMMISSION and ROLE_KEY (02 R62–R68, R617; 13 R421, R422;
15 R468, R469). -/

namespace Sys2Proof.Machine

/-- The one-time settings changed. -/
def State.setOtp (s : State) (f : OtpSt → OtpSt) : State := { s with otp := f s.otp }

/-! ### The generic procedure (02 R617) -/

/-- The open trim or calibration procedure that item 0x06 or 0x07 of a channel would write. -/
def trimReady (s : State) (item index : Nat) : Bool :=
  let t := (s.bank (index / 16)).trim
  (item == 6 || item == 7) && index < 128 && t.state == .computed && t.sel == index % 16 && trimItem t.kind == item

/-- The result of a command of the procedure, 0 where every check passes; `last` is 0x0A7B_0002.
In part by log 24 (DEDUCED, unsafe). -/
def otpCheck (s : State) (last : Bool) (r : Role) : Nat :=
  let i := s.otp.selItem
  let k := s.otp.selIndex
  let v := s.otp.data
  let generic := i == 1 || i == 2 || i == 5
  if !roleAtLeast r .commission then 1
  else if s.otp.busy.isSome then 7
  else if !(generic || (last && trimReady s i k)) then 2
  else if (i == 1 || i == 2) && k != 0 then 6
  else if i == 5 && 7 < k then 6
  else if (i == 1 && v == 0) || (i == 2 && 1 < v.toNat) || (i == 5 && 2 < v.toNat) then 6
  else if otpAllowed i ≤ s.otpUsed i k then 3
  else if s.otpUsed i k + 1 = otpAllowed i ∧ ¬ last then 4
  else 0

/-- A command of the procedure: refused with its result, or the next unused slot is programmed.
In part by log 24 (DEDUCED, unsafe). -/
def otpCommand (last : Bool) (r : Role) (s : State) : Nat × State :=
  match otpCheck s last r with
  | 0 =>
    let i := s.otp.selItem
    let k := s.otp.selIndex
    if i = 6 ∨ i = 7 then
      (0, (trimProgram (k / 16) (.role r) s).setOtp (fun o => { o with busy := o.busy.map (fun b => { b with by' := 5 }) }))
    else
      (0, s.setOtp (fun o =>
        { o with busy := some ({ item := i, index := k, value := [s.otp.data], origin := .role r, by' := 0 } : OtpBusy) }))
  | n => (n, raise Ev.OTP_REFUSED 0xFC (w32 n) (.role r) (s.setOtp (fun o => { o with result := n })))

/-! ### COMMISSION (13 R421, R422) -/

/-- The result of R421, 0 where every check passes; the programming comes after it.
In part by log 45 (DEDUCED, unsafe). -/
def commissionCheck (s : State) (v : W32) (confirm : Bool) : Nat :=
  let live := s.fnState .bedrock == .run || s.fnState .bedrock == .standby
  if !(s.mod.state == .run || s.mod.state == .standby) || !live then 2
  else if v != s.imgId.safety then 3
  else if s.lastCommissioned == some v then 4
  else if s.otpUsed 3 0 + 1 = 64 ∧ ¬ confirm then 5
  else if 64 ≤ s.otpUsed 3 0 then 6
  else 0

/-- A COMMISSION is refused: BR_COMM takes the result. In part by log 45 (DEDUCED, unsafe). -/
def commissionRefused (n : Nat) (o : Origin) (s : State) : State :=
  raise Ev.COMMISSION_REFUSED 0xF7 (w32 n) o (s.setBr (fun b => { b with comm := n }))

/-- The value is handed on to the standby of a pair (13 R422). In part by log 24 (DEDUCED, unsafe). -/
def handOn (v : W32) (s : State) : State :=
  if s.pair.role == .active then
    s.setPair (fun p => { p with handOnWaits := true, sent := .commission v :: p.sent })
  else s

/-- The programming of a commissioning slot begins. -/
def commissionProgram (v : W32) (o : Origin) (by' : Nat) (s : State) : State :=
  s.setOtp (fun x => { x with busy := some ({ item := 3, index := 0, value := [v], origin := o, by' := by' } : OtpBusy) })

/-- COMMISSION after the checks of its frame. In part by log 24 (DEDUCED, unsafe). -/
def commission (q : Req) (v : W32) (confirm : Bool) (s : State) : State :=
  match commissionCheck s v confirm with
  | 0 =>
    if s.otp.busy.isSome then answer q .busy s
    else (handOn v (commissionProgram v (.role q.role) 1 s)).hold 1 q
  | n => refused q n (commissionRefused n (.role q.role) s)

/-- The value handed on by the active module is checked by the standby. In part by log 24 (DEDUCED, unsafe). -/
def commissionHandOn (v : W32) (s : State) : State :=
  if s.mod.state != .standby then s
  else
    let tell := fun (n : Nat) (t : State) => t.setPair (fun p => { p with sent := .commissionResult n :: p.sent })
    match commissionCheck s v false with
    | 0 => if s.otp.busy.isSome then s else commissionProgram v .module 4 s
    | n => tell n (commissionRefused n .module s)

/-- The commissioning slot has been programmed. -/
def commissionFinish (k : OtpBusy) (passed : Bool) (s : State) : State :=
  let s1 := otpFinish k passed s
  let n := if passed then 0 else 7
  let s2 :=
    if passed then
      raise Ev.SAFETY_COMMISSIONED 0xF7 (k.value.getD 0 0) k.origin
        ((s1.setBr (fun b => { b with comm := 0 })).setPeg (fun p => { p with uncommissioned := false }))
    else commissionRefused 7 k.origin s1
  if k.by' = 4 then s2.setPair (fun p => { p with sent := .commissionResult n :: p.sent })
  else answerHeld 1 (if passed then .ok else .refused) n s2

/-- The standby's result arrives, or 1 s passes without one (result 0xFF). In part by log 24 (DEDUCED, unsafe). -/
def partnerResult (n : Nat) (s : State) : State :=
  if !s.pair.handOnWaits then s
  else
    raiseIf (n != 0) Ev.PARTNER_UNCOMMISSIONED 0xF7 (n % 256)
      ((s.setBr (fun b => { b with partner := n % 256 })).setPair (fun p => { p with handOnWaits := false }))

/-! ### ROLE_KEY (15 R469) -/

/-- The bytes that wrap a key: HMAC-SHA-256 over "HJKW", epoch, SEQ and role byte. -/
def keyMask (k : List Byte) (q : Req) (role : Nat) : List Byte :=
  hmacSha256 k ([0x48#8, 0x4A#8, 0x4B#8, 0x57#8] ++ leBytes 4 q.epoch ++ leBytes 4 q.seq ++ leBytes 1 role)

/-- The key that a message carries, in clear for the first COMMISSION key. -/
def keyOf (s : State) (q : Req) (role : Nat) : List Byte :=
  let w := (q.payload.drop 4).take 32
  match s.roleKey .commission with
  | none => w
  | some k => List.zipWith (fun a b => a ^^^ b) w (keyMask k q role)

/-- The words that an OTP slot holds for a key: the role, then the key. -/
def keyWords (role : Nat) (key : List Byte) : List W32 :=
  w32 role :: (List.range 8).map (fun i => w32 (leAt key (4 * i) 4))

/-- ROLE_KEY after the checks of its frame: FORMAT, BUSY, the results of 02 R64, or programming.
In part by log 24 (DEDUCED, unsafe). -/
def roleKeyWrite (q : Req) (s : State) : State :=
  let role := leAt q.payload 0 1
  let confirm := (leAt q.payload 1 1).testBit 0
  if q.payload.length != 36 || 3 < role || leAt q.payload 2 2 != 0 then answer q .format s
  else if s.otp.busy.isSome then answer q .busy s
  else if 16 ≤ s.otpUsed 4 0 then refused q 3 s
  else if s.otpUsed 4 0 = 15 ∧ ¬ confirm then refused q 4 s
  else
    (s.setOtp (fun o =>
      { o with busy := some ({ item := 4, index := 0, value := keyWords role (keyOf s q role), origin := .role q.role
                               by' := 2, role := role } : OtpBusy) })).hold 2 q

/-- A key slot has been programmed; the new key applies after the reply. -/
def roleKeyFinish (k : OtpBusy) (passed : Bool) (s : State) : State :=
  let slot := s.otpUsed 4 0
  let port := match s.mmp.waits.look 2 with | some q => portSrc q.port | none => 0xC8
  let s1 := otpFinish k passed s
  let s2 := if passed then raise Ev.ROLE_KEY_SET port (w32 (k.role + 256 * slot)) k.origin s1 else s1
  answerHeld 2 (if passed then .ok else .refused) (if passed then 0 else 5) s2

/-! ### The end of a programming (02 R63, R65, R66) -/

/-- The slot being programmed has been read back. -/
def otpWritten (passed : Bool) (s : State) : State :=
  match s.otp.busy with
  | none => s
  | some k =>
    if k.by' = 0 then otpFinish k passed s
    else if k.by' = 2 then roleKeyFinish k passed s
    else if k.by' = 3 ∨ k.by' = 5 then
      (let t := trimFinish (k.index / 16) passed s
       if t.otp.busy.isSome then otpFinish k passed t else t)
    else commissionFinish k passed s

/-! ### The commands -/

/-- OTP_CMD 0x0A7B_0001 (02 R617). -/
def execOtpProgram (r : Role) (s : State) : Host.Outcome State Fault Refusal := .next (otpCommand false r s).2
/-- OTP_CMD 0x0A7B_0002 (02 R617). -/
def execOtpProgramLast (r : Role) (s : State) : Host.Outcome State Fault Refusal := .next (otpCommand true r s).2
/-- A programmed slot is read back (02 R63, R66). -/
def execOtpWrite (passed : Bool) (s : State) : Host.Outcome State Fault Refusal := .next (otpWritten passed s)
/-- COMMISSION (13 R421). -/
def execCommission (m : Msg) (value : W32) (confirmLast : Bool) (s : State) : Host.Outcome State Fault Refusal :=
  .next (onNoted m [] (fun q => q.type == 0x0C) .commission
    (fun st t => commissionRefused (if st == .role then 1 else 2) (.role (msgRole m)) t)
    (fun q t => commission q value confirmLast t) s)
/-- A commissioned value arrives from the active module (13 R422). -/
def execCommissionHandOn (value : W32) (s : State) : Host.Outcome State Fault Refusal := .next (commissionHandOn value s)
/-- The standby refuses a value handed on, or does not answer (13 R422). -/
def execPartnerUncommissioned (result : Nat) (s : State) : Host.Outcome State Fault Refusal := .next (partnerResult result s)
/-- ROLE_KEY (15 R469). -/
def execRoleKey (m : Msg) (s : State) : Host.Outcome State Fault Refusal :=
  .next (onMessage m [] (fun q => q.type == 0x0D) .commission roleKeyWrite s)

end Sys2Proof.Machine
end

