-- ==== Sys2Proof/Machine/Peg.lean ====
section
/-! DEFINITION. Writing the peg and the online change (02 R48–R60). -/

namespace Sys2Proof.Machine

/-! ### Removal and insertion (02 R45, R48) -/

/-- The peg is removed. In part by log 22 (DEDUCED, unsafe). -/
def pegRemoved (s : State) : State :=
  if !s.peg.present then s
  else if s.mod.state == .off || s.mod.state == .bivouac then s.setPeg (fun p => { p with present := false })
  else
    let s1 := raiseN Ev.PEG_REMOVED 0xCD 0 (s.setPeg (fun p => { p with present := false }))
    if pegPulledWhileReading s then enterHold .noImage (s1.setPeg (fun p => { p with reading := false, selecting := false }))
    else
      let s2 := abandonSlot s1
      if s2.peg.chg == .staging then commitRefused 11 s2 else s2

/-- A peg is fitted: its header and slots are read and classified. -/
def pegInserted (mem : List (Nat × Byte)) (s : State) : State :=
  if s.peg.present then s
  else
    let s1 := s.setPeg (fun p => { p with present := true, mem := pegOf mem })
    match s.mod.state with
    | .off | .bivouac => s1
    | .selfTest | .imageSelect => raiseN Ev.PEG_INSERTED 0xCD 0 s1
    | _ => refreshSlots (raiseN Ev.PEG_INSERTED 0xCD 0 s1)

/-! ### PEG_WRITE (02 R49, R50) -/

/-- A PEG_WRITE ends with a result code. -/
def pegResult (n : Nat) (o : Origin) (s : State) : State :=
  let s1 := s.setPeg (fun p => { p with chgResult := n })
  if n = 0 then s1 else raise Ev.PEG_WRITE_REFUSED 0xCD (w32 n) o s1

/-- The refusal of an operation on a slot, 0 where it is accepted. In part by log 22 (DEDUCED, unsafe). -/
def pegCheck (s : State) (r : Role) (op : PegOp) (slot : Nat) : Nat :=
  let inUse := s.peg.sel == slot
  let erase := match op with | .erase _ => true | _ => false
  let opens := match op with | .openSlot _ => true | _ => false
  if erase && inUse && !roleAtLeast r .commission then 1
  else if s.mod.state != .run then 10
  else if !s.peg.present then 11
  else if committing s || !s.running .peg || (match s.peg.openSlot with | some k => k != slot | none => false) then 2
  else if opens && inUse then 3
  else if !opens && !erase && s.peg.openSlot != some slot then 4
  else 0

/-- The bytes of a DATA operation without those that fall on `IMG_MAGIC`, which only CLOSE writes.
In part by log 22 (DEDUCED, unsafe). -/
def dataWrite (m : List (Nat × Byte)) (slot off : Nat) (bytes : List Byte) : List (Nat × Byte) :=
  if off < 4 then pegWrite m (slotBase slot + 4) (bytes.drop (4 - off)) else pegWrite m (slotBase slot + off) bytes

/-- The effect of an accepted operation. -/
def pegApply (op : PegOp) (o : Origin) (s : State) : State :=
  match op with
  | .openSlot n =>
    pegResult 0 o (s.setPeg (fun p =>
      { p with
        mem := pegWrite p.mem (slotBase n) (List.replicate 4 0#8), openSlot := some n, chg := .writing, chgSlot := n
        slots := p.slots.put n { stat := .writeOpen } }))
  | .data n off bytes => pegResult 0 o (s.setPeg (fun p => { p with mem := dataWrite p.mem n off bytes }))
  | .close n =>
    let s1 := s.setPeg (fun p => { p with openSlot := none, chg := .idle, chgSlot := 3 })
    if verifyCode s.peg.mem s.station n true = .verified then
      let s2 := refreshSlots (s1.setPeg (fun p => { p with mem := pegWrite p.mem (slotBase n) (leBytes 4 imgMagic) }))
      pegResult 0 o (raise Ev.PEG_WRITE_CLOSED 0xCD (w32 (slotField s.peg.mem n 8 4)) o s2)
    else pegResult 13 o (refreshSlots s1)
  | .erase n =>
    let s1 := s.setPeg (fun p =>
      { p with
        mem := pegWrite p.mem (slotBase n) (List.replicate 4 0#8)
        openSlot := if p.openSlot = some n then none else p.openSlot
        chg := if p.openSlot = some n then .idle else p.chg
        chgSlot := if p.openSlot = some n then 3 else p.chgSlot })
    pegResult 0 o (raise Ev.PEG_SLOT_ERASED 0xCD (w32 n) o (refreshSlots s1))

/-- A PEG_WRITE after the checks of its frame, with its reply. In part by log 22 (DEDUCED, unsafe). -/
def pegWriteOp (op : PegOp) (slot : Nat) (q : Req) (s : State) : State :=
  let bad := match op with
    | .data _ off bytes =>
      off % 4 != 0 || bytes.length % 4 != 0 || bytes.length < 4 || 1024 < bytes.length || 0x400000 < off + bytes.length
    | _ => false
  if bad then answer q .format s
  else
    match pegCheck s q.role op slot with
    | 0 =>
      let s1 := pegApply op (.role q.role) s
      if s1.peg.chgResult = 0 then answer q .ok s1 else refused q s1.peg.chgResult s1
    | 1 => answer q .role (pegResult 1 (.role q.role) s)
    | n => refused q n (pegResult n (.role q.role) s)

/-- What a refusal by role or module state leaves in CHG_RESULT. In part by log 22 (DEDUCED, unsafe). -/
def pegNote (m : Msg) (st : Status) (s : State) : State := pegResult (if st == .role then 1 else 10) (.role (msgRole m)) s

/-! ### COMMIT (02 R53, R54) -/

/-- The types of the sections that differ between two images. -/
def differing (a b : List Section) : List Nat :=
  (List.range 16).filter (fun ty => sectOf a ty != sectOf b ty || (a.any (fun x => x.ty == ty)) != (b.any (fun x => x.ty == ty)))

/-- The section types that only a module restart may change (02 R36). -/
def restartOnly (ty : Nat) : Bool := ty == 9 || ty == 0xA || ty == 0xB || ty == 0xD || ty == 0xF

/-- The reason for which a COMMIT of a slot is refused, 0 where it is accepted. -/
def commitCheck (s : State) (slot : Nat) : Nat :=
  let id := slotId s.peg.mem slot
  let secs := imgSections s.peg.mem slot
  let d := differing s.sections secs
  if s.mod.state != .run then 10
  else if committing s || s.peg.openSlot.isSome || !s.running .peg then 2
  else if !s.peg.present then 11
  else if verifyCode s.peg.mem s.station slot false != .verified then 4
  else if id.seq.toNat ≤ s.imgId.seq.toNat then 5
  else if id.safety != s.imgId.safety || id.bedrock != s.imgId.bedrock then 6
  else if d.any restartOnly then 7
  else if 1048576 < (d.map (fun ty => (sectOf secs ty).length)).sum then 8
  else if !imageChecks (loadImage secs) secs id.safety then 12
  else 0

/-- COMMIT_REFUSED with its reason, before any commit has begun. In part by log 22 (DEDUCED, unsafe). -/
def commitNote (n : Nat) (o : Origin) (s : State) : State :=
  raise Ev.COMMIT_REFUSED 0xCD (w32 n) o (s.setPeg (fun p => { p with chgResult := n }))

/-- COMMIT after the checks of its frame: refused, or accepted with its reply at t5.
In part by log 23 (DEDUCED, unsafe). -/
def commit (slot : Nat) (q : Req) (s : State) : State :=
  match commitCheck s slot with
  | 0 =>
    (s.setPeg (fun p =>
      { p with chg := .staging, chgSlot := slot, staged := imgSections p.mem slot, stagedId := slotId p.mem slot })).hold 3 q
  | n =>
    let s1 := if n = 12 then
        (let img := loadImage (imgSections s.peg.mem slot)
         loadEvents img (budgetEvents img s))
      else s
    refused q n (commitNote n (.role q.role) s1)

/-- t1: the differing sections are staged. -/
def commitStaged (s : State) : State :=
  if s.peg.chg == .staging then s.setPeg (fun p => { p with chg := .waitInstant }) else s

/-- No idle instant came within 100 ms of t1. -/
def commitNoIdle (s : State) : State :=
  if s.peg.chg != .waitInstant then s
  else
    let s1 := commitRefused 9 s
    if s1.logic.held && !holdWanted s1 then resumeLoops (resumeReleases s1) else s1

/-! ### The switch (02 R57; 09 R286, R287) -/

/-- The mode of the row behind an output entry. -/
def rowMode (img : ImageCfg) : Ref → Nat
  | .aoOut b c => ((img.banks.look b).rows.look c).mode
  | .doOut g p => (img.points.look (8 * g + p)).mode
  | .axisOut a _ => (img.axes.look a).mode
  | _ => 0

/-- Why a force ends at an online change: 0 kept, 2 target removed or retyped, 3 mode changed (09 R286).
In part by log 23 (DEDUCED, unsafe). -/
def forceChange (old : ImageCfg) (s : State) (f : ForceSlot) : Nat :=
  if targetType s f.kind f.tgt != some f.ty then 2
  else
    match f.kind with
    | .variable | .free => 0
    | _ =>
      let a := (old.layout.look f.tgt).ref
      let b := (s.lay f.tgt).ref
      if a != b then 2
      else if f.kind == .output && rowMode old a != rowMode s.img b then 3
      else 0

/-- The row of a held point is removed or changed (18 R547). -/
def localChanged (old : ImageCfg) (s : State) (p : LocalPt) : Bool :=
  if p.kind = 0 then old.loops.rows.look p.index != s.img.loops.rows.look p.index
  else if p.kind = 1 then old.axes.look p.index != s.img.axes.look p.index
  else
    let a := old.layout.look p.index
    let b := s.lay p.index
    a != b || (match b.ref with
      | .aoOut k c => (old.banks.look k).rows.look c != (s.img.banks.look k).rows.look c
      | .doOut g n => old.points.look (8 * g + n) != s.img.points.look (8 * g + n)
      | _ => false)

/-- Every watchdog that is not suspended enters RUN at t4 of a commit (06 R182). -/
def restartWatchdogs (s : State) : State :=
  forAll (s.img.layout.filter (fun p => p.2.out && hasWd p.2.ref)) (fun p t =>
    if s.running (outFn p.2.ref) && (wdOf t p.2.ref).state != .suspended then wdRestart p.2.ref t else t) s

/-- The panel and the recorder at an online change (20 R594). -/
def switchPanel (old : ImageCfg) (s : State) : State :=
  let s1 := if old.recRepeat != s.img.recRepeat then s.setRec (fun x => { x with repeatSet := none }) else s
  if old.panel == s.img.panel then s1
  else
    let gone := match s1.panel.page with | some n => decide (s1.img.panel.pages.length ≤ n) | none => false
    redrawAll (s1.setPanel (fun p =>
      { p with
        page := if gone then some 0 else p.page
        sel := p.sel.filter (fun x => s1.img.panel.locals.any (fun l => l.pt == x)) }))

/-- t3 and t4: the staged image comes into use, and releases resume under it. In part by log 23 (DEDUCED, unsafe). -/
def commitSwitch (s : State) : State :=
  if s.peg.chg != .waitInstant || !s.logic.held || instanceRunning s false then s
  else
    let old := s.img
    let img := loadImage s.peg.staged
    let s1 := { s with
      img := img, sections := s.peg.staged, imgId := s.peg.stagedId
      peg := { s.peg with
        chg := .switching, sel := s.peg.chgSlot, chgInstant := shortTime s, staged := []
        chgPause := min top16 ((s.now - s.peg.holdAt) / 1000) } }
    let s2 := switchAlarm old (switchLoops old (switchLogic old s1))
    let s3 := forRange 8 (switchGroup old) (forRange 8 (switchBank old) s2)
    let s4 := endLocals 4 .module (localChanged old s3) (switchPanel old s3)
    let s5 := forAll (s4.logic.forces.filter (fun p => p.2.kind != .free)) (fun p t =>
      match forceChange old t p.2 with
      | 0 => t
      | n => forceEndNow n p.1 t) s4
    resumeLoops (resumeReleases (restartWatchdogs s5))

/-- t5: COMMIT_DONE, the references, the reply; what waited for it follows. In part by log 23 (DEDUCED, unsafe). -/
def commitDone (s : State) : State :=
  if s.peg.chg != .switching then s
  else
    let o := match s.mmp.waits.look 3 with | some q => Origin.role q.role | none => Origin.module
    let s1 := s.setPeg (fun p =>
      { p with chg := .idle, chgSlot := 3, chgResult := 0, chgSeq := s.imgId.seq, chgCount := satInc top32 p.chgCount })
    let s2 := if s1.peg.present then refreshSlots s1 else s1
    let s3 := setImageRefs (raise Ev.COMMIT_DONE 0xCD s2.imgId.seq o s2)
    let s4 := answerHeld 3 .ok 0 s3
    let s5 := if s4.pair.role == .active then s4.setPair (fun p => { p with sent := .imageChange s4.imgId.seq :: p.sent }) else s4
    let s6 := if s5.peg.resetWaits then resetFn .peg (s5.setPeg (fun p => { p with resetWaits := false })) else s5
    if s6.peg.drainWaits then breakPoint .peg (s6.setPeg (fun p => { p with drainWaits := false })) else s6

/-- The active module tells the standby of a new image: it repeats IMAGE SELECT and PITCH in STANDBY (02 R59).
In part by log 23 (DEDUCED, unsafe). -/
def standbyRepitch (s : State) : State :=
  if s.mod.state != .standby then s
  else
    let s1 := (s.setPair (fun p => { p with repitch := true, holdoffStart := none })).setPeg
      (fun p => { p with reading := true, selecting := true })
    forAll allFns (fun f t =>
      if inStandbySet f && t.fnState f == .standby then
        (enterFn f .pitch t).setHdr f (fun h => { h with configured := false })
      else t) s1

/-! ### The commands -/

/-- The peg is removed (02 R48). -/
def execPegRemoved (s : State) : Host.Outcome State Fault Refusal := .next (pegRemoved s)
/-- A peg is fitted (02 R48). -/
def execPegInserted (mem : List (Nat × Byte)) (s : State) : Host.Outcome State Fault Refusal := .next (pegInserted mem s)
/-- PEG_WRITE OPEN (02 R49). -/
def execPegWriteOpen (m : Msg) (slot : Fin 3) (s : State) : Host.Outcome State Fault Refusal :=
  .next (onNoted m [] (fun q => q.type == 0x0A) .engineer (pegNote m) (pegWriteOp (.openSlot slot.val) slot.val) s)
/-- PEG_WRITE DATA (02 R49). -/
def execPegWriteData (m : Msg) (slot : Fin 3) (off : Nat) (bytes : List Byte) (s : State) :
    Host.Outcome State Fault Refusal :=
  .next (onNoted m [] (fun q => q.type == 0x0A) .engineer (pegNote m) (pegWriteOp (.data slot.val off bytes) slot.val) s)
/-- PEG_WRITE CLOSE (02 R49). -/
def execPegWriteClose (m : Msg) (slot : Fin 3) (s : State) : Host.Outcome State Fault Refusal :=
  .next (onNoted m [] (fun q => q.type == 0x0A) .engineer (pegNote m) (pegWriteOp (.close slot.val) slot.val) s)
/-- PEG_WRITE ERASE (02 R49). -/
def execPegWriteErase (m : Msg) (slot : Fin 3) (s : State) : Host.Outcome State Fault Refusal :=
  .next (onNoted m [] (fun q => q.type == 0x0A) .engineer (pegNote m) (pegWriteOp (.erase slot.val) slot.val) s)
/-- COMMIT (02 R53). -/
def execCommit (m : Msg) (slot : Fin 3) (s : State) : Host.Outcome State Fault Refusal :=
  .next (onNoted m [] (fun q => q.type == 0x0B) .engineer
    (fun st t => commitNote (if st == .role then 1 else 10) (.role (msgRole m)) t) (commit slot.val) s)
/-- t1 of a COMMIT (02 R54). -/
def execCommitStaged (s : State) : Host.Outcome State Fault Refusal := .next (commitStaged s)
/-- t3 and t4 of a COMMIT (02 R54). -/
def execCommitSwitch (s : State) : Host.Outcome State Fault Refusal := .next (commitSwitch s)
/-- A COMMIT finds no idle instant (02 R54). -/
def execCommitNoIdle (s : State) : Host.Outcome State Fault Refusal := .next (commitNoIdle s)
/-- t5 of a COMMIT (02 R54). -/
def execCommitDone (s : State) : Host.Outcome State Fault Refusal := .next (commitDone s)
/-- The image-change notice arrives at the standby (02 R59). -/
def execStandbyRepitch (s : State) : Host.Outcome State Fault Refusal := .next (standbyRepitch s)

end Sys2Proof.Machine
end

