-- ==== Sys2Proof/Machine/Power.lean ====
section
/-! DEFINITION. Supplies, clocks and temperature, the power-fail warning, and bivouac (19 R558; 20 R571–R590; 01 R29). -/

namespace Sys2Proof.Machine

/-- True while the module is powered and not in BIVOUAC. -/
def awake (s : State) : Bool :=
  match s.mod.state with
  | .off => false | .bivouac => false
  | _ => true

/-! ### The power-fail warning and hold-up (20 R574–R577) -/

/-- The counters of R558 are mirrored to the recorder header. -/
def mirrorHeader (s : State) : State :=
  s.setRec (fun r => { r with mirSecs := operSecs s, mirCycles := s.mod.powerCycles, mirLost := r.lost })

/-- t0 of R575, and t1 and t2 that follow from it. -/
def powerFail (a b : Nat) (s : State) : State :=
  if !awake s || s.mod.warning then s
  else
    let s1 := s.setMod (fun m =>
      { m with supplyA := a, supplyB := b, warning := true, warnAt := s.now, windowClosed := false, below14 := false })
    let s2 := raiseN Ev.POWER_FAIL_WARNING 0xF8 (a % 65536 + 65536 * (b % 65536)) s1
    panelDischarge 0 (abandonCkpt (mirrorHeader s2))

/-- Every event that waits reaches the recorder, and what found room is committed. -/
def recordAll (s : State) : State :=
  commitAll (forAll s.recd.inbox recordOne (s.setRec (fun r => { r with inbox := [] })))

/-- t3 of R575. In part by log 57 (DEDUCED, unsafe). -/
def windowClose (s : State) : State :=
  if !awake s || !s.mod.warning || s.mod.windowClosed then s
  else (recordAll s).setMod (fun m => { m with windowClosed := true })

/-- t4 of R575: PD0, PD4 and PD11 stay on. -/
def below14 (a b : Nat) (s : State) : State :=
  if !awake s || !s.mod.warning || s.mod.below14 then s
  else
    applyDomains ((outputsOff s).setMod (fun m =>
      { m with
        supplyA := a, supplyB := b, below14 := true, domains := m.domains &&& 0x811#12, clocks := m.clocks &&& 0x3011#14 }))

/-- t5 of R575, or both supplies fail in BIVOUAC: the module is OFF. In part by log 57 (DEDUCED, unsafe). -/
def storeExhausted (s : State) : State :=
  if !(s.mod.state == .bivouac || (awake s && s.mod.warning)) then s
  else
    let s1 := windowClose s
    let s2 := outputsOff (forAll s1.recd.inbox (fun _ t => loseEvent false t) (s1.setRec (fun r => { r with inbox := [] })))
    let s3 := forAll allFns (fun f t =>
      (if t.fnState f == .off then t else enterFn f .off t).setHdr f (fun h => { h with powered := false, clocked := false })) s2
    let s4 := s3.setMod (fun m => { m with state := .off, domains := 0#12, clocks := 0#14, bivStage := .none })
    let s5 := s4.setPair (fun p => { p with claim := false, enabled := false })
    (s5.setPanel (fun p => { p with scan := .off, dark := true })).setRec (fun r => { r with staging := [] })

/-- An input returns before t4. -/
def powerRestored (a b : Nat) (s : State) : State :=
  if !awake s || !s.mod.warning || s.mod.below14 then s
  else
    let s1 := s.setMod (fun m =>
      { m with
        supplyA := a, supplyB := b, warning := false, windowClosed := false, warnEnded := satInc top16 m.warnEnded })
    raiseN Ev.POWER_RESTORED 0xF8 ((s.now - s.mod.warnAt) / 1000000) s1

/-! ### Supplies, store, clocks and temperature (20 R572, R573, R581–R583) -/

/-- The voltage of one input. In part by log 57 (DEDUCED, unsafe). -/
def setSupply (b : Bool) (mv : Nat) (m : ModuleSt) : ModuleSt := if b then { m with supplyB := mv } else { m with supplyA := mv }
/-- One input is marked lost or good. -/
def setLost (b lost : Bool) (m : ModuleSt) : ModuleSt := if b then { m with lostB := lost } else { m with lostA := lost }
/-- An input is marked lost. -/
def lostOf (b : Bool) (m : ModuleSt) : Bool := if b then m.lostB else m.lostA

/-- One input stays below 18.0 V while the other is good. In part by log 57 (DEDUCED, unsafe). -/
def supplyLost (b : Bool) (mv : Nat) (s : State) : State :=
  if !awake s then s
  else
    let s1 := s.setMod (setSupply b mv)
    let other := if b then s.mod.supplyA else s.mod.supplyB
    if lostOf b s.mod || other < 18000 then s1
    else raiseN Ev.SUPPLY_LOST 0xF8 (b2n b) (s1.setMod (setLost b true))

/-- An input is good again. In part by log 57 (DEDUCED, unsafe). -/
def supplyOk (b : Bool) (mv : Nat) (s : State) : State :=
  if !awake s then s
  else
    let s1 := s.setMod (setSupply b mv)
    if lostOf b s.mod then raiseN Ev.SUPPLY_OK 0xF8 (b2n b) (s1.setMod (setLost b false)) else s1

/-- The measured charge of the store falls below its 40 ms level. -/
def holdupLow (charge : Nat) (s : State) : State :=
  if !awake s then s
  else
    let s1 := s.setMod (fun m => { m with charge := min 255 charge, storeGood := m.storeGood && decide (100 ≤ charge) })
    raiseIf (s.mod.storeGood && decide (charge < 100)) Ev.HOLDUP_LOW 0xF8 charge s1

/-- The store reaches its 40 ms level. -/
def holdupGood (charge : Nat) (s : State) : State :=
  if !awake s then s
  else s.setMod (fun m => { m with charge := min 255 charge, storeGood := decide (100 ≤ charge) })

/-- A comparison window of the clock monitor ends. In part by log 57 (DEDUCED, unsafe). -/
def monitorWindow (ppm : Int) (s : State) : State :=
  if !awake s then s
  else
    s.setMod (fun m =>
      let ok := decide (ppm.natAbs ≤ 200)
      let n := if ok then min 1000 (m.okRun + 1) else 0
      { m with
        clkDev := ppm, okRun := n, driftRun := if ok then 0 else min 1000 (m.driftRun + 1)
        faultRun := if 20000 < ppm.natAbs then min 2 (m.faultRun + 1) else 0
        drift := m.drift && decide (n < 1000) })

/-- The deviation exceeds ±0.02 % on 1000 windows in a row. In part by log 57 (DEDUCED, unsafe). -/
def clockDrift (ppm : Int) (s : State) : State :=
  if !awake s || s.mod.drift || ppm.natAbs ≤ 200 then s
  else raiseN Ev.CLOCK_DRIFT 0xF8 (s32 ppm) (s.setMod (fun m => { m with clkDev := ppm, drift := true, okRun := 0 }))

/-- The deviation exceeds ±2 % on 2 windows in a row: HOLD, which SELF-TEST decides at its end.
In part by log 57 (DEDUCED, unsafe). -/
def clockFault (ppm : Int) (s : State) : State :=
  if !awake s || ppm.natAbs ≤ 20000 then s
  else
    let s1 := s.setMod (fun m => { m with clkDev := ppm })
    match s.mod.state with
    | .selfTest | .hold => s1
    | _ => enterHold .clockMonitor (raiseN Ev.CLOCK_FAULT 0xF8 (s32 ppm) s1)

/-- A phase-locked loop loses lock: CK0 and CK2 have none. In part by log 57 (DEDUCED, unsafe). -/
def clockLost (k : Nat) (s : State) : State :=
  if !awake s || k = 0 || k = 2 || !s.mod.clocks.getLsbD k then s
  else
    let s1 := raiseN Ev.CLOCK_LOST 0xF8 k (s.setMod (fun m => { m with clocks := m.clocks &&& ~~~(1#14 <<< k) }))
    forAll allFns (fun f t =>
      if (clocksOf f).contains k then (faultFn f 0x009 t).setHdr f (fun h => { h with clocked := false }) else t) s1

/-- The internal temperature is read, in 0.1 °C. -/
def temperatureRead (temp : Int) (s : State) : State :=
  if !awake s then s
  else
    let m0 := s.mod
    let high := decide (1000 ≤ temp) || (m0.overTemp && decide (950 ≤ temp))
    let crit := decide (1150 ≤ temp) || (m0.overTempCrit && decide (1100 ≤ temp))
    let s1 := s.setMod (fun m =>
      { m with temp := temp, tempMax := max m.tempMax temp, overTemp := high, overTempCrit := crit })
    raiseIf (crit && !m0.overTempCrit) Ev.OVER_TEMP_CRITICAL 0xF9 (s32 temp)
      (raiseIf (!high && m0.overTemp) Ev.OVER_TEMP_OK 0xF9 (s32 temp)
        (raiseIf (high && !m0.overTemp) Ev.OVER_TEMP 0xF9 (s32 temp) s1))

/-! ### Bivouac: the request (20 R586, R587) -/

/-- BIV_TIMER as it stands. -/
def bivTimer (s : State) : Nat := match s.mod.bivTimerSet with | some n => n | none => s.img.module.bivTimer

/-- The result of R587, 0 where entry is accepted. In part by log 58 (DEDUCED, unsafe). -/
def bivCheck (s : State) (timer : Nat) : Nat :=
  if s.mod.state != .run || !(s.pair.role == .single || s.pair.role == .active) then 1
  else if committing s || s.peg.openSlot.isSome || s.otp.busy.isSome then 2
  else if (List.range 4).all (fun c => (wakeWord s c).toNat % 4 == 0) && s.img.module.wakes.isEmpty && timer == 0 then 3
  else if !s.panel.locals.isEmpty then 4
  else if s.partnerHeard && s.pair.partner.modState != 5 then 5
  else 0

/-- Entry is accepted: the standby of a pair is told. In part by log 58 (DEDUCED, unsafe). -/
def bivAccept (timer : Nat) (s : State) : State :=
  let s1 := s.setMod (fun m => { m with bivStage := .accepted, bivRequestTimer := timer })
  if s.mod.position = 0 then s1 else s1.setPair (fun p => { p with sent := .bivouac timer :: p.sent })

/-- The request of the logic engine, with the new value of its entry. In part by log 58 (DEDUCED, unsafe). -/
def bivRequest (value : Nat) (s : State) : State :=
  if value = 0 || !s.running .logic || s.mod.bivStage != .none then s
  else
    let timer := if value = 0xFFFFFFFF then bivTimer s else value
    match bivCheck s timer with
    | 0 => bivAccept timer s
    | n => raiseN Ev.BIVOUAC_REFUSED 0xF8 n s

/-! ### Bivouac: the entry (20 R588) -/

/-- No unit of any engine is running (17 R520; 20 R588). -/
def allIdle (s : State) : Bool :=
  !instanceRunning s true && !s.loops.lps.any (fun p => p.2.due) && !s.bedrock.unit.active

/-- A base tick: a hold that has found no idle instant ends for the releases held, the tick of the logic engine follows,
and a bivouac entry that finds every engine idle takes its final checkpoint. -/
def baseTickAll (s : State) : State :=
  let s1 := baseTick (if s.logic.held && !holdFixed s then resumeLoops s else s)
  if s1.mod.bivStage == .accepted && s1.logic.held && allIdle s1 && !s1.mod.warning then
    (beginCkpt (s1.setMod (fun m => { m with bivStage := .held }))).setCkpt
      (fun k => { k with busy := k.busy.map (fun w => { w with peg := false }) })
  else s1

/-- The final checkpoint is complete and the wake logic armed, or the module is in BIVOUAC. -/
def wakeArmed (s : State) : Bool :=
  s.mod.state == .bivouac || (s.mod.bivStage == .held && s.ckpt.busy.isNone)

/-- The wake: BIVOUAC_WAKE, the partner's wake line, and a warm start (20 R590). -/
def wakeNow (w : WakeCause) (s : State) : State :=
  let s1 := raiseN Ev.BIVOUAC_WAKE 0xF8 (w.cause + 256 * w.arg)
    (s.setMod (fun m => { m with bivCause := w.cause, bivArg := w.arg }))
  let s2 := if s.mod.position = 0 then s1 else s1.setPair (fun p => { p with sent := .wake :: p.sent })
  restartNow .bivouacExit s2

/-- A wake cause arises: it wakes the module, or is latched between t3 and t4. In part by log 58 (DEDUCED, unsafe). -/
def wakeBy (w : WakeCause) (s : State) : State :=
  if s.mod.state == .bivouac then wakeNow w s
  else if wakeArmed s && s.mod.bivWakeLatched.isNone then s.setMod (fun m => { m with bivWakeLatched := some w })
  else s

/-- t4 of R588: the module is in BIVOUAC, with a silt timer in s. In part by log 58 (DEDUCED, unsafe). -/
def enterBivouac (timer : Nat) (s : State) : State :=
  let s1 := outputsOff (panelDischarge 1 (forRange 4 canSleep s))
  let s2 := recordAll (raiseN Ev.BIVOUAC_ENTERED 0xF8 timer s1)
  let s3 := s2.setMod (fun m =>
    { m with
      state := .bivouac, domains := 0x041#12, clocks := 0x0001#14, bivCount := wrap32 (m.bivCount + 1), siltTimer := timer
      bivStage := .none, bivRequestTimer := 0, bivWakeLatched := none })
  let s4 := applyDomains (s3.setPair (fun p => { p with claim := false, enabled := s.mod.position == 0 }))
  let s5 := forAll [Port.a, Port.b] (fun p => setPort p (fun y => { y with up := false, speed := 0, supOk := false, supAt := none })) s4
  match s.mod.bivWakeLatched with
  | some w => wakeNow w s5
  | none => s5

/-- BIVOUAC after the checks of its frame. In part by log 58 (DEDUCED, unsafe). -/
def bivouacMsg (q : Req) (s : State) : State :=
  let op := leAt q.payload 0 1
  let t := leAt q.payload 4 4
  if 1 < op then answer q .format s
  else if op = 1 then answer q .ok (wakeBy { cause := 4 } s)
  else if s.mod.bivStage != .none then answer q .busy s
  else
    let timer := if t = 0 then bivTimer s else t
    match bivCheck s timer with
    | 0 => answer q .ok (bivAccept timer s)
    | n => refused q n s

/-! ### Bivouac: the wake sources (16 R497; 20 R589, R590) -/

/-- A frame, an edge or an overflow of the error counter on a sleeping controller; `f` is the frame.
In part by log 51 (DEDUCED, unsafe). -/
def canWake (c : Nat) (f : Option CanFrame) (s : State) : State :=
  let mode := (wakeWord s c).toNat % 4
  let hit := mode == 1 || (mode == 2 && (match f with | some x => wakeFrame s c x | none => true))
  if !wakeArmed s || !hit then s
  else
    let d := if mode = 1 then 2147483648 else match f with | some x => x.id % 536870912 | none => 0
    wakeBy { cause := 1, arg := c } (raiseCan Ev.CAN_WAKE c d s)

/-- A wake input has changed. -/
def wakeInput (n : Nat) (rising : Bool) (s : State) : State :=
  match s.img.module.wakes[n]? with
  | none => s
  | some w => if bitOf (if rising then 0 else 1) w.edge then wakeBy { cause := 2, arg := n } s else s

/-- The silt timer has run out. -/
def siltTimeout (s : State) : State :=
  if s.mod.state == .bivouac && s.mod.siltTimer != 0 then wakeBy { cause := 3 } s else s

/-- A datagram that the ring listen circuits take for a wake (20 R589). In part by log 58 (DEDUCED, unsafe). -/
def wakeDatagram (m : Msg) (s : State) : Bool :=
  msgType m == 0x0E && leAt (msgPayload m) 0 1 == 1 && leAt m.bytes 12 4 == s.station

/-- An MMP wake in BIVOUAC: the message is checked by 15 R465; the ring ports send nothing.
In part by log 58 (DEDUCED, unsafe). -/
def mmpWake (m : Msg) (s : State) : State :=
  if s.mod.state != .bivouac || !wakeDatagram m s then s
  else
    let r := receive m [] (s.setMod (fun x => { x with state := .hold }))
    let t := (r.2.setMod (fun x => { x with state := .bivouac })).setMmp (fun x => { x with replies := s.mmp.replies, hsrSeq := s.mmp.hsrSeq })
    let pass := match r.1 with | some q => q.type == 0x0E && roleAtLeast q.role .engineer && 8 ≤ q.payload.length | none => false
    if pass then wakeBy { cause := 4 } t
    else t.setMod (fun x => { x with bivRejected := satInc top16 x.bivRejected })

/-! ### The commands -/

/-- The power-fail warning (20 R574, R575). -/
def execPowerFailWarning (supplyA supplyB : Nat) (s : State) : Host.Outcome State Fault Refusal :=
  .next (powerFail supplyA supplyB s)
/-- The event window closes (20 R575 t3). -/
def execEventWindowClose (s : State) : Host.Outcome State Fault Refusal := .next (windowClose s)
/-- The inputs fall below 14.0 V (20 R575 t4). -/
def execInputBelow14v (supplyA supplyB : Nat) (s : State) : Host.Outcome State Fault Refusal :=
  .next (below14 supplyA supplyB s)
/-- The hold-up store is exhausted (20 R575 t5, R590). -/
def execStoreExhausted (s : State) : Host.Outcome State Fault Refusal := .next (storeExhausted s)
/-- An input returns before t4 (20 R577). -/
def execPowerRestored (supplyA supplyB : Nat) (s : State) : Host.Outcome State Fault Refusal :=
  .next (powerRestored supplyA supplyB s)
/-- One input is lost (20 R573). -/
def execSupplyLost (b : Bool) (mv : Nat) (s : State) : Host.Outcome State Fault Refusal := .next (supplyLost b mv s)
/-- One input returns (20 R573). -/
def execSupplyOk (b : Bool) (mv : Nat) (s : State) : Host.Outcome State Fault Refusal := .next (supplyOk b mv s)
/-- The store falls below its 40 ms level (20 R572, R574). -/
def execHoldupLow (charge : Nat) (s : State) : Host.Outcome State Fault Refusal := .next (holdupLow charge s)
/-- The store reaches its 40 ms level (20 R572). -/
def execHoldUpStoreGood (charge : Nat) (s : State) : Host.Outcome State Fault Refusal := .next (holdupGood charge s)
/-- A window of the clock monitor ends (20 R581). -/
def execClockMonitorWindow (ppm : Int) (s : State) : Host.Outcome State Fault Refusal := .next (monitorWindow ppm s)
/-- Clock drift (20 R581). -/
def execClockDrift (ppm : Int) (s : State) : Host.Outcome State Fault Refusal := .next (clockDrift ppm s)
/-- Clock fault (20 R581). -/
def execClockFault (ppm : Int) (s : State) : Host.Outcome State Fault Refusal := .next (clockFault ppm s)
/-- A clock loses lock (20 R582). -/
def execClockLost (domain : Fin 14) (s : State) : Host.Outcome State Fault Refusal := .next (clockLost domain.val s)
/-- The internal temperature is read (20 R583). -/
def execTemperatureRead (temp : Int) (s : State) : Host.Outcome State Fault Refusal := .next (temperatureRead temp s)
/-- The counters are mirrored (19 R558). -/
def execHeaderMirror (s : State) : Host.Outcome State Fault Refusal := .next (if awake s then mirrorHeader s else s)
/-- A base tick of the logic engine (09 R267; 20 R588). -/
def execLogicBaseTick (s : State) : Host.Outcome State Fault Refusal := .next (baseTickAll s)
/-- BIVOUAC (20 R586). -/
def execBivouac (m : Msg) (s : State) : Host.Outcome State Fault Refusal := .next (onSized m 0x0E .engineer 8 bivouacMsg s)
/-- The logic engine's request (20 R586). -/
def execBivouacRequest (timer : Nat) (s : State) : Host.Outcome State Fault Refusal := .next (bivRequest timer s)
/-- The final checkpoint is complete and everything else of t4 too (20 R588). -/
def execBivouacEntered (s : State) : Host.Outcome State Fault Refusal :=
  .next (if s.mod.state == .run && wakeArmed s then enterBivouac s.mod.bivRequestTimer s else s)
/-- The active module's request reaches the standby (20 R588 t1). -/
def execGuyLineBivouacRequest (timer : Nat) (s : State) : Host.Outcome State Fault Refusal :=
  .next (if s.mod.state == .standby then enterBivouac timer s else s)
/-- A controller wakes the module (16 R497; 20 R589). -/
def execCanWake (c : Fin 4) (f : Option CanFrame) (s : State) : Host.Outcome State Fault Refusal := .next (canWake c.val f s)
/-- A wake input wakes the module (20 R589). -/
def execWakeInput (n : Fin 8) (rising : Bool) (s : State) : Host.Outcome State Fault Refusal := .next (wakeInput n.val rising s)
/-- The silt timer runs out (20 R589). -/
def execSiltTimer (s : State) : Host.Outcome State Fault Refusal := .next (siltTimeout s)
/-- An MMP wake (20 R589). -/
def execMmpWake (m : Msg) (s : State) : Host.Outcome State Fault Refusal := .next (mmpWake m s)
/-- The partner's wake line (20 R590). -/
def execWakeLine (s : State) : Host.Outcome State Fault Refusal := .next (wakeBy { cause := 0 } s)

end Sys2Proof.Machine
end

