-- ==== Sys2Proof/Machine/Pair.lean ====
section
/-! DEFINITION. The pair logic: heartbeats, claims, take-over, hold-off and handover (17 R502–R523), and the module
restart (15 R481, R482). -/

namespace Sys2Proof.Machine

/-- True on the double groundsheet, while the module is powered and not in BIVOUAC. -/
def paired (s : State) : Bool := awake s && s.mod.position != 0

/-! ### Take-over (17 R513–R517) -/

/-- A take-over begins: 0 heartbeats missed, 1 handshake, 2 claim after the link was lost.
In part by log 52 (DEDUCED, unsafe). -/
def beginTakeover (trigger : Nat) (s : State) : State :=
  let s1 := raiseN Ev.PAIR_PARTNER_LOST 0xCB s.pair.partner.modState s
  let s2 := raiseN Ev.PAIR_TAKEOVER 0xCB (trigger + 256 * (s.ckpt.pairSeq % 16777216)) s1
  s2.setPair (fun p =>
    { p with
      role := .takingOver, claim := true, enabled := true, partnerClaim := false, lastHeartbeatAt := s.now
      takeoverByHandshake := trigger == 1, byRestart := trigger == 1 && p.handshake != 1
      takeoverAt := if trigger = 1 then p.takeoverAt else p.heardAt
      handshake := 0, holdoffStart := none, waitUntilRun := false, takeoverWaits := none, startRestore := false })

/-- PAIR_TAKEOVER: the standby takes control, after a re-pitch that runs; a module that waits to restart restarts.
In part by log 52 (DEDUCED, unsafe). -/
def pairTakeover (s : State) : State :=
  if !paired s || s.mod.state != .standby || s.pair.role == .takingOver then s
  else
    let trigger := if s.partnerHeard && s.pair.partner.handshake = 3 then 1 else if s.pair.guyLost then 2 else 0
    let s1 := if trigger = 1 then s else s.setPair (fun p => { p with heard := false, partnerClaim := false })
    if s1.mod.restartAfterHandover then restartNow .restart s1
    else if s1.pair.repitch then s1.setPair (fun p => { p with takeoverWaits := some trigger })
    else beginTakeover trigger s1

/-- What a take-over starts from: image values, no forces, and no released output. -/
def takeoverBase (s : State) : State :=
  let s1 := imageValues { s with
    logic := { s.logic with forces := [] }, pi := s.pi.filter (fun p => !(s.lay p.1).out) }
  let s2 := forRange 4 (fun a t =>
    t.setAxis a (fun x => if (axCfg t a).mode = 0 then x else { x with source := .unknown, pending := none })) s1
  { s2 with points := (s2.points.map (fun p => (p.1, { p.2 with count := 0 }))).filter (fun p => p.2 != default) }

/-- t4 of a take-over. -/
def finishTakeover (peg : Option Ckpt) (s : State) : State :=
  let ck := peg.filter (ckptMine s)
  let age := s.pair.partner.ckptAge + (s.now - s.pair.heardAt) / 1000000
  let s1 := takeoverBase s
  let s2 := match ck with
    | some c => restoreForces c (restoreProcess c s1)
    | none => raiseN Ev.PAIR_NO_CKPT 0xCB 0 s1
  let s3 := s2.setMod (fun m => { m with state := .run })
  let s4 := s3.setPair (fun p =>
    { p with
      role := .active, last := min top16 ((s.now - p.takeoverAt) / 100000)
      lastAge := if ck.isSome then min 255 (age / 10) else 0
      switches := if p.takeoverByHandshake then p.switches else satInc top16 p.switches
      handovers := if p.takeoverByHandshake then satInc top16 p.handovers else p.handovers })
  let s5 := runConfigured s4
  let s6 := if s5.running .bedrock then restoreBedrock ck age s5 else s5
  let s7 := raiseIf s.pair.takeoverByHandshake Ev.PAIR_HANDOVER 0xCB (b2n s.pair.byRestart) s6
  let s8 := match ck with
    | some c => s7.setCkpt (fun k => { k with pairSeq := c.seq, pairAt := some (s.now - 1000000 * age), pairKib := c.kib })
    | none => s7
  driveAll (if s8.running .panel then redrawAll s8 else s8)

/-- TAKEOVER_RESTORE: the checkpoint read completes, for a take-over or for the start that R508 held back.
In part by log 52 (DEDUCED, unsafe). -/
def takeoverRestore (peg : Option Ckpt) (s : State) : State :=
  if !paired s || s.mod.state != .standby || s.pair.role != .takingOver then s
  else if s.pair.startRestore then
    startRun peg (s.setPair (fun p => { p with role := .active, startRestore := false }))
  else finishTakeover peg s

/-- The wait of R508 ends after 3 s: the module asserts its claim and reads the checkpoint for its start. -/
def waitEnds (s : State) : State :=
  if s.pair.waitUntilRun && s.mod.state == .standby && decide (s.pair.waitSince + 3000000000 ≤ s.now) then
    s.setPair (fun p =>
      { p with
        waitUntilRun := false, role := .takingOver, startRestore := true, claim := true, lastHeartbeatAt := s.now
        enabled := !p.partnerClaim })
  else s

/-- PITCH ends; a take-over that waited for a re-pitch begins. -/
def pitchEnds (peg : Option Ckpt) (claim same : Bool) (s : State) : State :=
  let t := pitchEnd peg claim same s
  match t.pair.takeoverWaits with
  | some n => if t.mod.state == .standby && !t.pair.repitch then beginTakeover n t else t
  | none => t

/-! ### Handover (17 R519, R520) -/

/-- A COMMIT, an open peg slot or local control keeps a grant waiting. -/
def grantBlocked (s : State) : Bool := committing s || s.peg.openSlot.isSome || !s.panel.locals.isEmpty

/-- The active module grants a handover, or keeps the grant waiting. In part by log 52 (DEDUCED, unsafe). -/
def grantHandover (s : State) : State :=
  if grantBlocked s then s.setPair (fun p => { p with grantWaits := true })
  else s.setPair (fun p => { p with grantWaits := false, handshake := 2, role := .handingOver })

/-- HANDOVER_REQUEST. -/
def handoverRequest (s : State) : State :=
  if paired s && s.mod.state == .run && s.pair.role == .active then grantHandover s else s

/-- t2: no unit of any engine is running. In part by log 37 (DEDUCED, unsafe). -/
def handoverIdle (s : State) : State :=
  if s.pair.role == .handingOver && s.logic.held && !s.pair.handoverHold && allIdle s && !s.mod.warning then
    beginCkpt (s.setPair (fun p => { p with handoverHold := true }))
  else s

/-- The fields of the heartbeat that the module sends now. -/
def ownHeartbeat (s : State) : Heartbeat :=
  { health := s.healthNow, modState := modCode s.mod.state, holdCause := holdCode s.mod.hold, imgSeq := s.imgId.seq
    repitch := s.pair.repitch, commissioned := match s.lastCommissioned with | some v => v | none => 0#32
    prefOtp := ownPref s, position := s.mod.position, ckptSeq := s.ckpt.pairSeq
    ckptAge := match s.ckpt.pairAt with | some t => (s.now - t) / 1000000 | none => top16
    handshake := s.pair.handshake }

/-- Sends a heartbeat now. -/
def sendHeartbeat (s : State) : State :=
  let h := ownHeartbeat s
  (s.setMod (fun m => { m with health := h.health })).setPair (fun p =>
    { p with sent := .heartbeat h :: p.sent, lastHeartbeatAt := s.now })

/-- The old active module enters STANDBY, with its stages at the groundsheet states. -/
def leaveControl (s : State) : State :=
  let s1 := outputsOff (s.setPair (fun p =>
    { p with role := .standby, claim := false, enabled := false, handoverHold := false, holdoffStart := none, grantWaits := false }))
  let s2 := { s1 with mod := { s1.mod with state := .standby }, logic := { s1.logic with held := false, forces := [] } }
  forAll allFns (fun f t => if inStandbySet f && t.fnState f == .run then enterStandby f t else t) s2

/-- t3: the final checkpoint is complete. In part by log 52 (DEDUCED, unsafe). -/
def handoverDone (s : State) : State :=
  if s.pair.role != .handingOver || !s.pair.handoverHold then s
  else
    let s1 := ckptWritten true (ckptWritten false s)
    leaveControl (sendHeartbeat (s1.setPair (fun p => { p with handshake := 3 })))

/-- HOLDOFF_END: the preferred module asks for control. In part by log 52 (DEDUCED, unsafe). -/
def holdoffEnd (s : State) : State :=
  if paired s && s.mod.state == .standby && s.pair.holdoffStart.isSome && isPreferred s && standbyReady s then
    s.setPair (fun p => { p with holdoffStart := none, handshake := 1 })
  else s

/-! ### Heartbeats and claims (17 R503–R507) -/

/-- HEARTBEAT_SEND: not before the end of SELF-TEST, nor in HOLD. In part by log 52 (DEDUCED, unsafe). -/
def heartbeatSend (s : State) : State :=
  match s.mod.state with
  | .imageSelect | .pitch | .run | .standby =>
    if s.mod.position = 0 then s
    else
      let s1 := waitEnds s
      let s2 := if s1.pair.grantWaits && s1.pair.role == .active then grantHandover s1 else s1
      sendHeartbeat s2
  | _ => s

/-- What the standby learns of checkpoints, and the end of a handshake, from a heartbeat.
In part by log 52 (DEDUCED, unsafe). -/
def heartbeatNotes (h : Heartbeat) (s : State) : State :=
  let s1 := if s.mod.state == .standby && h.modState = 4 then
      s.setCkpt (fun k => { k with pairSeq := h.ckptSeq, pairAt := some (s.now - 1000000 * h.ckptAge) })
    else s
  s1.setPair (fun p =>
    { p with
      handshake := if s.mod.state == .standby && p.handshake = 3 && h.modState = 4 && h.handshake = 0 then 0
        else if s.mod.state == .standby && p.handshake = 1 && !isPreferred s then 0 else p.handshake
      takeoverAt := if h.handshake = 2 && s.mod.state == .standby && p.partner.handshake != 2 then s.now else p.takeoverAt
      waitUntilRun := p.waitUntilRun && h.modState != 4
      partner := h })

/-- A valid heartbeat arrives; `claim` is the partner's claim as sensed. In part by log 52 (DEDUCED, unsafe). -/
def heartbeatIn (h : Heartbeat) (claim : Bool) (s : State) : State :=
  if !paired s || !h.crcOk then s
  else
    let was := s.partnerHeard
    let s1 := (heartbeatNotes h s).setPair (fun p =>
      { p with heard := true, everHeard := true, heardAt := s.now, partnerClaim := claim, guyLost := false })
    let s2 := raiseIf s.pair.guyLost Ev.PAIR_GUY_OK 0xCB 0 s1
    let s3 := if was || !(s.mod.state == .run || s.mod.state == .standby) then s2 else decidePref s2
    if s3.mod.restartAfterHandover && s3.mod.state == .standby && h.modState = 4 then restartNow .restart s3
    else waitEnds (holdoffNote s3)

/-- PAIR_GUY_LOST: no heartbeat for 60 ms while the partner's claim is asserted. -/
def guyLost (s : State) : State :=
  if !paired s || s.pair.guyLost then s
  else
    raiseN Ev.PAIR_GUY_LOST 0xCB 0
      (s.setPair (fun p => { p with heard := false, guyLost := true, partnerClaim := true, holdoffStart := none }))

/-- CLAIM_DROP: the interlock no longer enables this position. In part by log 43 (DEDUCED, unsafe). -/
def claimDrop (s : State) : State :=
  if !paired s || !s.pair.claim then s
  else outputsOff (s.setPair (fun p => { p with claim := false, enabled := false }))

/-- PREF_STRAP_SENSE: a change is announced and takes effect at the next decision. -/
def prefStraps (n : Nat) (s : State) : State :=
  if !paired s || s.pair.straps = n then s else prefConflict (s.setPair (fun p => { p with straps := n }))

/-- STANDBY_CKPT_CHECK. In part by log 53 (DEDUCED, unsafe). -/
def standbyCheck (seq ageMs kib : Nat) (buf ok : Bool) (s : State) : State :=
  if !paired s || s.mod.state != .standby then s
  else if ok then
    (s.setPair (fun p => { p with ckptBad := false })).setCkpt (fun k =>
      { k with pairSeq := wrap32 seq, pairAt := some (s.now - 1000000 * ageMs), pairKib := kib })
  else raiseN Ev.PAIR_CKPT_BAD 0xCB (b2n buf) (s.setPair (fun p => { p with ckptBad := true }))

/-! ### The module restart (15 R481, R482) -/

/-- MODULE_RESTART after the checks of its frame. In part by log 52 (DEDUCED, unsafe). -/
def moduleRestart (q : Req) (s : State) : State :=
  if leAt q.payload 0 4 != 0x52455354 then answer q .format s
  else if s.mod.restartAfterHandover then s
  else
    let first := bitOf 0 (leAt q.payload 4 1)
    let s1 := raise Ev.MODULE_RESTART 0xFE
      (w32 (b2n first + 2 * roleNo q.role + 256 * (q.sender % 16777216))) (.role q.role) (answer q .ok s)
    if first && s1.mod.state == .run && s1.pair.role == .active && s1.partnerHeard && s1.pair.partner.modState = 5 then
      grantHandover (s1.setMod (fun m => { m with restartAfterHandover := true }))
    else restartNow .restart s1

/-! ### The commands -/

/-- PITCH ends (01 R25–R27; 17 R508; 20 R585). -/
def execPitchEnd (peg : Option Ckpt) (claim same : Bool) (s : State) : Host.Outcome State Fault Refusal :=
  .next (pitchEnds peg claim same s)
/-- MODULE_RESTART (15 R481). -/
def execModuleRestart (m : Msg) (s : State) : Host.Outcome State Fault Refusal := .next (onSized m 4 .engineer 5 moduleRestart s)
/-- A heartbeat is sent (17 R506). -/
def execHeartbeatSend (s : State) : Host.Outcome State Fault Refusal := .next (heartbeatSend s)
/-- A heartbeat arrives (17 R507). -/
def execHeartbeat (h : Heartbeat) (claim : Bool) (s : State) : Host.Outcome State Fault Refusal := .next (heartbeatIn h claim s)
/-- The link to the partner is lost (17 R507). -/
def execPairGuyLost (s : State) : Host.Outcome State Fault Refusal := .next (guyLost s)
/-- The claim drops (17 R505). -/
def execClaimDrop (s : State) : Host.Outcome State Fault Refusal := .next (claimDrop s)
/-- A take-over begins (17 R513). -/
def execPairTakeover (s : State) : Host.Outcome State Fault Refusal := .next (pairTakeover s)
/-- The checkpoint of a take-over has been read (17 R514 t3, R516). -/
def execTakeoverRestore (peg : Option Ckpt) (s : State) : Host.Outcome State Fault Refusal := .next (takeoverRestore peg s)
/-- The hold-off ends (17 R519). -/
def execHoldoffEnd (s : State) : Host.Outcome State Fault Refusal := .next (holdoffEnd s)
/-- A handover is asked for (17 R519). -/
def execHandoverRequest (s : State) : Host.Outcome State Fault Refusal := .next (handoverRequest s)
/-- No unit of any engine is running (17 R520 t2). -/
def execHandoverIdle (s : State) : Host.Outcome State Fault Refusal := .next (handoverIdle s)
/-- The final checkpoint is complete (17 R520 t3). -/
def execHandoverCheckpoint (s : State) : Host.Outcome State Fault Refusal := .next (handoverDone s)
/-- The standby checks the newest checkpoint (17 R509). -/
def execStandbyCkptCheck (seq ageMs kib : Nat) (buf ok : Bool) (s : State) : Host.Outcome State Fault Refusal :=
  .next (standbyCheck seq ageMs kib buf ok s)
/-- The preference straps are sensed (17 R503). -/
def execPrefStrapSense (straps : Fin 4) (s : State) : Host.Outcome State Fault Refusal := .next (prefStraps straps.val s)

end Sys2Proof.Machine
end

