-- ==== Sys2Proof/Machine/Objects.lean ====
section
/-! DEFINITION. The object space: what every object reads as, and what a write of it does (00 R3–R6; 01 R19, R28, R615;
02 R43, R60, R64; 15 R483, R484; 17 R522; 20 R595, R596; and the object maps of the other chapters). -/

namespace Sys2Proof.Machine

/-! ### Addresses (00 R3, R4) -/

/-- The last block of a function: every block from 0x00 on is defined. -/
def lastBlock : Fn → Nat
  | .module => 8 | .logic => 5 | .loop => 7 | .bedrock => 6 | .alarm => 6 | .time => 7 | .ring => 2 | .recorder => 3
  | .pool => 3 | .peg => 3 | .panel => 4 | .guy => 2 | .bank _ => 0xB | .group _ => 3 | .axis _ => 3 | .can _ => 6

/-! ### Function header and configuration shadow (01 R19, R615) -/

/-- Block 0x00 of a function. -/
def headerObj (s : State) (f : Fn) (off : Nat) : Option Nat :=
  let h := s.hdr f
  if off = 0 then some (Config.revision.toNat + 65536 * fnType f + 16777216 * fnId f)
  else if off = 4 then
    some (fnStateCode h.state + 256 * b2n h.powered + 512 * b2n h.clocked + 1024 * b2n (masked s f) + 65536 * h.fault)
  else if off = 8 then some 0
  else if off = 0xC then some h.evstat.toNat
  else if off = 0x10 then some h.evmask.toNat
  else if off = 0x14 then some h.resets
  else if off = 0x18 then some h.imageref.toNat
  else none

/-- The section types that a function's shadow can show, the first one at reset.
In part by log 7 (DESIGN CHOICE, safe). -/
def shdSects : Fn → List Nat
  | .module => [0x0F, 0x0B] | .logic => [1, 2, 3] | .loop => [4] | .bedrock => [6] | .alarm => [5] | .time => [0x0B]
  | .ring => [0x0B] | .recorder => [0x0E] | .pool => [0x0F] | .peg => [] | .panel => [0x0C] | .guy => [0x0D]
  | .bank _ => [7] | .group _ => [8] | .axis _ => [9] | .can _ => [0x0A]

/-- True for a section that configures several functions, each by its own record. -/
def sharedSect (ty : Nat) : Bool := ty == 0x0F || ty == 0x0B || (7 ≤ ty && ty ≤ 0x0A)

/-- The section that a function's shadow shows now; 0 where it shows none. -/
def shdType (s : State) (f : Fn) : Nat :=
  match (s.hdr f).shdSect with
  | some t => t
  | none => (shdSects f).headD 0

/-- The part of the section shown that configures the function. -/
def shdPart (s : State) (f : Fn) : List Byte :=
  let ty := shdType s f
  if (shdSects f).isEmpty then []
  else
    match s.sections.find? (fun x => x.ty == ty) with
    | none => []
    | some x => if sharedSect ty then Config.recordOf (fnId f) ty x.bytes else x.bytes

/-- Block 0x01 of a function. -/
def shadowObj (s : State) (f : Fn) (off : Nat) : Option Nat :=
  if off = 0 then some (shdType s f)
  else if off = 4 then some (s.hdr f).shdBase
  else if off = 8 then some (shdPart s f).length
  else if off = 0xC then some (crc32c (shdPart s f)).toNat
  else if off ≤ 0xFFFC then some (leAt (shdPart s f) ((s.hdr f).shdBase + off - 0x10) 4)
  else none

/-! ### Function 0x00 (01 R28; 02 R64; 15 R484; 20 R595, R596) -/

/-- The current value of the selected one-time setting, as OTP_VALUE shows it. -/
def otpShown (s : State) : W32 :=
  let i := s.otp.selItem
  if i = 1 ∨ i = 2 ∨ i = 3 ∨ i = 5 then s.otpWord i s.otp.selIndex 0#32 else 0#32

/-- Block 0x03 of function 0x00. -/
def otpObj (s : State) (off : Nat) : Option Nat :=
  let o := s.otp
  if off = 0 then some (o.selItem + 256 * o.selIndex)
  else if off = 4 then some o.data.toNat
  else if off = 8 then some 0
  else if off = 0xC then
    some (s.otpUsed o.selItem o.selIndex + 256 * otpAllowed o.selItem + 65536 * o.result + 16777216 * b2n o.busy.isSome)
  else if off = 0x10 then some (otpShown s).toNat
  else none

/-- Block 0x06 of function 0x00. -/
def mmpObj (s : State) (off : Nat) : Option Nat :=
  let m := s.mmp
  if off = 0 then some s.epoch
  else if off = 4 then some m.rxOk
  else if off = 8 then some (m.authFail + 65536 * m.frameFail)
  else if off = 0xC then some m.replay
  else if off = 0x10 then
    some (b2n (s.roleKey .observe).isSome + 2 * b2n (s.roleKey .operate).isSome + 4 * b2n (s.roleKey .engineer).isSome
      + 8 * b2n (s.roleKey .commission).isSome + 16 * s.otpUsed 4 0)
  else if off = 0x14 then some ((s.img.mmp.pubs.filter (fun p => p.2.period != 0)).length + 65536 * m.pubSkipped)
  else if off = 0x18 then some m.notifyLost
  else if off = 0x1C then some m.pairs.length
  else none

/-- Block 0x07 of function 0x00, the measured powers of PWR_DRAW apart. -/
def powerObj (s : State) (off : Nat) : Option Nat :=
  let m := s.mod
  if off = 0 then some (m.supplyA % 65536 + 65536 * (m.supplyB % 65536))
  else if off = 4 then some (b2n m.warning + 2 * b2n m.storeGood + 256 * min 255 m.charge + 65536 * m.warnEnded)
  else if off = 8 then some 0
  else if off = 0xC then some (s16 m.temp + 65536 * s16 m.tempMax)
  else if off = 0x10 then some (s16 (max (-32768) (min 32767 m.clkDev)) + 65536 * b2n m.drift)
  else if off = 0x14 then some m.domains.toNat
  else if off = 0x18 then some m.clocks.toNat
  else if off = 0x1C then some (operSecs s)
  else if off = 0x20 then some m.powerCycles
  else if off = 0x24 then some (match newestLocal s with | some c => c.seq | none => 0)
  else if off = 0x28 then
    some (match newestLocal s with
      | some c => min top16 (ckptAge s c) + 65536 * (c.kib % 1024) + 67108864 * b2n (s.ckpt.halfB == some c)
      | none => top16) |>.map (· + 134217728 * b2n m.restored)
  else none

/-- Block 0x08 of function 0x00. -/
def bivouacObj (s : State) (off : Nat) : Option Nat :=
  let m := s.mod
  if off = 0 then some (bivTimer s)
  else if off = 4 then some (m.bivCause + 256 * m.bivArg + 65536 * m.bivRejected)
  else if off = 8 then some m.bivCount
  else none

/-- Blocks 0x02 to 0x08 of function 0x00. -/
def moduleObj (s : State) (blk off : Nat) : Option Nat :=
  if blk = 2 then
    if off = 0 then some (modCode s.mod.state + 256 * holdCode s.mod.hold)
    else if off = 4 then some s.mod.health.toNat
    else none
  else if blk = 3 then otpObj s off
  else if blk = 6 then mmpObj s off
  else if blk = 7 then powerObj s off
  else if blk = 8 then bivouacObj s off
  else trxObj s blk off

/-! ### Peg, ring ports and pair (02 R43, R60; 15 R483; 17 R522) -/

/-- The code of a slot status. -/
def slotStatCode : SlotStat → Nat
  | .empty => 0 | .headerBad => 1 | .formatUnsupported => 2 | .crcBad => 3 | .stationMismatch => 4 | .verified => 5
  | .droppedSafety => 6 | .chosen => 7 | .writeOpen => 8

/-- The code of CHG_STATE. -/
def chgCode : ChgState → Nat
  | .idle => 0 | .writing => 1 | .verifying => 2 | .staging => 3 | .waitInstant => 4 | .switching => 5

/-- Blocks 0x02 and 0x03 of function 0x09. -/
def pegObj (s : State) (blk off : Nat) : Option Nat :=
  let p := s.peg
  if blk = 2 then
    if off = 0 then
      some (p.sel + 4 * b2n p.uncommissioned + 8 * b2n (differMask p.slots != 0) + 16 * b2n p.present
        + 32 * b2n s.lastCommissioned.isSome)
    else if off = 4 then some (match s.lastCommissioned with | some v => v.toNat | none => 0)
    else if 0x10 ≤ off && off < 0x40 then
      let x := p.slots.look (off / 16 - 1)
      let k := off % 16
      some (if k = 0 then slotStatCode x.stat + 256 * b2n x.differs else if k = 4 then x.seq.toNat
        else if k = 8 then x.safety.toNat else x.crc.toNat)
    else none
  else if off = 0 then some (chgCode p.chg + 16 * p.chgSlot)
  else if off = 4 then some p.chgResult
  else if off = 8 then some p.chgSeq.toNat
  else if off = 0xC then some p.chgInstant.toNat
  else if off = 0x10 then some p.chgPause
  else if off = 0x14 then some p.chgCount
  else none

/-- Block 0x02 of function 0x06. -/
def ringObj (s : State) (off : Nat) : Option Nat :=
  if 0x40 ≤ off then none
  else
    let x := s.mmp.ports.look (off / 32)
    let k := off % 32
    some (
      if k = 0 then b2n x.up + 2 * x.speed + 8 * b2n x.supOk + 65536 * x.downs
      else if k = 4 then x.rx else if k = 8 then x.tx else if k = 0xC then x.fwd else if k = 0x10 then x.dup
      else if k = 0x14 then x.fcs + 65536 * x.size
      else if k = 0x18 then x.drop
      else match x.supAt with | some t => min top16 ((s.now - t) / 1000000) | none => top16)

/-- PAIR_STAT. In part by log 52 (DEDUCED, unsafe). -/
def pairStat (s : State) : Nat :=
  let p := s.pair
  s.mod.position + 4 * p.preferred + 16 * p.prefSource + 64 * b2n (isPreferred s) + 128 * pairRoleCode p.role
    + 1024 * b2n s.partnerHeard + 2048 * b2n p.partnerClaim + 4096 * b2n (standbyReady s) + 8192 * b2n p.statePeg
    + 16384 * b2n p.conflict

/-- PAIR_PARTNER_RDY: PAIR_STAT as the partner sees it. In part by log 52 (DEDUCED, unsafe). -/
def partnerStat (s : State) : Nat :=
  let p := s.pair
  let h := p.partner
  if !p.everHeard then 0
  else
    h.position + 4 * p.preferred + 16 * p.prefSource + 64 * b2n (h.position == p.preferred + 1)
      + 128 * (if h.modState = 4 then 1 else if h.modState = 5 then 2 else 5)
      + 1024 * b2n s.partnerHeard + 2048 * b2n p.claim + 4096 * b2n s.partnerReady + 8192 * b2n p.statePeg
      + 16384 * b2n p.conflict

/-- Block 0x02 of function 0x0B. -/
def pairObj (s : State) (off : Nat) : Option Nat :=
  let p := s.pair
  let k := s.ckpt
  if off = 0 then some (pairStat s)
  else if off = 4 then some p.partner.health.toNat
  else if off = 8 then some (partnerStat s)
  else if off = 0xC then
    some (match p.holdoffStart with
      | some t => s.img.pair.holdoffMin * 60 - (s.now - t) / 1000000000
      | none => top16)
  else if off = 0x10 then some k.pairSeq
  else if off = 0x14 then
    some ((match k.pairAt with | some t => min top16 ((s.now - t) / 1000000) | none => top16) + 65536 * k.pairKib)
  else if off = 0x18 then some p.ckptSkip
  else if off = 0x1C then some (p.switches + 65536 * p.handovers)
  else if off = 0x20 then some (p.last + 65536 * p.lastAge)
  else none

/-! ### Reading (00 R4, R5) -/

/-- Objects of a function from block 0x02 on. -/
def bodyObj (s : State) (f : Fn) (blk off : Nat) : Option Nat :=
  match f with
  | .module => moduleObj s blk off
  | .logic => if blk = 5 && off = 0 then some 0 else logicObj s blk off
  | .loop =>
    if (blk = 4 && off < 0x1000 && off % 16 = 0xC) || (blk = 6 && off = 0x20) then some 0 else loopObj s blk off
  | .bedrock => sfObj s blk off
  | .alarm => if blk = 6 && off = 0x1C then some 0 else almObj s blk off
  | .time => timeObj s blk off
  | .ring => ringObj s off
  | .recorder => recObj s blk off
  | .pool => poolObj s blk off
  | .peg => pegObj s blk off
  | .panel => panelObj s blk off
  | .guy => pairObj s off
  | .bank b => bankObj s b.val blk off
  | .group g => groupObj s g.val blk off
  | .axis a => if blk = 3 && off = 0 then some 0 else axisObj s a.val blk off
  | .can c => canObj s c.val blk off

/-- The word at a block and offset of a function; none where the map defines no object there. -/
def objWord (s : State) (f : Fn) (blk off : Nat) : Option Nat :=
  if blk = 0 then headerObj s f off else if blk = 1 then shadowObj s f off else bodyObj s f blk off

/-- The bits of an object that are measured values which no command carries: BANK_POWER and FIELD_TOTAL in their upper
halves, and PWR_DRAW. -/
def measuredBits (f : Fn) (blk off : Nat) : W32 :=
  match f with
  | .bank _ => if blk = 3 && (off = 4 || off = 8) then 0xFFFF0000#32 else 0#32
  | .module => if blk = 7 && off = 8 then 0xFFFFFFFF#32 else 0#32
  | _ => 0#32

/-- An address split into function ID, block and offset. -/
def splitAddr (a : Nat) : Nat × Nat × Nat := (a / 16777216 % 256, a / 65536 % 256, a % 65536)

/-- The checks of 00 R4 in their order; the offset may have run past the end of its block.
In part by log 17 (DEDUCED, unsafe). -/
def addrStatus (s : State) (ff blk off : Nat) : Status :=
  match fnOfId ff with
  | none => .function
  | some f =>
    if lastBlock f < blk then .object
    else if off % 4 ≠ 0 then .align
    else if 65536 ≤ off ∨ (objWord s f blk off).isNone then .object
    else .ok

/-- One word is read: a read of TIME_LO latches TIME_HI, and a measured value is a free value.
In part by log 1 (DESIGN CHOICE, safe). -/
def readWord (f : Fn) (blk off : Nat) (s : State) : W32 × State :=
  let v := match objWord s f blk off with | some n => w32 n | none => 0#32
  if measuredBits f blk off != 0#32 then
    let p := takeFree s
    (v ||| (p.1 &&& measuredBits f blk off), p.2)
  else if f = .time ∧ blk = 2 ∧ off = 0 then (v, latchTime s)
  else (v, s)

/-- The words of a list of addresses in order: the status of the first refusal, or the words. -/
def readWords : List (Nat × Nat × Nat) → List W32 → State → Status × List W32 × State
  | [], acc, s => (.ok, acc.reverse, s)
  | (ff, blk, off) :: r, acc, s =>
    match addrStatus s ff blk off, fnOfId ff with
    | .ok, some f =>
      let p := readWord f blk off s
      readWords r (p.1 :: acc) p.2
    | st, _ => (st, [], s)

/-! ### Writing (00 R5) -/

/-- The answer to a write: its status, its result byte and the state. -/
abbrev WriteRes := Status × Nat × State

/-- The write is done. -/
def wrote (s : State) : WriteRes := (.ok, 0, s)
/-- The write is refused with a status. In part by log 16 (DEDUCED, unsafe). -/
def denied (st : Status) (s : State) : WriteRes := (st, 0, s)
/-- The write was answered by the object's own result code, of which 1 is ROLE (02 R617).
In part by log 59 (DEDUCED, unsafe). -/
def byCode (n : Nat) (s : State) : WriteRes := (if n = 0 then .ok else if n = 1 then .role else .refused, n, s)
/-- The value is taken, or refused by the object. In part by log 59 (DEDUCED, unsafe). -/
def taken (v : Option State) (s : State) : WriteRes := match v with | some t => wrote t | none => denied .access s
/-- The writer must hold a role. In part by log 16 (DEDUCED, unsafe). -/
def needs (least r : Role) (s : State) (k : WriteRes) : WriteRes := if roleAtLeast r least then k else denied .role s

/-- A write of a function header. -/
def headerWrite (f : Fn) (off : Nat) (v : W32) (r : Role) (s : State) : WriteRes :=
  if off = 8 then
    let x := fnCtrl f v r s
    (x.1, 0, x.2)
  else if off = 0xC then needs .engineer r s (wrote (s.setHdr f (fun h => { h with evstat := h.evstat &&& ~~~v })))
  else if off = 0x10 then needs .engineer r s (wrote (s.setHdr f (fun h => { h with evmask := v })))
  else denied .access s

/-- A write of a configuration shadow. -/
def shadowWrite (f : Fn) (off : Nat) (v : W32) (s : State) : WriteRes :=
  if off = 0 then
    if (shdSects f).contains (v.toNat % 256) then
      wrote (s.setHdr f (fun h => { h with shdSect := some (v.toNat % 256) }))
    else denied .access s
  else if off = 4 then
    let n := v.toNat % 4194304
    if n % 4 = 0 ∧ (n = 0 ∨ n < (shdPart s f).length) then wrote (s.setHdr f (fun h => { h with shdBase := n }))
    else denied .access s
  else denied .access s

/-- A write of an object of function 0x00 from block 0x02 on. -/
def moduleWrite (blk off : Nat) (v : W32) (r : Role) (s : State) : WriteRes :=
  if blk = 3 && off = 0 then
    needs .engineer r s (wrote (s.setOtp (fun o => { o with selItem := v.toNat % 256, selIndex := v.toNat / 256 % 256 })))
  else if blk = 3 && off = 4 then needs .engineer r s (wrote (s.setOtp (fun o => { o with data := v })))
  else if blk = 3 && off = 8 then
    if v == 0x0A7B0001#32 || v == 0x0A7B0002#32 then
      let x := otpCommand (v == 0x0A7B0002#32) r s
      byCode x.1 x.2
    else denied .access s
  else if blk = 5 && off = 0 then needs .engineer r s (wrote { s with divSel := v.toNat % 32768 })
  else if blk = 8 && off = 0 then needs .engineer r s (wrote (s.setMod (fun m => { m with bivTimerSet := some v.toNat })))
  else denied .access s

/-- A write of an object of the loop engine (11 R352–R355). -/
def loopWrite (blk off : Nat) (v : W32) (r : Role) (s : State) : WriteRes :=
  let loops := fun (t : State) => byCode t.loops.cmdRes t
  if blk = 4 then
    let n := off / 16
    if off % 16 = 0 then loops (lpTarget n v r s)
    else if off % 16 = 4 then loops (lpManv n v r s)
    else if off % 16 = 8 then loops (lpModeReq n v r s)
    else if v == 0x100F0001#32 then loops (loopSwap n r s)
    else if v == 0x100F0002#32 then loops (loopRestart n r s)
    else denied .access s
  else if blk = 5 then
    let n := off / 64
    let k := off % 64 / 4
    if k < 6 then loops (bankEdit n false k v r s)
    else if 8 ≤ k && k < 14 then loops (bankEdit n true (k - 8) v r s)
    else denied .access s
  else if blk = 6 then
    if off = 0x20 then
      if v == 0x7E570001#32 then
        let t := testStart r s
        byCode t.loops.test.result t
      else if v == 0x7E570002#32 then needs .engineer r s (wrote (testStop r s))
      else denied .access s
    else if 0x24 ≤ off then denied .access s
    else
      needs .engineer r s (
        if testRunning s then denied .access s
        else
          let n := v.toNat
          let put := fun (p : Bool) (f : TestSt → TestSt) => if p then wrote (s.setTest f) else (.refused, 3, s)
          if off = 0 then
            put (n / 256 % 8 ≤ 4 && 7 ≤ n / 4096 % 16) (fun t =>
              { t with loop := n % 256, kind := n / 256 % 8, point := v.getLsbD 11, order := n / 4096 % 16 })
          else if off = 4 then put (n / 8388608 % 256 != 255) (fun t => { t with amp := v })
          else if off = 8 then put (1 ≤ n % 65536) (fun t => { t with width := n % 65536, dec := n / 65536 % 256 })
          else if off = 0xC then put true (fun t => { t with freq := v })
          else if off = 0x10 then put true (fun t => { t with guardLo := v })
          else if off = 0x14 then put true (fun t => { t with guardHi := v })
          else if off = 0x18 then put true (fun t => { t with pre := n % 65536 })
          else put (1 ≤ n % 131072 && n % 131072 ≤ 65536) (fun t => { t with len := n % 131072 }))
  else if blk = 7 && off = 0 then needs .engineer r s (wrote (s.setTest (fun t => { t with index := v.toNat % 65536 })))
  else denied .access s

/-- A write of an object of the alarm engine (08 R260–R262). -/
def almWrite (blk off : Nat) (v : W32) (r : Role) (s : State) : WriteRes :=
  if blk = 4 && off % 16 = 8 then needs .engineer r s (taken (shelveWrite (off / 16) v s) s)
  else if blk = 5 && off = 0 then needs .engineer r s (wrote (s.setAlm (fun a => { a with foSel := v.toNat % 256 })))
  else if blk = 6 && off = 0x14 then
    match umsWrite v r s with | some t => byCode t.alarm.cmdRes t | none => denied .access s
  else if blk = 6 && off = 0x18 then (let t := dutyWrite v r s; byCode t.alarm.cmdRes t)
  else if blk = 6 && off = 0x1C then
    match oosWrite v r s with
    | some t => if roleAtLeast r .engineer && almUsed s (v.toNat % 2048) then wrote t else byCode t.alarm.cmdRes t
    | none => denied .access s
  else denied .access s

/-- A write of an object of the time unit (07 R224, R225). -/
def timeWrite (blk off : Nat) (v : W32) (r : Role) (s : State) : WriteRes :=
  if blk = 4 then
    let n := off / 32
    let k := off % 32
    needs .engineer r s (
      if k = 0 then wrote (setUnit n (fun u => { u with target := v }) s)
      else if k = 4 then wrote (setUnit n (fun u => { u with period := v }) s)
      else if k = 8 then
        if v.toNat / 2 % 4 = 3 then denied .access s
        else
          let s1 := setUnit n (fun u => { u with action := v.toNat / 2 % 4 }) s
          wrote (if v.getLsbD 0 then matchArm n r s1 else setUnit n (fun u => { u with armed := false }) s1)
      else if k = 0x10 then wrote (setUnit n (fun u => { u with mask0 := v }) s)
      else if k = 0x14 then wrote (setUnit n (fun u => { u with mask1 := v }) s)
      else denied .access s)
  else if blk = 5 && (off = 0 || off = 4) then
    let e := capEn s
    let w : BitVec 64 := if off = 0 then e.extractLsb' 32 32 ++ v else v ++ e.extractLsb' 0 32
    needs .engineer r s (wrote (s.setTu (fun t => { t with capEnSet := some w })))
  else denied .access s

/-- A write of an object of a bank (03 R101, R102; 04 R141, R142; 05 R163). -/
def bankWrite (b blk off : Nat) (v : W32) (r : Role) (s : State) : WriteRes :=
  let trim := fun (t : State) => byCode (t.bank b).trim.result t
  if blk = 3 && off = 0xC then
    if v.toNat / 65536 != 0xC1EA then denied .access s
    else needs .engineer r s (wrote (chClear b (v.setWidth 16) r s))
  else if blk = 4 && off = 0 then
    needs .engineer r s (
      if (s.bank b).trim.state != .idle then denied .access s
      else wrote (setTrim b (fun t => { t with sel := v.toNat % 16 }) s))
  else if blk = 4 && off = 4 then
    if v == 0x7C1D0001#32 then trim (trimStart b 1 r s)
    else if v == 0x7C1D0002#32 then trim (trimStart b 2 r s)
    else if v == 0x7C1D0003#32 then trim (trimStart b 3 r s)
    else if v == 0x7C1D0010#32 then trim (trimAccept b r s)
    else if v == 0x7C1D0020#32 then trim (trimWriteCmd b r s)
    else if v == 0x7C1D0030#32 then trim (trimAbortCmd b r s)
    else denied .access s
  else if blk = 4 && off = 8 then needs .engineer r s (wrote (setTrim b (fun t => { t with meas := v }) s))
  else if blk = 5 && (off = 8 || off = 0xC) then
    let m : BitVec 48 := if off = 8 then v.setWidth 48 else v.setWidth 48 <<< 32
    needs .engineer r s (wrote (s.setBank b (fun k => { k with clampLatch := k.clampLatch &&& ~~~m })))
  else if blk = 7 && off ≤ 0xFC then
    let n := off / 8
    needs .engineer r s (wrote (s.setBank b (fun k =>
      { k with slotShd := k.slotShd.upd n (fun e => if off % 8 = 0 then { e with w0 := v } else { e with w1 := v &&& 3#32 }) })))
  else if blk = 7 && off = 0x100 then
    if v == 0x51070001#32 then
      let t := slotSubmit b r s
      byCode (t.bank b).subResult t
    else denied .access s
  else if blk = 9 && off = 0 then
    needs .engineer r s (wrote (s.setBank b (fun k => { k with linBrowse := v.toNat % 65536 })))
  else denied .access s

/-- A write of an object of a controller (16 R500). -/
def canWrite (c blk off : Nat) (v : W32) (r : Role) (s : State) : WriteRes :=
  if blk = 4 then
    let n := off / 16
    let k := off % 16
    needs .engineer r s (
      if k = 8 then wrote (pairLoad c n v r s)
      else if k = 0xC then denied .access s
      else wrote (pairStage c n (k / 4) v s))
  else if blk = 6 then
    needs .engineer r s (
      if off = 0 then (if v.toNat % 4 = 3 then denied .access s else wrote (canTestWrite c v r s))
      else taken (wakeWrite c off v s) s)
  else denied .access s

/-- A write of an object from block 0x02 on. -/
def bodyWrite (f : Fn) (blk off : Nat) (v : W32) (r : Role) (s : State) : WriteRes :=
  match f with
  | .module => moduleWrite blk off v r s
  | .logic =>
    if blk = 5 && off = 0 then
      if v.toNat / 256 != 0x7A5C00 || 32 < v.toNat % 256 then denied .access s
      else (let t := taskRestart v r s; byCode t.logic.cmdRes t)
    else denied .access s
  | .loop => loopWrite blk off v r s
  | .alarm => almWrite blk off v r s
  | .time => timeWrite blk off v r s
  | .recorder =>
    if blk = 3 && off = 0 then needs .engineer r s (taken (recRepeatWrite v s) s)
    else if blk = 3 && off = 4 then (let x := recClear v r s; (x.1, 0, x.2))
    else denied .access s
  | .panel =>
    if blk = 3 && off = 0 then needs .operate r s (taken (brightWrite v s) s)
    else if blk = 3 && off = 4 then needs .operate r s (taken (pageWrite v s) s)
    else denied .access s
  | .bank b => bankWrite b.val blk off v r s
  | .group g =>
    if blk = 3 && off = 8 then
      if v.toNat / 65536 != 0xC1EA || v.toNat / 256 % 256 != 0 then denied .access s
      else needs .engineer r s (wrote (dgClear g.val (v.setWidth 8) r s))
    else denied .access s
  | .axis a =>
    if blk = 3 && off = 0 then
      if v.toNat / 256 != 0xA7C500 then denied .access s
      else
        let t := axMmpWrite a.val v r s
        if roleAtLeast r .engineer then wrote t else byCode 1 t
    else denied .access s
  | .can c => canWrite c.val blk off v r s
  | .bedrock | .ring | .pool | .peg | .guy => denied .access s

/-- The role that a WRITE of an object needs: ENGINEER where the maps state none (15 R467).
In part by log 16, 17 (DEDUCED, unsafe). -/
def leastRole (f : Fn) (blk off : Nat) : Role :=
  if blk = 1 && (off = 0 || off = 4) then .observe
  else
    match f with
    | .alarm => if blk = 6 && off = 0x18 then .operate else .engineer
    | .panel => if blk = 3 then .operate else .engineer
    | .loop => if blk = 4 && off % 16 ≤ 8 then .operate else .engineer
    | _ => .engineer

/-- One word is written, after the address checks of 00 R4. A missing role comes before every check of the object
(01 R20; 15 R465). In part by log 16, 17, 59 (DEDUCED, unsafe). -/
def writeWord (addr : Nat) (v : W32) (r : Role) (s : State) : WriteRes :=
  let a := splitAddr addr
  match addrStatus s a.1 a.2.1 a.2.2, fnOfId a.1 with
  | .ok, some f =>
    let x := if a.2.1 = 0 then headerWrite f a.2.2 v r s
      else if a.2.1 = 1 then shadowWrite f a.2.2 v s
      else bodyWrite f a.2.1 a.2.2 v r s
    if x.1 = .access ∧ !roleAtLeast r (leastRole f a.2.1 a.2.2) then denied .role s else x
  | st, _ => denied st s

/-- True for an object whose accepted writes are audited: RW or WO, and not the W1C objects FN_EVSTAT and CLAMP_LATCH
(15 R474). In part by log 16 (DEDUCED, unsafe). -/
def audited (addr : Nat) : Bool :=
  let a := splitAddr addr
  !(a.2.1 = 0 && a.2.2 = 0xC) && !(0x10 ≤ a.1 && a.1 ≤ 0x17 && a.2.1 = 5)

/-- The pairs of a WRITE in order: the first refusal, with its index, stops the rest; each accepted write is audited.
In part by log 16 (DEDUCED, unsafe). -/
def writeWords (src : Nat) (r : Role) : List (Nat × W32) → Nat → State → Status × Nat × Nat × State
  | [], _, s => (.ok, 0, 0, s)
  | (a, v) :: l, i, s =>
    match writeWord a v r s with
    | (.ok, _, t) =>
      let x := splitAddr a
      writeWords src r l (i + 1)
        (if audited a then
          raise Ev.MMP_WRITE src (w32 (x.1 + 256 * x.2.1 + 65536 * (x.2.2 / 4))) (.role r) t else t)
    | (st, n, t) => (st, n, i, t)

end Sys2Proof.Machine
end

