-- ==== Sys2Proof/Machine/Mmp.lean ====
section
/-! DEFINITION. Ring frames and links, the host above them, and the messages READ, WRITE, FUNC_RESET, ALARM_CMD, GROUP_STATE,
BSL, PUBLISH, HEALTH and NOTIFY (15 R459–R463, R474–R480). -/

namespace Sys2Proof.Machine

/-! ### Links and supervision (15 R459, R462, R485) -/

/-- True while the ring ports have power and their function is not stopped. -/
def portsAlive (s : State) : Bool :=
  s.mod.state != .off && s.mod.state != .bivouac
    && match s.fnState .ring with
       | .off => false | .disabled => false | .fault => false | _ => true

/-- A link comes up; a link that reaches neither speed is held down (R459). In part by log 48 (DEDUCED, unsafe). -/
def linkUp (p : Port) (speed : Nat) (s : State) : State :=
  if !portsAlive s || speed = 0 || (portOf s p).up then s
  else raiseN Ev.PORT_LINK_UP (portSrc p) speed (setPort p (fun y => { y with up := true, speed := speed }) s)

/-- A supervision frame arrives on a port. In part by log 48 (DEDUCED, unsafe). -/
def superviseIn (p : Port) (s : State) : State :=
  raiseIf (!(portOf s p).supOk) Ev.RING_SUPERVISION_OK (portSrc p) 0
    (setPort p (fun y => { y with supOk := true, supAt := some s.now }) s)

/-- No supervision frame has arrived for 6 s (01 R29). In part by log 48 (DEDUCED, unsafe). -/
def superviseLost (p : Port) (s : State) : State :=
  if (portOf s p).up && (portOf s p).supOk then
    raiseN Ev.RING_SUPERVISION_LOST (portSrc p) 0 (setPort p (fun y => { y with supOk := false }) s)
  else s

/-! ### Ring frames (15 R459–R461) -/

/-- The table after a number of a source is seen, and whether the number was there: 256 numbers for each of 128 sources,
forgotten after 400 ms, the source seen least recently last (R461). In part by log 48 (DEDUCED, unsafe). -/
def dupSee (now mac seq : Nat) (t : List DupSrc) : Bool × List DupSrc :=
  let live := (t.map (fun d => { d with nums := d.nums.filter (fun n => decide (now < n.at' + 400000000)) })).filter
    (fun d => !d.nums.isEmpty)
  let old := match live.find? (fun d => d.mac == mac) with | some d => d.nums | none => []
  let nums := ({ num := seq, at' := now } :: old.filter (fun n => n.num != seq)).take 256
  (old.any (fun n => n.num == seq), ({ mac := mac, nums := nums } :: live.filter (fun d => d.mac != mac)).take 128)

/-- What leaves on the other port for a frame: a PTP message corrected, any other frame as it came (07 R203, R206). -/
def passOn (p : Port) (f : RingIn) (s : State) : State :=
  match f.ptp with
  | none => send (.forward (otherPort p) f.id) s
  | some x => ptpOut p f.id x s

/-- A frame goes on to the other port through blocks of the pool, or is dropped for want of them (R460, R483; 14 R445);
a Follow_Up without its entry is dropped (07 R207). In part by log 48 (DEDUCED, unsafe). -/
def forwardFrame (p : Port) (f : RingIn) (s : State) : State :=
  let q := otherPort p
  match unmatched f.ptp s with
  | some seq => followUpDrop p seq s
  | none =>
    if !(portOf s q).up then s
    else
      match poolAlloc .ring ((f.len + 255) / 256) s with
      | (none, t) => setPort p (fun y => { y with drop := satInc top32 y.drop }) t
      | (some bs, t) =>
        forAll bs (fun b u => giveBack .ring b u)
          (setPort q (fun y => { y with fwd := wrap32 (y.fwd + 1) }) (passOn p f t))

/-- A frame that is neither damaged nor the module's own: duplicate discard for delivery and for forwarding.
In part by log 48 (DEDUCED, unsafe). -/
def ringTake (p : Port) (f : RingIn) (s : State) : State :=
  let here := f.kind != .other
  let on' := f.kind != .mine
  let d := dupSee s.now f.src f.seq s.mmp.dupDeliver
  let w := dupSee s.now f.src f.seq s.mmp.dupForward
  let s1 := s.setMmp (fun m =>
    { m with dupDeliver := if here then d.2 else m.dupDeliver, dupForward := if on' then w.2 else m.dupForward })
  let again := (here && d.1) || (on' && w.1)
  let s2 := if again then setPort p (fun y => { y with dup := wrap32 (y.dup + 1) }) s1 else s1
  if on' && !w.1 then forwardFrame p f s2 else s2

/-- A ring frame arrives on a port. In part by log 48 (DEDUCED, unsafe). -/
def ringFrame (p : Port) (f : RingIn) (s : State) : State :=
  if !portsAlive s || !(portOf s p).up then s
  else if !f.fcsOk then setPort p (fun y => { y with fcs := satInc top16 y.fcs }) s
  else if 1528 < f.len then setPort p (fun y => { y with size := satInc top16 y.size }) s
  else
    let s1 := setPort p (fun y => { y with rx := wrap32 (y.rx + 1) }) s
    if f.own then s1
    else ringTake p f (if f.kind = .supervision then superviseIn p s1 else s1)

/-! ### The IPv4 host (15 R463) -/

/-- An ARP request for an address. In part by log 48 (DEDUCED, unsafe). -/
def arpIn (ip mac : Nat) (s : State) : State :=
  if delivers s && ip == s.img.mmp.ip then send (.arp ip mac) s else s

/-- An ICMP echo request: at most 10 replies within 1 s. In part by log 48 (DEDUCED, unsafe). -/
def echoIn (ip id seq : Nat) (data : List Byte) (s : State) : State :=
  let recent := s.mmp.echoes.filter (fun t => decide (s.now < t + 1000000000))
  if delivers s && decide (recent.length < 10) then
    send (.echo ip id seq data) (s.setMmp (fun m => { m with echoes := s.now :: recent }))
  else s

/-! ### READ and WRITE (15 R474) -/

/-- The words that the pairs of a READ name, as function, block and offset. -/
def readList (pairs : List (W32 × Nat)) : List (Nat × Nat × Nat) :=
  pairs.flatMap (fun p =>
    let a := splitAddr p.1.toNat
    (List.range p.2).map (fun i => (a.1, a.2.1, a.2.2 + 4 * i)))

/-- The form of a READ: 1–64 pairs, each of 1–256 words, and at most 350 words in all.
In part by log 12 (DEDUCED, unsafe). -/
def readFormed (pairs : List (W32 × Nat)) : Bool :=
  1 ≤ pairs.length && pairs.length ≤ 64 && pairs.all (fun p => 1 ≤ p.2 && p.2 ≤ 256) && (pairs.map (·.2)).sum ≤ 350

/-- A READ: its words, or the status of the first address refused. -/
def mmpRead (pairs : List (W32 × Nat)) (q : Req) (s : State) : State :=
  if !readFormed pairs then answer q .format s
  else
    match readWords (readList pairs) [] s with
    | (.ok, ws, t) => reply q .ok 0 0 (ws.flatMap (fun w => leBytes 4 w.toNat)) t
    | (st, _, _) => answer q st s

/-- The address and value pairs of a WRITE. In part by log 12 (DEDUCED, unsafe). -/
def writePairs : Nat → List Byte → List (Nat × W32)
  | 0, _ => []
  | n + 1, bs => (leAt bs 0 4, w32 (leAt bs 4 4)) :: writePairs n (bs.drop 8)

/-- A WRITE: the pairs in order, the first refusal ending it. The reply leaves before the effects.
In part by log 17 (DEDUCED, unsafe). -/
def mmpWrite (q : Req) (s : State) : State :=
  let n := q.payload.length / 8
  if q.payload.length % 8 ≠ 0 ∨ n < 1 ∨ 64 < n then answer q .format s
  else
    let l := writePairs n q.payload
    let x := writeWords (portSrc q.port) q.role l 0 s
    (writeWords (portSrc q.port) q.role l 0
      (reply q x.1 x.2.1 (if x.1 = .ok then 0 else x.2.2.1 % 256) [] s)).2.2.2

/-- FUNC_RESET of a function ID: a write of 0xA5A5_0001 to its FN_CTRL, after the reply (R479).
In part by log 17, 59 (DEDUCED, unsafe). -/
def funcReset (fid : Nat) (q : Req) (s : State) : State :=
  match fnOfId fid with
  | none => answer q .function s
  | some f =>
    match fnCtrl f 0xA5A50001#32 q.role s with
    | (.ok, _) =>
      (fnCtrl f 0xA5A50001#32 q.role
        (answer q .ok (raise Ev.FUNC_RESET_REQ (portSrc q.port) (w32 fid) (.role q.role) s))).2
    | (st, _) => answer q st s

/-! ### Alarm commands (15 R475; 08 R238) -/

/-- The reply by ALM_CMD_RES. -/
def alarmReply (q : Req) (s : State) : State :=
  match s.alarm.cmdRes with
  | 0 => answer q .ok s
  | 1 => answer q .role s
  | c => refused q c s

/-- An ALARM_CMD of one operation. In part by log 35 (DEDUCED, unsafe). -/
def onAlarmCmd (m : Msg) (op : Nat) (need : Role) (k : Req → State → State) (s : State) : State :=
  onNoted m [] (fun q => q.type == 7 && leAt q.payload 0 1 == op) need
    (fun st t => if t.running .alarm then almResult (if st == .role then 1 else 6) t else t)
    (fun q t =>
      if q.payload.length < (if op = 2 then 8 else 6) then answer q .format t
      else if !t.running .alarm then answer q .state t
      else alarmReply q (k q t)) s

/-- The target, index and location of an ALARM_CMD. -/
def almArgs (q : Req) : Nat × Nat × Nat := (leAt q.payload 1 1, leAt q.payload 4 2, leAt q.payload 2 1)

/-! ### What the module sends (15 R472, R477, R478) -/

/-- True when the module can sign with the OBSERVE key. In part by log 50 (DEDUCED, unsafe). -/
def observes (s : State) : Bool := (s.roleKey .observe).isSome

/-- A publish set falls due. In part by log 2 (DESIGN CHOICE, safe) and log 50 (DEDUCED, unsafe). -/
def publishSet (n : Nat) (s : State) : State :=
  let c := s.img.mmp.pubs.look n
  if s.mod.state != .run || c.period = 0 || !observes s then s
  else if !delivers s then
    let k : Nat := 2 ^ n
    raiseIf (!s.mmp.pubEpisode.testBit n) Ev.PUBLISH_MISSED (portSrc .a) n
      (s.setMmp (fun m => { m with pubSkipped := satInc top16 m.pubSkipped, pubEpisode := m.pubEpisode ||| k }))
  else
    let count := wrap32 (s.mmp.pubCount.look n + 1)
    send (.publish n count s.tu.time (c.entries.map (readEntry s)))
      (s.setMmp (fun m =>
        { m with
          pubCount := m.pubCount.put n count
          pubEpisode := if m.pubEpisode.testBit n then m.pubEpisode - 2 ^ n else m.pubEpisode }))

/-- HEALTH: the word as it now stands; a parity repair is then reported (01 R29, R30).
In part by log 2 (DESIGN CHOICE, safe) and log 50 (DEDUCED, unsafe). -/
def healthSend (s : State) : State :=
  if !delivers s then s
  else
    let w := s.healthNow
    send (.health w (w32 (modCode s.mod.state + 256 * holdCode s.mod.hold)) s.tu.time (s.hdr .module).imageref (w32 s.epoch)
        (!observes s))
      (s.setMod (fun m => { m with health := w, parityRepair := false }))

/-- NOTIFY: the oldest 32 events go to every receiver; the rest find no room.
In part by log 2 (DESIGN CHOICE, safe) and log 50 (DEDUCED, unsafe). -/
def notifySend (s : State) : State :=
  let es := s.mmp.notifyQ
  if es.isEmpty || !delivers s then s
  else if !observes s || s.img.mmp.notify.isEmpty then s.setMmp (fun m => { m with notifyQ := [] })
  else
    forAll s.img.mmp.notify (fun p t => send (.notify p (es.take 32)) t)
      (s.setMmp (fun m => { m with notifyQ := [], notifyLost := min top32 (m.notifyLost + (es.length - 32)) }))

/-! ### Commands -/

/-- PORT_LINK_UP. -/
def execPortLinkUp (p : Port) (speed : Fin 3) (s : State) : Host.Outcome State Fault Refusal := .next (linkUp p speed.val s)
/-- PORT_LINK_DOWN. -/
def execPortLinkDown (p : Port) (s : State) : Host.Outcome State Fault Refusal := .next (portDown p s)
/-- RING_FRAME. -/
def execRingFrame (p : Port) (f : RingIn) (s : State) : Host.Outcome State Fault Refusal := .next (ringFrame p f s)
/-- SUPERVISION_SEND: 2 s have passed since the last supervision frame. -/
def execSupervisionSend (s : State) : Host.Outcome State Fault Refusal :=
  .next (if delivers s then send (.supervision s.mmp.hsrSeq) s else s)
/-- RING_SUPERVISION_LOST. -/
def execRingSupervisionLost (p : Port) (s : State) : Host.Outcome State Fault Refusal := .next (superviseLost p s)
/-- ARP. -/
def execArp (ip mac : Nat) (s : State) : Host.Outcome State Fault Refusal := .next (arpIn ip mac s)
/-- ICMP_ECHO. -/
def execIcmpEcho (ip id seq : Nat) (data : List Byte) (s : State) : Host.Outcome State Fault Refusal :=
  .next (echoIn ip id seq data s)
/-- READ. -/
def execRead (m : Msg) (pairs : List (W32 × Nat)) (s : State) : Host.Outcome State Fault Refusal :=
  .next (onMessage m (pairs.map (·.1)) (fun q => q.type == 1) .observe (mmpRead pairs) s)
/-- WRITE; the role is each object's own. -/
def execWrite (m : Msg) (s : State) : Host.Outcome State Fault Refusal :=
  .next (onMessage m [] (fun q => q.type == 2) .observe mmpWrite s)
/-- REGISTER_WRITE: one object written by a sender of role `r` (00 R5). In part by log 16 (DEDUCED, unsafe). -/
def execRegisterWrite (addr v : W32) (r : Role) (s : State) : Host.Outcome State Fault Refusal :=
  .next (writeWord addr.toNat v r s).2.2
/-- FUNC_RESET. -/
def execFuncReset (m : Msg) (fid : Nat) (s : State) : Host.Outcome State Fault Refusal :=
  .next (onMessage m [] (fun q => q.type == 3) .engineer (funcReset fid) s)
/-- ACK. -/
def execAck (m : Msg) (s : State) : Host.Outcome State Fault Refusal :=
  .next (onAlarmCmd m 1 .operate (fun q => let a := almArgs q; ackArrives a.1 a.2.1 a.2.2 (.role q.role)) s)
/-- SHELVE. -/
def execShelve (m : Msg) (s : State) : Host.Outcome State Fault Refusal :=
  .next (onAlarmCmd m 2 .engineer (fun q => let a := almArgs q; shelveArrives a.1 a.2.1 a.2.2 (leAt q.payload 6 2) (.role q.role)) s)
/-- UNSHELVE. -/
def execUnshelve (m : Msg) (s : State) : Host.Outcome State Fault Refusal :=
  .next (onAlarmCmd m 3 .engineer (fun q => let a := almArgs q; unshelveArrives a.1 a.2.1 a.2.2 (.role q.role)) s)
/-- GROUP_STATE. -/
def execGroupState (m : Msg) (s : State) : Host.Outcome State Fault Refusal :=
  .next (onPeer m 0x13 .operate (fun q t => if q.payload.length < 10 + 8 * leAt q.payload 8 2 then t else groupState q.sender q.payload t) s)
/-- BSL: the payload is one frame, offered to the consumer connections of the sender. -/
def execBsl (m : Msg) (s : State) : Host.Outcome State Fault Refusal :=
  .next (onPeer m 0x16 .operate (fun q t => bslOffer (bslFromPeer t q.sender) q.payload t) s)
/-- PUBLISH. -/
def execPublish (n : Fin 16) (s : State) : Host.Outcome State Fault Refusal := .next (publishSet n.val s)
/-- HEALTH. -/
def execHealth (s : State) : Host.Outcome State Fault Refusal := .next (healthSend s)
/-- NOTIFY. -/
def execNotify (s : State) : Host.Outcome State Fault Refusal := .next (notifySend s)

end Sys2Proof.Machine
end

