-- ==== Sys2Proof/Machine/Dispatch.lean ====
section
/-! DEFINITION. The commands and their meanings: one arm for each constructor of Instr. -/

namespace Sys2Proof.Machine

/-- The effect of a command on everything but the queue. -/
def exec (i : Instr) (s : State) : Host.Outcome State Fault Refusal :=
  match i with
  | .powerGood supplyA supplyB coding => Sys2Proof.Machine.execPowerGood supplyA supplyB coding s
  | .selfTestEnd sramOk fails clockDev => Sys2Proof.Machine.execSelfTestEnd sramOk fails clockDev s
  | .imageSelectEnd => Sys2Proof.Machine.execImageSelectEnd s
  | .secondReadEnd crc => Sys2Proof.Machine.execSecondReadEnd crc s
  | .functionConfigured f => Sys2Proof.Machine.execFunctionConfigured f s
  | .pitchEnd peg claim same => Sys2Proof.Machine.execPitchEnd peg claim same s
  | .functionReset f r => Sys2Proof.Machine.execFunctionReset f r s
  | .functionDisable f r => Sys2Proof.Machine.execFunctionDisable f r s
  | .functionEnable f r => Sys2Proof.Machine.execFunctionEnable f r s
  | .resetReleased f => Sys2Proof.Machine.execResetReleased f s
  | .drainBreakPoint f => Sys2Proof.Machine.execDrainBreakPoint f s
  | .drainTimeout f => Sys2Proof.Machine.execDrainTimeout f s
  | .powerFailWarning supplyA supplyB => Sys2Proof.Machine.execPowerFailWarning supplyA supplyB s
  | .eventWindowClose => Sys2Proof.Machine.execEventWindowClose s
  | .inputBelow14v supplyA supplyB => Sys2Proof.Machine.execInputBelow14v supplyA supplyB s
  | .storeExhausted => Sys2Proof.Machine.execStoreExhausted s
  | .powerRestored supplyA supplyB => Sys2Proof.Machine.execPowerRestored supplyA supplyB s
  | .supplyLost b mv => Sys2Proof.Machine.execSupplyLost b mv s
  | .supplyOk b mv => Sys2Proof.Machine.execSupplyOk b mv s
  | .holdupLow charge => Sys2Proof.Machine.execHoldupLow charge s
  | .clockFault ppm => Sys2Proof.Machine.execClockFault ppm s
  | .clockDrift ppm => Sys2Proof.Machine.execClockDrift ppm s
  | .clockLost domain => Sys2Proof.Machine.execClockLost domain s
  | .temperatureRead temp => Sys2Proof.Machine.execTemperatureRead temp s
  | .checkpoint => Sys2Proof.Machine.execCheckpoint s
  | .checkpointComplete onPeg => Sys2Proof.Machine.execCheckpointComplete onPeg s
  | .headerMirror => Sys2Proof.Machine.execHeaderMirror s
  | .bivouac m => Sys2Proof.Machine.execBivouac m s
  | .bivouacRequest timer => Sys2Proof.Machine.execBivouacRequest timer s
  | .bivouacEntered => Sys2Proof.Machine.execBivouacEntered s
  | .canWake c f => Sys2Proof.Machine.execCanWake c f s
  | .wakeInput n rising => Sys2Proof.Machine.execWakeInput n rising s
  | .siltTimer => Sys2Proof.Machine.execSiltTimer s
  | .mmpWake m => Sys2Proof.Machine.execMmpWake m s
  | .moduleRestart m => Sys2Proof.Machine.execModuleRestart m s
  | .pegRemoved => Sys2Proof.Machine.execPegRemoved s
  | .pegInserted mem => Sys2Proof.Machine.execPegInserted mem s
  | .pegWriteOpen m slot => Sys2Proof.Machine.execPegWriteOpen m slot s
  | .pegWriteData m slot off bytes => Sys2Proof.Machine.execPegWriteData m slot off bytes s
  | .pegWriteClose m slot => Sys2Proof.Machine.execPegWriteClose m slot s
  | .pegWriteErase m slot => Sys2Proof.Machine.execPegWriteErase m slot s
  | .commit m slot => Sys2Proof.Machine.execCommit m slot s
  | .commitStaged => Sys2Proof.Machine.execCommitStaged s
  | .commitSwitch => Sys2Proof.Machine.execCommitSwitch s
  | .commitNoIdle => Sys2Proof.Machine.execCommitNoIdle s
  | .commitDone => Sys2Proof.Machine.execCommitDone s
  | .standbyRepitch => Sys2Proof.Machine.execStandbyRepitch s
  | .otpProgram r => Sys2Proof.Machine.execOtpProgram r s
  | .otpProgramLast r => Sys2Proof.Machine.execOtpProgramLast r s
  | .otpWrite passed => Sys2Proof.Machine.execOtpWrite passed s
  | .headroomMeasurement b c supply headroom => Sys2Proof.Machine.execHeadroomMeasurement b c supply headroom s
  | .chComplianceLow b c => Sys2Proof.Machine.execChComplianceLow b c s
  | .chComplianceShortfall b c microamps => Sys2Proof.Machine.execChComplianceShortfall b c microamps s
  | .chComplianceOk b c => Sys2Proof.Machine.execChComplianceOk b c s
  | .readbackVisit b c v => Sys2Proof.Machine.execReadbackVisit b c v s
  | .chBackfeed b c mv => Sys2Proof.Machine.execChBackfeed b c mv s
  | .chClear b mask r => Sys2Proof.Machine.execChClear b mask r s
  | .strapSense straps => Sys2Proof.Machine.execStrapSense straps s
  | .trimStartCurrent b r => Sys2Proof.Machine.execTrimStartCurrent b r s
  | .trimStartVoltage b r => Sys2Proof.Machine.execTrimStartVoltage b r s
  | .trimStartInput b r => Sys2Proof.Machine.execTrimStartInput b r s
  | .trimAccept b r => Sys2Proof.Machine.execTrimAccept b r s
  | .trimAverageDone b avg => Sys2Proof.Machine.execTrimAverageDone b avg s
  | .trimWrite b r => Sys2Proof.Machine.execTrimWrite b r s
  | .trimWritten b passed => Sys2Proof.Machine.execTrimWritten b passed s
  | .trimAbort b r => Sys2Proof.Machine.execTrimAbort b r s
  | .trimTimeout b => Sys2Proof.Machine.execTrimTimeout b s
  | .slotSubmit b r => Sys2Proof.Machine.execSlotSubmit b r s
  | .frameStart b => Sys2Proof.Machine.execFrameStart b s
  | .excitationChange b lane => Sys2Proof.Machine.execExcitationChange b lane s
  | .conversionResult b c raw d => Sys2Proof.Machine.execConversionResult b c raw d s
  | .compFailed b c => Sys2Proof.Machine.execCompFailed b c s
  | .rideTimeEnd b c => Sys2Proof.Machine.execRideTimeEnd b c s
  | .cjSensorRead b t0 t1 => Sys2Proof.Machine.execCjSensorRead b t0 t1 s
  | .trackMeasurement b c centihertz => Sys2Proof.Machine.execTrackMeasurement b c centihertz s
  | .notchTrackLost b c => Sys2Proof.Machine.execNotchTrackLost b c s
  | .notchFallback b c => Sys2Proof.Machine.execNotchFallback b c s
  | .chClampActive b t => Sys2Proof.Machine.execChClampActive b t s
  | .chClampReleased b t => Sys2Proof.Machine.execChClampReleased b t s
  | .testPulse b c dev1 dev2 => Sys2Proof.Machine.execTestPulse b c dev1 dev2 s
  | .counterPreset g p v => Sys2Proof.Machine.execCounterPreset g p v s
  | .freqGateEnd g p => Sys2Proof.Machine.execFreqGateEnd g p s
  | .dpOutTrip g p => Sys2Proof.Machine.execDpOutTrip g p s
  | .outputRetry g p => Sys2Proof.Machine.execOutputRetry g p s
  | .tripFreeTime g p => Sys2Proof.Machine.execTripFreeTime g p s
  | .dpExternalFeed g p mv => Sys2Proof.Machine.execDpExternalFeed g p mv s
  | .dgClear g mask r => Sys2Proof.Machine.execDgClear g mask r s
  | .dgSupplyLow g mv => Sys2Proof.Machine.execDgSupplyLow g mv s
  | .dgSupplyOk g mv => Sys2Proof.Machine.execDgSupplyOk g mv s
  | .dgOverload g ma moduleLimit => Sys2Proof.Machine.execDgOverload g ma moduleLimit s
  | .wdExpired o => Sys2Proof.Machine.execWdExpired o s
  | .sync m => Sys2Proof.Machine.execSync m s
  | .tuHoldover => Sys2Proof.Machine.execTuHoldover s
  | .announce a => Sys2Proof.Machine.execAnnounce a s
  | .followUp port srcId seq domain corr => Sys2Proof.Machine.execFollowUp port srcId seq domain corr s
  | .twoStepExpiry srcId seq domain => Sys2Proof.Machine.execTwoStepExpiry srcId seq domain s
  | .pdelayReq port seq corr ingress egress => Sys2Proof.Machine.execPdelayReq port seq corr ingress egress s
  | .pdelayMeasurement port egress => Sys2Proof.Machine.execPdelayMeasurement port egress s
  | .pdelayResp port seq corr t2 t3 t4 => Sys2Proof.Machine.execPdelayResp port seq corr t2 t3 t4 s
  | .canrelCapture => Sys2Proof.Machine.execCanrelCapture s
  | .matchArm n r => Sys2Proof.Machine.execMatchArm n r s
  | .tuMatch n => Sys2Proof.Machine.execTuMatch n s
  | .timeLoRead => Sys2Proof.Machine.execTimeLoRead s
  | .firstOutCapture c => Sys2Proof.Machine.execFirstOutCapture c s
  | .alarmTick us => Sys2Proof.Machine.execAlarmTick us s
  | .onDelayEnd n => Sys2Proof.Machine.execOnDelayEnd n s
  | .offDelayEnd n => Sys2Proof.Machine.execOffDelayEnd n s
  | .shelveTimeEnd n => Sys2Proof.Machine.execShelveTimeEnd n s
  | .alarmReleased n => Sys2Proof.Machine.execAlarmReleased n s
  | .escalation => Sys2Proof.Machine.execEscalation s
  | .stationLost n => Sys2Proof.Machine.execStationLost n s
  | .dmPrewarn => Sys2Proof.Machine.execDmPrewarn s
  | .dmAlarm => Sys2Proof.Machine.execDmAlarm s
  | .ack m => Sys2Proof.Machine.execAck m s
  | .shelve m => Sys2Proof.Machine.execShelve m s
  | .unshelve m => Sys2Proof.Machine.execUnshelve m s
  | .almOos v r => Sys2Proof.Machine.execAlmOos v r s
  | .callUms v r => Sys2Proof.Machine.execCallUms v r s
  | .callDuty v r => Sys2Proof.Machine.execCallDuty v r s
  | .groupState m => Sys2Proof.Machine.execGroupState m s
  | .groupStateSend master => Sys2Proof.Machine.execGroupStateSend master s
  | .callNotifyRepeat unit => Sys2Proof.Machine.execCallNotifyRepeat unit s
  | .callClearRepeat unit => Sys2Proof.Machine.execCallClearRepeat unit s
  | .ackKey => Sys2Proof.Machine.execAckKey s
  | .silenceKey => Sys2Proof.Machine.execSilenceKey s
  | .logicBaseTick => Sys2Proof.Machine.execLogicBaseTick s
  | .eventTaskItem kind => Sys2Proof.Machine.execEventTaskItem kind s
  | .taskInstanceStart n reads => Sys2Proof.Machine.execTaskInstanceStart n reads s
  | .backgroundCycleStart => Sys2Proof.Machine.execBackgroundCycleStart s
  | .segmentCompare e unit r => Sys2Proof.Machine.execSegmentCompare e unit r s
  | .taskRelease n w => Sys2Proof.Machine.execTaskRelease n w s
  | .runTimeError n => Sys2Proof.Machine.execRunTimeError n s
  | .backgroundWatchdog => Sys2Proof.Machine.execBackgroundWatchdog s
  | .taskRestart v r => Sys2Proof.Machine.execTaskRestart v r s
  | .force m kind ty tgt v => Sys2Proof.Machine.execForce m kind ty tgt v s
  | .release m kind tgt => Sys2Proof.Machine.execRelease m kind tgt s
  | .scrub hits => Sys2Proof.Machine.execScrub hits s
  | .comparatorTestPart e upto fails => Sys2Proof.Machine.execComparatorTestPart e upto fails s
  | .comparatorTestOverdue e => Sys2Proof.Machine.execComparatorTestOverdue e s
  | .loopRelease => Sys2Proof.Machine.execLoopRelease s
  | .loopSample n => Sys2Proof.Machine.execLoopSample n s
  | .lpTarget n v r => Sys2Proof.Machine.execLpTarget n v r s
  | .lpManv n v r => Sys2Proof.Machine.execLpManv n v r s
  | .lpModeReq n v r => Sys2Proof.Machine.execLpModeReq n v r s
  | .swap n r => Sys2Proof.Machine.execSwap n r s
  | .restart n r => Sys2Proof.Machine.execRestart n r s
  | .loopBankEdited n bankB word v r => Sys2Proof.Machine.execLoopBankEdited n bankB word v r s
  | .testStart r => Sys2Proof.Machine.execTestStart r s
  | .testStop r => Sys2Proof.Machine.execTestStop r s
  | .axisTick a supply drive => Sys2Proof.Machine.execAxisTick a supply drive s
  | .energise a src => Sys2Proof.Machine.execEnergise a src s
  | .deenergise a src => Sys2Proof.Machine.execDeenergise a src s
  | .stop a src => Sys2Proof.Machine.execStop a src s
  | .quickStop a src => Sys2Proof.Machine.execQuickStop a src s
  | .resume a src => Sys2Proof.Machine.execResume a src s
  | .home a src => Sys2Proof.Machine.execHome a src s
  | .clear a src => Sys2Proof.Machine.execClear a src s
  | .syncPot a src => Sys2Proof.Machine.execSyncPot a src s
  | .targetChange a t => Sys2Proof.Machine.execTargetChange a t s
  | .microstep a => Sys2Proof.Machine.execMicrostep a s
  | .dwellEnd a => Sys2Proof.Machine.execDwellEnd a s
  | .holdDelayEnd a => Sys2Proof.Machine.execHoldDelayEnd a s
  | .axDriverFault a cause => Sys2Proof.Machine.execAxDriverFault a cause s
  | .axLimit a positive => Sys2Proof.Machine.execAxLimit a positive s
  | .loadAngleEstimate a deg emf => Sys2Proof.Machine.execLoadAngleEstimate a deg emf s
  | .potCheck a => Sys2Proof.Machine.execPotCheck a s
  | .stepEdge a dir => Sys2Proof.Machine.execStepEdge a dir s
  | .velocityUpdate a => Sys2Proof.Machine.execVelocityUpdate a s
  | .carry a => Sys2Proof.Machine.execCarry a s
  | .safetyCycle us readback => Sys2Proof.Machine.execSafetyCycle us readback s
  | .brCycleOverrun us => Sys2Proof.Machine.execBrCycleOverrun us s
  | .voteDiscrepancy g => Sys2Proof.Machine.execVoteDiscrepancy g s
  | .stoTestPulse k ch ok => Sys2Proof.Machine.execStoTestPulse k ch ok s
  | .stoChannelFault k ch => Sys2Proof.Machine.execStoChannelFault k ch s
  | .commission m value confirmLast => Sys2Proof.Machine.execCommission m value confirmLast s
  | .commissionHandOn value => Sys2Proof.Machine.execCommissionHandOn value s
  | .partnerUncommissioned result => Sys2Proof.Machine.execPartnerUncommissioned result s
  | .bsl m => Sys2Proof.Machine.execBsl m s
  | .bslTimeout c => Sys2Proof.Machine.execBslTimeout c s
  | .decisionPoint reqs beats cont last => Sys2Proof.Machine.execDecisionPoint reqs beats cont last s
  | .tagTimeout f tag => Sys2Proof.Machine.execTagTimeout f tag s
  | .fabricParity f tag => Sys2Proof.Machine.execFabricParity f tag s
  | .poolAllocate f n => Sys2Proof.Machine.execPoolAllocate f n s
  | .blockFree f blocks => Sys2Proof.Machine.execBlockFree f blocks s
  | .poolParity block => Sys2Proof.Machine.execPoolParity block s
  | .poolScrub bad => Sys2Proof.Machine.execPoolScrub bad s
  | .lock f res => Sys2Proof.Machine.execLock f res s
  | .unlock f res => Sys2Proof.Machine.execUnlock f res s
  | .arbStarved f => Sys2Proof.Machine.execArbStarved f s
  | .ringFrame port f => Sys2Proof.Machine.execRingFrame port f s
  | .portLinkDown port => Sys2Proof.Machine.execPortLinkDown port s
  | .portLinkUp port speed => Sys2Proof.Machine.execPortLinkUp port speed s
  | .supervisionSend => Sys2Proof.Machine.execSupervisionSend s
  | .ringSupervisionLost port => Sys2Proof.Machine.execRingSupervisionLost port s
  | .arp ip mac => Sys2Proof.Machine.execArp ip mac s
  | .icmpEcho ip id seq data => Sys2Proof.Machine.execIcmpEcho ip id seq data s
  | .read m pairs => Sys2Proof.Machine.execRead m pairs s
  | .write m => Sys2Proof.Machine.execWrite m s
  | .registerWrite addr v r => Sys2Proof.Machine.execRegisterWrite addr v r s
  | .funcReset m fid => Sys2Proof.Machine.execFuncReset m fid s
  | .roleKey m => Sys2Proof.Machine.execRoleKey m s
  | .publish n => Sys2Proof.Machine.execPublish n s
  | .health => Sys2Proof.Machine.execHealth s
  | .notify => Sys2Proof.Machine.execNotify s
  | .canRxFrame c f => Sys2Proof.Machine.execCanRxFrame c f s
  | .canTxRequest c b f => Sys2Proof.Machine.execCanTxRequest c b f s
  | .canTxEnd c ok tdc => Sys2Proof.Machine.execCanTxEnd c ok tdc s
  | .canError c tec rec' => Sys2Proof.Machine.execCanError c tec rec' s
  | .busOffRecovery c => Sys2Proof.Machine.execBusOffRecovery c s
  | .canRecovered c => Sys2Proof.Machine.execCanRecovered c s
  | .canTest c v r => Sys2Proof.Machine.execCanTest c v r s
  | .canFilterEdited c pair v r => Sys2Proof.Machine.execCanFilterEdited c pair v r s
  | .heartbeatSend => Sys2Proof.Machine.execHeartbeatSend s
  | .heartbeat h claim => Sys2Proof.Machine.execHeartbeat h claim s
  | .pairGuyLost => Sys2Proof.Machine.execPairGuyLost s
  | .claimDrop => Sys2Proof.Machine.execClaimDrop s
  | .pairTakeover => Sys2Proof.Machine.execPairTakeover s
  | .takeoverRestore peg => Sys2Proof.Machine.execTakeoverRestore peg s
  | .holdoffEnd => Sys2Proof.Machine.execHoldoffEnd s
  | .handoverRequest => Sys2Proof.Machine.execHandoverRequest s
  | .handoverIdle => Sys2Proof.Machine.execHandoverIdle s
  | .handoverCheckpoint => Sys2Proof.Machine.execHandoverCheckpoint s
  | .standbyCkptCheck seq ageMs kib buf ok => Sys2Proof.Machine.execStandbyCkptCheck seq ageMs kib buf ok s
  | .prefStrapSense straps => Sys2Proof.Machine.execPrefStrapSense straps s
  | .panelFrame => Sys2Proof.Machine.execPanelFrame s
  | .rowPeriod row => Sys2Proof.Machine.execRowPeriod row s
  | .panelTempRead temp => Sys2Proof.Machine.execPanelTempRead temp s
  | .regionUpdateRequest r => Sys2Proof.Machine.execRegionUpdateRequest r s
  | .renderComplete r => Sys2Proof.Machine.execRenderComplete r s
  | .dischargeEnd => Sys2Proof.Machine.execDischargeEnd s
  | .functionKey k => Sys2Proof.Machine.execFunctionKey k s
  | .f6Held => Sys2Proof.Machine.execF6Held s
  | .pnlKeyswitch on => Sys2Proof.Machine.execPnlKeyswitch on s
  | .pnlKeyswitchFault => Sys2Proof.Machine.execPnlKeyswitchFault s
  | .take kind index => Sys2Proof.Machine.execTake kind index s
  | .localRelease kind index => Sys2Proof.Machine.execLocalRelease kind index s
  | .pnlLocalCmd kind index cmd => Sys2Proof.Machine.execPnlLocalCmd kind index cmd s
  | .recordEvent => Sys2Proof.Machine.execRecordEvent s
  | .stagingCommit => Sys2Proof.Machine.execStagingCommit s
  | .recClear v r => Sys2Proof.Machine.execRecClear v r s
  | .recwin m bad => Sys2Proof.Machine.execRecwin m bad s
  | .reccursor m => Sys2Proof.Machine.execReccursor m s
  | .filterClock clk samples => Sys2Proof.Machine.execFilterClock clk samples s
  | .countEntryUpdate => Sys2Proof.Machine.execCountEntryUpdate s
  | .outputReadback g p level heldUs => Sys2Proof.Machine.execOutputReadback g p level heldUs s
  | .holdUpStoreGood charge => Sys2Proof.Machine.execHoldUpStoreGood charge s
  | .clockMonitorWindow ppm => Sys2Proof.Machine.execClockMonitorWindow ppm s
  | .busIntegration c => Sys2Proof.Machine.execBusIntegration c s
  | .keyRepeat plus => Sys2Proof.Machine.execKeyRepeat plus s
  | .guyLineBivouacRequest timer => Sys2Proof.Machine.execGuyLineBivouacRequest timer s
  | .wakeLine => Sys2Proof.Machine.execWakeLine s

end Sys2Proof.Machine
end

