-- ==== Sys2Proof/Machine/Step.lean ====
section
/-! DEFINITION. One step of the module: the command at the front of the queue, or one cycle of CK5. -/

namespace Sys2Proof.Machine

/-- Takes the command at the front of the queue and runs it with the rest of the queue; on an empty queue one
CK5 cycle passes (07 R193). In part by log 4, 14, 61 (DESIGN CHOICE, unsafe) and log 6 (DEDUCED, unsafe). -/
def step (s : State) : Host.Outcome State Fault Refusal :=
  match s.pending with
  | [] => .next (Sys2Proof.Machine.clockCycle s)
  | c :: r => exec c { s with pending := r }

/-- The state with the command that a word of the opcode table spells put at the front of its queue.
In part by log 6 (DEDUCED, unsafe). -/
def State.withFetchWord (s : State) (nbits w : Nat) : State :=
  match decodeTableWord nbits w with
  | some c => { s with pending := c :: s.pending }
  | none => s

end Sys2Proof.Machine
end

