-- ==== Sys2Proof/Safety.lean ====
section
/-! DEFINITION. What a safe run is, and the terms that claims about commands use. -/

namespace Sys2Proof.Machine

/-- The command `c` completes in `s`: it answers a next state, and `P` holds of that state. -/
def Completes (c : Instr) (s : State) (P : State → Prop) : Prop := ∃ t, exec c s = .next t ∧ P t

/-- A run of `n` steps from `s` is safe when no step stops it. -/
def SafeRun (n : Nat) (s : State) : Prop := ∃ t, Sys2Proof.core.run n s = .next t

/-- Between `s` and `t` an event of the kind `k` with source `src` and the data word `data` joined those that wait for
the recorder (01 R15). -/
def Raised (k : EvKind) (src : Nat) (data : W32) (s t : State) : Prop :=
  ∃ (a b : List Event) (e : Event), t.recd.inbox = s.recd.inbox ++ a ++ e :: b ∧ e.code = k.code ∧ e.source = src
    ∧ e.data = data

/-- In `s` the message `m` is a request of type `ty` that passes checks 1 to 5 of 15 R465 and goes on as `q`, from a
role that `need` allows (check 6), in a module state that accepts its type (15 R472); `u` is the state after checks 1
to 5. -/
def Accepted (m : Msg) (ty : Nat) (need : Role) (q : Req) (s u : State) : Prop :=
  receive m [] s = (some q, u) ∧ q.type = ty ∧ roleAtLeast q.role need = true ∧ stateTakes u ty = true

/-- A reply to the request `q` with status `st` is the one reply that left the module between `s` and `t` (15 R473). -/
def Replied (q : Req) (st : Status) (s t : State) : Prop :=
  ∃ a : Reply, t.mmp.replies = a :: s.mmp.replies ∧ a.seq = q.seq ∧ a.sender = q.sender ∧ a.type = q.type
    ∧ a.status = st

/-- A command to axis `a` from `src` passes the checks of its source (12 R363; 18 R546): the panel's always, an entry's
while no local control holds the axis, an MMP writer's from ENGINEER upward besides. -/
abbrev CmdAllowed (a : Nat) (src : CmdSrc) (s : State) : Prop :=
  match src with
  | .panel => True
  | .entry => heldLocal s 1 a = false
  | .mmp r => roleAtLeast r .engineer = true ∧ heldLocal s 1 a = false

/-- A move of axis `a` from rest to `t` is allowed (12 R365, R376, R377): torque is on, no SS1 line is asserted, the
position is known or no homing is asked, and no latched limit bars the direction. -/
abbrev MoveAllowed (a : Nat) (t : Int) (s : State) : Prop :=
  (s.axis a).torqueOff = false ∧ (s.axis a).ss1Line = false ∧ t ≠ (s.axis a).pos
    ∧ ((s.axis a).source ≠ .unknown ∨ (axCfg s a).homeMode = 0)
    ∧ (if (s.axis a).pos < t then (s.axis a).limP else (s.axis a).limN) = false

/-- A field of an object: `w` bits from bit `lo` of the word that a read shows (00 R3, R6). -/
def fieldAt (s : State) (f : Fn) (blk off lo w : Nat) : Option Nat := (objWord s f blk off).map (fun x => x / 2 ^ lo % 2 ^ w)

/-! ### The parts of the state that a command touches -/

/-- The parts of the state. -/
inductive Part where
  | pending | mod | headers | evstat | image | pegBytes | peg | otp | banks | channels | groups | points
   | outCurrent | time | alarm | logic | div | divSel | trx | loops | axes | bedrock | pool | notifyQ | mmp | can
   | pair | panel | inbox | records | ckpt | pi | taskInbox | freeCount
deriving DecidableEq, Repr

/-- A part is the same in two states. The headers stand without FN_EVSTAT, the peg without its bytes, the MMP endpoint
without the events that wait for NOTIFY, and the recorder without its inbox: each of these is a part of its own. -/
def Part.same (p : Part) (s t : State) : Prop :=
  match p with
  | .pending => t.pending = s.pending
  | .mod => t.mod = s.mod
  | .headers => ∀ k, { t.fns.look k with evstat := 0 } = { s.fns.look k with evstat := 0 }
  | .evstat => ∀ k, (t.fns.look k).evstat = (s.fns.look k).evstat
  | .image => t.img = s.img ∧ t.sections = s.sections ∧ t.imgId = s.imgId
  | .pegBytes => t.peg.mem = s.peg.mem
  | .peg => { t.peg with mem := [] } = { s.peg with mem := [] }
  | .otp => t.otp = s.otp
  | .banks => t.banks = s.banks
  | .channels => t.chs = s.chs
  | .groups => t.groups = s.groups
  | .points => t.points = s.points
  | .outCurrent => t.outCurrent = s.outCurrent
  | .time => t.tu = s.tu
  | .alarm => t.alarm = s.alarm
  | .logic => t.logic = s.logic
  | .div => t.div = s.div
  | .divSel => t.divSel = s.divSel
  | .trx => t.trx = s.trx
  | .loops => t.loops = s.loops
  | .axes => t.axes = s.axes
  | .bedrock => t.bedrock = s.bedrock
  | .pool => t.pool = s.pool
  | .notifyQ => t.mmp.notifyQ = s.mmp.notifyQ
  | .mmp => { t.mmp with notifyQ := [] } = { s.mmp with notifyQ := [] }
  | .can => t.can = s.can
  | .pair => t.pair = s.pair
  | .panel => t.panel = s.panel
  | .inbox => t.recd.inbox = s.recd.inbox
  | .records => { t.recd with inbox := [] } = { s.recd with inbox := [] }
  | .ckpt => t.ckpt = s.ckpt
  | .pi => t.pi = s.pi
  | .taskInbox => t.taskInbox = s.taskInbox
  | .freeCount => t.freeCount = s.freeCount

/-- What raising an event touches: FN_EVSTAT, and the places that the fabric delivers it to (01 R15, R19). -/
def events : List Part := [.evstat, .notifyQ, .inbox, .taskInbox]
/-- What a command that can restart the module touches besides events. -/
def restarted : List Part :=
  [.mod, .headers, .image, .peg, .otp, .banks, .channels, .groups, .points, .time, .alarm, .logic, .div, .divSel,
   .trx, .loops, .axes, .bedrock, .pool, .mmp, .can, .pair, .panel, .records, .ckpt, .pi]

/-- The parts that a command may change; every other part keeps its value. -/
def touches (c : Instr) : List Part :=
  match c with
  | .powerGood .. => events ++ restarted
  | .selfTestEnd .. => events ++ [.mod, .headers, .peg, .channels, .points, .trx, .axes, .bedrock, .pool, .pair, .panel]
  | .imageSelectEnd .. => events ++ [.mod, .headers, .image, .peg, .channels, .points, .axes, .bedrock, .pool, .pair, .panel]
  | .secondReadEnd .. => events ++ [.mod, .headers, .image, .peg, .channels, .points, .time, .alarm, .logic, .loops, .axes, .bedrock, .pool, .can, .pair, .panel, .records]
  | .functionConfigured .. => events ++ [.headers, .banks, .channels, .points, .time, .logic, .loops, .axes, .bedrock, .pool, .can, .panel]
  | .pitchEnd .. => events ++ [.mod, .headers, .channels, .points, .time, .alarm, .logic, .loops, .axes, .bedrock, .pool, .can, .pair, .panel, .pi]
  | .functionReset .. => events ++ restarted
  | .functionDisable .. => events ++ restarted
  | .functionEnable .. => events ++ restarted
  | .resetReleased .. => events ++ [.headers, .pool]
  | .drainBreakPoint .. => events ++ [.mod, .headers, .peg, .channels, .points, .time, .axes, .bedrock, .pool, .mmp, .can, .pair, .panel, .records]
  | .drainTimeout .. => events ++ [.mod, .headers, .channels, .points, .axes, .bedrock, .pool, .pair, .panel]
  | .powerFailWarning .. => events ++ [.mod, .panel, .records, .ckpt]
  | .eventWindowClose .. => events ++ [.mod, .records]
  | .inputBelow14v .. => events ++ [.mod, .headers, .channels, .points, .bedrock, .pool]
  | .storeExhausted .. => events ++ [.mod, .headers, .channels, .points, .bedrock, .pool, .pair, .panel, .records]
  | .powerRestored .. => events ++ [.mod]
  | .supplyLost .. => events ++ [.mod]
  | .supplyOk .. => events ++ [.mod]
  | .holdupLow .. => events ++ [.mod]
  | .clockFault .. => events ++ [.mod, .headers, .channels, .points, .axes, .bedrock, .pool, .pair, .panel]
  | .clockDrift .. => events ++ [.mod]
  | .clockLost .. => events ++ [.mod, .headers, .channels, .points, .axes, .bedrock, .pool, .pair, .panel]
  | .temperatureRead .. => events ++ [.mod]
  | .checkpoint .. => events ++ [.pair, .ckpt]
  | .checkpointComplete .. => [.ckpt]
  | .headerMirror .. => [.inbox, .records]
  | .bivouac .. => events ++ restarted
  | .bivouacRequest .. => events ++ [.mod, .pair]
  | .bivouacEntered .. => events ++ restarted
  | .canWake .. => events ++ restarted
  | .wakeInput .. => events ++ restarted
  | .siltTimer .. => events ++ restarted
  | .mmpWake .. => events ++ restarted
  | .moduleRestart .. => events ++ restarted
  | .pegRemoved .. => events ++ [.mod, .headers, .peg, .channels, .points, .axes, .bedrock, .pool, .mmp, .pair, .panel]
  | .pegInserted .. => events ++ [.pegBytes, .peg]
  | .pegWriteOpen .. => events ++ [.pegBytes, .peg, .mmp]
  | .pegWriteData .. => events ++ [.pegBytes, .peg, .mmp]
  | .pegWriteClose .. => events ++ [.pegBytes, .peg, .mmp]
  | .pegWriteErase .. => events ++ [.pegBytes, .peg, .mmp]
  | .commit .. => events ++ [.peg, .mmp]
  | .commitStaged .. => [.peg]
  | .commitSwitch .. => events ++ [.image, .peg, .banks, .channels, .points, .alarm, .logic, .loops, .axes, .panel, .records]
  | .commitNoIdle .. => events ++ [.peg, .logic, .loops, .mmp]
  | .commitDone .. => events ++ [.mod, .headers, .peg, .banks, .channels, .points, .time, .alarm, .logic, .loops, .axes, .bedrock, .pool, .mmp, .can, .pair, .panel, .records, .ckpt]
  | .standbyRepitch .. => events ++ [.headers, .peg, .pool, .pair]
  | .otpProgram .. => events ++ [.otp, .banks]
  | .otpProgramLast .. => events ++ [.otp, .banks]
  | .otpWrite .. => events ++ [.peg, .otp, .banks, .channels, .points, .axes, .bedrock, .mmp, .pair]
  | .headroomMeasurement .. => [.channels]
  | .chComplianceLow .. => events ++ [.channels]
  | .chComplianceShortfall .. => events ++ [.channels]
  | .chComplianceOk .. => events ++ [.channels]
  | .readbackVisit .. => events ++ [.banks, .channels, .freeCount]
  | .chBackfeed .. => events ++ [.channels]
  | .chClear .. => events ++ [.channels]
  | .strapSense .. => events ++ [.banks]
  | .trimStartCurrent .. => events ++ [.banks, .channels, .points, .axes]
  | .trimStartVoltage .. => events ++ [.banks, .channels, .points, .axes]
  | .trimStartInput .. => events ++ [.banks, .channels, .points, .axes]
  | .trimAccept .. => events ++ [.banks, .channels, .points, .axes]
  | .trimAverageDone .. => events ++ [.banks, .channels, .points, .axes]
  | .trimWrite .. => [.otp, .banks]
  | .trimWritten .. => events ++ [.otp, .banks, .channels, .points, .axes]
  | .trimAbort .. => events ++ [.banks, .channels, .points, .axes]
  | .trimTimeout .. => events ++ [.banks, .channels, .points, .axes]
  | .slotSubmit .. => events ++ [.banks]
  | .frameStart .. => events ++ [.banks, .channels, .freeCount]
  | .excitationChange .. => events ++ [.banks, .channels, .freeCount]
  | .conversionResult .. => events ++ [.banks, .channels, .freeCount]
  | .compFailed .. => events ++ [.channels]
  | .rideTimeEnd .. => events ++ [.channels]
  | .cjSensorRead .. => events ++ [.banks]
  | .trackMeasurement .. => events ++ [.channels]
  | .notchTrackLost .. => events ++ [.channels]
  | .notchFallback .. => events ++ [.channels]
  | .chClampActive .. => events ++ [.banks, .channels]
  | .chClampReleased .. => events ++ [.banks, .channels]
  | .testPulse .. => events ++ [.channels]
  | .counterPreset .. => [.points]
  | .freqGateEnd .. => events ++ [.points, .freeCount]
  | .dpOutTrip .. => events ++ [.points]
  | .outputRetry .. => [.points]
  | .tripFreeTime .. => [.points]
  | .dpExternalFeed .. => events ++ [.points]
  | .dgClear .. => events ++ [.points]
  | .dgSupplyLow .. => events ++ [.groups]
  | .dgSupplyOk .. => events ++ [.groups]
  | .dgOverload .. => events ++ [.groups, .points, .outCurrent]
  | .wdExpired .. => events ++ [.channels, .points, .axes]
  | .sync .. => events ++ [.time, .freeCount]
  | .tuHoldover .. => events ++ [.time]
  | .announce .. => events ++ [.time]
  | .followUp .. => events ++ [.time, .mmp]
  | .twoStepExpiry .. => [.time]
  | .pdelayReq .. => [.notifyQ, .mmp]
  | .pdelayMeasurement .. => events ++ [.time, .mmp]
  | .pdelayResp .. => events ++ [.time]
  | .canrelCapture .. => [.time]
  | .matchArm .. => events ++ [.time]
  | .tuMatch .. => events ++ [.time]
  | .timeLoRead .. => [.time]
  | .firstOutCapture .. => events ++ [.time]
  | .alarmTick .. => events ++ [.channels, .points, .time, .alarm, .axes, .mmp, .pi]
  | .onDelayEnd .. => events ++ [.alarm]
  | .offDelayEnd .. => events ++ [.alarm]
  | .shelveTimeEnd .. => events ++ [.alarm]
  | .alarmReleased .. => events ++ [.alarm]
  | .escalation .. => events ++ [.alarm, .mmp]
  | .stationLost .. => events ++ [.alarm]
  | .dmPrewarn .. => events ++ [.alarm]
  | .dmAlarm .. => events ++ [.alarm]
  | .ack .. => events ++ [.alarm, .mmp]
  | .shelve .. => events ++ [.alarm, .mmp]
  | .unshelve .. => events ++ [.alarm, .mmp]
  | .almOos .. => [.alarm]
  | .callUms .. => [.alarm]
  | .callDuty .. => events ++ [.alarm]
  | .groupState .. => events ++ [.alarm, .mmp]
  | .groupStateSend .. => [.notifyQ, .mmp]
  | .callNotifyRepeat .. => [.notifyQ, .mmp, .alarm]
  | .callClearRepeat .. => [.notifyQ, .mmp]
  | .ackKey .. => [.alarm]
  | .silenceKey .. => [.alarm]
  | .logicBaseTick .. => events ++ [.mod, .peg, .channels, .points, .logic, .loops, .axes, .ckpt]
  | .eventTaskItem .. => events ++ [.time, .logic]
  | .taskInstanceStart .. => [.logic]
  | .backgroundCycleStart .. => [.logic]
  | .segmentCompare .. => events ++ [.mod, .headers, .channels, .points, .logic, .div, .trx, .loops, .axes, .bedrock, .pool, .pair, .panel]
  | .taskRelease .. => events ++ [.channels, .points, .logic, .div, .axes, .pi]
  | .runTimeError .. => events ++ [.channels, .points, .logic, .axes]
  | .backgroundWatchdog .. => events ++ [.channels, .points, .logic, .axes]
  | .taskRestart .. => events ++ [.logic]
  | .force .. => events ++ [.channels, .points, .logic, .axes, .mmp, .panel]
  | .release .. => events ++ [.logic, .mmp]
  | .scrub .. => events ++ [.mod, .headers, .channels, .points, .trx, .axes, .bedrock, .pool, .pair, .panel]
  | .comparatorTestPart .. => events ++ [.mod, .headers, .channels, .points, .trx, .axes, .bedrock, .pool, .pair, .panel]
  | .comparatorTestOverdue .. => [.trx]
  | .loopRelease .. => events ++ [.loops]
  | .loopSample .. => events ++ [.channels, .points, .div, .loops, .axes, .pi]
  | .lpTarget .. => [.loops]
  | .lpManv .. => [.loops]
  | .lpModeReq .. => events ++ [.loops]
  | .swap .. => [.loops]
  | .restart .. => [.loops]
  | .loopBankEdited .. => events ++ [.loops]
  | .testStart .. => events ++ [.loops]
  | .testStop .. => events ++ [.loops]
  | .axisTick .. => events ++ [.axes, .pi]
  | .energise .. => events ++ [.axes]
  | .deenergise .. => events ++ [.axes]
  | .stop .. => events ++ [.axes]
  | .quickStop .. => events ++ [.axes]
  | .resume .. => events ++ [.axes]
  | .home .. => events ++ [.axes]
  | .clear .. => events ++ [.axes]
  | .syncPot .. => events ++ [.axes]
  | .targetChange .. => events ++ [.axes]
  | .microstep .. => events ++ [.axes]
  | .dwellEnd .. => events ++ [.axes]
  | .holdDelayEnd .. => [.axes]
  | .axDriverFault .. => events ++ [.axes]
  | .axLimit .. => events ++ [.axes]
  | .loadAngleEstimate .. => events ++ [.axes]
  | .potCheck .. => events ++ [.axes]
  | .stepEdge .. => events ++ [.axes]
  | .velocityUpdate .. => [.axes]
  | .carry .. => events ++ [.axes]
  | .safetyCycle .. => events ++ [.channels, .points, .div, .axes, .bedrock, .mmp, .can, .pi]
  | .brCycleOverrun .. => events ++ [.axes, .bedrock]
  | .voteDiscrepancy .. => events ++ [.bedrock]
  | .stoTestPulse .. => events ++ [.axes, .bedrock]
  | .stoChannelFault .. => events ++ [.axes, .bedrock]
  | .commission .. => events ++ [.otp, .bedrock, .mmp, .pair]
  | .commissionHandOn .. => events ++ [.otp, .bedrock, .pair]
  | .partnerUncommissioned .. => events ++ [.bedrock, .pair]
  | .bsl .. => events ++ [.bedrock, .mmp]
  | .bslTimeout .. => events ++ [.bedrock]
  | .decisionPoint .. => [.pool]
  | .tagTimeout .. => events ++ [.pool]
  | .fabricParity .. => events ++ [.mod, .headers, .channels, .points, .axes, .bedrock, .pool, .pair, .panel]
  | .poolAllocate .. => events ++ [.pool]
  | .blockFree .. => events ++ [.pool, .can]
  | .poolParity .. => events ++ [.pool]
  | .poolScrub .. => events ++ [.pool]
  | .lock .. => events ++ [.pool]
  | .unlock .. => events ++ [.pool]
  | .arbStarved .. => events ++ [.pool]
  | .ringFrame .. => events ++ [.time, .pool, .mmp, .can]
  | .portLinkDown .. => events ++ [.time, .mmp]
  | .portLinkUp .. => events ++ [.mmp]
  | .supervisionSend .. => [.notifyQ, .mmp]
  | .ringSupervisionLost .. => events ++ [.mmp]
  | .arp .. => [.notifyQ, .mmp]
  | .icmpEcho .. => [.notifyQ, .mmp]
  | .read .. => events ++ [.time, .mmp, .freeCount]
  | .write .. => events ++ restarted
  | .registerWrite .. => events ++ restarted
  | .funcReset .. => events ++ restarted
  | .roleKey .. => events ++ [.otp, .mmp]
  | .publish .. => events ++ [.mmp]
  | .health .. => [.notifyQ, .mmp, .mod]
  | .notify .. => [.notifyQ, .mmp]
  | .canRxFrame .. => events ++ [.bedrock, .pool, .can, .freeCount]
  | .canTxRequest .. => [.can]
  | .canTxEnd .. => events ++ [.bedrock, .pool, .can]
  | .canError .. => events ++ [.can]
  | .busOffRecovery .. => events ++ [.can]
  | .canRecovered .. => events ++ [.can]
  | .canTest .. => events ++ [.can]
  | .canFilterEdited .. => events ++ [.can]
  | .heartbeatSend .. => [.mod, .pair]
  | .heartbeat .. => events ++ restarted
  | .pairGuyLost .. => events ++ [.pair]
  | .claimDrop .. => [.channels, .points, .bedrock, .pair]
  | .pairTakeover .. => events ++ restarted
  | .takeoverRestore .. => events ++ [.mod, .headers, .channels, .points, .time, .alarm, .logic, .loops, .axes, .bedrock, .pool, .can, .pair, .panel, .records, .ckpt, .pi]
  | .holdoffEnd .. => [.pair]
  | .handoverRequest .. => [.pair]
  | .handoverIdle .. => [.pair, .ckpt]
  | .handoverCheckpoint .. => events ++ [.mod, .headers, .channels, .points, .logic, .loops, .axes, .bedrock, .pool, .can, .pair, .ckpt]
  | .standbyCkptCheck .. => events ++ [.pair, .ckpt]
  | .prefStrapSense .. => events ++ [.pair]
  | .panelFrame .. => events ++ [.panel]
  | .rowPeriod .. => [.panel]
  | .panelTempRead .. => events ++ [.panel]
  | .regionUpdateRequest .. => [.panel]
  | .renderComplete .. => [.panel]
  | .dischargeEnd .. => [.panel]
  | .functionKey .. => events ++ [.channels, .points, .loops, .axes, .panel, .pi]
  | .f6Held .. => [.panel]
  | .pnlKeyswitch .. => events ++ [.channels, .points, .axes, .panel]
  | .pnlKeyswitchFault .. => events ++ [.channels, .points, .axes, .panel]
  | .take .. => events ++ [.channels, .points, .axes, .panel]
  | .localRelease .. => events ++ [.channels, .points, .axes, .panel]
  | .pnlLocalCmd .. => events ++ [.channels, .points, .loops, .axes, .pi]
  | .recordEvent .. => [.inbox, .records]
  | .stagingCommit .. => events ++ [.records]
  | .recClear .. => [.inbox, .records]
  | .recwin .. => events ++ [.mmp, .records]
  | .reccursor .. => events ++ [.mmp, .records]
  | .filterClock .. => [.points]
  | .countEntryUpdate .. => [.pi]
  | .outputReadback .. => [.points]
  | .holdUpStoreGood .. => [.mod]
  | .clockMonitorWindow .. => [.mod]
  | .busIntegration .. => events ++ [.can]
  | .keyRepeat .. => events ++ [.channels, .points, .loops, .axes, .pi]
  | .guyLineBivouacRequest .. => events ++ restarted
  | .wakeLine .. => events ++ restarted

/-! ### The one instance that a command concerns -/

/-- The channel, by bank × 16 + channel, that is the only one a command may change. -/
def channelOf : Instr → Option Nat
  | .headroomMeasurement b c _ _ | .chComplianceLow b c | .chComplianceShortfall b c _ | .chComplianceOk b c
  | .readbackVisit b c _ | .chBackfeed b c _ | .compFailed b c | .rideTimeEnd b c | .trackMeasurement b c _
  | .notchTrackLost b c | .notchFallback b c | .testPulse b c _ _ => some (16 * b + c)
  | _ => none

/-- The digital point, by group × 8 + point, that is the only one a command may change. -/
def pointOf : Instr → Option Nat
  | .counterPreset g p _ | .freqGateEnd g p | .dpOutTrip g p | .outputRetry g p | .tripFreeTime g p
  | .dpExternalFeed g p _ | .outputReadback g p _ _ => some (8 * g + p)
  | _ => none

/-- The axis that is the only one a command may change. -/
def axisOf : Instr → Option Nat
  | .axisTick a _ _ | .energise a _ | .deenergise a _ | .stop a _ | .quickStop a _ | .resume a _ | .home a _ | .clear a _
  | .syncPot a _ | .targetChange a _ | .microstep a | .dwellEnd a | .holdDelayEnd a | .axDriverFault a _ | .axLimit a _
  | .loadAngleEstimate a _ _ | .potCheck a | .stepEdge a _ | .velocityUpdate a | .carry a => some a
  | _ => none

/-- The CAN controller that is the only one a command may change. -/
def controllerOf : Instr → Option Nat
  | .canRxFrame c _ | .canTxRequest c _ _ | .canTxEnd c _ _ | .canError c _ _ | .busOffRecovery c | .canRecovered c
  | .canTest c _ _ | .canFilterEdited c _ _ _ | .busIntegration c => some c
  | _ => none

/-! ### Invariants -/

/-- Every subpixel's ledger lies in its range (18 R527). -/
def LedgersInRange (s : State) : Prop := ∀ r c, -7 ≤ (s.panel.rows.look r).cells.look c ∧ (s.panel.rows.look r).cells.look c ≤ 7

/-- The FIFO and the two regions of the recorder hold no more than their sizes (19 R553, R554, R560). -/
def RecordsInBounds (s : State) : Prop :=
  s.recd.staging.length ≤ 512 ∧ s.recd.ring.length ≤ 90048 ∧ s.recd.auditRing.length ≤ 8192

end Sys2Proof.Machine
end

