-- ==== Sys2Proof/Certificates/Slice0/Obligations.lean ====
section
/-! DEFINITION. The statements about the module, one for each group of commands and one for each property of every step.

`Completes c s P` says that the command c answers a next state of which P holds. Where a statement rests on a choice or
an inference of the model, its docstring names the entries of notes/assumptions. -/

open Sys2Proof Sys2Proof.Machine

/-- From power-good to RUN: each start command completes with the state, image and role its rule gives. After R572, R27,
R616, R39, R44, R45, R21, R508 of spec/. Where the rules leave a choice or need an inference, the clauses follow the
model's own entries: log 6 and 18 (DEDUCED). -/
def Obligations.ModuleStarts : Prop :=
  (∀ (s : State) (a b coding : Nat), s.mod.state = .off → coding ≤ 2 →
    Completes (.powerGood a b coding) s (fun t =>
      t.mod.state = .selfTest ∧ t.mod.position = coding ∧ t.mod.supplyA = a ∧ t.mod.supplyB = b
        ∧ t.mod.powerCycles = wrap32 (s.recd.mirCycles + 1) ∧ ∀ f ∈ allFns, t.fnState f = .reset))
  ∧ (∀ (s : State) (dev : Int), s.mod.state = .selfTest → dev.natAbs ≤ 20000 →
    Completes (.selfTestEnd true [] dev) s (fun t =>
      t.mod.state = .imageSelect ∧ t.mod.selfTestPass = true ∧ t.mod.clkDev = dev ∧ ∀ e < 3, (t.trx.look e).passed = 106))
  ∧ (∀ (s : State) (n : Nat) (uncom : Bool) (ign : List Nat), s.mod.state = .imageSelect → s.peg.selecting = true →
    s.peg.present = true →
    chooseImage (forRange 3 (fun k (t : Tab SlotSt) => t.put k (readSlot s.peg.mem s.station k)) []) s.lastCommissioned
      = .chosen n uncom ign →
    Completes .imageSelectEnd s (fun t =>
      t.mod.state = .pitch ∧ t.imgId = slotId s.peg.mem n ∧ t.peg.sel = n ∧ t.peg.selecting = false))
  ∧ (∀ (s : State) (crc : W32), s.mod.state = .pitch → s.peg.reading = true → s.peg.selecting = false →
    crc = (s.peg.slots.look s.peg.sel).crc →
    Completes (.secondReadEnd crc) s (fun t =>
      if imageChecks (loadImage (imgSections s.peg.mem s.peg.sel)) (imgSections s.peg.mem s.peg.sel) s.imgId.safety then
        t.sections = imgSections s.peg.mem s.peg.sel ∧ t.img = loadImage (imgSections s.peg.mem s.peg.sel)
          ∧ t.peg.reading = false ∧ t.mod.state = .pitch
      else t.mod.state = .hold ∧ t.mod.hold = .noImage ∧ t.img = s.img))
  ∧ (∀ (s : State) (f : Fn), s.fnState f = .pitch → (s.hdr f).configured = false → s.mod.state = .pitch →
    s.peg.reading = false → (configureFn f s).fnState f ≠ .fault →
    Completes (.functionConfigured f) s (fun t => (t.hdr f).configured = true ∧ t.mod = s.mod))
  ∧ (∀ (s : State) (peg : Option Ckpt) (same : Bool), s.mod.state = .pitch → s.mod.position = 0 →
    s.peg.reading = false → allConfigured s = true →
    Completes (.pitchEnd peg false same) s (fun t =>
      t.mod.state = .run ∧ t.pair.enabled = true ∧ t.pair.role = .single))

/-- Reset, disable, enable, release, break point and drain time-out move a function as its states allow. After R19, R20,
R21, R22, R23, R579, R591, R592 of spec/. Where the rules leave a choice or need an inference, the clauses follow
the model's own entries: log 20 and 21 (DEDUCED). -/
def Obligations.FunctionControl : Prop :=
  (∀ (s : State) (f : Fn) (r : Role), roleAtLeast r .engineer = true → f ≠ .module → f ≠ .pool →
    (f = .peg → pastHold s = false) → (s.fnState f = .run ∨ s.fnState f = .standby ∨ s.fnState f = .drain
      ∨ s.fnState f = .disabled ∨ s.fnState f = .fault) →
    Completes (.functionReset f r) s (fun t =>
      t.fnState f = .reset ∧ (t.hdr f).resets = satInc top32 (s.hdr f).resets ∧ (t.hdr f).fault = (s.hdr f).fault
        ∧ (t.hdr f).evstat = 0 ∧ t.img = s.img))
  ∧ (∀ (s : State) (f : Fn) (r : Role), roleAtLeast r .engineer = true → f ≠ .module → f ≠ .bedrock →
    (s.fnState f = .run ∨ s.fnState f = .standby) →
    Completes (.functionDisable f r) s (fun t => t.fnState f = .drain ∧ ∀ g ≠ f, t.fnState g = s.fnState g))
  ∧ (∀ (s : State) (f : Fn) (r : Role), roleAtLeast r .engineer = true → f ≠ .module → s.fnState f = .disabled →
    Completes (.functionEnable f r) s (fun t => t.fnState f = .pitch ∧ ∀ g ≠ f, t.fnState g = s.fnState g))
  ∧ (∀ (s : State) (f : Fn), s.fnState f = .reset →
    (s.mod.state = .pitch ∨ s.mod.state = .run ∨ s.mod.state = .standby ∨ s.mod.state = .hold) →
    Completes (.resetReleased f) s (fun t => t.fnState f = .pitch ∧ ∀ g ≠ f, t.fnState g = s.fnState g))
  ∧ (∀ (s : State) (f : Fn), s.fnState f = .drain → f ≠ .pool → (f = .peg → pastHold s = false) →
    (domainOf f = 4 ∨ domainOf f = 5 ∨ ∃ g ∈ allFns, g ≠ f ∧ domainOf g = domainOf f ∧ s.fnState g ≠ .disabled) →
    Completes (.drainBreakPoint f) s (fun t => t.fnState f = .disabled ∧ ∀ g ≠ f, t.fnState g = s.fnState g))
  ∧ (∀ (s : State) (f : Fn), s.fnState f = .drain → f ≠ .pool → (∀ a, f ≠ .axis a) → f ≠ .module →
    Completes (.drainTimeout f) s (fun t =>
      t.fnState f = .fault ∧ (t.hdr f).fault = Ev.DRAIN_TIMEOUT.code % 4096 ∧ ∀ g ≠ f, t.fnState g = s.fnState g))

/-- A power failure passes its instants: warning, event window, 14 V, exhaustion, or the return of an input. After R558,
R575, R577 of spec/. Where the rules leave a choice or need an inference, the clauses follow the model's own
entries: log 57 (DEDUCED). -/
def Obligations.PowerFails : Prop :=
  (∀ (s : State) (a b : Nat), awake s = true → s.mod.warning = false →
    Completes (.powerFailWarning a b) s (fun t =>
      t.mod.warning = true ∧ t.mod.warnAt = s.now ∧ t.mod.supplyA = a ∧ t.mod.supplyB = b
        ∧ t.recd.mirSecs = operSecs s ∧ t.recd.mirCycles = s.mod.powerCycles))
  ∧ (∀ s : State, awake s = true → s.mod.warning = true → s.mod.windowClosed = false →
    Completes .eventWindowClose s (fun t => t.mod = { s.mod with windowClosed := true }))
  ∧ (∀ (s : State) (a b : Nat), awake s = true → s.mod.warning = true → s.mod.below14 = false →
    Completes (.inputBelow14v a b) s (fun t =>
      t.mod.below14 = true ∧ t.mod.supplyA = a ∧ t.mod.supplyB = b ∧ t.mod.domains = s.mod.domains &&& 0x811#12
        ∧ t.mod.clocks = s.mod.clocks &&& 0x3011#14))
  ∧ (∀ s : State, s.mod.state = .bivouac ∨ (awake s = true ∧ s.mod.warning = true) →
    Completes .storeExhausted s (fun t =>
      t.mod.state = .off ∧ t.mod.domains = 0 ∧ t.mod.clocks = 0 ∧ t.pair.claim = false ∧ t.pair.enabled = false
        ∧ t.recd.staging = [] ∧ t.panel.dark = true))
  ∧ (∀ (s : State) (a b : Nat), awake s = true → s.mod.warning = true → s.mod.below14 = false →
    Completes (.powerRestored a b) s (fun t =>
      t.mod.warning = false ∧ t.mod.warnEnded = satInc top16 s.mod.warnEnded ∧ t.mod.supplyA = a ∧ t.mod.supplyB = b
        ∧ Raised Ev.POWER_RESTORED 0xF8 (w32 ((s.now - s.mod.warnAt) / 1000000)) s t))

/-- Supplies, hold-up store and internal temperature set their flags and raise their events. After R572, R573, R583 of
spec/. Where the rules leave a choice or need an inference, the clauses follow the model's own entries: log 57
(DEDUCED). -/
def Obligations.SuppliesAndTemperature : Prop :=
  (∀ (s : State) (mv : Nat), awake s = true →
    (s.mod.lostA = false → 18000 ≤ s.mod.supplyB →
      Completes (.supplyLost false mv) s (fun t =>
        t.mod = { s.mod with supplyA := mv, lostA := true } ∧ Raised Ev.SUPPLY_LOST 0xF8 0 s t))
    ∧ (s.mod.lostB = false → 18000 ≤ s.mod.supplyA →
      Completes (.supplyLost true mv) s (fun t =>
        t.mod = { s.mod with supplyB := mv, lostB := true } ∧ Raised Ev.SUPPLY_LOST 0xF8 1 s t))
    ∧ (s.mod.lostA = true →
      Completes (.supplyOk false mv) s (fun t =>
        t.mod = { s.mod with supplyA := mv, lostA := false } ∧ Raised Ev.SUPPLY_OK 0xF8 0 s t))
    ∧ (s.mod.lostB = true →
      Completes (.supplyOk true mv) s (fun t =>
        t.mod = { s.mod with supplyB := mv, lostB := false } ∧ Raised Ev.SUPPLY_OK 0xF8 1 s t)))
  ∧ (∀ (s : State) (charge : Nat), awake s = true → s.mod.storeGood = true → charge < 100 →
    Completes (.holdupLow charge) s (fun t =>
      t.mod = { s.mod with charge := charge, storeGood := false } ∧ Raised Ev.HOLDUP_LOW 0xF8 (w32 charge) s t))
  ∧ (∀ (s : State) (charge : Nat), awake s = true → 100 ≤ charge →
    Completes (.holdUpStoreGood charge) s (fun t => t = { s with mod := { s.mod with charge := min 255 charge, storeGood := true } }))
  ∧ (∀ (s : State) (c : Int), awake s = true → s.mod.overTempCrit = false → s.mod.overTemp = false →
    (c < 1000 → Completes (.temperatureRead c) s (fun t => t = { s with mod := { s.mod with temp := c, tempMax := max s.mod.tempMax c } }))
    ∧ (1000 ≤ c → c < 1150 → Completes (.temperatureRead c) s (fun t =>
        t.mod = { s.mod with temp := c, tempMax := max s.mod.tempMax c, overTemp := true }
          ∧ Raised Ev.OVER_TEMP 0xF9 (w32 (s32 c)) s t))
    ∧ (1150 ≤ c → Completes (.temperatureRead c) s (fun t =>
        t.mod = { s.mod with temp := c, tempMax := max s.mod.tempMax c, overTemp := true, overTempCrit := true }
          ∧ Raised Ev.OVER_TEMP_CRITICAL 0xF9 (w32 (s32 c)) s t)))

/-- The clock monitor counts windows, reports drift and fault, and a lost clock takes its functions to FAULT. After
R581, R582 of spec/. Where the rules leave a choice or need an inference, the clauses follow the model's own
entries: log 57 (DEDUCED). -/
def Obligations.Clocks : Prop :=
  (∀ (s : State) (ppm : Int), awake s = true →
    Completes (.clockMonitorWindow ppm) s (fun t =>
      t.mod.clkDev = ppm ∧ (200 < ppm.natAbs → t.mod.okRun = 0 ∧ t.mod.driftRun = min 1000 (s.mod.driftRun + 1))
        ∧ (ppm.natAbs ≤ 200 → t.mod.driftRun = 0 ∧ t.mod.okRun = min 1000 (s.mod.okRun + 1)
            ∧ (999 ≤ s.mod.okRun → t.mod.drift = false))))
  ∧ (∀ (s : State) (ppm : Int), awake s = true → s.mod.drift = false → 200 < ppm.natAbs →
    Completes (.clockDrift ppm) s (fun t =>
      t.mod.drift = true ∧ t.mod.clkDev = ppm ∧ Raised Ev.CLOCK_DRIFT 0xF8 (w32 (s32 ppm)) s t))
  ∧ (∀ (s : State) (ppm : Int), awake s = true → 20000 < ppm.natAbs → s.mod.state ≠ .selfTest → s.mod.state ≠ .hold →
    Completes (.clockFault ppm) s (fun t =>
      t.mod.state = .hold ∧ t.mod.hold = .clockMonitor ∧ t.mod.clkDev = ppm ∧ t.mod.imageValid = false))
  ∧ (∀ (s : State) (k : Fin 14), awake s = true → k.val ≠ 0 → k.val ≠ 2 → s.mod.clocks.getLsbD k = true →
    k.val ≠ 4 →
    Completes (.clockLost k) s (fun t =>
      t.mod = { s.mod with clocks := s.mod.clocks &&& ~~~(1#14 <<< k.val) }
        ∧ ∀ f ∈ allFns, t.fnState f =
            if k.val ∈ clocksOf f ∧ (s.fnState f = .run ∨ s.fnState f = .drain ∨ s.fnState f = .standby) then .fault
            else s.fnState f))

/-- Checkpoints are begun, skipped, completed, mirrored and checked as their rules say. After R509, R511, R558, R584 of
spec/. Where the rules leave a choice or need an inference, the clauses follow the model's own entries: log 53
(DEDUCED). -/
def Obligations.Checkpoints : Prop :=
  (∀ s : State, takesCkpt s = true → s.ckpt.busy = none →
    Completes .checkpoint s (fun t => ∃ w : CkptWrite,
      t.ckpt.busy = some w ∧ w.half = 1 - s.ckpt.last ∧ w.localDone = false ∧ w.pegDone = false
        ∧ w.ck.seq = nextCkptSeq s ∧ w.ck.instant = s.now ∧ w.ck.alarm = s.alarm ∧ w.ck.axes = s.axes))
  ∧ (∀ s : State, takesCkpt s = true → s.ckpt.busy.isSome = true →
    Completes .checkpoint s (fun t =>
      t.ckpt.busy = s.ckpt.busy ∧ t.pair.ckptSkip = satInc top32 s.pair.ckptSkip))
  ∧ (∀ (s : State) (w : CkptWrite), s.ckpt.busy = some w → w.peg = false →
    Completes (.checkpointComplete false) s (fun t =>
      t.ckpt.busy = none ∧ t.ckpt.last = w.half ∧ t.ckpt.pairSeq = w.ck.seq
        ∧ (if w.half = 0 then t.ckpt.halfA else t.ckpt.halfB) = some w.ck))
  ∧ (∀ (s : State) (w : CkptWrite), s.ckpt.busy = some w → w.peg = true → w.localDone = true →
    Completes (.checkpointComplete true) s (fun t =>
      t.ckpt.busy = none ∧ t.ckpt.pairSeq = w.ck.seq ∧ t.ckpt.pairAt = some w.ck.instant ∧ t.ckpt.pairKib = w.ck.kib))
  ∧ (∀ s : State, awake s = true →
    Completes .headerMirror s (fun t => t = { s with recd := { s.recd with
      mirSecs := operSecs s, mirCycles := s.mod.powerCycles, mirLost := s.recd.lost } }))
  ∧ (∀ (s : State) (seq ageMs kib : Nat) (buf : Bool), paired s = true → s.mod.state = .standby →
    Completes (.standbyCkptCheck seq ageMs kib buf true) s (fun t =>
      t.pair.ckptBad = false ∧ t.ckpt.pairSeq = wrap32 seq ∧ t.ckpt.pairAt = some (s.now - 1000000 * ageMs)
        ∧ t.ckpt.pairKib = kib)
    ∧ Completes (.standbyCkptCheck seq ageMs kib buf false) s (fun t =>
      t.pair.ckptBad = true ∧ Raised Ev.PAIR_CKPT_BAD 0xCB (w32 (b2n buf)) s t))

/-- One-time settings are begun, completed, handed on and refused by a partner as their rules say. After R63, R64, R66,
R421, R422, R469, R617 of spec/. Where the rules leave a choice or need an inference, the clauses follow the model's
own entries: log 24 (DEDUCED). -/
def Obligations.OneTimeSettings : Prop :=
  (∀ (s : State) (r : Role), otpCheck s false r = 0 →
    Completes (.otpProgram r) s (fun t => t.otp.busy = some
      { item := s.otp.selItem, index := s.otp.selIndex, value := [s.otp.data], origin := .role r, by' := 0 }))
  ∧ (∀ (s : State) (r : Role), otpCheck s true r = 0 → s.otp.selItem ≠ 6 → s.otp.selItem ≠ 7 →
    Completes (.otpProgramLast r) s (fun t => t.otp.busy = some
      { item := s.otp.selItem, index := s.otp.selIndex, value := [s.otp.data], origin := .role r, by' := 0 }))
  ∧ (∀ (s : State) (k : OtpBusy) (passed : Bool), s.otp.busy = some k → k.by' = 0 →
    Completes (.otpWrite passed) s (fun t =>
      t.otp.busy = none ∧ t.otp.result = (if passed then 0 else 5)
        ∧ t.otp.items.look (otpKey k.item k.index)
            = s.otp.items.look (otpKey k.item k.index) ++ [{ bytes := k.value, passed := passed }]
        ∧ ∀ j, j ≠ otpKey k.item k.index → t.otp.items.look j = s.otp.items.look j))
  ∧ (∀ (s u : State) (m : Msg) (q : Req) (v : W32) (confirm : Bool), Accepted m 0x0C .commission q s u →
    commissionCheck u v confirm = 0 → u.otp.busy = none →
    Completes (.commission m v confirm) s (fun t =>
      t.otp.busy = some { item := 3, index := 0, value := [v], origin := .role q.role, by' := 1 }
        ∧ t.mmp.waits.look 1 = some q))
  ∧ (∀ (s : State) (v : W32), s.mod.state = .standby → commissionCheck s v false = 0 → s.otp.busy = none →
    Completes (.commissionHandOn v) s (fun t =>
      t.otp.busy = some { item := 3, index := 0, value := [v], origin := .module, by' := 4 }))
  ∧ (∀ (s : State) (n : Nat), s.pair.handOnWaits = true → 0 < n → n < 256 →
    Completes (.partnerUncommissioned n) s (fun t =>
      t.bedrock.partner = n ∧ t.pair.handOnWaits = false ∧ Raised Ev.PARTNER_UNCOMMISSIONED 0xF7 (w32 n) s t))
  ∧ (∀ (s u : State) (m : Msg) (q : Req), Accepted m 0x0D .commission q s u → q.payload.length = 36 →
    leAt q.payload 0 1 ≤ 3 → leAt q.payload 2 2 = 0 → u.otp.busy = none → u.otpUsed 4 0 < 15 →
    Completes (.roleKey m) s (fun t =>
      t.otp.busy = some
        { item := 4, index := 0, value := keyWords (leAt q.payload 0 1) (keyOf u q (leAt q.payload 0 1))
          origin := .role q.role, by' := 2, role := leAt q.payload 0 1 }
        ∧ t.mmp.waits.look 2 = some q))

/-- Bivouac is requested by message or logic engine, entered, and entered by the standby over the guy line. After R586,
R588 of spec/. Where the rules leave a choice or need an inference, the clauses follow the model's own entries: log
58 (DEDUCED). -/
def Obligations.Bivouac : Prop :=
  (∀ (s u : State) (m : Msg) (q : Req), Accepted m 0x0E .engineer q s u → 8 ≤ q.payload.length →
    leAt q.payload 0 1 = 0 → u.mod.bivStage = .none → 0 < leAt q.payload 4 4 → bivCheck u (leAt q.payload 4 4) = 0 →
    Completes (.bivouac m) s (fun t =>
      t.mod = { s.mod with bivStage := .accepted, bivRequestTimer := leAt q.payload 4 4 } ∧ Replied q .ok u t))
  ∧ (∀ (s : State) (v : Nat), v ≠ 0 → v ≠ 0xFFFFFFFF → s.running .logic = true → s.mod.bivStage = .none →
    bivCheck s v = 0 →
    Completes (.bivouacRequest v) s (fun t => t.mod = { s.mod with bivStage := .accepted, bivRequestTimer := v }))
  ∧ (∀ s : State, s.mod.state = .run → wakeArmed s = true → s.mod.bivWakeLatched = none →
    Completes .bivouacEntered s (fun t =>
      t.mod.state = .bivouac ∧ t.mod.siltTimer = s.mod.bivRequestTimer ∧ t.mod.bivCount = wrap32 (s.mod.bivCount + 1)
        ∧ t.mod.bivStage = .none ∧ t.mod.domains = 0x041#12 ∧ t.mod.clocks = 0x0001#14 ∧ t.pair.claim = false))
  ∧ (∀ (s : State) (timer : Nat), s.mod.state = .standby → s.mod.bivWakeLatched = none →
    Completes (.guyLineBivouacRequest timer) s (fun t =>
      t.mod.state = .bivouac ∧ t.mod.siltTimer = timer ∧ t.mod.bivCount = wrap32 (s.mod.bivCount + 1)
        ∧ t.mod.domains = 0x041#12 ∧ t.mod.clocks = 0x0001#14 ∧ t.pair.claim = false))

/-- Every wake source and the restart message bring the module to SELF-TEST with its cause. After R481, R497, R589, R590
of spec/. Where the rules leave a choice or need an inference, the clauses follow the model's own entries: log 58
and 51 (DEDUCED). -/
def Obligations.WakesAndRestarts : Prop :=
  (∀ (s : State) (c : Fin 4) (f : CanFrame), s.mod.state = .bivouac → (wakeWord s c).toNat % 4 = 2 →
    wakeFrame s c f = true →
    Completes (.canWake c (some f)) s (fun t =>
      t.mod.state = .selfTest ∧ t.mod.start = .bivouacExit ∧ t.mod.bivCause = 1 ∧ t.mod.bivArg = c.val))
  ∧ (∀ (s : State) (n : Fin 8) (rising : Bool) (w : WakeCfg), s.mod.state = .bivouac → s.img.module.wakes[n.val]? = some w →
    bitOf (if rising then 0 else 1) w.edge = true →
    Completes (.wakeInput n rising) s (fun t =>
      t.mod.state = .selfTest ∧ t.mod.start = .bivouacExit ∧ t.mod.bivCause = 2 ∧ t.mod.bivArg = n.val))
  ∧ (∀ s : State, s.mod.state = .bivouac → s.mod.siltTimer ≠ 0 →
    Completes .siltTimer s (fun t => t.mod.state = .selfTest ∧ t.mod.start = .bivouacExit ∧ t.mod.bivCause = 3))
  ∧ (∀ (s u : State) (m : Msg) (q : Req), s.mod.state = .bivouac → wakeDatagram m s = true →
    receive m [] (s.setMod (fun x => { x with state := .hold })) = (some q, u) → q.type = 0x0E →
    roleAtLeast q.role .engineer = true → 8 ≤ q.payload.length →
    Completes (.mmpWake m) s (fun t => t.mod.state = .selfTest ∧ t.mod.start = .bivouacExit ∧ t.mod.bivCause = 4))
  ∧ (∀ s : State, s.mod.state = .bivouac →
    Completes .wakeLine s (fun t => t.mod.state = .selfTest ∧ t.mod.start = .bivouacExit ∧ t.mod.bivCause = 0))
  ∧ (∀ (s u : State) (m : Msg) (q : Req), Accepted m 4 .engineer q s u → 5 ≤ q.payload.length →
    leAt q.payload 0 4 = 0x52455354 → (leAt q.payload 4 1).testBit 0 = false → u.mod.restartAfterHandover = false →
    Completes (.moduleRestart m) s (fun t =>
      t.mod.state = .selfTest ∧ t.mod.start = .restart ∧ t.mod.powerCycles = s.mod.powerCycles ∧ t.img = {}))

/-- Heartbeats, loss of the guy line, the claim and the straps act on the pair as their rules say. After R503, R505,
R506, R507 of spec/. Where the rules leave a choice or need an inference, the clauses follow the model's own
entries: log 52 (DEDUCED). -/
def Obligations.PairClaims : Prop :=
  (∀ s : State, (s.mod.state = .imageSelect ∨ s.mod.state = .pitch ∨ s.mod.state = .run ∨ s.mod.state = .standby) →
    s.mod.position ≠ 0 → s.pair.waitUntilRun = false → s.pair.grantWaits = false →
    Completes .heartbeatSend s (fun t =>
      t.pair.sent = .heartbeat (ownHeartbeat s) :: s.pair.sent ∧ t.pair.lastHeartbeatAt = s.now
        ∧ t.mod.health = s.healthNow))
  ∧ (∀ (s : State) (h : Heartbeat) (claim : Bool), paired s = true → h.crcOk = true →
    s.mod.restartAfterHandover = false → s.pair.waitUntilRun = false →
    Completes (.heartbeat h claim) s (fun t =>
      t.pair.heard = true ∧ t.pair.everHeard = true ∧ t.pair.heardAt = s.now ∧ t.pair.partner = h
        ∧ t.pair.partnerClaim = claim ∧ t.pair.guyLost = false))
  ∧ (∀ s : State, paired s = true → s.pair.guyLost = false →
    Completes .pairGuyLost s (fun t =>
      t.pair.guyLost = true ∧ t.pair.heard = false ∧ t.pair.partnerClaim = true ∧ Raised Ev.PAIR_GUY_LOST 0xCB 0 s t))
  ∧ (∀ s : State, paired s = true → s.pair.claim = true →
    Completes .claimDrop s (fun t => t.pair = { s.pair with claim := false, enabled := false }))
  ∧ (∀ (s : State) (n : Fin 4), paired s = true → s.pair.straps ≠ n.val →
    Completes (.prefStrapSense n) s (fun t =>
      t.pair = { s.pair with straps := n.val }
        ∧ Raised Ev.PAIR_PREF_CONFLICT 0xCB (w32 (n.val % 4 + 4 * (ownPref s % 4) + 16 * (s.pair.partner.prefOtp % 4))) s t))

/-- Take-over and handover change role, claim and outputs in their order. After R513, R514, R516, R519, R520 of spec/.
Where the rules leave a choice or need an inference, the clauses follow the model's own entries: log 52 and 53
(DEDUCED). -/
def Obligations.TakeoverAndHandover : Prop :=
  (∀ s : State, paired s = true → s.mod.state = .standby → s.pair.role ≠ .takingOver →
    s.mod.restartAfterHandover = false → s.pair.repitch = false →
    Completes .pairTakeover s (fun t =>
      t.pair.role = .takingOver ∧ t.pair.claim = true ∧ t.pair.enabled = true ∧ t.pair.lastHeartbeatAt = s.now
        ∧ t.pair.handshake = 0))
  ∧ (∀ (s : State) (peg : Option Ckpt), paired s = true → s.mod.state = .standby → s.pair.role = .takingOver →
    s.pair.startRestore = false →
    Completes (.takeoverRestore peg) s (fun t =>
      t.mod.state = .run ∧ t.pair.role = .active
        ∧ t.pair.switches = (if s.pair.takeoverByHandshake then s.pair.switches else satInc top16 s.pair.switches)
        ∧ t.pair.handovers = (if s.pair.takeoverByHandshake then satInc top16 s.pair.handovers else s.pair.handovers)))
  ∧ (∀ s : State, paired s = true → s.mod.state = .standby → s.pair.holdoffStart.isSome = true → isPreferred s = true →
    standbyReady s = true →
    Completes .holdoffEnd s (fun t => t = { s with pair := { s.pair with holdoffStart := none, handshake := 1 } }))
  ∧ (∀ s : State, paired s = true → s.mod.state = .run → s.pair.role = .active → grantBlocked s = false →
    Completes .handoverRequest s (fun t =>
      t = { s with pair := { s.pair with grantWaits := false, handshake := 2, role := .handingOver } }))
  ∧ (∀ s : State, s.pair.role = .handingOver → s.logic.held = true → s.pair.handoverHold = false →
    allIdle s = true → s.mod.warning = false →
    Completes .handoverIdle s (fun t =>
      t.pair = { s.pair with handoverHold := true } ∧ t.ckpt.busy.isSome = true))
  ∧ (∀ s : State, s.pair.role = .handingOver → s.pair.handoverHold = true →
    Completes .handoverCheckpoint s (fun t =>
      t.mod.state = .standby ∧ t.pair.role = .standby ∧ t.pair.claim = false ∧ t.pair.enabled = false
        ∧ t.pair.handshake = 3))

/-- Peg removal, insertion and the four PEG_WRITE operations act on memory and slot state. After R48, R49, R50, R51, R60
of spec/. Where the rules leave a choice or need an inference, the clauses follow the model's own entries: log 22
and 12 (DEDUCED), log 8 (DESIGN CHOICE). -/
def Obligations.PegSlots : Prop :=
  (∀ s : State, s.peg.present = true → (s.mod.state = .run ∨ s.mod.state = .hold) → s.peg.openSlot = none →
    s.peg.chg = .idle →
    Completes .pegRemoved s (fun t =>
      t.peg = { s.peg with present := false } ∧ Raised Ev.PEG_REMOVED 0xCD 0 s t))
  ∧ (∀ (s : State) (mem : List (Nat × Byte)), s.peg.present = false → (s.mod.state = .run ∨ s.mod.state = .hold) →
    Completes (.pegInserted mem) s (fun t =>
      t.peg.present = true ∧ t.peg.mem = pegOf mem ∧ Raised Ev.PEG_INSERTED 0xCD 0 s t))
  ∧ (∀ (s u : State) (m : Msg) (q : Req) (n : Fin 3), Accepted m 0x0A .engineer q s u →
    pegCheck u q.role (.openSlot n.val) n.val = 0 →
    Completes (.pegWriteOpen m n) s (fun t =>
      t.peg.openSlot = some n.val ∧ t.peg.chg = .writing ∧ t.peg.chgSlot = n.val ∧ t.peg.chgResult = 0
        ∧ t.peg.mem = pegWrite s.peg.mem (slotBase n.val) (List.replicate 4 0#8)
        ∧ t.peg.slots.look n.val = { stat := .writeOpen } ∧ Replied q .ok u t))
  ∧ (∀ (s u : State) (m : Msg) (q : Req) (n : Fin 3) (off : Nat) (bytes : List Byte), Accepted m 0x0A .engineer q s u →
    off % 4 = 0 → bytes.length % 4 = 0 → 4 ≤ bytes.length → bytes.length ≤ 1024 → off + bytes.length ≤ 0x400000 →
    pegCheck u q.role (.data n.val off bytes) n.val = 0 →
    Completes (.pegWriteData m n off bytes) s (fun t =>
      t.peg.mem = dataWrite s.peg.mem n.val off bytes ∧ t.peg.chgResult = 0 ∧ t.peg.openSlot = s.peg.openSlot
        ∧ Replied q .ok u t))
  ∧ (∀ (s u : State) (m : Msg) (q : Req) (n : Fin 3), Accepted m 0x0A .engineer q s u →
    pegCheck u q.role (.close n.val) n.val = 0 → verifyCode u.peg.mem u.station n.val true = .verified →
    Completes (.pegWriteClose m n) s (fun t =>
      t.peg.openSlot = none ∧ t.peg.chg = .idle ∧ t.peg.chgSlot = 3 ∧ t.peg.chgResult = 0
        ∧ t.peg.mem = pegWrite s.peg.mem (slotBase n.val) (leBytes 4 imgMagic) ∧ Replied q .ok u t))
  ∧ (∀ (s u : State) (m : Msg) (q : Req) (n : Fin 3), Accepted m 0x0A .engineer q s u →
    pegCheck u q.role (.erase n.val) n.val = 0 →
    Completes (.pegWriteErase m n) s (fun t =>
      t.peg.mem = pegWrite s.peg.mem (slotBase n.val) (List.replicate 4 0#8) ∧ t.peg.chgResult = 0
        ∧ (s.peg.openSlot = some n.val → t.peg.openSlot = none) ∧ Replied q .ok u t))

/-- A commit is accepted or refused, staged, switched, given up or done as its instants say. After R53, R54, R56, R59,
R60 of spec/. Where the rules leave a choice or need an inference, the clauses follow the model's own entries: log
22 and 23 (DEDUCED), log 7 (DESIGN CHOICE). -/
def Obligations.Commits : Prop :=
  (∀ (s u : State) (m : Msg) (q : Req) (n : Fin 3), Accepted m 0x0B .engineer q s u →
    Completes (.commit m n) s (fun t =>
      if commitCheck u n.val = 0 then
        t.peg.chg = .staging ∧ t.peg.chgSlot = n.val ∧ t.peg.staged = imgSections s.peg.mem n.val
          ∧ t.peg.stagedId = slotId s.peg.mem n.val ∧ t.mmp.waits.look 3 = some q
      else
        t.peg = { s.peg with chgResult := commitCheck u n.val } ∧ t.img = s.img ∧ Replied q .refused u t
          ∧ ∃ e ∈ t.recd.inbox, e.code = Ev.COMMIT_REFUSED.code ∧ e.data = w32 (commitCheck u n.val)))
  ∧ (∀ s : State, s.peg.chg = .staging →
    Completes .commitStaged s (fun t => t = { s with peg := { s.peg with chg := .waitInstant } }))
  ∧ (∀ s : State, s.peg.chg = .waitInstant → s.logic.held = true → instanceRunning s false = false →
    Completes .commitSwitch s (fun t =>
      t.img = loadImage s.peg.staged ∧ t.sections = s.peg.staged ∧ t.imgId = s.peg.stagedId ∧ t.peg.chg = .switching
        ∧ t.peg.sel = s.peg.chgSlot ∧ t.peg.staged = [] ∧ t.peg.mem = s.peg.mem))
  ∧ (∀ s : State, s.peg.chg = .waitInstant →
    Completes .commitNoIdle s (fun t =>
      t.peg.chg = .idle ∧ t.peg.chgSlot = 3 ∧ t.peg.chgResult = 9 ∧ t.peg.staged = [] ∧ t.mmp.waits.look 3 = none
        ∧ t.img = s.img))
  ∧ (∀ s : State, s.peg.chg = .switching → s.peg.resetWaits = false → s.peg.drainWaits = false →
    Completes .commitDone s (fun t =>
      t.peg.chg = .idle ∧ t.peg.chgSlot = 3 ∧ t.peg.chgResult = 0 ∧ t.peg.chgSeq = s.imgId.seq
        ∧ t.peg.chgCount = satInc top32 s.peg.chgCount ∧ t.mmp.waits.look 3 = none
        ∧ ∀ f ∈ allFns, (t.hdr f).imageref = s.imgId.seq))
  ∧ (∀ s : State, s.mod.state = .standby →
    Completes .standbyRepitch s (fun t =>
      t.pair.repitch = true ∧ t.pair.holdoffStart = none ∧ t.peg.reading = true ∧ t.peg.selecting = true
        ∧ ∀ f ∈ allFns, t.fnState f = if inStandbySet f && s.fnState f == .standby then .pitch else s.fnState f))

/-- Headroom, compliance, back-feed, CH_CLEAR, lead visits and straps act on a channel as their rules say. After R76,
R77, R86, R88, R101, R82, R84 of spec/. Where the rules leave a choice or need an inference, the clauses follow the
model's own entries: log 26 and 27 (DEDUCED). -/
def Obligations.AnalogueCompliance : Prop :=
  (∀ (s : State) (b : Fin 8) (c : Fin 16) (supply head : Nat), s.live (bankFn b) = true → isCurMode (s.ch b c).mode = true →
    Completes (.headroomMeasurement b c supply head) s (fun t =>
      t.ch b c = { s.ch b c with supply := supply, headroom := head } ∧ t.recd = s.recd))
  ∧ (∀ (s : State) (b : Fin 8) (c : Fin 16), isCurMode (s.ch b c).mode = true → (s.ch b c).compLow = false →
    Completes (.chComplianceLow b c) s (fun t =>
      t.ch b c = { s.ch b c with compLow := true }
        ∧ Raised Ev.CH_COMPLIANCE_LOW (chSrc b c) (w32 (s.ch b c).headroom) s t))
  ∧ (∀ (s : State) (b : Fin 8) (c : Fin 16) (ua : Nat), isCurMode (s.ch b c).mode = true → (s.ch b c).compLow = true →
    (s.ch b c).compShort = false →
    Completes (.chComplianceShortfall b c ua) s (fun t =>
      t.ch b c = { s.ch b c with compShort := true } ∧ Raised Ev.CH_COMPLIANCE_SHORTFALL (chSrc b c) (w32 ua) s t))
  ∧ (∀ (s : State) (b : Fin 8) (c : Fin 16), isCurMode (s.ch b c).mode = true → (s.ch b c).compLow = true →
    Completes (.chComplianceOk b c) s (fun t =>
      t.ch b c = { s.ch b c with compLow := false, compShort := false }
        ∧ Raised Ev.CH_COMPLIANCE_OK (chSrc b c) (w32 (s.ch b c).headroom) s t))
  ∧ (∀ (s : State) (b : Fin 8) (c : Fin 16) (mv : Int), isActiveCur (s.ch b c).mode = true ∨ (s.ch b c).mode = 0x16
      ∨ (s.ch b c).mode = 0x17 → (s.ch b c).backfeed = false → s.live (bankFn b) = true →
    Completes (.chBackfeed b c mv) s (fun t =>
      t.ch b c = { s.ch b c with backfeed := true } ∧ Raised Ev.CH_BACKFEED (chSrc b c) (w32 (s32 mv)) s t))
  ∧ (∀ (s : State) (b : Fin 8) (mask : BitVec 16) (r : Role), roleAtLeast r .engineer = true →
    Completes (.chClear b mask r) s (fun t =>
      (∀ c : Fin 16, mask.getLsbD c = true →
        (t.ch b c).backfeed = false ∧ (t.ch b c).ne43 = false ∧ (t.ch b c).stageOff = false
          ∧ (failAction (s.chCfg b c) ≠ 2 → (t.ch b c).rbMismatch = false))
      ∧ (∀ c : Fin 16, mask.getLsbD c = false → t.ch b c = s.ch b c)
      ∧ Raised Ev.CH_CLEARED (chSrc b 0) (mask.setWidth 32) s t))
  ∧ (∀ (s : State) (b : Fin 8) (c : Fin 16) (ohms : F64), s.live (bankFn b) = true → (s.ch b c).mode = 9 →
    Completes (.readbackVisit b c (.lead ohms)) s (fun t => t.ch b c = { s.ch b c with lead := ohms } ∧ t.recd = s.recd))
  ∧ (∀ (s : State) (straps : List (Fin 4)) (b : Fin 8) (h : b.val < straps.length),
    Completes (.strapSense straps) s (fun t => (t.bank b).straps = straps[b.val].val
      ∧ ((s.bank b).straps ≠ straps[b.val].val → (t.bank b).strapChanged = true
          ∧ Raised Ev.BANK_STRAP_CHANGED (chSrc b 0) (w32 straps[b.val].val) s t)))

/-- The trim procedure starts, accepts, averages, writes and ends as its rules say. After R92, R93, R94, R96, R97, R98,
R102 of spec/. Where the rules leave a choice or need an inference, the clauses follow the model's own entries: log
27 (DEDUCED). -/
def Obligations.TrimProcedure : Prop :=
  (∀ (s : State) (b : Fin 8) (r : Role), roleAtLeast r .engineer = true → s.running (bankFn b) = true →
    (s.bank b).trim.state = .idle →
    ((s.chCfg b (s.bank b).trim.sel).safety ≠ 1 ∧ layIdx s (.aoOut b (s.bank b).trim.sel) = none
      ∨ s.safetyCommissioned = false) →
    (isCurMode (s.ch b (s.bank b).trim.sel).mode = true → Completes (.trimStartCurrent b r) s (fun t =>
      (t.bank b).trim = { sel := (s.bank b).trim.sel, meas := (s.bank b).trim.meas, state := .point1, kind := 1 }
        ∧ Raised Ev.TRIM_STARTED (chSrc b (s.bank b).trim.sel) 1 s t))
    ∧ ((s.ch b (s.bank b).trim.sel).mode = 0x16 ∨ (s.ch b (s.bank b).trim.sel).mode = 0x17 →
      Completes (.trimStartVoltage b r) s (fun t =>
        (t.bank b).trim = { sel := (s.bank b).trim.sel, meas := (s.bank b).trim.meas, state := .point1, kind := 2 }
          ∧ Raised Ev.TRIM_STARTED (chSrc b (s.bank b).trim.sel) 2 s t))
    ∧ (isInMode (s.ch b (s.bank b).trim.sel).mode = true → Completes (.trimStartInput b r) s (fun t =>
      (t.bank b).trim = { sel := (s.bank b).trim.sel, meas := (s.bank b).trim.meas, state := .point1, kind := 3 }
        ∧ Raised Ev.TRIM_STARTED (chSrc b (s.bank b).trim.sel) 3 s t)))
  ∧ (∀ (s : State) (b : Fin 8) (r : Role), roleAtLeast r .engineer = true → (s.bank b).trim.averaging = false →
    (s.bank b).trim.state = .point1 →
    Completes (.trimAccept b r) s (fun t => (t.bank b).trim =
      if (s.bank b).trim.kind = 3 then { (s.bank b).trim with m1 := (s.bank b).trim.meas, averaging := true, result := 0 }
      else { (s.bank b).trim with m1 := (s.bank b).trim.meas, state := .point2, result := 0 }))
  ∧ (∀ (s : State) (b : Fin 8) (avg : F64), (s.bank b).trim.averaging = true → (s.bank b).trim.state = .point1 →
    Completes (.trimAverageDone b avg) s (fun t => (t.bank b).trim =
      { (s.bank b).trim with r1 := avg, averaging := false, state := .point2 }))
  ∧ (∀ (s : State) (b : Fin 8) (r : Role), roleAtLeast r .commission = true → (s.bank b).trim.state = .computed →
    s.otp.busy = none → s.otpUsed (trimItem (s.bank b).trim.kind) (16 * b + (s.bank b).trim.sel) < 3 →
    Completes (.trimWrite b r) s (fun t =>
      (t.bank b).trim = { (s.bank b).trim with state := .writing, result := 0 } ∧ t.otp.items = s.otp.items
        ∧ ∃ o : OtpBusy, t.otp.busy = some o ∧ o.item = trimItem (s.bank b).trim.kind
          ∧ o.index = 16 * b + (s.bank b).trim.sel ∧ o.value = trimSet s b ∧ o.origin = .role r))
  ∧ (∀ (s : State) (b : Fin 8) (k : OtpBusy), s.otp.busy = some k → k.by' = 3 → (s.bank b).trim.state = .writing →
    k.index / 16 = b →
    Completes (.trimWritten b true) s (fun t =>
      (t.bank b).trim = { (s.bank b).trim with state := .idle, averaging := false, result := 0 } ∧ t.otp.busy = none
        ∧ t.otp.items.look (otpKey k.item k.index) = s.otp.items.look (otpKey k.item k.index) ++ [{ bytes := k.value, passed := true }])
    ∧ Completes (.trimWritten b false) s (fun t =>
      (t.bank b).trim = { (s.bank b).trim with state := .idle, averaging := false, result := 9 } ∧ t.otp.busy = none
        ∧ t.otp.items.look (otpKey k.item k.index) = s.otp.items.look (otpKey k.item k.index) ++ [{ bytes := k.value, passed := false }]))
  ∧ (∀ (s : State) (b : Fin 8) (r : Role), roleAtLeast r .engineer = true → (s.bank b).trim.state ≠ .idle →
    (s.bank b).trim.state ≠ .writing →
    Completes (.trimAbort b r) s (fun t => (t.bank b).trim =
      { (s.bank b).trim with state := .idle, averaging := false, result := 0 })
    ∧ Completes (.trimTimeout b) s (fun t => (t.bank b).trim =
      { (s.bank b).trim with state := .idle, averaging := false, result := 10 }))

/-- Slot tables are submitted, refused and swapped at the frame start, and lanes and conversions advance. After R112,
R113, R114, R118, R119, R148 of spec/. Where the rules leave a choice or need an inference, the clauses follow the
model's own entries: log 28 (DEDUCED). -/
def Obligations.SlotTables : Prop :=
  (∀ (s : State) (b : Fin 8) (r : Role), submitCode s b r = (0, 0) →
    Completes (.slotSubmit b r) s (fun t =>
      t.bank b = { s.bank b with slotPend := some (s.bank b).slotShd, subResult := 0, subEntry := 0 }
        ∧ Raised Ev.SLOT_SUBMITTED (chSrc b 0) (w32 (frameLen (s.bank b).slotShd)) s t))
  ∧ (∀ (s : State) (b : Fin 8) (r : Role) (n m : Nat), submitCode s b r = (n, m) → n ≠ 0 →
    Completes (.slotSubmit b r) s (fun t =>
      t.bank b = { s.bank b with subResult := n, subEntry := m }
        ∧ Raised Ev.SLOT_SUBMIT_REFUSED (chSrc b 0) (w32 (n + 256 * m)) s t))
  ∧ (∀ (s : State) (b : Fin 8), s.live (bankFn b) = true →
    Completes (.frameStart b) s (fun t =>
      (t.bank b).frameCount = wrap32 ((s.bank b).frameCount + 1) ∧ (t.bank b).slotPend = none
        ∧ (t.bank b).slotAct = (match (s.bank b).slotPend with | some n => n | none => (s.bank b).slotAct)
        ∧ (t.bank b).clampLive = (s.bank b).clampLive ∧ (t.bank b).trim = (s.bank b).trim))
  ∧ (∀ (s : State) (b : Fin 8) (l : Fin 4) (n : Nat), (s.bank b).lanes.look l ≠ 0 → s.live (bankFn b) = true →
    (laneOf (s.bank b).slotAct l).find? (fun k => decide ((s.bank b).lanes.look l - 1 < k)) = some n →
    Completes (.excitationChange b l) s (fun t =>
      t.bank b = { s.bank b with lanes := (s.bank b).lanes.put l (n + 1) }))
  ∧ (∀ (s : State) (b : Fin 8) (c : Fin 16) (raw : Int) (d : FeDiag), converting s b c = true →
    Completes (.conversionResult b c raw d) s (fun t =>
      (t.ch b c).raw = raw ∧ (t.ch b c).winSeen = true))

/-- Compensation, ride-through, cold junctions and the tracking notch follow their episodes. After R128, R129, R150,
R151, R158 of spec/. Where the rules leave a choice or need an inference, the clauses follow the model's own
entries: log 29 and 28 (DEDUCED). -/
def Obligations.InputEpisodes : Prop :=
  (∀ (s : State) (b : Fin 8) (c : Fin 16), (s.ch b c).comp = .held →
    Completes (.compFailed b c) s (fun t => (t.ch b c).comp = .failed ∧ (t.ch b c).raw = (s.ch b c).raw
      ∧ Raised Ev.COMP_FAILED (chSrc b c) (w32 (compSrc (s.chCfg b c))) s t))
  ∧ (∀ (s : State) (b : Fin 8) (c : Fin 16), (s.ch b c).riding = true → (s.ch b c).episode = true →
    Completes (.rideTimeEnd b c) s (fun t => (t.ch b c).riding = false ∧ (t.ch b c).y = (s.ch b c).y
      ∧ (t.ch b c).wireBreak = (s.ch b c).wireBreak ∧ t.banks = s.banks))
  ∧ (∀ (s : State) (b : Fin 8) (t0 t1 : Option F32),
    Completes (.cjSensorRead b t0 t1) s (fun t => (t.bank b).cj0 = cjValid t0 ∧ (t.bank b).cj1 = cjValid t1 ∧ t.chs = s.chs))
  ∧ (∀ (s : State) (b : Fin 8) (c : Fin 16) (chz : Nat) (g p : Nat), isInMode (s.ch b c).mode = true →
    (s.chCfg b c).notch = 4 → s.live (bankFn b) = true → (s.chCfg b c).trackPt = some (g, p) →
    (s.ch b c).track = .holding →
    Completes (.trackMeasurement b c chz) s (fun t =>
      if 4500 ≤ chz ∧ chz ≤ 6500 ∧ qIsGood (readRef s (.diState g p)).q = true then
        (t.ch b c).track = .locked ∧ (t.ch b c).lastFreq = chz ∧ Raised Ev.NOTCH_TRACK_OK (chSrc b c) (w32 chz) s t
      else t.ch b c = { s.ch b c with validSince := none }))
  ∧ (∀ (s : State) (b : Fin 8) (c : Fin 16), (s.ch b c).track = .locked →
    Completes (.notchTrackLost b c) s (fun t => t.ch b c = { s.ch b c with track := .holding }
      ∧ Raised Ev.NOTCH_TRACK_LOST (chSrc b c) (w32 (s.ch b c).lastFreq) s t))
  ∧ (∀ (s : State) (b : Fin 8) (c : Fin 16), (s.ch b c).track = .holding →
    Completes (.notchFallback b c) s (fun t => (t.ch b c).track = .fallback ∧ (t.ch b c).settling = true
      ∧ (t.ch b c).validSince = none ∧ Raised Ev.NOTCH_FALLBACK (chSrc b c) 0 s t))

/-- Clamps, test pulses, readback visits and cross-checks set their latches and entries. After R131, R132, R134, R84,
R138, R140 of spec/. Where the rules leave a choice or need an inference, the clauses follow the model's own
entries: log 29 and 27 (DEDUCED). -/
def Obligations.ClampsAndTests : Prop :=
  (∀ (s : State) (b : Fin 8) (k : Fin 48),
    Completes (.chClampActive b k) s (fun t =>
      (t.bank b).clampLive = (s.bank b).clampLive ||| ((1 : BitVec 48) <<< k.val)
        ∧ (t.bank b).clampLatch = (s.bank b).clampLatch ||| ((1 : BitVec 48) <<< k.val)
        ∧ ∀ c : Fin 16, (s.bank b).clampLive.getLsbD k = false → rowHasTerm s b c k = true →
            Raised Ev.CH_CLAMP_ACTIVE (chSrc b c) (w32 k) s t))
  ∧ (∀ (s : State) (b : Fin 8) (k : Fin 48), (s.bank b).clampLive.getLsbD k = true →
    Completes (.chClampReleased b k) s (fun t =>
      (t.bank b).clampLive = (s.bank b).clampLive &&& ~~~((1 : BitVec 48) <<< k.val)
        ∧ (t.bank b).clampLatch = (s.bank b).clampLatch
        ∧ ∀ c : Fin 16, rowHasTerm s b c k = true → Raised Ev.CH_CLAMP_RELEASED (chSrc b c) (w32 k) s t))
  ∧ (∀ (s : State) (b : Fin 8) (c : Fin 16) (d1 d2 : Nat), isInMode (s.ch b c).mode = true → testOf (s.chCfg b c) = 1 →
    s.live (bankFn b) = true → (s.ch b c).wireBreak = none →
    Completes (.testPulse b c d1 d2) s (fun t =>
      if 20000 ≤ d1 ∨ 20000 ≤ d2 then
        (t.ch b c).testFailed = true
          ∧ (t.ch b c).wireBreak = some (if (s.chCfg b c).mode = 5 ∨ (s.chCfg b c).mode = 0x0B then 3 else 4)
          ∧ Raised Ev.CH_WIRE_BREAK (chSrc b c) (w32 (if (s.chCfg b c).mode = 5 ∨ (s.chCfg b c).mode = 0x0B then 3 else 4)) s t
      else t.ch b c = { s.ch b c with testFailed := false }))
  ∧ (∀ (s : State) (b : Fin 8) (c : Fin 16) (rb : F32), s.live (bankFn b) = true → isOutMode (s.ch b c).mode = true →
    Completes (.readbackVisit b c (.output rb)) s (fun t =>
      (t.ch b c).readback = rb ∧ (t.ch b c).rbEntry = { val := rb, q := if trimOpen s b c then qUnc 0 else qGood }))
  ∧ (∀ (s : State) (b : Fin 8) (c : Fin 16) (raw : Int) (r : F32), s.live (bankFn b) = true →
    isInMode (s.ch b c).mode = true → (s.chCfg b c).safety = 1 →
    Completes (.readbackVisit b c (.crossCheck raw r)) s (fun t =>
      (t.ch b c).secondN = (s.ch b c).secondN + 1 ∧ (t.ch b c).secondAt = s.now ∧ (t.ch b c).entry = (s.ch b c).entry))

/-- Filters, counters, presets and frequency gates of an input point act as their rules say. After R168, R171, R172,
R173 of spec/. Where the rules leave a choice or need an inference, the clauses follow the model's own entries: log
30 (DEDUCED), log 1 (DESIGN CHOICE). -/
def Obligations.DigitalInputs : Prop :=
  (∀ (s : State) (g p : Fin 8) (v : W32), dpIsIn (s.point g p).mode = true → (s.dpCfg g p).count ≠ 0 →
    s.live (groupFn g) = true →
    Completes (.counterPreset g p v) s (fun t => t.point g p = { s.point g p with count := v, preset := none }))
  ∧ (∀ (s : State) (g p : Fin 8), dpIsIn (s.point g p).mode = true → (s.dpCfg g p).count ≠ 0 →
    s.live (groupFn g) = true →
    ((s.point g p).edges.length < 2 → Completes (.freqGateEnd g p) s (fun t =>
      t.point g p = { s.point g p with freq := 0, freqOver := false, edges := [] }))
    ∧ (2 ≤ (s.point g p).edges.length → (s.point g p).edges.headD 0 < (s.point g p).edges.getLastD 0 →
      Completes (.freqGateEnd g p) s (fun t =>
        (t.point g p).edges = [] ∧ (t.point g p).count = (s.point g p).count
          ∧ (t.point g p).freq = F32.ofRat ((((s.point g p).edges.length - 1) * 10000000 : Nat) : Int)
              ((s.point g p).edges.getLastD 0 - (s.point g p).edges.headD 0))))
  ∧ (∀ (s : State) (clk : Fin 2) (samples : BitVec 64) (g p : Fin 8), dpIsIn (s.point g p).mode = true →
    (s.dpCfg g p).filtClk = clk → s.live (groupFn g) = true →
    Completes (.filterClock clk samples) s (fun t =>
      (t.point g p).raw = samples.getLsbD (8 * g + p)
        ∧ (t.point g p).c = (if samples.getLsbD (8 * g + p) then
            (if (s.point g p).c < (s.dpCfg g p).filtN then (s.point g p).c + 1 else (s.point g p).c)
            else (s.point g p).c - 1)
        ∧ (t.point g p).state = (if (t.point g p).c = 0 then false
            else if (t.point g p).c = (s.dpCfg g p).filtN then true else (s.point g p).state)))
  ∧ (∀ (s : State) (g p : Fin 8) (j : Nat), dpIsIn (s.point g p).mode = true → (s.dpCfg g p).count ≠ 0 →
    layIdx s (.diCount g p) = some j →
    (∀ h q : Fin 8, (h, q) ≠ (g, p) → layIdx s (.diCount h q) ≠ some j) →
    Completes .countEntryUpdate s (fun t => t.pi.look j = some { val := (s.point g p).count, q := qGood } ∧ t.points = s.points))

/-- Output points trip, retry, latch, read back and clear as their rules say. After R174, R175, R176, R177, R178 of
spec/. Where the rules leave a choice or need an inference, the clauses follow the model's own entries: log 30 and
31 (DEDUCED). -/
def Obligations.DigitalOutputs : Prop :=
  (∀ (s : State) (g p : Fin 8), (s.point g p).mode = 8 → (s.point g p).on = true →
    ((s.point g p).retries < 10 → Completes (.dpOutTrip g p) s (fun t =>
      t.point g p = { s.point g p with retries := (s.point g p).retries + 1, on := false, tripped := true, trip6 := true }
        ∧ Raised Ev.DP_OUT_TRIP (dpSrc g p) (w32 ((s.point g p).retries + 1)) s t))
    ∧ (10 ≤ (s.point g p).retries → Completes (.dpOutTrip g p) s (fun t =>
      t.point g p = { s.point g p with on := false, tripped := false, trip6 := false, latched := true }
        ∧ Raised Ev.DP_OUT_LATCHED (dpSrc g p) 0 s t)))
  ∧ (∀ (s : State) (g p : Fin 8), (s.point g p).mode = 8 → (s.point g p).tripped = true → (s.point g p).latched = false →
    s.pair.enabled = true → s.fnState (groupFn g) = .run →
    Completes (.outputRetry g p) s (fun t => t.point g p = { s.point g p with on := doCommand s g p, tripped := false }))
  ∧ (∀ (s : State) (g p : Fin 8), (s.point g p).on = true →
    Completes (.tripFreeTime g p) s (fun t => t.point g p = { s.point g p with retries := 0, trip6 := false } ∧ t.recd = s.recd))
  ∧ (∀ (s : State) (g p : Fin 8) (mv : Nat), (s.point g p).mode = 8 → doCommand s g p = false → (s.point g p).extFeed = false →
    Completes (.dpExternalFeed g p mv) s (fun t =>
      t.point g p = { s.point g p with extFeed := true, readback := true } ∧ Raised Ev.DP_EXTERNAL_FEED (dpSrc g p) (w32 mv) s t))
  ∧ (∀ (s : State) (g p : Fin 8) (held : Nat), (s.point g p).mode = 8 →
    Completes (.outputReadback g p true held) s (fun t =>
      t.point g p = { s.point g p with readback := true, noRead := false })
    ∧ Completes (.outputReadback g p false held) s (fun t =>
      (t.point g p).readback = false ∧ (10000 ≤ held → (t.point g p).extFeed = false)
        ∧ (doCommand s g p = true → 2000 ≤ held → (s.point g p).tripped = false → (s.point g p).latched = false →
            (t.point g p).noRead = true)))
  ∧ (∀ (s : State) (g : Fin 8) (mask : BitVec 8) (r : Role), roleAtLeast r .engineer = true →
    Completes (.dgClear g mask r) s (fun t =>
      (∀ p : Fin 8, mask.getLsbD p = true →
        (t.point g p).latched = false ∧ (t.point g p).retries = 0 ∧ (t.point g p).trip6 = false)
      ∧ (∀ p : Fin 8, mask.getLsbD p = false → t.point g p = s.point g p)
      ∧ Raised Ev.DP_CLEARED (dpSrc g 0) (mask.setWidth 32) s t))

/-- Group supply, overload and watchdogs act as their rules say. After R174, R176, R189 of spec/. Where the rules leave
a choice or need an inference, the clauses follow the model's own entries: log 30 and 31 (DEDUCED). -/
def Obligations.GroupsAndWatchdogs : Prop :=
  (∀ (s : State) (g : Fin 8) (mv : Nat), (s.group g).supplyLow = false →
    Completes (.dgSupplyLow g mv) s (fun t => t.group g = { s.group g with vf := mv, supplyLow := true }
      ∧ Raised Ev.DG_SUPPLY_LOW (dpSrc g 0) (w32 mv) s t))
  ∧ (∀ (s : State) (g : Fin 8) (mv : Nat), (s.group g).supplyLow = true →
    Completes (.dgSupplyOk g mv) s (fun t => t.group g = { s.group g with vf := mv, supplyLow := false }
      ∧ Raised Ev.DG_SUPPLY_OK (dpSrc g 0) (w32 mv) s t))
  ∧ (∀ (s : State) (g : Fin 8) (ma : Nat),
    Completes (.dgOverload g ma false) s (fun t => (t.group g).current = ma
      ∧ (∀ p : Fin 8, (s.point g p).mode = 8 → (t.point g p).latched = true ∧ (t.point g p).on = false)
      ∧ Raised Ev.DG_OVERLOAD (dpSrc g 0) (w32 (ma % 65536)) s t)
    ∧ Completes (.dgOverload g ma true) s (fun t => t.outCurrent = ma ∧ t.points = s.points
      ∧ Raised Ev.DG_OVERLOAD (dpSrc g 0) (w32 (ma % 65536 + 65536)) s t))
  ∧ (∀ (s : State) (o : OutRef), outInUse s o = true → (wdOf s (refOfOut o)).state = .run →
    Completes (.wdExpired o) s (fun t =>
      wdOf t (refOfOut o) = { wdOf s (refOfOut o) with state := .expired, since := s.now, hold := drivenNow s (refOfOut o) }
        ∧ Raised Ev.WD_EXPIRED 0xFD (w32 (wdData s (refOfOut o))) s t))

/-- Sync, holdover, Announce and the transparent clock act on the time unit as their rules say. After R202, R204, R206,
R207, R210, R211 of spec/. Where the rules leave a choice or need an inference, the clauses follow the model's own
entries: log 9 (DESIGN CHOICE), log 11 (PRESUMED), log 32 (DEDUCED). -/
def Obligations.TimeServo : Prop :=
  (∀ (s : State) (m : SyncMsg), s.live .time = true → m.domain = s.img.time.domain → s.tu.gm = some m.gm →
    m.port = prefPort s → s.tu.activePort = portCode m.port → (linkOf s m.port).valid = true →
    Completes (.sync m) s (fun t =>
      t.tu.offset = nsOf ((m.origin : Int) * 65536 + m.corr + meanDelay (linkOf s m.port) - corrIn s m.port m.ingress)
        ∧ (linkOf t m.port).lastSync = some s.now ∧ (linkOf t m.port).interval = m.interval
        ∧ t.tu.activePort = s.tu.activePort
        ∧ (s.tu.servo = .free → t.tu.servo = .locking ∧ t.tu.valid = true ∧ t.tu.steps = wrap32 (s.tu.steps + 1)
            ∧ t.tu.time = s.tu.time + BitVec.ofInt 64 t.tu.offset)
        ∧ (s.tu.servo ≠ .free → 1000000 < t.tu.offset.natAbs → s.tu.servo ≠ .locked → t.tu.servo = .locking
            ∧ t.tu.time = s.tu.time + BitVec.ofInt 64 t.tu.offset)
        ∧ (s.tu.servo = .locked → t.tu.time = s.tu.time)))
  ∧ (∀ s : State, s.tu.servo = .locking ∨ s.tu.servo = .locked →
    Completes .tuHoldover s (fun t => t.tu.servo = .holdover ∧ t.tu.holdAt = s.now ∧ t.tu.time = s.tu.time
      ∧ t.tu.adj = (if s.tu.adjs = [] then s.tu.adj else s.tu.adjs.sum / (s.tu.adjs.length : Int))
      ∧ Raised Ev.TU_HOLDOVER 0xCA 0 s t))
  ∧ (∀ (s : State) (a : Announce), s.live .time = true → a.domain = s.img.time.domain →
    Completes (.announce a) s (fun t =>
      ∃ best ∈ t.tu.announces, t.tu.gm = some best.gm ∧ t.tu.utcOffset = best.utcOffset ∧ a ∈ t.tu.announces
        ∧ (∀ x ∈ t.tu.announces, betterMaster x best = false)
        ∧ (s.tu.gm ≠ some best.gm → Raised Ev.TU_GM_CHANGED 0xCA (w32 (best.gm.toNat % 4294967296)) s t)))
  ∧ (∀ (s : State) (p : Port) (src seq dom : Nat) (corr : Int) (e : TwoStep), s.live .ring = true →
    s.tu.twoStep.find? (twoStepKey src seq dom) = some e →
    Completes (.followUp p src seq dom corr) s (fun t =>
      t.mmp.sent = .ptpForward (otherPort p) seq (corr + e.sum) :: s.mmp.sent
        ∧ t.tu = { s.tu with twoStep := s.tu.twoStep.filter (fun x => !twoStepKey src seq dom x), tcFwd := wrap32 (s.tu.tcFwd + 1) }))
  ∧ (∀ (s : State) (p : Port) (src seq dom : Nat) (corr : Int), s.live .ring = true →
    s.tu.twoStep.find? (twoStepKey src seq dom) = none →
    Completes (.followUp p src seq dom corr) s (fun t =>
      t.tu = { s.tu with tcDrop := wrap32 (s.tu.tcDrop + 1) } ∧ t.mmp.sent = s.mmp.sent
        ∧ Raised Ev.TC_FU_UNMATCHED (portSrc p) (w32 (seq % 65536)) s t))
  ∧ (∀ (s : State) (src seq dom : Nat), Completes (.twoStepExpiry src seq dom) s (fun t =>
      t.tu = { s.tu with twoStep := s.tu.twoStep.filter (fun x => !twoStepKey src seq dom x) } ∧ t.mmp = s.mmp))

/-- Link delays, the CAN relation, match units and captures act as their rules say. After R200, R201, R205, R208, R197,
R198, R215, R216, R218, R219 of spec/. Where the rules leave a choice or need an inference, the clauses follow the
model's own entries: log 32 and 33 and 60 (DEDUCED). -/
def Obligations.LinkDelays : Prop :=
  (∀ (s : State) (p : Port) (seq : Nat) (corr i e : Int), s.live .ring = true →
    Completes (.pdelayReq p seq corr i e) s (fun t =>
      t.mmp.sent = .pdelayResp p seq (corr + (corrOut s p e - corrIn s p i)) :: s.mmp.sent ∧ t.tu = s.tu))
  ∧ (∀ (s : State) (p : Port) (e : Int), s.live .ring = true →
    Completes (.pdelayMeasurement p e) s (fun t =>
      (linkOf t p).seq = ((linkOf s p).seq + 1) % 65536 ∧ (linkOf t p).pending = some (((linkOf s p).seq + 1) % 65536)
        ∧ (linkOf t p).t1 = corrOut s p e
        ∧ (linkOf t p).missing = (if (linkOf s p).pending.isSome then (linkOf s p).missing + 1 else (linkOf s p).missing)
        ∧ t.mmp.sent = .pdelayReq p (((linkOf s p).seq + 1) % 65536) :: s.mmp.sent))
  ∧ (∀ (s : State) (p : Port) (seq : Nat) (corr t2 t3 t4 : Int), s.live .ring = true → (linkOf s p).pending = some seq →
    Completes (.pdelayResp p seq corr t2 t3 t4) s (fun t =>
      (linkOf t p).pending = none ∧ (linkOf t p).missing = 0
        ∧ (linkOf t p).delays = ((((corrIn s p t4 - (linkOf s p).t1) - (t3 - t2) - corr) / 2) :: (linkOf s p).delays).take 8
        ∧ linkOf t (otherPort p) = linkOf s (otherPort p)))
  ∧ (∀ s : State, Completes .canrelCapture s (fun t =>
      t.tu = { s.tu with canSeq := wrap32 (s.tu.canSeq + 2), canStamp := w32 (s.now / 25), canTime := s.tu.time, canRate := adjPpb s.tu.adj }))
  ∧ (∀ (s : State), Completes .timeLoRead s (fun t => t.tu = { s.tu with hiLatch := s.tu.time.extractLsb' 32 32 }))
  ∧ (∀ (s : State) (n : Fin 8) (r : Role), roleAtLeast r .engineer = true → s.live .time = true →
    0 < sdiff32 (unitOf s n).target (shortTime s) →
    Completes (.matchArm n r) s (fun t =>
      unitOf t n = { unitOf s n with armed := true, firings := 0, late := false, stepped := false } ∧ t.recd = s.recd))
  ∧ (∀ (s : State) (n : Fin 8) (r : Role), roleAtLeast r .engineer = true → s.live .time = true →
    sdiff32 (unitOf s n).target (shortTime s) ≤ 0 →
    Completes (.matchArm n r) s (fun t =>
      (unitOf t n).late = true ∧ (unitOf t n).firings = 1 ∧ Raised Ev.TU_MATCH 0xCA (w32 (n + 256)) s t))
  ∧ (∀ (s : State) (n : Fin 8), (unitOf s n).armed = true → s.live .time = true →
    Completes (.tuMatch n) s (fun t =>
      unitOf t n = { unitOf s n with
        late := false, stepped := false, firings := satInc top16 (unitOf s n).firings
        target := if (unitOf s n).period = 0 then (unitOf s n).target else (unitOf s n).target + (unitOf s n).period
        armed := (unitOf s n).period != 0 } ∧ Raised Ev.TU_MATCH 0xCA (w32 n) s t))
  ∧ (∀ (s : State) (g p latched dur : Nat) (rising : Bool), s.running .time = true → 8 * g + p < 64 →
    (capEn s).getLsbD (8 * g + p) = true → (fifoHeld s).length < 1024 →
    Completes (.firstOutCapture (.edge g p latched rising dur)) s (fun t =>
      t.tu.capSeq = (s.tu.capSeq + 1) % 65536
        ∧ ∃ e : CapEntry, t.tu.newest = (e :: s.tu.newest).take 64 ∧ e.stamp = stampOf latched (capDelay s (8 * g + p))
          ∧ e.source = 0x80 + (8 * g + p) ∧ e.bit8 = rising ∧ e.seq = s.tu.capSeq ∧ e.kind = .digital))
  ∧ (∀ (s : State) (c : Fin 4), s.running .time = true → bitOf c s.img.time.capCan = true → (fifoHeld s).length < 1024 →
    Completes (.firstOutCapture (.sof c)) s (fun t =>
      t.tu.capSeq = (s.tu.capSeq + 1) % 65536
        ∧ ∃ e : CapEntry, t.tu.newest = (e :: s.tu.newest).take 64 ∧ e.stamp = s.tu.time ∧ e.source = 0xC4 + c
          ∧ e.kind = .can ∧ e.word3 = w32 (s.now / 25)))
  ∧ (∀ (s : State) (c : CapSource) (g p latched dur : Nat) (rising : Bool), c = .edge g p latched rising dur →
    s.running .time = true → 8 * g + p < 64 → (capEn s).getLsbD (8 * g + p) = true → 1024 ≤ (fifoHeld s).length →
    Completes (.firstOutCapture c) s (fun t =>
      t.tu.capLost = satInc top32 s.tu.capLost ∧ t.tu.fifo = fifoHeld s ∧ t.tu.newest = s.tu.newest))

/-- A tick and the four instants move a point's visible state with their events. After R229, R233, R235, R236, R258 of
spec/. Where the rules leave a choice or need an inference, the clauses follow the model's own entries: log 34 and
35 (DEDUCED). -/
def Obligations.AlarmPoints : Prop :=
  (∀ (s : State) (us : Nat), s.running .alarm = true →
    Completes (.alarmTick us) s (fun t => t.alarm.ticks = wrap32 (s.alarm.ticks + 1) ∧ t.alarm.tickTime = s.tu.time
      ∧ t.alarm.cmds = [] ∧ t.alarm.evalUs = min us 65535 ∧ t.alarm.sampled = true))
  ∧ (∀ (s : State) (n : Fin 2048), s.running .alarm = true → (almOf s n).state = .normal → (almOf s n).raw = true →
    (almOf s n).delayed = false → (almOf s n).suppOn = false →
    Completes (.onDelayEnd n) s (fun t => (almOf t n).state = .activeUnack ∧ (almOf t n).delayed = true
      ∧ (almOf t n).key = (match (almOf s n).stamp with | some k => k | none => (almOf s n).runAt)
      ∧ Raised Ev.ALARM_ACTIVE (almSrc s n) (w32 (n + 2048 * ((almRow s n).prio % 4) + 8192
          + 65536 * ((almRow s n).group % 256) + 16777216 * b2n (almOf s n).stamp.isSome)) s t))
  ∧ (∀ (s : State) (n : Fin 2048), s.running .alarm = true → (almOf s n).state = .activeUnack → (almOf s n).raw = false →
    (almOf s n).delayed = true → (almOf s n).suppOn = false →
    Completes (.offDelayEnd n) s (fun t => (almOf t n).state = .rtnUnack ∧ (almOf t n).delayed = false
      ∧ Raised Ev.ALARM_RETURNED (almSrc s n) (w32 (n + 2048 * ((almRow s n).prio % 4) + 24576
          + 65536 * ((almRow s n).group % 256))) s t))
  ∧ (∀ (s : State) (n : Fin 2048), s.running .alarm = true → (almOf s n).state = .shelved →
    (almOf s n).delayed = false → (almOf s n).suppOn = false →
    Completes (.shelveTimeEnd n) s (fun t => (almOf t n).state = .normal ∧ (almOf t n).shelve = none
      ∧ Raised Ev.ALARM_UNSHELVED (almSrc s n) (w32 (n + 2048 * ((almRow s n).prio % 4)
          + 65536 * ((almRow s n).group % 256) + 16777216)) s t))
  ∧ (∀ (s : State) (n : Fin 2048), s.running .alarm = true → (almOf s n).state = .suppressed →
    (almOf s n).reentry = .none → (almOf s n).suppRun.isSome = true → (almOf s n).shelve = none → (almOf s n).delayed = false →
    Completes (.alarmReleased n) s (fun t => (almOf t n).state = .normal ∧ (almOf t n).suppOn = false
      ∧ Raised Ev.ALARM_RELEASED (almSrc s n) (w32 (n + 2048 * ((almRow s n).prio % 4)
          + 65536 * ((almRow s n).group % 256))) s t))

/-- The call, the stations, the dead-man and the notices act as their rules say. After R246, R247, R248, R249, R251,
R254, R475 of spec/. Where the rules leave a choice or need an inference, the clauses follow the model's own
entries: log 36 (DEDUCED). -/
def Obligations.EngineerCall : Prop :=
  (∀ s : State, s.running .alarm = true → s.img.alarm.master = true → s.alarm.stage = 2 →
    Completes .escalation s (fun t => t.alarm.stage = 3 ∧ t.alarm.cabinSil = 0
      ∧ ∀ c, s.alarm.opener = some c →
          Raised Ev.CALL_STAGE s.img.alarm.engSrc
            (w32 (3 + 4 * (condWord s c).1 + 1024 * (condWord s c).2.1 + 2097152 * b2n (condWord s c).2.2)) s t))
  ∧ (∀ (s : State) (i : Fin 16), s.running .alarm = true → s.img.alarm.master = true → i < s.img.alarm.fwd.length →
    (s.alarm.stations.look i).lost = false →
    Completes (.stationLost i) s (fun t =>
      t.alarm.stations.look i = { s.alarm.stations.look i with lost := true, heard := false, unacked := true }
        ∧ Raised Ev.STATION_LOST s.img.alarm.engSrc (w32 i) s t))
  ∧ (∀ s : State, s.running .alarm = true → s.alarm.dm = .running →
    Completes .dmPrewarn s (fun t => t.alarm.dm = .prewarn ∧ Raised Ev.DM_PREWARN s.img.alarm.engSrc 0 s t))
  ∧ (∀ s : State, s.running .alarm = true → s.alarm.dm = .prewarn →
    Completes .dmAlarm s (fun t => t.alarm = { s.alarm with dm := .alarm, dmUnack := true }
      ∧ Raised Ev.DM_ALARM s.img.alarm.engSrc 0 s t))
  ∧ (∀ (s : State) (v : W32) (r : Role), roleAtLeast r .engineer = true → v.toNat % 4 ≠ 3 →
    Completes (.callUms v r) s (fun t => t.alarm = { s.alarm with umsSet := some (v.toNat % 4), cmdRes := 0 }))
  ∧ (∀ (s : State) (v : W32) (r : Role), roleAtLeast r .operate = true →
    v.toNat % 16 = 15 ∨ v.toNat % 16 < s.img.alarm.engN →
    Completes (.callDuty v r) s (fun t => t.alarm = { s.alarm with dutySel := v.toNat % 16, cmdRes := 0 }))
  ∧ (∀ (s : State) (station : Nat), s.running .alarm = true → s.img.alarm.master = false →
    Completes (.groupStateSend station) s (fun t =>
      t.mmp.sent = .groupState station (groupStateBytes s) :: s.mmp.sent ∧ t.alarm = s.alarm))
  ∧ (∀ (s : State) (u : Nat) (c : CallCond), s.running .alarm = true → u ∈ stageUnits s → unitSilenced s u = false →
    s.alarm.opener = some c →
    Completes (.callNotifyRepeat u) s (fun t => t.mmp.sent = .callNotify u (notifyBytes s c) :: s.mmp.sent ∧ u ∈ t.alarm.notified))
  ∧ (∀ (s : State) (u : Nat), s.running .alarm = true → s.alarm.stage = 0 → u ∈ s.alarm.notified →
    Completes (.callClearRepeat u) s (fun t => t.mmp.sent = .callClear u s.alarm.calls :: s.mmp.sent ∧ t.alarm = s.alarm))

/-- Accepted alarm commands wait for the next tick, are answered, and a group state reaches the master. After R233,
R236, R239, R240, R241, R475 of spec/. Where the rules leave a choice or need an inference, the clauses follow the
model's own entries: log 35 and 36 (DEDUCED). -/
def Obligations.AlarmCommands : Prop :=
  (∀ (s u : State) (m : Msg) (q : Req), Accepted m 7 .operate q s u → leAt q.payload 0 1 = 1 → 6 ≤ q.payload.length →
    u.running .alarm = true → leAt q.payload 1 1 ≤ 3 → (leAt q.payload 1 1 = 0 → leAt q.payload 4 2 < 2048) →
    (leAt q.payload 1 1 = 1 → leAt q.payload 4 2 < 256) → locOk s (leAt q.payload 2 1) = true →
    Completes (.ack m) s (fun t =>
      t.alarm = { s.alarm with
        cmds := s.alarm.cmds ++ [.ack (leAt q.payload 1 1) (leAt q.payload 4 2) (leAt q.payload 2 1) (.role q.role)], cmdRes := 0 }
        ∧ Replied q .ok u t))
  ∧ (∀ (s u : State) (m : Msg) (q : Req), Accepted m 7 .engineer q s u → leAt q.payload 0 1 = 2 → 8 ≤ q.payload.length →
    u.running .alarm = true → leAt q.payload 1 1 = 0 → leAt q.payload 2 1 = 0 → leAt q.payload 4 2 < 2048 →
    almUsed s (leAt q.payload 4 2) = true → (almRow s (leAt q.payload 4 2)).prio ≠ 0 →
    1 ≤ leAt q.payload 6 2 → leAt q.payload 6 2 ≤ shelveLimit s (almRow s (leAt q.payload 4 2)).group →
    (almOf s (leAt q.payload 4 2)).state ≠ .oos →
    Completes (.shelve m) s (fun t =>
      t.alarm = { s.alarm with cmds := s.alarm.cmds ++ [.shelve (leAt q.payload 4 2) (leAt q.payload 6 2) (.role q.role)], cmdRes := 0 }
        ∧ Replied q .ok u t))
  ∧ (∀ (s u : State) (m : Msg) (q : Req), Accepted m 7 .engineer q s u → leAt q.payload 0 1 = 3 → 6 ≤ q.payload.length →
    u.running .alarm = true → leAt q.payload 1 1 = 0 → leAt q.payload 2 1 = 0 → leAt q.payload 4 2 < 2048 →
    almUsed s (leAt q.payload 4 2) = true →
    Completes (.unshelve m) s (fun t =>
      t.alarm = { s.alarm with cmds := s.alarm.cmds ++ [.unshelve (leAt q.payload 4 2) (.role q.role)], cmdRes := 0 }
        ∧ Replied q .ok u t))
  ∧ (∀ (s : State) (v : W32) (r : Role), roleAtLeast r .engineer = true → v.toNat / 16777216 = 0x0A →
    v.toNat / 2048 % 32 = 0 → v.toNat / 131072 % 128 = 0 → almUsed s (v.toNat % 2048) = true →
    Completes (.almOos v r) s (fun t =>
      t.alarm = { s.alarm with cmds := s.alarm.cmds ++ [.oos (v.toNat % 2048) (v.getLsbD 16) (.role r)], cmdRes := 0 }))
  ∧ (∀ s : State, s.running .alarm = true → locOk s s.img.alarm.panelLoc = true →
    Completes .ackKey s (fun t =>
      t.alarm = { s.alarm with cmds := s.alarm.cmds ++ [.ack 2 0 s.img.alarm.panelLoc .panel], cmdRes := 0 })
    ∧ Completes .silenceKey s (fun t =>
      t.alarm = { s.alarm with cmds := s.alarm.cmds ++ [.silence s.img.alarm.panelLoc .panel], cmdRes := 0 }))
  ∧ (∀ (s u : State) (m : Msg) (q : Req) (i : Nat), Accepted m 0x13 .operate q s u → u.running .alarm = true →
    s.img.alarm.master = true → 10 + 8 * leAt q.payload 8 2 ≤ q.payload.length →
    (List.range s.img.alarm.fwd.length).find? (fun i => s.img.alarm.fwd.getD i 0 == q.sender) = some i →
    Completes (.groupState m) s (fun t =>
      t.alarm.stations.look i = { s.alarm.stations.look i with
        groups := fwdGroups (min 256 (leAt q.payload 8 2)) (q.payload.drop 10), at' := s.now, heard := true, lost := false }))

/-- Ticks, items, starts, releases, errors and restarts move the tasks as their rules say. After R267, R270, R272, R276,
R277, R278, R279, R290 of spec/. Where the rules leave a choice or need an inference, the clauses follow the model's
own entries: log 37 (DEDUCED). -/
def Obligations.LogicTasks : Prop :=
  (∀ s : State, s.running .logic = true → s.logic.held = false → holdWanted s = false →
    Completes .logicBaseTick s (fun t => t.logic.ticks = s.logic.ticks + 1
      ∧ ∀ n, (taskCfg s n).kind = .periodic → (taskCfg s n).n ≠ 0 → s.logic.ticks % (taskCfg s n).n = (taskCfg s n).phase →
          (taskOf s n).state = .waiting → (taskOf t n).state = .ready ∧ (taskOf t n).t0 = s.now))
  ∧ (∀ (s : State) (e : Event) (r : List Event), s.running .logic = true → s.taskInbox = e :: r →
    Completes (.eventTaskItem 0) s (fun t => t.taskInbox = r
      ∧ ∀ n, (taskCfg s n).kind = .event → (taskCfg s n).evtKind = 0 → (taskCfg s n).evtSrc = e.source →
          Nat.land e.code (taskCfg s n).evtMask = (taskCfg s n).evtMatch → (taskOf s n).state = .waiting →
          (taskOf s n).queue = [] → (taskCfg s n).evtDepth ≠ 0 → s.logic.held = false →
          (taskOf t n).state = .ready ∧ ∃ i, (taskOf t n).queue.head? = some i ∧ i.code = e.code ∧ i.data = e.data))
  ∧ (∀ (s : State) (c : CapEntry), s.running .logic = true → s.img.time.capLogic = 1 →
    s.tu.fifo.find? (·.forLogic) = some c →
    Completes (.eventTaskItem 1) s (fun t =>
      ∀ n, (taskCfg s n).kind = .event → (taskCfg s n).evtKind = 1 → (taskCfg s n).evtSrc = c.source →
          edgeTaken (taskCfg s n).evtEdge c = true → (taskOf s n).state = .waiting →
          (taskOf s n).queue = [] → (taskCfg s n).evtDepth ≠ 0 → s.logic.held = false →
          (taskOf t n).state = .ready ∧ ∃ i, (taskOf t n).queue.head? = some i ∧ i.source = c.source ∧ i.time = c.stamp))
  ∧ (∀ (s : State) (n : Fin 33) (reads : List Nat), s.running .logic = true → (taskOf s n).state = .ready →
    chosen s n = true →
    Completes (.taskInstanceStart n reads) s (fun t => (taskOf t n).state = .running
      ∧ (taskOf t n).queue = (taskOf s n).queue.drop 1 ∧ (taskOf t n).unit.active = true
      ∧ (taskOf t n).unit.samples = sampleAsync s reads ∧ (taskOf t n).unit.item = (taskOf s n).queue.head?))
  ∧ (∀ s : State, s.running .logic = true → (taskCfg s 32).kind = .background → (taskOf s 32).state = .waiting →
    s.logic.held = false →
    Completes .backgroundCycleStart s (fun t => (taskOf t 32).state = .ready ∧ (taskOf t 32).t0 = s.now
      ∧ t.logic.bgRunning = true ∧ t.logic.bgStart = s.now))
  ∧ (∀ (s : State) (n : Fin 33) (w : WriteSet), s.running .logic = true → (taskOf s n).state = .running →
    Completes (.taskRelease n w) s (fun t => (taskOf t n).inst = wrap32 ((taskOf s n).inst + 1)
      ∧ (taskOf t n).lastUs = min ((s.now - (taskOf s n).t0) / 1000) top32
      ∧ (taskOf t n).maxUs = max (taskOf s n).maxUs (min ((s.now - (taskOf s n).t0) / 1000) top32)))
  ∧ (∀ (s : State) (n : Fin 33), s.running .logic = true → (taskOf s n).state = .running →
    Completes (.runTimeError n) s (fun t => (taskOf t n).cause = 3 ∧ (taskOf t n).queue = []
      ∧ Raised Ev.TASK_FAULT s.img.logic.leSrc (w32 (n + 768)) s t))
  ∧ (∀ s : State, s.running .logic = true → s.logic.bgRunning = true →
    Completes .backgroundWatchdog s (fun t => (taskOf t 32).cause = 2 ∧ t.logic.bgRunning = false
      ∧ Raised Ev.TASK_FAULT s.img.logic.leSrc (w32 544) s t))
  ∧ (∀ (s : State) (v : W32) (r : Role), v.toNat / 256 = 0x7A5C00 → v.toNat % 256 ≤ 32 → roleAtLeast r .engineer = true →
    s.running .logic = true → (taskOf s (v.toNat % 256)).state = .fault →
    Completes (.taskRestart v r) s (fun t => (taskOf t (v.toNat % 256)).state = .waiting
      ∧ (taskOf t (v.toNat % 256)).cause = 0 ∧ t.logic.cmdRes = 0
      ∧ Raised Ev.TASK_RESTARTED s.img.logic.leSrc (w32 (v.toNat % 256)) s t))

/-- Segments compare, the scrub repairs, and the daily test passes, fails or is overdue. After R297, R299, R305, R306,
R312, R314, R315 of spec/. Where the rules leave a choice or need an inference, the clauses follow the model's own
entries: log 38 (DEDUCED). -/
def Obligations.RedundantExecution : Prop :=
  (∀ (s : State) (n : Nat) (r : SegRun), s.running .logic = true → (taskOf s n).state = .running →
    (taskOf s n).unit.done = false → r.parity = .none → r.last = true → compareSeg r = .equal →
    Completes (.segmentCompare .logic n r) s (fun t => (taskOf t n).unit.done = true ∧ (taskOf t n).state = .running
      ∧ (t.trx.look 0).faults = (s.trx.look 0).faults ∧ (t.trx.look 0).wlog = r.log))
  ∧ (∀ (s : State) (n i k : Nat) (r : SegRun), s.running .logic = true → (taskOf s n).state = .running →
    (taskOf s n).unit.done = false → r.parity = .none → compareSeg r = .mismatch i k →
    Completes (.segmentCompare .logic n r) s (fun t => (taskOf t n).cause = 1 ∧ t.mod.cmpLatched = true
      ∧ (t.trx.look 0).faults = satInc top32 (s.trx.look 0).faults
      ∧ Raised Ev.COMPARATOR_FAULT 0xFA
          (w32 (4 * b2n (taskOf s n).unit.repeated + 8 * i + 4096 * k + 65536 * (n % 65536))) s t))
  ∧ (∀ (s : State) (n : Nat) (w : LaneWrite) (r : SegRun), s.running .logic = true → (taskOf s n).state = .running →
    (taskOf s n).unit.done = false → (taskOf s n).unit.repeated = false → r.parity = .none → compareSeg r = .load w →
    Completes (.segmentCompare .logic n r) s (fun t => (taskOf t n).unit.repeated = true
      ∧ (taskOf t n).unit.divEntry = some w.entry ∧ (taskOf t n).state = .running
      ∧ (t.div.look w.entry).total = satInc top32 (s.div.look w.entry).total
      ∧ (t.trx.look 0).faults = (s.trx.look 0).faults))
  ∧ (∀ (s : State) (e : Engine) (c : Bool) (w : Nat), Completes (.scrub [(e, .one c w)]) s (fun t =>
      (t.trx.look (engineCode e)).repairs = satInc top32 (s.trx.look (engineCode e)).repairs ∧ t.mod.parityRepair = true
        ∧ Raised Ev.PARITY_REPAIRED 0xFB (w32 (engineCode e + 4 * b2n c + 8 + 256 * (w % 16777216))) s t))
  ∧ (∀ (s : State) (e : Engine), e ≠ .alarm → s.running (engineFn e) = true → engineIdle s e = true → dailyDue s e = true →
    (s.trx.look (engineCode e)).nextCase < 106 →
    Completes (.comparatorTestPart e 106 []) s (fun t =>
      (t.trx.look (engineCode e)).passed = 106 ∧ (t.trx.look (engineCode e)).result = 1
        ∧ (t.trx.look (engineCode e)).daily = false ∧ (t.trx.look (engineCode e)).testAt = operSecs s ∧ t.mod = s.mod
        ∧ Raised Ev.COMPARATOR_TEST_PASS 0xFA (w32 (engineCode e + 4)) s t)
    ∧ Completes (.comparatorTestPart e 106 [105]) s (fun t =>
      t.mod.state = .hold ∧ t.mod.hold = .comparatorTest ∧ t.mod.imageValid = false))
  ∧ (∀ (s : State) (e : Engine), e ≠ .alarm → dailyDue s e = true →
    Completes (.comparatorTestOverdue e) s (fun t => (t.trx.look (engineCode e)).overdue = true ∧ t.mod = s.mod
      ∧ t.recd = s.recd))

/-- A FORCE fills its slot and a RELEASE begins its end, each with reply and event. After R282, R283, R284, R286, R291
of spec/. Where the rules leave a choice or need an inference, the clauses follow the model's own entries: log 39
(DEDUCED). -/
def Obligations.Forcing : Prop :=
  (∀ (s u : State) (m : Msg) (q : Req) (kind : Fin 3) (ty : Vty) (tgt n : Nat) (v : W32), Accepted m 5 .engineer q s u →
    forceCheck u q.role (forceKindOf kind) ty tgt v = (0, n) →
    Completes (.force m kind ty tgt v) s (fun t =>
      (t.logic.forces.look n).kind = forceKindOf kind ∧ (t.logic.forces.look n).tgt = tgt ∧ (t.logic.forces.look n).ty = ty
        ∧ (t.logic.forces.look n).val = forceValue ty v ∧ (t.logic.forces.look n).role = roleCode q.role
        ∧ t.logic.cmdRes = 0 ∧ t.logic.cmdSlot = n ∧ t.logic.tasks = s.logic.tasks ∧ t.logic.vars = s.logic.vars
        ∧ Replied q .ok u t
        ∧ Raised Ev.FORCE_SET s.img.logic.leSrc (w32 (forceSetData n (forceKindOf kind) ty tgt)) u t))
  ∧ (∀ (s u : State) (m : Msg) (q : Req) (kind : Fin 4) (tgt n : Nat), Accepted m 6 .engineer q s u →
    u.running .logic = true → u.mod.state = .run → slotOf s (forceKindOf kind) tgt = some n → kind ≠ 3 →
    (s.logic.forces.look n).ending = false →
    Completes (.release m kind tgt) s (fun t =>
      t.logic.forces.look n = { s.logic.forces.look n with ending := true } ∧ t.logic.cmdRes = 0 ∧ t.logic.cmdSlot = n
        ∧ Replied q .ok u t
        ∧ Raised Ev.FORCE_RELEASED s.img.logic.leSrc (w32 (n + 65536 * ((s.logic.forces.look n).tgt % 65536))) u t))

/-- Releases and samples of loops and the start and end of a test signal act as their rules say. After R321, R327, R332,
R344, R348 of spec/. Where the rules leave a choice or need an inference, the clauses follow the model's own
entries: log 40 and 41 (DEDUCED). -/
def Obligations.LoopSamples : Prop :=
  (∀ s : State, s.running .loop = true → s.logic.held = false →
    Completes .loopRelease s (fun t => t.loops.ticks = s.loops.ticks + 1
      ∧ ∀ n, loopUsed s n = true → (loopRow s n).tsN ≠ 0 → s.loops.ticks % (loopRow s n).tsN = (loopRow s n).phase →
          (loopOf s n).due = false →
          (loopOf t n).due = true ∧ (loopOf t n).t0 = s.now ∧ (loopOf t n).sample = wrap32 ((loopOf s n).sample + 1)))
  ∧ (∀ (s : State) (n : Fin 256), s.running .loop = true → loopUsed s n = true → loopTurn s n = true →
    Completes (.loopSample n) s (fun t => (loopOf t n).due = false ∧ (loopOf t n).cmds = [] ∧ (loopOf t n).swap = false
      ∧ (loopOf t n).unit = {} ∧ (loopOf t n).sample = (loopOf s n).sample ∧ t.loops.ticks = s.loops.ticks
      ∧ t.loops.busy.head? = some (s.now, s.now - (loopOf s n).t0)))
  ∧ (∀ (s : State) (r : Role), testCheck s r = 0 →
    Completes (.testStart r) s (fun t => t.loops.test.state = (if s.loops.test.pre = 0 then .injecting else .pre)
      ∧ t.loops.test.result = 0 ∧ t.loops.test.j = 0 ∧ t.loops.test.pairs = []
      ∧ t.loops.test.prbs = 2 ^ s.loops.test.order - 1
      ∧ Raised Ev.TEST_STARTED (loopSrc s.loops.test.loop)
          (w32 (s.loops.test.loop % 256 + 256 * (s.loops.test.kind + 8 * b2n s.loops.test.point))) s t))
  ∧ (∀ (s : State) (r : Role), roleAtLeast r .engineer = true → testRunning s = true →
    Completes (.testStop r) s (fun t => t.loops = { s.loops with test := { s.loops.test with state := .early, reason := 1 } }
      ∧ Raised Ev.TEST_ENDED (loopSrc s.loops.test.loop)
          (w32 (s.loops.test.loop % 256 + 256 * (1 + 256 * min top16 s.loops.test.pairs.length))) s t))

/-- Loop commands are accepted in range and by role and wait for the next sample. After R333, R334, R337, R338, R339,
R341, R352 of spec/. Where the rules leave a choice or need an inference, the clauses follow the model's own
entries: log 40 (DEDUCED). -/
def Obligations.LoopCommands : Prop :=
  ∀ (s : State) (n : Fin 256) (r : Role), s.running .loop = true → loopUsed s n = true → heldLocal s 0 n = false →
    (roleAtLeast r .operate = true →
      (∀ v, inRange (loopRow s n).spLo (loopRow s n).spHi v = true → Completes (.lpTarget n v r) s (fun t =>
        loopOf t n = { loopOf s n with cmds := (loopOf s n).cmds ++ [.target v] } ∧ t.loops.cmdRes = 0 ∧ t.loops.cmdLoop = n))
      ∧ (∀ v, inRange (loopRow s n).umin (loopRow s n).umax v = true → Completes (.lpManv n v r) s (fun t =>
        loopOf t n = { loopOf s n with cmds := (loopOf s n).cmds ++ [.manv v] } ∧ t.loops.cmdRes = 0 ∧ t.loops.cmdLoop = n))
      ∧ (∀ v : W32, v.toNat % 4 < 3 → (v.toNat % 4 = 2 → (loopRow s n).casRef ≠ none) → reqAfter (loopOf s n) ≠ v.toNat % 4 →
        Completes (.lpModeReq n v r) s (fun t =>
          loopOf t n = { loopOf s n with cmds := (loopOf s n).cmds ++ [.mode (v.toNat % 4)] } ∧ t.loops.cmdRes = 0
            ∧ t.loops.cmdLoop = n ∧ Raised Ev.LOOP_MODE_SET (loopSrc n) (w32 (n + 256 * (v.toNat % 4))) s t)))
    ∧ (roleAtLeast r .engineer = true →
      ((loopOf s n).swap = false → bankValid (loopRow s n).form (if (loopOf s n).bankB then (loopOf s n).a else (loopOf s n).b) = true →
        Completes (.swap n r) s (fun t => loopOf t n = { loopOf s n with swap := true, swapBy := .role r } ∧ t.loops.cmdRes = 0))
      ∧ ((loopOf s n).mode = .fault → Completes (.restart n r) s (fun t =>
        loopOf t n = { loopOf s n with cmds := (loopOf s n).cmds ++ [.restart (.role r)] } ∧ t.loops.cmdRes = 0))
      ∧ (∀ (inB : Bool) (k : Fin 6) (v : F32), (loopOf s n).bankB ≠ inB → (loopOf s n).swap = false →
        Completes (.loopBankEdited n inB k v r) s (fun t =>
          loopOf t n = (if inB then { loopOf s n with b := bankSet (loopOf s n).b k v } else { loopOf s n with a := bankSet (loopOf s n).a k v })
            ∧ t.loops.cmdRes = 0 ∧ Raised Ev.LOOP_BANK_EDITED (loopSrc n) (w32 (n + 256 * (b2n inB + 2 * k))) s t)))

/-- Axis commands act from their states, and no form is refused by its source alone. After R363, R364, R365, R368, R369,
R376, R378, R384 of spec/. Where the rules leave a choice or need an inference, the clauses follow the model's own
entries: log 42 (DEDUCED). -/
def Obligations.AxisCommands : Prop :=
  ∀ (s : State) (a : Fin 4) (src : CmdSrc), CmdAllowed a src s → s.running (axisFn a) = true → (axCfg s a).mode ≠ 0 →
    ((s.axis a).state = .noTorque → (s.axis a).torqueOff = false → Completes (.energise a src) s (fun t =>
      (t.axis a).state = .stopped ∧ (t.axis a).hold = true ∧ (t.axis a).pos = (s.axis a).pos
        ∧ (t.axis a).pending = some (prepTarget (axCfg s a) (s.axis a) (tgtNow s a)).1
        ∧ (src ≠ .panel → (t.axis a).cmdRes = 0 ∧ (t.axis a).cmdCode = 1)))
    ∧ ((s.axis a).state = .idle ∨ (s.axis a).state = .stopped ∨ (s.axis a).state = .dwell →
      Completes (.deenergise a src) s (fun t => (t.axis a).state = .noTorque ∧ (t.axis a).pending = none
        ∧ (t.axis a).queue = 0 ∧ (t.axis a).pos = (s.axis a).pos ∧ (src ≠ .panel → (t.axis a).cmdRes = 0 ∧ (t.axis a).cmdCode = 2)))
    ∧ ((s.axis a).state = .moving → (s.axis a).first = false →
      Completes (.stop a src) s (fun t => (t.axis a).state = .stopping ∧ (t.axis a).braking = true
        ∧ (t.axis a).brakeBy = .profile ∧ (t.axis a).pending = some (s.axis a).target ∧ (t.axis a).v = (s.axis a).v
        ∧ (src ≠ .panel → (t.axis a).cmdRes = 0 ∧ (t.axis a).cmdCode = 3))
      ∧ Completes (.quickStop a src) s (fun t => (t.axis a).state = .quickStopping ∧ (t.axis a).braking = true
        ∧ (t.axis a).brakeBy = .quick ∧ (t.axis a).pending = some (s.axis a).target ∧ (t.axis a).v = (s.axis a).v
        ∧ (src ≠ .panel → (t.axis a).cmdRes = 0 ∧ (t.axis a).cmdCode = 4)))
    ∧ ((s.axis a).state = .stopped → (s.axis a).ss1Line = false → (axCfg s a).mode ≠ 2 →
      ((s.axis a).pending = none → Completes (.resume a src) s (fun t =>
        (t.axis a).state = .idle ∧ (t.axis a).target = (s.axis a).pos ∧ (src ≠ .panel → (t.axis a).cmdRes = 0)))
      ∧ (∀ p, (s.axis a).pending = some p → MoveAllowed a (prepTarget (axCfg s a) (s.axis a) p).1 s →
        Completes (.resume a src) s (fun t => (t.axis a).state = .moving
          ∧ (t.axis a).target = (prepTarget (axCfg s a) (s.axis a) p).1 ∧ (src ≠ .panel → (t.axis a).cmdRes = 0))))
    ∧ ((s.axis a).state = .idle ∨ (s.axis a).state = .stopped → (axCfg s a).homeMode ≠ 0 → (axCfg s a).mode ≠ 2 →
      (s.axis a).ss1Line = false →
      Completes (.home a src) s (fun t => (t.axis a).state = .homing ∧ (t.axis a).homing = 3 ∧ (t.axis a).travelled = 0
        ∧ (t.axis a).forward = (if homeRef s a then !(axCfg s a).homePos else (axCfg s a).homePos)
        ∧ (src ≠ .panel → (t.axis a).cmdRes = 0)))
    ∧ ((s.axis a).state = .fault → (s.axis a).drive = 0 → Completes (.clear a src) s (fun t =>
      (t.axis a).state = (if 1 ≤ (s.axis a).cause ∧ (s.axis a).cause ≤ 5 then .noTorque else .stopped)
        ∧ (t.axis a).cause = 0 ∧ (t.axis a).hold = true ∧ (src ≠ .panel → (t.axis a).cmdRes = 0)))
    ∧ (∀ p, potValue s a = some p → inMotion (s.axis a) = false → Completes (.syncPot a src) s (fun t =>
      (t.axis a).pos = p ∧ (t.axis a).source = .pot ∧ (t.axis a).mismatch = false ∧ (t.axis a).state = (s.axis a).state
        ∧ (src ≠ .panel → (t.axis a).cmdRes = 0) ∧ Raised Ev.AX_POS_SYNC (axSrc a) (w32 (s32 p)) s t))

/-- Ticks, targets, microsteps, dwell, hold delay, drive faults and limits move an axis as their rules say. After R359,
R360, R364, R367, R368, R376 of spec/. Where the rules leave a choice or need an inference, the clauses follow the
model's own entries: log 42 and 43 (DEDUCED). -/
def Obligations.AxisMotion : Prop :=
  ∀ (s : State) (a : Fin 4), axLive s a = true →
    (∀ supply, (s.axis a).torqueOff = false → Completes (.axisTick a supply 0) s (fun t =>
      (t.axis a).supply = supply ∧ (t.axis a).drive = 0 ∧ (t.axis a).mmpCmds = [] ∧ (t.axis a).panelCmds = []))
    ∧ (∀ w : W32, s.running (axisFn a) = true → (axCfg s a).mode ≠ 2 → (s.axis a).state = .idle →
      MoveAllowed a (prepTarget (axCfg s a) (s.axis a) w.toInt).1 s →
      Completes (.targetChange a w) s (fun t => (t.axis a).state = .moving ∧ (t.axis a).tgtSeen = w.toInt
        ∧ (t.axis a).target = (prepTarget (axCfg s a) (s.axis a) w.toInt).1
        ∧ (t.axis a).forward = decide ((s.axis a).pos < (prepTarget (axCfg s a) (s.axis a) w.toInt).1)))
    ∧ ((axCfg s a).mode = 1 → (s.axis a).state = .moving → (s.axis a).reversal = false →
      Completes (.microstep a) s (fun t =>
        (t.axis a).pos = (if (s.axis a).forward then (s.axis a).pos + 1 else (s.axis a).pos - 1)
          ∧ (t.axis a).travelled = (s.axis a).travelled + 1
          ∧ (t.axis a).state = (if (t.axis a).pos = (s.axis a).target then .idle else .moving)))
    ∧ ((axCfg s a).mode = 2 → (s.axis a).state = .idle → (s.axis a).queue ≠ 0 →
      Completes (.microstep a) s (fun t =>
        (t.axis a).pos + (t.axis a).queue = (s.axis a).pos + (s.axis a).queue
          ∧ (t.axis a).pos = (if 0 < (s.axis a).queue then (s.axis a).pos + 1 else (s.axis a).pos - 1)))
    ∧ ((s.axis a).state = .dwell → MoveAllowed a (prepTarget (axCfg s a) (s.axis a) (s.axis a).target).1 s →
      Completes (.dwellEnd a) s (fun t => (t.axis a).state = .moving
        ∧ (t.axis a).target = (prepTarget (axCfg s a) (s.axis a) (s.axis a).target).1 ∧ (t.axis a).pos = (s.axis a).pos))
    ∧ (energised (s.axis a) = true → inMotion (s.axis a) = false →
      Completes (.holdDelayEnd a) s (fun t => t.axis a = { s.axis a with hold := true }))
    ∧ (∀ c, 1 ≤ c → c ≤ 5 → (s.axis a).state ≠ .torqueRemoved → (s.axis a).state ≠ .fault →
      Completes (.axDriverFault a c) s (fun t => (t.axis a).state = .fault ∧ (t.axis a).cause = c ∧ (t.axis a).drive = c
        ∧ (t.axis a).pos = (s.axis a).pos ∧ Raised Ev.AX_DRIVER_FAULT (axSrc a) (w32 c) s t))
    ∧ ((s.axis a).state = .idle ∨ (s.axis a).state = .stopped →
      ((s.axis a).limP = false → Completes (.axLimit a true) s (fun t => (t.axis a).limP = true
        ∧ (t.axis a).latP = (s.axis a).pos ∧ (t.axis a).state = (s.axis a).state ∧ Raised Ev.AX_LIMIT (axSrc a) 1 s t))
      ∧ ((s.axis a).limN = false → Completes (.axLimit a false) s (fun t => (t.axis a).limN = true
        ∧ (t.axis a).latN = (s.axis a).pos ∧ (t.axis a).state = (s.axis a).state ∧ Raised Ev.AX_LIMIT (axSrc a) 0 s t)))

/-- Load angle, potentiometer, step edges, velocity and carry act on an axis as their rules say. After R371, R373, R374,
R381, R384 of spec/. Where the rules leave a choice or need an inference, the clauses follow the model's own
entries: log 42 and 43 (DEDUCED). -/
def Obligations.AxisSensors : Prop :=
  ∀ (s : State) (a : Fin 4), axLive s a = true →
    (∀ (deg : Nat) (emf : F32), Completes (.loadAngleEstimate a deg emf) s (fun t =>
      (t.axis a).loadAng = min deg 255 ∧ (t.axis a).loadMax = max (s.axis a).loadMax (min deg 255) ∧ (t.axis a).emf = emf))
    ∧ (∀ p, potValue s a = some p → (s.axis a).potInit = false →
      (s.axis a).state = .idle ∨ (s.axis a).state = .stopped ∨ (s.axis a).state = .noTorque →
      (s.axis a).restAt + 500000000 ≤ s.now →
      Completes (.potCheck a) s (fun t => (t.axis a).potDev = p - (s.axis a).pos ∧ (t.axis a).pos = (s.axis a).pos
        ∧ ((p - (s.axis a).pos).natAbs ≤ (axCfg s a).potTol → (t.axis a).potRun = 0
            ∧ (t.axis a).mismatch = (s.axis a).mismatch)
        ∧ ((axCfg s a).potTol < (p - (s.axis a).pos).natAbs → (t.axis a).potRun = min ((s.axis a).potRun + 1) 3
            ∧ ((s.axis a).potRun = 2 → (t.axis a).mismatch = true))))
    ∧ (∀ dir, (axCfg s a).mode = 2 → (s.axis a).state = .idle → (s.axis a).ss1Line = false →
      ((s.axis a).source ≠ .unknown ∨ (axCfg s a).homeMode = 0) → barred (s.axis a) dir = false →
      Completes (.stepEdge a dir) s (fun t => (t.axis a).sdPrev = some (s.now / 100) ∧ (t.axis a).hold = false
        ∧ (t.axis a).pos = (s.axis a).pos
        ∧ (t.axis a).sdLost = (if 65535 < (if dir then (s.axis a).queue + (axCfg s a).sdDiv else (s.axis a).queue - (axCfg s a).sdDiv).natAbs
            then satInc top32 (s.axis a).sdLost else (s.axis a).sdLost)
        ∧ ((if dir then (s.axis a).queue + (axCfg s a).sdDiv else (s.axis a).queue - (axCfg s a).sdDiv).natAbs ≤ 65535 →
            (t.axis a).queue = (prepTarget (axCfg s a) (s.axis a) ((s.axis a).pos
              + (if dir then (s.axis a).queue + (axCfg s a).sdDiv else (s.axis a).queue - (axCfg s a).sdDiv))).1 - (s.axis a).pos)))
    ∧ ((axCfg s a).mode = 3 → (s.axis a).state = .moving → (s.axis a).braking = false → (s.axis a).reversal = false →
      psBrake (axCfg s a) (s.axis a).vel < (carriesLeft (axCfg s a) (s.axis a) : Int) →
      Completes (.velocityUpdate a) s (fun t =>
        (t.axis a).vel = min ((s.axis a).vel + (axCfg s a).psAcc) (axCfg s a).psVmax ∧ (t.axis a).pos = (s.axis a).pos
          ∧ (t.axis a).state = .moving))
    ∧ ((axCfg s a).mode = 3 → (s.axis a).state = .moving → (s.axis a).vel ≠ 0 →
      Completes (.carry a) s (fun t =>
        (t.axis a).pos = (if (s.axis a).forward then (s.axis a).pos + (axCfg s a).psDiv else (s.axis a).pos - (axCfg s a).psDiv)
          ∧ (t.axis a).travelled = (s.axis a).travelled + (axCfg s a).psDiv))

/-- A safety cycle, an overrun and a lasting discrepancy act as their rules say. After R396, R397, R409 of spec/. Where
the rules leave a choice or need an inference, the clauses follow the model's own entries: log 44 (DEDUCED). -/
def Obligations.SafetyCycles : Prop :=
  (∀ (s : State) (us : Nat) (rb : BitVec 8), s.fnState .bedrock = .run →
    Completes (.safetyCycle us rb) s (fun t =>
      t.bedrock.cycles = wrap32 (s.bedrock.cycles + 1) ∧ t.bedrock.cycleUs = min us 65535
        ∧ t.bedrock.cycleMax = max s.bedrock.cycleMax (min us 65535) ∧ t.bedrock.unit = {}
        ∧ ∀ k < 4, (stoOf t k).rb1 = rb.getLsbD (2 * k) ∧ (stoOf t k).rb2 = rb.getLsbD (2 * k + 1)))
  ∧ (∀ (s : State) (us : Nat), s.fnState .bedrock = .run →
    Completes (.brCycleOverrun us) s (fun t =>
      t.bedrock.unit = {} ∧ t.bedrock.tripCause = 7 ∧ Raised Ev.BR_CYCLE_OVERRUN 0xF7 (w32 us) s t
        ∧ Raised Ev.SAFETY_ALL_TRIPPED 0xF7 7 s t))
  ∧ (∀ (s : State) (g : Fin 128), s.fnState .bedrock = .run → (vgRow s g).kind ≠ 0 → (vgOf s g).disc = false →
    (vgOf s g).apart.isSome = true →
    Completes (.voteDiscrepancy g) s (fun t =>
      vgOf t g = { vgOf s g with disc := true, together := none } ∧ (∀ h : Nat, h ≠ g.val → vgOf t h = vgOf s h)
        ∧ Raised Ev.VOTE_DISCREPANCY (0xF4 + g / 64) (w32 g) s t))

/-- STO test pulses and channel faults switch a pair off with its latch and event. After R402, R403 of spec/. Where the
rules leave a choice or need an inference, the clauses follow the model's own entries: log 44 (DEDUCED). -/
def Obligations.StoFaults : Prop :=
  (∀ (s : State) (k : Fin 4) (ch : Fin 2), Completes (.stoTestPulse k ch true) s (fun t => t = s))
  ∧ (∀ (s : State) (k : Fin 4) (ch : Fin 2), (stoOf s k).on = true → bitOf k s.img.bedrock.stoTest = true →
    s.fnState .bedrock = .run → (stoOf s k).latched = false →
    Completes (.stoTestPulse k ch false) s (fun t =>
      (stoOf t k).on = false ∧ (stoOf t k).latched = true ∧ (stoOf t k).faulty2 = decide (ch = 1)
        ∧ Raised Ev.STO_CHANNEL_FAULT 0xF6 (w32 (k + 4 * ch)) s t))
  ∧ (∀ (s : State) (k : Fin 4) (ch : Fin 2), s.fnState .bedrock = .run → (stoOf s k).latched = false →
    Completes (.stoChannelFault k ch) s (fun t =>
      (stoOf t k).on = false ∧ (stoOf t k).latched = true ∧ (stoOf t k).faulty2 = decide (ch = 1)
        ∧ Raised Ev.STO_CHANNEL_FAULT 0xF6 (w32 (k + 4 * ch)) s t
        ∧ ∀ f ∈ sfUsed s, namesSto s f k = true → (sfOf s f).state = .normal →
            (sfOf t f).state = .tripped ∧ (sfOf t f).cause = 10))

/-- A BSL frame in RUN is accepted and a time-out gives safe data. After R427, R428, R429, R430, R431 of spec/. Where
the rules leave a choice or need an inference, the clauses follow the model's own entries: log 46 (DEDUCED). -/
def Obligations.BslFrames : Prop :=
  (∀ (m : Msg) (q : Req) (s u : State) (c : Nat), Accepted m 0x16 .operate q s u →
    (bslFromPeer u q.sender).filter (bslTakes u) = [c] → bslCheck (bslRow u c) q.payload = true →
    (bslOf s c).state = 2 →
    leAt q.payload 0 2 = ((bslOf s c).seq + 1) % 65536 → (bslOf s c).seq < 65536 → bitOf 1 (leAt q.payload 7 1) = false →
    bitOf 0 (leAt q.payload 7 1) = false →
    0 < (w32 (leAt q.payload 2 4) - w32 (bslOf s c).texp).toInt →
    (w32 (leAt q.payload 2 4) - w32 (bslOf s c).texp).toInt ≤ ((bslRow s c).wd * 1000 : Nat) →
    Completes (.bsl m) s (fun t =>
      (bslOf t c).state = 2 ∧ (bslOf t c).seq = leAt q.payload 0 2 ∧ (bslOf t c).texp = leAt q.payload 2 4
        ∧ (bslOf t c).ok = wrap32 ((bslOf s c).ok + 1) ∧ (bslOf t c).lost = (bslOf s c).lost
        ∧ (bslOf t c).at' = some (s.now / 1000000)
        ∧ (bslOf t c).data = (q.payload.drop 8).take (bslRow s c).len
        ∧ t.mmp.replies = s.mmp.replies))
  ∧ (∀ (s : State) (c : Fin 16), s.fnState .bedrock = .run → (bslRow s c).dir = 1 → (bslOf s c).state = 2 →
    Completes (.bslTimeout c) s (fun t =>
      bslOf t c = { bslOf s c with state := 1, passed := 0, data := (bslOf s c).data.map (fun _ => 0#8) }
        ∧ (∀ d : Nat, d ≠ c.val → bslOf t d = bslOf s d)
        ∧ Raised Ev.BSL_TIMEOUT 0xF6 (w32 c) s t))

/-- Pool blocks are allocated, refused, freed, marked and scrubbed as their rules say. After R443, R454 of spec/. Where
the rules leave a choice or need an inference, the clauses follow the model's own entries: log 47 (DEDUCED). -/
def Obligations.PoolBlocks : Prop :=
  (∀ (s : State) (f : Fn) (n : Nat) (bs : List Nat), 1 ≤ n → n ≤ 64 → masked s f = false → poolPick s f n = some bs →
    Completes (.poolAllocate f n) s (fun t =>
      (∀ b ∈ bs, (poolBlock t b).owner = some (fnId f)) ∧ (∀ b, b ∉ bs → poolBlock t b = poolBlock s b)
        ∧ bs.length = n ∧ (t.pool.fns.look (fnId f)).refusals = (s.pool.fns.look (fnId f)).refusals))
  ∧ (∀ (s : State) (f : Fn) (n : Nat), 1 ≤ n → n ≤ 64 → masked s f = false → poolPick s f n = none →
    (s.pool.fns.look (fnId f)).exhausted = false →
    Completes (.poolAllocate f n) s (fun t =>
      t.pool.blocks = s.pool.blocks
        ∧ (t.pool.fns.look (fnId f)).refusals = satInc 16383 (s.pool.fns.look (fnId f)).refusals
        ∧ Raised Ev.POOL_EXHAUSTED 0xCE (w32 (fnId f + 256 * n)) s t))
  ∧ (∀ (s : State) (f : Fn) (b : Nat), (poolBlock s b).owner = some (fnId f) → (poolBlock s b).marked = false →
    Completes (.blockFree f [b]) s (fun t => poolBlock t b = {} ∧ ∀ c, c ≠ b → poolBlock t c = poolBlock s c))
  ∧ (∀ (s : State) (f : Fn) (b : Nat), (poolBlock s b).owner = some (fnId f) → (poolBlock s b).marked = true →
    Completes (.blockFree f [b]) s (fun t => poolBlock t b = { retired := true }
      ∧ Raised Ev.POOL_BLOCK_RETIRED 0xCE (w32 (b + 65536 * retiredBlocks t)) s t))
  ∧ (∀ (s : State) (b : Nat), b < 8192 → (poolBlock s b).retired = false →
    Completes (.poolParity b) s (fun t => poolBlock t b = { poolBlock s b with marked := true }
      ∧ (∀ c, c ≠ b → poolBlock t c = poolBlock s c) ∧ Raised Ev.POOL_PARITY 0xCE (w32 b) s t))
  ∧ (∀ (s : State) (b : Nat), b < 8192 → (poolBlock s b).retired = false → (poolBlock s b).owner = none →
    Completes (.poolScrub [b]) s (fun t => poolBlock t b = { retired := true }
      ∧ Raised Ev.POOL_PARITY 0xCE (w32 (b + 65536)) s t))
  ∧ (∀ (s : State) (b : Nat) (o : Nat), b < 8192 → (poolBlock s b).retired = false → (poolBlock s b).owner = some o →
    Completes (.poolScrub [b]) s (fun t => poolBlock t b = { poolBlock s b with marked := true }
      ∧ Raised Ev.POOL_PARITY 0xCE (w32 (b + 65536)) s t))

/-- Grants, starvation, tag time-outs, parity and locks act as their rules say. After R440, R441, R447, R448, R453 of
spec/. Where the rules leave a choice or need an inference, the clauses follow the model's own entries: log 47
(DEDUCED). -/
def Obligations.ArbiterCommands : Prop :=
  (∀ (s : State) (r : Requester) (beats : Nat), eligible s none r = true → s.pool.holder = none →
    1 ≤ beats → beats ≤ 16 →
    Completes (.decisionPoint [r] beats none false) s (fun t =>
      t.pool.holder = some r ∧ t.pool.waits = []
        ∧ (∃ k, freeTag s = some k ∧ t.pool.tags.look k = some { fn := fnId r.fn, portB := r.portB, since := s.now })
        ∧ t.pool.bursts.head? = some { time := s.now, fn := fnId r.fn, bytes := 8 * beats, cycles := beats + 2 }))
  ∧ (∀ (s : State) (h r : Requester) (k beats : Nat), s.pool.holder = some h → ownsTag s h k = true →
    masked s h.fn = false → eligible s (some k) r = true → rankOf h < rankOf r → h.fn ≠ .logic →
    Completes (.decisionPoint [r, h] beats (some k) true) s (fun t =>
      t.pool.holder = some h ∧ t.pool.tags.look k = none ∧ (t.pool.waits.map (·.who)) = [r]))
  ∧ (∀ (s : State) (f : Fn) (w : WaitSt), s.pool.waits = [w] → w.who.fn = f → w.starved = false →
    Completes (.arbStarved f) s (fun t =>
      t.pool.waits = [{ w with starved := true }]
        ∧ Raised Ev.ARB_STARVED 0xCE (w32 (fnId f + 256 * rankOf w.who)) s t))
  ∧ (∀ (s : State) (f : Fn) (k : Nat), k < 256 →
    Completes (.tagTimeout f k) s (fun t => t.pool.tags.look k = none
      ∧ (∀ j, j ≠ k → t.pool.tags.look j = s.pool.tags.look j)
      ∧ Raised Ev.TAG_TIMEOUT 0xCE (w32 (fnId f + 256 * k)) s t))
  ∧ (∀ (s : State) (f : Fn) (k : Nat), k < 256 → f ≠ .module → f ≠ .pool →
    (s.fnState f = .run ∨ s.fnState f = .drain ∨ s.fnState f = .standby) →
    Completes (.fabricParity f k) s (fun t => t.pool.parity = min top32 (s.pool.parity + 2) ∧ t.fnState f = .fault
      ∧ (t.hdr f).fault = 0xC05 ∧ Raised Ev.FABRIC_PARITY 0xCE (w32 (fnId f + 256 * k)) s t))
  ∧ (∀ (s : State) (f : Fn) (n : Nat), n ≤ 10 → masked s f = false → (∀ h ∈ locksOf s f, h < n) →
    (s.pool.locks.look n).owner = none →
    Completes (.lock f n) s (fun t => (t.pool.locks.look n).owner = some (fnId f)
      ∧ (t.pool.locks.look n).waiters = (s.pool.locks.look n).waiters
      ∧ ∀ m, m ≠ n → t.pool.locks.look m = s.pool.locks.look m))
  ∧ (∀ (s : State) (f : Fn) (n o : Nat), n ≤ 10 → masked s f = false → (∀ h ∈ locksOf s f, h < n) →
    (s.pool.locks.look n).owner = some o → fnId f ∉ (s.pool.locks.look n).waiters →
    Completes (.lock f n) s (fun t =>
      t.pool.locks.look n = { owner := some o, waiters := (s.pool.locks.look n).waiters ++ [fnId f] }))
  ∧ (∀ (s : State) (f : Fn) (n : Nat), n ≤ 10 → masked s f = false → (∃ h ∈ locksOf s f, n ≤ h) →
    Completes (.lock f n) s (fun t => t.pool.locks = s.pool.locks ∧ t.pool.orderCount = satInc top32 s.pool.orderCount
      ∧ Raised Ev.ORDER_VIOLATION 0xCE (w32 (fnId f + 256 * (locksOf s f).foldl max 0 + 4096 * n)) s t))
  ∧ (∀ (s : State) (f : Fn) (n : Nat), (s.pool.locks.look n) = { owner := some (fnId f), waiters := [] } →
    Completes (.unlock f n) s (fun t => t.pool.locks.look n = {} ∧ ∀ m, m ≠ n → t.pool.locks.look m = s.pool.locks.look m))
  ∧ (∀ (s : State) (f g : Fn) (n : Nat) (w : List Nat),
    (s.pool.locks.look n) = { owner := some (fnId f), waiters := fnId g :: w } →
    (∀ p ∈ s.pool.locks, p.2.owner = some (fnId g) → p.1 < n) →
    Completes (.unlock f n) s (fun t => t.pool.locks.look n = { owner := some (fnId g), waiters := w }
      ∧ ∀ m, m ≠ n → t.pool.locks.look m = s.pool.locks.look m))

/-- Frames, PTP frames among them, links and supervision act on the ports as their rules say. After R206, R207, R208,
R209, R459, R460, R461, R462 of spec/. Where the rules leave a choice or need an inference, the clauses follow the
model's own entries: log 32 and 48 (DEDUCED). -/
def Obligations.RingFrames : Prop :=
  (∀ (s : State) (p : Port) (f : RingIn), portsAlive s = true → (portOf s p).up = true → f.fcsOk = false →
    Completes (.ringFrame p f) s (fun t => portOf t p = { portOf s p with fcs := satInc top16 (portOf s p).fcs }
      ∧ t.mmp.sent = s.mmp.sent))
  ∧ (∀ (s : State) (p : Port) (f : RingIn), portsAlive s = true → (portOf s p).up = true → f.fcsOk = true →
    f.len ≤ 1528 → f.own = true →
    Completes (.ringFrame p f) s (fun t => portOf t p = { portOf s p with rx := wrap32 ((portOf s p).rx + 1) }
      ∧ t.mmp.sent = s.mmp.sent))
  ∧ (∀ (s : State) (p : Port) (f : RingIn), portsAlive s = true → (portOf s p).up = true → f.fcsOk = true →
    f.len ≤ 1528 → f.own = false → f.kind = .other → (dupSee s.now f.src f.seq s.mmp.dupForward).1 = true →
    Completes (.ringFrame p f) s (fun t => portOf t p = { portOf s p with
        rx := wrap32 ((portOf s p).rx + 1), dup := wrap32 ((portOf s p).dup + 1) }
      ∧ t.mmp.sent = s.mmp.sent))
  ∧ (∀ (s : State) (p : Port) (f : RingIn) (bs : List Nat), portsAlive s = true → (portOf s p).up = true →
    (portOf s (otherPort p)).up = true → f.fcsOk = true → f.len ≤ 1528 → f.own = false → f.kind = .other →
    f.ptp = none → (dupSee s.now f.src f.seq s.mmp.dupForward).1 = false →
    poolPick s .ring ((f.len + 255) / 256) = some bs →
    Completes (.ringFrame p f) s (fun t =>
      (portOf t (otherPort p)).fwd = wrap32 ((portOf s (otherPort p)).fwd + 1)
        ∧ t.mmp.sent = .forward (otherPort p) f.id :: s.mmp.sent))
  ∧ (∀ (s : State) (p : Port) (f : RingIn) (bs : List Nat) (corr i e : Int), portsAlive s = true →
    (portOf s p).up = true → (portOf s (otherPort p)).up = true → f.fcsOk = true → f.len ≤ 1528 → f.own = false →
    f.kind = .multicast → f.ptp = some (.oneStep corr i e) →
    (dupSee s.now f.src f.seq s.mmp.dupForward).1 = false →
    poolPick s .ring ((f.len + 255) / 256) = some bs → residence s p i e ≤ 65536000000 →
    Completes (.ringFrame p f) s (fun t =>
      t.mmp.sent = .ptpForward (otherPort p) f.id (corr + residence s p i e + linkTerm s p) :: s.mmp.sent
        ∧ t.tu.tcFwd = wrap32 (s.tu.tcFwd + 1)
        ∧ t.tu.tcResMax = min top32 (max s.tu.tcResMax (nsOf (residence s p i e)).toNat)
        ∧ t.tu.tcLate = s.tu.tcLate))
  ∧ (∀ (s : State) (p : Port) (f : RingIn) (bs : List Nat) (corr i e : Int), portsAlive s = true →
    (portOf s p).up = true → (portOf s (otherPort p)).up = true → f.fcsOk = true → f.len ≤ 1528 → f.own = false →
    f.kind = .multicast → f.ptp = some (.oneStep corr i e) →
    (dupSee s.now f.src f.seq s.mmp.dupForward).1 = false →
    poolPick s .ring ((f.len + 255) / 256) = some bs → 65536000000 < residence s p i e →
    Completes (.ringFrame p f) s (fun t =>
      t.mmp.sent = .forward (otherPort p) f.id :: s.mmp.sent ∧ t.tu.tcLate = wrap32 (s.tu.tcLate + 1)
        ∧ t.tu.tcFwd = s.tu.tcFwd))
  ∧ (∀ (s : State) (p : Port) (f : RingIn) (bs : List Nat) (src seq dom : Nat) (i e : Int), portsAlive s = true →
    (portOf s p).up = true → (portOf s (otherPort p)).up = true → f.fcsOk = true → f.len ≤ 1528 → f.own = false →
    f.kind = .multicast → f.ptp = some (.twoStep src seq dom i e) →
    (dupSee s.now f.src f.seq s.mmp.dupForward).1 = false →
    poolPick s .ring ((f.len + 255) / 256) = some bs → residence s p i e ≤ 65536000000 →
    Completes (.ringFrame p f) s (fun t =>
      t.mmp.sent = .forward (otherPort p) f.id :: s.mmp.sent
        ∧ t.tu.twoStep.getLast? = some { srcId := src, seq := seq, domain := dom,
                                         sum := residence s p i e + linkTerm s p, at' := s.now }))
  ∧ (∀ (s : State) (p : Port) (f : RingIn) (src seq dom : Nat) (corr : Int), portsAlive s = true →
    (portOf s p).up = true → f.fcsOk = true → f.len ≤ 1528 → f.own = false →
    f.kind = .multicast → f.ptp = some (.followUp src seq dom corr) →
    (dupSee s.now f.src f.seq s.mmp.dupForward).1 = false →
    s.tu.twoStep.any (twoStepKey src seq dom) = false →
    Completes (.ringFrame p f) s (fun t =>
      t.mmp.sent = s.mmp.sent ∧ t.tu.tcDrop = wrap32 (s.tu.tcDrop + 1)
        ∧ Raised Ev.TC_FU_UNMATCHED (portSrc p) (w32 (seq % 65536)) s t))
  ∧ (∀ (s : State) (p : Port) (f : RingIn), portsAlive s = true → (portOf s p).up = true → f.fcsOk = true →
    f.len ≤ 1528 → f.own = false → f.kind = .supervision → (portOf s (otherPort p)).up = false →
    (portOf s p).supOk = false →
    Completes (.ringFrame p f) s (fun t => (portOf t p).supOk = true ∧ (portOf t p).supAt = some s.now
      ∧ Raised Ev.RING_SUPERVISION_OK (portSrc p) 0 s t))
  ∧ (∀ (s : State) (p : Port), (portOf s p).up = true →
    Completes (.portLinkDown p) s (fun t =>
      portOf t p = { portOf s p with up := false, speed := 0, supOk := false, supAt := none,
                                     downs := satInc top16 (portOf s p).downs }
        ∧ portOf t (otherPort p) = portOf s (otherPort p)
        ∧ Raised Ev.PORT_LINK_DOWN (portSrc p) (w32 (portOf s p).speed) s t))
  ∧ (∀ (s : State) (p : Port) (speed : Fin 3), portsAlive s = true → (portOf s p).up = false → speed ≠ 0 →
    Completes (.portLinkUp p speed) s (fun t => portOf t p = { portOf s p with up := true, speed := speed.val }
      ∧ portOf t (otherPort p) = portOf s (otherPort p)
      ∧ Raised Ev.PORT_LINK_UP (portSrc p) (w32 speed) s t))
  ∧ (∀ s : State, delivers s = true →
    Completes .supervisionSend s (fun t => t.mmp.sent = .supervision s.mmp.hsrSeq :: s.mmp.sent
      ∧ t.mmp.hsrSeq = (s.mmp.hsrSeq + 1) % 65536))
  ∧ (∀ (s : State) (p : Port), (portOf s p).up = true → (portOf s p).supOk = true →
    Completes (.ringSupervisionLost p) s (fun t => portOf t p = { portOf s p with supOk := false }
      ∧ Raised Ev.RING_SUPERVISION_LOST (portSrc p) 0 s t))

/-- ARP, echo, PUBLISH, HEALTH and NOTIFY send what their rules say. After R463, R477, R478 of spec/. Where the rules
leave a choice or need an inference, the clauses follow the model's own entries: log 48 and 50 (DEDUCED). -/
def Obligations.HostServices : Prop :=
  (∀ (s : State) (mac : Nat), delivers s = true →
    Completes (.arp s.img.mmp.ip mac) s (fun t => t.mmp.sent = .arp s.img.mmp.ip mac :: s.mmp.sent))
  ∧ (∀ (s : State) (ip id seq : Nat) (data : List Byte), delivers s = true →
    (s.mmp.echoes.filter (fun x => decide (s.now < x + 1000000000))).length < 10 →
    Completes (.icmpEcho ip id seq data) s (fun t => t.mmp.sent = .echo ip id seq data :: s.mmp.sent
      ∧ t.mmp.echoes = s.now :: s.mmp.echoes.filter (fun x => decide (s.now < x + 1000000000))))
  ∧ (∀ (s : State) (ip id seq : Nat) (data : List Byte),
    10 ≤ (s.mmp.echoes.filter (fun x => decide (s.now < x + 1000000000))).length →
    Completes (.icmpEcho ip id seq data) s (fun t => t = s))
  ∧ (∀ (s : State) (n : Fin 16), s.mod.state = .run → (s.img.mmp.pubs.look n).period ≠ 0 →
    (s.roleKey .observe).isSome = true → delivers s = true →
    Completes (.publish n) s (fun t =>
      t.mmp.sent = .publish n (wrap32 (s.mmp.pubCount.look n + 1)) s.tu.time
          ((s.img.mmp.pubs.look n).entries.map (readEntry s)) :: s.mmp.sent
        ∧ t.mmp.pubCount.look n = wrap32 (s.mmp.pubCount.look n + 1)))
  ∧ (∀ (s : State) (n : Fin 16), s.mod.state = .run → (s.img.mmp.pubs.look n).period ≠ 0 →
    (s.roleKey .observe).isSome = true → delivers s = false → s.mmp.pubEpisode.testBit n = false →
    Completes (.publish n) s (fun t => t.mmp.pubSkipped = satInc top16 s.mmp.pubSkipped ∧ t.mmp.sent = s.mmp.sent
      ∧ Raised Ev.PUBLISH_MISSED 0xC8 (w32 n) s t))
  ∧ (∀ s : State, delivers s = true →
    Completes .health s (fun t =>
      t.mmp.sent = .health s.healthNow (w32 (modCode s.mod.state + 256 * holdCode s.mod.hold)) s.tu.time
          (s.hdr .module).imageref (w32 s.epoch) (s.roleKey .observe).isNone :: s.mmp.sent
        ∧ t.mod = { s.mod with health := s.healthNow, parityRepair := false }))
  ∧ (∀ s : State, delivers s = true → (s.roleKey .observe).isSome = true → s.img.mmp.notify ≠ [] → s.mmp.notifyQ ≠ [] →
    Completes .notify s (fun t =>
      t.mmp.sent = (s.img.mmp.notify.map (fun p => RingOut.notify p (s.mmp.notifyQ.take 32))).reverse ++ s.mmp.sent
        ∧ t.mmp.notifyQ = [] ∧ t.mmp.notifyLost = min top32 (s.mmp.notifyLost + (s.mmp.notifyQ.length - 32))))

/-- Reads, writes and FUNC_RESET act on the objects and answer as their rules say. After R5, R19, R20, R465, R473, R474,
R479 of spec/. Where the rules leave a choice or need an inference, the clauses follow the model's own entries: log
16 and 17 and 49 and 59 (DEDUCED). -/
def Obligations.ObjectAccess : Prop :=
  (∀ (m : Msg) (pairs : List (W32 × Nat)) (q : Req) (ws : List W32) (s u v : State),
    receive m (pairs.map (·.1)) s = (some q, u) → q.type = 1 → readFormed pairs = true →
    readWords (readList pairs) [] u = (.ok, ws, v) →
    Completes (.read m pairs) s (fun t => ∃ a : Reply, t.mmp.replies = a :: v.mmp.replies ∧ a.status = .ok
      ∧ a.seq = q.seq ∧ a.sender = q.sender ∧ a.body = ws.flatMap (fun w => leBytes 4 w.toNat)))
  ∧ (∀ (m : Msg) (q : Req) (f : Fn) (v : W32) (s u : State), Accepted m 2 .engineer q s u →
    q.payload = leBytes 4 (16777216 * fnId f + 0x10) ++ leBytes 4 v.toNat →
    Completes (.write m) s (fun t => (t.hdr f).evmask = v ∧ (t.hdr f).state = (s.hdr f).state
      ∧ (∀ g ≠ f, (t.hdr g).evmask = (s.hdr g).evmask) ∧ t.img = s.img ∧ t.pi = s.pi
      ∧ Replied q .ok u t
      ∧ Raised Ev.MMP_WRITE (portSrc q.port) (w32 (fnId f + 65536 * 4)) s t))
  ∧ (∀ (s : State) (f : Fn) (v : W32) (r : Role), roleAtLeast r .engineer = true →
    Completes (.registerWrite (w32 (16777216 * fnId f + 0xC)) v r) s (fun t =>
      t = s.setHdr f (fun h => { h with evstat := h.evstat &&& ~~~v })))
  ∧ (∀ (s : State) (f : Fn) (v : W32) (r : Role), roleAtLeast r .engineer = false →
    Completes (.registerWrite (w32 (16777216 * fnId f + 0xC)) v r) s (fun t => t = s))
  ∧ (∀ (m : Msg) (q : Req) (f : Fn) (s u : State), Accepted m 3 .engineer q s u → f ≠ .module → f ≠ .pool → f ≠ .peg →
    f ≠ .ring → (s.fnState f = .run ∨ s.fnState f = .drain ∨ s.fnState f = .disabled ∨ s.fnState f = .fault) →
    Completes (.funcReset m (fnId f)) s (fun t => t.fnState f = .reset ∧ Replied q .ok u t
      ∧ (t.hdr f).resets = satInc top32 (s.hdr f).resets
      ∧ Raised Ev.FUNC_RESET_REQ (portSrc q.port) (w32 (fnId f)) s t))

/-- Frames are received into queues, dropped, counted, requested and sent as their rules say. After R486, R489, R490,
R491, R494, R495 of spec/. Where the rules leave a choice or need an inference, the clauses follow the model's own
entries: log 51 (DEDUCED). -/
def Obligations.CanFrames : Prop :=
  (∀ (s : State) (c : Fin 4) (f : CanFrame) (n q : Nat) (bs : List Nat), canFnOn s c = true →
    (canOf s c).state = .active → ((canCfg s c).mode = 2 → f.fdf = false) → bslFromCan s c f = [] →
    filterFrame s c f = some (n, q) → (canQ (canOf s c) q).entries.length < (canCfg s c).qdepth.getD q 64 →
    poolPick s (canFn c) 1 = some bs →
    Completes (.canRxFrame c f) s (fun t => (canQ (canOf t c) q).entries = (canQ (canOf s c) q).entries
      ++ [{ frame := f, byList := listInForce s c, element := n, lostBefore := (canQ (canOf s c) q).lost
            seq := (canQ (canOf s c) q).seq, stamp := w32 ((s.tu.mono - 90) / 25), block := bs.headD 0 }]))
  ∧ (∀ (s : State) (c : Fin 4) (f : CanFrame) (n q : Nat), canFnOn s c = true →
    (canOf s c).state = .active → ((canCfg s c).mode = 2 → f.fdf = false) → bslFromCan s c f = [] →
    filterFrame s c f = some (n, q) → (canCfg s c).qdepth.getD q 64 ≤ (canQ (canOf s c) q).entries.length →
    (canQ (canOf s c) q).lost = false →
    Completes (.canRxFrame c f) s (fun t => (canQ (canOf t c) q).entries = (canQ (canOf s c) q).entries
      ∧ (canOf t c).rxDrop = satInc top32 (canOf s c).rxDrop
      ∧ Raised Ev.CAN_RX_DROPPED (0xC4 + c) (w32 q) s t))
  ∧ (∀ (s : State) (c : Fin 4) (f : CanFrame), canFnOn s c = true →
    (canOf s c).state = .active → ((canCfg s c).mode = 2 → f.fdf = false) → bslFromCan s c f = [] →
    filterFrame s c f = none →
    Completes (.canRxFrame c f) s (fun t => (canOf t c).noMatch = satInc top32 (canOf s c).noMatch
      ∧ (canOf t c).q0 = (canOf s c).q0 ∧ (canOf t c).q1 = (canOf s c).q1))
  ∧ (∀ (s : State) (c : Fin 4) (b : Fin 3) (f : CanFrame), (canCfg s c).mode ≠ 0 → canFnOn s c = true →
    ((canCfg s c).mode = 2 → f.fdf = false) → ((canOf s c).state = .active ∨ (canOf s c).state = .passive) →
    (∀ k < 3, (txb (canOf s c) k).frame = none ∧ (txb (canOf s c) k).next = none ∧ (txb (canOf s c) k).busy = false) →
    Completes (.canTxRequest c b f) s (fun t =>
      txb (canOf t c) b = { txb (canOf s c) b with
        frame := some { f with brs := f.brs && f.fdf && (canCfg s c).brs == 1 }, busy := true, sof := sofStamp s }))
  ∧ (∀ (s : State) (c : Fin 4) (b : Fin 3) (f : CanFrame) (tdc : Option Nat), sending (canOf s c) = some b.val →
    (txb (canOf s c) b).frame = some f → ((canOf s c).state = .active ∨ (canOf s c).state = .passive) →
    Completes (.canTxEnd c true tdc) s (fun t => (canOf t c).sentFrames = f :: (canOf s c).sentFrames
      ∧ (txb (canOf t c) b).sent = ((txb (canOf s c) b).sent + 1) % 65536
      ∧ (txb (canOf t c) b).stamp = (txb (canOf s c) b).sof
      ∧ (txb (canOf t c) b).frame = (txb (canOf s c) b).next ∧ (txb (canOf t c) b).next = none
      ∧ (canOf t c).tec = (canOf s c).tec - 1))
  ∧ (∀ (s : State) (c : Fin 4) (b : Fin 3) (f : CanFrame), sending (canOf s c) = some b.val →
    (txb (canOf s c) b).frame = some f → (canCfg s c).oneshot.getD b 0 = 1 →
    Completes (.canTxEnd c false none) s (fun t => (canOf t c).sentFrames = (canOf s c).sentFrames
      ∧ (txb (canOf t c) b).frame = (txb (canOf s c) b).next
      ∧ Raised Ev.CAN_TX_FAILED (0xC4 + c) (w32 b) s t))

/-- Error counters, bus-off, recovery, integration, test mode and filter edits act as their rules say. After R488, R495,
R500 of spec/. Where the rules leave a choice or need an inference, the clauses follow the model's own entries: log
51 (DEDUCED). -/
def Obligations.CanStates : Prop :=
  (∀ (s : State) (c : Fin 4) (tec rec' : Nat), ((canOf s c).state = .active ∨ (canOf s c).state = .passive) →
    (canOf s c).test = 0 → tec ≤ 255 →
    Completes (.canError c tec rec') s (fun t => (canOf t c).tec = tec ∧ (canOf t c).rec' = min 255 rec'
      ∧ (canOf t c).state = (if 127 < tec ∨ 127 < rec' then .passive else .active)))
  ∧ (∀ (s : State) (c : Fin 4) (tec rec' : Nat), ((canOf s c).state = .active ∨ (canOf s c).state = .passive) →
    255 < tec →
    Completes (.canError c tec rec') s (fun t => (canOf t c).state = .busOff
      ∧ (canOf t c).busOffs = satInc top16 (canOf s c).busOffs
      ∧ Raised Ev.CAN_BUS_OFF (0xC4 + c) (w32 (satInc top16 (canOf s c).busOffs)) s t))
  ∧ (∀ (s : State) (c : Fin 4), (canOf s c).state = .busOff → (canOf s c).test = 0 →
    Completes (.busOffRecovery c) s (fun t => (canOf t c).state = .recovery ∧ (canOf t c).tec = 0
      ∧ (canOf t c).rec' = 0 ∧ (canOf t c).okRun = 0))
  ∧ (∀ (s : State) (c : Fin 4), (canOf s c).state = .recovery → (canOf s c).test = 0 → 128 ≤ (canOf s c).okRun →
    (canOf s c).tec ≤ 127 → (canOf s c).rec' ≤ 127 →
    Completes (.canRecovered c) s (fun t => (canOf t c).state = .active ∧ (canOf t c).okRun = 0
      ∧ Raised Ev.CAN_RECOVERED (0xC4 + c) 0 s t))
  ∧ (∀ (s : State) (c : Fin 4), (canOf s c).state = .off → canFnOn s c = true → (canCfg s c).mode ≠ 0 →
    (canOf s c).test = 0 →
    Completes (.busIntegration c) s (fun t => (canOf t c).state = .active))
  ∧ (∀ (s : State) (c : Fin 4) (v : W32) (r : Role), roleAtLeast r .engineer = true → v.toNat % 4 ≠ 3 → v.toNat % 4 ≠ 0 →
    (canOf s c).state = .active → sending (canOf s c) = none →
    Completes (.canTest c v r) s (fun t => (canOf t c).test = v.toNat % 4 ∧ (canOf t c).state = .test))
  ∧ (∀ (s : State) (c : Fin 4) (n : Fin 32) (v : W32) (r : Role), roleAtLeast r .engineer = true →
    Completes (.canFilterEdited c n v r) s (fun t =>
      (pairOf t c n).w2 = v &&& 7#32
        ∧ ((pairOf t c n).w0, (pairOf t c n).w1) = (match (canOf s c).staged.look n with
            | some w => w | none => ((pairOf s c n).w0, (pairOf s c n).w1))
        ∧ (∀ m : Nat, m ≠ n.val → pairOf t c m = pairOf s c m)
        ∧ Raised Ev.CAN_FILTER_EDITED (0xC4 + c) (w32 n) s t))

/-- Frames, rows, temperature and regions of the panel act as their rules say. After R525, R527, R531, R535, R536, R537
of spec/. Where the rules leave a choice or need an inference, the clauses follow the model's own entries: log 54
(DEDUCED), log 9 (DESIGN CHOICE). -/
def Obligations.PanelDrive : Prop :=
  (∀ s : State, panelDrives s = true → s.panel.scan = .on →
    Completes .panelFrame s (fun t =>
      t.panel.frames = wrap32 (s.panel.frames + 1) ∧ t.panel.prev = s.panel.cur ∧ t.panel.bandNow = s.panel.band
        ∧ t.panel.cur.page = pageNo s ∧ t.panel.cur.sys = (s.panel.sysPage || systemOnly s)
        ∧ t.panel.lastMarked = (s.panel.rows.filter (fun p => p.2.marked)).length
        ∧ (0 < (s.panel.rows.filter (fun p => p.2.marked)).length →
            t.panel.balances = satInc top16 s.panel.balances
              ∧ Raised Ev.PNL_BALANCE 0xCC (w32 (s.panel.rows.filter (fun p => p.2.marked)).length) s t)))
  ∧ (∀ s : State, panelDrives s = true → s.panel.scan = .off → s.mod.warning = false →
    Completes .panelFrame s (fun t => t.panel.scan = .on ∧ t.panel.dark = false
      ∧ t.panel.frames = wrap32 (s.panel.frames + 1)))
  ∧ (∀ (s : State) (r : Nat), s.panel.scan = .on → panelDrives s = true → r < 480 →
    Completes (.rowPeriod r) s (fun t => t.panel.rows.look r = driveRow s r
      ∧ ∀ k, k ≠ r → t.panel.rows.look k = s.panel.rows.look k))
  ∧ (∀ (s : State) (x : Int), panelDrives s = true → -400 ≤ x → x ≤ 1000 →
    Completes (.panelTempRead (some x)) s (fun t => t.panel.temp = x ∧ t.panel.tempValid = true
      ∧ t.panel.tempFault = false ∧ t.panel.band = bandFor s.panel.band x
      ∧ (bandFor s.panel.band x ≠ s.panel.band →
          Raised Ev.PNL_BAND_CHANGED 0xCC (w32 (bandFor s.panel.band x + 65536 * s16 x)) s t)))
  ∧ (∀ s : State, panelDrives s = true → s.panel.tempFault = false →
    Completes (.panelTempRead none) s (fun t => t.panel.temp = s.panel.temp ∧ t.panel.tempValid = false
      ∧ t.panel.tempFault = true ∧ t.panel.band = bandFor s.panel.band (s.mod.temp - 50)
      ∧ Raised Ev.PNL_SENSOR_FAULT 0xCC 0 s t))
  ∧ (∀ (s : State) (r : Nat), s.fnState .panel = .run → s.panel.scan = .on → r < (pageCfg s).regions.length →
    (regOf s r).phase = .idle → s.panel.queue = [] → regBytes s r ≤ backFree s →
    Completes (.regionUpdateRequest r) s (fun t => (regOf t r).phase = .rendering
      ∧ (regOf t r).vals = (nth (pageCfg s).regions r).entries.map (readEntry s)))
  ∧ (∀ (s : State) (r : Nat), s.fnState .panel = .run → s.panel.scan = .on → r < (pageCfg s).regions.length →
    (regOf s r).phase = .idle → backFree s < regBytes s r →
    Completes (.regionUpdateRequest r) s (fun t => (regOf t r).phase = .waiting
      ∧ t.panel.queue = s.panel.queue ++ [r] ∧ t.panel.waitCount = satInc top32 s.panel.waitCount))
  ∧ (∀ (s : State) (r : Nat), (regOf s r).phase = .rendering →
    Completes (.renderComplete r) s (fun t => (regOf t r).phase = .rendered ∧ (regOf t r).doneAt = s.now
      ∧ (regOf t r).vals = (regOf s r).vals))
  ∧ (∀ s : State, s.panel.scan = .discharging →
    Completes .dischargeEnd s (fun t => t = { s with panel := { s.panel with scan := .off } }))

/-- Keys, the key switch, taking, releasing and local commands act as their rules say. After R540, R544, R545, R546,
R547 of spec/. Where the rules leave a choice or need an inference, the clauses follow the model's own entries: log
55 (DEDUCED). -/
def Obligations.LocalControl : Prop :=
  (∀ (s : State) (k : Fin 6) (n : Nat), pageKeys s = true → nth (pageCfg s).keys k = .page n →
    n < s.img.panel.pages.length →
    Completes (.functionKey k) s (fun t => t.panel.page = some n ∧ t.panel.sel = none ∧ pageNo t = n))
  ∧ (∀ (s : State) (k : Fin 6) (p : LocalPt), pageKeys s = true → nth (pageCfg s).keys k = .select p →
    Completes (.functionKey k) s (fun t => t = { s with panel := { s.panel with sel := some p } }))
  ∧ (∀ s : State, panelDrives s = true →
    Completes .f6Held s (fun t => t = { s with panel := { s.panel with sysPage := !s.panel.sysPage } }))
  ∧ (∀ s : State, s.mod.domains.getLsbD 11 = true → s.panel.keyOn = false →
    Completes (.pnlKeyswitch true) s (fun t => t.panel.keyOn = true ∧ t.panel.keyFault = false
      ∧ t.panel.locals = s.panel.locals ∧ Raised Ev.PNL_KEYSWITCH 0xCC 1 s t))
  ∧ (∀ s : State, s.mod.domains.getLsbD 11 = true → s.panel.keyOn = true →
    Completes (.pnlKeyswitch false) s (fun t => t.panel.keyOn = false ∧ t.panel.locals = []
      ∧ Raised Ev.PNL_KEYSWITCH 0xCC 0 s t
      ∧ ∀ p ∈ s.panel.locals, Raised Ev.PNL_LOCAL_RELEASED 0xCC (w32 (p.kind + 4 * p.index + 16777216)) s t))
  ∧ (∀ s : State, s.mod.domains.getLsbD 11 = true → s.panel.keyFault = false →
    Completes .pnlKeyswitchFault s (fun t => t.panel.keyOn = false ∧ t.panel.keyFault = true
      ∧ (s.panel.keyOn = true → t.panel.locals = []) ∧ Raised Ev.PNL_KEYSWITCH_FAULT 0xCC 0 s t))
  ∧ (∀ (s : State) (kind : Fin 3) (i : Nat), s.fnState .panel = .run →
    takeCode s { kind := kind, index := i } = 0 → { kind := kind, index := i } ∉ s.panel.locals →
    Completes (.take kind i) s (fun t => t.panel.locals = s.panel.locals ++ [{ kind := kind, index := i }]
      ∧ t.panel.locRes = 0 ∧ Raised Ev.PNL_LOCAL_TAKEN 0xCC (w32 (kind + 4 * i)) s t))
  ∧ (∀ (s : State) (kind : Fin 3) (i : Nat), s.fnState .panel = .run → takeCode s { kind := kind, index := i } ≠ 0 →
    Completes (.take kind i) s (fun t =>
      t = { s with panel := { s.panel with locRes := takeCode s { kind := kind, index := i } } }))
  ∧ (∀ (s : State) (kind : Fin 4) (i : Nat), s.fnState .panel = .run → kind ≠ 3 →
    { kind := kind, index := i } ∈ s.panel.locals →
    Completes (.localRelease kind i) s (fun t =>
      t.panel.locals = s.panel.locals.filter (fun q => q != { kind := kind, index := i })
        ∧ Raised Ev.PNL_LOCAL_RELEASED 0xCC (w32 (kind + 4 * i)) s t))
  ∧ (∀ (s : State) (i : Nat), s.fnState .panel = .run →
    Completes (.localRelease 3 i) s (fun t => t.panel.locals = []))
  ∧ (∀ (s : State) (g p i : Nat) (k : LocalCfg), s.fnState .panel = .run →
    { kind := 2, index := i } ∈ s.panel.locals → localCfg s { kind := 2, index := i } = some k →
    (s.lay i).ref = .doOut g p →
    Completes (.pnlLocalCmd 2 i .on) s (fun t => piRaw t i = { val := 1, q := qGood }
      ∧ Raised Ev.PNL_LOCAL_CMD 0xCC (w32 (2 + 4 * i + 16777216 * (Config.localCmdCode .on).toNat)) s t))
  ∧ (∀ (s : State) (p : LocalPt) (c : LocalCmd) (plus : Bool), pageKeys s = true → s.panel.sel = some p →
    s.panel.lastStep = some c → stepDir c = some plus →
    Completes (.keyRepeat plus) s (fun t => t = localCmd p c s))

/-- Events are staged, folded, lost, committed and cleared as their rules say. After R553, R554, R559, R560, R561, R566
of spec/. Where the rules leave a choice or need an inference, the clauses follow the model's own entries: log 56
(DEDUCED). -/
def Obligations.EventRecords : Prop :=
  (∀ (s : State) (e : Event) (r : List Event), s.recd.inbox = e :: r → pastWindow s e = false →
    e.code / 4096 = 5 → s.recd.staging.length < 512 →
    Completes .recordEvent s (fun t => t.recd.inbox = r
      ∧ t.recd.staging = s.recd.staging ++ [{ ev := e, lostBefore := s.recd.lostEpisode != 0, lostN := s.recd.lostEpisode }]
      ∧ t.recd.lostEpisode = 0 ∧ t.recd.ring = s.recd.ring ∧ t.recd.lost = s.recd.lost))
  ∧ (∀ (s : State) (e : Event) (r : List Event) (l : List Rec) (k : Rec), s.recd.inbox = e :: r → pastWindow s e = false →
    s.recd.staging = l ++ [k] → s.recd.clearWaits = none → e.code = k.ev.code → e.source = k.ev.source →
    e.data = k.ev.data → e.code / 4096 ≠ 5 → k.rep < 65535 → k.lostBefore = false →
    e.mono ≤ k.ev.mono + 1000 * repeatWindow s →
    Completes .recordEvent s (fun t => t.recd.inbox = r
      ∧ t.recd.staging = l ++ [{ k with rep := k.rep + 1, lastOff := min 65535 ((e.mono - k.ev.mono) / 1000) }]))
  ∧ (∀ (s : State) (e : Event) (r : List Event), s.recd.inbox = e :: r → pastWindow s e = false →
    e.code / 4096 = 5 → 512 ≤ s.recd.staging.length →
    Completes .recordEvent s (fun t => t.recd.inbox = r ∧ t.recd.staging = s.recd.staging
      ∧ t.recd.lost = satInc top32 s.recd.lost ∧ t.recd.lostEpisode = s.recd.lostEpisode + 1))
  ∧ (∀ (s : State) (r : Rec), recorderCommits s = true → s.recd.clearWaits = none → s.recd.staging = [r] →
    r.lostBefore = false → r.ev.code / 4096 ≠ 5 →
    Completes .stagingCommit s (fun t => t.recd.staging = []
      ∧ t.recd.ring = ({ r with seq := s.recd.next } :: s.recd.ring).take 90048
      ∧ t.recd.next = wrap32 (s.recd.next + 1) ∧ t.recd.auditRing = s.recd.auditRing))
  ∧ (∀ (s : State) (r : Rec), recorderCommits s = true → s.recd.clearWaits = none → s.recd.staging = [r] →
    r.lostBefore = false → r.ev.code / 4096 = 5 → s.recd.auditRing.length < 8192 →
    Completes .stagingCommit s (fun t => t.recd.staging = []
      ∧ t.recd.ring = ({ r with seq := s.recd.next } :: s.recd.ring).take 90048
      ∧ t.recd.auditRing = { r with seq := s.recd.auditNext, audit := true } :: s.recd.auditRing
      ∧ t.recd.auditNext = wrap32 (s.recd.auditNext + 1)))
  ∧ (∀ (s : State) (r : Role), roleAtLeast r .commission = true →
    Completes (.recClear 0xC1EA0001#32 r) s (fun t =>
      t = { s with recd := { s.recd with clearWaits := some (.role r), clearAfter := s.recd.staging.length } }))
  ∧ (∀ (s : State) (o : Origin), recorderCommits s = true → s.recd.clearWaits = some o → s.recd.staging = [] →
    Completes .stagingCommit s (fun t => t.recd.clearWaits = none ∧ t.recd.oldest = s.recd.next
      ∧ t.recd.next = wrap32 (s.recd.next + 1)
      ∧ ∃ r : Rec, t.recd.ring.head? = some r ∧ r.seq = s.recd.next ∧ r.ev.code = Ev.REC_CLEARED.code ∧ r.ev.origin = o
          ∧ r.ev.data = w32 (seqDiff s.recd.next s.recd.oldest)))

/-- RECWIN returns records and moves the cursor, and RECCURSOR sets it. After R563, R564, R565 of spec/. Where the rules
leave a choice or need an inference, the clauses follow the model's own entries: log 56 and 12 (DEDUCED). -/
def Obligations.RecorderReading : Prop :=
  (∀ (m : Msg) (q : Req) (s u : State) (region count : Nat), Accepted m 8 .observe q s u → 2 ≤ q.payload.length →
    leAt q.payload 0 1 = region → leAt q.payload 1 1 = count → region ≤ 1 → 1 ≤ count → count ≤ 16 →
    (recVisible s region (cursorOf s q region) = true ∨ cursorOf s q region = (regionOf s region).2.1) →
    Completes (.recwin m []) s (fun t =>
      cursorOf t q region
          = wrap32 (cursorOf s q region + min count (seqDiff (regionOf s region).2.1 (cursorOf s q region)))
        ∧ ∃ a : Reply, t.mmp.replies = a :: u.mmp.replies ∧ a.status = .ok ∧ a.seq = q.seq
            ∧ a.body.drop 12 = (List.range (min count (seqDiff (regionOf s region).2.1 (cursorOf s q region)))).flatMap
                (fun i => match recAt s region (wrap32 (cursorOf s q region + i)) with | some r => recBytes r | none => [])))
  ∧ (∀ (m : Msg) (bad : List Nat) (q : Req) (s u : State), Accepted m 8 .observe q s u →
    (q.payload.length < 2 ∨ 1 < leAt q.payload 0 1 ∨ leAt q.payload 1 1 < 1 ∨ 16 < leAt q.payload 1 1) →
    Completes (.recwin m bad) s (fun t => Replied q .format u t ∧ t.recd.ring = s.recd.ring))
  ∧ (∀ (m : Msg) (q : Req) (s u : State) (region : Nat), Accepted m 9 .observe q s u → 8 ≤ q.payload.length →
    leAt q.payload 0 1 = region → region ≤ 1 → leAt q.payload 1 1 = 1 →
    Completes (.reccursor m) s (fun t => cursorOf t q region = (regionOf s region).2.2 ∧ Replied q .ok u t))
  ∧ (∀ (m : Msg) (q : Req) (s u : State) (region : Nat), Accepted m 9 .observe q s u → 8 ≤ q.payload.length →
    leAt q.payload 0 1 = region → region ≤ 1 → leAt q.payload 1 1 = 2 →
    Completes (.reccursor m) s (fun t => cursorOf t q region = (regionOf s region).2.1 ∧ Replied q .ok u t))
  ∧ (∀ (m : Msg) (q : Req) (s u : State) (region : Nat), Accepted m 9 .observe q s u → 8 ≤ q.payload.length →
    leAt q.payload 0 1 = region → region ≤ 1 → leAt q.payload 1 1 = 0 → recVisible s region (leAt q.payload 4 4) = true →
    Completes (.reccursor m) s (fun t => cursorOf t q region = leAt q.payload 4 4 ∧ Replied q .ok u t))
  ∧ (∀ (m : Msg) (q : Req) (s u : State) (region : Nat), Accepted m 9 .observe q s u → 8 ≤ q.payload.length →
    leAt q.payload 0 1 = region → region ≤ 1 → leAt q.payload 1 1 = 0 →
    recVisible s region (leAt q.payload 4 4) = false → leAt q.payload 4 4 ≠ (regionOf s region).2.1 →
    Completes (.reccursor m) s (fun t => t.recd.cursors = s.recd.cursors ∧ Replied q .access u t))

/-- A step runs the command at the front of the queue, and on an empty queue one CK5 cycle passes. After R193,
95_what_each_step_holds.md of spec/. Where the rules leave a choice or need an inference, the clauses follow the
model's own entries: log 4 and 5 (DESIGN CHOICE). -/
def Obligations.StepTakesFront : Prop :=
  (∀ (c : Instr) (r : List Instr) (s : State), s.pending = c :: r → step s = exec c { s with pending := r })
  ∧ (∀ s : State, s.pending = [] → step s = .next (clockCycle s))

/-- What the reset state reads: the values the maps give, and the invariants hold. After R7, R19, R28, R60, R99, R101,
R222, R258, R290, R317, R350, R437 of spec/. Where the rules leave a choice or need an inference, the clauses follow
the model's own entries: log 3 (DESIGN CHOICE). -/
def Obligations.ResetState : Prop :=
  (∀ f : Fn, objWord State.reset f 0 4 = some 0x302 ∧ objWord State.reset f 0 8 = some 0 ∧ objWord State.reset f 0 0xC = some 0
    ∧ objWord State.reset f 0 0x10 = some 0 ∧ objWord State.reset f 0 0x14 = some 0 ∧ objWord State.reset f 0 0x18 = some 0
    ∧ objWord State.reset f 1 4 = some 0)
  ∧ objWord State.reset .module 2 0 = some 3
  ∧ fieldAt State.reset .peg 3 0 0 3 = some 0 ∧ fieldAt State.reset .peg 3 0 4 2 = some 3
  ∧ objWord State.reset .peg 3 4 = some 0 ∧ objWord State.reset .peg 3 0x14 = some 0
  ∧ objWord State.reset .module 3 0 = some 0 ∧ objWord State.reset .module 3 4 = some 0
  ∧ fieldAt State.reset (.bank 0) 2 0 0 5 = some 0 ∧ fieldAt State.reset (.bank 0) 2 0 8 6 = some 0
  ∧ fieldAt State.reset (.bank 0) 2 0 16 6 = some 0xB ∧ fieldAt State.reset (.bank 0) 2 0 22 2 = some 0
  ∧ objWord State.reset (.bank 0) 2 4 = some 0 ∧ objWord State.reset (.bank 0) 5 0 = some 0
  ∧ objWord State.reset (.bank 0) 5 8 = some 0 ∧ objWord State.reset (.bank 0) 6 0x104 = some 0
  ∧ objWord State.reset (.group 0) 2 4 = some 0 ∧ objWord State.reset (.bank 0) 0xB 0 = some 0
  ∧ fieldAt State.reset .time 2 8 0 3 = some 0 ∧ fieldAt State.reset .time 2 8 4 2 = some 0
  ∧ objWord State.reset .time 2 0xC = some 0 ∧ objWord State.reset .time 2 0x14 = some 0
  ∧ objWord State.reset .time 4 0 = some 0 ∧ objWord State.reset .time 5 0xC = some 0
  ∧ objWord State.reset .alarm 2 0 = some 0 ∧ objWord State.reset .alarm 6 0 = some 0
  ∧ fieldAt State.reset .alarm 6 0x18 0 4 = some 0xF
  ∧ objWord State.reset .logic 2 4 = some 0 ∧ objWord State.reset .logic 5 4 = some 0
  ∧ objWord State.reset .loop 2 0xC = some 0 ∧ fieldAt State.reset .loop 6 0 12 4 = some 7
  ∧ objWord State.reset .loop 6 0x10 = some 0xFF800000 ∧ objWord State.reset .loop 6 0x14 = some 0x7F800000
  ∧ fieldAt State.reset .loop 6 0x1C 0 17 = some 0x10000
  ∧ fieldAt State.reset (.axis 0) 2 0 0 4 = some 0 ∧ objWord State.reset (.axis 0) 2 0x2C = some 0
  ∧ objWord State.reset (.axis 0) 3 4 = some 0
  ∧ objWord State.reset .pool 2 0x34 = some 0 ∧ objWord State.reset (.can 0) 2 8 = some 0
  ∧ objWord State.reset .panel 2 8 = some 0 ∧ fieldAt State.reset .panel 2 0 10 1 = some 0
  ∧ State.reset.pending = [] ∧ Memory.wf State.reset.peg.mem ∧ LedgersInRange State.reset ∧ RecordsInBounds State.reset

/-- Every command of the table answers a next state and leaves the queue to step. After 95_what_each_step_holds.md of
spec/. Where the rules leave a choice or need an inference, the clauses follow the model's own entries: log 10
(DESIGN CHOICE). -/
def Obligations.EveryCommandAnswers : Prop :=
  ∀ (c : Instr) (s : State), ∃ t, exec c s = .next t ∧ t.pending = s.pending

/-- Every step keeps the peg's memory canonical. After R33, R49 of spec/. Where the rules leave a choice or need an
inference, the clauses follow the model's own entries: log 8 (DESIGN CHOICE). -/
def Obligations.PegMemoryCanonical : Prop :=
  ∀ s t : State, Memory.wf s.peg.mem → step s = .next t → Memory.wf t.peg.mem

/-- No step takes back or alters a one-time slot. After R62, R66, R68 of spec/. Where the rules leave a choice or need
an inference, the clauses follow the model's own entries: log 24 (DEDUCED). -/
def Obligations.OneTimeSlotsKept : Prop :=
  ∀ s t : State, step s = .next t → ∀ k, ∃ l, t.otp.items.look k = s.otp.items.look k ++ l

/-- Every step keeps every subpixel's ledger within -7 and +7. After R527 of spec/. Where the rules leave a choice or
need an inference, the clauses follow the model's own entries: log 54 (DEDUCED). -/
def Obligations.LedgersKept : Prop :=
  ∀ s t : State, LedgersInRange s → step s = .next t → LedgersInRange t

/-- Every step keeps the recorder's FIFO and regions within their sizes. After R553, R554, R560 of spec/. Where the
rules leave a choice or need an inference, the clauses follow the model's own entries: log 56 (DEDUCED). -/
def Obligations.RecordsKept : Prop :=
  ∀ s t : State, RecordsInBounds s → step s = .next t → RecordsInBounds t

/-- The frame: a command changes no part of the state but those named for it. After R14, R15, 95_what_each_step_holds.md
of spec/. Where the rules leave a choice or need an inference, the clauses follow the model's own entries: log 2
(DESIGN CHOICE). -/
def Obligations.Frames : Prop :=
  ∀ (c : Instr) (s t : State) (p : Part), exec c s = .next t → p ∉ touches c → p.same s t

/-- Commands of one channel, point, axis or controller leave every other one unchanged. After 95_what_each_step_holds.md
of spec/. Where the rules leave a choice or need an inference, the clauses follow the model's own entries: log 2
(DESIGN CHOICE). -/
def Obligations.OtherInstances : Prop :=
  ∀ (c : Instr) (s t : State), exec c s = .next t →
    (∀ k, channelOf c = some k → ∀ j, j ≠ k → t.chs.look j = s.chs.look j)
    ∧ (∀ k, pointOf c = some k → ∀ j, j ≠ k → t.points.look j = s.points.look j)
    ∧ (∀ k, axisOf c = some k → ∀ j, j ≠ k → t.axes.look j = s.axes.look j)
    ∧ (∀ k, controllerOf c = some k → ∀ j, j ≠ k → t.can.look j = s.can.look j)

/-- A write of FN_CTRL is refused exactly in the cases the rule names. After R20 of spec/. -/
def Obligations.ControlWriteRefusals : Prop :=
  ∀ (s : State) (f : Fn) (v : W32) (r : Role),
    let x := writeWord (16777216 * fnId f + 8) v r s
    x.1 = (if roleAtLeast r .engineer = false then .role
      else if v ≠ 0xA5A50001#32 ∧ v ≠ 0xA5A50002#32 ∧ v ≠ 0xA5A50003#32 then .access
      else if f = .module then .access
      else if v = 0xA5A50002#32 ∧ f = .bedrock then .access
      else if v = 0xA5A50003#32 ∧ s.fnState f = .drain then .access
      else .ok)
    ∧ (x.1 ≠ .ok → Completes (.registerWrite (w32 (16777216 * fnId f + 8)) v r) s (fun t => t = s))

/-- A row period chooses each polarity from the ledger, adds the drive and saturates. After R527, R528 of spec/. -/
def Obligations.LedgerAndPolarity : Prop :=
  ∀ (s : State) (r : Nat), s.panel.scan = .on → panelDrives s = true → r < 480 →
    let old := s.panel.rows.look r
    let code := fun c : Nat =>
      amplitude s.panel.bandNow (frameLevel s.panel.prev (c / 3) r (c % 3)) (frameLevel s.panel.cur (c / 3) r (c % 3))
    let weight := fun c : Nat => if code c ≤ 21 then (1 : Int) else if code c ≤ 42 then 2 else 3
    let pdef := fun c : Nat => if (s.panel.frames + r + c) % 2 = 0 then (1 : Int) else -1
    let pol := fun c : Nat =>
      if old.marked then (if old.cells.look c = 0 then pdef c else -(old.cells.look c).sign)
      else if 4 ≤ (old.cells.look c).natAbs then -(old.cells.look c).sign else pdef c
    let sum := fun c : Nat => old.cells.look c + pol c * weight c
    Completes (.rowPeriod r) s (fun t =>
      (∀ c < 2400, (t.panel.rows.look r).cells.look c = if sum c < -7 then -7 else if 7 < sum c then 7 else sum c)
        ∧ ((t.panel.rows.look r).marked = true ↔ ∃ c < 2400, sum c < -7 ∨ 7 < sum c))

/-- A group with no discrepancy action votes by its kind. After R407, R408 of spec/. Where the rules leave a choice or
need an inference, the clauses follow the model's own entries: log 44 (DEDUCED). -/
def Obligations.GroupVotes : Prop :=
  ∀ (s : State) (g : Nat),
    let r := vgRow s g
    let x := vgOf s g
    let d := fun i : Nat => (vcOf x i).demand
    let t := evalGroup g s
    r.discAct = 0 →
    (∀ c l, r.chs = c :: l → (r.kind = 1 ∨ r.kind = 5) → (vgOf t g).demand = d 0
      ∧ (r.kind = 5 → (vgOf t g).val = (chanQv s c).val))
    ∧ ((r.kind = 2 ∨ r.kind = 6) → (vgOf t g).demand = (d 0 || d 1))
    ∧ (∀ a b l, r.chs = a :: b :: l → r.kind = 6 → x.c0.valid = true → x.c1.valid = true →
        (vgOf t g).val = if r.low then F32.min (chanQv s a).val (chanQv s b).val else F32.max (chanQv s a).val (chanQv s b).val)
    ∧ (r.kind = 3 → (vgOf t g).demand = (d 0 && d 1))
    ∧ (r.kind = 4 → (vgOf t g).demand = (d 0 && d 1 || d 0 && d 2 || d 1 && d 2))
    ∧ (∀ a b c l, r.chs = a :: b :: c :: l → r.kind = 7 → x.c0.valid = true → x.c1.valid = true → x.c2.valid = true →
        let m := median3 (chanQv s a).val (chanQv s b).val (chanQv s c).val
        (vgOf t g).demand = analogDemand r x.median m ∧ (vgOf t g).val = m)
    ∧ (∀ a b c l, r.chs = a :: b :: c :: l → r.kind = 7 → x.c0.valid = true → x.c1.valid = true → x.c2.valid = false →
        (vgOf t g).demand = (x.c0.hyst || x.c1.hyst)
          ∧ (vgOf t g).val = if r.low then F32.min (chanQv s a).val (chanQv s b).val else F32.max (chanQv s a).val (chanQv s b).val)
    ∧ (r.kind = 7 → x.c0.valid = false → x.c1.valid = false →
        (vgOf t g).demand = true ∧ (vgOf t g).val = x.val)
end

