-- ==== Sys2Proof/Laws/Table.lean ====
section
/-! SUPPORT. Laws of the sparse tables: what a read after a write gives, the canonical form, and the loops over a
list. -/

namespace Sys2Proof

variable {α : Type} [Inhabited α] [DecidableEq α]

omit [DecidableEq α] in
@[simp] theorem Tab.look_drop_self (t : Tab α) (k : Nat) : (Tab.drop t k).look k = default := by
  induction t with
  | nil => rfl
  | cons p r ih =>
    obtain ⟨j, v⟩ := p
    by_cases h : j = k <;> simp [Tab.drop, Tab.look, h, ih]

omit [DecidableEq α] in
@[simp] theorem Tab.look_drop_of_ne (t : Tab α) {k j : Nat} (h : j ≠ k) : (Tab.drop t k).look j = t.look j := by
  induction t with
  | nil => rfl
  | cons p r ih =>
    obtain ⟨i, v⟩ := p
    by_cases hi : i = k
    · have hk : ¬ k = j := Ne.symm h
      simp [Tab.drop, Tab.look, hi, ih, hk]
    · rw [Tab.drop, if_neg hi]
      simp [Tab.look, ih]

omit [DecidableEq α] in
@[simp] theorem Tab.look_ins_self (t : Tab α) (k : Nat) (v : α) : (Tab.ins t k v).look k = v := by
  induction t with
  | nil => simp [Tab.ins, Tab.look]
  | cons p r ih =>
    obtain ⟨j, w⟩ := p
    unfold Tab.ins
    split
    · simp [Tab.look]
    · split
      · simp [Tab.look]
      · rename_i h1 h2
        have hk : ¬ j = k := Ne.symm h2
        simp [Tab.look, hk, ih]

omit [DecidableEq α] in
@[simp] theorem Tab.look_ins_of_ne (t : Tab α) {k j : Nat} (v : α) (h : j ≠ k) :
    (Tab.ins t k v).look j = t.look j := by
  induction t with
  | nil =>
    have hk : ¬ k = j := Ne.symm h
    simp [Tab.ins, Tab.look, hk]
  | cons p r ih =>
    obtain ⟨i, w⟩ := p
    unfold Tab.ins
    have hk : ¬ k = j := fun e => h e.symm
    split
    · simp [Tab.look, hk]
    · split
      · rename_i h2
        have hi : ¬ i = j := h2 ▸ hk
        simp [Tab.look, hk, hi]
      · by_cases hj : i = j <;> simp [Tab.look, hj, ih]

/-- A read after a write to the same index gives the value written. -/
@[simp] theorem Tab.look_put_self (t : Tab α) (k : Nat) (v : α) : (t.put k v).look k = v := by
  unfold Tab.put
  split
  · rename_i h
    simp [h]
  · simp

/-- A write leaves every other index as it was. -/
@[simp] theorem Tab.look_put_of_ne (t : Tab α) {k j : Nat} (v : α) (h : j ≠ k) : (t.put k v).look j = t.look j := by
  unfold Tab.put
  split <;> simp [h]

@[simp] theorem Tab.look_upd_self (t : Tab α) (k : Nat) (f : α → α) : (t.upd k f).look k = f (t.look k) := by
  simp [Tab.upd]

@[simp] theorem Tab.look_upd_of_ne (t : Tab α) {k j : Nat} (f : α → α) (h : j ≠ k) :
    (t.upd k f).look j = t.look j := by
  simp [Tab.upd, h]

/-- A read after a write, by cases on the index. -/
theorem Tab.look_upd (t : Tab α) (k j : Nat) (f : α → α) :
    (t.upd k f).look j = if j = k then f (t.look k) else t.look j := by
  by_cases h : j = k <;> simp [h]

omit [DecidableEq α] in
@[simp] theorem Tab.look_nil (k : Nat) : Tab.look ([] : Tab α) k = default := rfl

/-! ### The canonical form -/

omit [Inhabited α] [DecidableEq α] in
theorem Tab.keys_drop (t : Tab α) (k : Nat) : (Tab.drop t k).map (·.1) = (t.map (·.1)).filter (· ≠ k) := by
  induction t with
  | nil => rfl
  | cons p r ih =>
    obtain ⟨j, v⟩ := p
    by_cases h : j = k
    · simp only [Tab.drop, if_pos h, ih, List.map_cons]
      simp [h]
    · simp only [Tab.drop, if_neg h, List.map_cons, ih]
      simp [h]

omit [Inhabited α] [DecidableEq α] in
theorem Tab.mem_drop {t : Tab α} {k : Nat} {p : Nat × α} (h : p ∈ Tab.drop t k) : p ∈ t := by
  induction t with
  | nil => simp [Tab.drop] at h
  | cons q r ih =>
    obtain ⟨j, v⟩ := q
    unfold Tab.drop at h
    split at h
    · exact List.mem_cons_of_mem _ (ih h)
    · rcases List.mem_cons.1 h with rfl | h
      · exact List.mem_cons_self
      · exact List.mem_cons_of_mem _ (ih h)

omit [Inhabited α] [DecidableEq α] in
theorem Tab.mem_ins {t : Tab α} {k : Nat} {v : α} {p : Nat × α} (h : p ∈ Tab.ins t k v) : p = (k, v) ∨ p ∈ t := by
  induction t with
  | nil => simpa [Tab.ins] using h
  | cons q r ih =>
    obtain ⟨j, w⟩ := q
    unfold Tab.ins at h
    split at h
    · simpa using h
    · split at h
      · rcases List.mem_cons.1 h with rfl | h
        · exact .inl rfl
        · exact .inr (List.mem_cons_of_mem _ h)
      · rcases List.mem_cons.1 h with rfl | h
        · exact .inr List.mem_cons_self
        · rcases ih h with e | h
          · exact .inl e
          · exact .inr (List.mem_cons_of_mem _ h)

omit [Inhabited α] [DecidableEq α] in
theorem Tab.ins_rising {t : Tab α} (k : Nat) (v : α) (h : (t.map (·.1)).Pairwise (· < ·)) :
    ((Tab.ins t k v).map (·.1)).Pairwise (· < ·) := by
  induction t with
  | nil => simp [Tab.ins]
  | cons q r ih =>
    obtain ⟨j, w⟩ := q
    have hr := List.pairwise_cons.1 h
    unfold Tab.ins
    split
    · rename_i hk
      refine List.pairwise_cons.2 ⟨fun x hx => ?_, h⟩
      rcases List.mem_cons.1 hx with rfl | hx
      · exact hk
      · exact lt_trans hk (hr.1 x hx)
    · split
      · rename_i hk
        exact List.pairwise_cons.2 ⟨fun x hx => hk ▸ hr.1 x hx, hr.2⟩
      · rename_i h1 h2
        refine List.pairwise_cons.2 ⟨fun x hx => ?_, ih hr.2⟩
        obtain ⟨p, hp, rfl⟩ := List.mem_map.1 hx
        rcases Tab.mem_ins hp with rfl | hp
        · exact lt_of_le_of_ne (not_lt.1 h1) fun e => h2 e.symm
        · exact hr.1 _ (List.mem_map_of_mem hp)

/-- A write keeps the canonical form. -/
theorem Tab.wf_put {t : Tab α} (k : Nat) (v : α) (h : t.wf = true) : (t.put k v).wf = true := by
  simp only [Tab.wf, Bool.and_eq_true, decide_eq_true_eq, List.all_eq_true] at h ⊢
  unfold Tab.put
  split
  · refine ⟨?_, fun p hp => h.2 p (Tab.mem_drop hp)⟩
    rw [Tab.keys_drop]
    exact h.1.filter _
  · rename_i hv
    refine ⟨Tab.ins_rising k v h.1, fun p hp => ?_⟩
    rcases Tab.mem_ins hp with rfl | hp
    · exact hv
    · exact h.2 p hp

/-! ### Loops -/

@[simp] theorem forAll_nil {β σ : Type} (f : β → σ → σ) (s : σ) : forAll [] f s = s := rfl
@[simp] theorem forAll_cons {β σ : Type} (a : β) (l : List β) (f : β → σ → σ) (s : σ) :
    forAll (a :: l) f s = forAll l f (f a s) := rfl

/-- What every round of a loop keeps, the loop keeps. -/
theorem forAll_keeps {β σ γ : Type} (p : σ → γ) {l : List β} {f : β → σ → σ} (h : ∀ a t, p (f a t) = p t) (s : σ) :
    p (forAll l f s) = p s := by
  induction l generalizing s with
  | nil => rfl
  | cons a r ih => rw [forAll_cons, ih, h]

/-- What every round of a counted loop keeps, the loop keeps. -/
theorem forRange_keeps {σ γ : Type} (p : σ → γ) {n : Nat} {f : Nat → σ → σ} (h : ∀ a t, p (f a t) = p t) (s : σ) :
    p (forRange n f s) = p s := forAll_keeps p h s

/-- An invariant that every round of a loop keeps holds after the loop. -/
theorem forAll_invariant {β σ : Type} {P : σ → Prop} {l : List β} {f : β → σ → σ} (h : ∀ a t, P t → P (f a t)) {s : σ}
    (hs : P s) : P (forAll l f s) := by
  induction l generalizing s with
  | nil => exact hs
  | cons a r ih => exact ih (h a s hs)

end Sys2Proof
end

