-- ==== Sys2Proof/Laws/View.lean ====
section
/-! SUPPORT. The view of a state with parts left out, in which every frame law is said.

`view m s` holds every part of `s` but those of the set `m`; a law `view m (f s) = view m s` says that `f` changes
nothing outside `m`. A part has one bit of a number, and a set of parts is their disjunction. -/

namespace Sys2Proof.Laws

open Sys2Proof.Machine

/-! ### The parts of the state -/

/-- The queue. -/
abbrev P.pending : Nat := 0x1
/-- The module function. -/
abbrev P.mod : Nat := 0x2
/-- The function headers but FN_EVSTAT. -/
abbrev P.hdrs : Nat := 0x4
/-- FN_EVSTAT of every function. -/
abbrev P.evstat : Nat := 0x8
/-- The configuration in use. -/
abbrev P.img : Nat := 0x10
/-- The sections in use. -/
abbrev P.sections : Nat := 0x20
/-- The identity of the image. -/
abbrev P.imgId : Nat := 0x40
/-- The bytes of the peg. -/
abbrev P.pegMem : Nat := 0x80
/-- The peg interface but the bytes of the peg. -/
abbrev P.pegRest : Nat := 0x100
/-- The one-time slots. -/
abbrev P.otp : Nat := 0x200
/-- The banks. -/
abbrev P.banks : Nat := 0x400
/-- The channels. -/
abbrev P.chs : Nat := 0x800
/-- The digital groups. -/
abbrev P.groups : Nat := 0x1000
/-- The digital points. -/
abbrev P.points : Nat := 0x2000
/-- The module output current. -/
abbrev P.outCurrent : Nat := 0x4000
/-- The time unit. -/
abbrev P.tu : Nat := 0x8000
/-- The alarm engine. -/
abbrev P.alarm : Nat := 0x10000
/-- The logic engine. -/
abbrev P.logic : Nat := 0x20000
/-- The divergence state. -/
abbrev P.div : Nat := 0x40000
/-- The selector of the divergence objects. -/
abbrev P.divSel : Nat := 0x80000
/-- The comparators. -/
abbrev P.trx : Nat := 0x100000
/-- The loop engine. -/
abbrev P.loops : Nat := 0x200000
/-- The axes. -/
abbrev P.axes : Nat := 0x400000
/-- Bedrock. -/
abbrev P.bedrock : Nat := 0x800000
/-- The pool and the arbiter. -/
abbrev P.pool : Nat := 0x1000000
/-- The events that wait for notification. -/
abbrev P.notifyQ : Nat := 0x2000000
/-- The MMP endpoint and the ring but the events that wait. -/
abbrev P.mmpRest : Nat := 0x4000000
/-- The CAN controllers. -/
abbrev P.can : Nat := 0x8000000
/-- The pair logic. -/
abbrev P.pair : Nat := 0x10000000
/-- The panel. -/
abbrev P.panel : Nat := 0x20000000
/-- The events on their way to the recorder. -/
abbrev P.inbox : Nat := 0x40000000
/-- The recorder but its inbox. -/
abbrev P.recRest : Nat := 0x80000000
/-- The checkpoint. -/
abbrev P.ckpt : Nat := 0x100000000
/-- The process image. -/
abbrev P.pi : Nat := 0x200000000
/-- The events offered to tasks. -/
abbrev P.taskInbox : Nat := 0x400000000
/-- The counter of free values. -/
abbrev P.freeCount : Nat := 0x800000000

/-- What a raised event touches: FN_EVSTAT, and the three places that the fabric delivers to (01 R15, R19). -/
abbrev P.event : Nat := P.evstat ||| P.notifyQ ||| P.inbox ||| P.taskInbox
/-- The function headers. -/
abbrev P.fns : Nat := P.hdrs ||| P.evstat
/-- The recorder. -/
abbrev P.recd : Nat := P.inbox ||| P.recRest
/-- The MMP endpoint and the ring. -/
abbrev P.mmp : Nat := P.notifyQ ||| P.mmpRest
/-- The peg and its interface. -/
abbrev P.peg : Nat := P.pegMem ||| P.pegRest

/-- A state part by part. -/
structure View where
  pending : List Instr
  mod : ModuleSt
  hdrs : Nat → FnHdr
  evstat : Nat → W32
  img : ImageCfg
  sections : List Section
  imgId : ImgId
  pegMem : List (Nat × Byte)
  pegRest : PegSt
  otp : OtpSt
  banks : Tab BankSt
  chs : Tab ChSt
  groups : Tab DgSt
  points : Tab DpSt
  outCurrent : Nat
  tu : TimeSt
  alarm : AlarmSt
  logic : LogicSt
  div : Tab DivSt
  divSel : Nat
  trx : Tab TrxSt
  loops : LoopSt
  axes : Tab AxisSt
  bedrock : BedrockSt
  pool : PoolSt
  notifyQ : List Event
  mmpRest : MmpSt
  can : Tab CanSt
  pair : PairSt
  panel : PanelSt
  inbox : List Event
  recRest : RecSt
  ckpt : CkptSt
  pi : Tab (Option Qv)
  taskInbox : List Event
  freeCount : Nat

/-- The parts of a state. -/
def parts (s : State) : View where
  pending := s.pending
  mod := s.mod
  hdrs := fun k => { s.fns.look k with evstat := 0 }
  evstat := fun k => (s.fns.look k).evstat
  img := s.img
  sections := s.sections
  imgId := s.imgId
  pegMem := s.peg.mem
  pegRest := { s.peg with mem := [] }
  otp := s.otp
  banks := s.banks
  chs := s.chs
  groups := s.groups
  points := s.points
  outCurrent := s.outCurrent
  tu := s.tu
  alarm := s.alarm
  logic := s.logic
  div := s.div
  divSel := s.divSel
  trx := s.trx
  loops := s.loops
  axes := s.axes
  bedrock := s.bedrock
  pool := s.pool
  notifyQ := s.mmp.notifyQ
  mmpRest := { s.mmp with notifyQ := [] }
  can := s.can
  pair := s.pair
  panel := s.panel
  inbox := s.recd.inbox
  recRest := { s.recd with inbox := [] }
  ckpt := s.ckpt
  pi := s.pi
  taskInbox := s.taskInbox
  freeCount := s.freeCount

/-- A view with the parts of `m` left out. -/
def hide (m : Nat) (v : View) : View where
  pending := if m.testBit 0 then [] else v.pending
  mod := if m.testBit 1 then default else v.mod
  hdrs := if m.testBit 2 then fun _ => default else v.hdrs
  evstat := if m.testBit 3 then fun _ => 0 else v.evstat
  img := if m.testBit 4 then default else v.img
  sections := if m.testBit 5 then [] else v.sections
  imgId := if m.testBit 6 then default else v.imgId
  pegMem := if m.testBit 7 then [] else v.pegMem
  pegRest := if m.testBit 8 then default else v.pegRest
  otp := if m.testBit 9 then default else v.otp
  banks := if m.testBit 10 then [] else v.banks
  chs := if m.testBit 11 then [] else v.chs
  groups := if m.testBit 12 then [] else v.groups
  points := if m.testBit 13 then [] else v.points
  outCurrent := if m.testBit 14 then 0 else v.outCurrent
  tu := if m.testBit 15 then default else v.tu
  alarm := if m.testBit 16 then default else v.alarm
  logic := if m.testBit 17 then default else v.logic
  div := if m.testBit 18 then [] else v.div
  divSel := if m.testBit 19 then 0 else v.divSel
  trx := if m.testBit 20 then [] else v.trx
  loops := if m.testBit 21 then default else v.loops
  axes := if m.testBit 22 then [] else v.axes
  bedrock := if m.testBit 23 then default else v.bedrock
  pool := if m.testBit 24 then default else v.pool
  notifyQ := if m.testBit 25 then [] else v.notifyQ
  mmpRest := if m.testBit 26 then default else v.mmpRest
  can := if m.testBit 27 then [] else v.can
  pair := if m.testBit 28 then default else v.pair
  panel := if m.testBit 29 then default else v.panel
  inbox := if m.testBit 30 then [] else v.inbox
  recRest := if m.testBit 31 then default else v.recRest
  ckpt := if m.testBit 32 then default else v.ckpt
  pi := if m.testBit 33 then [] else v.pi
  taskInbox := if m.testBit 34 then [] else v.taskInbox
  freeCount := if m.testBit 35 then 0 else v.freeCount

/-- A state with the parts of `m` left out. -/
def view (m : Nat) (s : State) : View := hide m (parts s)

/-- Two sets of hidden parts, one in the other. -/
theorem hide_hide {p m : Nat} (h : p ||| m = m) (v : View) : hide m (hide p v) = hide m v := by
  have hb : ∀ i, m.testBit i = false → p.testBit i = false := fun i hm => by
    rw [← h, Nat.testBit_or, Bool.or_eq_false_iff] at hm
    exact hm.1
  simp only [hide, View.mk.injEq]
  refine ⟨?_, ?_, ?_, ?_, ?_, ?_, ?_, ?_, ?_, ?_, ?_, ?_, ?_, ?_, ?_, ?_, ?_, ?_, ?_, ?_, ?_, ?_, ?_, ?_, ?_, ?_, ?_, ?_, ?_, ?_, ?_, ?_, ?_, ?_, ?_, ?_⟩
  all_goals
    split
    · rfl
    · rename_i hm
      rw [if_neg (by rw [hb _ (Bool.eq_false_iff.2 hm)]; exact Bool.false_ne_true)]

/-- What holds of a view holds of every view that hides more. -/
theorem view_mono {p m : Nat} {s t : State} (h : p ||| m = m) (e : view p t = view p s) : view m t = view m s := by
  have := congrArg (hide m) e
  simpa only [view, hide_hide h] using this

theorem view_ite {m : Nat} {c : Prop} [Decidable c] {a b s : State} (ha : view m a = view m s)
    (hb : view m b = view m s) : view m (if c then a else b) = view m s := by
  split <;> assumption

/-- A set of parts in a set in a set. -/
theorem within_trans {p q m : Nat} (hp : p ||| q = q) (h : q ||| m = m) : p ||| m = m := by
  rw [← h, ← Nat.or_assoc, hp]

/-! ### A part read off a view -/

theorem pending_of_view {m : Nat} {s t : State} (e : view m t = view m s) (h : m.testBit 0 = false) : t.pending = s.pending := by
  simpa [view, hide, parts, h] using congrArg View.pending e
theorem mod_of_view {m : Nat} {s t : State} (e : view m t = view m s) (h : m.testBit 1 = false) : t.mod = s.mod := by
  simpa [view, hide, parts, h] using congrArg View.mod e
theorem img_of_view {m : Nat} {s t : State} (e : view m t = view m s) (h : m.testBit 4 = false) : t.img = s.img := by
  simpa [view, hide, parts, h] using congrArg View.img e
theorem sections_of_view {m : Nat} {s t : State} (e : view m t = view m s) (h : m.testBit 5 = false) : t.sections = s.sections := by
  simpa [view, hide, parts, h] using congrArg View.sections e
theorem imgId_of_view {m : Nat} {s t : State} (e : view m t = view m s) (h : m.testBit 6 = false) : t.imgId = s.imgId := by
  simpa [view, hide, parts, h] using congrArg View.imgId e
theorem otp_of_view {m : Nat} {s t : State} (e : view m t = view m s) (h : m.testBit 9 = false) : t.otp = s.otp := by
  simpa [view, hide, parts, h] using congrArg View.otp e
theorem banks_of_view {m : Nat} {s t : State} (e : view m t = view m s) (h : m.testBit 10 = false) : t.banks = s.banks := by
  simpa [view, hide, parts, h] using congrArg View.banks e
theorem chs_of_view {m : Nat} {s t : State} (e : view m t = view m s) (h : m.testBit 11 = false) : t.chs = s.chs := by
  simpa [view, hide, parts, h] using congrArg View.chs e
theorem groups_of_view {m : Nat} {s t : State} (e : view m t = view m s) (h : m.testBit 12 = false) : t.groups = s.groups := by
  simpa [view, hide, parts, h] using congrArg View.groups e
theorem points_of_view {m : Nat} {s t : State} (e : view m t = view m s) (h : m.testBit 13 = false) : t.points = s.points := by
  simpa [view, hide, parts, h] using congrArg View.points e
theorem outCurrent_of_view {m : Nat} {s t : State} (e : view m t = view m s) (h : m.testBit 14 = false) : t.outCurrent = s.outCurrent := by
  simpa [view, hide, parts, h] using congrArg View.outCurrent e
theorem tu_of_view {m : Nat} {s t : State} (e : view m t = view m s) (h : m.testBit 15 = false) : t.tu = s.tu := by
  simpa [view, hide, parts, h] using congrArg View.tu e
theorem alarm_of_view {m : Nat} {s t : State} (e : view m t = view m s) (h : m.testBit 16 = false) : t.alarm = s.alarm := by
  simpa [view, hide, parts, h] using congrArg View.alarm e
theorem logic_of_view {m : Nat} {s t : State} (e : view m t = view m s) (h : m.testBit 17 = false) : t.logic = s.logic := by
  simpa [view, hide, parts, h] using congrArg View.logic e
theorem div_of_view {m : Nat} {s t : State} (e : view m t = view m s) (h : m.testBit 18 = false) : t.div = s.div := by
  simpa [view, hide, parts, h] using congrArg View.div e
theorem divSel_of_view {m : Nat} {s t : State} (e : view m t = view m s) (h : m.testBit 19 = false) : t.divSel = s.divSel := by
  simpa [view, hide, parts, h] using congrArg View.divSel e
theorem trx_of_view {m : Nat} {s t : State} (e : view m t = view m s) (h : m.testBit 20 = false) : t.trx = s.trx := by
  simpa [view, hide, parts, h] using congrArg View.trx e
theorem loops_of_view {m : Nat} {s t : State} (e : view m t = view m s) (h : m.testBit 21 = false) : t.loops = s.loops := by
  simpa [view, hide, parts, h] using congrArg View.loops e
theorem axes_of_view {m : Nat} {s t : State} (e : view m t = view m s) (h : m.testBit 22 = false) : t.axes = s.axes := by
  simpa [view, hide, parts, h] using congrArg View.axes e
theorem bedrock_of_view {m : Nat} {s t : State} (e : view m t = view m s) (h : m.testBit 23 = false) : t.bedrock = s.bedrock := by
  simpa [view, hide, parts, h] using congrArg View.bedrock e
theorem pool_of_view {m : Nat} {s t : State} (e : view m t = view m s) (h : m.testBit 24 = false) : t.pool = s.pool := by
  simpa [view, hide, parts, h] using congrArg View.pool e
theorem can_of_view {m : Nat} {s t : State} (e : view m t = view m s) (h : m.testBit 27 = false) : t.can = s.can := by
  simpa [view, hide, parts, h] using congrArg View.can e
theorem pair_of_view {m : Nat} {s t : State} (e : view m t = view m s) (h : m.testBit 28 = false) : t.pair = s.pair := by
  simpa [view, hide, parts, h] using congrArg View.pair e
theorem panel_of_view {m : Nat} {s t : State} (e : view m t = view m s) (h : m.testBit 29 = false) : t.panel = s.panel := by
  simpa [view, hide, parts, h] using congrArg View.panel e
theorem ckpt_of_view {m : Nat} {s t : State} (e : view m t = view m s) (h : m.testBit 32 = false) : t.ckpt = s.ckpt := by
  simpa [view, hide, parts, h] using congrArg View.ckpt e
theorem pi_of_view {m : Nat} {s t : State} (e : view m t = view m s) (h : m.testBit 33 = false) : t.pi = s.pi := by
  simpa [view, hide, parts, h] using congrArg View.pi e
theorem taskInbox_of_view {m : Nat} {s t : State} (e : view m t = view m s) (h : m.testBit 34 = false) : t.taskInbox = s.taskInbox := by
  simpa [view, hide, parts, h] using congrArg View.taskInbox e
theorem freeCount_of_view {m : Nat} {s t : State} (e : view m t = view m s) (h : m.testBit 35 = false) : t.freeCount = s.freeCount := by
  simpa [view, hide, parts, h] using congrArg View.freeCount e
theorem hdr_of_view {m : Nat} {s t : State} (e : view m t = view m s) (h : m.testBit 2 = false) (f : Fn) :
    { t.hdr f with evstat := 0 } = { s.hdr f with evstat := 0 } := by
  simpa [view, hide, parts, h, State.hdr] using congrFun (congrArg View.hdrs e) (fnId f)
theorem evstat_of_view {m : Nat} {s t : State} (e : view m t = view m s) (h : m.testBit 3 = false) (f : Fn) :
    (t.hdr f).evstat = (s.hdr f).evstat := by
  simpa [view, hide, parts, h, State.hdr] using congrFun (congrArg View.evstat e) (fnId f)
theorem pegMem_of_view {m : Nat} {s t : State} (e : view m t = view m s) (h : m.testBit 7 = false) :
    t.peg.mem = s.peg.mem := by
  simpa [view, hide, parts, h] using congrArg View.pegMem e
theorem pegRest_of_view {m : Nat} {s t : State} (e : view m t = view m s) (h : m.testBit 8 = false) :
    { t.peg with mem := [] } = { s.peg with mem := [] } := by
  simpa [view, hide, parts, h] using congrArg View.pegRest e
theorem notifyQ_of_view {m : Nat} {s t : State} (e : view m t = view m s) (h : m.testBit 25 = false) :
    t.mmp.notifyQ = s.mmp.notifyQ := by
  simpa [view, hide, parts, h] using congrArg View.notifyQ e
theorem mmpRest_of_view {m : Nat} {s t : State} (e : view m t = view m s) (h : m.testBit 26 = false) :
    { t.mmp with notifyQ := [] } = { s.mmp with notifyQ := [] } := by
  simpa [view, hide, parts, h] using congrArg View.mmpRest e
theorem inbox_of_view {m : Nat} {s t : State} (e : view m t = view m s) (h : m.testBit 30 = false) :
    t.recd.inbox = s.recd.inbox := by
  simpa [view, hide, parts, h] using congrArg View.inbox e
theorem recRest_of_view {m : Nat} {s t : State} (e : view m t = view m s) (h : m.testBit 31 = false) :
    { t.recd with inbox := [] } = { s.recd with inbox := [] } := by
  simpa [view, hide, parts, h] using congrArg View.recRest e

/-! ### A field written -/

theorem view_pending {m : Nat} (h : P.pending ||| m = m) (s : State) (x) : view m { s with pending := x } = view m s :=
  view_mono h rfl
theorem view_mod {m : Nat} (h : P.mod ||| m = m) (s : State) (x) : view m { s with mod := x } = view m s :=
  view_mono h rfl
theorem view_fns {m : Nat} (h : P.fns ||| m = m) (s : State) (x) : view m { s with fns := x } = view m s :=
  view_mono h rfl
theorem view_img {m : Nat} (h : P.img ||| m = m) (s : State) (x) : view m { s with img := x } = view m s :=
  view_mono h rfl
theorem view_sections {m : Nat} (h : P.sections ||| m = m) (s : State) (x) : view m { s with sections := x } = view m s :=
  view_mono h rfl
theorem view_imgId {m : Nat} (h : P.imgId ||| m = m) (s : State) (x) : view m { s with imgId := x } = view m s :=
  view_mono h rfl
theorem view_peg {m : Nat} (h : P.peg ||| m = m) (s : State) (x) : view m { s with peg := x } = view m s :=
  view_mono h rfl
theorem view_otp {m : Nat} (h : P.otp ||| m = m) (s : State) (x) : view m { s with otp := x } = view m s :=
  view_mono h rfl
theorem view_banks {m : Nat} (h : P.banks ||| m = m) (s : State) (x) : view m { s with banks := x } = view m s :=
  view_mono h rfl
theorem view_chs {m : Nat} (h : P.chs ||| m = m) (s : State) (x) : view m { s with chs := x } = view m s :=
  view_mono h rfl
theorem view_groups {m : Nat} (h : P.groups ||| m = m) (s : State) (x) : view m { s with groups := x } = view m s :=
  view_mono h rfl
theorem view_points {m : Nat} (h : P.points ||| m = m) (s : State) (x) : view m { s with points := x } = view m s :=
  view_mono h rfl
theorem view_outCurrent {m : Nat} (h : P.outCurrent ||| m = m) (s : State) (x) : view m { s with outCurrent := x } = view m s :=
  view_mono h rfl
theorem view_tu {m : Nat} (h : P.tu ||| m = m) (s : State) (x) : view m { s with tu := x } = view m s :=
  view_mono h rfl
theorem view_alarm {m : Nat} (h : P.alarm ||| m = m) (s : State) (x) : view m { s with alarm := x } = view m s :=
  view_mono h rfl
theorem view_logic {m : Nat} (h : P.logic ||| m = m) (s : State) (x) : view m { s with logic := x } = view m s :=
  view_mono h rfl
theorem view_div {m : Nat} (h : P.div ||| m = m) (s : State) (x) : view m { s with div := x } = view m s :=
  view_mono h rfl
theorem view_divSel {m : Nat} (h : P.divSel ||| m = m) (s : State) (x) : view m { s with divSel := x } = view m s :=
  view_mono h rfl
theorem view_trx {m : Nat} (h : P.trx ||| m = m) (s : State) (x) : view m { s with trx := x } = view m s :=
  view_mono h rfl
theorem view_loops {m : Nat} (h : P.loops ||| m = m) (s : State) (x) : view m { s with loops := x } = view m s :=
  view_mono h rfl
theorem view_axes {m : Nat} (h : P.axes ||| m = m) (s : State) (x) : view m { s with axes := x } = view m s :=
  view_mono h rfl
theorem view_bedrock {m : Nat} (h : P.bedrock ||| m = m) (s : State) (x) : view m { s with bedrock := x } = view m s :=
  view_mono h rfl
theorem view_pool {m : Nat} (h : P.pool ||| m = m) (s : State) (x) : view m { s with pool := x } = view m s :=
  view_mono h rfl
theorem view_mmp {m : Nat} (h : P.mmp ||| m = m) (s : State) (x) : view m { s with mmp := x } = view m s :=
  view_mono h rfl
theorem view_can {m : Nat} (h : P.can ||| m = m) (s : State) (x) : view m { s with can := x } = view m s :=
  view_mono h rfl
theorem view_pair {m : Nat} (h : P.pair ||| m = m) (s : State) (x) : view m { s with pair := x } = view m s :=
  view_mono h rfl
theorem view_panel {m : Nat} (h : P.panel ||| m = m) (s : State) (x) : view m { s with panel := x } = view m s :=
  view_mono h rfl
theorem view_recd {m : Nat} (h : P.recd ||| m = m) (s : State) (x) : view m { s with recd := x } = view m s :=
  view_mono h rfl
theorem view_ckpt {m : Nat} (h : P.ckpt ||| m = m) (s : State) (x) : view m { s with ckpt := x } = view m s :=
  view_mono h rfl
theorem view_pi {m : Nat} (h : P.pi ||| m = m) (s : State) (x) : view m { s with pi := x } = view m s :=
  view_mono h rfl
theorem view_taskInbox {m : Nat} (h : P.taskInbox ||| m = m) (s : State) (x) : view m { s with taskInbox := x } = view m s :=
  view_mono h rfl
theorem view_freeCount {m : Nat} (h : P.freeCount ||| m = m) (s : State) (x) : view m { s with freeCount := x } = view m s :=
  view_mono h rfl

/-! ### Several fields written at once -/

theorem view_mod_tu {m : Nat} (h : P.mod ||| P.tu ||| m = m) (s : State) (x0) (x1) :
    view m { s with mod := x0, tu := x1 } = view m s :=
  view_mono h rfl
theorem view_mod_logic {m : Nat} (h : P.mod ||| P.logic ||| m = m) (s : State) (x0) (x1) :
    view m { s with mod := x0, logic := x1 } = view m s :=
  view_mono h rfl
theorem view_mod_tu_alarm_logic_loops_bedrock_can_panel_recd {m : Nat} (h : P.mod ||| P.tu ||| P.alarm ||| P.logic ||| P.loops ||| P.bedrock ||| P.can ||| P.panel ||| P.recd ||| m = m) (s : State) (x0) (x1) (x2) (x3) (x4) (x5) (x6) (x7) (x8) :
    view m { s with mod := x0, tu := x1, alarm := x2, logic := x3, loops := x4, bedrock := x5, can := x6, panel := x7, recd := x8 } = view m s :=
  view_mono h rfl
theorem view_mod_pair {m : Nat} (h : P.mod ||| P.pair ||| m = m) (s : State) (x0) (x1) :
    view m { s with mod := x0, pair := x1 } = view m s :=
  view_mono h rfl
theorem view_img_sections {m : Nat} (h : P.img ||| P.sections ||| m = m) (s : State) (x0) (x1) :
    view m { s with img := x0, sections := x1 } = view m s :=
  view_mono h rfl
theorem view_logic_pi {m : Nat} (h : P.logic ||| P.pi ||| m = m) (s : State) (x0) (x1) :
    view m { s with logic := x0, pi := x1 } = view m s :=
  view_mono h rfl
theorem view_tu_freeCount {m : Nat} (h : P.tu ||| P.freeCount ||| m = m) (s : State) (x0) (x1) :
    view m { s with tu := x0, freeCount := x1 } = view m s :=
  view_mono h rfl

/-- A change of the peg interface that keeps the bytes of the peg. -/
theorem view_peg_rest {m : Nat} (h : P.pegRest ||| m = m) (s : State) (x : PegSt) (hx : x.mem = s.peg.mem) :
    view m { s with peg := x } = view m s := by
  refine view_mono h ?_
  simp only [view, parts, hx]
  rfl

theorem view_imgId_peg {m : Nat} (h : P.imgId ||| P.pegRest ||| m = m) (s : State) (i : ImgId) (x : PegSt)
    (hx : x.mem = s.peg.mem) : view m { s with imgId := i, peg := x } = view m s :=
  (view_peg_rest (within_trans (by decide) h) { s with imgId := i } x hx).trans
    (view_imgId (within_trans (by decide) h) s i)

theorem view_image_peg {m : Nat} (h : P.img ||| P.sections ||| P.imgId ||| P.pegRest ||| m = m) (s : State)
    (c : ImageCfg) (l : List Section) (i : ImgId) (x : PegSt) (hx : x.mem = s.peg.mem) :
    view m { s with img := c, sections := l, imgId := i, peg := x } = view m s :=
  (view_imgId_peg (within_trans (by decide) h) { s with img := c, sections := l } i x hx).trans
    (view_img_sections (within_trans (by decide) h) s c l)

end Sys2Proof.Laws
end

