-- ==== Sys2Proof/Laws/Frame/Flags.lean ====
section
/-! SUPPORT. Frame laws of Sys2Proof/Machine/Flags.lean: for each operation, the parts of the state outside which it
changes nothing. -/

namespace Sys2Proof.Laws

open Sys2Proof.Machine

@[simp ↓] theorem setHdr_view {m : Nat} (h : P.fns ||| m = m) (s : State) (f : Fn) (g : FnHdr → FnHdr) :
    view m (s.setHdr f g) = view m s := view_fns h s _

/-- A change of FN_EVSTAT alone. -/
@[simp ↓] theorem setHdr_evstat_view {m : Nat} (h : P.evstat ||| m = m) (s : State) (f : Fn) (w : FnHdr → W32) :
    view m (s.setHdr f (fun x => { x with evstat := w x })) = view m s := by
  refine view_mono h ?_
  have e : (fun k => { (s.setHdr f (fun x => { x with evstat := w x })).fns.look k with evstat := 0 })
      = fun k => { s.fns.look k with evstat := 0 } := by
    funext k
    by_cases hk : k = fnId f
    · subst hk
      simp [State.setHdr]
    · simp [State.setHdr, hk]
  exact congrArg (fun x => ({ view P.evstat s with hdrs := x } : View)) e

end Sys2Proof.Laws
end

