-- ==== Sys2Proof/Laws/Frame/Ops.lean ====
section
/-! SUPPORT. Frame laws of Sys2Proof/Machine/Ops.lean: for each operation, the parts of the state outside which it
changes nothing. -/

namespace Sys2Proof.Laws

open Sys2Proof.Machine

@[simp ↓] theorem setMod_view {m : Nat} (h : P.mod ||| m = m) (s : State) (a2) : view m (State.setMod s a2) = view m s :=
  view_mod h s _

@[simp ↓] theorem setBank_view {m : Nat} (h : P.banks ||| m = m) (s : State) (a2) (a3) : view m (State.setBank s a2 a3) = view m s :=
  view_banks h s _

@[simp ↓] theorem setCh_view {m : Nat} (h : P.chs ||| m = m) (s : State) (a2) (a3) (a4) : view m (State.setCh s a2 a3 a4) = view m s :=
  view_chs h s _

@[simp ↓] theorem setPoint_view {m : Nat} (h : P.points ||| m = m) (s : State) (a2) (a3) (a4) : view m (State.setPoint s a2 a3 a4) = view m s :=
  view_points h s _

@[simp ↓] theorem setGroup_view {m : Nat} (h : P.groups ||| m = m) (s : State) (a2) (a3) : view m (State.setGroup s a2 a3) = view m s :=
  view_groups h s _

@[simp ↓] theorem setAxis_view {m : Nat} (h : P.axes ||| m = m) (s : State) (a2) (a3) : view m (State.setAxis s a2 a3) = view m s :=
  view_axes h s _

@[simp ↓] theorem setTu_view {m : Nat} (h : P.tu ||| m = m) (s : State) (a2) : view m (State.setTu s a2) = view m s :=
  view_tu h s _

@[simp ↓] theorem setLogic_view {m : Nat} (h : P.logic ||| m = m) (s : State) (a2) : view m (State.setLogic s a2) = view m s :=
  view_logic h s _

@[simp ↓] theorem setMmp_view {m : Nat} (h : P.mmp ||| m = m) (s : State) (a2) : view m (State.setMmp s a2) = view m s :=
  view_mmp h s _

@[simp ↓] theorem setPair_view {m : Nat} (h : P.pair ||| m = m) (s : State) (a2) : view m (State.setPair s a2) = view m s :=
  view_pair h s _

@[simp ↓] theorem setRec_view {m : Nat} (h : P.recd ||| m = m) (s : State) (a2) : view m (State.setRec s a2) = view m s :=
  view_recd h s _

theorem setPeg_view {m : Nat} (h : P.pegRest ||| m = m) (s : State) (g : PegSt → PegSt)
    (hg : (g s.peg).mem = s.peg.mem) : view m (s.setPeg g) = view m s := view_peg_rest h s _ hg

/-- Any change of the peg and its interface. -/
@[simp ↓] theorem setPeg_all_view {m : Nat} (h : P.peg ||| m = m) (s : State) (g : PegSt → PegSt) :
    view m (s.setPeg g) = view m s := view_peg h s _

@[simp ↓] theorem takeFree_view {m : Nat} (h : P.freeCount ||| m = m) (s : State) : view m (takeFree s).2 = view m s := by
  refine view_mono h ?_
  unfold takeFree
  try dsimp only
  repeat' first
    | with_reducible rfl
    | with_reducible apply view_ite
    | split
    | simp (disch := decide) only [↓view_freeCount]

/-- A raised event sets a bit of its owner's FN_EVSTAT and joins the queues of its takers. -/
theorem deliver_view {m : Nat} (h : P.event ||| m = m) (k : EvKind) (e : Event) (s : State) :
    view m (deliver k e s) = view m s := by
  refine view_mono h ?_
  have inbox : ∀ t : State, view P.event (t.setRec fun r => { r with inbox := r.inbox ++ [e] }) = view P.event t :=
    fun _ => rfl
  have note : ∀ t : State, view P.event (t.setMmp fun x => { x with notifyQ := x.notifyQ ++ [e] }) = view P.event t :=
    fun _ => rfl
  have task : ∀ t : State, view P.event { t with taskInbox := t.taskInbox ++ [e] } = view P.event t := fun _ => rfl
  unfold deliver
  dsimp only
  repeat' first
    | with_reducible rfl
    | with_reducible apply view_ite
    | exact setHdr_evstat_view (by decide) s _ _
    | split
    | with_reducible refine (note _).trans ?_
    | with_reducible refine (task _).trans ?_
    | with_reducible refine (inbox _).trans ?_

@[simp ↓] theorem raise_view {m : Nat} (h : P.event ||| m = m) (a1) (a2) (a3) (a4) (s : State) : view m (raise a1 a2 a3 a4 s) = view m s := by
  refine view_mono h ?_
  unfold raise
  try dsimp only
  repeat' first
    | with_reducible rfl
    | with_reducible apply view_ite
    | split
    | simp (disch := decide) only [↓deliver_view]

@[simp ↓] theorem raiseAt_view {m : Nat} (h : P.event ||| m = m) (a1) (a2) (a3) (a4) (a5) (s : State) : view m (raiseAt a1 a2 a3 a4 a5 s) = view m s := by
  refine view_mono h ?_
  unfold raiseAt
  try dsimp only
  repeat' first
    | with_reducible rfl
    | with_reducible apply view_ite
    | split
    | simp (disch := decide) only [↓deliver_view]

@[simp ↓] theorem raiseN_view {m : Nat} (h : P.event ||| m = m) (a1) (a2) (a3) (s : State) : view m (raiseN a1 a2 a3 s) = view m s := by
  refine view_mono h ?_
  unfold raiseN
  try dsimp only
  repeat' first
    | with_reducible rfl
    | with_reducible apply view_ite
    | split
    | simp (disch := decide) only [↓raise_view]

@[simp ↓] theorem raiseIf_view {m : Nat} (h : P.event ||| m = m) (a1) (a2) (a3) (a4) (s : State) : view m (raiseIf a1 a2 a3 a4 s) = view m s := by
  refine view_mono h ?_
  unfold raiseIf
  try dsimp only
  repeat' first
    | with_reducible rfl
    | with_reducible apply view_ite
    | split
    | simp (disch := decide) only [↓raiseN_view]

@[simp ↓] theorem setPi_view {m : Nat} (h : P.pi ||| m = m) (s : State) (a2) (a3) : view m (State.setPi s a2 a3) = view m s :=
  view_pi h s _

@[simp ↓] theorem setRef_view {m : Nat} (h : P.pi ||| m = m) (a1) (a2) (s : State) : view m (setRef a1 a2 s) = view m s := by
  refine view_mono h ?_
  unfold setRef
  try dsimp only
  repeat' first
    | with_reducible rfl
    | with_reducible apply view_ite
    | split
    | simp (disch := decide) only [↓setPi_view]

@[simp ↓] theorem setWd_view {m : Nat} (h : P.chs ||| P.points ||| P.axes ||| m = m) (a1) (a2) (s : State) : view m (setWd a1 a2 s) = view m s := by
  refine view_mono h ?_
  unfold setWd
  try dsimp only
  repeat' first
    | with_reducible rfl
    | with_reducible apply view_ite
    | split
    | simp (disch := decide) only [↓setCh_view, ↓setPoint_view, ↓setAxis_view]

@[simp ↓] theorem driveDo_view {m : Nat} (h : P.points ||| m = m) (a1) (a2) (s : State) : view m (driveDo a1 a2 s) = view m s := by
  refine view_mono h ?_
  unfold driveDo
  try dsimp only
  repeat' first
    | with_reducible rfl
    | with_reducible apply view_ite
    | split
    | simp (disch := decide) only [↓setPoint_view]

@[simp ↓] theorem driveAo_view {m : Nat} (h : P.chs ||| m = m) (a1) (a2) (s : State) : view m (driveAo a1 a2 s) = view m s := by
  refine view_mono h ?_
  unfold driveAo
  try dsimp only
  repeat' first
    | with_reducible rfl
    | with_reducible apply view_ite
    | split
    | simp (disch := decide) only [↓setCh_view]

@[simp ↓] theorem driveOut_view {m : Nat} (h : P.chs ||| P.points ||| m = m) (a1) (s : State) : view m (driveOut a1 s) = view m s := by
  refine view_mono h ?_
  unfold driveOut
  try dsimp only
  repeat' first
    | with_reducible rfl
    | with_reducible apply view_ite
    | split
    | simp (disch := decide) only [↓driveAo_view, ↓driveDo_view]

@[simp ↓] theorem switchOffBank_view {m : Nat} (h : P.chs ||| m = m) (a1) (s : State) : view m (switchOffBank a1 s) = view m s := by
  refine view_mono h ?_
  unfold switchOffBank
  try dsimp only
  repeat' first
    | with_reducible rfl
    | with_reducible apply view_ite
    | split
    | simp (disch := decide) only [↓setCh_view]
    | with_reducible refine (forRange_keeps (view _) (fun _ _ => ?_) _).trans ?_

@[simp ↓] theorem switchOffGroup_view {m : Nat} (h : P.points ||| m = m) (a1) (s : State) : view m (switchOffGroup a1 s) = view m s := by
  refine view_mono h ?_
  unfold switchOffGroup
  try dsimp only
  repeat' first
    | with_reducible rfl
    | with_reducible apply view_ite
    | split
    | simp (disch := decide) only [↓setPoint_view]
    | with_reducible refine (forRange_keeps (view _) (fun _ _ => ?_) _).trans ?_

@[simp ↓] theorem wdExpire_view {m : Nat} (h : P.event ||| P.chs ||| P.points ||| P.axes ||| m = m) (a1) (s : State) : view m (wdExpire a1 s) = view m s := by
  refine view_mono h ?_
  unfold wdExpire
  try dsimp only
  repeat' first
    | with_reducible rfl
    | with_reducible apply view_ite
    | split
    | simp (disch := decide) only [↓raiseN_view, ↓driveOut_view, ↓setWd_view]

@[simp ↓] theorem wdRestart_view {m : Nat} (h : P.chs ||| P.points ||| P.axes ||| m = m) (a1) (s : State) : view m (wdRestart a1 s) = view m s := by
  refine view_mono h ?_
  unfold wdRestart
  try dsimp only
  repeat' first
    | with_reducible rfl
    | with_reducible apply view_ite
    | split
    | simp (disch := decide) only [↓driveOut_view, ↓setWd_view]

@[simp ↓] theorem wdSuspend_view {m : Nat} (h : P.chs ||| P.points ||| P.axes ||| m = m) (a1) (s : State) : view m (wdSuspend a1 s) = view m s := by
  refine view_mono h ?_
  unfold wdSuspend
  try dsimp only
  repeat' first
    | with_reducible rfl
    | with_reducible apply view_ite
    | split
    | simp (disch := decide) only [↓driveOut_view, ↓setWd_view]

@[simp ↓] theorem writerFault_view {m : Nat} (h : P.event ||| P.chs ||| P.points ||| P.axes ||| m = m) (a1) (s : State) : view m (writerFault a1 s) = view m s := by
  refine view_mono h ?_
  unfold writerFault
  try dsimp only
  repeat' first
    | with_reducible rfl
    | with_reducible apply view_ite
    | split
    | simp (disch := decide) only [↓wdExpire_view]
    | with_reducible refine (forAll_keeps (view _) (fun _ _ => ?_) _).trans ?_

@[simp ↓] theorem instanceDone_view {m : Nat} (h : P.chs ||| P.points ||| P.axes ||| m = m) (a1) (a2) (s : State) : view m (instanceDone a1 a2 s) = view m s := by
  refine view_mono h ?_
  unfold instanceDone
  try dsimp only
  repeat' first
    | with_reducible rfl
    | with_reducible apply view_ite
    | split
    | simp (disch := decide) only [↓setWd_view]
    | with_reducible refine (forAll_keeps (view _) (fun _ _ => ?_) _).trans ?_

@[simp ↓] theorem writeOut_view {m : Nat} (h : P.event ||| P.chs ||| P.points ||| P.axes ||| P.pi ||| m = m) (a1) (a2) (a3) (a4) (s : State) : view m (writeOut a1 a2 a3 a4 s) = view m s := by
  refine view_mono h ?_
  unfold writeOut
  try dsimp only
  repeat' first
    | with_reducible rfl
    | with_reducible apply view_ite
    | split
    | simp (disch := decide) only [↓wdRestart_view, ↓setPi_view, ↓raiseN_view, ↓setPoint_view]

@[simp ↓] theorem setPool_view {m : Nat} (h : P.pool ||| m = m) (s : State) (a2) : view m (State.setPool s a2) = view m s :=
  view_pool h s _

@[simp ↓] theorem freeBlock_view {m : Nat} (h : P.event ||| P.pool ||| m = m) (a1) (s : State) : view m (freeBlock a1 s) = view m s := by
  refine view_mono h ?_
  unfold freeBlock
  try dsimp only
  repeat' first
    | with_reducible rfl
    | with_reducible apply view_ite
    | split
    | simp (disch := decide) only [↓setPool_view, ↓raiseN_view]

@[simp ↓] theorem freeBlocksOf_view {m : Nat} (h : P.event ||| P.pool ||| m = m) (a1) (s : State) : view m (freeBlocksOf a1 s) = view m s := by
  refine view_mono h ?_
  unfold freeBlocksOf
  try dsimp only
  repeat' first
    | with_reducible rfl
    | with_reducible apply view_ite
    | split
    | simp (disch := decide) only [↓freeBlock_view]
    | with_reducible refine (forAll_keeps (view _) (fun _ _ => ?_) _).trans ?_

@[simp ↓] theorem grantLock_view {m : Nat} (h : P.event ||| P.pool ||| m = m) (n : Nat) (l : List Nat) (s : State) : view m (grantLock n l s) = view m s := by
  refine view_mono h ?_
  induction l generalizing s with
  | nil => exact setPool_view (by decide) _ _
  | cons _ _ ih =>
    unfold grantLock
    try dsimp only
    repeat' first
      | with_reducible rfl
      | with_reducible apply view_ite
      | refine (ih _).trans ?_
      | split
      | simp (disch := decide) only [↓setPool_view, ↓raiseN_view]

@[simp ↓] theorem passLock_view {m : Nat} (h : P.event ||| P.pool ||| m = m) (a1) (s : State) : view m (passLock a1 s) = view m s := by
  refine view_mono h ?_
  unfold passLock
  try dsimp only
  repeat' first
    | with_reducible rfl
    | with_reducible apply view_ite
    | split
    | simp (disch := decide) only [↓grantLock_view]

@[simp ↓] theorem maskFn_view {m : Nat} (h : P.event ||| P.pool ||| m = m) (a1) (s : State) : view m (maskFn a1 s) = view m s := by
  refine view_mono h ?_
  unfold maskFn
  try dsimp only
  repeat' first
    | with_reducible rfl
    | with_reducible apply view_ite
    | split
    | simp (disch := decide) only [↓setPool_view, ↓passLock_view, ↓freeBlocksOf_view, ↓raiseIf_view]
    | with_reducible refine (forAll_keeps (view _) (fun _ _ => ?_) _).trans ?_

@[simp ↓] theorem enterFn_view {m : Nat} (h : P.event ||| P.hdrs ||| P.pool ||| m = m) (a1) (a2) (s : State) : view m (enterFn a1 a2 s) = view m s := by
  refine view_mono h ?_
  unfold enterFn
  try dsimp only
  repeat' first
    | with_reducible rfl
    | with_reducible apply view_ite
    | split
    | simp (disch := decide) only [↓setHdr_view, ↓maskFn_view]

@[simp ↓] theorem applyDomains_view {m : Nat} (h : P.event ||| P.hdrs ||| P.pool ||| m = m) (s : State) : view m (applyDomains s) = view m s := by
  refine view_mono h ?_
  unfold applyDomains
  try dsimp only
  repeat' first
    | with_reducible rfl
    | with_reducible apply view_ite
    | split
    | simp (disch := decide) only [↓setHdr_view, ↓enterFn_view]
    | with_reducible refine (forAll_keeps (view _) (fun _ _ => ?_) _).trans ?_

@[simp ↓] theorem outputsOff_view {m : Nat} (h : P.chs ||| P.points ||| P.bedrock ||| m = m) (s : State) : view m (outputsOff s) = view m s := by
  refine view_mono h ?_
  unfold outputsOff
  try dsimp only
  repeat' first
    | with_reducible rfl
    | with_reducible apply view_ite
    | split
    | simp (disch := decide) only [↓switchOffGroup_view, ↓switchOffBank_view, ↓view_bedrock]
    | with_reducible refine (forRange_keeps (view _) (fun _ _ => ?_) _).trans ?_

@[simp ↓] theorem localAxisEnd_view {m : Nat} (h : P.axes ||| m = m) (a1) (s : State) : view m (localAxisEnd a1 s) = view m s := by
  refine view_mono h ?_
  unfold localAxisEnd
  try dsimp only
  repeat' first
    | with_reducible rfl
    | with_reducible apply view_ite
    | split
    | simp (disch := decide) only [↓setAxis_view]

@[simp ↓] theorem endLocal_view {m : Nat} (h : P.event ||| P.chs ||| P.points ||| P.axes ||| P.panel ||| m = m) (a1) (a2) (a3) (s : State) : view m (endLocal a1 a2 a3 s) = view m s := by
  refine view_mono h ?_
  unfold endLocal
  try dsimp only
  repeat' first
    | with_reducible rfl
    | with_reducible apply view_ite
    | split
    | simp (disch := decide) only [↓wdRestart_view, ↓localAxisEnd_view, ↓raise_view, ↓view_panel]

@[simp ↓] theorem endLocals_view {m : Nat} (h : P.event ||| P.chs ||| P.points ||| P.axes ||| P.panel ||| m = m) (a1) (a2) (a3) (s : State) : view m (endLocals a1 a2 a3 s) = view m s := by
  refine view_mono h ?_
  unfold endLocals
  try dsimp only
  repeat' first
    | with_reducible rfl
    | with_reducible apply view_ite
    | split
    | simp (disch := decide) only [↓endLocal_view]
    | with_reducible refine (forAll_keeps (view _) (fun _ _ => ?_) _).trans ?_

@[simp ↓] theorem holdRuns_view {m : Nat} (h : P.fns ||| m = m) (s : State) : view m (holdRuns s) = view m s := by
  refine view_mono h ?_
  unfold holdRuns
  try dsimp only
  repeat' first
    | with_reducible rfl
    | with_reducible apply view_ite
    | split
    | simp (disch := decide) only [↓setHdr_view]
    | with_reducible refine (forAll_keeps (view _) (fun _ _ => ?_) _).trans ?_

@[simp ↓] theorem enterHold_view {m : Nat} (h : P.event ||| P.mod ||| P.hdrs ||| P.chs ||| P.points ||| P.axes ||| P.bedrock ||| P.pool ||| P.pair ||| P.panel ||| m = m) (a1) (s : State) : view m (enterHold a1 s) = view m s := by
  refine view_mono h ?_
  unfold enterHold
  try dsimp only
  repeat' first
    | with_reducible rfl
    | with_reducible apply view_ite
    | split
    | simp (disch := decide) only [↓endLocals_view, ↓outputsOff_view, ↓holdRuns_view, ↓applyDomains_view, ↓view_mod_pair]

@[simp ↓] theorem fnFault_view {m : Nat} (h : P.event ||| P.mod ||| P.hdrs ||| P.chs ||| P.points ||| P.axes ||| P.bedrock ||| P.pool ||| P.pair ||| P.panel ||| m = m) (a1) (a2) (s : State) : view m (fnFault a1 a2 s) = view m s := by
  refine view_mono h ?_
  unfold fnFault
  try dsimp only
  repeat' first
    | with_reducible rfl
    | with_reducible apply view_ite
    | split
    | simp (disch := decide) only [↓setHdr_view, ↓enterHold_view]

end Sys2Proof.Laws
end

