-- ==== Sys2Proof/Laws/Frame/Digital.lean ====
section
/-! SUPPORT. Frame laws of Sys2Proof/Machine/Digital.lean: for each operation, the parts of the state outside which it
changes nothing. -/

namespace Sys2Proof.Laws

open Sys2Proof.Machine

@[simp ↓] theorem pitchPoint_view {m : Nat} (h : P.event ||| P.points ||| m = m) (a1) (a2) (a3) (a4) (s : State) : view m (pitchPoint a1 a2 a3 a4 s) = view m s := by
  refine view_mono h ?_
  unfold pitchPoint
  try dsimp only
  repeat' first
    | with_reducible rfl
    | with_reducible apply view_ite
    | split
    | simp (disch := decide) only [↓raiseIf_view, ↓setPoint_view]

@[simp ↓] theorem pitchGroup_view {m : Nat} (h : P.event ||| P.points ||| m = m) (a1) (a2) (a3) (s : State) : view m (pitchGroup a1 a2 a3 s) = view m s := by
  refine view_mono h ?_
  unfold pitchGroup
  try dsimp only
  repeat' first
    | with_reducible rfl
    | with_reducible apply view_ite
    | split
    | simp (disch := decide) only [↓pitchPoint_view]
    | with_reducible refine (forRange_keeps (view _) (fun _ _ => ?_) _).trans ?_

@[simp ↓] theorem resumeGroup_view {m : Nat} (h : P.chs ||| P.points ||| P.axes ||| m = m) (a1) (s : State) : view m (resumeGroup a1 s) = view m s := by
  refine view_mono h ?_
  unfold resumeGroup
  try dsimp only
  repeat' first
    | with_reducible rfl
    | with_reducible apply view_ite
    | split
    | simp (disch := decide) only [↓wdRestart_view]
    | with_reducible refine (forRange_keeps (view _) (fun _ _ => ?_) _).trans ?_

@[simp ↓] theorem resetGroup_view {m : Nat} (h : P.points ||| m = m) (a1) (s : State) : view m (resetGroup a1 s) = view m s := by
  refine view_mono h ?_
  unfold resetGroup
  try dsimp only
  repeat' first
    | with_reducible rfl
    | with_reducible apply view_ite
    | split
    | simp (disch := decide) only [↓setPoint_view]
    | with_reducible refine (forRange_keeps (view _) (fun _ _ => ?_) _).trans ?_

@[simp ↓] theorem filterClock_view {m : Nat} (h : P.points ||| m = m) (a1) (a2) (s : State) : view m (filterClock a1 a2 s) = view m s := by
  refine view_mono h ?_
  unfold filterClock
  try dsimp only
  repeat' first
    | with_reducible rfl
    | with_reducible apply view_ite
    | split
    | simp (disch := decide) only [↓setPoint_view]
    | with_reducible refine (forRange_keeps (view _) (fun _ _ => ?_) _).trans ?_

@[simp ↓] theorem countEntries_view {m : Nat} (h : P.pi ||| m = m) (s : State) : view m (countEntries s) = view m s := by
  refine view_mono h ?_
  unfold countEntries
  try dsimp only
  repeat' first
    | with_reducible rfl
    | with_reducible apply view_ite
    | split
    | simp (disch := decide) only [↓setRef_view]
    | with_reducible refine (forRange_keeps (view _) (fun _ _ => ?_) _).trans ?_

@[simp ↓] theorem freqGate_view {m : Nat} (h : P.event ||| P.points ||| P.freeCount ||| m = m) (a1) (a2) (s : State) : view m (freqGate a1 a2 s) = view m s := by
  refine view_mono h ?_
  unfold freqGate
  try dsimp only
  repeat' first
    | with_reducible rfl
    | with_reducible apply view_ite
    | split
    | simp (disch := decide) only [↓setPoint_view, ↓takeFree_view, ↓raiseIf_view]
    | (refine (congrArg (fun p => view _ p.2) ‹takeFree _ = _›).symm.trans ((takeFree_view ?_ _).trans ?_); decide)

@[simp ↓] theorem counterPreset_view {m : Nat} (h : P.points ||| m = m) (a1) (a2) (a3) (s : State) : view m (counterPreset a1 a2 a3 s) = view m s := by
  refine view_mono h ?_
  unfold counterPreset
  try dsimp only
  repeat' first
    | with_reducible rfl
    | with_reducible apply view_ite
    | split
    | simp (disch := decide) only [↓setPoint_view]

@[simp ↓] theorem outTrip_view {m : Nat} (h : P.event ||| P.points ||| m = m) (a1) (a2) (s : State) : view m (outTrip a1 a2 s) = view m s := by
  refine view_mono h ?_
  unfold outTrip
  try dsimp only
  repeat' first
    | with_reducible rfl
    | with_reducible apply view_ite
    | split
    | simp (disch := decide) only [↓raiseN_view, ↓setPoint_view]

@[simp ↓] theorem outRetry_view {m : Nat} (h : P.points ||| m = m) (a1) (a2) (s : State) : view m (outRetry a1 a2 s) = view m s := by
  refine view_mono h ?_
  unfold outRetry
  try dsimp only
  repeat' first
    | with_reducible rfl
    | with_reducible apply view_ite
    | split
    | simp (disch := decide) only [↓driveDo_view, ↓setPoint_view]

@[simp ↓] theorem tripFree_view {m : Nat} (h : P.points ||| m = m) (a1) (a2) (s : State) : view m (tripFree a1 a2 s) = view m s := by
  refine view_mono h ?_
  unfold tripFree
  try dsimp only
  repeat' first
    | with_reducible rfl
    | with_reducible apply view_ite
    | split
    | simp (disch := decide) only [↓setPoint_view]

@[simp ↓] theorem outReadback_view {m : Nat} (h : P.points ||| m = m) (a1) (a2) (a3) (a4) (s : State) : view m (outReadback a1 a2 a3 a4 s) = view m s := by
  refine view_mono h ?_
  unfold outReadback
  try dsimp only
  repeat' first
    | with_reducible rfl
    | with_reducible apply view_ite
    | split
    | simp (disch := decide) only [↓setPoint_view]

@[simp ↓] theorem extFeed_view {m : Nat} (h : P.event ||| P.points ||| m = m) (a1) (a2) (a3) (s : State) : view m (extFeed a1 a2 a3 s) = view m s := by
  refine view_mono h ?_
  unfold extFeed
  try dsimp only
  repeat' first
    | with_reducible rfl
    | with_reducible apply view_ite
    | split
    | simp (disch := decide) only [↓raiseN_view, ↓setPoint_view]

@[simp ↓] theorem dgClear_view {m : Nat} (h : P.event ||| P.points ||| m = m) (a1) (a2) (a3) (s : State) : view m (dgClear a1 a2 a3 s) = view m s := by
  refine view_mono h ?_
  unfold dgClear
  try dsimp only
  repeat' first
    | with_reducible rfl
    | with_reducible apply view_ite
    | split
    | simp (disch := decide) only [↓driveDo_view, ↓setPoint_view, ↓raise_view]
    | with_reducible refine (forRange_keeps (view _) (fun _ _ => ?_) _).trans ?_

@[simp ↓] theorem supplyLow_view {m : Nat} (h : P.event ||| P.groups ||| m = m) (a1) (a2) (s : State) : view m (supplyLow a1 a2 s) = view m s := by
  refine view_mono h ?_
  unfold supplyLow
  try dsimp only
  repeat' first
    | with_reducible rfl
    | with_reducible apply view_ite
    | split
    | simp (disch := decide) only [↓setGroup_view, ↓raiseN_view]

@[simp ↓] theorem supplyOkGroup_view {m : Nat} (h : P.event ||| P.groups ||| m = m) (a1) (a2) (s : State) : view m (supplyOkGroup a1 a2 s) = view m s := by
  refine view_mono h ?_
  unfold supplyOkGroup
  try dsimp only
  repeat' first
    | with_reducible rfl
    | with_reducible apply view_ite
    | split
    | simp (disch := decide) only [↓raiseN_view, ↓setGroup_view]

@[simp ↓] theorem overload_view {m : Nat} (h : P.event ||| P.groups ||| P.points ||| P.outCurrent ||| m = m) (a1) (a2) (a3) (s : State) : view m (overload a1 a2 a3 s) = view m s := by
  refine view_mono h ?_
  unfold overload
  try dsimp only
  repeat' first
    | with_reducible rfl
    | with_reducible apply view_ite
    | split
    | simp (disch := decide) only [↓setPoint_view, ↓setGroup_view, ↓raiseN_view, ↓view_outCurrent]
    | with_reducible refine (forRange_keeps (view _) (fun _ _ => ?_) _).trans ?_

@[simp ↓] theorem wdTimeout_view {m : Nat} (h : P.event ||| P.chs ||| P.points ||| P.axes ||| m = m) (a1) (s : State) : view m (wdTimeout a1 s) = view m s := by
  refine view_mono h ?_
  unfold wdTimeout
  try dsimp only
  repeat' first
    | with_reducible rfl
    | with_reducible apply view_ite
    | split
    | simp (disch := decide) only [↓wdExpire_view]

theorem execCounterPreset_view {m : Nat} (h : P.points ||| m = m) (a1) (a2) (a3) (s : State) {t} (e : execCounterPreset a1 a2 a3 s = .next t) : view m t = view m s := by
  refine view_mono h ?_
  unfold execCounterPreset at e
  obtain rfl := Host.Outcome.next.inj e
  repeat' first
    | with_reducible rfl
    | with_reducible apply view_ite
    | split
    | simp (disch := decide) only [↓counterPreset_view]

theorem execFreqGateEnd_view {m : Nat} (h : P.event ||| P.points ||| P.freeCount ||| m = m) (a1) (a2) (s : State) {t} (e : execFreqGateEnd a1 a2 s = .next t) : view m t = view m s := by
  refine view_mono h ?_
  unfold execFreqGateEnd at e
  obtain rfl := Host.Outcome.next.inj e
  repeat' first
    | with_reducible rfl
    | with_reducible apply view_ite
    | split
    | simp (disch := decide) only [↓freqGate_view]

theorem execDpOutTrip_view {m : Nat} (h : P.event ||| P.points ||| m = m) (a1) (a2) (s : State) {t} (e : execDpOutTrip a1 a2 s = .next t) : view m t = view m s := by
  refine view_mono h ?_
  unfold execDpOutTrip at e
  obtain rfl := Host.Outcome.next.inj e
  repeat' first
    | with_reducible rfl
    | with_reducible apply view_ite
    | split
    | simp (disch := decide) only [↓outTrip_view]

theorem execOutputRetry_view {m : Nat} (h : P.points ||| m = m) (a1) (a2) (s : State) {t} (e : execOutputRetry a1 a2 s = .next t) : view m t = view m s := by
  refine view_mono h ?_
  unfold execOutputRetry at e
  obtain rfl := Host.Outcome.next.inj e
  repeat' first
    | with_reducible rfl
    | with_reducible apply view_ite
    | split
    | simp (disch := decide) only [↓outRetry_view]

theorem execTripFreeTime_view {m : Nat} (h : P.points ||| m = m) (a1) (a2) (s : State) {t} (e : execTripFreeTime a1 a2 s = .next t) : view m t = view m s := by
  refine view_mono h ?_
  unfold execTripFreeTime at e
  obtain rfl := Host.Outcome.next.inj e
  repeat' first
    | with_reducible rfl
    | with_reducible apply view_ite
    | split
    | simp (disch := decide) only [↓tripFree_view]

theorem execDpExternalFeed_view {m : Nat} (h : P.event ||| P.points ||| m = m) (a1) (a2) (a3) (s : State) {t} (e : execDpExternalFeed a1 a2 a3 s = .next t) : view m t = view m s := by
  refine view_mono h ?_
  unfold execDpExternalFeed at e
  obtain rfl := Host.Outcome.next.inj e
  repeat' first
    | with_reducible rfl
    | with_reducible apply view_ite
    | split
    | simp (disch := decide) only [↓extFeed_view]

theorem execDgClear_view {m : Nat} (h : P.event ||| P.points ||| m = m) (a1) (a2) (a3) (s : State) {t} (e : execDgClear a1 a2 a3 s = .next t) : view m t = view m s := by
  refine view_mono h ?_
  unfold execDgClear at e
  obtain rfl := Host.Outcome.next.inj e
  repeat' first
    | with_reducible rfl
    | with_reducible apply view_ite
    | split
    | simp (disch := decide) only [↓dgClear_view]

theorem execDgSupplyLow_view {m : Nat} (h : P.event ||| P.groups ||| m = m) (a1) (a2) (s : State) {t} (e : execDgSupplyLow a1 a2 s = .next t) : view m t = view m s := by
  refine view_mono h ?_
  unfold execDgSupplyLow at e
  obtain rfl := Host.Outcome.next.inj e
  repeat' first
    | with_reducible rfl
    | with_reducible apply view_ite
    | split
    | simp (disch := decide) only [↓supplyLow_view]

theorem execDgSupplyOk_view {m : Nat} (h : P.event ||| P.groups ||| m = m) (a1) (a2) (s : State) {t} (e : execDgSupplyOk a1 a2 s = .next t) : view m t = view m s := by
  refine view_mono h ?_
  unfold execDgSupplyOk at e
  obtain rfl := Host.Outcome.next.inj e
  repeat' first
    | with_reducible rfl
    | with_reducible apply view_ite
    | split
    | simp (disch := decide) only [↓supplyOkGroup_view]

theorem execDgOverload_view {m : Nat} (h : P.event ||| P.groups ||| P.points ||| P.outCurrent ||| m = m) (a1) (a2) (a3) (s : State) {t} (e : execDgOverload a1 a2 a3 s = .next t) : view m t = view m s := by
  refine view_mono h ?_
  unfold execDgOverload at e
  obtain rfl := Host.Outcome.next.inj e
  repeat' first
    | with_reducible rfl
    | with_reducible apply view_ite
    | split
    | simp (disch := decide) only [↓overload_view]

theorem execWdExpired_view {m : Nat} (h : P.event ||| P.chs ||| P.points ||| P.axes ||| m = m) (a1) (s : State) {t} (e : execWdExpired a1 s = .next t) : view m t = view m s := by
  refine view_mono h ?_
  unfold execWdExpired at e
  obtain rfl := Host.Outcome.next.inj e
  repeat' first
    | with_reducible rfl
    | with_reducible apply view_ite
    | split
    | simp (disch := decide) only [↓wdTimeout_view]

theorem execFilterClock_view {m : Nat} (h : P.points ||| m = m) (a1) (a2) (s : State) {t} (e : execFilterClock a1 a2 s = .next t) : view m t = view m s := by
  refine view_mono h ?_
  unfold execFilterClock at e
  obtain rfl := Host.Outcome.next.inj e
  repeat' first
    | with_reducible rfl
    | with_reducible apply view_ite
    | split
    | simp (disch := decide) only [↓filterClock_view]

theorem execCountEntryUpdate_view {m : Nat} (h : P.pi ||| m = m) (s : State) {t} (e : execCountEntryUpdate s = .next t) : view m t = view m s := by
  refine view_mono h ?_
  unfold execCountEntryUpdate at e
  obtain rfl := Host.Outcome.next.inj e
  repeat' first
    | with_reducible rfl
    | with_reducible apply view_ite
    | split
    | simp (disch := decide) only [↓countEntries_view]

theorem execOutputReadback_view {m : Nat} (h : P.points ||| m = m) (a1) (a2) (a3) (a4) (s : State) {t} (e : execOutputReadback a1 a2 a3 a4 s = .next t) : view m t = view m s := by
  refine view_mono h ?_
  unfold execOutputReadback at e
  obtain rfl := Host.Outcome.next.inj e
  repeat' first
    | with_reducible rfl
    | with_reducible apply view_ite
    | split
    | simp (disch := decide) only [↓outReadback_view]

end Sys2Proof.Laws
end

