-- ==== Sys2Proof/Laws/Frame/Linear.lean ====
section
/-! SUPPORT. Frame laws of Sys2Proof/Machine/Linear.lean: for each operation, the parts of the state outside which it
changes nothing. -/

namespace Sys2Proof.Laws

open Sys2Proof.Machine

@[simp ↓] theorem rangeEvents_view {m : Nat} (h : P.event ||| m = m) (a1) (a2) (a3) (a4) (a5) (s : State) : view m (rangeEvents a1 a2 a3 a4 a5 s) = view m s := by
  refine view_mono h ?_
  unfold rangeEvents
  try dsimp only
  repeat' first
    | with_reducible rfl
    | with_reducible apply view_ite
    | split
    | simp (disch := decide) only [↓raiseN_view]

@[simp ↓] theorem publishRow_view {m : Nat} (h : P.event ||| P.chs ||| m = m) (a1) (a2) (a3) (a4) (s : State) : view m (publishRow a1 a2 a3 a4 s) = view m s := by
  refine view_mono h ?_
  unfold publishRow
  try dsimp only
  repeat' first
    | with_reducible rfl
    | with_reducible apply view_ite
    | split
    | simp (disch := decide) only [↓setCh_view, ↓raiseIf_view]

@[simp ↓] theorem compStep_view {m : Nat} (h : P.event ||| P.chs ||| m = m) (a1) (a2) (s : State) : view m (compStep a1 a2 s) = view m s := by
  refine view_mono h ?_
  unfold compStep
  try dsimp only
  repeat' first
    | with_reducible rfl
    | with_reducible apply view_ite
    | split
    | simp (disch := decide) only [↓setCh_view, ↓raiseIf_view]

@[simp ↓] theorem evaluateRow_view {m : Nat} (h : P.event ||| P.chs ||| P.freeCount ||| m = m) (a1) (a2) (a3) (a4) (a5) (a6) (s : State) : view m (evaluateRow a1 a2 a3 a4 a5 a6 s) = view m s := by
  refine view_mono h ?_
  unfold evaluateRow
  try dsimp only
  repeat' first
    | with_reducible rfl
    | with_reducible apply view_ite
    | split
    | simp (disch := decide) only [↓compStep_view, ↓takeFree_view, ↓setCh_view, ↓publishRow_view, ↓rangeEvents_view]
    | (refine (congrArg (fun p => view _ p.2) ‹takeFree _ = _›).symm.trans ((takeFree_view ?_ _).trans ?_); decide)

@[simp ↓] theorem secondPath_view {m : Nat} (h : P.chs ||| P.freeCount ||| m = m) (a1) (a2) (a3) (a4) (s : State) : view m (secondPath a1 a2 a3 a4 s) = view m s := by
  refine view_mono h ?_
  unfold secondPath
  try dsimp only
  repeat' first
    | with_reducible rfl
    | with_reducible apply view_ite
    | split
    | simp (disch := decide) only [↓takeFree_view, ↓setCh_view]
    | (refine (congrArg (fun p => view _ p.2) ‹takeFree _ = _›).symm.trans ((takeFree_view ?_ _).trans ?_); decide)

end Sys2Proof.Laws
end

