-- ==== Sys2Proof/Laws/Frame/FrontEnd.lean ====
section
/-! SUPPORT. Frame laws of Sys2Proof/Machine/FrontEnd.lean: for each operation, the parts of the state outside which it
changes nothing. -/

namespace Sys2Proof.Laws

open Sys2Proof.Machine

@[simp ↓] theorem publish_view {m : Nat} (h : P.event ||| P.chs ||| m = m) (a1) (a2) (s : State) : view m (publish a1 a2 s) = view m s := by
  refine view_mono h ?_
  unfold publish
  try dsimp only
  repeat' first
    | with_reducible rfl
    | with_reducible apply view_ite
    | split
    | simp (disch := decide) only [↓publishRow_view]

@[simp ↓] theorem settleVisible_view {m : Nat} (h : P.event ||| P.chs ||| m = m) (a1) (a2) (a3) (s : State) : view m (settleVisible a1 a2 a3 s) = view m s := by
  refine view_mono h ?_
  unfold settleVisible
  try dsimp only
  repeat' first
    | with_reducible rfl
    | with_reducible apply view_ite
    | split
    | simp (disch := decide) only [↓publish_view, ↓setCh_view]

@[simp ↓] theorem windowStart_view {m : Nat} (h : P.chs ||| m = m) (a1) (a2) (a3) (s : State) : view m (windowStart a1 a2 a3 s) = view m s := by
  refine view_mono h ?_
  unfold windowStart
  try dsimp only
  repeat' first
    | with_reducible rfl
    | with_reducible apply view_ite
    | split
    | simp (disch := decide) only [↓setCh_view]

@[simp ↓] theorem declareBreak_view {m : Nat} (h : P.event ||| P.chs ||| m = m) (a1) (a2) (a3) (s : State) : view m (declareBreak a1 a2 a3 s) = view m s := by
  refine view_mono h ?_
  unfold declareBreak
  try dsimp only
  repeat' first
    | with_reducible rfl
    | with_reducible apply view_ite
    | split
    | simp (disch := decide) only [↓publish_view, ↓raiseN_view, ↓setCh_view]

@[simp ↓] theorem breakPass_view {m : Nat} (h : P.event ||| P.chs ||| m = m) (a1) (a2) (a3) (s : State) : view m (breakPass a1 a2 a3 s) = view m s := by
  refine view_mono h ?_
  unfold breakPass
  try dsimp only
  repeat' first
    | with_reducible rfl
    | with_reducible apply view_ite
    | split
    | simp (disch := decide) only [↓setCh_view, ↓settleVisible_view, ↓raiseN_view]

@[simp ↓] theorem settledResult_view {m : Nat} (h : P.event ||| P.chs ||| P.freeCount ||| m = m) (a1) (a2) (a3) (a4) (s : State) : view m (settledResult a1 a2 a3 a4 s) = view m s := by
  refine view_mono h ?_
  unfold settledResult
  try dsimp only
  repeat' first
    | with_reducible rfl
    | with_reducible apply view_ite
    | split
    | simp (disch := decide) only [↓setCh_view, ↓evaluateRow_view]

@[simp ↓] theorem ratioSample_view {m : Nat} (h : P.event ||| P.banks ||| P.chs ||| m = m) (a1) (a2) (s : State) : view m (ratioSample a1 a2 s) = view m s := by
  refine view_mono h ?_
  unfold ratioSample
  try dsimp only
  repeat' first
    | with_reducible rfl
    | with_reducible apply view_ite
    | split
    | simp (disch := decide) only [↓publish_view, ↓setBank_view]
    | with_reducible refine (forRange_keeps (view _) (fun _ _ => ?_) _).trans ?_

@[simp ↓] theorem conversion_view {m : Nat} (h : P.event ||| P.banks ||| P.chs ||| P.freeCount ||| m = m) (a1) (a2) (a3) (a4) (s : State) : view m (conversion a1 a2 a3 a4 s) = view m s := by
  refine view_mono h ?_
  unfold conversion
  try dsimp only
  repeat' first
    | with_reducible rfl
    | with_reducible apply view_ite
    | split
    | simp (disch := decide) only [↓ratioSample_view, ↓setCh_view, ↓declareBreak_view, ↓breakPass_view, ↓publish_view, ↓settledResult_view]

@[simp ↓] theorem windowPass_view {m : Nat} (h : P.event ||| P.chs ||| m = m) (a1) (a2) (s : State) : view m (windowPass a1 a2 s) = view m s := by
  refine view_mono h ?_
  unfold windowPass
  try dsimp only
  repeat' first
    | with_reducible rfl
    | with_reducible apply view_ite
    | split
    | simp (disch := decide) only [↓breakPass_view]

@[simp ↓] theorem slotEnd_view {m : Nat} (h : P.event ||| P.chs ||| P.freeCount ||| m = m) (a1) (a2) (s : State) : view m (slotEnd a1 a2 s) = view m s := by
  refine view_mono h ?_
  unfold slotEnd
  try dsimp only
  repeat' first
    | with_reducible rfl
    | with_reducible apply view_ite
    | split
    | simp (disch := decide) only [↓windowPass_view, ↓evaluateRow_view]

@[simp ↓] theorem excitationChange_view {m : Nat} (h : P.event ||| P.banks ||| P.chs ||| P.freeCount ||| m = m) (a1) (a2) (s : State) : view m (excitationChange a1 a2 s) = view m s := by
  refine view_mono h ?_
  unfold excitationChange
  try dsimp only
  repeat' first
    | with_reducible rfl
    | with_reducible apply view_ite
    | split
    | simp (disch := decide) only [↓slotEnd_view, ↓windowStart_view, ↓setBank_view]

@[simp ↓] theorem laneRestart_view {m : Nat} (h : P.banks ||| P.chs ||| m = m) (a1) (a2) (a3) (s : State) : view m (laneRestart a1 a2 a3 s) = view m s := by
  refine view_mono h ?_
  unfold laneRestart
  try dsimp only
  repeat' first
    | with_reducible rfl
    | with_reducible apply view_ite
    | split
    | simp (disch := decide) only [↓setBank_view, ↓windowStart_view]

@[simp ↓] theorem swapSettle_view {m : Nat} (h : P.event ||| P.chs ||| m = m) (a1) (a2) (a3) (s : State) : view m (swapSettle a1 a2 a3 s) = view m s := by
  refine view_mono h ?_
  unfold swapSettle
  try dsimp only
  repeat' first
    | with_reducible rfl
    | with_reducible apply view_ite
    | split
    | simp (disch := decide) only [↓settleVisible_view]
    | with_reducible refine (forRange_keeps (view _) (fun _ _ => ?_) _).trans ?_

@[simp ↓] theorem frameStart_view {m : Nat} (h : P.event ||| P.banks ||| P.chs ||| P.freeCount ||| m = m) (a1) (s : State) : view m (frameStart a1 s) = view m s := by
  refine view_mono h ?_
  unfold frameStart
  try dsimp only
  repeat' first
    | with_reducible rfl
    | with_reducible apply view_ite
    | split
    | simp (disch := decide) only [↓slotEnd_view, ↓setBank_view, ↓swapSettle_view, ↓raiseN_view, ↓laneRestart_view]
    | with_reducible refine (forRange_keeps (view _) (fun _ _ => ?_) _).trans ?_

@[simp ↓] theorem slotSubmit_view {m : Nat} (h : P.event ||| P.banks ||| m = m) (a1) (a2) (s : State) : view m (slotSubmit a1 a2 s) = view m s := by
  refine view_mono h ?_
  unfold slotSubmit
  try dsimp only
  repeat' first
    | with_reducible rfl
    | with_reducible apply view_ite
    | split
    | simp (disch := decide) only [↓raiseN_view, ↓setBank_view, ↓raiseIf_view, ↓raise_view]

@[simp ↓] theorem compFail_view {m : Nat} (h : P.event ||| P.chs ||| m = m) (a1) (a2) (s : State) : view m (compFail a1 a2 s) = view m s := by
  refine view_mono h ?_
  unfold compFail
  try dsimp only
  repeat' first
    | with_reducible rfl
    | with_reducible apply view_ite
    | split
    | simp (disch := decide) only [↓publish_view, ↓raiseN_view, ↓setCh_view]

@[simp ↓] theorem rideEnds_view {m : Nat} (h : P.event ||| P.chs ||| m = m) (a1) (a2) (s : State) : view m (rideEnds a1 a2 s) = view m s := by
  refine view_mono h ?_
  unfold rideEnds
  try dsimp only
  repeat' first
    | with_reducible rfl
    | with_reducible apply view_ite
    | split
    | simp (disch := decide) only [↓publish_view, ↓setCh_view]

@[simp ↓] theorem cjRead_view {m : Nat} (h : P.event ||| P.banks ||| m = m) (a1) (a2) (a3) (s : State) : view m (cjRead a1 a2 a3 s) = view m s := by
  refine view_mono h ?_
  unfold cjRead
  try dsimp only
  repeat' first
    | with_reducible rfl
    | with_reducible apply view_ite
    | split
    | simp (disch := decide) only [↓setBank_view, ↓raiseIf_view]

@[simp ↓] theorem trackMeasure_view {m : Nat} (h : P.event ||| P.chs ||| m = m) (a1) (a2) (a3) (s : State) : view m (trackMeasure a1 a2 a3 s) = view m s := by
  refine view_mono h ?_
  unfold trackMeasure
  try dsimp only
  repeat' first
    | with_reducible rfl
    | with_reducible apply view_ite
    | split
    | simp (disch := decide) only [↓setCh_view, ↓raiseN_view, ↓settleVisible_view]

@[simp ↓] theorem trackLost_view {m : Nat} (h : P.event ||| P.chs ||| m = m) (a1) (a2) (s : State) : view m (trackLost a1 a2 s) = view m s := by
  refine view_mono h ?_
  unfold trackLost
  try dsimp only
  repeat' first
    | with_reducible rfl
    | with_reducible apply view_ite
    | split
    | simp (disch := decide) only [↓raiseN_view, ↓setCh_view]

@[simp ↓] theorem trackFallback_view {m : Nat} (h : P.event ||| P.chs ||| m = m) (a1) (a2) (s : State) : view m (trackFallback a1 a2 s) = view m s := by
  refine view_mono h ?_
  unfold trackFallback
  try dsimp only
  repeat' first
    | with_reducible rfl
    | with_reducible apply view_ite
    | split
    | simp (disch := decide) only [↓settleVisible_view, ↓raiseN_view, ↓setCh_view]

@[simp ↓] theorem clampOn_view {m : Nat} (h : P.event ||| P.banks ||| P.chs ||| m = m) (a1) (a2) (s : State) : view m (clampOn a1 a2 s) = view m s := by
  refine view_mono h ?_
  unfold clampOn
  try dsimp only
  repeat' first
    | with_reducible rfl
    | with_reducible apply view_ite
    | split
    | simp (disch := decide) only [↓setBank_view, ↓raiseN_view, ↓publish_view]
    | with_reducible refine (forRange_keeps (view _) (fun _ _ => ?_) _).trans ?_

@[simp ↓] theorem clampOff_view {m : Nat} (h : P.event ||| P.banks ||| P.chs ||| m = m) (a1) (a2) (s : State) : view m (clampOff a1 a2 s) = view m s := by
  refine view_mono h ?_
  unfold clampOff
  try dsimp only
  repeat' first
    | with_reducible rfl
    | with_reducible apply view_ite
    | split
    | simp (disch := decide) only [↓setBank_view, ↓raiseN_view, ↓settleVisible_view]
    | with_reducible refine (forRange_keeps (view _) (fun _ _ => ?_) _).trans ?_

@[simp ↓] theorem testPulse_view {m : Nat} (h : P.event ||| P.chs ||| m = m) (a1) (a2) (a3) (a4) (s : State) : view m (testPulse a1 a2 a3 a4 s) = view m s := by
  refine view_mono h ?_
  unfold testPulse
  try dsimp only
  repeat' first
    | with_reducible rfl
    | with_reducible apply view_ite
    | split
    | simp (disch := decide) only [↓setCh_view, ↓declareBreak_view, ↓breakPass_view]

theorem execSlotSubmit_view {m : Nat} (h : P.event ||| P.banks ||| m = m) (a1) (a2) (s : State) {t} (e : execSlotSubmit a1 a2 s = .next t) : view m t = view m s := by
  refine view_mono h ?_
  unfold execSlotSubmit at e
  obtain rfl := Host.Outcome.next.inj e
  repeat' first
    | with_reducible rfl
    | with_reducible apply view_ite
    | split
    | simp (disch := decide) only [↓slotSubmit_view]

theorem execFrameStart_view {m : Nat} (h : P.event ||| P.banks ||| P.chs ||| P.freeCount ||| m = m) (a1) (s : State) {t} (e : execFrameStart a1 s = .next t) : view m t = view m s := by
  refine view_mono h ?_
  unfold execFrameStart at e
  obtain rfl := Host.Outcome.next.inj e
  repeat' first
    | with_reducible rfl
    | with_reducible apply view_ite
    | split
    | simp (disch := decide) only [↓frameStart_view]

theorem execExcitationChange_view {m : Nat} (h : P.event ||| P.banks ||| P.chs ||| P.freeCount ||| m = m) (a1) (a2) (s : State) {t} (e : execExcitationChange a1 a2 s = .next t) : view m t = view m s := by
  refine view_mono h ?_
  unfold execExcitationChange at e
  obtain rfl := Host.Outcome.next.inj e
  repeat' first
    | with_reducible rfl
    | with_reducible apply view_ite
    | split
    | simp (disch := decide) only [↓excitationChange_view]

theorem execConversionResult_view {m : Nat} (h : P.event ||| P.banks ||| P.chs ||| P.freeCount ||| m = m) (a1) (a2) (a3) (a4) (s : State) {t} (e : execConversionResult a1 a2 a3 a4 s = .next t) : view m t = view m s := by
  refine view_mono h ?_
  unfold execConversionResult at e
  obtain rfl := Host.Outcome.next.inj e
  repeat' first
    | with_reducible rfl
    | with_reducible apply view_ite
    | split
    | simp (disch := decide) only [↓conversion_view]

theorem execCompFailed_view {m : Nat} (h : P.event ||| P.chs ||| m = m) (a1) (a2) (s : State) {t} (e : execCompFailed a1 a2 s = .next t) : view m t = view m s := by
  refine view_mono h ?_
  unfold execCompFailed at e
  obtain rfl := Host.Outcome.next.inj e
  repeat' first
    | with_reducible rfl
    | with_reducible apply view_ite
    | split
    | simp (disch := decide) only [↓compFail_view]

theorem execRideTimeEnd_view {m : Nat} (h : P.event ||| P.chs ||| m = m) (a1) (a2) (s : State) {t} (e : execRideTimeEnd a1 a2 s = .next t) : view m t = view m s := by
  refine view_mono h ?_
  unfold execRideTimeEnd at e
  obtain rfl := Host.Outcome.next.inj e
  repeat' first
    | with_reducible rfl
    | with_reducible apply view_ite
    | split
    | simp (disch := decide) only [↓rideEnds_view]

theorem execCjSensorRead_view {m : Nat} (h : P.event ||| P.banks ||| m = m) (a1) (a2) (a3) (s : State) {t} (e : execCjSensorRead a1 a2 a3 s = .next t) : view m t = view m s := by
  refine view_mono h ?_
  unfold execCjSensorRead at e
  obtain rfl := Host.Outcome.next.inj e
  repeat' first
    | with_reducible rfl
    | with_reducible apply view_ite
    | split
    | simp (disch := decide) only [↓cjRead_view]

theorem execTrackMeasurement_view {m : Nat} (h : P.event ||| P.chs ||| m = m) (a1) (a2) (a3) (s : State) {t} (e : execTrackMeasurement a1 a2 a3 s = .next t) : view m t = view m s := by
  refine view_mono h ?_
  unfold execTrackMeasurement at e
  obtain rfl := Host.Outcome.next.inj e
  repeat' first
    | with_reducible rfl
    | with_reducible apply view_ite
    | split
    | simp (disch := decide) only [↓trackMeasure_view]

theorem execNotchTrackLost_view {m : Nat} (h : P.event ||| P.chs ||| m = m) (a1) (a2) (s : State) {t} (e : execNotchTrackLost a1 a2 s = .next t) : view m t = view m s := by
  refine view_mono h ?_
  unfold execNotchTrackLost at e
  obtain rfl := Host.Outcome.next.inj e
  repeat' first
    | with_reducible rfl
    | with_reducible apply view_ite
    | split
    | simp (disch := decide) only [↓trackLost_view]

theorem execNotchFallback_view {m : Nat} (h : P.event ||| P.chs ||| m = m) (a1) (a2) (s : State) {t} (e : execNotchFallback a1 a2 s = .next t) : view m t = view m s := by
  refine view_mono h ?_
  unfold execNotchFallback at e
  obtain rfl := Host.Outcome.next.inj e
  repeat' first
    | with_reducible rfl
    | with_reducible apply view_ite
    | split
    | simp (disch := decide) only [↓trackFallback_view]

theorem execChClampActive_view {m : Nat} (h : P.event ||| P.banks ||| P.chs ||| m = m) (a1) (a2) (s : State) {t} (e : execChClampActive a1 a2 s = .next t) : view m t = view m s := by
  refine view_mono h ?_
  unfold execChClampActive at e
  obtain rfl := Host.Outcome.next.inj e
  repeat' first
    | with_reducible rfl
    | with_reducible apply view_ite
    | split
    | simp (disch := decide) only [↓clampOn_view]

theorem execChClampReleased_view {m : Nat} (h : P.event ||| P.banks ||| P.chs ||| m = m) (a1) (a2) (s : State) {t} (e : execChClampReleased a1 a2 s = .next t) : view m t = view m s := by
  refine view_mono h ?_
  unfold execChClampReleased at e
  obtain rfl := Host.Outcome.next.inj e
  repeat' first
    | with_reducible rfl
    | with_reducible apply view_ite
    | split
    | simp (disch := decide) only [↓clampOff_view]

theorem execTestPulse_view {m : Nat} (h : P.event ||| P.chs ||| m = m) (a1) (a2) (a3) (a4) (s : State) {t} (e : execTestPulse a1 a2 a3 a4 s = .next t) : view m t = view m s := by
  refine view_mono h ?_
  unfold execTestPulse at e
  obtain rfl := Host.Outcome.next.inj e
  repeat' first
    | with_reducible rfl
    | with_reducible apply view_ite
    | split
    | simp (disch := decide) only [↓testPulse_view]

end Sys2Proof.Laws
end

