-- ==== Sys2Proof/Laws/Frame/Analog.lean ====
section
/-! SUPPORT. Frame laws of Sys2Proof/Machine/Analog.lean: for each operation, the parts of the state outside which it
changes nothing. -/

namespace Sys2Proof.Laws

open Sys2Proof.Machine

@[simp ↓] theorem headroom_view {m : Nat} (h : P.chs ||| m = m) (a1) (a2) (a3) (a4) (s : State) : view m (headroom a1 a2 a3 a4 s) = view m s := by
  refine view_mono h ?_
  unfold headroom
  try dsimp only
  repeat' first
    | with_reducible rfl
    | with_reducible apply view_ite
    | split
    | simp (disch := decide) only [↓setCh_view]

@[simp ↓] theorem compLow_view {m : Nat} (h : P.event ||| P.chs ||| m = m) (a1) (a2) (s : State) : view m (compLow a1 a2 s) = view m s := by
  refine view_mono h ?_
  unfold compLow
  try dsimp only
  repeat' first
    | with_reducible rfl
    | with_reducible apply view_ite
    | split
    | simp (disch := decide) only [↓raiseN_view, ↓setCh_view]

@[simp ↓] theorem compShort_view {m : Nat} (h : P.event ||| P.chs ||| m = m) (a1) (a2) (a3) (s : State) : view m (compShort a1 a2 a3 s) = view m s := by
  refine view_mono h ?_
  unfold compShort
  try dsimp only
  repeat' first
    | with_reducible rfl
    | with_reducible apply view_ite
    | split
    | simp (disch := decide) only [↓raiseN_view, ↓setCh_view]

@[simp ↓] theorem compOk_view {m : Nat} (h : P.event ||| P.chs ||| m = m) (a1) (a2) (s : State) : view m (compOk a1 a2 s) = view m s := by
  refine view_mono h ?_
  unfold compOk
  try dsimp only
  repeat' first
    | with_reducible rfl
    | with_reducible apply view_ite
    | split
    | simp (disch := decide) only [↓raiseN_view, ↓setCh_view]

@[simp ↓] theorem declareMismatch_view {m : Nat} (h : P.event ||| P.chs ||| m = m) (a1) (a2) (a3) (a4) (s : State) : view m (declareMismatch a1 a2 a3 a4 s) = view m s := by
  refine view_mono h ?_
  unfold declareMismatch
  try dsimp only
  repeat' first
    | with_reducible rfl
    | with_reducible apply view_ite
    | split
    | simp (disch := decide) only [↓raiseN_view, ↓setCh_view, ↓driveAo_view]

@[simp ↓] theorem countVisit_view {m : Nat} (h : P.event ||| P.chs ||| m = m) (a1) (a2) (a3) (a4) (s : State) : view m (countVisit a1 a2 a3 a4 s) = view m s := by
  refine view_mono h ?_
  unfold countVisit
  try dsimp only
  repeat' first
    | with_reducible rfl
    | with_reducible apply view_ite
    | split
    | simp (disch := decide) only [↓setCh_view, ↓declareMismatch_view, ↓raiseN_view]

@[simp ↓] theorem countCycle_view {m : Nat} (h : P.banks ||| m = m) (a1) (a2) (s : State) : view m (countCycle a1 a2 s) = view m s := by
  refine view_mono h ?_
  unfold countCycle
  try dsimp only
  repeat' first
    | with_reducible rfl
    | with_reducible apply view_ite
    | split
    | simp (disch := decide) only [↓setBank_view]

@[simp ↓] theorem readbackVisit_view {m : Nat} (h : P.event ||| P.banks ||| P.chs ||| P.freeCount ||| m = m) (a1) (a2) (a3) (s : State) : view m (readbackVisit a1 a2 a3 s) = view m s := by
  refine view_mono h ?_
  unfold readbackVisit
  try dsimp only
  repeat' first
    | with_reducible rfl
    | with_reducible apply view_ite
    | split
    | simp (disch := decide) only [↓countCycle_view, ↓setCh_view, ↓countVisit_view, ↓secondPath_view]

@[simp ↓] theorem backfeed_view {m : Nat} (h : P.event ||| P.chs ||| m = m) (a1) (a2) (a3) (s : State) : view m (backfeed a1 a2 a3 s) = view m s := by
  refine view_mono h ?_
  unfold backfeed
  try dsimp only
  repeat' first
    | with_reducible rfl
    | with_reducible apply view_ite
    | split
    | simp (disch := decide) only [↓raiseN_view, ↓setCh_view, ↓publish_view]

@[simp ↓] theorem clearChannel_view {m : Nat} (h : P.event ||| P.chs ||| m = m) (a1) (a2) (s : State) : view m (clearChannel a1 a2 s) = view m s := by
  refine view_mono h ?_
  unfold clearChannel
  try dsimp only
  repeat' first
    | with_reducible rfl
    | with_reducible apply view_ite
    | split
    | simp (disch := decide) only [↓setCh_view, ↓driveAo_view, ↓publish_view]

@[simp ↓] theorem chClear_view {m : Nat} (h : P.event ||| P.chs ||| m = m) (a1) (a2) (a3) (s : State) : view m (chClear a1 a2 a3 s) = view m s := by
  refine view_mono h ?_
  unfold chClear
  try dsimp only
  repeat' first
    | with_reducible rfl
    | with_reducible apply view_ite
    | split
    | simp (disch := decide) only [↓raise_view, ↓clearChannel_view]
    | with_reducible refine (forRange_keeps (view _) (fun _ _ => ?_) _).trans ?_

@[simp ↓] theorem decideDir_view {m : Nat} (h : P.event ||| P.banks ||| m = m) (a1) (s : State) : view m (decideDir a1 s) = view m s := by
  refine view_mono h ?_
  unfold decideDir
  try dsimp only
  repeat' first
    | with_reducible rfl
    | with_reducible apply view_ite
    | split
    | simp (disch := decide) only [↓setBank_view, ↓raiseIf_view, ↓raiseN_view]
    | with_reducible refine (forRange_keeps (view _) (fun _ _ => ?_) _).trans ?_

@[simp ↓] theorem strapSense_view {m : Nat} (h : P.event ||| P.banks ||| m = m) (a1) (s : State) : view m (strapSense a1 s) = view m s := by
  refine view_mono h ?_
  unfold strapSense
  try dsimp only
  repeat' first
    | with_reducible rfl
    | with_reducible apply view_ite
    | split
    | simp (disch := decide) only [↓raiseN_view, ↓setBank_view]
    | with_reducible refine (forRange_keeps (view _) (fun _ _ => ?_) _).trans ?_

@[simp ↓] theorem setTrim_view {m : Nat} (h : P.banks ||| m = m) (a1) (a2) (s : State) : view m (setTrim a1 a2 s) = view m s := by
  refine view_mono h ?_
  unfold setTrim
  try dsimp only
  repeat' first
    | with_reducible rfl
    | with_reducible apply view_ite
    | split
    | simp (disch := decide) only [↓setBank_view]

@[simp ↓] theorem trimStart_view {m : Nat} (h : P.event ||| P.banks ||| P.chs ||| P.points ||| P.axes ||| m = m) (a1) (a2) (a3) (s : State) : view m (trimStart a1 a2 a3 s) = view m s := by
  refine view_mono h ?_
  unfold trimStart
  try dsimp only
  repeat' first
    | with_reducible rfl
    | with_reducible apply view_ite
    | split
    | simp (disch := decide) only [↓setTrim_view, ↓publish_view, ↓wdSuspend_view, ↓raise_view]

@[simp ↓] theorem trimEnd_view {m : Nat} (h : P.event ||| P.banks ||| P.chs ||| P.points ||| P.axes ||| m = m) (a1) (a2) (s : State) : view m (trimEnd a1 a2 s) = view m s := by
  refine view_mono h ?_
  unfold trimEnd
  try dsimp only
  repeat' first
    | with_reducible rfl
    | with_reducible apply view_ite
    | split
    | simp (disch := decide) only [↓setTrim_view, ↓settleVisible_view, ↓wdRestart_view]

@[simp ↓] theorem trimCompute_view {m : Nat} (h : P.event ||| P.banks ||| P.chs ||| P.points ||| P.axes ||| m = m) (a1) (s : State) : view m (trimCompute a1 s) = view m s := by
  refine view_mono h ?_
  unfold trimCompute
  try dsimp only
  repeat' first
    | with_reducible rfl
    | with_reducible apply view_ite
    | split
    | simp (disch := decide) only [↓setTrim_view, ↓driveAo_view, ↓trimEnd_view]

@[simp ↓] theorem trimAccept_view {m : Nat} (h : P.event ||| P.banks ||| P.chs ||| P.points ||| P.axes ||| m = m) (a1) (a2) (s : State) : view m (trimAccept a1 a2 s) = view m s := by
  refine view_mono h ?_
  unfold trimAccept
  try dsimp only
  repeat' first
    | with_reducible rfl
    | with_reducible apply view_ite
    | split
    | simp (disch := decide) only [↓setTrim_view, ↓driveAo_view, ↓trimCompute_view]

@[simp ↓] theorem trimAverage_view {m : Nat} (h : P.event ||| P.banks ||| P.chs ||| P.points ||| P.axes ||| m = m) (a1) (a2) (s : State) : view m (trimAverage a1 a2 s) = view m s := by
  refine view_mono h ?_
  unfold trimAverage
  try dsimp only
  repeat' first
    | with_reducible rfl
    | with_reducible apply view_ite
    | split
    | simp (disch := decide) only [↓setTrim_view, ↓trimCompute_view]

@[simp ↓] theorem trimProgram_view {m : Nat} (h : P.otp ||| P.banks ||| m = m) (a1) (a2) (s : State) : view m (trimProgram a1 a2 s) = view m s := by
  refine view_mono h ?_
  unfold trimProgram
  try dsimp only
  repeat' first
    | with_reducible rfl
    | with_reducible apply view_ite
    | split
    | simp (disch := decide) only [↓setTrim_view, ↓view_otp]

@[simp ↓] theorem trimWriteCmd_view {m : Nat} (h : P.otp ||| P.banks ||| m = m) (a1) (a2) (s : State) : view m (trimWriteCmd a1 a2 s) = view m s := by
  refine view_mono h ?_
  unfold trimWriteCmd
  try dsimp only
  repeat' first
    | with_reducible rfl
    | with_reducible apply view_ite
    | split
    | simp (disch := decide) only [↓setTrim_view, ↓trimProgram_view]

@[simp ↓] theorem trimAbortCmd_view {m : Nat} (h : P.event ||| P.banks ||| P.chs ||| P.points ||| P.axes ||| m = m) (a1) (a2) (s : State) : view m (trimAbortCmd a1 a2 s) = view m s := by
  refine view_mono h ?_
  unfold trimAbortCmd
  try dsimp only
  repeat' first
    | with_reducible rfl
    | with_reducible apply view_ite
    | split
    | simp (disch := decide) only [↓setTrim_view, ↓trimEnd_view]

@[simp ↓] theorem trimTimeoutCmd_view {m : Nat} (h : P.event ||| P.banks ||| P.chs ||| P.points ||| P.axes ||| m = m) (a1) (s : State) : view m (trimTimeoutCmd a1 s) = view m s := by
  refine view_mono h ?_
  unfold trimTimeoutCmd
  try dsimp only
  repeat' first
    | with_reducible rfl
    | with_reducible apply view_ite
    | split
    | simp (disch := decide) only [↓trimEnd_view]

@[simp ↓] theorem otpFinish_view {m : Nat} (h : P.event ||| P.otp ||| m = m) (a1) (a2) (s : State) : view m (otpFinish a1 a2 s) = view m s := by
  refine view_mono h ?_
  unfold otpFinish
  try dsimp only
  repeat' first
    | with_reducible rfl
    | with_reducible apply view_ite
    | split
    | simp (disch := decide) only [↓raise_view, ↓raiseIf_view, ↓view_otp]

@[simp ↓] theorem trimFinish_view {m : Nat} (h : P.event ||| P.otp ||| P.banks ||| P.chs ||| P.points ||| P.axes ||| m = m) (a1) (a2) (s : State) : view m (trimFinish a1 a2 s) = view m s := by
  refine view_mono h ?_
  unfold trimFinish
  try dsimp only
  repeat' first
    | with_reducible rfl
    | with_reducible apply view_ite
    | split
    | simp (disch := decide) only [↓otpFinish_view, ↓raise_view, ↓trimEnd_view]

theorem execHeadroomMeasurement_view {m : Nat} (h : P.chs ||| m = m) (a1) (a2) (a3) (a4) (s : State) {t} (e : execHeadroomMeasurement a1 a2 a3 a4 s = .next t) : view m t = view m s := by
  refine view_mono h ?_
  unfold execHeadroomMeasurement at e
  obtain rfl := Host.Outcome.next.inj e
  repeat' first
    | with_reducible rfl
    | with_reducible apply view_ite
    | split
    | simp (disch := decide) only [↓headroom_view]

theorem execChComplianceLow_view {m : Nat} (h : P.event ||| P.chs ||| m = m) (a1) (a2) (s : State) {t} (e : execChComplianceLow a1 a2 s = .next t) : view m t = view m s := by
  refine view_mono h ?_
  unfold execChComplianceLow at e
  obtain rfl := Host.Outcome.next.inj e
  repeat' first
    | with_reducible rfl
    | with_reducible apply view_ite
    | split
    | simp (disch := decide) only [↓compLow_view]

theorem execChComplianceShortfall_view {m : Nat} (h : P.event ||| P.chs ||| m = m) (a1) (a2) (a3) (s : State) {t} (e : execChComplianceShortfall a1 a2 a3 s = .next t) : view m t = view m s := by
  refine view_mono h ?_
  unfold execChComplianceShortfall at e
  obtain rfl := Host.Outcome.next.inj e
  repeat' first
    | with_reducible rfl
    | with_reducible apply view_ite
    | split
    | simp (disch := decide) only [↓compShort_view]

theorem execChComplianceOk_view {m : Nat} (h : P.event ||| P.chs ||| m = m) (a1) (a2) (s : State) {t} (e : execChComplianceOk a1 a2 s = .next t) : view m t = view m s := by
  refine view_mono h ?_
  unfold execChComplianceOk at e
  obtain rfl := Host.Outcome.next.inj e
  repeat' first
    | with_reducible rfl
    | with_reducible apply view_ite
    | split
    | simp (disch := decide) only [↓compOk_view]

theorem execReadbackVisit_view {m : Nat} (h : P.event ||| P.banks ||| P.chs ||| P.freeCount ||| m = m) (a1) (a2) (a3) (s : State) {t} (e : execReadbackVisit a1 a2 a3 s = .next t) : view m t = view m s := by
  refine view_mono h ?_
  unfold execReadbackVisit at e
  obtain rfl := Host.Outcome.next.inj e
  repeat' first
    | with_reducible rfl
    | with_reducible apply view_ite
    | split
    | simp (disch := decide) only [↓readbackVisit_view]

theorem execChBackfeed_view {m : Nat} (h : P.event ||| P.chs ||| m = m) (a1) (a2) (a3) (s : State) {t} (e : execChBackfeed a1 a2 a3 s = .next t) : view m t = view m s := by
  refine view_mono h ?_
  unfold execChBackfeed at e
  obtain rfl := Host.Outcome.next.inj e
  repeat' first
    | with_reducible rfl
    | with_reducible apply view_ite
    | split
    | simp (disch := decide) only [↓backfeed_view]

theorem execChClear_view {m : Nat} (h : P.event ||| P.chs ||| m = m) (a1) (a2) (a3) (s : State) {t} (e : execChClear a1 a2 a3 s = .next t) : view m t = view m s := by
  refine view_mono h ?_
  unfold execChClear at e
  obtain rfl := Host.Outcome.next.inj e
  repeat' first
    | with_reducible rfl
    | with_reducible apply view_ite
    | split
    | simp (disch := decide) only [↓chClear_view]

theorem execStrapSense_view {m : Nat} (h : P.event ||| P.banks ||| m = m) (a1) (s : State) {t} (e : execStrapSense a1 s = .next t) : view m t = view m s := by
  refine view_mono h ?_
  unfold execStrapSense at e
  obtain rfl := Host.Outcome.next.inj e
  repeat' first
    | with_reducible rfl
    | with_reducible apply view_ite
    | split
    | simp (disch := decide) only [↓strapSense_view]

theorem execTrimStartCurrent_view {m : Nat} (h : P.event ||| P.banks ||| P.chs ||| P.points ||| P.axes ||| m = m) (a1) (a2) (s : State) {t} (e : execTrimStartCurrent a1 a2 s = .next t) : view m t = view m s := by
  refine view_mono h ?_
  unfold execTrimStartCurrent at e
  obtain rfl := Host.Outcome.next.inj e
  repeat' first
    | with_reducible rfl
    | with_reducible apply view_ite
    | split
    | simp (disch := decide) only [↓trimStart_view]

theorem execTrimStartVoltage_view {m : Nat} (h : P.event ||| P.banks ||| P.chs ||| P.points ||| P.axes ||| m = m) (a1) (a2) (s : State) {t} (e : execTrimStartVoltage a1 a2 s = .next t) : view m t = view m s := by
  refine view_mono h ?_
  unfold execTrimStartVoltage at e
  obtain rfl := Host.Outcome.next.inj e
  repeat' first
    | with_reducible rfl
    | with_reducible apply view_ite
    | split
    | simp (disch := decide) only [↓trimStart_view]

theorem execTrimStartInput_view {m : Nat} (h : P.event ||| P.banks ||| P.chs ||| P.points ||| P.axes ||| m = m) (a1) (a2) (s : State) {t} (e : execTrimStartInput a1 a2 s = .next t) : view m t = view m s := by
  refine view_mono h ?_
  unfold execTrimStartInput at e
  obtain rfl := Host.Outcome.next.inj e
  repeat' first
    | with_reducible rfl
    | with_reducible apply view_ite
    | split
    | simp (disch := decide) only [↓trimStart_view]

theorem execTrimAccept_view {m : Nat} (h : P.event ||| P.banks ||| P.chs ||| P.points ||| P.axes ||| m = m) (a1) (a2) (s : State) {t} (e : execTrimAccept a1 a2 s = .next t) : view m t = view m s := by
  refine view_mono h ?_
  unfold execTrimAccept at e
  obtain rfl := Host.Outcome.next.inj e
  repeat' first
    | with_reducible rfl
    | with_reducible apply view_ite
    | split
    | simp (disch := decide) only [↓trimAccept_view]

theorem execTrimAverageDone_view {m : Nat} (h : P.event ||| P.banks ||| P.chs ||| P.points ||| P.axes ||| m = m) (a1) (a2) (s : State) {t} (e : execTrimAverageDone a1 a2 s = .next t) : view m t = view m s := by
  refine view_mono h ?_
  unfold execTrimAverageDone at e
  obtain rfl := Host.Outcome.next.inj e
  repeat' first
    | with_reducible rfl
    | with_reducible apply view_ite
    | split
    | simp (disch := decide) only [↓trimAverage_view]

theorem execTrimWrite_view {m : Nat} (h : P.otp ||| P.banks ||| m = m) (a1) (a2) (s : State) {t} (e : execTrimWrite a1 a2 s = .next t) : view m t = view m s := by
  refine view_mono h ?_
  unfold execTrimWrite at e
  obtain rfl := Host.Outcome.next.inj e
  repeat' first
    | with_reducible rfl
    | with_reducible apply view_ite
    | split
    | simp (disch := decide) only [↓trimWriteCmd_view]

theorem execTrimWritten_view {m : Nat} (h : P.event ||| P.otp ||| P.banks ||| P.chs ||| P.points ||| P.axes ||| m = m) (a1) (a2) (s : State) {t} (e : execTrimWritten a1 a2 s = .next t) : view m t = view m s := by
  refine view_mono h ?_
  unfold execTrimWritten at e
  obtain rfl := Host.Outcome.next.inj e
  repeat' first
    | with_reducible rfl
    | with_reducible apply view_ite
    | split
    | simp (disch := decide) only [↓trimFinish_view]

theorem execTrimAbort_view {m : Nat} (h : P.event ||| P.banks ||| P.chs ||| P.points ||| P.axes ||| m = m) (a1) (a2) (s : State) {t} (e : execTrimAbort a1 a2 s = .next t) : view m t = view m s := by
  refine view_mono h ?_
  unfold execTrimAbort at e
  obtain rfl := Host.Outcome.next.inj e
  repeat' first
    | with_reducible rfl
    | with_reducible apply view_ite
    | split
    | simp (disch := decide) only [↓trimAbortCmd_view]

theorem execTrimTimeout_view {m : Nat} (h : P.event ||| P.banks ||| P.chs ||| P.points ||| P.axes ||| m = m) (a1) (s : State) {t} (e : execTrimTimeout a1 s = .next t) : view m t = view m s := by
  refine view_mono h ?_
  unfold execTrimTimeout at e
  obtain rfl := Host.Outcome.next.inj e
  repeat' first
    | with_reducible rfl
    | with_reducible apply view_ite
    | split
    | simp (disch := decide) only [↓trimTimeoutCmd_view]

end Sys2Proof.Laws
end

