-- ==== Sys2Proof/Laws/Frame/Time.lean ====
section
/-! SUPPORT. Frame laws of Sys2Proof/Machine/Time.lean: for each operation, the parts of the state outside which it
changes nothing. -/

namespace Sys2Proof.Laws

open Sys2Proof.Machine

@[simp ↓] theorem countTx_view {m : Nat} (h : P.mmp ||| m = m) (a1) (s : State) : view m (countTx a1 s) = view m s := by
  refine view_mono h ?_
  unfold countTx
  try dsimp only
  repeat' first
    | with_reducible rfl
    | with_reducible apply view_ite
    | split
    | simp (disch := decide) only [↓setMmp_view]

@[simp ↓] theorem ownFrame_view {m : Nat} (h : P.mmp ||| m = m) (s : State) : view m (ownFrame s) = view m s := by
  refine view_mono h ?_
  unfold ownFrame
  try dsimp only
  repeat' first
    | with_reducible rfl
    | with_reducible apply view_ite
    | split
    | simp (disch := decide) only [↓countTx_view, ↓setMmp_view]

@[simp ↓] theorem send_view {m : Nat} (h : P.mmp ||| m = m) (a1) (s : State) : view m (send a1 s) = view m s := by
  refine view_mono h ?_
  unfold send
  try dsimp only
  repeat' first
    | with_reducible rfl
    | with_reducible apply view_ite
    | split
    | simp (disch := decide) only [↓setMmp_view, ↓countTx_view, ↓ownFrame_view]

@[simp ↓] theorem setLink_view {m : Nat} (h : P.tu ||| m = m) (a1) (a2) (s : State) : view m (setLink a1 a2 s) = view m s := by
  refine view_mono h ?_
  unfold setLink
  try dsimp only
  repeat' first
    | with_reducible rfl
    | with_reducible apply view_ite
    | split
    | simp (disch := decide) only [↓setTu_view]

@[simp ↓] theorem setUnit_view {m : Nat} (h : P.tu ||| m = m) (a1) (a2) (s : State) : view m (setUnit a1 a2 s) = view m s := by
  refine view_mono h ?_
  unfold setUnit
  try dsimp only
  repeat' first
    | with_reducible rfl
    | with_reducible apply view_ite
    | split
    | simp (disch := decide) only [↓setTu_view]

@[simp ↓] theorem fireUnit_view {m : Nat} (h : P.event ||| P.tu ||| m = m) (a1) (a2) (a3) (s : State) : view m (fireUnit a1 a2 a3 s) = view m s := by
  refine view_mono h ?_
  unfold fireUnit
  try dsimp only
  repeat' first
    | with_reducible rfl
    | with_reducible apply view_ite
    | split
    | simp (disch := decide) only [↓raiseN_view, ↓setTu_view, ↓setUnit_view]

@[simp ↓] theorem armUnit_view {m : Nat} (h : P.event ||| P.tu ||| m = m) (a1) (s : State) : view m (armUnit a1 s) = view m s := by
  refine view_mono h ?_
  unfold armUnit
  try dsimp only
  repeat' first
    | with_reducible rfl
    | with_reducible apply view_ite
    | split
    | simp (disch := decide) only [↓setUnit_view, ↓fireUnit_view]

@[simp ↓] theorem unitsAfterStep_view {m : Nat} (h : P.event ||| P.tu ||| m = m) (s : State) : view m (unitsAfterStep s) = view m s := by
  refine view_mono h ?_
  unfold unitsAfterStep
  try dsimp only
  repeat' first
    | with_reducible rfl
    | with_reducible apply view_ite
    | split
    | simp (disch := decide) only [↓fireUnit_view]
    | with_reducible refine (forRange_keeps (view _) (fun _ _ => ?_) _).trans ?_

@[simp ↓] theorem matchArm_view {m : Nat} (h : P.event ||| P.tu ||| m = m) (a1) (a2) (s : State) : view m (matchArm a1 a2 s) = view m s := by
  refine view_mono h ?_
  unfold matchArm
  try dsimp only
  repeat' first
    | with_reducible rfl
    | with_reducible apply view_ite
    | split
    | simp (disch := decide) only [↓armUnit_view]

@[simp ↓] theorem matchReached_view {m : Nat} (h : P.event ||| P.tu ||| m = m) (a1) (s : State) : view m (matchReached a1 s) = view m s := by
  refine view_mono h ?_
  unfold matchReached
  try dsimp only
  repeat' first
    | with_reducible rfl
    | with_reducible apply view_ite
    | split
    | simp (disch := decide) only [↓fireUnit_view]

@[simp ↓] theorem adjust_view {m : Nat} (h : P.tu ||| P.freeCount ||| m = m) (a1) (s : State) : view m (adjust a1 s) = view m s := by
  refine view_mono h ?_
  unfold adjust
  try dsimp only
  repeat' first
    | with_reducible rfl
    | with_reducible apply view_ite
    | split
    | simp (disch := decide) only [↓view_tu_freeCount]

@[simp ↓] theorem stepTime_view {m : Nat} (h : P.event ||| P.tu ||| m = m) (a1) (s : State) : view m (stepTime a1 s) = view m s := by
  refine view_mono h ?_
  unfold stepTime
  try dsimp only
  repeat' first
    | with_reducible rfl
    | with_reducible apply view_ite
    | split
    | simp (disch := decide) only [↓setTu_view, ↓unitsAfterStep_view, ↓raiseN_view]

@[simp ↓] theorem servoSync_view {m : Nat} (h : P.event ||| P.tu ||| P.freeCount ||| m = m) (a1) (s : State) : view m (servoSync a1 s) = view m s := by
  refine view_mono h ?_
  unfold servoSync
  try dsimp only
  repeat' first
    | with_reducible rfl
    | with_reducible apply view_ite
    | split
    | simp (disch := decide) only [↓setTu_view, ↓stepTime_view, ↓raiseN_view, ↓adjust_view]

@[simp ↓] theorem updatePort_view {m : Nat} (h : P.event ||| P.tu ||| m = m) (s : State) : view m (updatePort s) = view m s := by
  refine view_mono h ?_
  unfold updatePort
  try dsimp only
  repeat' first
    | with_reducible rfl
    | with_reducible apply view_ite
    | split
    | simp (disch := decide) only [↓raiseIf_view, ↓setTu_view]

@[simp ↓] theorem syncIn_view {m : Nat} (h : P.event ||| P.tu ||| P.freeCount ||| m = m) (a1) (s : State) : view m (syncIn a1 s) = view m s := by
  refine view_mono h ?_
  unfold syncIn
  try dsimp only
  repeat' first
    | with_reducible rfl
    | with_reducible apply view_ite
    | split
    | simp (disch := decide) only [↓setLink_view, ↓updatePort_view, ↓servoSync_view]

@[simp ↓] theorem holdover_view {m : Nat} (h : P.event ||| P.tu ||| m = m) (s : State) : view m (holdover s) = view m s := by
  refine view_mono h ?_
  unfold holdover
  try dsimp only
  repeat' first
    | with_reducible rfl
    | with_reducible apply view_ite
    | split
    | simp (disch := decide) only [↓raiseN_view, ↓setTu_view]

@[simp ↓] theorem announceIn_view {m : Nat} (h : P.event ||| P.tu ||| m = m) (a1) (s : State) : view m (announceIn a1 s) = view m s := by
  refine view_mono h ?_
  unfold announceIn
  try dsimp only
  repeat' first
    | with_reducible rfl
    | with_reducible apply view_ite
    | split
    | simp (disch := decide) only [↓setTu_view, ↓raiseIf_view]

@[simp ↓] theorem pdelayReqIn_view {m : Nat} (h : P.mmp ||| m = m) (a1) (a2) (a3) (a4) (a5) (s : State) : view m (pdelayReqIn a1 a2 a3 a4 a5 s) = view m s := by
  refine view_mono h ?_
  unfold pdelayReqIn
  try dsimp only
  repeat' first
    | with_reducible rfl
    | with_reducible apply view_ite
    | split
    | simp (disch := decide) only [↓send_view]

@[simp ↓] theorem linkLost_view {m : Nat} (h : P.event ||| P.tu ||| m = m) (a1) (s : State) : view m (linkLost a1 s) = view m s := by
  refine view_mono h ?_
  unfold linkLost
  try dsimp only
  repeat' first
    | with_reducible rfl
    | with_reducible apply view_ite
    | split
    | simp (disch := decide) only [↓updatePort_view, ↓raiseIf_view, ↓setLink_view]

@[simp ↓] theorem pdelayStart_view {m : Nat} (h : P.event ||| P.tu ||| P.mmpRest ||| m = m) (a1) (a2) (s : State) : view m (pdelayStart a1 a2 s) = view m s := by
  refine view_mono h ?_
  unfold pdelayStart
  try dsimp only
  repeat' first
    | with_reducible rfl
    | with_reducible apply view_ite
    | split
    | simp (disch := decide) only [↓setLink_view, ↓linkLost_view, ↓send_view]

@[simp ↓] theorem pdelayRespIn_view {m : Nat} (h : P.event ||| P.tu ||| m = m) (a1) (a2) (a3) (a4) (a5) (a6) (s : State) : view m (pdelayRespIn a1 a2 a3 a4 a5 a6 s) = view m s := by
  refine view_mono h ?_
  unfold pdelayRespIn
  try dsimp only
  repeat' first
    | with_reducible rfl
    | with_reducible apply view_ite
    | split
    | simp (disch := decide) only [↓setLink_view, ↓linkLost_view, ↓updatePort_view, ↓raiseN_view]

@[simp ↓] theorem followUpDrop_view {m : Nat} (h : P.event ||| P.tu ||| m = m) (a1) (a2) (s : State) : view m (followUpDrop a1 a2 s) = view m s := by
  refine view_mono h ?_
  unfold followUpDrop
  simp (disch := decide) only [↓setTu_view, ↓raiseN_view]

@[simp ↓] theorem followUpIn_view {m : Nat} (h : P.event ||| P.tu ||| P.mmpRest ||| m = m) (a1) (a2) (a3) (a4) (a5) (s : State) : view m (followUpIn a1 a2 a3 a4 a5 s) = view m s := by
  refine view_mono h ?_
  unfold followUpIn
  try dsimp only
  repeat' first
    | with_reducible rfl
    | with_reducible apply view_ite
    | split
    | simp (disch := decide) only [↓send_view, ↓setTu_view, ↓raiseN_view, ↓followUpDrop_view]

@[simp ↓] theorem twoStepFree_view {m : Nat} (h : P.tu ||| m = m) (a1) (a2) (a3) (s : State) : view m (twoStepFree a1 a2 a3 s) = view m s := by
  refine view_mono h ?_
  unfold twoStepFree
  try dsimp only
  repeat' first
    | with_reducible rfl
    | with_reducible apply view_ite
    | split
    | simp (disch := decide) only [↓setTu_view]

@[simp ↓] theorem twoStepAdd_view {m : Nat} (h : P.tu ||| m = m) (a1) (s : State) : view m (twoStepAdd a1 s) = view m s := by
  refine view_mono h ?_
  unfold twoStepAdd
  try dsimp only
  repeat' first
    | with_reducible rfl
    | with_reducible apply view_ite
    | split
    | simp (disch := decide) only [↓setTu_view]

@[simp ↓] theorem noteResidence_view {m : Nat} (h : P.tu ||| m = m) (a1) (s : State) : view m (noteResidence a1 s) = view m s := by
  refine view_mono h ?_
  unfold noteResidence
  simp (disch := decide) only [↓setTu_view]

@[simp ↓] theorem ptpOut_view {m : Nat} (h : P.event ||| P.tu ||| P.mmpRest ||| m = m) (a1) (a2) (a3) (s : State) : view m (ptpOut a1 a2 a3 s) = view m s := by
  refine view_mono h ?_
  unfold ptpOut
  try dsimp only
  repeat' first
    | with_reducible rfl
    | with_reducible apply view_ite
    | split
    | simp (disch := decide) only [↓send_view, ↓setTu_view, ↓twoStepAdd_view, ↓noteResidence_view]

@[simp ↓] theorem canrel_view {m : Nat} (h : P.tu ||| m = m) (s : State) : view m (canrel s) = view m s := by
  refine view_mono h ?_
  unfold canrel
  try dsimp only
  repeat' first
    | with_reducible rfl
    | with_reducible apply view_ite
    | split
    | simp (disch := decide) only [↓setTu_view]

@[simp ↓] theorem latchTime_view {m : Nat} (h : P.tu ||| m = m) (s : State) : view m (latchTime s) = view m s := by
  refine view_mono h ?_
  unfold latchTime
  try dsimp only
  repeat' first
    | with_reducible rfl
    | with_reducible apply view_ite
    | split
    | simp (disch := decide) only [↓setTu_view]

@[simp ↓] theorem capWrite_view {m : Nat} (h : P.event ||| P.tu ||| m = m) (a1) (a2) (s : State) : view m (capWrite a1 a2 s) = view m s := by
  refine view_mono h ?_
  unfold capWrite
  try dsimp only
  repeat' first
    | with_reducible rfl
    | with_reducible apply view_ite
    | split
    | simp (disch := decide) only [↓setTu_view, ↓raiseIf_view, ↓raiseAt_view]

@[simp ↓] theorem capture_view {m : Nat} (h : P.event ||| P.tu ||| m = m) (a1) (s : State) : view m (capture a1 s) = view m s := by
  refine view_mono h ?_
  unfold capture
  try dsimp only
  repeat' first
    | with_reducible rfl
    | with_reducible apply view_ite
    | split
    | simp (disch := decide) only [↓capWrite_view]

@[simp ↓] theorem fifoDump_view {m : Nat} (h : P.tu ||| m = m) (s : State) : view m (fifoDump s) = view m s := by
  refine view_mono h ?_
  unfold fifoDump
  try dsimp only
  repeat' first
    | with_reducible rfl
    | with_reducible apply view_ite
    | split
    | simp (disch := decide) only [↓setTu_view]

@[simp ↓] theorem resetTime_view {m : Nat} (h : P.tu ||| m = m) (s : State) : view m (resetTime s) = view m s := by
  refine view_mono h ?_
  unfold resetTime
  try dsimp only
  repeat' first
    | with_reducible rfl
    | with_reducible apply view_ite
    | split
    | simp (disch := decide) only [↓setTu_view, ↓fifoDump_view]

theorem execSync_view {m : Nat} (h : P.event ||| P.tu ||| P.freeCount ||| m = m) (a1) (s : State) {t} (e : execSync a1 s = .next t) : view m t = view m s := by
  refine view_mono h ?_
  unfold execSync at e
  obtain rfl := Host.Outcome.next.inj e
  repeat' first
    | with_reducible rfl
    | with_reducible apply view_ite
    | split
    | simp (disch := decide) only [↓syncIn_view]

theorem execTuHoldover_view {m : Nat} (h : P.event ||| P.tu ||| m = m) (s : State) {t} (e : execTuHoldover s = .next t) : view m t = view m s := by
  refine view_mono h ?_
  unfold execTuHoldover at e
  obtain rfl := Host.Outcome.next.inj e
  repeat' first
    | with_reducible rfl
    | with_reducible apply view_ite
    | split
    | simp (disch := decide) only [↓holdover_view]

theorem execAnnounce_view {m : Nat} (h : P.event ||| P.tu ||| m = m) (a1) (s : State) {t} (e : execAnnounce a1 s = .next t) : view m t = view m s := by
  refine view_mono h ?_
  unfold execAnnounce at e
  obtain rfl := Host.Outcome.next.inj e
  repeat' first
    | with_reducible rfl
    | with_reducible apply view_ite
    | split
    | simp (disch := decide) only [↓announceIn_view]

theorem execFollowUp_view {m : Nat} (h : P.event ||| P.tu ||| P.mmpRest ||| m = m) (a1) (a2) (a3) (a4) (a5) (s : State) {t} (e : execFollowUp a1 a2 a3 a4 a5 s = .next t) : view m t = view m s := by
  refine view_mono h ?_
  unfold execFollowUp at e
  obtain rfl := Host.Outcome.next.inj e
  repeat' first
    | with_reducible rfl
    | with_reducible apply view_ite
    | split
    | simp (disch := decide) only [↓followUpIn_view]

theorem execTwoStepExpiry_view {m : Nat} (h : P.tu ||| m = m) (a1) (a2) (a3) (s : State) {t} (e : execTwoStepExpiry a1 a2 a3 s = .next t) : view m t = view m s := by
  refine view_mono h ?_
  unfold execTwoStepExpiry at e
  obtain rfl := Host.Outcome.next.inj e
  repeat' first
    | with_reducible rfl
    | with_reducible apply view_ite
    | split
    | simp (disch := decide) only [↓twoStepFree_view]

theorem execPdelayReq_view {m : Nat} (h : P.mmp ||| m = m) (a1) (a2) (a3) (a4) (a5) (s : State) {t} (e : execPdelayReq a1 a2 a3 a4 a5 s = .next t) : view m t = view m s := by
  refine view_mono h ?_
  unfold execPdelayReq at e
  obtain rfl := Host.Outcome.next.inj e
  repeat' first
    | with_reducible rfl
    | with_reducible apply view_ite
    | split
    | simp (disch := decide) only [↓pdelayReqIn_view]

theorem execPdelayMeasurement_view {m : Nat} (h : P.event ||| P.tu ||| P.mmpRest ||| m = m) (a1) (a2) (s : State) {t} (e : execPdelayMeasurement a1 a2 s = .next t) : view m t = view m s := by
  refine view_mono h ?_
  unfold execPdelayMeasurement at e
  obtain rfl := Host.Outcome.next.inj e
  repeat' first
    | with_reducible rfl
    | with_reducible apply view_ite
    | split
    | simp (disch := decide) only [↓pdelayStart_view]

theorem execPdelayResp_view {m : Nat} (h : P.event ||| P.tu ||| m = m) (a1) (a2) (a3) (a4) (a5) (a6) (s : State) {t} (e : execPdelayResp a1 a2 a3 a4 a5 a6 s = .next t) : view m t = view m s := by
  refine view_mono h ?_
  unfold execPdelayResp at e
  obtain rfl := Host.Outcome.next.inj e
  repeat' first
    | with_reducible rfl
    | with_reducible apply view_ite
    | split
    | simp (disch := decide) only [↓pdelayRespIn_view]

theorem execCanrelCapture_view {m : Nat} (h : P.tu ||| m = m) (s : State) {t} (e : execCanrelCapture s = .next t) : view m t = view m s := by
  refine view_mono h ?_
  unfold execCanrelCapture at e
  obtain rfl := Host.Outcome.next.inj e
  repeat' first
    | with_reducible rfl
    | with_reducible apply view_ite
    | split
    | simp (disch := decide) only [↓canrel_view]

theorem execMatchArm_view {m : Nat} (h : P.event ||| P.tu ||| m = m) (a1) (a2) (s : State) {t} (e : execMatchArm a1 a2 s = .next t) : view m t = view m s := by
  refine view_mono h ?_
  unfold execMatchArm at e
  obtain rfl := Host.Outcome.next.inj e
  repeat' first
    | with_reducible rfl
    | with_reducible apply view_ite
    | split
    | simp (disch := decide) only [↓matchArm_view]

theorem execTuMatch_view {m : Nat} (h : P.event ||| P.tu ||| m = m) (a1) (s : State) {t} (e : execTuMatch a1 s = .next t) : view m t = view m s := by
  refine view_mono h ?_
  unfold execTuMatch at e
  obtain rfl := Host.Outcome.next.inj e
  repeat' first
    | with_reducible rfl
    | with_reducible apply view_ite
    | split
    | simp (disch := decide) only [↓matchReached_view]

theorem execTimeLoRead_view {m : Nat} (h : P.tu ||| m = m) (s : State) {t} (e : execTimeLoRead s = .next t) : view m t = view m s := by
  refine view_mono h ?_
  unfold execTimeLoRead at e
  obtain rfl := Host.Outcome.next.inj e
  repeat' first
    | with_reducible rfl
    | with_reducible apply view_ite
    | split
    | simp (disch := decide) only [↓latchTime_view]

theorem execFirstOutCapture_view {m : Nat} (h : P.event ||| P.tu ||| m = m) (a1) (s : State) {t} (e : execFirstOutCapture a1 s = .next t) : view m t = view m s := by
  refine view_mono h ?_
  unfold execFirstOutCapture at e
  obtain rfl := Host.Outcome.next.inj e
  repeat' first
    | with_reducible rfl
    | with_reducible apply view_ite
    | split
    | simp (disch := decide) only [↓capture_view]

end Sys2Proof.Laws
end

