-- ==== Sys2Proof/Laws/Frame/Unit.lean ====
section
/-! SUPPORT. Frame laws of Sys2Proof/Machine/Unit.lean: for each operation, the parts of the state outside which it
changes nothing. -/

namespace Sys2Proof.Laws

open Sys2Proof.Machine

@[simp ↓] theorem setDiv_view {m : Nat} (h : P.div ||| m = m) (s : State) (a2) (a3) : view m (State.setDiv s a2 a3) = view m s :=
  view_div h s _

@[simp ↓] theorem setTrx_view {m : Nat} (h : P.trx ||| m = m) (s : State) (a2) (a3) : view m (State.setTrx s a2 a3) = view m s :=
  view_trx h s _

@[simp ↓] theorem divPair_view {m : Nat} (h : P.event ||| P.div ||| m = m) (a1) (a2) (s : State) : view m (divPair a1 a2 s) = view m s := by
  refine view_mono h ?_
  unfold divPair
  try dsimp only
  repeat' first
    | with_reducible rfl
    | with_reducible apply view_ite
    | split
    | simp (disch := decide) only [↓setDiv_view, ↓raiseN_view]

@[simp ↓] theorem divBump_view {m : Nat} (h : P.event ||| P.div ||| m = m) (a1) (a2) (a3) (s : State) : view m (divBump a1 a2 a3 s) = view m s := by
  refine view_mono h ?_
  unfold divBump
  try dsimp only
  repeat' first
    | with_reducible rfl
    | with_reducible apply view_ite
    | split
    | simp (disch := decide) only [↓raiseN_view, ↓setDiv_view]

@[simp ↓] theorem unitEqual_view {m : Nat} (h : P.event ||| P.div ||| m = m) (a1) (a2) (a3) (s : State) : view m (unitEqual a1 a2 a3 s) = view m s := by
  refine view_mono h ?_
  unfold unitEqual
  try dsimp only
  repeat' first
    | with_reducible rfl
    | with_reducible apply view_ite
    | split
    | simp (disch := decide) only [↓divBump_view, ↓divPair_view, ↓setDiv_view]
    | with_reducible refine (forAll_keeps (view _) (fun _ _ => ?_) _).trans ?_

end Sys2Proof.Laws
end

