-- ==== Sys2Proof/Laws/Frame/Logic.lean ====
section
/-! SUPPORT. Frame laws of Sys2Proof/Machine/Logic.lean: for each operation, the parts of the state outside which it
changes nothing. -/

namespace Sys2Proof.Laws

open Sys2Proof.Machine

@[simp ↓] theorem setTask_view {m : Nat} (h : P.logic ||| m = m) (s : State) (a2) (a3) : view m (State.setTask s a2 a3) = view m s := by
  refine view_mono h ?_
  unfold State.setTask
  try dsimp only
  repeat' first
    | with_reducible rfl
    | with_reducible apply view_ite
    | split
    | simp (disch := decide) only [↓setLogic_view]

@[simp ↓] theorem raiseLe_view {m : Nat} (h : P.event ||| m = m) (a1) (a2) (s : State) : view m (raiseLe a1 a2 s) = view m s := by
  refine view_mono h ?_
  unfold raiseLe
  try dsimp only
  repeat' first
    | with_reducible rfl
    | with_reducible apply view_ite
    | split
    | simp (disch := decide) only [↓raiseN_view]

@[simp ↓] theorem resumeChosen_view {m : Nat} (h : P.logic ||| m = m) (s : State) : view m (resumeChosen s) = view m s := by
  refine view_mono h ?_
  unfold resumeChosen
  try dsimp only
  repeat' first
    | with_reducible rfl
    | with_reducible apply view_ite
    | split
    | simp (disch := decide) only [↓setTask_view]

@[simp ↓] theorem makeReady_view {m : Nat} (h : P.logic ||| m = m) (a1) (a2) (s : State) : view m (makeReady a1 a2 s) = view m s := by
  refine view_mono h ?_
  unfold makeReady
  try dsimp only
  repeat' first
    | with_reducible rfl
    | with_reducible apply view_ite
    | split
    | simp (disch := decide) only [↓setTask_view]

@[simp ↓] theorem releaseTask_view {m : Nat} (h : P.event ||| P.logic ||| m = m) (a1) (a2) (s : State) : view m (releaseTask a1 a2 s) = view m s := by
  refine view_mono h ?_
  unfold releaseTask
  try dsimp only
  repeat' first
    | with_reducible rfl
    | with_reducible apply view_ite
    | split
    | simp (disch := decide) only [↓setTask_view, ↓makeReady_view, ↓raiseLe_view]

@[simp ↓] theorem wakeEvent_view {m : Nat} (h : P.logic ||| m = m) (a1) (s : State) : view m (wakeEvent a1 s) = view m s := by
  refine view_mono h ?_
  unfold wakeEvent
  try dsimp only
  repeat' first
    | with_reducible rfl
    | with_reducible apply view_ite
    | split
    | simp (disch := decide) only [↓makeReady_view]

@[simp ↓] theorem resumeReleases_view {m : Nat} (h : P.logic ||| m = m) (s : State) : view m (resumeReleases s) = view m s := by
  refine view_mono h ?_
  unfold resumeReleases
  try dsimp only
  repeat' first
    | with_reducible rfl
    | with_reducible apply view_ite
    | split
    | simp (disch := decide) only [↓makeReady_view, ↓wakeEvent_view, ↓setLogic_view]
    | with_reducible refine (forRange_keeps (view _) (fun _ _ => ?_) _).trans ?_

@[simp ↓] theorem forceBegin_view {m : Nat} (h : P.chs ||| P.points ||| P.axes ||| m = m) (a1) (s : State) : view m (forceBegin a1 s) = view m s := by
  refine view_mono h ?_
  unfold forceBegin
  try dsimp only
  repeat' first
    | with_reducible rfl
    | with_reducible apply view_ite
    | split
    | simp (disch := decide) only [↓wdSuspend_view]

@[simp ↓] theorem forceEnd_view {m : Nat} (h : P.chs ||| P.points ||| P.axes ||| m = m) (a1) (s : State) : view m (forceEnd a1 s) = view m s := by
  refine view_mono h ?_
  unfold forceEnd
  try dsimp only
  repeat' first
    | with_reducible rfl
    | with_reducible apply view_ite
    | split
    | simp (disch := decide) only [↓wdRestart_view, ↓driveOut_view]

@[simp ↓] theorem forceTick_view {m : Nat} (h : P.chs ||| P.points ||| P.logic ||| P.axes ||| m = m) (s : State) : view m (forceTick s) = view m s := by
  refine view_mono h ?_
  unfold forceTick
  try dsimp only
  repeat' first
    | with_reducible rfl
    | with_reducible apply view_ite
    | split
    | simp (disch := decide) only [↓setLogic_view, ↓forceEnd_view, ↓forceBegin_view, ↓driveOut_view]
    | with_reducible refine (forRange_keeps (view _) (fun _ _ => ?_) _).trans ?_

@[simp ↓] theorem baseTick_view {m : Nat} (h : P.event ||| P.pegRest ||| P.chs ||| P.points ||| P.logic ||| P.axes ||| m = m) (s : State) : view m (baseTick s) = view m s := by
  refine view_mono h ?_
  unfold baseTick
  try dsimp only
  repeat' first
    | with_reducible rfl
    | with_reducible apply view_ite
    | with_reducible refine (setPeg_view (by decide) _ _ ?_).trans ?_
    | split
    | simp (disch := decide) only [↓resumeReleases_view, ↓setLogic_view, ↓forceTick_view, ↓releaseTask_view]
    | with_reducible refine (forAll_keeps (view _) (fun _ _ => ?_) _).trans ?_

@[simp ↓] theorem enqueue_view {m : Nat} (h : P.event ||| P.logic ||| m = m) (a1) (a2) (s : State) : view m (enqueue a1 a2 s) = view m s := by
  refine view_mono h ?_
  unfold enqueue
  try dsimp only
  repeat' first
    | with_reducible rfl
    | with_reducible apply view_ite
    | split
    | simp (disch := decide) only [↓setTask_view, ↓raiseIf_view, ↓wakeEvent_view]

@[simp ↓] theorem offerEvent_view {m : Nat} (h : P.event ||| P.logic ||| m = m) (a1) (s : State) : view m (offerEvent a1 s) = view m s := by
  refine view_mono h ?_
  unfold offerEvent
  try dsimp only
  repeat' first
    | with_reducible rfl
    | with_reducible apply view_ite
    | split
    | simp (disch := decide) only [↓enqueue_view]
    | with_reducible refine (forAll_keeps (view _) (fun _ _ => ?_) _).trans ?_

@[simp ↓] theorem offerCapture_view {m : Nat} (h : P.event ||| P.logic ||| m = m) (a1) (s : State) : view m (offerCapture a1 s) = view m s := by
  refine view_mono h ?_
  unfold offerCapture
  try dsimp only
  repeat' first
    | with_reducible rfl
    | with_reducible apply view_ite
    | split
    | simp (disch := decide) only [↓enqueue_view]
    | with_reducible refine (forAll_keeps (view _) (fun _ _ => ?_) _).trans ?_

@[simp ↓] theorem takeEvent_view {m : Nat} (h : P.event ||| P.logic ||| m = m) (s : State) : view m (takeEvent s) = view m s := by
  refine view_mono h ?_
  unfold takeEvent
  try dsimp only
  repeat' first
    | with_reducible rfl
    | with_reducible apply view_ite
    | split
    | simp (disch := decide) only [↓offerEvent_view, ↓view_taskInbox]

@[simp ↓] theorem takeCapture_view {m : Nat} (h : P.event ||| P.tu ||| P.logic ||| m = m) (s : State) : view m (takeCapture s) = view m s := by
  refine view_mono h ?_
  unfold takeCapture
  try dsimp only
  repeat' first
    | with_reducible rfl
    | with_reducible apply view_ite
    | split
    | simp (disch := decide) only [↓setTu_view, ↓offerCapture_view]

@[simp ↓] theorem startInstance_view {m : Nat} (h : P.logic ||| m = m) (a1) (a2) (s : State) : view m (startInstance a1 a2 s) = view m s := by
  refine view_mono h ?_
  unfold startInstance
  try dsimp only
  repeat' first
    | with_reducible rfl
    | with_reducible apply view_ite
    | split
    | simp (disch := decide) only [↓setTask_view]
    | with_reducible refine (forAll_keeps (view _) (fun _ _ => ?_) _).trans ?_

@[simp ↓] theorem startBackground_view {m : Nat} (h : P.logic ||| m = m) (s : State) : view m (startBackground s) = view m s := by
  refine view_mono h ?_
  unfold startBackground
  try dsimp only
  repeat' first
    | with_reducible rfl
    | with_reducible apply view_ite
    | split
    | simp (disch := decide) only [↓setLogic_view, ↓makeReady_view]

@[simp ↓] theorem softEvents_view {m : Nat} (h : P.event ||| P.logic ||| m = m) (n : Nat) (l : List SoftEvent) (k : Nat) (d : Bool) (s : State) : view m (softEvents n l k d s) = view m s := by
  refine view_mono h ?_
  induction l generalizing k d s with
  | nil => rfl
  | cons _ _ ih =>
    unfold softEvents
    try dsimp only
    repeat' first
      | with_reducible rfl
      | with_reducible apply view_ite
      | refine (ih _ _ _).trans ?_
      | split
      | simp (disch := decide) only [↓setLogic_view, ↓raiseN_view, ↓raiseIf_view]

@[simp ↓] theorem taskOut_view {m : Nat} (h : P.event ||| P.chs ||| P.points ||| P.logic ||| P.axes ||| P.pi ||| m = m) (a1) (a2) (a3) (s : State) : view m (taskOut a1 a2 a3 s) = view m s := by
  refine view_mono h ?_
  unfold taskOut
  try dsimp only
  repeat' first
    | with_reducible rfl
    | with_reducible apply view_ite
    | split
    | simp (disch := decide) only [↓writeOut_view, ↓raiseLe_view, ↓setLogic_view]

@[simp ↓] theorem taskVar_view {m : Nat} (h : P.logic ||| m = m) (a1) (a2) (s : State) : view m (taskVar a1 a2 s) = view m s := by
  refine view_mono h ?_
  unfold taskVar
  try dsimp only
  repeat' first
    | with_reducible rfl
    | with_reducible apply view_ite
    | split
    | simp (disch := decide) only [↓setLogic_view]

@[simp ↓] theorem endInstance_view {m : Nat} (h : P.logic ||| m = m) (a1) (s : State) : view m (endInstance a1 s) = view m s := by
  refine view_mono h ?_
  unfold endInstance
  try dsimp only
  repeat' first
    | with_reducible rfl
    | with_reducible apply view_ite
    | split
    | simp (disch := decide) only [↓setTask_view, ↓setLogic_view, ↓makeReady_view, ↓wakeEvent_view, ↓resumeChosen_view]

@[simp ↓] theorem releaseInstance_view {m : Nat} (h : P.event ||| P.chs ||| P.points ||| P.logic ||| P.div ||| P.axes ||| P.pi ||| m = m) (a1) (a2) (s : State) : view m (releaseInstance a1 a2 s) = view m s := by
  refine view_mono h ?_
  unfold releaseInstance
  try dsimp only
  repeat' first
    | with_reducible rfl
    | with_reducible apply view_ite
    | split
    | simp (disch := decide) only [↓unitEqual_view, ↓instanceDone_view, ↓taskOut_view, ↓taskVar_view, ↓softEvents_view, ↓setTask_view, ↓endInstance_view, ↓setLogic_view]
    | with_reducible refine (forAll_keeps (view _) (fun _ _ => ?_) _).trans ?_

@[simp ↓] theorem taskFault_view {m : Nat} (h : P.event ||| P.chs ||| P.points ||| P.logic ||| P.axes ||| m = m) (a1) (a2) (s : State) : view m (taskFault a1 a2 s) = view m s := by
  refine view_mono h ?_
  unfold taskFault
  try dsimp only
  repeat' first
    | with_reducible rfl
    | with_reducible apply view_ite
    | split
    | simp (disch := decide) only [↓setTask_view, ↓setLogic_view, ↓resumeChosen_view, ↓raiseLe_view, ↓writerFault_view]

@[simp ↓] theorem clearLocals_view {m : Nat} (h : P.logic ||| m = m) (a1) (s : State) : view m (clearLocals a1 s) = view m s := by
  refine view_mono h ?_
  unfold clearLocals
  try dsimp only
  repeat' first
    | with_reducible rfl
    | with_reducible apply view_ite
    | split
    | simp (disch := decide) only [↓setLogic_view]

@[simp ↓] theorem leResult_view {m : Nat} (h : P.logic ||| m = m) (a1) (a2) (s : State) : view m (leResult a1 a2 s) = view m s := by
  refine view_mono h ?_
  unfold leResult
  try dsimp only
  repeat' first
    | with_reducible rfl
    | with_reducible apply view_ite
    | split
    | simp (disch := decide) only [↓setLogic_view]

@[simp ↓] theorem taskRestart_view {m : Nat} (h : P.event ||| P.logic ||| m = m) (a1) (a2) (s : State) : view m (taskRestart a1 a2 s) = view m s := by
  refine view_mono h ?_
  unfold taskRestart
  try dsimp only
  repeat' first
    | with_reducible rfl
    | with_reducible apply view_ite
    | split
    | simp (disch := decide) only [↓leResult_view, ↓clearLocals_view, ↓setTask_view, ↓raise_view]

@[simp ↓] theorem stopTasks_view {m : Nat} (h : P.logic ||| m = m) (s : State) : view m (stopTasks s) = view m s := by
  refine view_mono h ?_
  unfold stopTasks
  try dsimp only
  repeat' first
    | with_reducible rfl
    | with_reducible apply view_ite
    | split
    | simp (disch := decide) only [↓setLogic_view]

@[simp ↓] theorem resetLogic_view {m : Nat} (h : P.logic ||| m = m) (s : State) : view m (resetLogic s) = view m s := by
  refine view_mono h ?_
  unfold resetLogic
  try dsimp only
  repeat' first
    | with_reducible rfl
    | with_reducible apply view_ite
    | split
    | simp (disch := decide) only [↓setLogic_view, ↓stopTasks_view]

@[simp ↓] theorem switchLogic_view {m : Nat} (h : P.logic ||| m = m) (a1) (s : State) : view m (switchLogic a1 s) = view m s := by
  refine view_mono h ?_
  unfold switchLogic
  try dsimp only
  repeat' first
    | with_reducible rfl
    | with_reducible apply view_ite
    | split
    | simp (disch := decide) only [↓setTask_view, ↓clearLocals_view, ↓setLogic_view]
    | with_reducible refine (forAll_keeps (view _) (fun _ _ => ?_) _).trans ?_
    | with_reducible refine (forRange_keeps (view _) (fun _ _ => ?_) _).trans ?_

theorem execEventTaskItem_view {m : Nat} (h : P.event ||| P.tu ||| P.logic ||| m = m) (a1) (s : State) {t} (e : execEventTaskItem a1 s = .next t) : view m t = view m s := by
  refine view_mono h ?_
  unfold execEventTaskItem at e
  obtain rfl := Host.Outcome.next.inj e
  repeat' first
    | with_reducible rfl
    | with_reducible apply view_ite
    | split
    | simp (disch := decide) only [↓takeEvent_view, ↓takeCapture_view]

theorem execTaskInstanceStart_view {m : Nat} (h : P.logic ||| m = m) (a1) (a2) (s : State) {t} (e : execTaskInstanceStart a1 a2 s = .next t) : view m t = view m s := by
  refine view_mono h ?_
  unfold execTaskInstanceStart at e
  obtain rfl := Host.Outcome.next.inj e
  repeat' first
    | with_reducible rfl
    | with_reducible apply view_ite
    | split
    | simp (disch := decide) only [↓startInstance_view]

theorem execBackgroundCycleStart_view {m : Nat} (h : P.logic ||| m = m) (s : State) {t} (e : execBackgroundCycleStart s = .next t) : view m t = view m s := by
  refine view_mono h ?_
  unfold execBackgroundCycleStart at e
  obtain rfl := Host.Outcome.next.inj e
  repeat' first
    | with_reducible rfl
    | with_reducible apply view_ite
    | split
    | simp (disch := decide) only [↓startBackground_view]

theorem execTaskRelease_view {m : Nat} (h : P.event ||| P.chs ||| P.points ||| P.logic ||| P.div ||| P.axes ||| P.pi ||| m = m) (a1) (a2) (s : State) {t} (e : execTaskRelease a1 a2 s = .next t) : view m t = view m s := by
  refine view_mono h ?_
  unfold execTaskRelease at e
  obtain rfl := Host.Outcome.next.inj e
  repeat' first
    | with_reducible rfl
    | with_reducible apply view_ite
    | split
    | simp (disch := decide) only [↓releaseInstance_view]

theorem execRunTimeError_view {m : Nat} (h : P.event ||| P.chs ||| P.points ||| P.logic ||| P.axes ||| m = m) (a1) (s : State) {t} (e : execRunTimeError a1 s = .next t) : view m t = view m s := by
  refine view_mono h ?_
  unfold execRunTimeError at e
  obtain rfl := Host.Outcome.next.inj e
  repeat' first
    | with_reducible rfl
    | with_reducible apply view_ite
    | split
    | simp (disch := decide) only [↓taskFault_view]

theorem execBackgroundWatchdog_view {m : Nat} (h : P.event ||| P.chs ||| P.points ||| P.logic ||| P.axes ||| m = m) (s : State) {t} (e : execBackgroundWatchdog s = .next t) : view m t = view m s := by
  refine view_mono h ?_
  unfold execBackgroundWatchdog at e
  obtain rfl := Host.Outcome.next.inj e
  repeat' first
    | with_reducible rfl
    | with_reducible apply view_ite
    | split
    | simp (disch := decide) only [↓taskFault_view]

theorem execTaskRestart_view {m : Nat} (h : P.event ||| P.logic ||| m = m) (a1) (a2) (s : State) {t} (e : execTaskRestart a1 a2 s = .next t) : view m t = view m s := by
  refine view_mono h ?_
  unfold execTaskRestart at e
  obtain rfl := Host.Outcome.next.inj e
  repeat' first
    | with_reducible rfl
    | with_reducible apply view_ite
    | split
    | simp (disch := decide) only [↓taskRestart_view]

end Sys2Proof.Laws
end

