-- ==== Sys2Proof/Laws/Frame/Loop.lean ====
section
/-! SUPPORT. Frame laws of Sys2Proof/Machine/Loop.lean: for each operation, the parts of the state outside which it
changes nothing. -/

namespace Sys2Proof.Laws

open Sys2Proof.Machine

@[simp ↓] theorem setLoops_view {m : Nat} (h : P.loops ||| m = m) (s : State) (a2) : view m (State.setLoops s a2) = view m s :=
  view_loops h s _

@[simp ↓] theorem setLp_view {m : Nat} (h : P.loops ||| m = m) (s : State) (a2) (a3) : view m (State.setLp s a2 a3) = view m s := by
  refine view_mono h ?_
  unfold State.setLp
  try dsimp only
  repeat' first
    | with_reducible rfl
    | with_reducible apply view_ite
    | split
    | simp (disch := decide) only [↓setLoops_view]

@[simp ↓] theorem setTest_view {m : Nat} (h : P.loops ||| m = m) (s : State) (a2) : view m (State.setTest s a2) = view m s := by
  refine view_mono h ?_
  unfold State.setTest
  try dsimp only
  repeat' first
    | with_reducible rfl
    | with_reducible apply view_ite
    | split
    | simp (disch := decide) only [↓setLoops_view]

@[simp ↓] theorem raiseLoop_view {m : Nat} (h : P.event ||| m = m) (a1) (a2) (a3) (a4) (s : State) : view m (raiseLoop a1 a2 a3 a4 s) = view m s := by
  refine view_mono h ?_
  unfold raiseLoop
  try dsimp only
  repeat' first
    | with_reducible rfl
    | with_reducible apply view_ite
    | split
    | simp (disch := decide) only [↓raise_view]

@[simp ↓] theorem testEnd_view {m : Nat} (h : P.event ||| P.loops ||| m = m) (a1) (s : State) : view m (testEnd a1 s) = view m s := by
  refine view_mono h ?_
  unfold testEnd
  try dsimp only
  repeat' first
    | with_reducible rfl
    | with_reducible apply view_ite
    | split
    | simp (disch := decide) only [↓raiseLoop_view, ↓setTest_view]

@[simp ↓] theorem testEndOn_view {m : Nat} (h : P.event ||| P.loops ||| m = m) (a1) (a2) (s : State) : view m (testEndOn a1 a2 s) = view m s := by
  refine view_mono h ?_
  unfold testEndOn
  try dsimp only
  repeat' first
    | with_reducible rfl
    | with_reducible apply view_ite
    | split
    | simp (disch := decide) only [↓testEnd_view]

@[simp ↓] theorem testStart_view {m : Nat} (h : P.event ||| P.loops ||| m = m) (a1) (s : State) : view m (testStart a1 s) = view m s := by
  refine view_mono h ?_
  unfold testStart
  try dsimp only
  repeat' first
    | with_reducible rfl
    | with_reducible apply view_ite
    | split
    | simp (disch := decide) only [↓setTest_view, ↓raiseLoop_view]

@[simp ↓] theorem testStop_view {m : Nat} (h : P.event ||| P.loops ||| m = m) (a1) (s : State) : view m (testStop a1 s) = view m s := by
  refine view_mono h ?_
  unfold testStop
  try dsimp only
  repeat' first
    | with_reducible rfl
    | with_reducible apply view_ite
    | split
    | simp (disch := decide) only [↓testEnd_view]

@[simp ↓] theorem loopResult_view {m : Nat} (h : P.loops ||| m = m) (a1) (a2) (s : State) : view m (loopResult a1 a2 s) = view m s := by
  refine view_mono h ?_
  unfold loopResult
  try dsimp only
  repeat' first
    | with_reducible rfl
    | with_reducible apply view_ite
    | split
    | simp (disch := decide) only [↓setLoops_view]

@[simp ↓] theorem pushCmd_view {m : Nat} (h : P.loops ||| m = m) (a1) (a2) (s : State) : view m (pushCmd a1 a2 s) = view m s := by
  refine view_mono h ?_
  unfold pushCmd
  try dsimp only
  repeat' first
    | with_reducible rfl
    | with_reducible apply view_ite
    | split
    | simp (disch := decide) only [↓setLp_view]

@[simp ↓] theorem acceptMode_view {m : Nat} (h : P.event ||| P.loops ||| m = m) (a1) (a2) (a3) (a4) (s : State) : view m (acceptMode a1 a2 a3 a4 s) = view m s := by
  refine view_mono h ?_
  unfold acceptMode
  try dsimp only
  repeat' first
    | with_reducible rfl
    | with_reducible apply view_ite
    | split
    | simp (disch := decide) only [↓loopResult_view, ↓raiseLoop_view, ↓pushCmd_view]

theorem loopGate_view {m : Nat} (h : P.loops ||| m = m) (n : Nat) (r need : Role) (s : State) (k : State → State)
    (hk : view m (k s) = view m s) : view m (loopGate n r need s k) = view m s := by
  have hl : ∀ c, view m (loopResult c n s) = view m s := fun c => loopResult_view h c n s
  exact view_ite (hl _) (view_ite (hl _) (view_ite (hl _) (view_ite (hl _) hk)))

@[simp ↓] theorem lpTarget_view {m : Nat} (h : P.loops ||| m = m) (a1) (a2) (a3) (s : State) : view m (lpTarget a1 a2 a3 s) = view m s := by
  refine view_mono h ?_
  unfold lpTarget
  try dsimp only
  repeat' first
    | with_reducible rfl
    | with_reducible apply view_ite
    | split
    | simp (disch := decide) only [↓loopResult_view, ↓pushCmd_view]
    | with_reducible refine loopGate_view (by decide) _ _ _ _ _ ?_

@[simp ↓] theorem lpManv_view {m : Nat} (h : P.loops ||| m = m) (a1) (a2) (a3) (s : State) : view m (lpManv a1 a2 a3 s) = view m s := by
  refine view_mono h ?_
  unfold lpManv
  try dsimp only
  repeat' first
    | with_reducible rfl
    | with_reducible apply view_ite
    | split
    | simp (disch := decide) only [↓loopResult_view, ↓pushCmd_view]
    | with_reducible refine loopGate_view (by decide) _ _ _ _ _ ?_

@[simp ↓] theorem lpModeReq_view {m : Nat} (h : P.event ||| P.loops ||| m = m) (a1) (a2) (a3) (s : State) : view m (lpModeReq a1 a2 a3 s) = view m s := by
  refine view_mono h ?_
  unfold lpModeReq
  try dsimp only
  repeat' first
    | with_reducible rfl
    | with_reducible apply view_ite
    | split
    | simp (disch := decide) only [↓acceptMode_view]
    | with_reducible refine loopGate_view (by decide) _ _ _ _ _ ?_

@[simp ↓] theorem loopSwap_view {m : Nat} (h : P.loops ||| m = m) (a1) (a2) (s : State) : view m (loopSwap a1 a2 s) = view m s := by
  refine view_mono h ?_
  unfold loopSwap
  try dsimp only
  repeat' first
    | with_reducible rfl
    | with_reducible apply view_ite
    | split
    | simp (disch := decide) only [↓loopResult_view, ↓setLp_view]
    | with_reducible refine loopGate_view (by decide) _ _ _ _ _ ?_

@[simp ↓] theorem loopRestart_view {m : Nat} (h : P.loops ||| m = m) (a1) (a2) (s : State) : view m (loopRestart a1 a2 s) = view m s := by
  refine view_mono h ?_
  unfold loopRestart
  try dsimp only
  repeat' first
    | with_reducible rfl
    | with_reducible apply view_ite
    | split
    | simp (disch := decide) only [↓loopResult_view, ↓pushCmd_view]
    | with_reducible refine loopGate_view (by decide) _ _ _ _ _ ?_

@[simp ↓] theorem bankEdit_view {m : Nat} (h : P.event ||| P.loops ||| m = m) (a1) (a2) (a3) (a4) (a5) (s : State) : view m (bankEdit a1 a2 a3 a4 a5 s) = view m s := by
  refine view_mono h ?_
  unfold bankEdit
  try dsimp only
  repeat' first
    | with_reducible rfl
    | with_reducible apply view_ite
    | split
    | simp (disch := decide) only [↓loopResult_view, ↓raiseLoop_view, ↓setLp_view]
    | with_reducible refine loopGate_view (by decide) _ _ _ _ _ ?_

@[simp ↓] theorem releaseLoop_view {m : Nat} (h : P.event ||| P.loops ||| m = m) (a1) (s : State) : view m (releaseLoop a1 s) = view m s := by
  refine view_mono h ?_
  unfold releaseLoop
  try dsimp only
  repeat' first
    | with_reducible rfl
    | with_reducible apply view_ite
    | split
    | simp (disch := decide) only [↓setLp_view, ↓raiseLoop_view, ↓setLoops_view]

@[simp ↓] theorem resumeLoops_view {m : Nat} (h : P.event ||| P.loops ||| m = m) (s : State) : view m (resumeLoops s) = view m s := by
  refine view_mono h ?_
  unfold resumeLoops
  try dsimp only
  repeat' first
    | with_reducible rfl
    | with_reducible apply view_ite
    | split
    | simp (disch := decide) only [↓releaseLoop_view]
    | with_reducible refine (forAll_keeps (view _) (fun _ _ => ?_) _).trans ?_

@[simp ↓] theorem loopTick_view {m : Nat} (h : P.event ||| P.loops ||| m = m) (s : State) : view m (loopTick s) = view m s := by
  refine view_mono h ?_
  unfold loopTick
  try dsimp only
  repeat' first
    | with_reducible rfl
    | with_reducible apply view_ite
    | split
    | simp (disch := decide) only [↓setLoops_view, ↓releaseLoop_view]
    | with_reducible refine (forAll_keeps (view _) (fun _ _ => ?_) _).trans ?_

@[simp ↓] theorem takeCmd_view {m : Nat} (h : P.event ||| P.loops ||| m = m) (a1) (a2) (s : State) : view m (takeCmd a1 a2 s) = view m s := by
  refine view_mono h ?_
  unfold takeCmd
  try dsimp only
  repeat' first
    | with_reducible rfl
    | with_reducible apply view_ite
    | split
    | simp (disch := decide) only [↓setLp_view, ↓raiseLoop_view]

@[simp ↓] theorem takeCmds_view {m : Nat} (h : P.event ||| P.loops ||| m = m) (a1) (s : State) : view m (takeCmds a1 s) = view m s := by
  refine view_mono h ?_
  unfold takeCmds
  try dsimp only
  repeat' first
    | with_reducible rfl
    | with_reducible apply view_ite
    | split
    | simp (disch := decide) only [↓takeCmd_view, ↓setLp_view]
    | with_reducible refine (forAll_keeps (view _) (fun _ _ => ?_) _).trans ?_

@[simp ↓] theorem takeModeIn_view {m : Nat} (h : P.event ||| P.loops ||| m = m) (a1) (s : State) : view m (takeModeIn a1 s) = view m s := by
  refine view_mono h ?_
  unfold takeModeIn
  try dsimp only
  repeat' first
    | with_reducible rfl
    | with_reducible apply view_ite
    | split
    | simp (disch := decide) only [↓setLp_view, ↓loopResult_view, ↓takeCmd_view, ↓raiseLoop_view]

@[simp ↓] theorem takeSwap_view {m : Nat} (h : P.event ||| P.loops ||| m = m) (a1) (s : State) : view m (takeSwap a1 s) = view m s := by
  refine view_mono h ?_
  unfold takeSwap
  try dsimp only
  repeat' first
    | with_reducible rfl
    | with_reducible apply view_ite
    | split
    | simp (disch := decide) only [↓setLp_view, ↓raiseLoop_view]

@[simp ↓] theorem takeTrack_view {m : Nat} (h : P.loops ||| m = m) (a1) (s : State) : view m (takeTrack a1 s) = view m s := by
  refine view_mono h ?_
  unfold takeTrack
  try dsimp only
  repeat' first
    | with_reducible rfl
    | with_reducible apply view_ite
    | split
    | simp (disch := decide) only [↓setLp_view]

@[simp ↓] theorem takeCascade_view {m : Nat} (h : P.event ||| P.loops ||| m = m) (a1) (a2) (s : State) : view m (takeCascade a1 a2 s) = view m s := by
  refine view_mono h ?_
  unfold takeCascade
  try dsimp only
  repeat' first
    | with_reducible rfl
    | with_reducible apply view_ite
    | split
    | simp (disch := decide) only [↓raiseLoop_view, ↓setLp_view]

@[simp ↓] theorem takeQuality_view {m : Nat} (h : P.event ||| P.loops ||| m = m) (a1) (a2) (s : State) : view m (takeQuality a1 a2 s) = view m s := by
  refine view_mono h ?_
  unfold takeQuality
  try dsimp only
  repeat' first
    | with_reducible rfl
    | with_reducible apply view_ite
    | split
    | simp (disch := decide) only [↓setLp_view, ↓raiseLoop_view]

@[simp ↓] theorem takeMode_view {m : Nat} (h : P.event ||| P.loops ||| m = m) (a1) (s : State) : view m (takeMode a1 s) = view m s := by
  refine view_mono h ?_
  unfold takeMode
  try dsimp only
  repeat' first
    | with_reducible rfl
    | with_reducible apply view_ite
    | split
    | simp (disch := decide) only [↓setLp_view, ↓raiseLoop_view]

@[simp ↓] theorem evalSample_view {m : Nat} (h : P.loops ||| m = m) (a1) (a2) (a3) (s : State) : view m (evalSample a1 a2 a3 s) = view m s := by
  refine view_mono h ?_
  unfold evalSample
  try dsimp only
  repeat' first
    | with_reducible rfl
    | with_reducible apply view_ite
    | split
    | simp (disch := decide) only [↓setLp_view]

@[simp ↓] theorem releaseOut_view {m : Nat} (h : P.event ||| P.chs ||| P.points ||| P.axes ||| P.pi ||| m = m) (a1) (a2) (s : State) : view m (releaseOut a1 a2 s) = view m s := by
  refine view_mono h ?_
  unfold releaseOut
  try dsimp only
  repeat' first
    | with_reducible rfl
    | with_reducible apply view_ite
    | split
    | simp (disch := decide) only [↓writeOut_view, ↓setRef_view]

@[simp ↓] theorem testStep_view {m : Nat} (h : P.event ||| P.loops ||| m = m) (a1) (a2) (s : State) : view m (testStep a1 a2 s) = view m s := by
  refine view_mono h ?_
  unfold testStep
  try dsimp only
  repeat' first
    | with_reducible rfl
    | with_reducible apply view_ite
    | split
    | simp (disch := decide) only [↓testEnd_view, ↓setTest_view, ↓raise_view]

@[simp ↓] theorem loopSample_view {m : Nat} (h : P.event ||| P.chs ||| P.points ||| P.div ||| P.loops ||| P.axes ||| P.pi ||| m = m) (a1) (s : State) : view m (loopSample a1 s) = view m s := by
  refine view_mono h ?_
  unfold loopSample
  try dsimp only
  repeat' first
    | with_reducible rfl
    | with_reducible apply view_ite
    | split
    | simp (disch := decide) only [↓unitEqual_view, ↓takeTrack_view, ↓takeSwap_view, ↓takeModeIn_view, ↓takeCmds_view, ↓takeMode_view, ↓takeQuality_view, ↓takeCascade_view, ↓evalSample_view, ↓setTest_view, ↓releaseOut_view, ↓instanceDone_view, ↓testStep_view, ↓setLoops_view, ↓setLp_view]

@[simp ↓] theorem loopFault_view {m : Nat} (h : P.event ||| P.chs ||| P.points ||| P.loops ||| P.axes ||| m = m) (a1) (s : State) : view m (loopFault a1 s) = view m s := by
  refine view_mono h ?_
  unfold loopFault
  try dsimp only
  repeat' first
    | with_reducible rfl
    | with_reducible apply view_ite
    | split
    | simp (disch := decide) only [↓setLp_view, ↓testEndOn_view, ↓raiseLoop_view, ↓writerFault_view]

@[simp ↓] theorem resetLoops_view {m : Nat} (h : P.event ||| P.loops ||| m = m) (s : State) : view m (resetLoops s) = view m s := by
  refine view_mono h ?_
  unfold resetLoops
  try dsimp only
  repeat' first
    | with_reducible rfl
    | with_reducible apply view_ite
    | split
    | simp (disch := decide) only [↓testEnd_view, ↓setLoops_view]

@[simp ↓] theorem startLoop_view {m : Nat} (h : P.event ||| P.loops ||| m = m) (a1) (s : State) : view m (startLoop a1 s) = view m s := by
  refine view_mono h ?_
  unfold startLoop
  try dsimp only
  repeat' first
    | with_reducible rfl
    | with_reducible apply view_ite
    | split
    | simp (disch := decide) only [↓setLp_view, ↓raiseLoop_view]

@[simp ↓] theorem switchLoops_view {m : Nat} (h : P.event ||| P.loops ||| m = m) (a1) (s : State) : view m (switchLoops a1 s) = view m s := by
  refine view_mono h ?_
  unfold switchLoops
  try dsimp only
  repeat' first
    | with_reducible rfl
    | with_reducible apply view_ite
    | split
    | simp (disch := decide) only [↓testEndOn_view, ↓setLp_view, ↓startLoop_view]
    | with_reducible refine (forAll_keeps (view _) (fun _ _ => ?_) _).trans ?_

theorem execLoopRelease_view {m : Nat} (h : P.event ||| P.loops ||| m = m) (s : State) {t} (e : execLoopRelease s = .next t) : view m t = view m s := by
  refine view_mono h ?_
  unfold execLoopRelease at e
  obtain rfl := Host.Outcome.next.inj e
  repeat' first
    | with_reducible rfl
    | with_reducible apply view_ite
    | split
    | simp (disch := decide) only [↓loopTick_view]

theorem execLoopSample_view {m : Nat} (h : P.event ||| P.chs ||| P.points ||| P.div ||| P.loops ||| P.axes ||| P.pi ||| m = m) (a1) (s : State) {t} (e : execLoopSample a1 s = .next t) : view m t = view m s := by
  refine view_mono h ?_
  unfold execLoopSample at e
  obtain rfl := Host.Outcome.next.inj e
  repeat' first
    | with_reducible rfl
    | with_reducible apply view_ite
    | split
    | simp (disch := decide) only [↓loopSample_view]

theorem execLpTarget_view {m : Nat} (h : P.loops ||| m = m) (a1) (a2) (a3) (s : State) {t} (e : execLpTarget a1 a2 a3 s = .next t) : view m t = view m s := by
  refine view_mono h ?_
  unfold execLpTarget at e
  obtain rfl := Host.Outcome.next.inj e
  repeat' first
    | with_reducible rfl
    | with_reducible apply view_ite
    | split
    | simp (disch := decide) only [↓lpTarget_view]

theorem execLpManv_view {m : Nat} (h : P.loops ||| m = m) (a1) (a2) (a3) (s : State) {t} (e : execLpManv a1 a2 a3 s = .next t) : view m t = view m s := by
  refine view_mono h ?_
  unfold execLpManv at e
  obtain rfl := Host.Outcome.next.inj e
  repeat' first
    | with_reducible rfl
    | with_reducible apply view_ite
    | split
    | simp (disch := decide) only [↓lpManv_view]

theorem execLpModeReq_view {m : Nat} (h : P.event ||| P.loops ||| m = m) (a1) (a2) (a3) (s : State) {t} (e : execLpModeReq a1 a2 a3 s = .next t) : view m t = view m s := by
  refine view_mono h ?_
  unfold execLpModeReq at e
  obtain rfl := Host.Outcome.next.inj e
  repeat' first
    | with_reducible rfl
    | with_reducible apply view_ite
    | split
    | simp (disch := decide) only [↓lpModeReq_view]

theorem execSwap_view {m : Nat} (h : P.loops ||| m = m) (a1) (a2) (s : State) {t} (e : execSwap a1 a2 s = .next t) : view m t = view m s := by
  refine view_mono h ?_
  unfold execSwap at e
  obtain rfl := Host.Outcome.next.inj e
  repeat' first
    | with_reducible rfl
    | with_reducible apply view_ite
    | split
    | simp (disch := decide) only [↓loopSwap_view]

theorem execRestart_view {m : Nat} (h : P.loops ||| m = m) (a1) (a2) (s : State) {t} (e : execRestart a1 a2 s = .next t) : view m t = view m s := by
  refine view_mono h ?_
  unfold execRestart at e
  obtain rfl := Host.Outcome.next.inj e
  repeat' first
    | with_reducible rfl
    | with_reducible apply view_ite
    | split
    | simp (disch := decide) only [↓loopRestart_view]

theorem execLoopBankEdited_view {m : Nat} (h : P.event ||| P.loops ||| m = m) (a1) (a2) (a3) (a4) (a5) (s : State) {t} (e : execLoopBankEdited a1 a2 a3 a4 a5 s = .next t) : view m t = view m s := by
  refine view_mono h ?_
  unfold execLoopBankEdited at e
  obtain rfl := Host.Outcome.next.inj e
  repeat' first
    | with_reducible rfl
    | with_reducible apply view_ite
    | split
    | simp (disch := decide) only [↓bankEdit_view]

theorem execTestStart_view {m : Nat} (h : P.event ||| P.loops ||| m = m) (a1) (s : State) {t} (e : execTestStart a1 s = .next t) : view m t = view m s := by
  refine view_mono h ?_
  unfold execTestStart at e
  obtain rfl := Host.Outcome.next.inj e
  repeat' first
    | with_reducible rfl
    | with_reducible apply view_ite
    | split
    | simp (disch := decide) only [↓testStart_view]

theorem execTestStop_view {m : Nat} (h : P.event ||| P.loops ||| m = m) (a1) (s : State) {t} (e : execTestStop a1 s = .next t) : view m t = view m s := by
  refine view_mono h ?_
  unfold execTestStop at e
  obtain rfl := Host.Outcome.next.inj e
  repeat' first
    | with_reducible rfl
    | with_reducible apply view_ite
    | split
    | simp (disch := decide) only [↓testStop_view]

end Sys2Proof.Laws
end

