-- ==== Sys2Proof/Laws/Frame/Alarm.lean ====
section
/-! SUPPORT. Frame laws of Sys2Proof/Machine/Alarm.lean: for each operation, the parts of the state outside which it
changes nothing. -/

namespace Sys2Proof.Laws

open Sys2Proof.Machine

@[simp ↓] theorem setAlm_view {m : Nat} (h : P.alarm ||| m = m) (s : State) (a2) : view m (State.setAlm s a2) = view m s :=
  view_alarm h s _

@[simp ↓] theorem setPt_view {m : Nat} (h : P.alarm ||| m = m) (s : State) (a2) (a3) : view m (State.setPt s a2 a3) = view m s := by
  refine view_mono h ?_
  unfold State.setPt
  try dsimp only
  repeat' first
    | with_reducible rfl
    | with_reducible apply view_ite
    | split
    | simp (disch := decide) only [↓setAlm_view]

@[simp ↓] theorem setGrp_view {m : Nat} (h : P.alarm ||| m = m) (s : State) (a2) (a3) : view m (State.setGrp s a2 a3) = view m s := by
  refine view_mono h ?_
  unfold State.setGrp
  try dsimp only
  repeat' first
    | with_reducible rfl
    | with_reducible apply view_ite
    | split
    | simp (disch := decide) only [↓setAlm_view]

@[simp ↓] theorem raisePt_view {m : Nat} (h : P.event ||| m = m) (a1) (a2) (a3) (a4) (s : State) : view m (raisePt a1 a2 a3 a4 s) = view m s := by
  refine view_mono h ?_
  unfold raisePt
  try dsimp only
  repeat' first
    | with_reducible rfl
    | with_reducible apply view_ite
    | split
    | simp (disch := decide) only [↓raise_view]

@[simp ↓] theorem raiseEng_view {m : Nat} (h : P.event ||| m = m) (a1) (a2) (a3) (s : State) : view m (raiseEng a1 a2 a3 s) = view m s := by
  refine view_mono h ?_
  unfold raiseEng
  try dsimp only
  repeat' first
    | with_reducible rfl
    | with_reducible apply view_ite
    | split
    | simp (disch := decide) only [↓raise_view]

@[simp ↓] theorem foJoin_view {m : Nat} (h : P.event ||| P.alarm ||| m = m) (a1) (a2) (s : State) : view m (foJoin a1 a2 s) = view m s := by
  refine view_mono h ?_
  unfold foJoin
  try dsimp only
  repeat' first
    | with_reducible rfl
    | with_reducible apply view_ite
    | split
    | simp (disch := decide) only [↓setGrp_view, ↓raiseEng_view]

@[simp ↓] theorem enterUnack_view {m : Nat} (h : P.event ||| P.alarm ||| m = m) (a1) (a2) (s : State) : view m (enterUnack a1 a2 s) = view m s := by
  refine view_mono h ?_
  unfold enterUnack
  try dsimp only
  repeat' first
    | with_reducible rfl
    | with_reducible apply view_ite
    | split
    | simp (disch := decide) only [↓setPt_view, ↓raiseAt_view, ↓setAlm_view]

@[simp ↓] theorem updateGroup_view {m : Nat} (h : P.event ||| P.alarm ||| m = m) (a1) (s : State) : view m (updateGroup a1 s) = view m s := by
  refine view_mono h ?_
  unfold updateGroup
  try dsimp only
  repeat' first
    | with_reducible rfl
    | with_reducible apply view_ite
    | split
    | simp (disch := decide) only [↓setGrp_view, ↓foJoin_view]
    | with_reducible refine (forAll_keeps (view _) (fun _ _ => ?_) _).trans ?_

@[simp ↓] theorem updateGroups_view {m : Nat} (h : P.event ||| P.alarm ||| m = m) (s : State) : view m (updateGroups s) = view m s := by
  refine view_mono h ?_
  unfold updateGroups
  try dsimp only
  repeat' first
    | with_reducible rfl
    | with_reducible apply view_ite
    | split
    | simp (disch := decide) only [↓setAlm_view, ↓updateGroup_view]
    | with_reducible refine (forAll_keeps (view _) (fun _ _ => ?_) _).trans ?_

@[simp ↓] theorem reenter_view {m : Nat} (h : P.event ||| P.alarm ||| m = m) (a1) (s : State) : view m (reenter a1 s) = view m s := by
  refine view_mono h ?_
  unfold reenter
  try dsimp only
  repeat' first
    | with_reducible rfl
    | with_reducible apply view_ite
    | split
    | simp (disch := decide) only [↓raisePt_view, ↓setPt_view, ↓enterUnack_view]

@[simp ↓] theorem almTrans_view {m : Nat} (h : P.event ||| P.alarm ||| m = m) (a1) (s : State) : view m (almTrans a1 s) = view m s := by
  refine view_mono h ?_
  unfold almTrans
  try dsimp only
  repeat' first
    | with_reducible rfl
    | with_reducible apply view_ite
    | split
    | simp (disch := decide) only [↓reenter_view, ↓setPt_view, ↓raisePt_view, ↓enterUnack_view]

@[simp ↓] theorem evalPoint_view {m : Nat} (h : P.event ||| P.alarm ||| m = m) (a1) (s : State) : view m (evalPoint a1 s) = view m s := by
  refine view_mono h ?_
  unfold evalPoint
  try dsimp only
  repeat' first
    | with_reducible rfl
    | with_reducible apply view_ite
    | split
    | simp (disch := decide) only [↓setPt_view, ↓almTrans_view, ↓raisePt_view]

@[simp ↓] theorem ackPoint_view {m : Nat} (h : P.event ||| P.alarm ||| m = m) (a1) (a2) (s : State) : view m (ackPoint a1 a2 s) = view m s := by
  refine view_mono h ?_
  unfold ackPoint
  try dsimp only
  repeat' first
    | with_reducible rfl
    | with_reducible apply view_ite
    | split
    | simp (disch := decide) only [↓raisePt_view, ↓setPt_view]

@[simp ↓] theorem silence_view {m : Nat} (h : P.event ||| P.alarm ||| m = m) (a1) (a2) (s : State) : view m (silence a1 a2 s) = view m s := by
  refine view_mono h ?_
  unfold silence
  try dsimp only
  repeat' first
    | with_reducible rfl
    | with_reducible apply view_ite
    | split
    | simp (disch := decide) only [↓raiseEng_view, ↓setAlm_view]

@[simp ↓] theorem applyAlm_view {m : Nat} (h : P.event ||| P.alarm ||| P.mmpRest ||| m = m) (a1) (s : State) : view m (applyAlm a1 s) = view m s := by
  refine view_mono h ?_
  unfold applyAlm
  try dsimp only
  repeat' first
    | with_reducible rfl
    | with_reducible apply view_ite
    | split
    | simp (disch := decide) only [↓silence_view, ↓ackPoint_view, ↓setAlm_view, ↓send_view, ↓setPt_view, ↓raise_view, ↓raisePt_view]
    | with_reducible refine (forAll_keeps (view _) (fun _ _ => ?_) _).trans ?_

@[simp ↓] theorem almResult_view {m : Nat} (h : P.alarm ||| m = m) (a1) (s : State) : view m (almResult a1 s) = view m s := by
  refine view_mono h ?_
  unfold almResult
  try dsimp only
  repeat' first
    | with_reducible rfl
    | with_reducible apply view_ite
    | split
    | simp (disch := decide) only [↓setAlm_view]

@[simp ↓] theorem almQueue_view {m : Nat} (h : P.alarm ||| m = m) (a1) (s : State) : view m (almQueue a1 s) = view m s := by
  refine view_mono h ?_
  unfold almQueue
  try dsimp only
  repeat' first
    | with_reducible rfl
    | with_reducible apply view_ite
    | split
    | simp (disch := decide) only [↓almResult_view, ↓setAlm_view]

@[simp ↓] theorem ackArrives_view {m : Nat} (h : P.alarm ||| m = m) (a1) (a2) (a3) (a4) (s : State) : view m (ackArrives a1 a2 a3 a4 s) = view m s := by
  refine view_mono h ?_
  unfold ackArrives
  try dsimp only
  repeat' first
    | with_reducible rfl
    | with_reducible apply view_ite
    | split
    | simp (disch := decide) only [↓almResult_view, ↓almQueue_view]

@[simp ↓] theorem shelveArrives_view {m : Nat} (h : P.alarm ||| m = m) (a1) (a2) (a3) (a4) (a5) (s : State) : view m (shelveArrives a1 a2 a3 a4 a5 s) = view m s := by
  refine view_mono h ?_
  unfold shelveArrives
  try dsimp only
  repeat' first
    | with_reducible rfl
    | with_reducible apply view_ite
    | split
    | simp (disch := decide) only [↓almResult_view, ↓almQueue_view]

@[simp ↓] theorem unshelveArrives_view {m : Nat} (h : P.alarm ||| m = m) (a1) (a2) (a3) (a4) (s : State) : view m (unshelveArrives a1 a2 a3 a4 s) = view m s := by
  refine view_mono h ?_
  unfold unshelveArrives
  try dsimp only
  repeat' first
    | with_reducible rfl
    | with_reducible apply view_ite
    | split
    | simp (disch := decide) only [↓almResult_view, ↓almQueue_view]

theorem oosWrite_view {m : Nat} (h : P.alarm ||| m = m) (a1) (a2) (s : State) {t} (e : oosWrite a1 a2 s = some t) : view m t = view m s := by
  refine view_mono h ?_
  unfold oosWrite at e
  try dsimp only at e
  repeat' split at e
  all_goals first | (obtain rfl := Option.some.inj e) | (exact nomatch e)
  repeat' first
    | with_reducible rfl
    | with_reducible apply view_ite
    | split
    | simp (disch := decide) only [↓almResult_view, ↓almQueue_view]

@[simp ↓] theorem raiseStage_view {m : Nat} (h : P.event ||| m = m) (a1) (s : State) : view m (raiseStage a1 s) = view m s := by
  refine view_mono h ?_
  unfold raiseStage
  try dsimp only
  repeat' first
    | with_reducible rfl
    | with_reducible apply view_ite
    | split
    | simp (disch := decide) only [↓raiseEng_view]

@[simp ↓] theorem notifyUnit_view {m : Nat} (h : P.mmp ||| P.alarm ||| m = m) (a1) (s : State) : view m (notifyUnit a1 s) = view m s := by
  refine view_mono h ?_
  unfold notifyUnit
  try dsimp only
  repeat' first
    | with_reducible rfl
    | with_reducible apply view_ite
    | split
    | simp (disch := decide) only [↓setAlm_view, ↓send_view]

@[simp ↓] theorem enterStage_view {m : Nat} (h : P.event ||| P.alarm ||| P.mmpRest ||| m = m) (a1) (s : State) : view m (enterStage a1 s) = view m s := by
  refine view_mono h ?_
  unfold enterStage
  try dsimp only
  repeat' first
    | with_reducible rfl
    | with_reducible apply view_ite
    | split
    | simp (disch := decide) only [↓setAlm_view, ↓raiseStage_view, ↓notifyUnit_view]
    | with_reducible refine (forAll_keeps (view _) (fun _ _ => ?_) _).trans ?_

@[simp ↓] theorem openCall_view {m : Nat} (h : P.event ||| P.alarm ||| P.mmpRest ||| m = m) (a1) (s : State) : view m (openCall a1 s) = view m s := by
  refine view_mono h ?_
  unfold openCall
  try dsimp only
  repeat' first
    | with_reducible rfl
    | with_reducible apply view_ite
    | split
    | simp (disch := decide) only [↓enterStage_view, ↓setAlm_view]

@[simp ↓] theorem clearUnit_view {m : Nat} (h : P.mmp ||| m = m) (a1) (s : State) : view m (clearUnit a1 s) = view m s := by
  refine view_mono h ?_
  unfold clearUnit
  try dsimp only
  repeat' first
    | with_reducible rfl
    | with_reducible apply view_ite
    | split
    | simp (disch := decide) only [↓send_view]

@[simp ↓] theorem closeCall_view {m : Nat} (h : P.event ||| P.alarm ||| P.mmpRest ||| m = m) (s : State) : view m (closeCall s) = view m s := by
  refine view_mono h ?_
  unfold closeCall
  try dsimp only
  repeat' first
    | with_reducible rfl
    | with_reducible apply view_ite
    | split
    | simp (disch := decide) only [↓raiseEng_view, ↓setAlm_view, ↓clearUnit_view]
    | with_reducible refine (forAll_keeps (view _) (fun _ _ => ?_) _).trans ?_

@[simp ↓] theorem runCall_view {m : Nat} (h : P.event ||| P.alarm ||| P.mmpRest ||| m = m) (s : State) : view m (runCall s) = view m s := by
  refine view_mono h ?_
  unfold runCall
  try dsimp only
  repeat' first
    | with_reducible rfl
    | with_reducible apply view_ite
    | split
    | simp (disch := decide) only [↓setAlm_view, ↓raiseStage_view, ↓openCall_view, ↓closeCall_view, ↓enterStage_view]
    | with_reducible refine (forAll_keeps (view _) (fun _ _ => ?_) _).trans ?_

@[simp ↓] theorem stationLost_view {m : Nat} (h : P.event ||| P.alarm ||| m = m) (a1) (s : State) : view m (stationLost a1 s) = view m s := by
  refine view_mono h ?_
  unfold stationLost
  try dsimp only
  repeat' first
    | with_reducible rfl
    | with_reducible apply view_ite
    | split
    | simp (disch := decide) only [↓raiseEng_view, ↓setAlm_view]

@[simp ↓] theorem stepUms_view {m : Nat} (h : P.event ||| P.alarm ||| m = m) (s : State) : view m (stepUms s) = view m s := by
  refine view_mono h ?_
  unfold stepUms
  try dsimp only
  repeat' first
    | with_reducible rfl
    | with_reducible apply view_ite
    | split
    | simp (disch := decide) only [↓raiseEng_view, ↓setAlm_view]

@[simp ↓] theorem stepDuty_view {m : Nat} (h : P.event ||| P.alarm ||| m = m) (s : State) : view m (stepDuty s) = view m s := by
  refine view_mono h ?_
  unfold stepDuty
  try dsimp only
  repeat' first
    | with_reducible rfl
    | with_reducible apply view_ite
    | split
    | simp (disch := decide) only [↓setAlm_view, ↓raiseEng_view]

@[simp ↓] theorem dmPrewarn_view {m : Nat} (h : P.event ||| P.alarm ||| m = m) (s : State) : view m (dmPrewarn s) = view m s := by
  refine view_mono h ?_
  unfold dmPrewarn
  try dsimp only
  repeat' first
    | with_reducible rfl
    | with_reducible apply view_ite
    | split
    | simp (disch := decide) only [↓raiseEng_view, ↓setAlm_view]

@[simp ↓] theorem dmAlarm_view {m : Nat} (h : P.event ||| P.alarm ||| m = m) (s : State) : view m (dmAlarm s) = view m s := by
  refine view_mono h ?_
  unfold dmAlarm
  try dsimp only
  repeat' first
    | with_reducible rfl
    | with_reducible apply view_ite
    | split
    | simp (disch := decide) only [↓raiseEng_view, ↓setAlm_view]

@[simp ↓] theorem runDeadman_view {m : Nat} (h : P.event ||| P.alarm ||| m = m) (s : State) : view m (runDeadman s) = view m s := by
  refine view_mono h ?_
  unfold runDeadman
  try dsimp only
  repeat' first
    | with_reducible rfl
    | with_reducible apply view_ite
    | split
    | simp (disch := decide) only [↓raiseEng_view, ↓setAlm_view, ↓dmPrewarn_view, ↓dmAlarm_view]

@[simp ↓] theorem almRelease_view {m : Nat} (h : P.event ||| P.chs ||| P.points ||| P.axes ||| P.pi ||| m = m) (a1) (s : State) : view m (almRelease a1 s) = view m s := by
  refine view_mono h ?_
  unfold almRelease
  try dsimp only
  repeat' first
    | with_reducible rfl
    | with_reducible apply view_ite
    | split
    | simp (disch := decide) only [↓writeOut_view, ↓instanceDone_view]
    | with_reducible refine (forAll_keeps (view _) (fun _ _ => ?_) _).trans ?_

@[simp ↓] theorem readCaptures_view {m : Nat} (h : P.tu ||| P.alarm ||| m = m) (s : State) : view m (readCaptures s) = view m s := by
  refine view_mono h ?_
  unfold readCaptures
  try dsimp only
  repeat' first
    | with_reducible rfl
    | with_reducible apply view_ite
    | split
    | simp (disch := decide) only [↓setTu_view, ↓setAlm_view]

@[simp ↓] theorem alarmTick_view {m : Nat} (h : P.event ||| P.chs ||| P.points ||| P.tu ||| P.alarm ||| P.axes ||| P.mmpRest ||| P.pi ||| m = m) (a1) (s : State) : view m (alarmTick a1 s) = view m s := by
  refine view_mono h ?_
  unfold alarmTick
  try dsimp only
  repeat' first
    | with_reducible rfl
    | with_reducible apply view_ite
    | split
    | simp (disch := decide) only [↓readCaptures_view, ↓applyAlm_view, ↓setAlm_view, ↓evalPoint_view, ↓updateGroups_view, ↓stationLost_view, ↓runCall_view, ↓runDeadman_view, ↓stepDuty_view, ↓stepUms_view, ↓almRelease_view]
    | with_reducible refine (forAll_keeps (view _) (fun _ _ => ?_) _).trans ?_
    | with_reducible refine (forRange_keeps (view _) (fun _ _ => ?_) _).trans ?_

@[simp ↓] theorem pointInstant_view {m : Nat} (h : P.event ||| P.alarm ||| m = m) (a1) (a2) (s : State) : view m (pointInstant a1 a2 s) = view m s := by
  refine view_mono h ?_
  unfold pointInstant
  try dsimp only
  repeat' first
    | with_reducible rfl
    | with_reducible apply view_ite
    | split
    | simp (disch := decide) only [↓setAlm_view, ↓updateGroup_view, ↓almTrans_view, ↓setPt_view]

@[simp ↓] theorem onDelayEnd_view {m : Nat} (h : P.event ||| P.alarm ||| m = m) (a1) (s : State) : view m (onDelayEnd a1 s) = view m s := by
  refine view_mono h ?_
  unfold onDelayEnd
  try dsimp only
  repeat' first
    | with_reducible rfl
    | with_reducible apply view_ite
    | split
    | simp (disch := decide) only [↓pointInstant_view]

@[simp ↓] theorem offDelayEnd_view {m : Nat} (h : P.event ||| P.alarm ||| m = m) (a1) (s : State) : view m (offDelayEnd a1 s) = view m s := by
  refine view_mono h ?_
  unfold offDelayEnd
  try dsimp only
  repeat' first
    | with_reducible rfl
    | with_reducible apply view_ite
    | split
    | simp (disch := decide) only [↓pointInstant_view]

@[simp ↓] theorem shelveTimeEnd_view {m : Nat} (h : P.event ||| P.alarm ||| m = m) (a1) (s : State) : view m (shelveTimeEnd a1 s) = view m s := by
  refine view_mono h ?_
  unfold shelveTimeEnd
  try dsimp only
  repeat' first
    | with_reducible rfl
    | with_reducible apply view_ite
    | split
    | simp (disch := decide) only [↓pointInstant_view]

@[simp ↓] theorem suppReleased_view {m : Nat} (h : P.event ||| P.alarm ||| m = m) (a1) (s : State) : view m (suppReleased a1 s) = view m s := by
  refine view_mono h ?_
  unfold suppReleased
  try dsimp only
  repeat' first
    | with_reducible rfl
    | with_reducible apply view_ite
    | split
    | simp (disch := decide) only [↓pointInstant_view]

@[simp ↓] theorem escalate_view {m : Nat} (h : P.event ||| P.alarm ||| P.mmpRest ||| m = m) (s : State) : view m (escalate s) = view m s := by
  refine view_mono h ?_
  unfold escalate
  try dsimp only
  repeat' first
    | with_reducible rfl
    | with_reducible apply view_ite
    | split
    | simp (disch := decide) only [↓enterStage_view]

@[simp ↓] theorem groupState_view {m : Nat} (h : P.event ||| P.alarm ||| m = m) (a1) (a2) (s : State) : view m (groupState a1 a2 s) = view m s := by
  refine view_mono h ?_
  unfold groupState
  try dsimp only
  repeat' first
    | with_reducible rfl
    | with_reducible apply view_ite
    | split
    | simp (disch := decide) only [↓setAlm_view, ↓raiseEng_view]

@[simp ↓] theorem groupStateSend_view {m : Nat} (h : P.mmp ||| m = m) (a1) (s : State) : view m (groupStateSend a1 s) = view m s := by
  refine view_mono h ?_
  unfold groupStateSend
  try dsimp only
  repeat' first
    | with_reducible rfl
    | with_reducible apply view_ite
    | split
    | simp (disch := decide) only [↓send_view]

@[simp ↓] theorem notifyRepeat_view {m : Nat} (h : P.mmp ||| P.alarm ||| m = m) (a1) (s : State) : view m (notifyRepeat a1 s) = view m s := by
  refine view_mono h ?_
  unfold notifyRepeat
  try dsimp only
  repeat' first
    | with_reducible rfl
    | with_reducible apply view_ite
    | split
    | simp (disch := decide) only [↓notifyUnit_view]

@[simp ↓] theorem clearRepeat_view {m : Nat} (h : P.mmp ||| m = m) (a1) (s : State) : view m (clearRepeat a1 s) = view m s := by
  refine view_mono h ?_
  unfold clearRepeat
  try dsimp only
  repeat' first
    | with_reducible rfl
    | with_reducible apply view_ite
    | split
    | simp (disch := decide) only [↓clearUnit_view]

theorem umsWrite_view {m : Nat} (h : P.alarm ||| m = m) (a1) (a2) (s : State) {t} (e : umsWrite a1 a2 s = some t) : view m t = view m s := by
  refine view_mono h ?_
  unfold umsWrite at e
  try dsimp only at e
  repeat' split at e
  all_goals first | (obtain rfl := Option.some.inj e) | (exact nomatch e)
  repeat' first
    | with_reducible rfl
    | with_reducible apply view_ite
    | split
    | simp (disch := decide) only [↓almResult_view, ↓setAlm_view]

@[simp ↓] theorem dutyWrite_view {m : Nat} (h : P.event ||| P.alarm ||| m = m) (a1) (a2) (s : State) : view m (dutyWrite a1 a2 s) = view m s := by
  refine view_mono h ?_
  unfold dutyWrite
  try dsimp only
  repeat' first
    | with_reducible rfl
    | with_reducible apply view_ite
    | split
    | simp (disch := decide) only [↓almResult_view, ↓setAlm_view, ↓raiseEng_view]

theorem shelveWrite_view {m : Nat} (h : P.alarm ||| m = m) (a1) (a2) (s : State) {t} (e : shelveWrite a1 a2 s = some t) : view m t = view m s := by
  refine view_mono h ?_
  unfold shelveWrite at e
  try dsimp only at e
  repeat' split at e
  all_goals first | (obtain rfl := Option.some.inj e) | (exact nomatch e)
  repeat' first
    | with_reducible rfl
    | with_reducible apply view_ite
    | split
    | simp (disch := decide) only [↓setGrp_view]

@[simp ↓] theorem ackKey_view {m : Nat} (h : P.alarm ||| m = m) (s : State) : view m (ackKey s) = view m s := by
  refine view_mono h ?_
  unfold ackKey
  try dsimp only
  repeat' first
    | with_reducible rfl
    | with_reducible apply view_ite
    | split
    | simp (disch := decide) only [↓ackArrives_view]

@[simp ↓] theorem silenceKey_view {m : Nat} (h : P.alarm ||| m = m) (s : State) : view m (silenceKey s) = view m s := by
  refine view_mono h ?_
  unfold silenceKey
  try dsimp only
  repeat' first
    | with_reducible rfl
    | with_reducible apply view_ite
    | split
    | simp (disch := decide) only [↓almQueue_view]

@[simp ↓] theorem almRefusals_view {m : Nat} (h : P.event ||| m = m) (s : State) : view m (almRefusals s) = view m s := by
  refine view_mono h ?_
  unfold almRefusals
  try dsimp only
  repeat' first
    | with_reducible rfl
    | with_reducible apply view_ite
    | split
    | simp (disch := decide) only [↓raiseN_view]
    | with_reducible refine (forAll_keeps (view _) (fun _ _ => ?_) _).trans ?_

@[simp ↓] theorem resetAlarm_view {m : Nat} (h : P.event ||| P.alarm ||| P.mmpRest ||| m = m) (s : State) : view m (resetAlarm s) = view m s := by
  refine view_mono h ?_
  unfold resetAlarm
  try dsimp only
  repeat' first
    | with_reducible rfl
    | with_reducible apply view_ite
    | split
    | simp (disch := decide) only [↓closeCall_view, ↓setAlm_view]

@[simp ↓] theorem switchAlarm_view {m : Nat} (h : P.event ||| P.alarm ||| m = m) (a1) (s : State) : view m (switchAlarm a1 s) = view m s := by
  refine view_mono h ?_
  unfold switchAlarm
  try dsimp only
  repeat' first
    | with_reducible rfl
    | with_reducible apply view_ite
    | split
    | simp (disch := decide) only [↓setAlm_view, ↓setGrp_view, ↓updateGroups_view]
    | with_reducible refine (forAll_keeps (view _) (fun _ _ => ?_) _).trans ?_

theorem execAlarmTick_view {m : Nat} (h : P.event ||| P.chs ||| P.points ||| P.tu ||| P.alarm ||| P.axes ||| P.mmpRest ||| P.pi ||| m = m) (a1) (s : State) {t} (e : execAlarmTick a1 s = .next t) : view m t = view m s := by
  refine view_mono h ?_
  unfold execAlarmTick at e
  obtain rfl := Host.Outcome.next.inj e
  repeat' first
    | with_reducible rfl
    | with_reducible apply view_ite
    | split
    | simp (disch := decide) only [↓alarmTick_view]

theorem execOnDelayEnd_view {m : Nat} (h : P.event ||| P.alarm ||| m = m) (a1) (s : State) {t} (e : execOnDelayEnd a1 s = .next t) : view m t = view m s := by
  refine view_mono h ?_
  unfold execOnDelayEnd at e
  obtain rfl := Host.Outcome.next.inj e
  repeat' first
    | with_reducible rfl
    | with_reducible apply view_ite
    | split
    | simp (disch := decide) only [↓onDelayEnd_view]

theorem execOffDelayEnd_view {m : Nat} (h : P.event ||| P.alarm ||| m = m) (a1) (s : State) {t} (e : execOffDelayEnd a1 s = .next t) : view m t = view m s := by
  refine view_mono h ?_
  unfold execOffDelayEnd at e
  obtain rfl := Host.Outcome.next.inj e
  repeat' first
    | with_reducible rfl
    | with_reducible apply view_ite
    | split
    | simp (disch := decide) only [↓offDelayEnd_view]

theorem execShelveTimeEnd_view {m : Nat} (h : P.event ||| P.alarm ||| m = m) (a1) (s : State) {t} (e : execShelveTimeEnd a1 s = .next t) : view m t = view m s := by
  refine view_mono h ?_
  unfold execShelveTimeEnd at e
  obtain rfl := Host.Outcome.next.inj e
  repeat' first
    | with_reducible rfl
    | with_reducible apply view_ite
    | split
    | simp (disch := decide) only [↓shelveTimeEnd_view]

theorem execAlarmReleased_view {m : Nat} (h : P.event ||| P.alarm ||| m = m) (a1) (s : State) {t} (e : execAlarmReleased a1 s = .next t) : view m t = view m s := by
  refine view_mono h ?_
  unfold execAlarmReleased at e
  obtain rfl := Host.Outcome.next.inj e
  repeat' first
    | with_reducible rfl
    | with_reducible apply view_ite
    | split
    | simp (disch := decide) only [↓suppReleased_view]

theorem execEscalation_view {m : Nat} (h : P.event ||| P.alarm ||| P.mmpRest ||| m = m) (s : State) {t} (e : execEscalation s = .next t) : view m t = view m s := by
  refine view_mono h ?_
  unfold execEscalation at e
  obtain rfl := Host.Outcome.next.inj e
  repeat' first
    | with_reducible rfl
    | with_reducible apply view_ite
    | split
    | simp (disch := decide) only [↓escalate_view]

theorem execStationLost_view {m : Nat} (h : P.event ||| P.alarm ||| m = m) (a1) (s : State) {t} (e : execStationLost a1 s = .next t) : view m t = view m s := by
  refine view_mono h ?_
  unfold execStationLost at e
  obtain rfl := Host.Outcome.next.inj e
  repeat' first
    | with_reducible rfl
    | with_reducible apply view_ite
    | split
    | simp (disch := decide) only [↓stationLost_view]

theorem execDmPrewarn_view {m : Nat} (h : P.event ||| P.alarm ||| m = m) (s : State) {t} (e : execDmPrewarn s = .next t) : view m t = view m s := by
  refine view_mono h ?_
  unfold execDmPrewarn at e
  obtain rfl := Host.Outcome.next.inj e
  repeat' first
    | with_reducible rfl
    | with_reducible apply view_ite
    | split
    | simp (disch := decide) only [↓dmPrewarn_view]

theorem execDmAlarm_view {m : Nat} (h : P.event ||| P.alarm ||| m = m) (s : State) {t} (e : execDmAlarm s = .next t) : view m t = view m s := by
  refine view_mono h ?_
  unfold execDmAlarm at e
  obtain rfl := Host.Outcome.next.inj e
  repeat' first
    | with_reducible rfl
    | with_reducible apply view_ite
    | split
    | simp (disch := decide) only [↓dmAlarm_view]

theorem execAlmOos_view {m : Nat} (h : P.alarm ||| m = m) (v : W32) (r : Role) (s : State) {t}
    (e : execAlmOos v r s = .next t) : view m t = view m s := by
  obtain rfl := Host.Outcome.next.inj e
  cases hw : oosWrite v r s with
  | none => rfl
  | some u => exact oosWrite_view h v r s hw

theorem execCallUms_view {m : Nat} (h : P.alarm ||| m = m) (v : W32) (r : Role) (s : State) {t}
    (e : execCallUms v r s = .next t) : view m t = view m s := by
  obtain rfl := Host.Outcome.next.inj e
  cases hw : umsWrite v r s with
  | none => rfl
  | some u => exact umsWrite_view h v r s hw

theorem execCallDuty_view {m : Nat} (h : P.event ||| P.alarm ||| m = m) (a1) (a2) (s : State) {t} (e : execCallDuty a1 a2 s = .next t) : view m t = view m s := by
  refine view_mono h ?_
  unfold execCallDuty at e
  obtain rfl := Host.Outcome.next.inj e
  repeat' first
    | with_reducible rfl
    | with_reducible apply view_ite
    | split
    | simp (disch := decide) only [↓dutyWrite_view]

theorem execGroupStateSend_view {m : Nat} (h : P.mmp ||| m = m) (a1) (s : State) {t} (e : execGroupStateSend a1 s = .next t) : view m t = view m s := by
  refine view_mono h ?_
  unfold execGroupStateSend at e
  obtain rfl := Host.Outcome.next.inj e
  repeat' first
    | with_reducible rfl
    | with_reducible apply view_ite
    | split
    | simp (disch := decide) only [↓groupStateSend_view]

theorem execCallNotifyRepeat_view {m : Nat} (h : P.mmp ||| P.alarm ||| m = m) (a1) (s : State) {t} (e : execCallNotifyRepeat a1 s = .next t) : view m t = view m s := by
  refine view_mono h ?_
  unfold execCallNotifyRepeat at e
  obtain rfl := Host.Outcome.next.inj e
  repeat' first
    | with_reducible rfl
    | with_reducible apply view_ite
    | split
    | simp (disch := decide) only [↓notifyRepeat_view]

theorem execCallClearRepeat_view {m : Nat} (h : P.mmp ||| m = m) (a1) (s : State) {t} (e : execCallClearRepeat a1 s = .next t) : view m t = view m s := by
  refine view_mono h ?_
  unfold execCallClearRepeat at e
  obtain rfl := Host.Outcome.next.inj e
  repeat' first
    | with_reducible rfl
    | with_reducible apply view_ite
    | split
    | simp (disch := decide) only [↓clearRepeat_view]

theorem execAckKey_view {m : Nat} (h : P.alarm ||| m = m) (s : State) {t} (e : execAckKey s = .next t) : view m t = view m s := by
  refine view_mono h ?_
  unfold execAckKey at e
  obtain rfl := Host.Outcome.next.inj e
  repeat' first
    | with_reducible rfl
    | with_reducible apply view_ite
    | split
    | simp (disch := decide) only [↓ackKey_view]

theorem execSilenceKey_view {m : Nat} (h : P.alarm ||| m = m) (s : State) {t} (e : execSilenceKey s = .next t) : view m t = view m s := by
  refine view_mono h ?_
  unfold execSilenceKey at e
  obtain rfl := Host.Outcome.next.inj e
  repeat' first
    | with_reducible rfl
    | with_reducible apply view_ite
    | split
    | simp (disch := decide) only [↓silenceKey_view]

end Sys2Proof.Laws
end

