-- ==== Sys2Proof/Laws/Frame/Axis.lean ====
section
/-! SUPPORT. Frame laws of Sys2Proof/Machine/Axis.lean: for each operation, the parts of the state outside which it
changes nothing. -/

namespace Sys2Proof.Laws

open Sys2Proof.Machine

@[simp ↓] theorem raiseAx_view {m : Nat} (h : P.event ||| m = m) (a1) (a2) (a3) (s : State) : view m (raiseAx a1 a2 a3 s) = view m s := by
  refine view_mono h ?_
  unfold raiseAx
  try dsimp only
  repeat' first
    | with_reducible rfl
    | with_reducible apply view_ite
    | split
    | simp (disch := decide) only [↓raiseN_view]

@[simp ↓] theorem tryMove_view {m : Nat} (h : P.event ||| P.axes ||| m = m) (a1) (a2) (s : State) : view m (tryMove a1 a2 s).1 = view m s := by
  refine view_mono h ?_
  unfold tryMove
  try dsimp only
  repeat' first
    | with_reducible rfl
    | with_reducible apply view_ite
    | split
    | simp (disch := decide) only [↓setAxis_view, ↓raiseAx_view]

@[simp ↓] theorem homeFail_view {m : Nat} (h : P.event ||| P.axes ||| m = m) (a1) (a2) (s : State) : view m (homeFail a1 a2 s) = view m s := by
  refine view_mono h ?_
  unfold homeFail
  try dsimp only
  repeat' first
    | with_reducible rfl
    | with_reducible apply view_ite
    | split
    | simp (disch := decide) only [↓raiseAx_view, ↓setAxis_view]

@[simp ↓] theorem brakeTo_view {m : Nat} (h : P.axes ||| m = m) (a1) (a2) (a3) (a4) (s : State) : view m (brakeTo a1 a2 a3 a4 s) = view m s := by
  refine view_mono h ?_
  unfold brakeTo
  try dsimp only
  repeat' first
    | with_reducible rfl
    | with_reducible apply view_ite
    | split
    | simp (disch := decide) only [↓setAxis_view]

@[simp ↓] theorem deenergised_view {m : Nat} (h : P.axes ||| m = m) (a1) (s : State) : view m (deenergised a1 s) = view m s := by
  refine view_mono h ?_
  unfold deenergised
  try dsimp only
  repeat' first
    | with_reducible rfl
    | with_reducible apply view_ite
    | split
    | simp (disch := decide) only [↓setAxis_view]

@[simp ↓] theorem axFault_view {m : Nat} (h : P.event ||| P.axes ||| m = m) (a1) (a2) (s : State) : view m (axFault a1 a2 s) = view m s := by
  refine view_mono h ?_
  unfold axFault
  try dsimp only
  repeat' first
    | with_reducible rfl
    | with_reducible apply view_ite
    | split
    | simp (disch := decide) only [↓setAxis_view, ↓homeFail_view]

@[simp ↓] theorem driverFault_view {m : Nat} (h : P.event ||| P.axes ||| m = m) (a1) (a2) (s : State) : view m (driverFault a1 a2 s) = view m s := by
  refine view_mono h ?_
  unfold driverFault
  try dsimp only
  repeat' first
    | with_reducible rfl
    | with_reducible apply view_ite
    | split
    | simp (disch := decide) only [↓setAxis_view, ↓raiseAx_view, ↓axFault_view]

@[simp ↓] theorem torqueRemoved_view {m : Nat} (h : P.event ||| P.axes ||| m = m) (a1) (a2) (s : State) : view m (torqueRemoved a1 a2 s) = view m s := by
  refine view_mono h ?_
  unfold torqueRemoved
  try dsimp only
  repeat' first
    | with_reducible rfl
    | with_reducible apply view_ite
    | split
    | simp (disch := decide) only [↓setAxis_view, ↓homeFail_view, ↓raiseAx_view]

@[simp ↓] theorem torqueRestored_view {m : Nat} (h : P.event ||| P.axes ||| m = m) (a1) (s : State) : view m (torqueRestored a1 s) = view m s := by
  refine view_mono h ?_
  unfold torqueRestored
  try dsimp only
  repeat' first
    | with_reducible rfl
    | with_reducible apply view_ite
    | split
    | simp (disch := decide) only [↓raiseAx_view, ↓setAxis_view]

@[simp ↓] theorem ss1Brake_view {m : Nat} (h : P.event ||| P.axes ||| m = m) (a1) (a2) (s : State) : view m (ss1Brake a1 a2 s) = view m s := by
  refine view_mono h ?_
  unfold ss1Brake
  try dsimp only
  repeat' first
    | with_reducible rfl
    | with_reducible apply view_ite
    | split
    | simp (disch := decide) only [↓setAxis_view, ↓homeFail_view, ↓brakeTo_view]

@[simp ↓] theorem targetChange_view {m : Nat} (h : P.event ||| P.axes ||| m = m) (a1) (a2) (s : State) : view m (targetChange a1 a2 s) = view m s := by
  refine view_mono h ?_
  unfold targetChange
  try dsimp only
  repeat' first
    | with_reducible rfl
    | with_reducible apply view_ite
    | split
    | simp (disch := decide) only [↓setAxis_view, ↓tryMove_view, ↓raiseAx_view]
    | (refine (congrArg (fun p => view _ p.1) ‹tryMove _ _ _ = _›).symm.trans ((tryMove_view ?_ _ _ _).trans ?_); decide)

@[simp ↓] theorem homeStart_view {m : Nat} (h : P.axes ||| m = m) (a1) (s : State) : view m (homeStart a1 s) = view m s := by
  refine view_mono h ?_
  unfold homeStart
  try dsimp only
  repeat' first
    | with_reducible rfl
    | with_reducible apply view_ite
    | split
    | simp (disch := decide) only [↓setAxis_view]

@[simp ↓] theorem homeDone_view {m : Nat} (h : P.event ||| P.axes ||| m = m) (a1) (s : State) : view m (homeDone a1 s) = view m s := by
  refine view_mono h ?_
  unfold homeDone
  try dsimp only
  repeat' first
    | with_reducible rfl
    | with_reducible apply view_ite
    | split
    | simp (disch := decide) only [↓setAxis_view, ↓raiseAx_view]

@[simp ↓] theorem homeSet_view {m : Nat} (h : P.axes ||| m = m) (a1) (s : State) : view m (homeSet a1 s) = view m s := by
  refine view_mono h ?_
  unfold homeSet
  try dsimp only
  repeat' first
    | with_reducible rfl
    | with_reducible apply view_ite
    | split
    | simp (disch := decide) only [↓setAxis_view]

@[simp ↓] theorem homeBackoff_view {m : Nat} (h : P.event ||| P.axes ||| m = m) (a1) (s : State) : view m (homeBackoff a1 s) = view m s := by
  refine view_mono h ?_
  unfold homeBackoff
  try dsimp only
  repeat' first
    | with_reducible rfl
    | with_reducible apply view_ite
    | split
    | simp (disch := decide) only [↓homeDone_view, ↓setAxis_view]

@[simp ↓] theorem homeWatch_view {m : Nat} (h : P.axes ||| m = m) (a1) (s : State) : view m (homeWatch a1 s) = view m s := by
  refine view_mono h ?_
  unfold homeWatch
  try dsimp only
  repeat' first
    | with_reducible rfl
    | with_reducible apply view_ite
    | split
    | simp (disch := decide) only [↓setAxis_view]

@[simp ↓] theorem limitAssert_view {m : Nat} (h : P.event ||| P.axes ||| m = m) (a1) (a2) (s : State) : view m (limitAssert a1 a2 s) = view m s := by
  refine view_mono h ?_
  unfold limitAssert
  try dsimp only
  repeat' first
    | with_reducible rfl
    | with_reducible apply view_ite
    | split
    | simp (disch := decide) only [↓setAxis_view, ↓brakeTo_view, ↓homeFail_view, ↓raiseAx_view, ↓homeWatch_view]

@[simp ↓] theorem limitRelease_view {m : Nat} (h : P.event ||| P.axes ||| m = m) (a1) (a2) (s : State) : view m (limitRelease a1 a2 s) = view m s := by
  refine view_mono h ?_
  unfold limitRelease
  try dsimp only
  repeat' first
    | with_reducible rfl
    | with_reducible apply view_ite
    | split
    | simp (disch := decide) only [↓raiseAx_view, ↓setAxis_view]

@[simp ↓] theorem limitTick_view {m : Nat} (h : P.event ||| P.axes ||| m = m) (a1) (s : State) : view m (limitTick a1 s) = view m s := by
  refine view_mono h ?_
  unfold limitTick
  try dsimp only
  repeat' first
    | with_reducible rfl
    | with_reducible apply view_ite
    | split
    | simp (disch := decide) only [↓limitAssert_view, ↓limitRelease_view]

@[simp ↓] theorem cmdStop_view {m : Nat} (h : P.event ||| P.axes ||| m = m) (a1) (s : State) : view m (cmdStop a1 s).1 = view m s := by
  refine view_mono h ?_
  unfold cmdStop
  try dsimp only
  repeat' first
    | with_reducible rfl
    | with_reducible apply view_ite
    | split
    | simp (disch := decide) only [↓brakeTo_view, ↓setAxis_view, ↓homeFail_view]

@[simp ↓] theorem cmdQuick_view {m : Nat} (h : P.event ||| P.axes ||| m = m) (a1) (s : State) : view m (cmdQuick a1 s).1 = view m s := by
  refine view_mono h ?_
  unfold cmdQuick
  try dsimp only
  repeat' first
    | with_reducible rfl
    | with_reducible apply view_ite
    | split
    | simp (disch := decide) only [↓brakeTo_view, ↓setAxis_view, ↓homeFail_view, ↓cmdStop_view]
    | (refine (congrArg (fun p => view _ p.1) ‹cmdStop _ _ = _›).symm.trans ((cmdStop_view ?_ _ _).trans ?_); decide)

@[simp ↓] theorem cmdDeenergise_view {m : Nat} (h : P.event ||| P.axes ||| m = m) (a1) (s : State) : view m (cmdDeenergise a1 s).1 = view m s := by
  refine view_mono h ?_
  unfold cmdDeenergise
  try dsimp only
  repeat' first
    | with_reducible rfl
    | with_reducible apply view_ite
    | split
    | simp (disch := decide) only [↓cmdStop_view, ↓setAxis_view, ↓deenergised_view]
    | (refine (congrArg (fun p => view _ p.1) ‹cmdStop _ _ = _›).symm.trans ((cmdStop_view ?_ _ _).trans ?_); decide)

@[simp ↓] theorem cmdEnergise_view {m : Nat} (h : P.axes ||| m = m) (a1) (s : State) : view m (cmdEnergise a1 s).1 = view m s := by
  refine view_mono h ?_
  unfold cmdEnergise
  try dsimp only
  repeat' first
    | with_reducible rfl
    | with_reducible apply view_ite
    | split
    | simp (disch := decide) only [↓setAxis_view]

@[simp ↓] theorem cmdClear_view {m : Nat} (h : P.axes ||| m = m) (a1) (s : State) : view m (cmdClear a1 s).1 = view m s := by
  refine view_mono h ?_
  unfold cmdClear
  try dsimp only
  repeat' first
    | with_reducible rfl
    | with_reducible apply view_ite
    | split
    | simp (disch := decide) only [↓setAxis_view]

@[simp ↓] theorem cmdResume_view {m : Nat} (h : P.event ||| P.axes ||| m = m) (a1) (s : State) : view m (cmdResume a1 s).1 = view m s := by
  refine view_mono h ?_
  unfold cmdResume
  try dsimp only
  repeat' first
    | with_reducible rfl
    | with_reducible apply view_ite
    | split
    | simp (disch := decide) only [↓setAxis_view, ↓tryMove_view]
    | (refine (congrArg (fun p => view _ p.1) ‹tryMove _ _ _ = _›).symm.trans ((tryMove_view ?_ _ _ _).trans ?_); decide)

@[simp ↓] theorem cmdHome_view {m : Nat} (h : P.axes ||| m = m) (a1) (s : State) : view m (cmdHome a1 s).1 = view m s := by
  refine view_mono h ?_
  unfold cmdHome
  try dsimp only
  repeat' first
    | with_reducible rfl
    | with_reducible apply view_ite
    | split
    | simp (disch := decide) only [↓homeStart_view]

@[simp ↓] theorem cmdSyncPot_view {m : Nat} (h : P.event ||| P.axes ||| m = m) (a1) (s : State) : view m (cmdSyncPot a1 s).1 = view m s := by
  refine view_mono h ?_
  unfold cmdSyncPot
  try dsimp only
  repeat' first
    | with_reducible rfl
    | with_reducible apply view_ite
    | split
    | simp (disch := decide) only [↓raiseAx_view, ↓setAxis_view]

@[simp ↓] theorem axEffect_view {m : Nat} (h : P.event ||| P.axes ||| m = m) (a1) (a2) (s : State) : view m (axEffect a1 a2 s).1 = view m s := by
  refine view_mono h ?_
  unfold axEffect
  try dsimp only
  repeat' first
    | with_reducible rfl
    | with_reducible apply view_ite
    | split
    | simp (disch := decide) only [↓cmdEnergise_view, ↓cmdDeenergise_view, ↓cmdStop_view, ↓cmdQuick_view, ↓cmdResume_view, ↓cmdHome_view, ↓cmdClear_view, ↓cmdSyncPot_view]
    | (refine (congrArg (fun p => view _ p.1) ‹cmdEnergise _ _ = _›).symm.trans ((cmdEnergise_view ?_ _ _).trans ?_); decide)
    | (refine (congrArg (fun p => view _ p.1) ‹cmdDeenergise _ _ = _›).symm.trans ((cmdDeenergise_view ?_ _ _).trans ?_); decide)
    | (refine (congrArg (fun p => view _ p.1) ‹cmdStop _ _ = _›).symm.trans ((cmdStop_view ?_ _ _).trans ?_); decide)
    | (refine (congrArg (fun p => view _ p.1) ‹cmdQuick _ _ = _›).symm.trans ((cmdQuick_view ?_ _ _).trans ?_); decide)
    | (refine (congrArg (fun p => view _ p.1) ‹cmdResume _ _ = _›).symm.trans ((cmdResume_view ?_ _ _).trans ?_); decide)
    | (refine (congrArg (fun p => view _ p.1) ‹cmdHome _ _ = _›).symm.trans ((cmdHome_view ?_ _ _).trans ?_); decide)
    | (refine (congrArg (fun p => view _ p.1) ‹cmdClear _ _ = _›).symm.trans ((cmdClear_view ?_ _ _).trans ?_); decide)
    | (refine (congrArg (fun p => view _ p.1) ‹cmdSyncPot _ _ = _›).symm.trans ((cmdSyncPot_view ?_ _ _).trans ?_); decide)

@[simp ↓] theorem axResult_view {m : Nat} (h : P.axes ||| m = m) (a1) (a2) (a3) (a4) (s : State) : view m (axResult a1 a2 a3 a4 s) = view m s := by
  refine view_mono h ?_
  unfold axResult
  try dsimp only
  repeat' first
    | with_reducible rfl
    | with_reducible apply view_ite
    | split
    | simp (disch := decide) only [↓setAxis_view]

@[simp ↓] theorem axCommand_view {m : Nat} (h : P.event ||| P.axes ||| m = m) (a1) (a2) (a3) (s : State) : view m (axCommand a1 a2 a3 s) = view m s := by
  refine view_mono h ?_
  unfold axCommand
  try dsimp only
  repeat' first
    | with_reducible rfl
    | with_reducible apply view_ite
    | split
    | simp (disch := decide) only [↓axEffect_view, ↓axResult_view, ↓raise_view]
    | (refine (congrArg (fun p => view _ p.1) ‹axEffect _ _ _ = _›).symm.trans ((axEffect_view ?_ _ _ _).trans ?_); decide)

@[simp ↓] theorem axMmpWrite_view {m : Nat} (h : P.axes ||| m = m) (a1) (a2) (a3) (s : State) : view m (axMmpWrite a1 a2 a3 s) = view m s := by
  refine view_mono h ?_
  unfold axMmpWrite
  try dsimp only
  repeat' first
    | with_reducible rfl
    | with_reducible apply view_ite
    | split
    | simp (disch := decide) only [↓axResult_view, ↓setAxis_view]

@[simp ↓] theorem wdAction_view {m : Nat} (h : P.event ||| P.axes ||| m = m) (a1) (s : State) : view m (wdAction a1 s) = view m s := by
  refine view_mono h ?_
  unfold wdAction
  try dsimp only
  repeat' first
    | with_reducible rfl
    | with_reducible apply view_ite
    | split
    | simp (disch := decide) only [↓setAxis_view, ↓cmdStop_view, ↓cmdQuick_view, ↓cmdDeenergise_view]
    | (refine (congrArg (fun p => view _ p.1) ‹cmdStop _ _ = _›).symm.trans ((cmdStop_view ?_ _ _).trans ?_); decide)
    | (refine (congrArg (fun p => view _ p.1) ‹cmdQuick _ _ = _›).symm.trans ((cmdQuick_view ?_ _ _).trans ?_); decide)
    | (refine (congrArg (fun p => view _ p.1) ‹cmdDeenergise _ _ = _›).symm.trans ((cmdDeenergise_view ?_ _ _).trans ?_); decide)

@[simp ↓] theorem estTick_view {m : Nat} (h : P.axes ||| m = m) (a1) (s : State) : view m (estTick a1 s) = view m s := by
  refine view_mono h ?_
  unfold estTick
  try dsimp only
  repeat' first
    | with_reducible rfl
    | with_reducible apply view_ite
    | split
    | simp (disch := decide) only [↓setAxis_view]

@[simp ↓] theorem axEntries_view {m : Nat} (h : P.pi ||| m = m) (a1) (s : State) : view m (axEntries a1 s) = view m s := by
  refine view_mono h ?_
  unfold axEntries
  try dsimp only
  repeat' first
    | with_reducible rfl
    | with_reducible apply view_ite
    | split
    | simp (disch := decide) only [↓setRef_view]

theorem axisTick_view {m : Nat} (h : P.event ||| P.axes ||| P.pi ||| m = m) (a supply drive : Nat) (s : State) :
    view m (axisTick a supply drive s) = view m s := by
  refine view_mono h ?_
  have axis : ∀ (t : State) f, view (P.event ||| P.axes ||| P.pi) (t.setAxis a f) = view (P.event ||| P.axes ||| P.pi) t :=
    fun t f => setAxis_view (by decide) t a f
  have cmd : ∀ c o (t : State), view (P.event ||| P.axes ||| P.pi) (axCommand a c o t) = view (P.event ||| P.axes ||| P.pi) t :=
    fun c o t => axCommand_view (by decide) a c o t
  unfold axisTick
  extract_lets t t1 t2 t3 t4 w seq entry mmp panel t5 t6 t7 t8 tgt t9
  have h1 : view (P.event ||| P.axes ||| P.pi) t1 = view (P.event ||| P.axes ||| P.pi) s := by
    refine view_ite ?_ (axis _ _)
    rw [torqueRemoved_view (by decide), axis]
  refine view_ite h1 ?_
  have h2 : view (P.event ||| P.axes ||| P.pi) t2 = view (P.event ||| P.axes ||| P.pi) s :=
    view_ite ((driverFault_view (by decide) _ _ _).trans h1) h1
  have h5 : view (P.event ||| P.axes ||| P.pi) t5 = view (P.event ||| P.axes ||| P.pi) s := by
    rw [axis, wdAction_view (by decide), homeWatch_view (by decide), limitTick_view (by decide), h2]
  have h6 : view (P.event ||| P.axes ||| P.pi) t6 = view (P.event ||| P.axes ||| P.pi) s := by
    refine (forAll_keeps (view _) (fun _ _ => ?_) _).trans h5
    simp only [forAll_keeps (view _) (fun _ _ => cmd _ _ _)]
  have h8 : view (P.event ||| P.axes ||| P.pi) t8 = view (P.event ||| P.axes ||| P.pi) s := by
    refine (forAll_keeps (view _) (fun _ _ => cmd _ _ _) _).trans ?_
    exact (forAll_keeps (view _) (fun _ _ => cmd _ _ _) _).trans h6
  rw [axEntries_view (by decide), estTick_view (by decide)]
  exact view_ite ((targetChange_view (by decide) _ _ _).trans h8) h8

@[simp ↓] theorem afterAdvance_view {m : Nat} (h : P.event ||| P.axes ||| m = m) (a1) (a2) (a3) (s : State) : view m (afterAdvance a1 a2 a3 s) = view m s := by
  refine view_mono h ?_
  unfold afterAdvance
  try dsimp only
  repeat' first
    | with_reducible rfl
    | with_reducible apply view_ite
    | split
    | simp (disch := decide) only [↓setAxis_view, ↓deenergised_view, ↓tryMove_view, ↓homeWatch_view, ↓brakeTo_view, ↓homeFail_view, ↓homeSet_view, ↓homeDone_view]
    | (refine (congrArg (fun p => view _ p.1) ‹tryMove _ _ _ = _›).symm.trans ((tryMove_view ?_ _ _ _).trans ?_); decide)

@[simp ↓] theorem moveStep_view {m : Nat} (h : P.event ||| P.axes ||| m = m) (a1) (s : State) : view m (moveStep a1 s) = view m s := by
  refine view_mono h ?_
  unfold moveStep
  try dsimp only
  repeat' first
    | with_reducible rfl
    | with_reducible apply view_ite
    | split
    | simp (disch := decide) only [↓setAxis_view, ↓afterAdvance_view]

@[simp ↓] theorem queueStep_view {m : Nat} (h : P.axes ||| m = m) (a1) (s : State) : view m (queueStep a1 s) = view m s := by
  refine view_mono h ?_
  unfold queueStep
  try dsimp only
  repeat' first
    | with_reducible rfl
    | with_reducible apply view_ite
    | split
    | simp (disch := decide) only [↓setAxis_view]

@[simp ↓] theorem microstep_view {m : Nat} (h : P.event ||| P.axes ||| m = m) (a1) (s : State) : view m (microstep a1 s) = view m s := by
  refine view_mono h ?_
  unfold microstep
  try dsimp only
  repeat' first
    | with_reducible rfl
    | with_reducible apply view_ite
    | split
    | simp (disch := decide) only [↓moveStep_view, ↓queueStep_view]

@[simp ↓] theorem dwellEnd_view {m : Nat} (h : P.event ||| P.axes ||| m = m) (a1) (s : State) : view m (dwellEnd a1 s) = view m s := by
  refine view_mono h ?_
  unfold dwellEnd
  try dsimp only
  repeat' first
    | with_reducible rfl
    | with_reducible apply view_ite
    | split
    | simp (disch := decide) only [↓tryMove_view, ↓setAxis_view, ↓homeBackoff_view]
    | (refine (congrArg (fun p => view _ p.1) ‹tryMove _ _ _ = _›).symm.trans ((tryMove_view ?_ _ _ _).trans ?_); decide)

@[simp ↓] theorem holdDelay_view {m : Nat} (h : P.axes ||| m = m) (a1) (s : State) : view m (holdDelay a1 s) = view m s := by
  refine view_mono h ?_
  unfold holdDelay
  try dsimp only
  repeat' first
    | with_reducible rfl
    | with_reducible apply view_ite
    | split
    | simp (disch := decide) only [↓setAxis_view]

@[simp ↓] theorem velocityUpdate_view {m : Nat} (h : P.axes ||| m = m) (a1) (s : State) : view m (velocityUpdate a1 s) = view m s := by
  refine view_mono h ?_
  unfold velocityUpdate
  try dsimp only
  repeat' first
    | with_reducible rfl
    | with_reducible apply view_ite
    | split
    | simp (disch := decide) only [↓setAxis_view]

@[simp ↓] theorem carryStep_view {m : Nat} (h : P.event ||| P.axes ||| m = m) (a1) (s : State) : view m (carryStep a1 s) = view m s := by
  refine view_mono h ?_
  unfold carryStep
  try dsimp only
  repeat' first
    | with_reducible rfl
    | with_reducible apply view_ite
    | split
    | simp (disch := decide) only [↓setAxis_view, ↓afterAdvance_view]

@[simp ↓] theorem stepEdge_view {m : Nat} (h : P.event ||| P.axes ||| m = m) (a1) (a2) (s : State) : view m (stepEdge a1 a2 s) = view m s := by
  refine view_mono h ?_
  unfold stepEdge
  try dsimp only
  repeat' first
    | with_reducible rfl
    | with_reducible apply view_ite
    | split
    | simp (disch := decide) only [↓setAxis_view, ↓raiseAx_view, ↓raiseIf_view]

@[simp ↓] theorem stall_view {m : Nat} (h : P.event ||| P.axes ||| m = m) (a1) (s : State) : view m (stall a1 s) = view m s := by
  refine view_mono h ?_
  unfold stall
  try dsimp only
  repeat' first
    | with_reducible rfl
    | with_reducible apply view_ite
    | split
    | simp (disch := decide) only [↓setAxis_view, ↓homeSet_view, ↓raiseAx_view, ↓axFault_view, ↓homeFail_view]

@[simp ↓] theorem loadEstimate_view {m : Nat} (h : P.event ||| P.axes ||| m = m) (a1) (a2) (a3) (s : State) : view m (loadEstimate a1 a2 a3 s) = view m s := by
  refine view_mono h ?_
  unfold loadEstimate
  try dsimp only
  repeat' first
    | with_reducible rfl
    | with_reducible apply view_ite
    | split
    | simp (disch := decide) only [↓setAxis_view, ↓stall_view]

@[simp ↓] theorem potCheck_view {m : Nat} (h : P.event ||| P.axes ||| m = m) (a1) (s : State) : view m (potCheck a1 s) = view m s := by
  refine view_mono h ?_
  unfold potCheck
  try dsimp only
  repeat' first
    | with_reducible rfl
    | with_reducible apply view_ite
    | split
    | simp (disch := decide) only [↓setAxis_view, ↓raiseAx_view, ↓axFault_view]

@[simp ↓] theorem latchLimits_view {m : Nat} (h : P.event ||| P.axes ||| m = m) (a1) (s : State) : view m (latchLimits a1 s) = view m s := by
  refine view_mono h ?_
  unfold latchLimits
  try dsimp only
  repeat' first
    | with_reducible rfl
    | with_reducible apply view_ite
    | split
    | simp (disch := decide) only [↓limitAssert_view]

@[simp ↓] theorem pitchAxis_view {m : Nat} (h : P.event ||| P.axes ||| m = m) (a1) (a2) (a3) (s : State) : view m (pitchAxis a1 a2 a3 s) = view m s := by
  refine view_mono h ?_
  unfold pitchAxis
  try dsimp only
  repeat' first
    | with_reducible rfl
    | with_reducible apply view_ite
    | split
    | simp (disch := decide) only [↓setAxis_view, ↓latchLimits_view]

@[simp ↓] theorem resetAxis_view {m : Nat} (h : P.axes ||| m = m) (a1) (s : State) : view m (resetAxis a1 s) = view m s := by
  refine view_mono h ?_
  unfold resetAxis
  try dsimp only
  repeat' first
    | with_reducible rfl
    | with_reducible apply view_ite
    | split
    | simp (disch := decide) only [↓setAxis_view]

@[simp ↓] theorem drainAxis_view {m : Nat} (h : P.event ||| P.axes ||| m = m) (a1) (s : State) : view m (drainAxis a1 s) = view m s := by
  refine view_mono h ?_
  unfold drainAxis
  try dsimp only
  repeat' first
    | with_reducible rfl
    | with_reducible apply view_ite
    | split
    | simp (disch := decide) only [↓cmdStop_view]
    | (refine (congrArg (fun p => view _ p.1) ‹cmdStop _ _ = _›).symm.trans ((cmdStop_view ?_ _ _).trans ?_); decide)

@[simp ↓] theorem drainedAxis_view {m : Nat} (h : P.axes ||| m = m) (a1) (a2) (s : State) : view m (drainedAxis a1 a2 s) = view m s := by
  refine view_mono h ?_
  unfold drainedAxis
  try dsimp only
  repeat' first
    | with_reducible rfl
    | with_reducible apply view_ite
    | split
    | simp (disch := decide) only [↓setAxis_view]

theorem execAxisTick_view {m : Nat} (h : P.event ||| P.axes ||| P.pi ||| m = m) (a1) (a2) (a3) (s : State) {t} (e : execAxisTick a1 a2 a3 s = .next t) : view m t = view m s := by
  refine view_mono h ?_
  unfold execAxisTick at e
  obtain rfl := Host.Outcome.next.inj e
  repeat' first
    | with_reducible rfl
    | with_reducible apply view_ite
    | split
    | simp (disch := decide) only [↓axisTick_view]

theorem execEnergise_view {m : Nat} (h : P.event ||| P.axes ||| m = m) (a1) (a2) (s : State) {t} (e : execEnergise a1 a2 s = .next t) : view m t = view m s := by
  refine view_mono h ?_
  unfold execEnergise at e
  obtain rfl := Host.Outcome.next.inj e
  repeat' first
    | with_reducible rfl
    | with_reducible apply view_ite
    | split
    | simp (disch := decide) only [↓axCommand_view]

theorem execDeenergise_view {m : Nat} (h : P.event ||| P.axes ||| m = m) (a1) (a2) (s : State) {t} (e : execDeenergise a1 a2 s = .next t) : view m t = view m s := by
  refine view_mono h ?_
  unfold execDeenergise at e
  obtain rfl := Host.Outcome.next.inj e
  repeat' first
    | with_reducible rfl
    | with_reducible apply view_ite
    | split
    | simp (disch := decide) only [↓axCommand_view]

theorem execStop_view {m : Nat} (h : P.event ||| P.axes ||| m = m) (a1) (a2) (s : State) {t} (e : execStop a1 a2 s = .next t) : view m t = view m s := by
  refine view_mono h ?_
  unfold execStop at e
  obtain rfl := Host.Outcome.next.inj e
  repeat' first
    | with_reducible rfl
    | with_reducible apply view_ite
    | split
    | simp (disch := decide) only [↓axCommand_view]

theorem execQuickStop_view {m : Nat} (h : P.event ||| P.axes ||| m = m) (a1) (a2) (s : State) {t} (e : execQuickStop a1 a2 s = .next t) : view m t = view m s := by
  refine view_mono h ?_
  unfold execQuickStop at e
  obtain rfl := Host.Outcome.next.inj e
  repeat' first
    | with_reducible rfl
    | with_reducible apply view_ite
    | split
    | simp (disch := decide) only [↓axCommand_view]

theorem execResume_view {m : Nat} (h : P.event ||| P.axes ||| m = m) (a1) (a2) (s : State) {t} (e : execResume a1 a2 s = .next t) : view m t = view m s := by
  refine view_mono h ?_
  unfold execResume at e
  obtain rfl := Host.Outcome.next.inj e
  repeat' first
    | with_reducible rfl
    | with_reducible apply view_ite
    | split
    | simp (disch := decide) only [↓axCommand_view]

theorem execHome_view {m : Nat} (h : P.event ||| P.axes ||| m = m) (a1) (a2) (s : State) {t} (e : execHome a1 a2 s = .next t) : view m t = view m s := by
  refine view_mono h ?_
  unfold execHome at e
  obtain rfl := Host.Outcome.next.inj e
  repeat' first
    | with_reducible rfl
    | with_reducible apply view_ite
    | split
    | simp (disch := decide) only [↓axCommand_view]

theorem execClear_view {m : Nat} (h : P.event ||| P.axes ||| m = m) (a1) (a2) (s : State) {t} (e : execClear a1 a2 s = .next t) : view m t = view m s := by
  refine view_mono h ?_
  unfold execClear at e
  obtain rfl := Host.Outcome.next.inj e
  repeat' first
    | with_reducible rfl
    | with_reducible apply view_ite
    | split
    | simp (disch := decide) only [↓axCommand_view]

theorem execSyncPot_view {m : Nat} (h : P.event ||| P.axes ||| m = m) (a1) (a2) (s : State) {t} (e : execSyncPot a1 a2 s = .next t) : view m t = view m s := by
  refine view_mono h ?_
  unfold execSyncPot at e
  obtain rfl := Host.Outcome.next.inj e
  repeat' first
    | with_reducible rfl
    | with_reducible apply view_ite
    | split
    | simp (disch := decide) only [↓axCommand_view]

theorem execTargetChange_view {m : Nat} (h : P.event ||| P.axes ||| m = m) (a1) (a2) (s : State) {t} (e : execTargetChange a1 a2 s = .next t) : view m t = view m s := by
  refine view_mono h ?_
  unfold execTargetChange at e
  obtain rfl := Host.Outcome.next.inj e
  repeat' first
    | with_reducible rfl
    | with_reducible apply view_ite
    | split
    | simp (disch := decide) only [↓targetChange_view]

theorem execMicrostep_view {m : Nat} (h : P.event ||| P.axes ||| m = m) (a1) (s : State) {t} (e : execMicrostep a1 s = .next t) : view m t = view m s := by
  refine view_mono h ?_
  unfold execMicrostep at e
  obtain rfl := Host.Outcome.next.inj e
  repeat' first
    | with_reducible rfl
    | with_reducible apply view_ite
    | split
    | simp (disch := decide) only [↓microstep_view]

theorem execDwellEnd_view {m : Nat} (h : P.event ||| P.axes ||| m = m) (a1) (s : State) {t} (e : execDwellEnd a1 s = .next t) : view m t = view m s := by
  refine view_mono h ?_
  unfold execDwellEnd at e
  obtain rfl := Host.Outcome.next.inj e
  repeat' first
    | with_reducible rfl
    | with_reducible apply view_ite
    | split
    | simp (disch := decide) only [↓dwellEnd_view]

theorem execHoldDelayEnd_view {m : Nat} (h : P.axes ||| m = m) (a1) (s : State) {t} (e : execHoldDelayEnd a1 s = .next t) : view m t = view m s := by
  refine view_mono h ?_
  unfold execHoldDelayEnd at e
  obtain rfl := Host.Outcome.next.inj e
  repeat' first
    | with_reducible rfl
    | with_reducible apply view_ite
    | split
    | simp (disch := decide) only [↓holdDelay_view]

theorem execAxDriverFault_view {m : Nat} (h : P.event ||| P.axes ||| m = m) (a1) (a2) (s : State) {t} (e : execAxDriverFault a1 a2 s = .next t) : view m t = view m s := by
  refine view_mono h ?_
  unfold execAxDriverFault at e
  obtain rfl := Host.Outcome.next.inj e
  repeat' first
    | with_reducible rfl
    | with_reducible apply view_ite
    | split
    | simp (disch := decide) only [↓driverFault_view]

theorem execAxLimit_view {m : Nat} (h : P.event ||| P.axes ||| m = m) (a1) (a2) (s : State) {t} (e : execAxLimit a1 a2 s = .next t) : view m t = view m s := by
  refine view_mono h ?_
  unfold execAxLimit at e
  obtain rfl := Host.Outcome.next.inj e
  repeat' first
    | with_reducible rfl
    | with_reducible apply view_ite
    | split
    | simp (disch := decide) only [↓limitAssert_view]

theorem execLoadAngleEstimate_view {m : Nat} (h : P.event ||| P.axes ||| m = m) (a1) (a2) (a3) (s : State) {t} (e : execLoadAngleEstimate a1 a2 a3 s = .next t) : view m t = view m s := by
  refine view_mono h ?_
  unfold execLoadAngleEstimate at e
  obtain rfl := Host.Outcome.next.inj e
  repeat' first
    | with_reducible rfl
    | with_reducible apply view_ite
    | split
    | simp (disch := decide) only [↓loadEstimate_view]

theorem execPotCheck_view {m : Nat} (h : P.event ||| P.axes ||| m = m) (a1) (s : State) {t} (e : execPotCheck a1 s = .next t) : view m t = view m s := by
  refine view_mono h ?_
  unfold execPotCheck at e
  obtain rfl := Host.Outcome.next.inj e
  repeat' first
    | with_reducible rfl
    | with_reducible apply view_ite
    | split
    | simp (disch := decide) only [↓potCheck_view]

theorem execStepEdge_view {m : Nat} (h : P.event ||| P.axes ||| m = m) (a1) (a2) (s : State) {t} (e : execStepEdge a1 a2 s = .next t) : view m t = view m s := by
  refine view_mono h ?_
  unfold execStepEdge at e
  obtain rfl := Host.Outcome.next.inj e
  repeat' first
    | with_reducible rfl
    | with_reducible apply view_ite
    | split
    | simp (disch := decide) only [↓stepEdge_view]

theorem execVelocityUpdate_view {m : Nat} (h : P.axes ||| m = m) (a1) (s : State) {t} (e : execVelocityUpdate a1 s = .next t) : view m t = view m s := by
  refine view_mono h ?_
  unfold execVelocityUpdate at e
  obtain rfl := Host.Outcome.next.inj e
  repeat' first
    | with_reducible rfl
    | with_reducible apply view_ite
    | split
    | simp (disch := decide) only [↓velocityUpdate_view]

theorem execCarry_view {m : Nat} (h : P.event ||| P.axes ||| m = m) (a1) (s : State) {t} (e : execCarry a1 s = .next t) : view m t = view m s := by
  refine view_mono h ?_
  unfold execCarry at e
  obtain rfl := Host.Outcome.next.inj e
  repeat' first
    | with_reducible rfl
    | with_reducible apply view_ite
    | split
    | simp (disch := decide) only [↓carryStep_view]

end Sys2Proof.Laws
end

