-- ==== Sys2Proof/Laws/Frame/Pool.lean ====
section
/-! SUPPORT. Frame laws of Sys2Proof/Machine/Pool.lean: for each operation, the parts of the state outside which it
changes nothing. -/

namespace Sys2Proof.Laws

open Sys2Proof.Machine

@[simp ↓] theorem setArb_view {m : Nat} (h : P.pool ||| m = m) (a1) (a2) (s : State) : view m (setArb a1 a2 s) = view m s := by
  refine view_mono h ?_
  unfold setArb
  try dsimp only
  repeat' first
    | with_reducible rfl
    | with_reducible apply view_ite
    | split
    | simp (disch := decide) only [↓setPool_view]

@[simp ↓] theorem dropTag_view {m : Nat} (h : P.pool ||| m = m) (a1) (s : State) : view m (dropTag a1 s) = view m s := by
  refine view_mono h ?_
  unfold dropTag
  try dsimp only
  repeat' first
    | with_reducible rfl
    | with_reducible apply view_ite
    | split
    | simp (disch := decide) only [↓setPool_view]

@[simp ↓] theorem moveBurst_view {m : Nat} (h : P.pool ||| m = m) (a1) (a2) (s : State) : view m (moveBurst a1 a2 s) = view m s := by
  refine view_mono h ?_
  unfold moveBurst
  try dsimp only
  repeat' first
    | with_reducible rfl
    | with_reducible apply view_ite
    | split
    | simp (disch := decide) only [↓setPool_view, ↓setArb_view]

@[simp ↓] theorem decisionPoint_view {m : Nat} (h : P.pool ||| m = m) (a1) (a2) (a3) (a4) (s : State) : view m (decisionPoint a1 a2 a3 a4 s) = view m s := by
  refine view_mono h ?_
  unfold decisionPoint
  try dsimp only
  repeat' first
    | with_reducible rfl
    | with_reducible apply view_ite
    | split
    | simp (disch := decide) only [↓setPool_view, ↓setArb_view, ↓moveBurst_view, ↓dropTag_view]

@[simp ↓] theorem poolAlloc_view {m : Nat} (h : P.event ||| P.pool ||| m = m) (a1) (a2) (s : State) : view m (poolAlloc a1 a2 s).2 = view m s := by
  refine view_mono h ?_
  unfold poolAlloc
  try dsimp only
  repeat' first
    | with_reducible rfl
    | with_reducible apply view_ite
    | split
    | simp (disch := decide) only [↓setPool_view, ↓setArb_view, ↓raiseIf_view]
    | with_reducible refine (forAll_keeps (view _) (fun _ _ => ?_) _).trans ?_

@[simp ↓] theorem giveBack_view {m : Nat} (h : P.event ||| P.pool ||| P.can ||| m = m) (a1) (a2) (s : State) : view m (giveBack a1 a2 s) = view m s := by
  refine view_mono h ?_
  unfold giveBack
  try dsimp only
  repeat' first
    | with_reducible rfl
    | with_reducible apply view_ite
    | split
    | simp (disch := decide) only [↓freeBlock_view, ↓view_can]

@[simp ↓] theorem poolParity_view {m : Nat} (h : P.event ||| P.pool ||| m = m) (a1) (s : State) : view m (poolParity a1 s) = view m s := by
  refine view_mono h ?_
  unfold poolParity
  try dsimp only
  repeat' first
    | with_reducible rfl
    | with_reducible apply view_ite
    | split
    | simp (disch := decide) only [↓raiseN_view, ↓setPool_view]

@[simp ↓] theorem scrubFinds_view {m : Nat} (h : P.event ||| P.pool ||| m = m) (a1) (s : State) : view m (scrubFinds a1 s) = view m s := by
  refine view_mono h ?_
  unfold scrubFinds
  try dsimp only
  repeat' first
    | with_reducible rfl
    | with_reducible apply view_ite
    | split
    | simp (disch := decide) only [↓raiseN_view, ↓setPool_view, ↓freeBlock_view]

@[simp ↓] theorem lockRes_view {m : Nat} (h : P.event ||| P.pool ||| m = m) (a1) (a2) (s : State) : view m (lockRes a1 a2 s) = view m s := by
  refine view_mono h ?_
  unfold lockRes
  try dsimp only
  repeat' first
    | with_reducible rfl
    | with_reducible apply view_ite
    | split
    | simp (disch := decide) only [↓raiseN_view, ↓setPool_view]

@[simp ↓] theorem unlockRes_view {m : Nat} (h : P.event ||| P.pool ||| m = m) (a1) (a2) (s : State) : view m (unlockRes a1 a2 s) = view m s := by
  refine view_mono h ?_
  unfold unlockRes
  try dsimp only
  repeat' first
    | with_reducible rfl
    | with_reducible apply view_ite
    | split
    | simp (disch := decide) only [↓passLock_view]

@[simp ↓] theorem arbStarved_view {m : Nat} (h : P.event ||| P.pool ||| m = m) (a1) (s : State) : view m (arbStarved a1 s) = view m s := by
  refine view_mono h ?_
  unfold arbStarved
  try dsimp only
  repeat' first
    | with_reducible rfl
    | with_reducible apply view_ite
    | split
    | simp (disch := decide) only [↓raiseN_view, ↓setPool_view]

@[simp ↓] theorem tagTimeout_view {m : Nat} (h : P.event ||| P.pool ||| m = m) (a1) (a2) (s : State) : view m (tagTimeout a1 a2 s) = view m s := by
  refine view_mono h ?_
  unfold tagTimeout
  try dsimp only
  repeat' first
    | with_reducible rfl
    | with_reducible apply view_ite
    | split
    | simp (disch := decide) only [↓raiseN_view, ↓dropTag_view]

@[simp ↓] theorem fabricParity_view {m : Nat} (h : P.event ||| P.pool ||| m = m) (a1) (a2) (s : State) : view m (fabricParity a1 a2 s) = view m s := by
  refine view_mono h ?_
  unfold fabricParity
  try dsimp only
  repeat' first
    | with_reducible rfl
    | with_reducible apply view_ite
    | split
    | simp (disch := decide) only [↓raiseN_view, ↓setPool_view, ↓dropTag_view]

theorem execDecisionPoint_view {m : Nat} (h : P.pool ||| m = m) (a1) (a2) (a3) (a4) (s : State) {t} (e : execDecisionPoint a1 a2 a3 a4 s = .next t) : view m t = view m s := by
  refine view_mono h ?_
  unfold execDecisionPoint at e
  obtain rfl := Host.Outcome.next.inj e
  repeat' first
    | with_reducible rfl
    | with_reducible apply view_ite
    | split
    | simp (disch := decide) only [↓decisionPoint_view]

theorem execTagTimeout_view {m : Nat} (h : P.event ||| P.pool ||| m = m) (a1) (a2) (s : State) {t} (e : execTagTimeout a1 a2 s = .next t) : view m t = view m s := by
  refine view_mono h ?_
  unfold execTagTimeout at e
  obtain rfl := Host.Outcome.next.inj e
  repeat' first
    | with_reducible rfl
    | with_reducible apply view_ite
    | split
    | simp (disch := decide) only [↓tagTimeout_view]

theorem execPoolAllocate_view {m : Nat} (h : P.event ||| P.pool ||| m = m) (a1) (a2) (s : State) {t} (e : execPoolAllocate a1 a2 s = .next t) : view m t = view m s := by
  refine view_mono h ?_
  unfold execPoolAllocate at e
  obtain rfl := Host.Outcome.next.inj e
  repeat' first
    | with_reducible rfl
    | with_reducible apply view_ite
    | split
    | simp (disch := decide) only [↓poolAlloc_view]
    | (refine (congrArg (fun p => view _ p.2) ‹poolAlloc _ _ _ = _›).symm.trans ((poolAlloc_view ?_ _ _ _).trans ?_); decide)

theorem execBlockFree_view {m : Nat} (h : P.event ||| P.pool ||| P.can ||| m = m) (a1) (a2) (s : State) {t} (e : execBlockFree a1 a2 s = .next t) : view m t = view m s := by
  refine view_mono h ?_
  unfold execBlockFree at e
  obtain rfl := Host.Outcome.next.inj e
  repeat' first
    | with_reducible rfl
    | with_reducible apply view_ite
    | split
    | simp (disch := decide) only [↓giveBack_view]
    | with_reducible refine (forAll_keeps (view _) (fun _ _ => ?_) _).trans ?_

theorem execPoolParity_view {m : Nat} (h : P.event ||| P.pool ||| m = m) (a1) (s : State) {t} (e : execPoolParity a1 s = .next t) : view m t = view m s := by
  refine view_mono h ?_
  unfold execPoolParity at e
  obtain rfl := Host.Outcome.next.inj e
  repeat' first
    | with_reducible rfl
    | with_reducible apply view_ite
    | split
    | simp (disch := decide) only [↓poolParity_view]

theorem execPoolScrub_view {m : Nat} (h : P.event ||| P.pool ||| m = m) (a1) (s : State) {t} (e : execPoolScrub a1 s = .next t) : view m t = view m s := by
  refine view_mono h ?_
  unfold execPoolScrub at e
  obtain rfl := Host.Outcome.next.inj e
  repeat' first
    | with_reducible rfl
    | with_reducible apply view_ite
    | split
    | simp (disch := decide) only [↓scrubFinds_view]
    | with_reducible refine (forAll_keeps (view _) (fun _ _ => ?_) _).trans ?_

theorem execLock_view {m : Nat} (h : P.event ||| P.pool ||| m = m) (a1) (a2) (s : State) {t} (e : execLock a1 a2 s = .next t) : view m t = view m s := by
  refine view_mono h ?_
  unfold execLock at e
  obtain rfl := Host.Outcome.next.inj e
  repeat' first
    | with_reducible rfl
    | with_reducible apply view_ite
    | split
    | simp (disch := decide) only [↓lockRes_view]

theorem execUnlock_view {m : Nat} (h : P.event ||| P.pool ||| m = m) (a1) (a2) (s : State) {t} (e : execUnlock a1 a2 s = .next t) : view m t = view m s := by
  refine view_mono h ?_
  unfold execUnlock at e
  obtain rfl := Host.Outcome.next.inj e
  repeat' first
    | with_reducible rfl
    | with_reducible apply view_ite
    | split
    | simp (disch := decide) only [↓unlockRes_view]

theorem execArbStarved_view {m : Nat} (h : P.event ||| P.pool ||| m = m) (a1) (s : State) {t} (e : execArbStarved a1 s = .next t) : view m t = view m s := by
  refine view_mono h ?_
  unfold execArbStarved at e
  obtain rfl := Host.Outcome.next.inj e
  repeat' first
    | with_reducible rfl
    | with_reducible apply view_ite
    | split
    | simp (disch := decide) only [↓arbStarved_view]

end Sys2Proof.Laws
end

