-- ==== Sys2Proof/Laws/Frame/Bsl.lean ====
section
/-! SUPPORT. Frame laws of Sys2Proof/Machine/Bsl.lean: for each operation, the parts of the state outside which it
changes nothing. -/

namespace Sys2Proof.Laws

open Sys2Proof.Machine

@[simp ↓] theorem setBr_view {m : Nat} (h : P.bedrock ||| m = m) (s : State) (a2) : view m (State.setBr s a2) = view m s :=
  view_bedrock h s _

@[simp ↓] theorem setBsl_view {m : Nat} (h : P.bedrock ||| m = m) (s : State) (a2) (a3) : view m (State.setBsl s a2 a3) = view m s := by
  refine view_mono h ?_
  unfold State.setBsl
  try dsimp only
  repeat' first
    | with_reducible rfl
    | with_reducible apply view_ite
    | split
    | simp (disch := decide) only [↓setBr_view]

@[simp ↓] theorem raiseBsl_view {m : Nat} (h : P.event ||| m = m) (a1) (a2) (a3) (s : State) : view m (raiseBsl a1 a2 a3 s) = view m s := by
  refine view_mono h ?_
  unfold raiseBsl
  try dsimp only
  repeat' first
    | with_reducible rfl
    | with_reducible apply view_ite
    | split
    | simp (disch := decide) only [↓raiseN_view]

@[simp ↓] theorem bslReject_view {m : Nat} (h : P.event ||| P.bedrock ||| m = m) (a1) (a2) (s : State) : view m (bslReject a1 a2 s) = view m s := by
  refine view_mono h ?_
  unfold bslReject
  try dsimp only
  repeat' first
    | with_reducible rfl
    | with_reducible apply view_ite
    | split
    | simp (disch := decide) only [↓raiseBsl_view, ↓setBsl_view]

@[simp ↓] theorem bslAccept_view {m : Nat} (h : P.bedrock ||| m = m) (a1) (a2) (a3) (a4) (a5) (a6) (a7) (a8) (s : State) : view m (bslAccept a1 a2 a3 a4 a5 a6 a7 a8 s) = view m s := by
  refine view_mono h ?_
  unfold bslAccept
  try dsimp only
  repeat' first
    | with_reducible rfl
    | with_reducible apply view_ite
    | split
    | simp (disch := decide) only [↓setBsl_view]

@[simp ↓] theorem bslPassed_view {m : Nat} (h : P.event ||| P.bedrock ||| m = m) (a1) (a2) (s : State) : view m (bslPassed a1 a2 s) = view m s := by
  refine view_mono h ?_
  unfold bslPassed
  try dsimp only
  repeat' first
    | with_reducible rfl
    | with_reducible apply view_ite
    | split
    | simp (disch := decide) only [↓bslAccept_view, ↓bslReject_view, ↓setBsl_view, ↓raiseBsl_view]

@[simp ↓] theorem bslOffer_view {m : Nat} (h : P.event ||| P.bedrock ||| m = m) (a1) (a2) (s : State) : view m (bslOffer a1 a2 s) = view m s := by
  refine view_mono h ?_
  unfold bslOffer
  try dsimp only
  repeat' first
    | with_reducible rfl
    | with_reducible apply view_ite
    | split
    | simp (disch := decide) only [↓bslPassed_view, ↓bslReject_view]

@[simp ↓] theorem bslTimeout_view {m : Nat} (h : P.event ||| P.bedrock ||| m = m) (a1) (s : State) : view m (bslTimeout a1 s) = view m s := by
  refine view_mono h ?_
  unfold bslTimeout
  try dsimp only
  repeat' first
    | with_reducible rfl
    | with_reducible apply view_ite
    | split
    | simp (disch := decide) only [↓raiseBsl_view, ↓setBsl_view]

theorem execBslTimeout_view {m : Nat} (h : P.event ||| P.bedrock ||| m = m) (a1) (s : State) {t} (e : execBslTimeout a1 s = .next t) : view m t = view m s := by
  refine view_mono h ?_
  unfold execBslTimeout at e
  obtain rfl := Host.Outcome.next.inj e
  repeat' first
    | with_reducible rfl
    | with_reducible apply view_ite
    | split
    | simp (disch := decide) only [↓bslTimeout_view]

end Sys2Proof.Laws
end

