-- ==== Sys2Proof/Laws/Frame/Can.lean ====
section
/-! SUPPORT. Frame laws of Sys2Proof/Machine/Can.lean: for each operation, the parts of the state outside which it
changes nothing. -/

namespace Sys2Proof.Laws

open Sys2Proof.Machine

@[simp ↓] theorem setCan_view {m : Nat} (h : P.can ||| m = m) (s : State) (a2) (a3) : view m (State.setCan s a2 a3) = view m s :=
  view_can h s _

@[simp ↓] theorem raiseCan_view {m : Nat} (h : P.event ||| m = m) (a1) (a2) (a3) (s : State) : view m (raiseCan a1 a2 a3 s) = view m s := by
  refine view_mono h ?_
  unfold raiseCan
  try dsimp only
  repeat' first
    | with_reducible rfl
    | with_reducible apply view_ite
    | split
    | simp (disch := decide) only [↓raiseN_view]

@[simp ↓] theorem filterNote_view {m : Nat} (h : P.event ||| P.can ||| m = m) (a1) (s : State) : view m (filterNote a1 s) = view m s := by
  refine view_mono h ?_
  unfold filterNote
  try dsimp only
  repeat' first
    | with_reducible rfl
    | with_reducible apply view_ite
    | split
    | simp (disch := decide) only [↓raiseCan_view, ↓setCan_view]

@[simp ↓] theorem dropFrame_view {m : Nat} (h : P.event ||| P.can ||| m = m) (a1) (a2) (a3) (s : State) : view m (dropFrame a1 a2 a3 s) = view m s := by
  refine view_mono h ?_
  unfold dropFrame
  try dsimp only
  repeat' first
    | with_reducible rfl
    | with_reducible apply view_ite
    | split
    | simp (disch := decide) only [↓raiseIf_view, ↓setCan_view]

@[simp ↓] theorem queueFrame_view {m : Nat} (h : P.event ||| P.pool ||| P.can ||| m = m) (a1) (a2) (a3) (a4) (s : State) : view m (queueFrame a1 a2 a3 a4 s) = view m s := by
  refine view_mono h ?_
  unfold queueFrame
  try dsimp only
  repeat' first
    | with_reducible rfl
    | with_reducible apply view_ite
    | split
    | simp (disch := decide) only [↓dropFrame_view, ↓poolAlloc_view, ↓raiseIf_view, ↓setCan_view]
    | (refine (congrArg (fun p => view _ p.2) ‹poolAlloc _ _ _ = _›).symm.trans ((poolAlloc_view ?_ _ _ _).trans ?_); decide)

@[simp ↓] theorem deliverFrame_view {m : Nat} (h : P.event ||| P.bedrock ||| P.pool ||| P.can ||| m = m) (a1) (a2) (s : State) : view m (deliverFrame a1 a2 s) = view m s := by
  refine view_mono h ?_
  unfold deliverFrame
  try dsimp only
  repeat' first
    | with_reducible rfl
    | with_reducible apply view_ite
    | split
    | simp (disch := decide) only [↓queueFrame_view, ↓setCan_view, ↓bslOffer_view]

@[simp ↓] theorem startFrame_view {m : Nat} (h : P.can ||| m = m) (a1) (s : State) : view m (startFrame a1 s) = view m s := by
  refine view_mono h ?_
  unfold startFrame
  try dsimp only
  repeat' first
    | with_reducible rfl
    | with_reducible apply view_ite
    | split
    | simp (disch := decide) only [↓setCan_view]

@[simp ↓] theorem canRequest_view {m : Nat} (h : P.can ||| m = m) (a1) (a2) (a3) (s : State) : view m (canRequest a1 a2 a3 s) = view m s := by
  refine view_mono h ?_
  unfold canRequest
  try dsimp only
  repeat' first
    | with_reducible rfl
    | with_reducible apply view_ite
    | split
    | simp (disch := decide) only [↓setCan_view, ↓startFrame_view]

@[simp ↓] theorem errState_view {m : Nat} (h : P.event ||| P.can ||| m = m) (a1) (s : State) : view m (errState a1 s) = view m s := by
  refine view_mono h ?_
  unfold errState
  try dsimp only
  repeat' first
    | with_reducible rfl
    | with_reducible apply view_ite
    | split
    | simp (disch := decide) only [↓raiseCan_view, ↓setCan_view]

@[simp ↓] theorem canTestStep_view {m : Nat} (h : P.event ||| P.can ||| m = m) (a1) (s : State) : view m (canTestStep a1 s) = view m s := by
  refine view_mono h ?_
  unfold canTestStep
  try dsimp only
  repeat' first
    | with_reducible rfl
    | with_reducible apply view_ite
    | split
    | simp (disch := decide) only [↓setCan_view, ↓errState_view]

@[simp ↓] theorem settleCan_view {m : Nat} (h : P.event ||| P.can ||| m = m) (a1) (s : State) : view m (settleCan a1 s) = view m s := by
  refine view_mono h ?_
  unfold settleCan
  try dsimp only
  repeat' first
    | with_reducible rfl
    | with_reducible apply view_ite
    | split
    | simp (disch := decide) only [↓startFrame_view, ↓filterNote_view, ↓canTestStep_view]

@[simp ↓] theorem recDown_view {m : Nat} (h : P.can ||| P.freeCount ||| m = m) (a1) (s : State) : view m (recDown a1 s) = view m s := by
  refine view_mono h ?_
  unfold recDown
  try dsimp only
  repeat' first
    | with_reducible rfl
    | with_reducible apply view_ite
    | split
    | simp (disch := decide) only [↓takeFree_view, ↓setCan_view]
    | (refine (congrArg (fun p => view _ p.2) ‹takeFree _ = _›).symm.trans ((takeFree_view ?_ _).trans ?_); decide)

@[simp ↓] theorem okFrame_view {m : Nat} (h : P.can ||| m = m) (a1) (s : State) : view m (okFrame a1 s) = view m s := by
  refine view_mono h ?_
  unfold okFrame
  try dsimp only
  repeat' first
    | with_reducible rfl
    | with_reducible apply view_ite
    | split
    | simp (disch := decide) only [↓setCan_view]

@[simp ↓] theorem canReceive_view {m : Nat} (h : P.event ||| P.bedrock ||| P.pool ||| P.can ||| P.freeCount ||| m = m) (a1) (a2) (s : State) : view m (canReceive a1 a2 s) = view m s := by
  refine view_mono h ?_
  unfold canReceive
  try dsimp only
  repeat' first
    | with_reducible rfl
    | with_reducible apply view_ite
    | split
    | simp (disch := decide) only [↓setCan_view, ↓deliverFrame_view, ↓filterNote_view, ↓settleCan_view, ↓errState_view, ↓okFrame_view, ↓recDown_view]

@[simp ↓] theorem canTxEnd_view {m : Nat} (h : P.event ||| P.bedrock ||| P.pool ||| P.can ||| m = m) (a1) (a2) (a3) (s : State) : view m (canTxEnd a1 a2 a3 s) = view m s := by
  refine view_mono h ?_
  unfold canTxEnd
  try dsimp only
  repeat' first
    | with_reducible rfl
    | with_reducible apply view_ite
    | split
    | simp (disch := decide) only [↓setCan_view, ↓deliverFrame_view, ↓filterNote_view, ↓settleCan_view, ↓errState_view, ↓okFrame_view, ↓raiseCan_view]

@[simp ↓] theorem busOffStops_view {m : Nat} (h : P.event ||| P.can ||| m = m) (a1) (s : State) : view m (busOffStops a1 s) = view m s := by
  refine view_mono h ?_
  unfold busOffStops
  try dsimp only
  repeat' first
    | with_reducible rfl
    | with_reducible apply view_ite
    | split
    | simp (disch := decide) only [↓raiseCan_view, ↓setCan_view]
    | with_reducible refine (forAll_keeps (view _) (fun _ _ => ?_) _).trans ?_

@[simp ↓] theorem canError_view {m : Nat} (h : P.event ||| P.can ||| m = m) (a1) (a2) (a3) (s : State) : view m (canError a1 a2 a3 s) = view m s := by
  refine view_mono h ?_
  unfold canError
  try dsimp only
  repeat' first
    | with_reducible rfl
    | with_reducible apply view_ite
    | split
    | simp (disch := decide) only [↓setCan_view, ↓busOffStops_view, ↓settleCan_view, ↓raiseCan_view, ↓errState_view]

@[simp ↓] theorem busOffRecovery_view {m : Nat} (h : P.event ||| P.can ||| m = m) (a1) (s : State) : view m (busOffRecovery a1 s) = view m s := by
  refine view_mono h ?_
  unfold busOffRecovery
  try dsimp only
  repeat' first
    | with_reducible rfl
    | with_reducible apply view_ite
    | split
    | simp (disch := decide) only [↓settleCan_view, ↓setCan_view]

@[simp ↓] theorem canRecovered_view {m : Nat} (h : P.event ||| P.can ||| m = m) (a1) (s : State) : view m (canRecovered a1 s) = view m s := by
  refine view_mono h ?_
  unfold canRecovered
  try dsimp only
  repeat' first
    | with_reducible rfl
    | with_reducible apply view_ite
    | split
    | simp (disch := decide) only [↓settleCan_view, ↓errState_view, ↓raiseCan_view, ↓setCan_view]

@[simp ↓] theorem busIntegration_view {m : Nat} (h : P.event ||| P.can ||| m = m) (a1) (s : State) : view m (busIntegration a1 s) = view m s := by
  refine view_mono h ?_
  unfold busIntegration
  try dsimp only
  repeat' first
    | with_reducible rfl
    | with_reducible apply view_ite
    | split
    | simp (disch := decide) only [↓settleCan_view, ↓setCan_view]

@[simp ↓] theorem canTestWrite_view {m : Nat} (h : P.event ||| P.can ||| m = m) (a1) (a2) (a3) (s : State) : view m (canTestWrite a1 a2 a3 s) = view m s := by
  refine view_mono h ?_
  unfold canTestWrite
  try dsimp only
  repeat' first
    | with_reducible rfl
    | with_reducible apply view_ite
    | split
    | simp (disch := decide) only [↓settleCan_view, ↓setCan_view]

@[simp ↓] theorem pairStage_view {m : Nat} (h : P.can ||| m = m) (a1) (a2) (a3) (a4) (s : State) : view m (pairStage a1 a2 a3 a4 s) = view m s := by
  refine view_mono h ?_
  unfold pairStage
  try dsimp only
  repeat' first
    | with_reducible rfl
    | with_reducible apply view_ite
    | split
    | simp (disch := decide) only [↓setCan_view]

@[simp ↓] theorem pairLoad_view {m : Nat} (h : P.event ||| P.can ||| m = m) (a1) (a2) (a3) (a4) (s : State) : view m (pairLoad a1 a2 a3 a4 s) = view m s := by
  refine view_mono h ?_
  unfold pairLoad
  try dsimp only
  repeat' first
    | with_reducible rfl
    | with_reducible apply view_ite
    | split
    | simp (disch := decide) only [↓raise_view, ↓setCan_view]

theorem wakeWrite_view {m : Nat} (h : P.can ||| m = m) (a1) (a2) (a3) (s : State) {t} (e : wakeWrite a1 a2 a3 s = some t) : view m t = view m s := by
  refine view_mono h ?_
  unfold wakeWrite at e
  try dsimp only at e
  repeat' split at e
  all_goals first | (obtain rfl := Option.some.inj e) | (exact nomatch e)
  repeat' first
    | with_reducible rfl
    | with_reducible apply view_ite
    | split
    | simp (disch := decide) only [↓setCan_view]

@[simp ↓] theorem abortFrames_view {m : Nat} (h : P.event ||| P.can ||| m = m) (a1) (s : State) : view m (abortFrames a1 s) = view m s := by
  refine view_mono h ?_
  unfold abortFrames
  try dsimp only
  repeat' first
    | with_reducible rfl
    | with_reducible apply view_ite
    | split
    | simp (disch := decide) only [↓setCan_view, ↓raiseIf_view]
    | with_reducible refine (forAll_keeps (view _) (fun _ _ => ?_) _).trans ?_

@[simp ↓] theorem canSleep_view {m : Nat} (h : P.event ||| P.can ||| m = m) (a1) (s : State) : view m (canSleep a1 s) = view m s := by
  refine view_mono h ?_
  unfold canSleep
  try dsimp only
  repeat' first
    | with_reducible rfl
    | with_reducible apply view_ite
    | split
    | simp (disch := decide) only [↓abortFrames_view, ↓setCan_view]

@[simp ↓] theorem resetCan_view {m : Nat} (h : P.event ||| P.pool ||| P.can ||| m = m) (a1) (s : State) : view m (resetCan a1 s) = view m s := by
  refine view_mono h ?_
  unfold resetCan
  try dsimp only
  repeat' first
    | with_reducible rfl
    | with_reducible apply view_ite
    | split
    | simp (disch := decide) only [↓freeBlocksOf_view, ↓abortFrames_view, ↓filterNote_view, ↓setCan_view]

theorem execCanRxFrame_view {m : Nat} (h : P.event ||| P.bedrock ||| P.pool ||| P.can ||| P.freeCount ||| m = m) (a1) (a2) (s : State) {t} (e : execCanRxFrame a1 a2 s = .next t) : view m t = view m s := by
  refine view_mono h ?_
  unfold execCanRxFrame at e
  obtain rfl := Host.Outcome.next.inj e
  repeat' first
    | with_reducible rfl
    | with_reducible apply view_ite
    | split
    | simp (disch := decide) only [↓canReceive_view]

theorem execCanTxRequest_view {m : Nat} (h : P.can ||| m = m) (a1) (a2) (a3) (s : State) {t} (e : execCanTxRequest a1 a2 a3 s = .next t) : view m t = view m s := by
  refine view_mono h ?_
  unfold execCanTxRequest at e
  obtain rfl := Host.Outcome.next.inj e
  repeat' first
    | with_reducible rfl
    | with_reducible apply view_ite
    | split
    | simp (disch := decide) only [↓canRequest_view]

theorem execCanTxEnd_view {m : Nat} (h : P.event ||| P.bedrock ||| P.pool ||| P.can ||| m = m) (a1) (a2) (a3) (s : State) {t} (e : execCanTxEnd a1 a2 a3 s = .next t) : view m t = view m s := by
  refine view_mono h ?_
  unfold execCanTxEnd at e
  obtain rfl := Host.Outcome.next.inj e
  repeat' first
    | with_reducible rfl
    | with_reducible apply view_ite
    | split
    | simp (disch := decide) only [↓canTxEnd_view]

theorem execCanError_view {m : Nat} (h : P.event ||| P.can ||| m = m) (a1) (a2) (a3) (s : State) {t} (e : execCanError a1 a2 a3 s = .next t) : view m t = view m s := by
  refine view_mono h ?_
  unfold execCanError at e
  obtain rfl := Host.Outcome.next.inj e
  repeat' first
    | with_reducible rfl
    | with_reducible apply view_ite
    | split
    | simp (disch := decide) only [↓canError_view]

theorem execBusOffRecovery_view {m : Nat} (h : P.event ||| P.can ||| m = m) (a1) (s : State) {t} (e : execBusOffRecovery a1 s = .next t) : view m t = view m s := by
  refine view_mono h ?_
  unfold execBusOffRecovery at e
  obtain rfl := Host.Outcome.next.inj e
  repeat' first
    | with_reducible rfl
    | with_reducible apply view_ite
    | split
    | simp (disch := decide) only [↓busOffRecovery_view]

theorem execCanRecovered_view {m : Nat} (h : P.event ||| P.can ||| m = m) (a1) (s : State) {t} (e : execCanRecovered a1 s = .next t) : view m t = view m s := by
  refine view_mono h ?_
  unfold execCanRecovered at e
  obtain rfl := Host.Outcome.next.inj e
  repeat' first
    | with_reducible rfl
    | with_reducible apply view_ite
    | split
    | simp (disch := decide) only [↓canRecovered_view]

theorem execCanTest_view {m : Nat} (h : P.event ||| P.can ||| m = m) (a1) (a2) (a3) (s : State) {t} (e : execCanTest a1 a2 a3 s = .next t) : view m t = view m s := by
  refine view_mono h ?_
  unfold execCanTest at e
  obtain rfl := Host.Outcome.next.inj e
  repeat' first
    | with_reducible rfl
    | with_reducible apply view_ite
    | split
    | simp (disch := decide) only [↓canTestWrite_view]

theorem execCanFilterEdited_view {m : Nat} (h : P.event ||| P.can ||| m = m) (a1) (a2) (a3) (a4) (s : State) {t} (e : execCanFilterEdited a1 a2 a3 a4 s = .next t) : view m t = view m s := by
  refine view_mono h ?_
  unfold execCanFilterEdited at e
  obtain rfl := Host.Outcome.next.inj e
  repeat' first
    | with_reducible rfl
    | with_reducible apply view_ite
    | split
    | simp (disch := decide) only [↓pairLoad_view]

theorem execBusIntegration_view {m : Nat} (h : P.event ||| P.can ||| m = m) (a1) (s : State) {t} (e : execBusIntegration a1 s = .next t) : view m t = view m s := by
  refine view_mono h ?_
  unfold execBusIntegration at e
  obtain rfl := Host.Outcome.next.inj e
  repeat' first
    | with_reducible rfl
    | with_reducible apply view_ite
    | split
    | simp (disch := decide) only [↓busIntegration_view]

end Sys2Proof.Laws
end

