-- ==== Sys2Proof/Laws/Frame/Bedrock.lean ====
section
/-! SUPPORT. Frame laws of Sys2Proof/Machine/Bedrock.lean: for each operation, the parts of the state outside which it
changes nothing. -/

namespace Sys2Proof.Laws

open Sys2Proof.Machine

@[simp ↓] theorem setSf_view {m : Nat} (h : P.bedrock ||| m = m) (s : State) (a2) (a3) : view m (State.setSf s a2 a3) = view m s := by
  refine view_mono h ?_
  unfold State.setSf
  try dsimp only
  repeat' first
    | with_reducible rfl
    | with_reducible apply view_ite
    | split
    | simp (disch := decide) only [↓setBr_view]

@[simp ↓] theorem setVg_view {m : Nat} (h : P.bedrock ||| m = m) (s : State) (a2) (a3) : view m (State.setVg s a2 a3) = view m s := by
  refine view_mono h ?_
  unfold State.setVg
  try dsimp only
  repeat' first
    | with_reducible rfl
    | with_reducible apply view_ite
    | split
    | simp (disch := decide) only [↓setBr_view]

@[simp ↓] theorem setSto_view {m : Nat} (h : P.bedrock ||| m = m) (s : State) (a2) (a3) : view m (State.setSto s a2 a3) = view m s := by
  refine view_mono h ?_
  unfold State.setSto
  try dsimp only
  repeat' first
    | with_reducible rfl
    | with_reducible apply view_ite
    | split
    | simp (disch := decide) only [↓setBr_view]

@[simp ↓] theorem raiseSf_view {m : Nat} (h : P.event ||| m = m) (a1) (a2) (a3) (s : State) : view m (raiseSf a1 a2 a3 s) = view m s := by
  refine view_mono h ?_
  unfold raiseSf
  try dsimp only
  repeat' first
    | with_reducible rfl
    | with_reducible apply view_ite
    | split
    | simp (disch := decide) only [↓raiseN_view]

@[simp ↓] theorem raiseVg_view {m : Nat} (h : P.event ||| m = m) (a1) (a2) (a3) (s : State) : view m (raiseVg a1 a2 a3 s) = view m s := by
  refine view_mono h ?_
  unfold raiseVg
  try dsimp only
  repeat' first
    | with_reducible rfl
    | with_reducible apply view_ite
    | split
    | simp (disch := decide) only [↓raiseN_view]

@[simp ↓] theorem stoLine_view {m : Nat} (h : P.bedrock ||| m = m) (a1) (s : State) : view m (stoLine a1 s) = view m s := by
  refine view_mono h ?_
  unfold stoLine
  try dsimp only
  repeat' first
    | with_reducible rfl
    | with_reducible apply view_ite
    | split
    | simp (disch := decide) only [↓setSto_view]

@[simp ↓] theorem axisLine_view {m : Nat} (h : P.event ||| P.axes ||| m = m) (a1) (s : State) : view m (axisLine a1 s) = view m s := by
  refine view_mono h ?_
  unfold axisLine
  try dsimp only
  repeat' first
    | with_reducible rfl
    | with_reducible apply view_ite
    | split
    | simp (disch := decide) only [↓ss1Brake_view, ↓setAxis_view, ↓torqueRemoved_view, ↓torqueRestored_view]

@[simp ↓] theorem brLines_view {m : Nat} (h : P.event ||| P.axes ||| P.bedrock ||| m = m) (s : State) : view m (brLines s) = view m s := by
  refine view_mono h ?_
  unfold brLines
  try dsimp only
  repeat' first
    | with_reducible rfl
    | with_reducible apply view_ite
    | split
    | simp (disch := decide) only [↓axisLine_view, ↓stoLine_view]
    | with_reducible refine (forRange_keeps (view _) (fun _ _ => ?_) _).trans ?_

@[simp ↓] theorem sfTrip_view {m : Nat} (h : P.event ||| P.bedrock ||| m = m) (a1) (a2) (s : State) : view m (sfTrip a1 a2 s) = view m s := by
  refine view_mono h ?_
  unfold sfTrip
  try dsimp only
  repeat' first
    | with_reducible rfl
    | with_reducible apply view_ite
    | split
    | simp (disch := decide) only [↓raiseSf_view, ↓setSf_view]

@[simp ↓] theorem tripEvery_view {m : Nat} (h : P.event ||| P.axes ||| P.bedrock ||| m = m) (a1) (s : State) : view m (tripEvery a1 s) = view m s := by
  refine view_mono h ?_
  unfold tripEvery
  try dsimp only
  repeat' first
    | with_reducible rfl
    | with_reducible apply view_ite
    | split
    | simp (disch := decide) only [↓brLines_view, ↓sfTrip_view, ↓setBr_view]
    | with_reducible refine (forAll_keeps (view _) (fun _ _ => ?_) _).trans ?_

@[simp ↓] theorem tripAll_view {m : Nat} (h : P.event ||| P.axes ||| P.bedrock ||| m = m) (a1) (s : State) : view m (tripAll a1 s) = view m s := by
  refine view_mono h ?_
  unfold tripAll
  try dsimp only
  repeat' first
    | with_reducible rfl
    | with_reducible apply view_ite
    | split
    | simp (disch := decide) only [↓raiseN_view, ↓tripEvery_view]

@[simp ↓] theorem faultFn_view {m : Nat} (h : P.event ||| P.mod ||| P.hdrs ||| P.chs ||| P.points ||| P.axes ||| P.bedrock ||| P.pool ||| P.pair ||| P.panel ||| m = m) (a1) (a2) (s : State) : view m (faultFn a1 a2 s) = view m s := by
  refine view_mono h ?_
  unfold faultFn
  try dsimp only
  repeat' first
    | with_reducible rfl
    | with_reducible apply view_ite
    | split
    | simp (disch := decide) only [↓fnFault_view, ↓tripEvery_view]

@[simp ↓] theorem crossCheck_view {m : Nat} (h : P.event ||| P.bedrock ||| m = m) (a1) (a2) (a3) (a4) (a5) (s : State) : view m (crossCheck a1 a2 a3 a4 a5 s) = view m s := by
  refine view_mono h ?_
  unfold crossCheck
  try dsimp only
  repeat' first
    | with_reducible rfl
    | with_reducible apply view_ite
    | split
    | simp (disch := decide) only [↓setVg_view, ↓raiseVg_view]

@[simp ↓] theorem evalChan_view {m : Nat} (h : P.event ||| P.bedrock ||| m = m) (a1) (a2) (s : State) : view m (evalChan a1 a2 s) = view m s := by
  refine view_mono h ?_
  unfold evalChan
  try dsimp only
  repeat' first
    | with_reducible rfl
    | with_reducible apply view_ite
    | split
    | simp (disch := decide) only [↓setVg_view, ↓crossCheck_view]

@[simp ↓] theorem evalGroup_view {m : Nat} (h : P.event ||| P.bedrock ||| m = m) (a1) (s : State) : view m (evalGroup a1 s) = view m s := by
  refine view_mono h ?_
  unfold evalGroup
  try dsimp only
  repeat' first
    | with_reducible rfl
    | with_reducible apply view_ite
    | split
    | simp (disch := decide) only [↓setVg_view, ↓raiseVg_view]

@[simp ↓] theorem groupEntries_view {m : Nat} (h : P.pi ||| m = m) (a1) (s : State) : view m (groupEntries a1 s) = view m s := by
  refine view_mono h ?_
  unfold groupEntries
  try dsimp only
  repeat' first
    | with_reducible rfl
    | with_reducible apply view_ite
    | split
    | simp (disch := decide) only [↓setRef_view]

@[simp ↓] theorem voteDiscrepancy_view {m : Nat} (h : P.event ||| P.bedrock ||| m = m) (a1) (s : State) : view m (voteDiscrepancy a1 s) = view m s := by
  refine view_mono h ?_
  unfold voteDiscrepancy
  try dsimp only
  repeat' first
    | with_reducible rfl
    | with_reducible apply view_ite
    | split
    | simp (disch := decide) only [↓raiseVg_view, ↓setVg_view]

@[simp ↓] theorem ss1Monitor_view {m : Nat} (h : P.event ||| P.bedrock ||| m = m) (a1) (s : State) : view m (ss1Monitor a1 s) = view m s := by
  refine view_mono h ?_
  unfold ss1Monitor
  try dsimp only
  repeat' first
    | with_reducible rfl
    | with_reducible apply view_ite
    | split
    | simp (disch := decide) only [↓setSf_view, ↓raiseSf_view]

@[simp ↓] theorem sfDemand_view {m : Nat} (h : P.event ||| P.bedrock ||| m = m) (a1) (s : State) : view m (sfDemand a1 s) = view m s := by
  refine view_mono h ?_
  unfold sfDemand
  try dsimp only
  repeat' first
    | with_reducible rfl
    | with_reducible apply view_ite
    | split
    | simp (disch := decide) only [↓setSf_view, ↓raiseN_view, ↓sfTrip_view]

@[simp ↓] theorem inputReset_view {m : Nat} (h : P.event ||| P.bedrock ||| m = m) (a1) (a2) (s : State) : view m (inputReset a1 a2 s).1 = view m s := by
  refine view_mono h ?_
  unfold inputReset
  try dsimp only
  repeat' first
    | with_reducible rfl
    | with_reducible apply view_ite
    | split
    | simp (disch := decide) only [↓setSf_view, ↓raiseSf_view]

@[simp ↓] theorem resetTry_view {m : Nat} (h : P.event ||| P.bedrock ||| m = m) (a1) (s : State) : view m (resetTry a1 s).1 = view m s := by
  refine view_mono h ?_
  unfold resetTry
  try dsimp only
  repeat' first
    | with_reducible rfl
    | with_reducible apply view_ite
    | split
    | simp (disch := decide) only [↓setSf_view, ↓inputReset_view]
    | (refine (congrArg (fun p => view _ p.1) ‹inputReset _ _ _ = _›).symm.trans ((inputReset_view ?_ _ _ _).trans ?_); decide)

@[simp ↓] theorem resetRefused_view {m : Nat} (h : P.event ||| P.bedrock ||| m = m) (a1) (a2) (s : State) : view m (resetRefused a1 a2 s) = view m s := by
  refine view_mono h ?_
  unfold resetRefused
  try dsimp only
  repeat' first
    | with_reducible rfl
    | with_reducible apply view_ite
    | split
    | simp (disch := decide) only [↓raiseSf_view, ↓setSf_view]

@[simp ↓] theorem sfReset_view {m : Nat} (h : P.event ||| P.bedrock ||| m = m) (a1) (s : State) : view m (sfReset a1 s) = view m s := by
  refine view_mono h ?_
  unfold sfReset
  try dsimp only
  repeat' first
    | with_reducible rfl
    | with_reducible apply view_ite
    | split
    | simp (disch := decide) only [↓resetTry_view, ↓resetRefused_view, ↓setSto_view, ↓raiseSf_view, ↓setSf_view]
    | with_reducible refine (forRange_keeps (view _) (fun _ _ => ?_) _).trans ?_
    | (refine (congrArg (fun p => view _ p.1) ‹resetTry _ _ = _›).symm.trans ((resetTry_view ?_ _ _).trans ?_); decide)

@[simp ↓] theorem evalSf_view {m : Nat} (h : P.event ||| P.bedrock ||| m = m) (a1) (s : State) : view m (evalSf a1 s) = view m s := by
  refine view_mono h ?_
  unfold evalSf
  try dsimp only
  repeat' first
    | with_reducible rfl
    | with_reducible apply view_ite
    | split
    | simp (disch := decide) only [↓sfReset_view, ↓ss1Monitor_view, ↓sfDemand_view]

@[simp ↓] theorem sfWrite_view {m : Nat} (h : P.event ||| P.chs ||| P.points ||| P.axes ||| P.pi ||| m = m) (a1) (a2) (s : State) : view m (sfWrite a1 a2 s) = view m s := by
  refine view_mono h ?_
  unfold sfWrite
  try dsimp only
  repeat' first
    | with_reducible rfl
    | with_reducible apply view_ite
    | split
    | simp (disch := decide) only [↓writeOut_view, ↓instanceDone_view]
    | with_reducible refine (forAll_keeps (view _) (fun _ _ => ?_) _).trans ?_

@[simp ↓] theorem stepToggle_view {m : Nat} (h : P.bedrock ||| m = m) (a1) (a2) (s : State) : view m (stepToggle a1 a2 s) = view m s := by
  refine view_mono h ?_
  unfold stepToggle
  try dsimp only
  repeat' first
    | with_reducible rfl
    | with_reducible apply view_ite
    | split
    | simp (disch := decide) only [↓setBsl_view]

@[simp ↓] theorem bslProduce_view {m : Nat} (h : P.mmp ||| P.bedrock ||| P.can ||| m = m) (a1) (s : State) : view m (bslProduce a1 s) = view m s := by
  refine view_mono h ?_
  unfold bslProduce
  try dsimp only
  repeat' first
    | with_reducible rfl
    | with_reducible apply view_ite
    | split
    | simp (disch := decide) only [↓stepToggle_view, ↓setBsl_view, ↓send_view, ↓canRequest_view]
    | with_reducible refine (forAll_keeps (view _) (fun _ _ => ?_) _).trans ?_

@[simp ↓] theorem uncommissionedTrip_view {m : Nat} (h : P.event ||| P.bedrock ||| m = m) (s : State) : view m (uncommissionedTrip s) = view m s := by
  refine view_mono h ?_
  unfold uncommissionedTrip
  try dsimp only
  repeat' first
    | with_reducible rfl
    | with_reducible apply view_ite
    | split
    | simp (disch := decide) only [↓setBr_view, ↓sfTrip_view, ↓raiseN_view]
    | with_reducible refine (forAll_keeps (view _) (fun _ _ => ?_) _).trans ?_

@[simp ↓] theorem takeReadback_view {m : Nat} (h : P.bedrock ||| m = m) (a1) (s : State) : view m (takeReadback a1 s) = view m s := by
  refine view_mono h ?_
  unfold takeReadback
  try dsimp only
  repeat' first
    | with_reducible rfl
    | with_reducible apply view_ite
    | split
    | simp (disch := decide) only [↓setSto_view]
    | with_reducible refine (forRange_keeps (view _) (fun _ _ => ?_) _).trans ?_

@[simp ↓] theorem safetyCycle_view {m : Nat} (h : P.event ||| P.chs ||| P.points ||| P.div ||| P.axes ||| P.bedrock ||| P.mmpRest ||| P.can ||| P.pi ||| m = m) (a1) (a2) (s : State) : view m (safetyCycle a1 a2 s) = view m s := by
  refine view_mono h ?_
  unfold safetyCycle
  try dsimp only
  repeat' first
    | with_reducible rfl
    | with_reducible apply view_ite
    | split
    | simp (disch := decide) only [↓bslProduce_view, ↓unitEqual_view, ↓takeReadback_view, ↓evalChan_view, ↓evalGroup_view, ↓uncommissionedTrip_view, ↓evalSf_view, ↓groupEntries_view, ↓brLines_view, ↓sfWrite_view, ↓setBr_view]
    | with_reducible refine (forAll_keeps (view _) (fun _ _ => ?_) _).trans ?_
    | with_reducible refine (forRange_keeps (view _) (fun _ _ => ?_) _).trans ?_

@[simp ↓] theorem cycleOverrun_view {m : Nat} (h : P.event ||| P.axes ||| P.bedrock ||| m = m) (a1) (s : State) : view m (cycleOverrun a1 s) = view m s := by
  refine view_mono h ?_
  unfold cycleOverrun
  try dsimp only
  repeat' first
    | with_reducible rfl
    | with_reducible apply view_ite
    | split
    | simp (disch := decide) only [↓raiseN_view, ↓tripAll_view, ↓setBr_view]

@[simp ↓] theorem stoFault_view {m : Nat} (h : P.event ||| P.axes ||| P.bedrock ||| m = m) (a1) (a2) (s : State) : view m (stoFault a1 a2 s) = view m s := by
  refine view_mono h ?_
  unfold stoFault
  try dsimp only
  repeat' first
    | with_reducible rfl
    | with_reducible apply view_ite
    | split
    | simp (disch := decide) only [↓raiseBsl_view, ↓setSto_view, ↓brLines_view, ↓sfTrip_view]
    | with_reducible refine (forAll_keeps (view _) (fun _ _ => ?_) _).trans ?_

@[simp ↓] theorem stoPulse_view {m : Nat} (h : P.event ||| P.axes ||| P.bedrock ||| m = m) (a1) (a2) (a3) (s : State) : view m (stoPulse a1 a2 a3 s) = view m s := by
  refine view_mono h ?_
  unfold stoPulse
  try dsimp only
  repeat' first
    | with_reducible rfl
    | with_reducible apply view_ite
    | split
    | simp (disch := decide) only [↓stoFault_view]

@[simp ↓] theorem startBedrock_view {m : Nat} (h : P.event ||| P.axes ||| P.bedrock ||| m = m) (a1) (s : State) : view m (startBedrock a1 s) = view m s := by
  refine view_mono h ?_
  unfold startBedrock
  try dsimp only
  repeat' first
    | with_reducible rfl
    | with_reducible apply view_ite
    | split
    | simp (disch := decide) only [↓setSf_view, ↓setBsl_view, ↓brLines_view, ↓setBr_view]
    | with_reducible refine (forAll_keeps (view _) (fun _ _ => ?_) _).trans ?_
    | with_reducible refine (forRange_keeps (view _) (fun _ _ => ?_) _).trans ?_

@[simp ↓] theorem resetBedrock_view {m : Nat} (h : P.event ||| P.axes ||| P.bedrock ||| m = m) (s : State) : view m (resetBedrock s) = view m s := by
  refine view_mono h ?_
  unfold resetBedrock
  try dsimp only
  repeat' first
    | with_reducible rfl
    | with_reducible apply view_ite
    | split
    | simp (disch := decide) only [↓tripEvery_view, ↓startBedrock_view, ↓view_bedrock]

theorem execSafetyCycle_view {m : Nat} (h : P.event ||| P.chs ||| P.points ||| P.div ||| P.axes ||| P.bedrock ||| P.mmpRest ||| P.can ||| P.pi ||| m = m) (a1) (a2) (s : State) {t} (e : execSafetyCycle a1 a2 s = .next t) : view m t = view m s := by
  refine view_mono h ?_
  unfold execSafetyCycle at e
  obtain rfl := Host.Outcome.next.inj e
  repeat' first
    | with_reducible rfl
    | with_reducible apply view_ite
    | split
    | simp (disch := decide) only [↓safetyCycle_view]

theorem execBrCycleOverrun_view {m : Nat} (h : P.event ||| P.axes ||| P.bedrock ||| m = m) (a1) (s : State) {t} (e : execBrCycleOverrun a1 s = .next t) : view m t = view m s := by
  refine view_mono h ?_
  unfold execBrCycleOverrun at e
  obtain rfl := Host.Outcome.next.inj e
  repeat' first
    | with_reducible rfl
    | with_reducible apply view_ite
    | split
    | simp (disch := decide) only [↓cycleOverrun_view]

theorem execVoteDiscrepancy_view {m : Nat} (h : P.event ||| P.bedrock ||| m = m) (a1) (s : State) {t} (e : execVoteDiscrepancy a1 s = .next t) : view m t = view m s := by
  refine view_mono h ?_
  unfold execVoteDiscrepancy at e
  obtain rfl := Host.Outcome.next.inj e
  repeat' first
    | with_reducible rfl
    | with_reducible apply view_ite
    | split
    | simp (disch := decide) only [↓voteDiscrepancy_view]

theorem execStoTestPulse_view {m : Nat} (h : P.event ||| P.axes ||| P.bedrock ||| m = m) (a1) (a2) (a3) (s : State) {t} (e : execStoTestPulse a1 a2 a3 s = .next t) : view m t = view m s := by
  refine view_mono h ?_
  unfold execStoTestPulse at e
  obtain rfl := Host.Outcome.next.inj e
  repeat' first
    | with_reducible rfl
    | with_reducible apply view_ite
    | split
    | simp (disch := decide) only [↓stoPulse_view]

theorem execStoChannelFault_view {m : Nat} (h : P.event ||| P.axes ||| P.bedrock ||| m = m) (a1) (a2) (s : State) {t} (e : execStoChannelFault a1 a2 s = .next t) : view m t = view m s := by
  refine view_mono h ?_
  unfold execStoChannelFault at e
  obtain rfl := Host.Outcome.next.inj e
  repeat' first
    | with_reducible rfl
    | with_reducible apply view_ite
    | split
    | simp (disch := decide) only [↓stoFault_view]

theorem execFabricParity_view {m : Nat} (h : P.event ||| P.mod ||| P.hdrs ||| P.chs ||| P.points ||| P.axes ||| P.bedrock ||| P.pool ||| P.pair ||| P.panel ||| m = m) (a1) (a2) (s : State) {t} (e : execFabricParity a1 a2 s = .next t) : view m t = view m s := by
  refine view_mono h ?_
  unfold execFabricParity at e
  obtain rfl := Host.Outcome.next.inj e
  repeat' first
    | with_reducible rfl
    | with_reducible apply view_ite
    | split
    | simp (disch := decide) only [↓faultFn_view, ↓fabricParity_view]

end Sys2Proof.Laws
end

