-- ==== Sys2Proof/Laws/Frame/Msg.lean ====
section
/-! SUPPORT. Frame laws of Sys2Proof/Machine/Msg.lean: for each operation, the parts of the state outside which it
changes nothing. -/

namespace Sys2Proof.Laws

open Sys2Proof.Machine

@[simp ↓] theorem sendReply_view {m : Nat} (h : P.mmp ||| m = m) (a1) (s : State) : view m (sendReply a1 s) = view m s := by
  refine view_mono h ?_
  unfold sendReply
  try dsimp only
  repeat' first
    | with_reducible rfl
    | with_reducible apply view_ite
    | split
    | simp (disch := decide) only [↓ownFrame_view, ↓setMmp_view]

@[simp ↓] theorem reply_view {m : Nat} (h : P.mmp ||| m = m) (a1) (a2) (a3) (a4) (a5) (s : State) : view m (reply a1 a2 a3 a4 a5 s) = view m s := by
  refine view_mono h ?_
  unfold reply
  try dsimp only
  repeat' first
    | with_reducible rfl
    | with_reducible apply view_ite
    | split
    | simp (disch := decide) only [↓setMmp_view, ↓sendReply_view]

@[simp ↓] theorem answer_view {m : Nat} (h : P.mmp ||| m = m) (a1) (a2) (s : State) : view m (answer a1 a2 s) = view m s := by
  refine view_mono h ?_
  unfold answer
  try dsimp only
  repeat' first
    | with_reducible rfl
    | with_reducible apply view_ite
    | split
    | simp (disch := decide) only [↓reply_view]

@[simp ↓] theorem refused_view {m : Nat} (h : P.mmp ||| m = m) (a1) (a2) (s : State) : view m (refused a1 a2 s) = view m s := by
  refine view_mono h ?_
  unfold refused
  try dsimp only
  repeat' first
    | with_reducible rfl
    | with_reducible apply view_ite
    | split
    | simp (disch := decide) only [↓reply_view]

@[simp ↓] theorem hold_view {m : Nat} (h : P.mmp ||| m = m) (s : State) (a2) (a3) : view m (State.hold s a2 a3) = view m s := by
  refine view_mono h ?_
  unfold State.hold
  try dsimp only
  repeat' first
    | with_reducible rfl
    | with_reducible apply view_ite
    | split
    | simp (disch := decide) only [↓setMmp_view]

@[simp ↓] theorem answerHeld_view {m : Nat} (h : P.mmp ||| m = m) (a1) (a2) (a3) (s : State) : view m (answerHeld a1 a2 a3 s) = view m s := by
  refine view_mono h ?_
  unfold answerHeld
  try dsimp only
  repeat' first
    | with_reducible rfl
    | with_reducible apply view_ite
    | split
    | simp (disch := decide) only [↓reply_view, ↓setMmp_view]

@[simp ↓] theorem replayed_view {m : Nat} (h : P.event ||| P.mmpRest ||| m = m) (a1) (s : State) : view m (replayed a1 s) = view m s := by
  refine view_mono h ?_
  unfold replayed
  try dsimp only
  repeat' first
    | with_reducible rfl
    | with_reducible apply view_ite
    | split
    | simp (disch := decide) only [↓raise_view, ↓setMmp_view]

@[simp ↓] theorem checkSeq_view {m : Nat} (h : P.event ||| P.mmpRest ||| m = m) (a1) (a2) (s : State) : view m (checkSeq a1 a2 s).2 = view m s := by
  refine view_mono h ?_
  unfold checkSeq
  try dsimp only
  repeat' first
    | with_reducible rfl
    | with_reducible apply view_ite
    | split
    | simp (disch := decide) only [↓answer_view, ↓replayed_view, ↓setMmp_view, ↓sendReply_view]

@[simp ↓] theorem queueFree_view {m : Nat} (h : P.event ||| P.mmpRest ||| m = m) (a1) (s : State) : view m (queueFree a1 s) = view m s := by
  refine view_mono h ?_
  unfold queueFree
  try dsimp only
  repeat' first
    | with_reducible rfl
    | with_reducible apply view_ite
    | split
    | simp (disch := decide) only [↓raiseN_view, ↓setMmp_view]

@[simp ↓] theorem queueDrop_view {m : Nat} (h : P.mmp ||| m = m) (a1) (a2) (s : State) : view m (queueDrop a1 a2 s) = view m s := by
  refine view_mono h ?_
  unfold queueDrop
  try dsimp only
  repeat' first
    | with_reducible rfl
    | with_reducible apply view_ite
    | split
    | simp (disch := decide) only [↓setMmp_view, ↓sendReply_view]

@[simp ↓] theorem receivePeer_view {m : Nat} (h : P.event ||| P.mmpRest ||| m = m) (a1) (a2) (s : State) : view m (receivePeer a1 a2 s).2 = view m s := by
  refine view_mono h ?_
  unfold receivePeer
  try dsimp only
  repeat' first
    | with_reducible rfl
    | with_reducible apply view_ite
    | split
    | simp (disch := decide) only [↓replayed_view, ↓queueDrop_view, ↓setMmp_view, ↓checkSeq_view, ↓queueFree_view]
    | (refine (congrArg (fun p => view _ p.2) ‹checkSeq _ _ _ = _›).symm.trans ((checkSeq_view ?_ _ _ _).trans ?_); decide)

@[simp ↓] theorem receive_view {m : Nat} (h : P.event ||| P.mmpRest ||| m = m) (a1) (a2) (s : State) : view m (receive a1 a2 s).2 = view m s := by
  refine view_mono h ?_
  unfold receive
  try dsimp only
  repeat' first
    | with_reducible rfl
    | with_reducible apply view_ite
    | split
    | simp (disch := decide) only [↓setMmp_view, ↓raise_view, ↓receivePeer_view, ↓answer_view, ↓queueDrop_view, ↓checkSeq_view, ↓queueFree_view]
    | (refine (congrArg (fun p => view _ p.2) ‹receivePeer _ _ _ = _›).symm.trans ((receivePeer_view ?_ _ _ _).trans ?_); decide)
    | (refine (congrArg (fun p => view _ p.2) ‹checkSeq _ _ _ = _›).symm.trans ((checkSeq_view ?_ _ _ _).trans ?_); decide)

theorem onNoted_view {m : Nat} (h : P.event ||| P.mmpRest ||| m = m) (msg : Msg) (addrs : List W32) (mine : Req → Bool)
    (need : Role) (note : Status → State → State) (k : Req → State → State)
    (hn : ∀ st t, view m (note st t) = view m t) (hk : ∀ q t, view m (k q t) = view m t) (s : State) :
    view m (onNoted msg addrs mine need note k s) = view m s := by
  have hr := receive_view h msg addrs s
  have ha : P.mmp ||| m = m := within_trans (by decide) h
  unfold onNoted
  split
  · rename_i e
    rw [e] at hr
    exact hr
  · rename_i e
    rw [e] at hr
    refine view_ite rfl (view_ite ?_ (view_ite ?_ ?_))
    · rw [answer_view ha, hn, hr]
    · rw [answer_view ha, hn, hr]
    · rw [hk, hr]

theorem onMessage_view {m : Nat} (h : P.event ||| P.mmpRest ||| m = m) (msg : Msg) (addrs : List W32)
    (mine : Req → Bool) (need : Role) (k : Req → State → State) (hk : ∀ q t, view m (k q t) = view m t) (s : State) :
    view m (onMessage msg addrs mine need k s) = view m s :=
  onNoted_view h msg addrs mine need _ k (fun _ _ => rfl) hk s

theorem onSized_view {m : Nat} (h : P.event ||| P.mmpRest ||| m = m) (msg : Msg) (ty : Nat) (need : Role) (len : Nat)
    (k : Req → State → State) (hk : ∀ q t, view m (k q t) = view m t) (s : State) :
    view m (onSized msg ty need len k s) = view m s := by
  have ha : P.mmp ||| m = m := within_trans (by decide) h
  exact onMessage_view h msg [] _ need _ (fun q t => view_ite (answer_view ha _ _ _) (hk q t)) s

theorem onPeer_view {m : Nat} (h : P.event ||| P.mmpRest ||| m = m) (msg : Msg) (ty : Nat) (need : Role)
    (k : Req → State → State) (hk : ∀ q t, view m (k q t) = view m t) (s : State) :
    view m (onPeer msg ty need k s) = view m s := by
  have hr := receive_view h msg [] s
  unfold onPeer
  split
  · rename_i e
    rw [e] at hr
    exact hr
  · rename_i e
    rw [e] at hr
    refine view_ite rfl (view_ite hr ?_)
    rw [hk, hr]

end Sys2Proof.Laws
end

