-- ==== Sys2Proof/Laws/Frame/Force.lean ====
section
/-! SUPPORT. Frame laws of Sys2Proof/Machine/Force.lean: for each operation, the parts of the state outside which it
changes nothing. -/

namespace Sys2Proof.Laws

open Sys2Proof.Machine

@[simp ↓] theorem forceSet_view {m : Nat} (h : P.event ||| P.chs ||| P.points ||| P.logic ||| P.axes ||| P.panel ||| m = m) (a1) (a2) (a3) (a4) (a5) (s : State) : view m (forceSet a1 a2 a3 a4 a5 s) = view m s := by
  refine view_mono h ?_
  unfold forceSet
  try dsimp only
  repeat' first
    | with_reducible rfl
    | with_reducible apply view_ite
    | split
    | simp (disch := decide) only [↓setLogic_view, ↓raise_view, ↓leResult_view, ↓endLocals_view]

@[simp ↓] theorem forceDrop_view {m : Nat} (h : P.event ||| P.logic ||| m = m) (a1) (a2) (a3) (s : State) : view m (forceDrop a1 a2 a3 s) = view m s := by
  refine view_mono h ?_
  unfold forceDrop
  try dsimp only
  repeat' first
    | with_reducible rfl
    | with_reducible apply view_ite
    | split
    | simp (disch := decide) only [↓raise_view, ↓setLogic_view]

@[simp ↓] theorem forceRelease_view {m : Nat} (h : P.event ||| P.logic ||| m = m) (a1) (a2) (a3) (s : State) : view m (forceRelease a1 a2 a3 s) = view m s := by
  refine view_mono h ?_
  unfold forceRelease
  try dsimp only
  repeat' first
    | with_reducible rfl
    | with_reducible apply view_ite
    | split
    | simp (disch := decide) only [↓leResult_view, ↓forceDrop_view]
    | with_reducible refine (forAll_keeps (view _) (fun _ _ => ?_) _).trans ?_

@[simp ↓] theorem forceEndNow_view {m : Nat} (h : P.event ||| P.chs ||| P.points ||| P.logic ||| P.axes ||| m = m) (a1) (a2) (s : State) : view m (forceEndNow a1 a2 s) = view m s := by
  refine view_mono h ?_
  unfold forceEndNow
  try dsimp only
  repeat' first
    | with_reducible rfl
    | with_reducible apply view_ite
    | split
    | simp (disch := decide) only [↓raise_view, ↓setLogic_view, ↓forceEnd_view]

@[simp ↓] theorem forceReply_view {m : Nat} (h : P.mmp ||| m = m) (a1) (s : State) : view m (forceReply a1 s) = view m s := by
  refine view_mono h ?_
  unfold forceReply
  try dsimp only
  repeat' first
    | with_reducible rfl
    | with_reducible apply view_ite
    | split
    | simp (disch := decide) only [↓reply_view, ↓answer_view, ↓refused_view]

@[simp ↓] theorem forceNote_view {m : Nat} (h : P.logic ||| m = m) (a1) (s : State) : view m (forceNote a1 s) = view m s := by
  refine view_mono h ?_
  unfold forceNote
  try dsimp only
  repeat' first
    | with_reducible rfl
    | with_reducible apply view_ite
    | split
    | simp (disch := decide) only [↓leResult_view]

theorem execForce_view {m : Nat} (h : P.event ||| P.chs ||| P.points ||| P.logic ||| P.axes ||| P.mmpRest ||| P.panel ||| m = m) (a1) (a2) (a3) (a4) (a5) (s : State) {t} (e : execForce a1 a2 a3 a4 a5 s = .next t) : view m t = view m s := by
  refine view_mono h ?_
  unfold execForce at e
  obtain rfl := Host.Outcome.next.inj e
  repeat' first
    | with_reducible rfl
    | with_reducible apply view_ite
    | split
    | simp (disch := decide) only [↓forceNote_view, ↓forceReply_view, ↓forceSet_view]
    | with_reducible refine onNoted_view (by decide) _ _ _ _ _ _ (fun _ _ => ?_) (fun _ _ => ?_) _

theorem execRelease_view {m : Nat} (h : P.event ||| P.logic ||| P.mmpRest ||| m = m) (a1) (a2) (a3) (s : State) {t} (e : execRelease a1 a2 a3 s = .next t) : view m t = view m s := by
  refine view_mono h ?_
  unfold execRelease at e
  obtain rfl := Host.Outcome.next.inj e
  repeat' first
    | with_reducible rfl
    | with_reducible apply view_ite
    | split
    | simp (disch := decide) only [↓forceNote_view, ↓forceReply_view, ↓forceRelease_view]
    | with_reducible refine onNoted_view (by decide) _ _ _ _ _ _ (fun _ _ => ?_) (fun _ _ => ?_) _

end Sys2Proof.Laws
end

