-- ==== Sys2Proof/Laws/Frame/Ckpt.lean ====
section
/-! SUPPORT. Frame laws of Sys2Proof/Machine/Ckpt.lean: for each operation, the parts of the state outside which it
changes nothing. -/

namespace Sys2Proof.Laws

open Sys2Proof.Machine

@[simp ↓] theorem setCkpt_view {m : Nat} (h : P.ckpt ||| m = m) (s : State) (a2) : view m (State.setCkpt s a2) = view m s :=
  view_ckpt h s _

@[simp ↓] theorem beginCkpt_view {m : Nat} (h : P.ckpt ||| m = m) (s : State) : view m (beginCkpt s) = view m s := by
  refine view_mono h ?_
  unfold beginCkpt
  try dsimp only
  repeat' first
    | with_reducible rfl
    | with_reducible apply view_ite
    | split
    | simp (disch := decide) only [↓setCkpt_view]

@[simp ↓] theorem abandonCkpt_view {m : Nat} (h : P.ckpt ||| m = m) (s : State) : view m (abandonCkpt s) = view m s := by
  refine view_mono h ?_
  unfold abandonCkpt
  try dsimp only
  repeat' first
    | with_reducible rfl
    | with_reducible apply view_ite
    | split
    | simp (disch := decide) only [↓setCkpt_view]

@[simp ↓] theorem ckptEpisodeEnd_view {m : Nat} (h : P.event ||| P.ckpt ||| m = m) (s : State) : view m (ckptEpisodeEnd s) = view m s := by
  refine view_mono h ?_
  unfold ckptEpisodeEnd
  try dsimp only
  repeat' first
    | with_reducible rfl
    | with_reducible apply view_ite
    | split
    | simp (disch := decide) only [↓raiseIf_view, ↓setCkpt_view]

@[simp ↓] theorem ckptDue_view {m : Nat} (h : P.event ||| P.pair ||| P.ckpt ||| m = m) (s : State) : view m (ckptDue s) = view m s := by
  refine view_mono h ?_
  unfold ckptDue
  try dsimp only
  repeat' first
    | with_reducible rfl
    | with_reducible apply view_ite
    | split
    | simp (disch := decide) only [↓setCkpt_view, ↓setPair_view, ↓beginCkpt_view, ↓ckptEpisodeEnd_view]

@[simp ↓] theorem ckptWritten_view {m : Nat} (h : P.ckpt ||| m = m) (a1) (s : State) : view m (ckptWritten a1 s) = view m s := by
  refine view_mono h ?_
  unfold ckptWritten
  try dsimp only
  repeat' first
    | with_reducible rfl
    | with_reducible apply view_ite
    | split
    | simp (disch := decide) only [↓setCkpt_view]

@[simp ↓] theorem restoreVars_view {m : Nat} (h : P.logic ||| m = m) (a1) (s : State) : view m (restoreVars a1 s) = view m s := by
  refine view_mono h ?_
  unfold restoreVars
  try dsimp only
  repeat' first
    | with_reducible rfl
    | with_reducible apply view_ite
    | split
    | simp (disch := decide) only [↓setLogic_view]
    | with_reducible refine (forAll_keeps (view _) (fun _ _ => ?_) _).trans ?_

@[simp ↓] theorem restoreForces_view {m : Nat} (h : P.event ||| P.logic ||| m = m) (a1) (s : State) : view m (restoreForces a1 s) = view m s := by
  refine view_mono h ?_
  unfold restoreForces
  try dsimp only
  repeat' first
    | with_reducible rfl
    | with_reducible apply view_ite
    | split
    | simp (disch := decide) only [↓setLogic_view, ↓raiseIf_view]

@[simp ↓] theorem restoreLoops_view {m : Nat} (h : P.loops ||| m = m) (a1) (s : State) : view m (restoreLoops a1 s) = view m s := by
  refine view_mono h ?_
  unfold restoreLoops
  try dsimp only
  repeat' first
    | with_reducible rfl
    | with_reducible apply view_ite
    | split
    | simp (disch := decide) only [↓setLp_view]
    | with_reducible refine (forAll_keeps (view _) (fun _ _ => ?_) _).trans ?_

@[simp ↓] theorem restoreAlarm_view {m : Nat} (h : P.alarm ||| m = m) (a1) (s : State) : view m (restoreAlarm a1 s) = view m s := by
  refine view_mono h ?_
  unfold restoreAlarm
  try dsimp only
  repeat' first
    | with_reducible rfl
    | with_reducible apply view_ite
    | split
    | simp (disch := decide) only [↓setAlm_view]
    | with_reducible refine (forAll_keeps (view _) (fun _ _ => ?_) _).trans ?_

@[simp ↓] theorem restoreBedrock_view {m : Nat} (h : P.event ||| P.axes ||| P.bedrock ||| m = m) (a1) (a2) (s : State) : view m (restoreBedrock a1 a2 s) = view m s := by
  refine view_mono h ?_
  unfold restoreBedrock
  try dsimp only
  repeat' first
    | with_reducible rfl
    | with_reducible apply view_ite
    | split
    | simp (disch := decide) only [↓startBedrock_view, ↓setBr_view, ↓brLines_view, ↓setSf_view]
    | with_reducible refine (forAll_keeps (view _) (fun _ _ => ?_) _).trans ?_

@[simp ↓] theorem restoreField_view {m : Nat} (h : P.points ||| P.pi ||| m = m) (a1) (s : State) : view m (restoreField a1 s) = view m s := by
  refine view_mono h ?_
  unfold restoreField
  try dsimp only
  repeat' first
    | with_reducible rfl
    | with_reducible apply view_ite
    | split
    | simp (disch := decide) only [↓setPi_view, ↓setRef_view, ↓setPoint_view]
    | with_reducible refine (forAll_keeps (view _) (fun _ _ => ?_) _).trans ?_

@[simp ↓] theorem restoreAxes_view {m : Nat} (h : P.axes ||| m = m) (a1) (s : State) : view m (restoreAxes a1 s) = view m s := by
  refine view_mono h ?_
  unfold restoreAxes
  try dsimp only
  repeat' first
    | with_reducible rfl
    | with_reducible apply view_ite
    | split
    | simp (disch := decide) only [↓setAxis_view]
    | with_reducible refine (forAll_keeps (view _) (fun _ _ => ?_) _).trans ?_

@[simp ↓] theorem restoreProcess_view {m : Nat} (h : P.points ||| P.alarm ||| P.logic ||| P.loops ||| P.axes ||| P.pi ||| m = m) (a1) (s : State) : view m (restoreProcess a1 s) = view m s := by
  refine view_mono h ?_
  unfold restoreProcess
  try dsimp only
  repeat' first
    | with_reducible rfl
    | with_reducible apply view_ite
    | split
    | simp (disch := decide) only [↓restoreAxes_view, ↓restoreField_view, ↓restoreAlarm_view, ↓restoreLoops_view, ↓restoreVars_view]

theorem execCheckpoint_view {m : Nat} (h : P.event ||| P.pair ||| P.ckpt ||| m = m) (s : State) {t} (e : execCheckpoint s = .next t) : view m t = view m s := by
  refine view_mono h ?_
  unfold execCheckpoint at e
  obtain rfl := Host.Outcome.next.inj e
  repeat' first
    | with_reducible rfl
    | with_reducible apply view_ite
    | split
    | simp (disch := decide) only [↓ckptDue_view]

theorem execCheckpointComplete_view {m : Nat} (h : P.ckpt ||| m = m) (a1) (s : State) {t} (e : execCheckpointComplete a1 s = .next t) : view m t = view m s := by
  refine view_mono h ?_
  unfold execCheckpointComplete at e
  obtain rfl := Host.Outcome.next.inj e
  repeat' first
    | with_reducible rfl
    | with_reducible apply view_ite
    | split
    | simp (disch := decide) only [↓ckptWritten_view]

end Sys2Proof.Laws
end

