-- ==== Sys2Proof/Laws/Frame/Clock.lean ====
section
/-! SUPPORT. Frame laws of Sys2Proof/Machine/Clock.lean: for each operation, the parts of the state outside which it
changes nothing. -/

namespace Sys2Proof.Laws

open Sys2Proof.Machine

@[simp ↓] theorem clockCycle_view {m : Nat} (h : P.mod ||| P.tu ||| m = m) (s : State) : view m (clockCycle s) = view m s := by
  refine view_mono h ?_
  unfold clockCycle
  try dsimp only
  repeat' first
    | with_reducible rfl
    | with_reducible apply view_ite
    | split
    | simp (disch := decide) only [↓view_mod_tu]

end Sys2Proof.Laws
end

