-- ==== Sys2Proof/Laws/Frame/Image.lean ====
section
/-! SUPPORT. Frame laws of Sys2Proof/Machine/Image.lean: for each operation, the parts of the state outside which it
changes nothing. -/

namespace Sys2Proof.Laws

open Sys2Proof.Machine

@[simp ↓] theorem refreshSlots_view {m : Nat} (h : P.pegRest ||| m = m) (s : State) : view m (refreshSlots s) = view m s :=
  view_peg_rest h s _ rfl

end Sys2Proof.Laws
end

