-- ==== Sys2Proof/Laws/Frame/Panel.lean ====
section
/-! SUPPORT. Frame laws of Sys2Proof/Machine/Panel.lean: for each operation, the parts of the state outside which it
changes nothing. -/

namespace Sys2Proof.Laws

open Sys2Proof.Machine

@[simp ↓] theorem setPanel_view {m : Nat} (h : P.panel ||| m = m) (s : State) (a2) : view m (State.setPanel s a2) = view m s :=
  view_panel h s _

@[simp ↓] theorem setReg_view {m : Nat} (h : P.panel ||| m = m) (a1) (a2) (s : State) : view m (setReg a1 a2 s) = view m s := by
  refine view_mono h ?_
  unfold setReg
  try dsimp only
  repeat' first
    | with_reducible rfl
    | with_reducible apply view_ite
    | split
    | simp (disch := decide) only [↓setPanel_view]

@[simp ↓] theorem startRegion_view {m : Nat} (h : P.panel ||| m = m) (a1) (s : State) : view m (startRegion a1 s) = view m s := by
  refine view_mono h ?_
  unfold startRegion
  try dsimp only
  repeat' first
    | with_reducible rfl
    | with_reducible apply view_ite
    | split
    | simp (disch := decide) only [↓setReg_view]

@[simp ↓] theorem grantRegions_view {m : Nat} (h : P.panel ||| m = m) (l : List Nat) (s : State) : view m (grantRegions l s) = view m s := by
  refine view_mono h ?_
  induction l generalizing s with
  | nil => exact setPanel_view (by decide) _ _
  | cons _ _ ih =>
    unfold grantRegions
    try dsimp only
    repeat' first
      | with_reducible rfl
      | with_reducible apply view_ite
      | refine (ih _).trans ?_
      | split
      | simp (disch := decide) only [↓setPanel_view, ↓startRegion_view]

@[simp ↓] theorem requestRegion_view {m : Nat} (h : P.panel ||| m = m) (a1) (s : State) : view m (requestRegion a1 s) = view m s := by
  refine view_mono h ?_
  unfold requestRegion
  try dsimp only
  repeat' first
    | with_reducible rfl
    | with_reducible apply view_ite
    | split
    | simp (disch := decide) only [↓setReg_view, ↓startRegion_view, ↓setPanel_view]

@[simp ↓] theorem redrawAll_view {m : Nat} (h : P.panel ||| m = m) (s : State) : view m (redrawAll s) = view m s := by
  refine view_mono h ?_
  unfold redrawAll
  try dsimp only
  repeat' first
    | with_reducible rfl
    | with_reducible apply view_ite
    | split
    | simp (disch := decide) only [↓requestRegion_view, ↓setPanel_view]
    | with_reducible refine (forRange_keeps (view _) (fun _ _ => ?_) _).trans ?_

@[simp ↓] theorem renderComplete_view {m : Nat} (h : P.panel ||| m = m) (a1) (s : State) : view m (renderComplete a1 s) = view m s := by
  refine view_mono h ?_
  unfold renderComplete
  try dsimp only
  repeat' first
    | with_reducible rfl
    | with_reducible apply view_ite
    | split
    | simp (disch := decide) only [↓setReg_view]

@[simp ↓] theorem regionEnds_view {m : Nat} (h : P.panel ||| m = m) (a1) (s : State) : view m (regionEnds a1 s) = view m s := by
  refine view_mono h ?_
  unfold regionEnds
  try dsimp only
  repeat' first
    | with_reducible rfl
    | with_reducible apply view_ite
    | split
    | simp (disch := decide) only [↓setReg_view, ↓grantRegions_view, ↓requestRegion_view]
    | with_reducible refine (forAll_keeps (view _) (fun _ _ => ?_) _).trans ?_

@[simp ↓] theorem regionShows_view {m : Nat} (h : P.panel ||| m = m) (s : State) : view m (regionShows s) = view m s := by
  refine view_mono h ?_
  unfold regionShows
  try dsimp only
  repeat' first
    | with_reducible rfl
    | with_reducible apply view_ite
    | split
    | simp (disch := decide) only [↓setPanel_view, ↓setReg_view]
    | with_reducible refine (forAll_keeps (view _) (fun _ _ => ?_) _).trans ?_

@[simp ↓] theorem showPage_view {m : Nat} (h : P.panel ||| m = m) (a1) (s : State) : view m (showPage a1 s) = view m s := by
  refine view_mono h ?_
  unfold showPage
  try dsimp only
  repeat' first
    | with_reducible rfl
    | with_reducible apply view_ite
    | split
    | simp (disch := decide) only [↓redrawAll_view, ↓setPanel_view]

@[simp ↓] theorem rowPeriod_view {m : Nat} (h : P.panel ||| m = m) (a1) (s : State) : view m (rowPeriod a1 s) = view m s := by
  refine view_mono h ?_
  unfold rowPeriod
  try dsimp only
  repeat' first
    | with_reducible rfl
    | with_reducible apply view_ite
    | split
    | simp (disch := decide) only [↓setPanel_view]

@[simp ↓] theorem frameBegin_view {m : Nat} (h : P.event ||| P.panel ||| m = m) (s : State) : view m (frameBegin s) = view m s := by
  refine view_mono h ?_
  unfold frameBegin
  try dsimp only
  repeat' first
    | with_reducible rfl
    | with_reducible apply view_ite
    | split
    | simp (disch := decide) only [↓setPanel_view, ↓raiseIf_view, ↓regionShows_view, ↓regionEnds_view]

@[simp ↓] theorem panelFrame_view {m : Nat} (h : P.event ||| P.panel ||| m = m) (s : State) : view m (panelFrame s) = view m s := by
  refine view_mono h ?_
  unfold panelFrame
  try dsimp only
  repeat' first
    | with_reducible rfl
    | with_reducible apply view_ite
    | split
    | simp (disch := decide) only [↓frameBegin_view, ↓redrawAll_view, ↓setPanel_view]

@[simp ↓] theorem panelDischarge_view {m : Nat} (h : P.event ||| P.panel ||| m = m) (a1) (s : State) : view m (panelDischarge a1 s) = view m s := by
  refine view_mono h ?_
  unfold panelDischarge
  try dsimp only
  repeat' first
    | with_reducible rfl
    | with_reducible apply view_ite
    | split
    | simp (disch := decide) only [↓raiseN_view, ↓setPanel_view]

@[simp ↓] theorem dischargeEnd_view {m : Nat} (h : P.panel ||| m = m) (s : State) : view m (dischargeEnd s) = view m s := by
  refine view_mono h ?_
  unfold dischargeEnd
  try dsimp only
  repeat' first
    | with_reducible rfl
    | with_reducible apply view_ite
    | split
    | simp (disch := decide) only [↓setPanel_view]

@[simp ↓] theorem panelTemp_view {m : Nat} (h : P.event ||| P.panel ||| m = m) (a1) (s : State) : view m (panelTemp a1 s) = view m s := by
  refine view_mono h ?_
  unfold panelTemp
  try dsimp only
  repeat' first
    | with_reducible rfl
    | with_reducible apply view_ite
    | split
    | simp (disch := decide) only [↓setPanel_view, ↓raiseIf_view]

@[simp ↓] theorem keySwitch_view {m : Nat} (h : P.event ||| P.chs ||| P.points ||| P.axes ||| P.panel ||| m = m) (a1) (s : State) : view m (keySwitch a1 s) = view m s := by
  refine view_mono h ?_
  unfold keySwitch
  try dsimp only
  repeat' first
    | with_reducible rfl
    | with_reducible apply view_ite
    | split
    | simp (disch := decide) only [↓setPanel_view, ↓raise_view, ↓endLocals_view]

@[simp ↓] theorem keySwitchFault_view {m : Nat} (h : P.event ||| P.chs ||| P.points ||| P.axes ||| P.panel ||| m = m) (s : State) : view m (keySwitchFault s) = view m s := by
  refine view_mono h ?_
  unfold keySwitchFault
  try dsimp only
  repeat' first
    | with_reducible rfl
    | with_reducible apply view_ite
    | split
    | simp (disch := decide) only [↓raiseN_view, ↓setPanel_view, ↓keySwitch_view]

@[simp ↓] theorem takePoint_view {m : Nat} (h : P.event ||| P.chs ||| P.points ||| P.axes ||| P.panel ||| m = m) (a1) (s : State) : view m (takePoint a1 s) = view m s := by
  refine view_mono h ?_
  unfold takePoint
  try dsimp only
  repeat' first
    | with_reducible rfl
    | with_reducible apply view_ite
    | split
    | simp (disch := decide) only [↓setPanel_view, ↓wdSuspend_view, ↓setAxis_view, ↓raise_view]

theorem loopLocal_view {m : Nat} (h : P.event ||| P.loops ||| m = m) (a1) (a2) (a3) (s : State) {t} (e : loopLocal a1 a2 a3 s = some t) : view m t = view m s := by
  refine view_mono h ?_
  unfold loopLocal at e
  try dsimp only at e
  repeat' split at e
  all_goals first | (obtain rfl := Option.some.inj e) | (exact nomatch e)
  repeat' first
    | with_reducible rfl
    | with_reducible apply view_ite
    | split
    | simp (disch := decide) only [↓raiseLoop_view, ↓pushCmd_view]

theorem axisLocal_view {m : Nat} (h : P.axes ||| m = m) (a1) (a2) (a3) (s : State) {t} (e : axisLocal a1 a2 a3 s = some t) : view m t = view m s := by
  refine view_mono h ?_
  unfold axisLocal at e
  try dsimp only at e
  repeat' split at e
  all_goals first | (obtain rfl := Option.some.inj e) | (exact nomatch e)
  repeat' first
    | with_reducible rfl
    | with_reducible apply view_ite
    | split
    | simp (disch := decide) only [↓setAxis_view]

theorem outLocal_view {m : Nat} (h : P.chs ||| P.points ||| P.pi ||| m = m) (a1) (a2) (a3) (s : State) {t} (e : outLocal a1 a2 a3 s = some t) : view m t = view m s := by
  refine view_mono h ?_
  unfold outLocal at e
  try dsimp only at e
  repeat' split at e
  all_goals first | (obtain rfl := Option.some.inj e) | (exact nomatch e)
  repeat' first
    | with_reducible rfl
    | with_reducible apply view_ite
    | split
    | simp (disch := decide) only [↓driveOut_view, ↓setPi_view]

@[simp ↓] theorem localCmd_view {m : Nat} (h : P.event ||| P.chs ||| P.points ||| P.loops ||| P.axes ||| P.pi ||| m = m) (p : LocalPt) (c : LocalCmd) (s : State) :
    view m (localCmd p c s) = view m s := by
  refine view_mono h ?_
  unfold localCmd
  split
  · rfl
  · split
    · rfl
    · rename_i t e
      refine (raise_view (by decide) _ _ _ _ _).trans ?_
      repeat' split at e
      · exact loopLocal_view (by decide) _ _ _ _ e
      · exact axisLocal_view (by decide) _ _ _ _ e
      · exact outLocal_view (by decide) _ _ _ _ e

@[simp ↓] theorem functionKey_view {m : Nat} (h : P.event ||| P.chs ||| P.points ||| P.loops ||| P.axes ||| P.panel ||| P.pi ||| m = m) (a1) (s : State) : view m (functionKey a1 s) = view m s := by
  refine view_mono h ?_
  unfold functionKey
  try dsimp only
  repeat' first
    | with_reducible rfl
    | with_reducible apply view_ite
    | split
    | simp (disch := decide) only [↓showPage_view, ↓setPanel_view, ↓takePoint_view, ↓endLocal_view, ↓endLocals_view, ↓localCmd_view]

@[simp ↓] theorem keyRepeat_view {m : Nat} (h : P.event ||| P.chs ||| P.points ||| P.loops ||| P.axes ||| P.pi ||| m = m) (a1) (s : State) : view m (keyRepeat a1 s) = view m s := by
  refine view_mono h ?_
  unfold keyRepeat
  try dsimp only
  repeat' first
    | with_reducible rfl
    | with_reducible apply view_ite
    | split
    | simp (disch := decide) only [↓localCmd_view]

theorem brightWrite_view {m : Nat} (h : P.panel ||| m = m) (a1) (s : State) {t} (e : brightWrite a1 s = some t) : view m t = view m s := by
  refine view_mono h ?_
  unfold brightWrite at e
  try dsimp only at e
  repeat' split at e
  all_goals first | (obtain rfl := Option.some.inj e) | (exact nomatch e)
  repeat' first
    | with_reducible rfl
    | with_reducible apply view_ite
    | split
    | simp (disch := decide) only [↓setPanel_view]

theorem pageWrite_view {m : Nat} (h : P.panel ||| m = m) (a1) (s : State) {t} (e : pageWrite a1 s = some t) : view m t = view m s := by
  refine view_mono h ?_
  unfold pageWrite at e
  try dsimp only at e
  repeat' split at e
  all_goals first | (obtain rfl := Option.some.inj e) | (exact nomatch e)
  repeat' first
    | with_reducible rfl
    | with_reducible apply view_ite
    | split
    | simp (disch := decide) only [↓showPage_view]

@[simp ↓] theorem resetPanel_view {m : Nat} (h : P.event ||| P.chs ||| P.points ||| P.axes ||| P.panel ||| m = m) (s : State) : view m (resetPanel s) = view m s := by
  refine view_mono h ?_
  unfold resetPanel
  try dsimp only
  repeat' first
    | with_reducible rfl
    | with_reducible apply view_ite
    | split
    | simp (disch := decide) only [↓endLocals_view, ↓panelDischarge_view, ↓setPanel_view]

theorem execPanelFrame_view {m : Nat} (h : P.event ||| P.panel ||| m = m) (s : State) {t} (e : execPanelFrame s = .next t) : view m t = view m s := by
  refine view_mono h ?_
  unfold execPanelFrame at e
  obtain rfl := Host.Outcome.next.inj e
  repeat' first
    | with_reducible rfl
    | with_reducible apply view_ite
    | split
    | simp (disch := decide) only [↓panelFrame_view]

theorem execRowPeriod_view {m : Nat} (h : P.panel ||| m = m) (a1) (s : State) {t} (e : execRowPeriod a1 s = .next t) : view m t = view m s := by
  refine view_mono h ?_
  unfold execRowPeriod at e
  obtain rfl := Host.Outcome.next.inj e
  repeat' first
    | with_reducible rfl
    | with_reducible apply view_ite
    | split
    | simp (disch := decide) only [↓rowPeriod_view]

theorem execPanelTempRead_view {m : Nat} (h : P.event ||| P.panel ||| m = m) (a1) (s : State) {t} (e : execPanelTempRead a1 s = .next t) : view m t = view m s := by
  refine view_mono h ?_
  unfold execPanelTempRead at e
  obtain rfl := Host.Outcome.next.inj e
  repeat' first
    | with_reducible rfl
    | with_reducible apply view_ite
    | split
    | simp (disch := decide) only [↓panelTemp_view]

theorem execRegionUpdateRequest_view {m : Nat} (h : P.panel ||| m = m) (a1) (s : State) {t} (e : execRegionUpdateRequest a1 s = .next t) : view m t = view m s := by
  refine view_mono h ?_
  unfold execRegionUpdateRequest at e
  obtain rfl := Host.Outcome.next.inj e
  repeat' first
    | with_reducible rfl
    | with_reducible apply view_ite
    | split
    | simp (disch := decide) only [↓requestRegion_view]

theorem execRenderComplete_view {m : Nat} (h : P.panel ||| m = m) (a1) (s : State) {t} (e : execRenderComplete a1 s = .next t) : view m t = view m s := by
  refine view_mono h ?_
  unfold execRenderComplete at e
  obtain rfl := Host.Outcome.next.inj e
  repeat' first
    | with_reducible rfl
    | with_reducible apply view_ite
    | split
    | simp (disch := decide) only [↓renderComplete_view]

theorem execDischargeEnd_view {m : Nat} (h : P.panel ||| m = m) (s : State) {t} (e : execDischargeEnd s = .next t) : view m t = view m s := by
  refine view_mono h ?_
  unfold execDischargeEnd at e
  obtain rfl := Host.Outcome.next.inj e
  repeat' first
    | with_reducible rfl
    | with_reducible apply view_ite
    | split
    | simp (disch := decide) only [↓dischargeEnd_view]

theorem execFunctionKey_view {m : Nat} (h : P.event ||| P.chs ||| P.points ||| P.loops ||| P.axes ||| P.panel ||| P.pi ||| m = m) (a1) (s : State) {t} (e : execFunctionKey a1 s = .next t) : view m t = view m s := by
  refine view_mono h ?_
  unfold execFunctionKey at e
  obtain rfl := Host.Outcome.next.inj e
  repeat' first
    | with_reducible rfl
    | with_reducible apply view_ite
    | split
    | simp (disch := decide) only [↓functionKey_view]

theorem execF6Held_view {m : Nat} (h : P.panel ||| m = m) (s : State) {t} (e : execF6Held s = .next t) : view m t = view m s := by
  refine view_mono h ?_
  unfold execF6Held at e
  obtain rfl := Host.Outcome.next.inj e
  repeat' first
    | with_reducible rfl
    | with_reducible apply view_ite
    | split
    | simp (disch := decide) only [↓setPanel_view]

theorem execPnlKeyswitch_view {m : Nat} (h : P.event ||| P.chs ||| P.points ||| P.axes ||| P.panel ||| m = m) (a1) (s : State) {t} (e : execPnlKeyswitch a1 s = .next t) : view m t = view m s := by
  refine view_mono h ?_
  unfold execPnlKeyswitch at e
  obtain rfl := Host.Outcome.next.inj e
  repeat' first
    | with_reducible rfl
    | with_reducible apply view_ite
    | split
    | simp (disch := decide) only [↓keySwitch_view]

theorem execPnlKeyswitchFault_view {m : Nat} (h : P.event ||| P.chs ||| P.points ||| P.axes ||| P.panel ||| m = m) (s : State) {t} (e : execPnlKeyswitchFault s = .next t) : view m t = view m s := by
  refine view_mono h ?_
  unfold execPnlKeyswitchFault at e
  obtain rfl := Host.Outcome.next.inj e
  repeat' first
    | with_reducible rfl
    | with_reducible apply view_ite
    | split
    | simp (disch := decide) only [↓keySwitchFault_view]

theorem execTake_view {m : Nat} (h : P.event ||| P.chs ||| P.points ||| P.axes ||| P.panel ||| m = m) (a1) (a2) (s : State) {t} (e : execTake a1 a2 s = .next t) : view m t = view m s := by
  refine view_mono h ?_
  unfold execTake at e
  obtain rfl := Host.Outcome.next.inj e
  repeat' first
    | with_reducible rfl
    | with_reducible apply view_ite
    | split
    | simp (disch := decide) only [↓takePoint_view]

theorem execLocalRelease_view {m : Nat} (h : P.event ||| P.chs ||| P.points ||| P.axes ||| P.panel ||| m = m) (a1) (a2) (s : State) {t} (e : execLocalRelease a1 a2 s = .next t) : view m t = view m s := by
  refine view_mono h ?_
  unfold execLocalRelease at e
  obtain rfl := Host.Outcome.next.inj e
  repeat' first
    | with_reducible rfl
    | with_reducible apply view_ite
    | split
    | simp (disch := decide) only [↓endLocals_view, ↓endLocal_view]

theorem execPnlLocalCmd_view {m : Nat} (h : P.event ||| P.chs ||| P.points ||| P.loops ||| P.axes ||| P.pi ||| m = m) (a1) (a2) (a3) (s : State) {t} (e : execPnlLocalCmd a1 a2 a3 s = .next t) : view m t = view m s := by
  refine view_mono h ?_
  unfold execPnlLocalCmd at e
  obtain rfl := Host.Outcome.next.inj e
  repeat' first
    | with_reducible rfl
    | with_reducible apply view_ite
    | split
    | simp (disch := decide) only [↓localCmd_view]

theorem execKeyRepeat_view {m : Nat} (h : P.event ||| P.chs ||| P.points ||| P.loops ||| P.axes ||| P.pi ||| m = m) (a1) (s : State) {t} (e : execKeyRepeat a1 s = .next t) : view m t = view m s := by
  refine view_mono h ?_
  unfold execKeyRepeat at e
  obtain rfl := Host.Outcome.next.inj e
  repeat' first
    | with_reducible rfl
    | with_reducible apply view_ite
    | split
    | simp (disch := decide) only [↓keyRepeat_view]

end Sys2Proof.Laws
end

