-- ==== Sys2Proof/Laws/Frame/Recorder.lean ====
section
/-! SUPPORT. Frame laws of Sys2Proof/Machine/Recorder.lean: for each operation, the parts of the state outside which it
changes nothing. -/

namespace Sys2Proof.Laws

open Sys2Proof.Machine

theorem foldEvent_view {m : Nat} (h : P.recd ||| m = m) (a1) (s : State) {t} (e : foldEvent a1 s = some t) : view m t = view m s := by
  refine view_mono h ?_
  unfold foldEvent at e
  try dsimp only at e
  repeat' split at e
  all_goals first | (obtain rfl := Option.some.inj e) | (exact nomatch e)
  repeat' first
    | with_reducible rfl
    | with_reducible apply view_ite
    | split
    | simp (disch := decide) only [↓setRec_view]

@[simp ↓] theorem loseEvent_view {m : Nat} (h : P.recd ||| m = m) (a1) (s : State) : view m (loseEvent a1 s) = view m s := by
  refine view_mono h ?_
  unfold loseEvent
  try dsimp only
  repeat' first
    | with_reducible rfl
    | with_reducible apply view_ite
    | split
    | simp (disch := decide) only [↓setRec_view]

@[simp ↓] theorem stageEvent_view {m : Nat} (h : P.recd ||| m = m) (a1) (s : State) : view m (stageEvent a1 s) = view m s := by
  refine view_mono h ?_
  unfold stageEvent
  try dsimp only
  repeat' first
    | with_reducible rfl
    | with_reducible apply view_ite
    | split
    | simp (disch := decide) only [↓setRec_view]

@[simp ↓] theorem recordOne_view {m : Nat} (h : P.recd ||| m = m) (a1) (s : State) : view m (recordOne a1 s) = view m s := by
  refine view_mono h ?_
  unfold recordOne
  try dsimp only
  repeat' first
    | with_reducible rfl
    | with_reducible apply view_ite
    | split
    | simp (disch := decide) only [↓loseEvent_view, ↓stageEvent_view]
    | exact foldEvent_view (by decide) _ _ ‹foldEvent _ _ = _›

@[simp ↓] theorem recordNext_view {m : Nat} (h : P.recd ||| m = m) (s : State) : view m (recordNext s) = view m s := by
  refine view_mono h ?_
  unfold recordNext
  try dsimp only
  repeat' first
    | with_reducible rfl
    | with_reducible apply view_ite
    | split
    | simp (disch := decide) only [↓recordOne_view, ↓setRec_view]

@[simp ↓] theorem raiseOwn_view {m : Nat} (h : P.event ||| P.recRest ||| m = m) (a1) (a2) (a3) (s : State) : view m (raiseOwn a1 a2 a3 s).2 = view m s := by
  refine view_mono h ?_
  unfold raiseOwn
  try dsimp only
  repeat' first
    | with_reducible rfl
    | with_reducible apply view_ite
    | split
    | simp (disch := decide) only [↓setRec_view, ↓deliver_view]

@[simp ↓] theorem writeRing_view {m : Nat} (h : P.recd ||| m = m) (a1) (s : State) : view m (writeRing a1 s) = view m s := by
  refine view_mono h ?_
  unfold writeRing
  try dsimp only
  repeat' first
    | with_reducible rfl
    | with_reducible apply view_ite
    | split
    | simp (disch := decide) only [↓setRec_view]

@[simp ↓] theorem writeAudit_view {m : Nat} (h : P.recd ||| m = m) (a1) (s : State) : view m (writeAudit a1 s) = view m s := by
  refine view_mono h ?_
  unfold writeAudit
  try dsimp only
  repeat' first
    | with_reducible rfl
    | with_reducible apply view_ite
    | split
    | simp (disch := decide) only [↓setRec_view]

@[simp ↓] theorem auditWrap_view {m : Nat} (h : P.event ||| m = m) (a1) (s : State) : view m (auditWrap a1 s) = view m s := by
  refine view_mono h ?_
  unfold auditWrap
  try dsimp only
  repeat' first
    | with_reducible rfl
    | with_reducible apply view_ite
    | split
    | simp (disch := decide) only [↓raiseIf_view]

@[simp ↓] theorem commitRec_view {m : Nat} (h : P.event ||| P.recRest ||| m = m) (a1) (s : State) : view m (commitRec a1 s) = view m s := by
  refine view_mono h ?_
  unfold commitRec
  try dsimp only
  repeat' first
    | with_reducible rfl
    | with_reducible apply view_ite
    | split
    | simp (disch := decide) only [↓writeAudit_view, ↓writeRing_view, ↓raiseOwn_view, ↓auditWrap_view]
    | (refine (congrArg (fun p => view _ p.2) ‹raiseOwn _ _ _ _ = _›).symm.trans ((raiseOwn_view ?_ _ _ _ _).trans ?_); decide)

@[simp ↓] theorem clearNow_view {m : Nat} (h : P.event ||| P.recRest ||| m = m) (s : State) : view m (clearNow s) = view m s := by
  refine view_mono h ?_
  unfold clearNow
  try dsimp only
  repeat' first
    | with_reducible rfl
    | with_reducible apply view_ite
    | split
    | simp (disch := decide) only [↓raiseOwn_view, ↓setRec_view, ↓auditWrap_view, ↓writeAudit_view, ↓writeRing_view]
    | (refine (congrArg (fun p => view _ p.2) ‹raiseOwn _ _ _ _ = _›).symm.trans ((raiseOwn_view ?_ _ _ _ _).trans ?_); decide)

@[simp ↓] theorem commitAll_view {m : Nat} (h : P.event ||| P.recRest ||| m = m) (s : State) : view m (commitAll s) = view m s := by
  refine view_mono h ?_
  unfold commitAll
  try dsimp only
  repeat' first
    | with_reducible rfl
    | with_reducible apply view_ite
    | split
    | simp (disch := decide) only [↓commitRec_view, ↓setRec_view, ↓clearNow_view]
    | with_reducible refine (forAll_keeps (view _) (fun _ _ => ?_) _).trans ?_

@[simp ↓] theorem stagingCommit_view {m : Nat} (h : P.event ||| P.recRest ||| m = m) (s : State) : view m (stagingCommit s) = view m s := by
  refine view_mono h ?_
  unfold stagingCommit
  try dsimp only
  repeat' first
    | with_reducible rfl
    | with_reducible apply view_ite
    | split
    | simp (disch := decide) only [↓commitAll_view]

@[simp ↓] theorem recClear_view {m : Nat} (h : P.recd ||| m = m) (a1) (a2) (s : State) : view m (recClear a1 a2 s).2 = view m s := by
  refine view_mono h ?_
  unfold recClear
  try dsimp only
  repeat' first
    | with_reducible rfl
    | with_reducible apply view_ite
    | split
    | simp (disch := decide) only [↓setRec_view]

theorem recRepeatWrite_view {m : Nat} (h : P.recd ||| m = m) (a1) (s : State) {t} (e : recRepeatWrite a1 s = some t) : view m t = view m s := by
  refine view_mono h ?_
  unfold recRepeatWrite at e
  try dsimp only at e
  repeat' split at e
  all_goals first | (obtain rfl := Option.some.inj e) | (exact nomatch e)
  repeat' first
    | with_reducible rfl
    | with_reducible apply view_ite
    | split
    | simp (disch := decide) only [↓setRec_view]

@[simp ↓] theorem setCursor_view {m : Nat} (h : P.recd ||| m = m) (a1) (a2) (a3) (s : State) : view m (setCursor a1 a2 a3 s) = view m s := by
  refine view_mono h ?_
  unfold setCursor
  try dsimp only
  repeat' first
    | with_reducible rfl
    | with_reducible apply view_ite
    | split
    | simp (disch := decide) only [↓setRec_view]

@[simp ↓] theorem badRecord_view {m : Nat} (h : P.event ||| P.recRest ||| m = m) (a1) (a2) (s : State) : view m (badRecord a1 a2 s) = view m s := by
  refine view_mono h ?_
  unfold badRecord
  try dsimp only
  repeat' first
    | with_reducible rfl
    | with_reducible apply view_ite
    | split
    | simp (disch := decide) only [↓setRec_view, ↓raiseIf_view]

@[simp ↓] theorem recWindow_view {m : Nat} (h : P.event ||| P.mmpRest ||| P.recRest ||| m = m) (a1) (a2) (a3) (a4) (s : State) : view m (recWindow a1 a2 a3 a4 s) = view m s := by
  refine view_mono h ?_
  unfold recWindow
  try dsimp only
  repeat' first
    | with_reducible rfl
    | with_reducible apply view_ite
    | split
    | simp (disch := decide) only [↓setCursor_view, ↓reply_view, ↓badRecord_view]
    | with_reducible refine (forAll_keeps (view _) (fun _ _ => ?_) _).trans ?_

@[simp ↓] theorem recWin_view {m : Nat} (h : P.event ||| P.mmpRest ||| P.recRest ||| m = m) (a1) (a2) (s : State) : view m (recWin a1 a2 s) = view m s := by
  refine view_mono h ?_
  unfold recWin
  try dsimp only
  repeat' first
    | with_reducible rfl
    | with_reducible apply view_ite
    | split
    | simp (disch := decide) only [↓answer_view, ↓recWindow_view]

@[simp ↓] theorem recCursor_view {m : Nat} (h : P.recd ||| P.mmp ||| m = m) (a1) (s : State) : view m (recCursor a1 s) = view m s := by
  refine view_mono h ?_
  unfold recCursor
  try dsimp only
  repeat' first
    | with_reducible rfl
    | with_reducible apply view_ite
    | split
    | simp (disch := decide) only [↓answer_view, ↓setCursor_view]

@[simp ↓] theorem resetRecorder_view {m : Nat} (h : P.event ||| P.recRest ||| m = m) (s : State) : view m (resetRecorder s) = view m s := by
  refine view_mono h ?_
  unfold resetRecorder
  try dsimp only
  repeat' first
    | with_reducible rfl
    | with_reducible apply view_ite
    | split
    | simp (disch := decide) only [↓setRec_view, ↓commitAll_view]

@[simp ↓] theorem restartRecorder_view {m : Nat} (h : P.recd ||| m = m) (s : State) : view m (restartRecorder s) = view m s := by
  refine view_mono h ?_
  unfold restartRecorder
  try dsimp only
  repeat' first
    | with_reducible rfl
    | with_reducible apply view_ite
    | split
    | simp (disch := decide) only [↓setRec_view]

theorem execRecordEvent_view {m : Nat} (h : P.recd ||| m = m) (s : State) {t} (e : execRecordEvent s = .next t) : view m t = view m s := by
  refine view_mono h ?_
  unfold execRecordEvent at e
  obtain rfl := Host.Outcome.next.inj e
  repeat' first
    | with_reducible rfl
    | with_reducible apply view_ite
    | split
    | simp (disch := decide) only [↓recordNext_view]

theorem execStagingCommit_view {m : Nat} (h : P.event ||| P.recRest ||| m = m) (s : State) {t} (e : execStagingCommit s = .next t) : view m t = view m s := by
  refine view_mono h ?_
  unfold execStagingCommit at e
  obtain rfl := Host.Outcome.next.inj e
  repeat' first
    | with_reducible rfl
    | with_reducible apply view_ite
    | split
    | simp (disch := decide) only [↓stagingCommit_view]

theorem execRecClear_view {m : Nat} (h : P.recd ||| m = m) (a1) (a2) (s : State) {t} (e : execRecClear a1 a2 s = .next t) : view m t = view m s := by
  refine view_mono h ?_
  unfold execRecClear at e
  obtain rfl := Host.Outcome.next.inj e
  repeat' first
    | with_reducible rfl
    | with_reducible apply view_ite
    | split
    | simp (disch := decide) only [↓recClear_view]
    | (refine (congrArg (fun p => view _ p.2) ‹recClear _ _ _ = _›).symm.trans ((recClear_view ?_ _ _ _).trans ?_); decide)

theorem execRecwin_view {m : Nat} (h : P.event ||| P.mmpRest ||| P.recRest ||| m = m) (a1) (a2) (s : State) {t} (e : execRecwin a1 a2 s = .next t) : view m t = view m s := by
  refine view_mono h ?_
  unfold execRecwin at e
  obtain rfl := Host.Outcome.next.inj e
  repeat' first
    | with_reducible rfl
    | with_reducible apply view_ite
    | split
    | simp (disch := decide) only [↓recWin_view]
    | with_reducible refine onSized_view (by decide) _ _ _ _ _ (fun _ _ => ?_) _

theorem execReccursor_view {m : Nat} (h : P.event ||| P.mmpRest ||| P.recRest ||| m = m) (a1) (s : State) {t} (e : execReccursor a1 s = .next t) : view m t = view m s := by
  refine view_mono h ?_
  unfold execReccursor at e
  obtain rfl := Host.Outcome.next.inj e
  repeat' first
    | with_reducible rfl
    | with_reducible apply view_ite
    | split
    | simp (disch := decide) only [↓recCursor_view]
    | with_reducible refine onSized_view (by decide) _ _ _ _ _ (fun _ _ => ?_) _

end Sys2Proof.Laws
end

