-- ==== Sys2Proof/Laws/Frame/Redundancy.lean ====
section
/-! SUPPORT. Frame laws of Sys2Proof/Machine/Redundancy.lean: for each operation, the parts of the state outside which it
changes nothing. -/

namespace Sys2Proof.Laws

open Sys2Proof.Machine

@[simp ↓] theorem setUnitRun_view {m : Nat} (h : P.logic ||| P.loops ||| P.bedrock ||| m = m) (a1) (a2) (a3) (s : State) : view m (setUnitRun a1 a2 a3 s) = view m s := by
  refine view_mono h ?_
  unfold setUnitRun
  try dsimp only
  repeat' first
    | with_reducible rfl
    | with_reducible apply view_ite
    | split
    | simp (disch := decide) only [↓setTask_view, ↓setLp_view, ↓setBr_view]

@[simp ↓] theorem openUnit_view {m : Nat} (h : P.logic ||| P.loops ||| P.bedrock ||| m = m) (a1) (a2) (s : State) : view m (openUnit a1 a2 s) = view m s := by
  refine view_mono h ?_
  unfold openUnit
  try dsimp only
  repeat' first
    | with_reducible rfl
    | with_reducible apply view_ite
    | split
    | simp (disch := decide) only [↓setUnitRun_view]

@[simp ↓] theorem comparatorFault_view {m : Nat} (h : P.event ||| P.mod ||| P.chs ||| P.points ||| P.logic ||| P.trx ||| P.loops ||| P.axes ||| P.bedrock ||| m = m) (a1) (a2) (a3) (a4) (a5) (s : State) : view m (comparatorFault a1 a2 a3 a4 a5 s) = view m s := by
  refine view_mono h ?_
  unfold comparatorFault
  try dsimp only
  repeat' first
    | with_reducible rfl
    | with_reducible apply view_ite
    | split
    | simp (disch := decide) only [↓setMod_view, ↓setTrx_view, ↓raiseN_view, ↓taskFault_view, ↓loopFault_view, ↓tripAll_view, ↓setUnitRun_view]

@[simp ↓] theorem repeatUnit_view {m : Nat} (h : P.logic ||| P.div ||| P.trx ||| P.loops ||| P.bedrock ||| m = m) (a1) (a2) (a3) (s : State) : view m (repeatUnit a1 a2 a3 s) = view m s := by
  refine view_mono h ?_
  unfold repeatUnit
  try dsimp only
  repeat' first
    | with_reducible rfl
    | with_reducible apply view_ite
    | split
    | simp (disch := decide) only [↓setTrx_view, ↓setDiv_view, ↓setUnitRun_view]

@[simp ↓] theorem parityRepair_view {m : Nat} (h : P.event ||| P.mod ||| P.trx ||| m = m) (a1) (a2) (a3) (a4) (s : State) : view m (parityRepair a1 a2 a3 a4 s) = view m s := by
  refine view_mono h ?_
  unfold parityRepair
  try dsimp only
  repeat' first
    | with_reducible rfl
    | with_reducible apply view_ite
    | split
    | simp (disch := decide) only [↓raiseN_view, ↓setMod_view, ↓setTrx_view]

@[simp ↓] theorem parityLost_view {m : Nat} (h : P.event ||| P.mod ||| P.hdrs ||| P.chs ||| P.points ||| P.axes ||| P.bedrock ||| P.pool ||| P.pair ||| P.panel ||| m = m) (a1) (a2) (s : State) : view m (parityLost a1 a2 s) = view m s := by
  refine view_mono h ?_
  unfold parityLost
  try dsimp only
  repeat' first
    | with_reducible rfl
    | with_reducible apply view_ite
    | split
    | simp (disch := decide) only [↓faultFn_view, ↓raiseN_view]

@[simp ↓] theorem scrubHit_view {m : Nat} (h : P.event ||| P.mod ||| P.hdrs ||| P.chs ||| P.points ||| P.trx ||| P.axes ||| P.bedrock ||| P.pool ||| P.pair ||| P.panel ||| m = m) (a1) (s : State) : view m (scrubHit a1 s) = view m s := by
  refine view_mono h ?_
  unfold scrubHit
  try dsimp only
  repeat' first
    | with_reducible rfl
    | with_reducible apply view_ite
    | split
    | simp (disch := decide) only [↓parityRepair_view, ↓parityLost_view]

@[simp ↓] theorem pairSamples_view {m : Nat} (h : P.event ||| P.logic ||| P.div ||| P.loops ||| P.bedrock ||| m = m) (a1) (a2) (a3) (s : State) : view m (pairSamples a1 a2 a3 s) = view m s := by
  refine view_mono h ?_
  unfold pairSamples
  try dsimp only
  repeat' first
    | with_reducible rfl
    | with_reducible apply view_ite
    | split
    | simp (disch := decide) only [↓divPair_view, ↓setUnitRun_view]
    | with_reducible refine (forAll_keeps (view _) (fun _ _ => ?_) _).trans ?_

@[simp ↓] theorem segmentEnd_view {m : Nat} (h : P.event ||| P.mod ||| P.chs ||| P.points ||| P.logic ||| P.div ||| P.trx ||| P.loops ||| P.axes ||| P.bedrock ||| m = m) (a1) (a2) (a3) (a4) (s : State) : view m (segmentEnd a1 a2 a3 a4 s) = view m s := by
  refine view_mono h ?_
  unfold segmentEnd
  try dsimp only
  repeat' first
    | with_reducible rfl
    | with_reducible apply view_ite
    | split
    | simp (disch := decide) only [↓setTrx_view, ↓pairSamples_view, ↓setUnitRun_view, ↓unitEqual_view, ↓comparatorFault_view, ↓repeatUnit_view]

@[simp ↓] theorem segmentCompare_view {m : Nat} (h : P.event ||| P.mod ||| P.hdrs ||| P.chs ||| P.points ||| P.logic ||| P.div ||| P.trx ||| P.loops ||| P.axes ||| P.bedrock ||| P.pool ||| P.pair ||| P.panel ||| m = m) (a1) (a2) (a3) (s : State) : view m (segmentCompare a1 a2 a3 s) = view m s := by
  refine view_mono h ?_
  unfold segmentCompare
  try dsimp only
  repeat' first
    | with_reducible rfl
    | with_reducible apply view_ite
    | split
    | simp (disch := decide) only [↓openUnit_view, ↓parityRepair_view, ↓parityLost_view, ↓segmentEnd_view, ↓comparatorFault_view, ↓repeatUnit_view]

@[simp ↓] theorem testPart_view {m : Nat} (h : P.event ||| P.mod ||| P.hdrs ||| P.chs ||| P.points ||| P.trx ||| P.axes ||| P.bedrock ||| P.pool ||| P.pair ||| P.panel ||| m = m) (a1) (a2) (a3) (s : State) : view m (testPart a1 a2 a3 s) = view m s := by
  refine view_mono h ?_
  unfold testPart
  try dsimp only
  repeat' first
    | with_reducible rfl
    | with_reducible apply view_ite
    | split
    | simp (disch := decide) only [↓enterHold_view, ↓raiseN_view, ↓setTrx_view]

@[simp ↓] theorem testOverdue_view {m : Nat} (h : P.trx ||| m = m) (a1) (s : State) : view m (testOverdue a1 s) = view m s := by
  refine view_mono h ?_
  unfold testOverdue
  try dsimp only
  repeat' first
    | with_reducible rfl
    | with_reducible apply view_ite
    | split
    | simp (disch := decide) only [↓setTrx_view]

theorem execSegmentCompare_view {m : Nat} (h : P.event ||| P.mod ||| P.hdrs ||| P.chs ||| P.points ||| P.logic ||| P.div ||| P.trx ||| P.loops ||| P.axes ||| P.bedrock ||| P.pool ||| P.pair ||| P.panel ||| m = m) (a1) (a2) (a3) (s : State) {t} (e : execSegmentCompare a1 a2 a3 s = .next t) : view m t = view m s := by
  refine view_mono h ?_
  unfold execSegmentCompare at e
  obtain rfl := Host.Outcome.next.inj e
  repeat' first
    | with_reducible rfl
    | with_reducible apply view_ite
    | split
    | simp (disch := decide) only [↓segmentCompare_view]

theorem execScrub_view {m : Nat} (h : P.event ||| P.mod ||| P.hdrs ||| P.chs ||| P.points ||| P.trx ||| P.axes ||| P.bedrock ||| P.pool ||| P.pair ||| P.panel ||| m = m) (a1) (s : State) {t} (e : execScrub a1 s = .next t) : view m t = view m s := by
  refine view_mono h ?_
  unfold execScrub at e
  obtain rfl := Host.Outcome.next.inj e
  repeat' first
    | with_reducible rfl
    | with_reducible apply view_ite
    | split
    | simp (disch := decide) only [↓scrubHit_view]
    | with_reducible refine (forAll_keeps (view _) (fun _ _ => ?_) _).trans ?_

theorem execComparatorTestPart_view {m : Nat} (h : P.event ||| P.mod ||| P.hdrs ||| P.chs ||| P.points ||| P.trx ||| P.axes ||| P.bedrock ||| P.pool ||| P.pair ||| P.panel ||| m = m) (a1) (a2) (a3) (s : State) {t} (e : execComparatorTestPart a1 a2 a3 s = .next t) : view m t = view m s := by
  refine view_mono h ?_
  unfold execComparatorTestPart at e
  obtain rfl := Host.Outcome.next.inj e
  repeat' first
    | with_reducible rfl
    | with_reducible apply view_ite
    | split
    | simp (disch := decide) only [↓testPart_view]

theorem execComparatorTestOverdue_view {m : Nat} (h : P.trx ||| m = m) (a1) (s : State) {t} (e : execComparatorTestOverdue a1 s = .next t) : view m t = view m s := by
  refine view_mono h ?_
  unfold execComparatorTestOverdue at e
  obtain rfl := Host.Outcome.next.inj e
  repeat' first
    | with_reducible rfl
    | with_reducible apply view_ite
    | split
    | simp (disch := decide) only [↓testOverdue_view]

end Sys2Proof.Laws
end

