-- ==== Sys2Proof/Laws/Frame/Rows.lean ====
section
/-! SUPPORT. Frame laws of Sys2Proof/Machine/Rows.lean: for each operation, the parts of the state outside which it
changes nothing. -/

namespace Sys2Proof.Laws

open Sys2Proof.Machine

@[simp ↓] theorem configureRow_view {m : Nat} (h : P.event ||| P.chs ||| m = m) (a1) (a2) (a3) (s : State) : view m (configureRow a1 a2 a3 s) = view m s := by
  refine view_mono h ?_
  unfold configureRow
  try dsimp only
  repeat' first
    | with_reducible rfl
    | with_reducible apply view_ite
    | split
    | simp (disch := decide) only [↓setCh_view, ↓settleVisible_view]

@[simp ↓] theorem pitchRow_view {m : Nat} (h : P.event ||| P.chs ||| m = m) (a1) (a2) (s : State) : view m (pitchRow a1 a2 s) = view m s := by
  refine view_mono h ?_
  unfold pitchRow
  try dsimp only
  repeat' first
    | with_reducible rfl
    | with_reducible apply view_ite
    | split
    | simp (disch := decide) only [↓raiseIf_view, ↓configureRow_view]

@[simp ↓] theorem pitchBank_view {m : Nat} (h : P.event ||| P.banks ||| P.chs ||| m = m) (a1) (s : State) : view m (pitchBank a1 s) = view m s := by
  refine view_mono h ?_
  unfold pitchBank
  try dsimp only
  repeat' first
    | with_reducible rfl
    | with_reducible apply view_ite
    | split
    | simp (disch := decide) only [↓setBank_view, ↓raiseN_view, ↓pitchRow_view, ↓laneRestart_view, ↓decideDir_view]
    | with_reducible refine (forAll_keeps (view _) (fun _ _ => ?_) _).trans ?_
    | with_reducible refine (forRange_keeps (view _) (fun _ _ => ?_) _).trans ?_

@[simp ↓] theorem resumeBank_view {m : Nat} (h : P.chs ||| P.points ||| P.axes ||| m = m) (a1) (s : State) : view m (resumeBank a1 s) = view m s := by
  refine view_mono h ?_
  unfold resumeBank
  try dsimp only
  repeat' first
    | with_reducible rfl
    | with_reducible apply view_ite
    | split
    | simp (disch := decide) only [↓wdRestart_view]
    | with_reducible refine (forRange_keeps (view _) (fun _ _ => ?_) _).trans ?_

@[simp ↓] theorem resetBank_view {m : Nat} (h : P.banks ||| P.chs ||| m = m) (a1) (s : State) : view m (resetBank a1 s) = view m s := by
  refine view_mono h ?_
  unfold resetBank
  try dsimp only
  repeat' first
    | with_reducible rfl
    | with_reducible apply view_ite
    | split
    | simp (disch := decide) only [↓switchOffBank_view, ↓setCh_view, ↓setBank_view]
    | with_reducible refine (forRange_keeps (view _) (fun _ _ => ?_) _).trans ?_

@[simp ↓] theorem switchRow_view {m : Nat} (h : P.event ||| P.chs ||| m = m) (a1) (a2) (a3) (a4) (s : State) : view m (switchRow a1 a2 a3 a4 s) = view m s := by
  refine view_mono h ?_
  unfold switchRow
  try dsimp only
  repeat' first
    | with_reducible rfl
    | with_reducible apply view_ite
    | split
    | simp (disch := decide) only [↓setCh_view, ↓pitchRow_view, ↓driveAo_view]

@[simp ↓] theorem switchBank_view {m : Nat} (h : P.event ||| P.banks ||| P.chs ||| m = m) (a1) (a2) (s : State) : view m (switchBank a1 a2 s) = view m s := by
  refine view_mono h ?_
  unfold switchBank
  try dsimp only
  repeat' first
    | with_reducible rfl
    | with_reducible apply view_ite
    | split
    | simp (disch := decide) only [↓switchRow_view, ↓setBank_view]
    | with_reducible refine (forAll_keeps (view _) (fun _ _ => ?_) _).trans ?_

@[simp ↓] theorem pitchGroupNow_view {m : Nat} (h : P.event ||| P.points ||| m = m) (a1) (s : State) : view m (pitchGroupNow a1 s) = view m s := by
  refine view_mono h ?_
  unfold pitchGroupNow
  try dsimp only
  repeat' first
    | with_reducible rfl
    | with_reducible apply view_ite
    | split
    | simp (disch := decide) only [↓pitchGroup_view]

@[simp ↓] theorem switchGroup_view {m : Nat} (h : P.event ||| P.points ||| m = m) (a1) (a2) (s : State) : view m (switchGroup a1 a2 s) = view m s := by
  refine view_mono h ?_
  unfold switchGroup
  try dsimp only
  repeat' first
    | with_reducible rfl
    | with_reducible apply view_ite
    | split
    | simp (disch := decide) only [↓pitchPoint_view, ↓driveDo_view]
    | with_reducible refine (forRange_keeps (view _) (fun _ _ => ?_) _).trans ?_

@[simp ↓] theorem pitchAxisNow_view {m : Nat} (h : P.event ||| P.axes ||| m = m) (a1) (a2) (s : State) : view m (pitchAxisNow a1 a2 s) = view m s := by
  refine view_mono h ?_
  unfold pitchAxisNow
  try dsimp only
  repeat' first
    | with_reducible rfl
    | with_reducible apply view_ite
    | split
    | simp (disch := decide) only [↓raiseIf_view, ↓pitchAxis_view]

@[simp ↓] theorem budgetEvents_view {m : Nat} (h : P.event ||| m = m) (a1) (s : State) : view m (budgetEvents a1 s) = view m s := by
  refine view_mono h ?_
  unfold budgetEvents
  try dsimp only
  repeat' first
    | with_reducible rfl
    | with_reducible apply view_ite
    | split
    | simp (disch := decide) only [↓raiseN_view]
    | with_reducible refine (forRange_keeps (view _) (fun _ _ => ?_) _).trans ?_

@[simp ↓] theorem loadEvents_view {m : Nat} (h : P.event ||| m = m) (a1) (s : State) : view m (loadEvents a1 s) = view m s := by
  refine view_mono h ?_
  unfold loadEvents
  try dsimp only
  repeat' first
    | with_reducible rfl
    | with_reducible apply view_ite
    | split
    | simp (disch := decide) only [↓raiseN_view]
    | with_reducible refine (forRange_keeps (view _) (fun _ _ => ?_) _).trans ?_

end Sys2Proof.Laws
end

