-- ==== Sys2Proof/Laws/Frame/Start.lean ====
section
/-! SUPPORT. Frame laws of Sys2Proof/Machine/Start.lean: for each operation, the parts of the state outside which it
changes nothing. -/

namespace Sys2Proof.Laws

open Sys2Proof.Machine

@[simp ↓] theorem refuseFn_view {m : Nat} (h : P.fns ||| m = m) (a1) (a2) (s : State) : view m (refuseFn a1 a2 s) = view m s := by
  refine view_mono h ?_
  unfold refuseFn
  try dsimp only
  repeat' first
    | with_reducible rfl
    | with_reducible apply view_ite
    | split
    | simp (disch := decide) only [↓setHdr_view]

@[simp ↓] theorem configureFn_view {m : Nat} (h : P.event ||| P.hdrs ||| P.banks ||| P.chs ||| P.points ||| P.axes ||| P.bedrock ||| P.can ||| m = m) (a1) (s : State) : view m (configureFn a1 s) = view m s := by
  refine view_mono h ?_
  unfold configureFn
  try dsimp only
  repeat' first
    | with_reducible rfl
    | with_reducible apply view_ite
    | split
    | simp (disch := decide) only [↓setHdr_view, ↓raiseLoop_view, ↓almRefusals_view, ↓refuseFn_view, ↓setBr_view, ↓setSf_view, ↓raiseN_view, ↓setCan_view, ↓raiseCan_view, ↓pitchBank_view, ↓pitchGroupNow_view, ↓pitchAxisNow_view]
    | with_reducible refine (forAll_keeps (view _) (fun _ _ => ?_) _).trans ?_

@[simp ↓] theorem reSuspend_view {m : Nat} (h : P.chs ||| P.points ||| P.axes ||| m = m) (a1) (s : State) : view m (reSuspend a1 s) = view m s := by
  refine view_mono h ?_
  unfold reSuspend
  try dsimp only
  repeat' first
    | with_reducible rfl
    | with_reducible apply view_ite
    | split
    | simp (disch := decide) only [↓wdSuspend_view]
    | with_reducible refine (forAll_keeps (view _) (fun _ _ => ?_) _).trans ?_

@[simp ↓] theorem skipCaptures_view {m : Nat} (h : P.tu ||| m = m) (a1) (s : State) : view m (skipCaptures a1 s) = view m s := by
  refine view_mono h ?_
  unfold skipCaptures
  try dsimp only
  repeat' first
    | with_reducible rfl
    | with_reducible apply view_ite
    | split
    | simp (disch := decide) only [↓setTu_view]

@[simp ↓] theorem runEffects_view {m : Nat} (h : P.event ||| P.chs ||| P.points ||| P.tu ||| P.logic ||| P.loops ||| P.axes ||| P.bedrock ||| P.can ||| P.panel ||| m = m) (a1) (s : State) : view m (runEffects a1 s) = view m s := by
  refine view_mono h ?_
  unfold runEffects
  try dsimp only
  repeat' first
    | with_reducible rfl
    | with_reducible apply view_ite
    | split
    | simp (disch := decide) only [↓skipCaptures_view, ↓setLogic_view, ↓setLoops_view, ↓startBedrock_view, ↓redrawAll_view, ↓reSuspend_view, ↓resumeBank_view, ↓resumeGroup_view, ↓wdRestart_view, ↓setAxis_view, ↓settleCan_view]

@[simp ↓] theorem enterRun_view {m : Nat} (h : P.event ||| P.hdrs ||| P.chs ||| P.points ||| P.tu ||| P.logic ||| P.loops ||| P.axes ||| P.bedrock ||| P.pool ||| P.can ||| P.panel ||| m = m) (a1) (s : State) : view m (enterRun a1 s) = view m s := by
  refine view_mono h ?_
  unfold enterRun
  try dsimp only
  repeat' first
    | with_reducible rfl
    | with_reducible apply view_ite
    | split
    | simp (disch := decide) only [↓runEffects_view, ↓setHdr_view, ↓enterFn_view]

@[simp ↓] theorem enterStandby_view {m : Nat} (h : P.event ||| P.hdrs ||| P.chs ||| P.points ||| P.logic ||| P.loops ||| P.axes ||| P.bedrock ||| P.pool ||| P.can ||| m = m) (a1) (s : State) : view m (enterStandby a1 s) = view m s := by
  refine view_mono h ?_
  unfold enterStandby
  try dsimp only
  repeat' first
    | with_reducible rfl
    | with_reducible apply view_ite
    | split
    | simp (disch := decide) only [↓setHdr_view, ↓enterFn_view, ↓switchOffBank_view, ↓switchOffGroup_view, ↓stoLine_view, ↓filterNote_view, ↓stopTasks_view, ↓setLoops_view, ↓setAxis_view]
    | with_reducible refine (forRange_keeps (view _) (fun _ _ => ?_) _).trans ?_

@[simp ↓] theorem acceptFn_view {m : Nat} (h : P.event ||| P.hdrs ||| P.chs ||| P.points ||| P.tu ||| P.logic ||| P.loops ||| P.axes ||| P.bedrock ||| P.pool ||| P.can ||| P.panel ||| m = m) (a1) (s : State) : view m (acceptFn a1 s) = view m s := by
  refine view_mono h ?_
  unfold acceptFn
  try dsimp only
  repeat' first
    | with_reducible rfl
    | with_reducible apply view_ite
    | split
    | simp (disch := decide) only [↓enterRun_view, ↓enterStandby_view, ↓setHdr_view]

@[simp ↓] theorem functionConfigured_view {m : Nat} (h : P.event ||| P.hdrs ||| P.banks ||| P.chs ||| P.points ||| P.tu ||| P.logic ||| P.loops ||| P.axes ||| P.bedrock ||| P.pool ||| P.can ||| P.panel ||| m = m) (a1) (s : State) : view m (functionConfigured a1 s) = view m s := by
  refine view_mono h ?_
  unfold functionConfigured
  try dsimp only
  repeat' first
    | with_reducible rfl
    | with_reducible apply view_ite
    | split
    | simp (disch := decide) only [↓configureFn_view, ↓acceptFn_view]

@[simp ↓] theorem imageValues_view {m : Nat} (h : P.recd ||| P.mod ||| P.tu ||| P.alarm ||| P.logic ||| P.loops ||| P.bedrock ||| P.can ||| P.panel ||| m = m) (s : State) : view m (imageValues s) = view m s := by
  refine view_mono h ?_
  unfold imageValues
  try dsimp only
  repeat' first
    | with_reducible rfl
    | with_reducible apply view_ite
    | split
    | simp (disch := decide) only [↓view_mod_tu_alarm_logic_loops_bedrock_can_panel_recd]

@[simp ↓] theorem noImage_view {m : Nat} (h : P.event ||| P.mod ||| P.hdrs ||| P.chs ||| P.points ||| P.axes ||| P.bedrock ||| P.pool ||| P.pair ||| P.panel ||| m = m) (s : State) : view m (noImage s) = view m s := by
  refine view_mono h ?_
  unfold noImage
  try dsimp only
  repeat' first
    | with_reducible rfl
    | with_reducible apply view_ite
    | split
    | simp (disch := decide) only [↓enterHold_view, ↓raiseN_view]

@[simp ↓] theorem pitchHealth_view {m : Nat} (h : P.mod ||| m = m) (s : State) : view m (pitchHealth s) = view m s := by
  refine view_mono h ?_
  unfold pitchHealth
  try dsimp only
  repeat' first
    | with_reducible rfl
    | with_reducible apply view_ite
    | split
    | simp (disch := decide) only [↓setMod_view]

@[simp ↓] theorem imageSelectEnd_view {m : Nat} (h : P.event ||| P.mod ||| P.hdrs ||| P.imgId ||| P.pegRest ||| P.chs ||| P.points ||| P.axes ||| P.bedrock ||| P.pool ||| P.pair ||| P.panel ||| m = m) (s : State) :
    view m (imageSelectEnd s) = view m s := by
  refine view_mono h ?_
  unfold imageSelectEnd
  extract_lets again mem read s1
  have h1 : view (P.event ||| P.mod ||| P.hdrs ||| P.imgId ||| P.pegRest ||| P.chs ||| P.points ||| P.axes ||| P.bedrock ||| P.pool ||| P.pair ||| P.panel) s1 = view (P.event ||| P.mod ||| P.hdrs ||| P.imgId ||| P.pegRest ||| P.chs ||| P.points ||| P.axes ||| P.bedrock ||| P.pool ||| P.pair ||| P.panel) s :=
    setPeg_view (by decide) _ _ rfl
  clear_value s1
  refine view_ite rfl ?_
  split
  · rw [noImage_view (by decide)]
    exact (setPeg_view (by decide) _ _ rfl).trans h1
  · rw [enterHold_view (by decide), raiseN_view (by decide)]
    exact (setPeg_view (by decide) _ _ rfl).trans h1
  · extract_lets id slots s2 s3 s4 s5
    have h2 : view (P.event ||| P.mod ||| P.hdrs ||| P.imgId ||| P.pegRest ||| P.chs ||| P.points ||| P.axes ||| P.bedrock ||| P.pool ||| P.pair ||| P.panel) s2 = view (P.event ||| P.mod ||| P.hdrs ||| P.imgId ||| P.pegRest ||| P.chs ||| P.points ||| P.axes ||| P.bedrock ||| P.pool ||| P.pair ||| P.panel) s :=
      (view_imgId_peg (by decide) _ _ _ rfl).trans h1
    have h4 : view (P.event ||| P.mod ||| P.hdrs ||| P.imgId ||| P.pegRest ||| P.chs ||| P.points ||| P.axes ||| P.bedrock ||| P.pool ||| P.pair ||| P.panel) s4 = view (P.event ||| P.mod ||| P.hdrs ||| P.imgId ||| P.pegRest ||| P.chs ||| P.points ||| P.axes ||| P.bedrock ||| P.pool ||| P.pair ||| P.panel) s :=
      (raiseIf_view (by decide) _ _ _ _ _).trans ((raise_view (by decide) _ _ _ _ _).trans h2)
    clear_value s4
    refine view_ite h4 ?_
    rw [pitchHealth_view (by decide)]
    refine (forAll_keeps (view _) (fun f t => view_ite (enterFn_view (by decide) _ _ _) rfl) _).trans ?_
    exact (setMod_view (by decide) _ _).trans h4

@[simp ↓] theorem secondReadEnd_view {m : Nat} (h : P.event ||| P.mod ||| P.hdrs ||| P.img ||| P.sections ||| P.pegRest ||| P.chs ||| P.points ||| P.tu ||| P.alarm ||| P.logic ||| P.loops ||| P.axes ||| P.bedrock ||| P.pool ||| P.can ||| P.pair ||| P.panel ||| P.recRest ||| m = m) (a1) (s : State) : view m (secondReadEnd a1 s) = view m s := by
  refine view_mono h ?_
  unfold secondReadEnd
  try dsimp only
  repeat' first
    | with_reducible rfl
    | with_reducible apply view_ite
    | with_reducible refine (setPeg_view (by decide) _ _ ?_).trans ?_
    | split
    | simp (disch := decide) only [↓enterHold_view, ↓raiseN_view, ↓loadEvents_view, ↓budgetEvents_view, ↓noImage_view, ↓imageValues_view, ↓view_img_sections]

@[simp ↓] theorem prefConflict_view {m : Nat} (h : P.event ||| m = m) (s : State) : view m (prefConflict s) = view m s := by
  refine view_mono h ?_
  unfold prefConflict
  try dsimp only
  repeat' first
    | with_reducible rfl
    | with_reducible apply view_ite
    | split
    | simp (disch := decide) only [↓raiseN_view]

@[simp ↓] theorem decidePref_view {m : Nat} (h : P.event ||| P.pair ||| m = m) (s : State) : view m (decidePref s) = view m s := by
  refine view_mono h ?_
  unfold decidePref
  try dsimp only
  repeat' first
    | with_reducible rfl
    | with_reducible apply view_ite
    | split
    | simp (disch := decide) only [↓setPair_view, ↓prefConflict_view]

@[simp ↓] theorem holdoffNote_view {m : Nat} (h : P.event ||| P.pair ||| m = m) (s : State) : view m (holdoffNote s) = view m s := by
  refine view_mono h ?_
  unfold holdoffNote
  try dsimp only
  repeat' first
    | with_reducible rfl
    | with_reducible apply view_ite
    | split
    | simp (disch := decide) only [↓raiseN_view, ↓setPair_view]

@[simp ↓] theorem enterModStandby_view {m : Nat} (h : P.event ||| P.mod ||| P.hdrs ||| P.chs ||| P.points ||| P.tu ||| P.logic ||| P.loops ||| P.axes ||| P.bedrock ||| P.pool ||| P.can ||| P.pair ||| P.panel ||| m = m) (s : State) : view m (enterModStandby s) = view m s := by
  refine view_mono h ?_
  unfold enterModStandby
  try dsimp only
  repeat' first
    | with_reducible rfl
    | with_reducible apply view_ite
    | split
    | simp (disch := decide) only [↓setMod_view, ↓setPair_view, ↓enterStandby_view, ↓enterRun_view]
    | with_reducible refine (forAll_keeps (view _) (fun _ _ => ?_) _).trans ?_

@[simp ↓] theorem runConfigured_view {m : Nat} (h : P.event ||| P.hdrs ||| P.chs ||| P.points ||| P.tu ||| P.logic ||| P.loops ||| P.axes ||| P.bedrock ||| P.pool ||| P.can ||| P.panel ||| m = m) (s : State) : view m (runConfigured s) = view m s := by
  refine view_mono h ?_
  unfold runConfigured
  try dsimp only
  repeat' first
    | with_reducible rfl
    | with_reducible apply view_ite
    | split
    | simp (disch := decide) only [↓enterRun_view]
    | with_reducible refine (forAll_keeps (view _) (fun _ _ => ?_) _).trans ?_

@[simp ↓] theorem assertClaim_view {m : Nat} (h : P.pair ||| m = m) (a1) (a2) (s : State) : view m (assertClaim a1 a2 s) = view m s := by
  refine view_mono h ?_
  unfold assertClaim
  try dsimp only
  repeat' first
    | with_reducible rfl
    | with_reducible apply view_ite
    | split
    | simp (disch := decide) only [↓setPair_view]

@[simp ↓] theorem driveAll_view {m : Nat} (h : P.event ||| P.chs ||| P.points ||| P.axes ||| P.bedrock ||| m = m) (s : State) : view m (driveAll s) = view m s := by
  refine view_mono h ?_
  unfold driveAll
  try dsimp only
  repeat' first
    | with_reducible rfl
    | with_reducible apply view_ite
    | split
    | simp (disch := decide) only [↓brLines_view, ↓driveDo_view, ↓driveAo_view]
    | with_reducible refine (forRange_keeps (view _) (fun _ _ => ?_) _).trans ?_

@[simp ↓] theorem startRun_view {m : Nat} (h : P.event ||| P.mod ||| P.hdrs ||| P.chs ||| P.points ||| P.tu ||| P.alarm ||| P.logic ||| P.loops ||| P.axes ||| P.bedrock ||| P.pool ||| P.can ||| P.panel ||| P.pi ||| m = m) (a1) (s : State) : view m (startRun a1 s) = view m s := by
  refine view_mono h ?_
  unfold startRun
  try dsimp only
  repeat' first
    | with_reducible rfl
    | with_reducible apply view_ite
    | split
    | simp (disch := decide) only [↓setMod_view, ↓restoreProcess_view, ↓runConfigured_view, ↓raiseN_view, ↓restoreBedrock_view, ↓driveAll_view, ↓raiseIf_view]

@[simp ↓] theorem setImageRefs_view {m : Nat} (h : P.fns ||| m = m) (s : State) : view m (setImageRefs s) = view m s := by
  refine view_mono h ?_
  unfold setImageRefs
  try dsimp only
  repeat' first
    | with_reducible rfl
    | with_reducible apply view_ite
    | split
    | simp (disch := decide) only [↓setHdr_view]
    | with_reducible refine (forAll_keeps (view _) (fun _ _ => ?_) _).trans ?_

@[simp ↓] theorem announceUncommissioned_view {m : Nat} (h : P.event ||| m = m) (s : State) : view m (announceUncommissioned s) = view m s := by
  refine view_mono h ?_
  unfold announceUncommissioned
  try dsimp only
  repeat' first
    | with_reducible rfl
    | with_reducible apply view_ite
    | split
    | simp (disch := decide) only [↓raise_view]

@[simp ↓] theorem pitchEnd_view {m : Nat} (h : P.event ||| P.mod ||| P.hdrs ||| P.chs ||| P.points ||| P.tu ||| P.alarm ||| P.logic ||| P.loops ||| P.axes ||| P.bedrock ||| P.pool ||| P.can ||| P.pair ||| P.panel ||| P.pi ||| m = m) (a1) (a2) (a3) (s : State) : view m (pitchEnd a1 a2 a3 s) = view m s := by
  refine view_mono h ?_
  unfold pitchEnd
  try dsimp only
  repeat' first
    | with_reducible rfl
    | with_reducible apply view_ite
    | split
    | simp (disch := decide) only [↓setPair_view, ↓setImageRefs_view, ↓enterStandby_view, ↓announceUncommissioned_view, ↓decidePref_view, ↓assertClaim_view, ↓startRun_view, ↓prefConflict_view, ↓enterModStandby_view, ↓holdoffNote_view, ↓raiseN_view]
    | with_reducible refine (forAll_keeps (view _) (fun _ _ => ?_) _).trans ?_

theorem execImageSelectEnd_view {m : Nat} (h : P.event ||| P.mod ||| P.hdrs ||| P.imgId ||| P.pegRest ||| P.chs ||| P.points ||| P.axes ||| P.bedrock ||| P.pool ||| P.pair ||| P.panel ||| m = m) (s : State) {t} (e : execImageSelectEnd s = .next t) : view m t = view m s := by
  refine view_mono h ?_
  unfold execImageSelectEnd at e
  obtain rfl := Host.Outcome.next.inj e
  repeat' first
    | with_reducible rfl
    | with_reducible apply view_ite
    | split
    | simp (disch := decide) only [↓imageSelectEnd_view]

theorem execSecondReadEnd_view {m : Nat} (h : P.event ||| P.mod ||| P.hdrs ||| P.img ||| P.sections ||| P.pegRest ||| P.chs ||| P.points ||| P.tu ||| P.alarm ||| P.logic ||| P.loops ||| P.axes ||| P.bedrock ||| P.pool ||| P.can ||| P.pair ||| P.panel ||| P.recRest ||| m = m) (a1) (s : State) {t} (e : execSecondReadEnd a1 s = .next t) : view m t = view m s := by
  refine view_mono h ?_
  unfold execSecondReadEnd at e
  obtain rfl := Host.Outcome.next.inj e
  repeat' first
    | with_reducible rfl
    | with_reducible apply view_ite
    | split
    | simp (disch := decide) only [↓secondReadEnd_view]

theorem execFunctionConfigured_view {m : Nat} (h : P.event ||| P.hdrs ||| P.banks ||| P.chs ||| P.points ||| P.tu ||| P.logic ||| P.loops ||| P.axes ||| P.bedrock ||| P.pool ||| P.can ||| P.panel ||| m = m) (a1) (s : State) {t} (e : execFunctionConfigured a1 s = .next t) : view m t = view m s := by
  refine view_mono h ?_
  unfold execFunctionConfigured at e
  obtain rfl := Host.Outcome.next.inj e
  repeat' first
    | with_reducible rfl
    | with_reducible apply view_ite
    | split
    | simp (disch := decide) only [↓functionConfigured_view]

end Sys2Proof.Laws
end

