-- ==== Sys2Proof/Laws/Frame/Function.lean ====
section
/-! SUPPORT. Frame laws of Sys2Proof/Machine/Function.lean: for each operation, the parts of the state outside which it
changes nothing. -/

namespace Sys2Proof.Laws

open Sys2Proof.Machine

@[simp ↓] theorem setPort_view {m : Nat} (h : P.mmp ||| m = m) (a1) (a2) (s : State) : view m (setPort a1 a2 s) = view m s := by
  refine view_mono h ?_
  unfold setPort
  try dsimp only
  repeat' first
    | with_reducible rfl
    | with_reducible apply view_ite
    | split
    | simp (disch := decide) only [↓setMmp_view]

@[simp ↓] theorem portDown_view {m : Nat} (h : P.event ||| P.tu ||| P.mmpRest ||| m = m) (a1) (s : State) : view m (portDown a1 s) = view m s := by
  refine view_mono h ?_
  unfold portDown
  try dsimp only
  repeat' first
    | with_reducible rfl
    | with_reducible apply view_ite
    | split
    | simp (disch := decide) only [↓linkLost_view, ↓raiseN_view, ↓setPort_view]

@[simp ↓] theorem resetRing_view {m : Nat} (h : P.event ||| P.tu ||| P.mmpRest ||| m = m) (s : State) : view m (resetRing s) = view m s := by
  refine view_mono h ?_
  unfold resetRing
  try dsimp only
  repeat' first
    | with_reducible rfl
    | with_reducible apply view_ite
    | split
    | simp (disch := decide) only [↓portDown_view, ↓setTu_view, ↓setMmp_view]

@[simp ↓] theorem commitRefused_view {m : Nat} (h : P.event ||| P.pegRest ||| P.mmpRest ||| m = m) (a1) (s : State) : view m (commitRefused a1 s) = view m s := by
  refine view_mono h ?_
  unfold commitRefused
  try dsimp only
  repeat' first
    | with_reducible rfl
    | with_reducible apply view_ite
    | with_reducible refine (setPeg_view (by decide) _ _ ?_).trans ?_
    | split
    | simp (disch := decide) only [↓answerHeld_view, ↓raiseN_view]

@[simp ↓] theorem abandonSlot_view {m : Nat} (h : P.pegRest ||| m = m) (s : State) : view m (abandonSlot s) = view m s := by
  refine view_mono h ?_
  unfold abandonSlot
  try dsimp only
  repeat' first
    | with_reducible rfl
    | with_reducible apply view_ite
    | with_reducible refine (setPeg_view (by decide) _ _ ?_).trans ?_
    | split

@[simp ↓] theorem pegStops_view {m : Nat} (h : P.event ||| P.pegRest ||| P.mmpRest ||| m = m) (s : State) : view m (pegStops s) = view m s := by
  refine view_mono h ?_
  unfold pegStops
  try dsimp only
  repeat' first
    | with_reducible rfl
    | with_reducible apply view_ite
    | split
    | simp (disch := decide) only [↓commitRefused_view, ↓abandonSlot_view]

@[simp ↓] theorem resetEffects_view {m : Nat} (h : P.event ||| P.pegRest ||| P.banks ||| P.chs ||| P.points ||| P.tu ||| P.alarm ||| P.logic ||| P.loops ||| P.axes ||| P.bedrock ||| P.pool ||| P.mmpRest ||| P.can ||| P.panel ||| P.recRest ||| P.ckpt ||| m = m) (a1) (s : State) : view m (resetEffects a1 s) = view m s := by
  refine view_mono h ?_
  unfold resetEffects
  try dsimp only
  repeat' first
    | with_reducible rfl
    | with_reducible apply view_ite
    | split
    | simp (disch := decide) only [↓resetLogic_view, ↓resetLoops_view, ↓resetBedrock_view, ↓resetAlarm_view, ↓resetTime_view, ↓resetRing_view, ↓resetRecorder_view, ↓pegStops_view, ↓resetPanel_view, ↓setCkpt_view, ↓resetBank_view, ↓resetGroup_view, ↓resetAxis_view, ↓resetCan_view]

@[simp ↓] theorem resetFn_view {m : Nat} (h : P.event ||| P.hdrs ||| P.pegRest ||| P.banks ||| P.chs ||| P.points ||| P.tu ||| P.alarm ||| P.logic ||| P.loops ||| P.axes ||| P.bedrock ||| P.pool ||| P.mmpRest ||| P.can ||| P.panel ||| P.recRest ||| P.ckpt ||| m = m) (a1) (s : State) : view m (resetFn a1 s) = view m s := by
  refine view_mono h ?_
  unfold resetFn
  try dsimp only
  repeat' first
    | with_reducible rfl
    | with_reducible apply view_ite
    | split
    | simp (disch := decide) only [↓resetEffects_view, ↓endLocals_view, ↓setHdr_view, ↓enterFn_view]

@[simp ↓] theorem freshStart_view {m : Nat} (h : P.fns ||| P.mmp ||| P.mod ||| P.img ||| P.sections ||| P.imgId ||| P.pegRest ||| P.otp ||| P.banks ||| P.chs ||| P.groups ||| P.points ||| P.tu ||| P.alarm ||| P.logic ||| P.div ||| P.divSel ||| P.trx ||| P.loops ||| P.axes ||| P.bedrock ||| P.pool ||| P.can ||| P.pair ||| P.panel ||| P.ckpt ||| P.pi ||| P.taskInbox ||| m = m) (k : StartKind) (s : State) :
    view m (freshStart k s) = view m s := view_mono h rfl

@[simp ↓] theorem restartNow_view {m : Nat} (h : P.event ||| P.mod ||| P.hdrs ||| P.img ||| P.sections ||| P.imgId ||| P.pegRest ||| P.otp ||| P.banks ||| P.chs ||| P.groups ||| P.points ||| P.tu ||| P.alarm ||| P.logic ||| P.div ||| P.divSel ||| P.trx ||| P.loops ||| P.axes ||| P.bedrock ||| P.pool ||| P.mmpRest ||| P.can ||| P.pair ||| P.panel ||| P.recRest ||| P.ckpt ||| P.pi ||| m = m) (a1) (s : State) : view m (restartNow a1 s) = view m s := by
  refine view_mono h ?_
  unfold restartNow
  try dsimp only
  repeat' first
    | with_reducible rfl
    | with_reducible apply view_ite
    | split
    | simp (disch := decide) only [↓endLocals_view, ↓panelDischarge_view, ↓forceEndNow_view, ↓enterFn_view, ↓outputsOff_view, ↓restartRecorder_view, ↓freshStart_view]
    | with_reducible refine (forAll_keeps (view _) (fun _ _ => ?_) _).trans ?_

@[simp ↓] theorem powerGood_view {m : Nat} (h : P.event ||| P.mod ||| P.hdrs ||| P.img ||| P.sections ||| P.imgId ||| P.pegRest ||| P.otp ||| P.banks ||| P.chs ||| P.groups ||| P.points ||| P.tu ||| P.alarm ||| P.logic ||| P.div ||| P.divSel ||| P.trx ||| P.loops ||| P.axes ||| P.bedrock ||| P.pool ||| P.mmpRest ||| P.can ||| P.pair ||| P.panel ||| P.recRest ||| P.ckpt ||| P.pi ||| m = m) (a1) (a2) (a3) (s : State) : view m (powerGood a1 a2 a3 s) = view m s := by
  refine view_mono h ?_
  unfold powerGood
  try dsimp only
  repeat' first
    | with_reducible rfl
    | with_reducible apply view_ite
    | split
    | simp (disch := decide) only [↓freshStart_view, ↓setMod_view, ↓restartRecorder_view, ↓raiseN_view, ↓setPair_view, ↓enterHold_view]

@[simp ↓] theorem selfTestEngine_view {m : Nat} (h : P.event ||| P.trx ||| m = m) (a1) (a2) (s : State) : view m (selfTestEngine a1 a2 s) = view m s := by
  refine view_mono h ?_
  unfold selfTestEngine
  try dsimp only
  repeat' first
    | with_reducible rfl
    | with_reducible apply view_ite
    | split
    | simp (disch := decide) only [↓raiseN_view, ↓setTrx_view]

@[simp ↓] theorem selfTestEnd_view {m : Nat} (h : P.event ||| P.mod ||| P.hdrs ||| P.pegRest ||| P.chs ||| P.points ||| P.trx ||| P.axes ||| P.bedrock ||| P.pool ||| P.pair ||| P.panel ||| m = m) (a1) (a2) (a3) (s : State) : view m (selfTestEnd a1 a2 a3 s) = view m s := by
  refine view_mono h ?_
  unfold selfTestEnd
  try dsimp only
  repeat' first
    | with_reducible rfl
    | with_reducible apply view_ite
    | with_reducible refine (setPeg_view (by decide) _ _ ?_).trans ?_
    | split
    | simp (disch := decide) only [↓selfTestEngine_view, ↓setMod_view, ↓raiseIf_view, ↓enterHold_view]
    | with_reducible refine (forRange_keeps (view _) (fun _ _ => ?_) _).trans ?_

@[simp ↓] theorem doReset_view {m : Nat} (h : P.event ||| P.mod ||| P.hdrs ||| P.img ||| P.sections ||| P.imgId ||| P.pegRest ||| P.otp ||| P.banks ||| P.chs ||| P.groups ||| P.points ||| P.tu ||| P.alarm ||| P.logic ||| P.div ||| P.divSel ||| P.trx ||| P.loops ||| P.axes ||| P.bedrock ||| P.pool ||| P.mmpRest ||| P.can ||| P.pair ||| P.panel ||| P.recRest ||| P.ckpt ||| P.pi ||| m = m) (a1) (s : State) : view m (doReset a1 s) = view m s := by
  refine view_mono h ?_
  unfold doReset
  try dsimp only
  repeat' first
    | with_reducible rfl
    | with_reducible apply view_ite
    | with_reducible refine (setPeg_view (by decide) _ _ ?_).trans ?_
    | split
    | simp (disch := decide) only [↓restartNow_view, ↓resetFn_view]

@[simp ↓] theorem doDisable_view {m : Nat} (h : P.event ||| P.hdrs ||| P.pegRest ||| P.logic ||| P.axes ||| P.pool ||| m = m) (a1) (s : State) : view m (doDisable a1 s) = view m s := by
  refine view_mono h ?_
  unfold doDisable
  try dsimp only
  repeat' first
    | with_reducible rfl
    | with_reducible apply view_ite
    | with_reducible refine (setPeg_view (by decide) _ _ ?_).trans ?_
    | split
    | simp (disch := decide) only [↓enterFn_view, ↓setTask_view, ↓setLogic_view, ↓drainAxis_view]

@[simp ↓] theorem doEnable_view {m : Nat} (h : P.event ||| P.mod ||| P.hdrs ||| P.pool ||| m = m) (a1) (s : State) : view m (doEnable a1 s) = view m s := by
  refine view_mono h ?_
  unfold doEnable
  try dsimp only
  repeat' first
    | with_reducible rfl
    | with_reducible apply view_ite
    | split
    | simp (disch := decide) only [↓setHdr_view, ↓enterFn_view, ↓setMod_view]
    | with_reducible refine (forAll_keeps (view _) (fun _ _ => ?_) _).trans ?_

@[simp ↓] theorem fnCtrl_view {m : Nat} (h : P.event ||| P.mod ||| P.hdrs ||| P.img ||| P.sections ||| P.imgId ||| P.pegRest ||| P.otp ||| P.banks ||| P.chs ||| P.groups ||| P.points ||| P.tu ||| P.alarm ||| P.logic ||| P.div ||| P.divSel ||| P.trx ||| P.loops ||| P.axes ||| P.bedrock ||| P.pool ||| P.mmpRest ||| P.can ||| P.pair ||| P.panel ||| P.recRest ||| P.ckpt ||| P.pi ||| m = m) (a1) (a2) (a3) (s : State) : view m (fnCtrl a1 a2 a3 s).2 = view m s := by
  refine view_mono h ?_
  unfold fnCtrl
  try dsimp only
  repeat' first
    | with_reducible rfl
    | with_reducible apply view_ite
    | split
    | simp (disch := decide) only [↓doReset_view, ↓doDisable_view, ↓doEnable_view]

@[simp ↓] theorem resetReleased_view {m : Nat} (h : P.event ||| P.hdrs ||| P.pool ||| m = m) (a1) (s : State) : view m (resetReleased a1 s) = view m s := by
  refine view_mono h ?_
  unfold resetReleased
  try dsimp only
  repeat' first
    | with_reducible rfl
    | with_reducible apply view_ite
    | split
    | simp (disch := decide) only [↓enterFn_view]

@[simp ↓] theorem giveBackAll_view {m : Nat} (h : P.event ||| P.pool ||| m = m) (a1) (s : State) : view m (giveBackAll a1 s) = view m s := by
  refine view_mono h ?_
  unfold giveBackAll
  try dsimp only
  repeat' first
    | with_reducible rfl
    | with_reducible apply view_ite
    | split
    | simp (disch := decide) only [↓freeBlocksOf_view, ↓setPool_view]

@[simp ↓] theorem toSafe_view {m : Nat} (h : P.chs ||| P.points ||| P.axes ||| m = m) (a1) (s : State) : view m (toSafe a1 s) = view m s := by
  refine view_mono h ?_
  unfold toSafe
  try dsimp only
  repeat' first
    | with_reducible rfl
    | with_reducible apply view_ite
    | split
    | simp (disch := decide) only [↓driveOut_view, ↓setWd_view]

@[simp ↓] theorem breakEffects_view {m : Nat} (h : P.event ||| P.pegRest ||| P.chs ||| P.points ||| P.tu ||| P.axes ||| P.mmpRest ||| P.can ||| P.panel ||| P.recRest ||| m = m) (a1) (s : State) : view m (breakEffects a1 s) = view m s := by
  refine view_mono h ?_
  unfold breakEffects
  try dsimp only
  repeat' first
    | with_reducible rfl
    | with_reducible apply view_ite
    | split
    | simp (disch := decide) only [↓writerFault_view, ↓fifoDump_view, ↓portDown_view, ↓commitAll_view, ↓pegStops_view, ↓endLocals_view, ↓setPanel_view, ↓toSafe_view, ↓drainedAxis_view, ↓abortFrames_view]
    | with_reducible refine (forRange_keeps (view _) (fun _ _ => ?_) _).trans ?_

@[simp ↓] theorem domainCheck_view {m : Nat} (h : P.event ||| P.mod ||| P.hdrs ||| P.pool ||| m = m) (a1) (s : State) : view m (domainCheck a1 s) = view m s := by
  refine view_mono h ?_
  unfold domainCheck
  try dsimp only
  repeat' first
    | with_reducible rfl
    | with_reducible apply view_ite
    | split
    | simp (disch := decide) only [↓applyDomains_view, ↓setMod_view]

@[simp ↓] theorem breakPoint_view {m : Nat} (h : P.event ||| P.mod ||| P.hdrs ||| P.pegRest ||| P.chs ||| P.points ||| P.tu ||| P.axes ||| P.bedrock ||| P.pool ||| P.mmpRest ||| P.can ||| P.pair ||| P.panel ||| P.recRest ||| m = m) (a1) (s : State) : view m (breakPoint a1 s) = view m s := by
  refine view_mono h ?_
  unfold breakPoint
  try dsimp only
  repeat' first
    | with_reducible rfl
    | with_reducible apply view_ite
    | split
    | simp (disch := decide) only [↓giveBackAll_view, ↓breakEffects_view, ↓enterFn_view, ↓enterHold_view, ↓domainCheck_view]

@[simp ↓] theorem drainTimeout_view {m : Nat} (h : P.event ||| P.mod ||| P.hdrs ||| P.chs ||| P.points ||| P.axes ||| P.bedrock ||| P.pool ||| P.pair ||| P.panel ||| m = m) (a1) (s : State) : view m (drainTimeout a1 s) = view m s := by
  refine view_mono h ?_
  unfold drainTimeout
  try dsimp only
  repeat' first
    | with_reducible rfl
    | with_reducible apply view_ite
    | split
    | simp (disch := decide) only [↓domainCheck_view, ↓enterFn_view, ↓giveBackAll_view, ↓drainedAxis_view, ↓faultFn_view, ↓raiseN_view]

theorem execPowerGood_view {m : Nat} (h : P.event ||| P.mod ||| P.hdrs ||| P.img ||| P.sections ||| P.imgId ||| P.pegRest ||| P.otp ||| P.banks ||| P.chs ||| P.groups ||| P.points ||| P.tu ||| P.alarm ||| P.logic ||| P.div ||| P.divSel ||| P.trx ||| P.loops ||| P.axes ||| P.bedrock ||| P.pool ||| P.mmpRest ||| P.can ||| P.pair ||| P.panel ||| P.recRest ||| P.ckpt ||| P.pi ||| m = m) (a1) (a2) (a3) (s : State) {t} (e : execPowerGood a1 a2 a3 s = .next t) : view m t = view m s := by
  refine view_mono h ?_
  unfold execPowerGood at e
  obtain rfl := Host.Outcome.next.inj e
  repeat' first
    | with_reducible rfl
    | with_reducible apply view_ite
    | split
    | simp (disch := decide) only [↓powerGood_view]

theorem execSelfTestEnd_view {m : Nat} (h : P.event ||| P.mod ||| P.hdrs ||| P.pegRest ||| P.chs ||| P.points ||| P.trx ||| P.axes ||| P.bedrock ||| P.pool ||| P.pair ||| P.panel ||| m = m) (a1) (a2) (a3) (s : State) {t} (e : execSelfTestEnd a1 a2 a3 s = .next t) : view m t = view m s := by
  refine view_mono h ?_
  unfold execSelfTestEnd at e
  obtain rfl := Host.Outcome.next.inj e
  repeat' first
    | with_reducible rfl
    | with_reducible apply view_ite
    | split
    | simp (disch := decide) only [↓selfTestEnd_view]

theorem execFunctionReset_view {m : Nat} (h : P.event ||| P.mod ||| P.hdrs ||| P.img ||| P.sections ||| P.imgId ||| P.pegRest ||| P.otp ||| P.banks ||| P.chs ||| P.groups ||| P.points ||| P.tu ||| P.alarm ||| P.logic ||| P.div ||| P.divSel ||| P.trx ||| P.loops ||| P.axes ||| P.bedrock ||| P.pool ||| P.mmpRest ||| P.can ||| P.pair ||| P.panel ||| P.recRest ||| P.ckpt ||| P.pi ||| m = m) (a1) (a2) (s : State) {t} (e : execFunctionReset a1 a2 s = .next t) : view m t = view m s := by
  refine view_mono h ?_
  unfold execFunctionReset at e
  obtain rfl := Host.Outcome.next.inj e
  repeat' first
    | with_reducible rfl
    | with_reducible apply view_ite
    | split
    | simp (disch := decide) only [↓fnCtrl_view]
    | (refine (congrArg (fun p => view _ p.2) ‹fnCtrl _ _ _ _ = _›).symm.trans ((fnCtrl_view ?_ _ _ _ _).trans ?_); decide)

theorem execFunctionDisable_view {m : Nat} (h : P.event ||| P.mod ||| P.hdrs ||| P.img ||| P.sections ||| P.imgId ||| P.pegRest ||| P.otp ||| P.banks ||| P.chs ||| P.groups ||| P.points ||| P.tu ||| P.alarm ||| P.logic ||| P.div ||| P.divSel ||| P.trx ||| P.loops ||| P.axes ||| P.bedrock ||| P.pool ||| P.mmpRest ||| P.can ||| P.pair ||| P.panel ||| P.recRest ||| P.ckpt ||| P.pi ||| m = m) (a1) (a2) (s : State) {t} (e : execFunctionDisable a1 a2 s = .next t) : view m t = view m s := by
  refine view_mono h ?_
  unfold execFunctionDisable at e
  obtain rfl := Host.Outcome.next.inj e
  repeat' first
    | with_reducible rfl
    | with_reducible apply view_ite
    | split
    | simp (disch := decide) only [↓fnCtrl_view]
    | (refine (congrArg (fun p => view _ p.2) ‹fnCtrl _ _ _ _ = _›).symm.trans ((fnCtrl_view ?_ _ _ _ _).trans ?_); decide)

theorem execFunctionEnable_view {m : Nat} (h : P.event ||| P.mod ||| P.hdrs ||| P.img ||| P.sections ||| P.imgId ||| P.pegRest ||| P.otp ||| P.banks ||| P.chs ||| P.groups ||| P.points ||| P.tu ||| P.alarm ||| P.logic ||| P.div ||| P.divSel ||| P.trx ||| P.loops ||| P.axes ||| P.bedrock ||| P.pool ||| P.mmpRest ||| P.can ||| P.pair ||| P.panel ||| P.recRest ||| P.ckpt ||| P.pi ||| m = m) (a1) (a2) (s : State) {t} (e : execFunctionEnable a1 a2 s = .next t) : view m t = view m s := by
  refine view_mono h ?_
  unfold execFunctionEnable at e
  obtain rfl := Host.Outcome.next.inj e
  repeat' first
    | with_reducible rfl
    | with_reducible apply view_ite
    | split
    | simp (disch := decide) only [↓fnCtrl_view]
    | (refine (congrArg (fun p => view _ p.2) ‹fnCtrl _ _ _ _ = _›).symm.trans ((fnCtrl_view ?_ _ _ _ _).trans ?_); decide)

theorem execResetReleased_view {m : Nat} (h : P.event ||| P.hdrs ||| P.pool ||| m = m) (a1) (s : State) {t} (e : execResetReleased a1 s = .next t) : view m t = view m s := by
  refine view_mono h ?_
  unfold execResetReleased at e
  obtain rfl := Host.Outcome.next.inj e
  repeat' first
    | with_reducible rfl
    | with_reducible apply view_ite
    | split
    | simp (disch := decide) only [↓resetReleased_view]

theorem execDrainBreakPoint_view {m : Nat} (h : P.event ||| P.mod ||| P.hdrs ||| P.pegRest ||| P.chs ||| P.points ||| P.tu ||| P.axes ||| P.bedrock ||| P.pool ||| P.mmpRest ||| P.can ||| P.pair ||| P.panel ||| P.recRest ||| m = m) (a1) (s : State) {t} (e : execDrainBreakPoint a1 s = .next t) : view m t = view m s := by
  refine view_mono h ?_
  unfold execDrainBreakPoint at e
  obtain rfl := Host.Outcome.next.inj e
  repeat' first
    | with_reducible rfl
    | with_reducible apply view_ite
    | split
    | simp (disch := decide) only [↓breakPoint_view]

theorem execDrainTimeout_view {m : Nat} (h : P.event ||| P.mod ||| P.hdrs ||| P.chs ||| P.points ||| P.axes ||| P.bedrock ||| P.pool ||| P.pair ||| P.panel ||| m = m) (a1) (s : State) {t} (e : execDrainTimeout a1 s = .next t) : view m t = view m s := by
  refine view_mono h ?_
  unfold execDrainTimeout at e
  obtain rfl := Host.Outcome.next.inj e
  repeat' first
    | with_reducible rfl
    | with_reducible apply view_ite
    | split
    | simp (disch := decide) only [↓drainTimeout_view]

end Sys2Proof.Laws
end

