-- ==== Sys2Proof/Laws/Frame/Otp.lean ====
section
/-! SUPPORT. Frame laws of Sys2Proof/Machine/Otp.lean: for each operation, the parts of the state outside which it
changes nothing. -/

namespace Sys2Proof.Laws

open Sys2Proof.Machine

@[simp ↓] theorem setOtp_view {m : Nat} (h : P.otp ||| m = m) (s : State) (a2) : view m (State.setOtp s a2) = view m s :=
  view_otp h s _

@[simp ↓] theorem otpCommand_view {m : Nat} (h : P.event ||| P.otp ||| P.banks ||| m = m) (a1) (a2) (s : State) : view m (otpCommand a1 a2 s).2 = view m s := by
  refine view_mono h ?_
  unfold otpCommand
  try dsimp only
  repeat' first
    | with_reducible rfl
    | with_reducible apply view_ite
    | split
    | simp (disch := decide) only [↓setOtp_view, ↓trimProgram_view, ↓raise_view]

@[simp ↓] theorem commissionRefused_view {m : Nat} (h : P.event ||| P.bedrock ||| m = m) (a1) (a2) (s : State) : view m (commissionRefused a1 a2 s) = view m s := by
  refine view_mono h ?_
  unfold commissionRefused
  try dsimp only
  repeat' first
    | with_reducible rfl
    | with_reducible apply view_ite
    | split
    | simp (disch := decide) only [↓raise_view, ↓setBr_view]

@[simp ↓] theorem handOn_view {m : Nat} (h : P.pair ||| m = m) (a1) (s : State) : view m (handOn a1 s) = view m s := by
  refine view_mono h ?_
  unfold handOn
  try dsimp only
  repeat' first
    | with_reducible rfl
    | with_reducible apply view_ite
    | split
    | simp (disch := decide) only [↓setPair_view]

@[simp ↓] theorem commissionProgram_view {m : Nat} (h : P.otp ||| m = m) (a1) (a2) (a3) (s : State) : view m (commissionProgram a1 a2 a3 s) = view m s := by
  refine view_mono h ?_
  unfold commissionProgram
  try dsimp only
  repeat' first
    | with_reducible rfl
    | with_reducible apply view_ite
    | split
    | simp (disch := decide) only [↓setOtp_view]

@[simp ↓] theorem commission_view {m : Nat} (h : P.event ||| P.otp ||| P.bedrock ||| P.mmpRest ||| P.pair ||| m = m) (a1) (a2) (a3) (s : State) : view m (commission a1 a2 a3 s) = view m s := by
  refine view_mono h ?_
  unfold commission
  try dsimp only
  repeat' first
    | with_reducible rfl
    | with_reducible apply view_ite
    | split
    | simp (disch := decide) only [↓answer_view, ↓hold_view, ↓handOn_view, ↓commissionProgram_view, ↓refused_view, ↓commissionRefused_view]

@[simp ↓] theorem commissionHandOn_view {m : Nat} (h : P.event ||| P.otp ||| P.bedrock ||| P.pair ||| m = m) (a1) (s : State) : view m (commissionHandOn a1 s) = view m s := by
  refine view_mono h ?_
  unfold commissionHandOn
  try dsimp only
  repeat' first
    | with_reducible rfl
    | with_reducible apply view_ite
    | split
    | simp (disch := decide) only [↓setPair_view, ↓commissionProgram_view, ↓commissionRefused_view]

@[simp ↓] theorem commissionFinish_view {m : Nat} (h : P.event ||| P.pegRest ||| P.otp ||| P.bedrock ||| P.mmpRest ||| P.pair ||| m = m) (a1) (a2) (s : State) : view m (commissionFinish a1 a2 s) = view m s := by
  refine view_mono h ?_
  unfold commissionFinish
  try dsimp only
  repeat' first
    | with_reducible rfl
    | with_reducible apply view_ite
    | with_reducible refine (setPeg_view (by decide) _ _ ?_).trans ?_
    | split
    | simp (disch := decide) only [↓otpFinish_view, ↓raise_view, ↓setBr_view, ↓commissionRefused_view, ↓setPair_view, ↓answerHeld_view]

@[simp ↓] theorem partnerResult_view {m : Nat} (h : P.event ||| P.bedrock ||| P.pair ||| m = m) (a1) (s : State) : view m (partnerResult a1 s) = view m s := by
  refine view_mono h ?_
  unfold partnerResult
  try dsimp only
  repeat' first
    | with_reducible rfl
    | with_reducible apply view_ite
    | split
    | simp (disch := decide) only [↓raiseIf_view, ↓setPair_view, ↓setBr_view]

@[simp ↓] theorem roleKeyWrite_view {m : Nat} (h : P.mmp ||| P.otp ||| m = m) (a1) (s : State) : view m (roleKeyWrite a1 s) = view m s := by
  refine view_mono h ?_
  unfold roleKeyWrite
  try dsimp only
  repeat' first
    | with_reducible rfl
    | with_reducible apply view_ite
    | split
    | simp (disch := decide) only [↓answer_view, ↓refused_view, ↓hold_view, ↓setOtp_view]

@[simp ↓] theorem roleKeyFinish_view {m : Nat} (h : P.event ||| P.otp ||| P.mmpRest ||| m = m) (a1) (a2) (s : State) : view m (roleKeyFinish a1 a2 s) = view m s := by
  refine view_mono h ?_
  unfold roleKeyFinish
  try dsimp only
  repeat' first
    | with_reducible rfl
    | with_reducible apply view_ite
    | split
    | simp (disch := decide) only [↓otpFinish_view, ↓raise_view, ↓answerHeld_view]

@[simp ↓] theorem otpWritten_view {m : Nat} (h : P.event ||| P.pegRest ||| P.otp ||| P.banks ||| P.chs ||| P.points ||| P.axes ||| P.bedrock ||| P.mmpRest ||| P.pair ||| m = m) (a1) (s : State) : view m (otpWritten a1 s) = view m s := by
  refine view_mono h ?_
  unfold otpWritten
  try dsimp only
  repeat' first
    | with_reducible rfl
    | with_reducible apply view_ite
    | split
    | simp (disch := decide) only [↓otpFinish_view, ↓roleKeyFinish_view, ↓trimFinish_view, ↓commissionFinish_view]

theorem execOtpProgram_view {m : Nat} (h : P.event ||| P.otp ||| P.banks ||| m = m) (a1) (s : State) {t} (e : execOtpProgram a1 s = .next t) : view m t = view m s := by
  refine view_mono h ?_
  unfold execOtpProgram at e
  obtain rfl := Host.Outcome.next.inj e
  repeat' first
    | with_reducible rfl
    | with_reducible apply view_ite
    | split
    | simp (disch := decide) only [↓otpCommand_view]
    | (refine (congrArg (fun p => view _ p.2) ‹otpCommand _ _ _ = _›).symm.trans ((otpCommand_view ?_ _ _ _).trans ?_); decide)

theorem execOtpProgramLast_view {m : Nat} (h : P.event ||| P.otp ||| P.banks ||| m = m) (a1) (s : State) {t} (e : execOtpProgramLast a1 s = .next t) : view m t = view m s := by
  refine view_mono h ?_
  unfold execOtpProgramLast at e
  obtain rfl := Host.Outcome.next.inj e
  repeat' first
    | with_reducible rfl
    | with_reducible apply view_ite
    | split
    | simp (disch := decide) only [↓otpCommand_view]
    | (refine (congrArg (fun p => view _ p.2) ‹otpCommand _ _ _ = _›).symm.trans ((otpCommand_view ?_ _ _ _).trans ?_); decide)

theorem execOtpWrite_view {m : Nat} (h : P.event ||| P.pegRest ||| P.otp ||| P.banks ||| P.chs ||| P.points ||| P.axes ||| P.bedrock ||| P.mmpRest ||| P.pair ||| m = m) (a1) (s : State) {t} (e : execOtpWrite a1 s = .next t) : view m t = view m s := by
  refine view_mono h ?_
  unfold execOtpWrite at e
  obtain rfl := Host.Outcome.next.inj e
  repeat' first
    | with_reducible rfl
    | with_reducible apply view_ite
    | split
    | simp (disch := decide) only [↓otpWritten_view]

theorem execCommission_view {m : Nat} (h : P.event ||| P.otp ||| P.bedrock ||| P.mmpRest ||| P.pair ||| m = m) (a1) (a2) (a3) (s : State) {t} (e : execCommission a1 a2 a3 s = .next t) : view m t = view m s := by
  refine view_mono h ?_
  unfold execCommission at e
  obtain rfl := Host.Outcome.next.inj e
  repeat' first
    | with_reducible rfl
    | with_reducible apply view_ite
    | split
    | simp (disch := decide) only [↓commissionRefused_view, ↓commission_view]
    | with_reducible refine onNoted_view (by decide) _ _ _ _ _ _ (fun _ _ => ?_) (fun _ _ => ?_) _

theorem execCommissionHandOn_view {m : Nat} (h : P.event ||| P.otp ||| P.bedrock ||| P.pair ||| m = m) (a1) (s : State) {t} (e : execCommissionHandOn a1 s = .next t) : view m t = view m s := by
  refine view_mono h ?_
  unfold execCommissionHandOn at e
  obtain rfl := Host.Outcome.next.inj e
  repeat' first
    | with_reducible rfl
    | with_reducible apply view_ite
    | split
    | simp (disch := decide) only [↓commissionHandOn_view]

theorem execPartnerUncommissioned_view {m : Nat} (h : P.event ||| P.bedrock ||| P.pair ||| m = m) (a1) (s : State) {t} (e : execPartnerUncommissioned a1 s = .next t) : view m t = view m s := by
  refine view_mono h ?_
  unfold execPartnerUncommissioned at e
  obtain rfl := Host.Outcome.next.inj e
  repeat' first
    | with_reducible rfl
    | with_reducible apply view_ite
    | split
    | simp (disch := decide) only [↓partnerResult_view]

theorem execRoleKey_view {m : Nat} (h : P.event ||| P.otp ||| P.mmpRest ||| m = m) (a1) (s : State) {t} (e : execRoleKey a1 s = .next t) : view m t = view m s := by
  refine view_mono h ?_
  unfold execRoleKey at e
  obtain rfl := Host.Outcome.next.inj e
  repeat' first
    | with_reducible rfl
    | with_reducible apply view_ite
    | split
    | simp (disch := decide) only [↓roleKeyWrite_view]
    | with_reducible refine onMessage_view (by decide) _ _ _ _ _ (fun _ _ => ?_) _

end Sys2Proof.Laws
end

