-- ==== Sys2Proof/Laws/Frame/Peg.lean ====
section
/-! SUPPORT. Frame laws of Sys2Proof/Machine/Peg.lean: for each operation, the parts of the state outside which it
changes nothing. -/

namespace Sys2Proof.Laws

open Sys2Proof.Machine

@[simp ↓] theorem pegRemoved_view {m : Nat} (h : P.event ||| P.mod ||| P.hdrs ||| P.pegRest ||| P.chs ||| P.points ||| P.axes ||| P.bedrock ||| P.pool ||| P.mmpRest ||| P.pair ||| P.panel ||| m = m) (s : State) : view m (pegRemoved s) = view m s := by
  refine view_mono h ?_
  unfold pegRemoved
  try dsimp only
  repeat' first
    | with_reducible rfl
    | with_reducible apply view_ite
    | with_reducible refine (setPeg_view (by decide) _ _ ?_).trans ?_
    | split
    | simp (disch := decide) only [↓raiseN_view, ↓enterHold_view, ↓abandonSlot_view, ↓commitRefused_view]

@[simp ↓] theorem pegInserted_view {m : Nat} (h : P.event ||| P.peg ||| m = m) (a1) (s : State) : view m (pegInserted a1 s) = view m s := by
  refine view_mono h ?_
  unfold pegInserted
  try dsimp only
  repeat' first
    | with_reducible rfl
    | with_reducible apply view_ite
    | with_reducible refine (setPeg_all_view (by decide) _ _).trans ?_
    | split
    | simp (disch := decide) only [↓raiseN_view, ↓refreshSlots_view]

@[simp ↓] theorem pegResult_view {m : Nat} (h : P.event ||| P.pegRest ||| m = m) (a1) (a2) (s : State) : view m (pegResult a1 a2 s) = view m s := by
  refine view_mono h ?_
  unfold pegResult
  try dsimp only
  repeat' first
    | with_reducible rfl
    | with_reducible apply view_ite
    | with_reducible refine (setPeg_view (by decide) _ _ ?_).trans ?_
    | split
    | simp (disch := decide) only [↓raise_view]

@[simp ↓] theorem pegApply_view {m : Nat} (h : P.event ||| P.peg ||| m = m) (a1) (a2) (s : State) : view m (pegApply a1 a2 s) = view m s := by
  refine view_mono h ?_
  unfold pegApply
  try dsimp only
  repeat' first
    | with_reducible rfl
    | with_reducible apply view_ite
    | with_reducible refine (setPeg_all_view (by decide) _ _).trans ?_
    | split
    | simp (disch := decide) only [↓pegResult_view, ↓refreshSlots_view, ↓raise_view]

@[simp ↓] theorem pegWriteOp_view {m : Nat} (h : P.event ||| P.peg ||| P.mmpRest ||| m = m) (a1) (a2) (a3) (s : State) : view m (pegWriteOp a1 a2 a3 s) = view m s := by
  refine view_mono h ?_
  unfold pegWriteOp
  try dsimp only
  repeat' first
    | with_reducible rfl
    | with_reducible apply view_ite
    | split
    | simp (disch := decide) only [↓answer_view, ↓pegApply_view, ↓refused_view, ↓pegResult_view]

@[simp ↓] theorem pegNote_view {m : Nat} (h : P.event ||| P.pegRest ||| m = m) (a1) (a2) (s : State) : view m (pegNote a1 a2 s) = view m s := by
  refine view_mono h ?_
  unfold pegNote
  try dsimp only
  repeat' first
    | with_reducible rfl
    | with_reducible apply view_ite
    | split
    | simp (disch := decide) only [↓pegResult_view]

@[simp ↓] theorem commitNote_view {m : Nat} (h : P.event ||| P.pegRest ||| m = m) (a1) (a2) (s : State) : view m (commitNote a1 a2 s) = view m s := by
  refine view_mono h ?_
  unfold commitNote
  try dsimp only
  repeat' first
    | with_reducible rfl
    | with_reducible apply view_ite
    | with_reducible refine (setPeg_view (by decide) _ _ ?_).trans ?_
    | split
    | simp (disch := decide) only [↓raise_view]

@[simp ↓] theorem commit_view {m : Nat} (h : P.event ||| P.pegRest ||| P.mmpRest ||| m = m) (a1) (a2) (s : State) : view m (commit a1 a2 s) = view m s := by
  refine view_mono h ?_
  unfold commit
  try dsimp only
  repeat' first
    | with_reducible rfl
    | with_reducible apply view_ite
    | with_reducible refine (setPeg_view (by decide) _ _ ?_).trans ?_
    | split
    | simp (disch := decide) only [↓hold_view, ↓loadEvents_view, ↓budgetEvents_view, ↓refused_view, ↓commitNote_view]

@[simp ↓] theorem commitStaged_view {m : Nat} (h : P.pegRest ||| m = m) (s : State) : view m (commitStaged s) = view m s := by
  refine view_mono h ?_
  unfold commitStaged
  try dsimp only
  repeat' first
    | with_reducible rfl
    | with_reducible apply view_ite
    | with_reducible refine (setPeg_view (by decide) _ _ ?_).trans ?_
    | split

@[simp ↓] theorem commitNoIdle_view {m : Nat} (h : P.event ||| P.pegRest ||| P.logic ||| P.loops ||| P.mmpRest ||| m = m) (s : State) : view m (commitNoIdle s) = view m s := by
  refine view_mono h ?_
  unfold commitNoIdle
  try dsimp only
  repeat' first
    | with_reducible rfl
    | with_reducible apply view_ite
    | split
    | simp (disch := decide) only [↓commitRefused_view, ↓resumeLoops_view, ↓resumeReleases_view]

@[simp ↓] theorem restartWatchdogs_view {m : Nat} (h : P.chs ||| P.points ||| P.axes ||| m = m) (s : State) : view m (restartWatchdogs s) = view m s := by
  refine view_mono h ?_
  unfold restartWatchdogs
  try dsimp only
  repeat' first
    | with_reducible rfl
    | with_reducible apply view_ite
    | split
    | simp (disch := decide) only [↓wdRestart_view]
    | with_reducible refine (forAll_keeps (view _) (fun _ _ => ?_) _).trans ?_

@[simp ↓] theorem switchPanel_view {m : Nat} (h : P.recd ||| P.panel ||| m = m) (a1) (s : State) : view m (switchPanel a1 s) = view m s := by
  refine view_mono h ?_
  unfold switchPanel
  try dsimp only
  repeat' first
    | with_reducible rfl
    | with_reducible apply view_ite
    | split
    | simp (disch := decide) only [↓setRec_view, ↓redrawAll_view, ↓setPanel_view]

@[simp ↓] theorem commitSwitch_view {m : Nat} (h : P.event ||| P.img ||| P.sections ||| P.imgId ||| P.pegRest ||| P.banks ||| P.chs ||| P.points ||| P.alarm ||| P.logic ||| P.loops ||| P.axes ||| P.panel ||| P.recRest ||| m = m) (s : State) :
    view m (commitSwitch s) = view m s := by
  refine view_mono h ?_
  unfold commitSwitch
  extract_lets old img pg s1 s2 s3 s4 s5
  have h1 : view (P.event ||| P.img ||| P.sections ||| P.imgId ||| P.pegRest ||| P.banks ||| P.chs ||| P.points ||| P.alarm ||| P.logic ||| P.loops ||| P.axes ||| P.panel ||| P.recRest) s1 = view (P.event ||| P.img ||| P.sections ||| P.imgId ||| P.pegRest ||| P.banks ||| P.chs ||| P.points ||| P.alarm ||| P.logic ||| P.loops ||| P.axes ||| P.panel ||| P.recRest) s :=
    view_image_peg (by decide) s img s.peg.staged s.peg.stagedId pg rfl
  clear_value s1
  refine view_ite rfl ?_
  have h2 : view (P.event ||| P.img ||| P.sections ||| P.imgId ||| P.pegRest ||| P.banks ||| P.chs ||| P.points ||| P.alarm ||| P.logic ||| P.loops ||| P.axes ||| P.panel ||| P.recRest) s2 = view (P.event ||| P.img ||| P.sections ||| P.imgId ||| P.pegRest ||| P.banks ||| P.chs ||| P.points ||| P.alarm ||| P.logic ||| P.loops ||| P.axes ||| P.panel ||| P.recRest) s := by
    rw [switchAlarm_view (by decide), switchLoops_view (by decide), switchLogic_view (by decide), h1]
  have h3 : view (P.event ||| P.img ||| P.sections ||| P.imgId ||| P.pegRest ||| P.banks ||| P.chs ||| P.points ||| P.alarm ||| P.logic ||| P.loops ||| P.axes ||| P.panel ||| P.recRest) s3 = view (P.event ||| P.img ||| P.sections ||| P.imgId ||| P.pegRest ||| P.banks ||| P.chs ||| P.points ||| P.alarm ||| P.logic ||| P.loops ||| P.axes ||| P.panel ||| P.recRest) s := by
    refine (forRange_keeps (view _) (fun _ _ => switchGroup_view (by decide) _ _ _) _).trans ?_
    exact (forRange_keeps (view _) (fun _ _ => switchBank_view (by decide) _ _ _) _).trans h2
  have h4 : view (P.event ||| P.img ||| P.sections ||| P.imgId ||| P.pegRest ||| P.banks ||| P.chs ||| P.points ||| P.alarm ||| P.logic ||| P.loops ||| P.axes ||| P.panel ||| P.recRest) s4 = view (P.event ||| P.img ||| P.sections ||| P.imgId ||| P.pegRest ||| P.banks ||| P.chs ||| P.points ||| P.alarm ||| P.logic ||| P.loops ||| P.axes ||| P.panel ||| P.recRest) s := by
    rw [endLocals_view (by decide), switchPanel_view (by decide), h3]
  have h5 : view (P.event ||| P.img ||| P.sections ||| P.imgId ||| P.pegRest ||| P.banks ||| P.chs ||| P.points ||| P.alarm ||| P.logic ||| P.loops ||| P.axes ||| P.panel ||| P.recRest) s5 = view (P.event ||| P.img ||| P.sections ||| P.imgId ||| P.pegRest ||| P.banks ||| P.chs ||| P.points ||| P.alarm ||| P.logic ||| P.loops ||| P.axes ||| P.panel ||| P.recRest) s := by
    refine (forAll_keeps (view _) (fun p t => ?_) _).trans h4
    split
    · rfl
    · exact forceEndNow_view (by decide) _ _ _
  rw [resumeLoops_view (by decide), resumeReleases_view (by decide), restartWatchdogs_view (by decide), h5]

@[simp ↓] theorem commitDone_view {m : Nat} (h : P.event ||| P.mod ||| P.hdrs ||| P.pegRest ||| P.banks ||| P.chs ||| P.points ||| P.tu ||| P.alarm ||| P.logic ||| P.loops ||| P.axes ||| P.bedrock ||| P.pool ||| P.mmpRest ||| P.can ||| P.pair ||| P.panel ||| P.recRest ||| P.ckpt ||| m = m) (s : State) : view m (commitDone s) = view m s := by
  refine view_mono h ?_
  unfold commitDone
  try dsimp only
  repeat' first
    | with_reducible rfl
    | with_reducible apply view_ite
    | with_reducible refine (setPeg_view (by decide) _ _ ?_).trans ?_
    | split
    | simp (disch := decide) only [↓refreshSlots_view, ↓setImageRefs_view, ↓raise_view, ↓answerHeld_view, ↓setPair_view, ↓resetFn_view, ↓breakPoint_view]

@[simp ↓] theorem standbyRepitch_view {m : Nat} (h : P.event ||| P.hdrs ||| P.pegRest ||| P.pool ||| P.pair ||| m = m) (s : State) : view m (standbyRepitch s) = view m s := by
  refine view_mono h ?_
  unfold standbyRepitch
  try dsimp only
  repeat' first
    | with_reducible rfl
    | with_reducible apply view_ite
    | with_reducible refine (setPeg_view (by decide) _ _ ?_).trans ?_
    | split
    | simp (disch := decide) only [↓setPair_view, ↓setHdr_view, ↓enterFn_view]
    | with_reducible refine (forAll_keeps (view _) (fun _ _ => ?_) _).trans ?_

theorem execPegRemoved_view {m : Nat} (h : P.event ||| P.mod ||| P.hdrs ||| P.pegRest ||| P.chs ||| P.points ||| P.axes ||| P.bedrock ||| P.pool ||| P.mmpRest ||| P.pair ||| P.panel ||| m = m) (s : State) {t} (e : execPegRemoved s = .next t) : view m t = view m s := by
  refine view_mono h ?_
  unfold execPegRemoved at e
  obtain rfl := Host.Outcome.next.inj e
  repeat' first
    | with_reducible rfl
    | with_reducible apply view_ite
    | split
    | simp (disch := decide) only [↓pegRemoved_view]

theorem execPegInserted_view {m : Nat} (h : P.event ||| P.peg ||| m = m) (a1) (s : State) {t} (e : execPegInserted a1 s = .next t) : view m t = view m s := by
  refine view_mono h ?_
  unfold execPegInserted at e
  obtain rfl := Host.Outcome.next.inj e
  repeat' first
    | with_reducible rfl
    | with_reducible apply view_ite
    | split
    | simp (disch := decide) only [↓pegInserted_view]

theorem execPegWriteOpen_view {m : Nat} (h : P.event ||| P.peg ||| P.mmpRest ||| m = m) (a1) (a2) (s : State) {t} (e : execPegWriteOpen a1 a2 s = .next t) : view m t = view m s := by
  refine view_mono h ?_
  unfold execPegWriteOpen at e
  obtain rfl := Host.Outcome.next.inj e
  repeat' first
    | with_reducible rfl
    | with_reducible apply view_ite
    | split
    | simp (disch := decide) only [↓pegNote_view, ↓pegWriteOp_view]
    | with_reducible refine onNoted_view (by decide) _ _ _ _ _ _ (fun _ _ => ?_) (fun _ _ => ?_) _

theorem execPegWriteData_view {m : Nat} (h : P.event ||| P.peg ||| P.mmpRest ||| m = m) (a1) (a2) (a3) (a4) (s : State) {t} (e : execPegWriteData a1 a2 a3 a4 s = .next t) : view m t = view m s := by
  refine view_mono h ?_
  unfold execPegWriteData at e
  obtain rfl := Host.Outcome.next.inj e
  repeat' first
    | with_reducible rfl
    | with_reducible apply view_ite
    | split
    | simp (disch := decide) only [↓pegNote_view, ↓pegWriteOp_view]
    | with_reducible refine onNoted_view (by decide) _ _ _ _ _ _ (fun _ _ => ?_) (fun _ _ => ?_) _

theorem execPegWriteClose_view {m : Nat} (h : P.event ||| P.peg ||| P.mmpRest ||| m = m) (a1) (a2) (s : State) {t} (e : execPegWriteClose a1 a2 s = .next t) : view m t = view m s := by
  refine view_mono h ?_
  unfold execPegWriteClose at e
  obtain rfl := Host.Outcome.next.inj e
  repeat' first
    | with_reducible rfl
    | with_reducible apply view_ite
    | split
    | simp (disch := decide) only [↓pegNote_view, ↓pegWriteOp_view]
    | with_reducible refine onNoted_view (by decide) _ _ _ _ _ _ (fun _ _ => ?_) (fun _ _ => ?_) _

theorem execPegWriteErase_view {m : Nat} (h : P.event ||| P.peg ||| P.mmpRest ||| m = m) (a1) (a2) (s : State) {t} (e : execPegWriteErase a1 a2 s = .next t) : view m t = view m s := by
  refine view_mono h ?_
  unfold execPegWriteErase at e
  obtain rfl := Host.Outcome.next.inj e
  repeat' first
    | with_reducible rfl
    | with_reducible apply view_ite
    | split
    | simp (disch := decide) only [↓pegNote_view, ↓pegWriteOp_view]
    | with_reducible refine onNoted_view (by decide) _ _ _ _ _ _ (fun _ _ => ?_) (fun _ _ => ?_) _

theorem execCommit_view {m : Nat} (h : P.event ||| P.pegRest ||| P.mmpRest ||| m = m) (a1) (a2) (s : State) {t} (e : execCommit a1 a2 s = .next t) : view m t = view m s := by
  refine view_mono h ?_
  unfold execCommit at e
  obtain rfl := Host.Outcome.next.inj e
  repeat' first
    | with_reducible rfl
    | with_reducible apply view_ite
    | split
    | simp (disch := decide) only [↓commitNote_view, ↓commit_view]
    | with_reducible refine onNoted_view (by decide) _ _ _ _ _ _ (fun _ _ => ?_) (fun _ _ => ?_) _

theorem execCommitStaged_view {m : Nat} (h : P.pegRest ||| m = m) (s : State) {t} (e : execCommitStaged s = .next t) : view m t = view m s := by
  refine view_mono h ?_
  unfold execCommitStaged at e
  obtain rfl := Host.Outcome.next.inj e
  repeat' first
    | with_reducible rfl
    | with_reducible apply view_ite
    | split
    | simp (disch := decide) only [↓commitStaged_view]

theorem execCommitSwitch_view {m : Nat} (h : P.event ||| P.img ||| P.sections ||| P.imgId ||| P.pegRest ||| P.banks ||| P.chs ||| P.points ||| P.alarm ||| P.logic ||| P.loops ||| P.axes ||| P.panel ||| P.recRest ||| m = m) (s : State) {t} (e : execCommitSwitch s = .next t) : view m t = view m s := by
  refine view_mono h ?_
  unfold execCommitSwitch at e
  obtain rfl := Host.Outcome.next.inj e
  repeat' first
    | with_reducible rfl
    | with_reducible apply view_ite
    | split
    | simp (disch := decide) only [↓commitSwitch_view]

theorem execCommitNoIdle_view {m : Nat} (h : P.event ||| P.pegRest ||| P.logic ||| P.loops ||| P.mmpRest ||| m = m) (s : State) {t} (e : execCommitNoIdle s = .next t) : view m t = view m s := by
  refine view_mono h ?_
  unfold execCommitNoIdle at e
  obtain rfl := Host.Outcome.next.inj e
  repeat' first
    | with_reducible rfl
    | with_reducible apply view_ite
    | split
    | simp (disch := decide) only [↓commitNoIdle_view]

theorem execCommitDone_view {m : Nat} (h : P.event ||| P.mod ||| P.hdrs ||| P.pegRest ||| P.banks ||| P.chs ||| P.points ||| P.tu ||| P.alarm ||| P.logic ||| P.loops ||| P.axes ||| P.bedrock ||| P.pool ||| P.mmpRest ||| P.can ||| P.pair ||| P.panel ||| P.recRest ||| P.ckpt ||| m = m) (s : State) {t} (e : execCommitDone s = .next t) : view m t = view m s := by
  refine view_mono h ?_
  unfold execCommitDone at e
  obtain rfl := Host.Outcome.next.inj e
  repeat' first
    | with_reducible rfl
    | with_reducible apply view_ite
    | split
    | simp (disch := decide) only [↓commitDone_view]

theorem execStandbyRepitch_view {m : Nat} (h : P.event ||| P.hdrs ||| P.pegRest ||| P.pool ||| P.pair ||| m = m) (s : State) {t} (e : execStandbyRepitch s = .next t) : view m t = view m s := by
  refine view_mono h ?_
  unfold execStandbyRepitch at e
  obtain rfl := Host.Outcome.next.inj e
  repeat' first
    | with_reducible rfl
    | with_reducible apply view_ite
    | split
    | simp (disch := decide) only [↓standbyRepitch_view]

end Sys2Proof.Laws
end

