-- ==== Sys2Proof/Laws/Frame/Power.lean ====
section
/-! SUPPORT. Frame laws of Sys2Proof/Machine/Power.lean: for each operation, the parts of the state outside which it
changes nothing. -/

namespace Sys2Proof.Laws

open Sys2Proof.Machine

@[simp ↓] theorem mirrorHeader_view {m : Nat} (h : P.recd ||| m = m) (s : State) : view m (mirrorHeader s) = view m s := by
  refine view_mono h ?_
  unfold mirrorHeader
  try dsimp only
  repeat' first
    | with_reducible rfl
    | with_reducible apply view_ite
    | split
    | simp (disch := decide) only [↓setRec_view]

@[simp ↓] theorem powerFail_view {m : Nat} (h : P.event ||| P.mod ||| P.panel ||| P.recRest ||| P.ckpt ||| m = m) (a1) (a2) (s : State) : view m (powerFail a1 a2 s) = view m s := by
  refine view_mono h ?_
  unfold powerFail
  try dsimp only
  repeat' first
    | with_reducible rfl
    | with_reducible apply view_ite
    | split
    | simp (disch := decide) only [↓setMod_view, ↓raiseN_view, ↓panelDischarge_view, ↓abandonCkpt_view, ↓mirrorHeader_view]

@[simp ↓] theorem recordAll_view {m : Nat} (h : P.event ||| P.recRest ||| m = m) (s : State) : view m (recordAll s) = view m s := by
  refine view_mono h ?_
  unfold recordAll
  try dsimp only
  repeat' first
    | with_reducible rfl
    | with_reducible apply view_ite
    | split
    | simp (disch := decide) only [↓commitAll_view, ↓recordOne_view, ↓setRec_view]
    | with_reducible refine (forAll_keeps (view _) (fun _ _ => ?_) _).trans ?_

@[simp ↓] theorem windowClose_view {m : Nat} (h : P.event ||| P.mod ||| P.recRest ||| m = m) (s : State) : view m (windowClose s) = view m s := by
  refine view_mono h ?_
  unfold windowClose
  try dsimp only
  repeat' first
    | with_reducible rfl
    | with_reducible apply view_ite
    | split
    | simp (disch := decide) only [↓setMod_view, ↓recordAll_view]

@[simp ↓] theorem below14_view {m : Nat} (h : P.event ||| P.mod ||| P.hdrs ||| P.chs ||| P.points ||| P.bedrock ||| P.pool ||| m = m) (a1) (a2) (s : State) : view m (below14 a1 a2 s) = view m s := by
  refine view_mono h ?_
  unfold below14
  try dsimp only
  repeat' first
    | with_reducible rfl
    | with_reducible apply view_ite
    | split
    | simp (disch := decide) only [↓applyDomains_view, ↓setMod_view, ↓outputsOff_view]

@[simp ↓] theorem storeExhausted_view {m : Nat} (h : P.event ||| P.mod ||| P.hdrs ||| P.chs ||| P.points ||| P.bedrock ||| P.pool ||| P.pair ||| P.panel ||| P.recRest ||| m = m) (s : State) : view m (storeExhausted s) = view m s := by
  refine view_mono h ?_
  unfold storeExhausted
  try dsimp only
  repeat' first
    | with_reducible rfl
    | with_reducible apply view_ite
    | split
    | simp (disch := decide) only [↓windowClose_view, ↓outputsOff_view, ↓loseEvent_view, ↓setRec_view, ↓setHdr_view, ↓enterFn_view, ↓setMod_view, ↓setPair_view, ↓setPanel_view]
    | with_reducible refine (forAll_keeps (view _) (fun _ _ => ?_) _).trans ?_

@[simp ↓] theorem powerRestored_view {m : Nat} (h : P.event ||| P.mod ||| m = m) (a1) (a2) (s : State) : view m (powerRestored a1 a2 s) = view m s := by
  refine view_mono h ?_
  unfold powerRestored
  try dsimp only
  repeat' first
    | with_reducible rfl
    | with_reducible apply view_ite
    | split
    | simp (disch := decide) only [↓setMod_view, ↓raiseN_view]

@[simp ↓] theorem supplyLost_view {m : Nat} (h : P.event ||| P.mod ||| m = m) (a1) (a2) (s : State) : view m (supplyLost a1 a2 s) = view m s := by
  refine view_mono h ?_
  unfold supplyLost
  try dsimp only
  repeat' first
    | with_reducible rfl
    | with_reducible apply view_ite
    | split
    | simp (disch := decide) only [↓setMod_view, ↓raiseN_view]

@[simp ↓] theorem supplyOk_view {m : Nat} (h : P.event ||| P.mod ||| m = m) (a1) (a2) (s : State) : view m (supplyOk a1 a2 s) = view m s := by
  refine view_mono h ?_
  unfold supplyOk
  try dsimp only
  repeat' first
    | with_reducible rfl
    | with_reducible apply view_ite
    | split
    | simp (disch := decide) only [↓setMod_view, ↓raiseN_view]

@[simp ↓] theorem holdupLow_view {m : Nat} (h : P.event ||| P.mod ||| m = m) (a1) (s : State) : view m (holdupLow a1 s) = view m s := by
  refine view_mono h ?_
  unfold holdupLow
  try dsimp only
  repeat' first
    | with_reducible rfl
    | with_reducible apply view_ite
    | split
    | simp (disch := decide) only [↓setMod_view, ↓raiseIf_view]

@[simp ↓] theorem holdupGood_view {m : Nat} (h : P.mod ||| m = m) (a1) (s : State) : view m (holdupGood a1 s) = view m s := by
  refine view_mono h ?_
  unfold holdupGood
  try dsimp only
  repeat' first
    | with_reducible rfl
    | with_reducible apply view_ite
    | split
    | simp (disch := decide) only [↓setMod_view]

@[simp ↓] theorem monitorWindow_view {m : Nat} (h : P.mod ||| m = m) (a1) (s : State) : view m (monitorWindow a1 s) = view m s := by
  refine view_mono h ?_
  unfold monitorWindow
  try dsimp only
  repeat' first
    | with_reducible rfl
    | with_reducible apply view_ite
    | split
    | simp (disch := decide) only [↓setMod_view]

@[simp ↓] theorem clockDrift_view {m : Nat} (h : P.event ||| P.mod ||| m = m) (a1) (s : State) : view m (clockDrift a1 s) = view m s := by
  refine view_mono h ?_
  unfold clockDrift
  try dsimp only
  repeat' first
    | with_reducible rfl
    | with_reducible apply view_ite
    | split
    | simp (disch := decide) only [↓raiseN_view, ↓setMod_view]

@[simp ↓] theorem clockFault_view {m : Nat} (h : P.event ||| P.mod ||| P.hdrs ||| P.chs ||| P.points ||| P.axes ||| P.bedrock ||| P.pool ||| P.pair ||| P.panel ||| m = m) (a1) (s : State) : view m (clockFault a1 s) = view m s := by
  refine view_mono h ?_
  unfold clockFault
  try dsimp only
  repeat' first
    | with_reducible rfl
    | with_reducible apply view_ite
    | split
    | simp (disch := decide) only [↓setMod_view, ↓enterHold_view, ↓raiseN_view]

@[simp ↓] theorem clockLost_view {m : Nat} (h : P.event ||| P.mod ||| P.hdrs ||| P.chs ||| P.points ||| P.axes ||| P.bedrock ||| P.pool ||| P.pair ||| P.panel ||| m = m) (a1) (s : State) : view m (clockLost a1 s) = view m s := by
  refine view_mono h ?_
  unfold clockLost
  try dsimp only
  repeat' first
    | with_reducible rfl
    | with_reducible apply view_ite
    | split
    | simp (disch := decide) only [↓raiseN_view, ↓setMod_view, ↓setHdr_view, ↓faultFn_view]
    | with_reducible refine (forAll_keeps (view _) (fun _ _ => ?_) _).trans ?_

@[simp ↓] theorem temperatureRead_view {m : Nat} (h : P.event ||| P.mod ||| m = m) (a1) (s : State) : view m (temperatureRead a1 s) = view m s := by
  refine view_mono h ?_
  unfold temperatureRead
  try dsimp only
  repeat' first
    | with_reducible rfl
    | with_reducible apply view_ite
    | split
    | simp (disch := decide) only [↓setMod_view, ↓raiseIf_view]

@[simp ↓] theorem bivAccept_view {m : Nat} (h : P.mod ||| P.pair ||| m = m) (a1) (s : State) : view m (bivAccept a1 s) = view m s := by
  refine view_mono h ?_
  unfold bivAccept
  try dsimp only
  repeat' first
    | with_reducible rfl
    | with_reducible apply view_ite
    | split
    | simp (disch := decide) only [↓setMod_view, ↓setPair_view]

@[simp ↓] theorem bivRequest_view {m : Nat} (h : P.event ||| P.mod ||| P.pair ||| m = m) (a1) (s : State) : view m (bivRequest a1 s) = view m s := by
  refine view_mono h ?_
  unfold bivRequest
  try dsimp only
  repeat' first
    | with_reducible rfl
    | with_reducible apply view_ite
    | split
    | simp (disch := decide) only [↓bivAccept_view, ↓raiseN_view]

@[simp ↓] theorem baseTickAll_view {m : Nat} (h : P.event ||| P.mod ||| P.pegRest ||| P.chs ||| P.points ||| P.logic ||| P.loops ||| P.axes ||| P.ckpt ||| m = m) (s : State) : view m (baseTickAll s) = view m s := by
  refine view_mono h ?_
  unfold baseTickAll
  try dsimp only
  repeat' first
    | with_reducible rfl
    | with_reducible apply view_ite
    | split
    | simp (disch := decide) only [↓baseTick_view, ↓resumeLoops_view, ↓setCkpt_view, ↓beginCkpt_view, ↓setMod_view]

@[simp ↓] theorem wakeNow_view {m : Nat} (h : P.event ||| P.mod ||| P.hdrs ||| P.img ||| P.sections ||| P.imgId ||| P.pegRest ||| P.otp ||| P.banks ||| P.chs ||| P.groups ||| P.points ||| P.tu ||| P.alarm ||| P.logic ||| P.div ||| P.divSel ||| P.trx ||| P.loops ||| P.axes ||| P.bedrock ||| P.pool ||| P.mmpRest ||| P.can ||| P.pair ||| P.panel ||| P.recRest ||| P.ckpt ||| P.pi ||| m = m) (a1) (s : State) : view m (wakeNow a1 s) = view m s := by
  refine view_mono h ?_
  unfold wakeNow
  try dsimp only
  repeat' first
    | with_reducible rfl
    | with_reducible apply view_ite
    | split
    | simp (disch := decide) only [↓raiseN_view, ↓setMod_view, ↓setPair_view, ↓restartNow_view]

@[simp ↓] theorem wakeBy_view {m : Nat} (h : P.event ||| P.mod ||| P.hdrs ||| P.img ||| P.sections ||| P.imgId ||| P.pegRest ||| P.otp ||| P.banks ||| P.chs ||| P.groups ||| P.points ||| P.tu ||| P.alarm ||| P.logic ||| P.div ||| P.divSel ||| P.trx ||| P.loops ||| P.axes ||| P.bedrock ||| P.pool ||| P.mmpRest ||| P.can ||| P.pair ||| P.panel ||| P.recRest ||| P.ckpt ||| P.pi ||| m = m) (a1) (s : State) : view m (wakeBy a1 s) = view m s := by
  refine view_mono h ?_
  unfold wakeBy
  try dsimp only
  repeat' first
    | with_reducible rfl
    | with_reducible apply view_ite
    | split
    | simp (disch := decide) only [↓wakeNow_view, ↓setMod_view]

@[simp ↓] theorem enterBivouac_view {m : Nat} (h : P.event ||| P.mod ||| P.hdrs ||| P.img ||| P.sections ||| P.imgId ||| P.pegRest ||| P.otp ||| P.banks ||| P.chs ||| P.groups ||| P.points ||| P.tu ||| P.alarm ||| P.logic ||| P.div ||| P.divSel ||| P.trx ||| P.loops ||| P.axes ||| P.bedrock ||| P.pool ||| P.mmpRest ||| P.can ||| P.pair ||| P.panel ||| P.recRest ||| P.ckpt ||| P.pi ||| m = m) (a1) (s : State) : view m (enterBivouac a1 s) = view m s := by
  refine view_mono h ?_
  unfold enterBivouac
  try dsimp only
  repeat' first
    | with_reducible rfl
    | with_reducible apply view_ite
    | split
    | simp (disch := decide) only [↓outputsOff_view, ↓panelDischarge_view, ↓canSleep_view, ↓recordAll_view, ↓raiseN_view, ↓setMod_view, ↓applyDomains_view, ↓setPair_view, ↓setPort_view, ↓wakeNow_view]
    | with_reducible refine (forAll_keeps (view _) (fun _ _ => ?_) _).trans ?_
    | with_reducible refine (forRange_keeps (view _) (fun _ _ => ?_) _).trans ?_

@[simp ↓] theorem bivouacMsg_view {m : Nat} (h : P.event ||| P.mod ||| P.hdrs ||| P.img ||| P.sections ||| P.imgId ||| P.pegRest ||| P.otp ||| P.banks ||| P.chs ||| P.groups ||| P.points ||| P.tu ||| P.alarm ||| P.logic ||| P.div ||| P.divSel ||| P.trx ||| P.loops ||| P.axes ||| P.bedrock ||| P.pool ||| P.mmpRest ||| P.can ||| P.pair ||| P.panel ||| P.recRest ||| P.ckpt ||| P.pi ||| m = m) (a1) (s : State) : view m (bivouacMsg a1 s) = view m s := by
  refine view_mono h ?_
  unfold bivouacMsg
  try dsimp only
  repeat' first
    | with_reducible rfl
    | with_reducible apply view_ite
    | split
    | simp (disch := decide) only [↓answer_view, ↓wakeBy_view, ↓bivAccept_view, ↓refused_view]

@[simp ↓] theorem canWake_view {m : Nat} (h : P.event ||| P.mod ||| P.hdrs ||| P.img ||| P.sections ||| P.imgId ||| P.pegRest ||| P.otp ||| P.banks ||| P.chs ||| P.groups ||| P.points ||| P.tu ||| P.alarm ||| P.logic ||| P.div ||| P.divSel ||| P.trx ||| P.loops ||| P.axes ||| P.bedrock ||| P.pool ||| P.mmpRest ||| P.can ||| P.pair ||| P.panel ||| P.recRest ||| P.ckpt ||| P.pi ||| m = m) (a1) (a2) (s : State) : view m (canWake a1 a2 s) = view m s := by
  refine view_mono h ?_
  unfold canWake
  try dsimp only
  repeat' first
    | with_reducible rfl
    | with_reducible apply view_ite
    | split
    | simp (disch := decide) only [↓wakeBy_view, ↓raiseCan_view]

@[simp ↓] theorem wakeInput_view {m : Nat} (h : P.event ||| P.mod ||| P.hdrs ||| P.img ||| P.sections ||| P.imgId ||| P.pegRest ||| P.otp ||| P.banks ||| P.chs ||| P.groups ||| P.points ||| P.tu ||| P.alarm ||| P.logic ||| P.div ||| P.divSel ||| P.trx ||| P.loops ||| P.axes ||| P.bedrock ||| P.pool ||| P.mmpRest ||| P.can ||| P.pair ||| P.panel ||| P.recRest ||| P.ckpt ||| P.pi ||| m = m) (a1) (a2) (s : State) : view m (wakeInput a1 a2 s) = view m s := by
  refine view_mono h ?_
  unfold wakeInput
  try dsimp only
  repeat' first
    | with_reducible rfl
    | with_reducible apply view_ite
    | split
    | simp (disch := decide) only [↓wakeBy_view]

@[simp ↓] theorem siltTimeout_view {m : Nat} (h : P.event ||| P.mod ||| P.hdrs ||| P.img ||| P.sections ||| P.imgId ||| P.pegRest ||| P.otp ||| P.banks ||| P.chs ||| P.groups ||| P.points ||| P.tu ||| P.alarm ||| P.logic ||| P.div ||| P.divSel ||| P.trx ||| P.loops ||| P.axes ||| P.bedrock ||| P.pool ||| P.mmpRest ||| P.can ||| P.pair ||| P.panel ||| P.recRest ||| P.ckpt ||| P.pi ||| m = m) (s : State) : view m (siltTimeout s) = view m s := by
  refine view_mono h ?_
  unfold siltTimeout
  try dsimp only
  repeat' first
    | with_reducible rfl
    | with_reducible apply view_ite
    | split
    | simp (disch := decide) only [↓wakeBy_view]

@[simp ↓] theorem mmpWake_view {m : Nat} (h : P.event ||| P.mod ||| P.hdrs ||| P.img ||| P.sections ||| P.imgId ||| P.pegRest ||| P.otp ||| P.banks ||| P.chs ||| P.groups ||| P.points ||| P.tu ||| P.alarm ||| P.logic ||| P.div ||| P.divSel ||| P.trx ||| P.loops ||| P.axes ||| P.bedrock ||| P.pool ||| P.mmpRest ||| P.can ||| P.pair ||| P.panel ||| P.recRest ||| P.ckpt ||| P.pi ||| m = m) (a1) (s : State) : view m (mmpWake a1 s) = view m s := by
  refine view_mono h ?_
  unfold mmpWake
  try dsimp only
  repeat' first
    | with_reducible rfl
    | with_reducible apply view_ite
    | split
    | simp (disch := decide) only [↓receive_view, ↓setMod_view, ↓setMmp_view, ↓wakeBy_view]
    | (refine (congrArg (fun p => view _ p.2) ‹receive _ _ _ = _›).symm.trans ((receive_view ?_ _ _ _).trans ?_); decide)

theorem execPowerFailWarning_view {m : Nat} (h : P.event ||| P.mod ||| P.panel ||| P.recRest ||| P.ckpt ||| m = m) (a1) (a2) (s : State) {t} (e : execPowerFailWarning a1 a2 s = .next t) : view m t = view m s := by
  refine view_mono h ?_
  unfold execPowerFailWarning at e
  obtain rfl := Host.Outcome.next.inj e
  repeat' first
    | with_reducible rfl
    | with_reducible apply view_ite
    | split
    | simp (disch := decide) only [↓powerFail_view]

theorem execEventWindowClose_view {m : Nat} (h : P.event ||| P.mod ||| P.recRest ||| m = m) (s : State) {t} (e : execEventWindowClose s = .next t) : view m t = view m s := by
  refine view_mono h ?_
  unfold execEventWindowClose at e
  obtain rfl := Host.Outcome.next.inj e
  repeat' first
    | with_reducible rfl
    | with_reducible apply view_ite
    | split
    | simp (disch := decide) only [↓windowClose_view]

theorem execInputBelow14v_view {m : Nat} (h : P.event ||| P.mod ||| P.hdrs ||| P.chs ||| P.points ||| P.bedrock ||| P.pool ||| m = m) (a1) (a2) (s : State) {t} (e : execInputBelow14v a1 a2 s = .next t) : view m t = view m s := by
  refine view_mono h ?_
  unfold execInputBelow14v at e
  obtain rfl := Host.Outcome.next.inj e
  repeat' first
    | with_reducible rfl
    | with_reducible apply view_ite
    | split
    | simp (disch := decide) only [↓below14_view]

theorem execStoreExhausted_view {m : Nat} (h : P.event ||| P.mod ||| P.hdrs ||| P.chs ||| P.points ||| P.bedrock ||| P.pool ||| P.pair ||| P.panel ||| P.recRest ||| m = m) (s : State) {t} (e : execStoreExhausted s = .next t) : view m t = view m s := by
  refine view_mono h ?_
  unfold execStoreExhausted at e
  obtain rfl := Host.Outcome.next.inj e
  repeat' first
    | with_reducible rfl
    | with_reducible apply view_ite
    | split
    | simp (disch := decide) only [↓storeExhausted_view]

theorem execPowerRestored_view {m : Nat} (h : P.event ||| P.mod ||| m = m) (a1) (a2) (s : State) {t} (e : execPowerRestored a1 a2 s = .next t) : view m t = view m s := by
  refine view_mono h ?_
  unfold execPowerRestored at e
  obtain rfl := Host.Outcome.next.inj e
  repeat' first
    | with_reducible rfl
    | with_reducible apply view_ite
    | split
    | simp (disch := decide) only [↓powerRestored_view]

theorem execSupplyLost_view {m : Nat} (h : P.event ||| P.mod ||| m = m) (a1) (a2) (s : State) {t} (e : execSupplyLost a1 a2 s = .next t) : view m t = view m s := by
  refine view_mono h ?_
  unfold execSupplyLost at e
  obtain rfl := Host.Outcome.next.inj e
  repeat' first
    | with_reducible rfl
    | with_reducible apply view_ite
    | split
    | simp (disch := decide) only [↓supplyLost_view]

theorem execSupplyOk_view {m : Nat} (h : P.event ||| P.mod ||| m = m) (a1) (a2) (s : State) {t} (e : execSupplyOk a1 a2 s = .next t) : view m t = view m s := by
  refine view_mono h ?_
  unfold execSupplyOk at e
  obtain rfl := Host.Outcome.next.inj e
  repeat' first
    | with_reducible rfl
    | with_reducible apply view_ite
    | split
    | simp (disch := decide) only [↓supplyOk_view]

theorem execHoldupLow_view {m : Nat} (h : P.event ||| P.mod ||| m = m) (a1) (s : State) {t} (e : execHoldupLow a1 s = .next t) : view m t = view m s := by
  refine view_mono h ?_
  unfold execHoldupLow at e
  obtain rfl := Host.Outcome.next.inj e
  repeat' first
    | with_reducible rfl
    | with_reducible apply view_ite
    | split
    | simp (disch := decide) only [↓holdupLow_view]

theorem execHoldUpStoreGood_view {m : Nat} (h : P.mod ||| m = m) (a1) (s : State) {t} (e : execHoldUpStoreGood a1 s = .next t) : view m t = view m s := by
  refine view_mono h ?_
  unfold execHoldUpStoreGood at e
  obtain rfl := Host.Outcome.next.inj e
  repeat' first
    | with_reducible rfl
    | with_reducible apply view_ite
    | split
    | simp (disch := decide) only [↓holdupGood_view]

theorem execClockMonitorWindow_view {m : Nat} (h : P.mod ||| m = m) (a1) (s : State) {t} (e : execClockMonitorWindow a1 s = .next t) : view m t = view m s := by
  refine view_mono h ?_
  unfold execClockMonitorWindow at e
  obtain rfl := Host.Outcome.next.inj e
  repeat' first
    | with_reducible rfl
    | with_reducible apply view_ite
    | split
    | simp (disch := decide) only [↓monitorWindow_view]

theorem execClockDrift_view {m : Nat} (h : P.event ||| P.mod ||| m = m) (a1) (s : State) {t} (e : execClockDrift a1 s = .next t) : view m t = view m s := by
  refine view_mono h ?_
  unfold execClockDrift at e
  obtain rfl := Host.Outcome.next.inj e
  repeat' first
    | with_reducible rfl
    | with_reducible apply view_ite
    | split
    | simp (disch := decide) only [↓clockDrift_view]

theorem execClockFault_view {m : Nat} (h : P.event ||| P.mod ||| P.hdrs ||| P.chs ||| P.points ||| P.axes ||| P.bedrock ||| P.pool ||| P.pair ||| P.panel ||| m = m) (a1) (s : State) {t} (e : execClockFault a1 s = .next t) : view m t = view m s := by
  refine view_mono h ?_
  unfold execClockFault at e
  obtain rfl := Host.Outcome.next.inj e
  repeat' first
    | with_reducible rfl
    | with_reducible apply view_ite
    | split
    | simp (disch := decide) only [↓clockFault_view]

theorem execClockLost_view {m : Nat} (h : P.event ||| P.mod ||| P.hdrs ||| P.chs ||| P.points ||| P.axes ||| P.bedrock ||| P.pool ||| P.pair ||| P.panel ||| m = m) (a1) (s : State) {t} (e : execClockLost a1 s = .next t) : view m t = view m s := by
  refine view_mono h ?_
  unfold execClockLost at e
  obtain rfl := Host.Outcome.next.inj e
  repeat' first
    | with_reducible rfl
    | with_reducible apply view_ite
    | split
    | simp (disch := decide) only [↓clockLost_view]

theorem execTemperatureRead_view {m : Nat} (h : P.event ||| P.mod ||| m = m) (a1) (s : State) {t} (e : execTemperatureRead a1 s = .next t) : view m t = view m s := by
  refine view_mono h ?_
  unfold execTemperatureRead at e
  obtain rfl := Host.Outcome.next.inj e
  repeat' first
    | with_reducible rfl
    | with_reducible apply view_ite
    | split
    | simp (disch := decide) only [↓temperatureRead_view]

theorem execHeaderMirror_view {m : Nat} (h : P.recd ||| m = m) (s : State) {t} (e : execHeaderMirror s = .next t) : view m t = view m s := by
  refine view_mono h ?_
  unfold execHeaderMirror at e
  obtain rfl := Host.Outcome.next.inj e
  repeat' first
    | with_reducible rfl
    | with_reducible apply view_ite
    | split
    | simp (disch := decide) only [↓mirrorHeader_view]

theorem execLogicBaseTick_view {m : Nat} (h : P.event ||| P.mod ||| P.pegRest ||| P.chs ||| P.points ||| P.logic ||| P.loops ||| P.axes ||| P.ckpt ||| m = m) (s : State) {t} (e : execLogicBaseTick s = .next t) : view m t = view m s := by
  refine view_mono h ?_
  unfold execLogicBaseTick at e
  obtain rfl := Host.Outcome.next.inj e
  repeat' first
    | with_reducible rfl
    | with_reducible apply view_ite
    | split
    | simp (disch := decide) only [↓baseTickAll_view]

theorem execBivouac_view {m : Nat} (h : P.event ||| P.mod ||| P.hdrs ||| P.img ||| P.sections ||| P.imgId ||| P.pegRest ||| P.otp ||| P.banks ||| P.chs ||| P.groups ||| P.points ||| P.tu ||| P.alarm ||| P.logic ||| P.div ||| P.divSel ||| P.trx ||| P.loops ||| P.axes ||| P.bedrock ||| P.pool ||| P.mmpRest ||| P.can ||| P.pair ||| P.panel ||| P.recRest ||| P.ckpt ||| P.pi ||| m = m) (a1) (s : State) {t} (e : execBivouac a1 s = .next t) : view m t = view m s := by
  refine view_mono h ?_
  unfold execBivouac at e
  obtain rfl := Host.Outcome.next.inj e
  repeat' first
    | with_reducible rfl
    | with_reducible apply view_ite
    | split
    | simp (disch := decide) only [↓bivouacMsg_view]
    | with_reducible refine onSized_view (by decide) _ _ _ _ _ (fun _ _ => ?_) _

theorem execBivouacRequest_view {m : Nat} (h : P.event ||| P.mod ||| P.pair ||| m = m) (a1) (s : State) {t} (e : execBivouacRequest a1 s = .next t) : view m t = view m s := by
  refine view_mono h ?_
  unfold execBivouacRequest at e
  obtain rfl := Host.Outcome.next.inj e
  repeat' first
    | with_reducible rfl
    | with_reducible apply view_ite
    | split
    | simp (disch := decide) only [↓bivRequest_view]

theorem execBivouacEntered_view {m : Nat} (h : P.event ||| P.mod ||| P.hdrs ||| P.img ||| P.sections ||| P.imgId ||| P.pegRest ||| P.otp ||| P.banks ||| P.chs ||| P.groups ||| P.points ||| P.tu ||| P.alarm ||| P.logic ||| P.div ||| P.divSel ||| P.trx ||| P.loops ||| P.axes ||| P.bedrock ||| P.pool ||| P.mmpRest ||| P.can ||| P.pair ||| P.panel ||| P.recRest ||| P.ckpt ||| P.pi ||| m = m) (s : State) {t} (e : execBivouacEntered s = .next t) : view m t = view m s := by
  refine view_mono h ?_
  unfold execBivouacEntered at e
  obtain rfl := Host.Outcome.next.inj e
  repeat' first
    | with_reducible rfl
    | with_reducible apply view_ite
    | split
    | simp (disch := decide) only [↓enterBivouac_view]

theorem execGuyLineBivouacRequest_view {m : Nat} (h : P.event ||| P.mod ||| P.hdrs ||| P.img ||| P.sections ||| P.imgId ||| P.pegRest ||| P.otp ||| P.banks ||| P.chs ||| P.groups ||| P.points ||| P.tu ||| P.alarm ||| P.logic ||| P.div ||| P.divSel ||| P.trx ||| P.loops ||| P.axes ||| P.bedrock ||| P.pool ||| P.mmpRest ||| P.can ||| P.pair ||| P.panel ||| P.recRest ||| P.ckpt ||| P.pi ||| m = m) (a1) (s : State) {t} (e : execGuyLineBivouacRequest a1 s = .next t) : view m t = view m s := by
  refine view_mono h ?_
  unfold execGuyLineBivouacRequest at e
  obtain rfl := Host.Outcome.next.inj e
  repeat' first
    | with_reducible rfl
    | with_reducible apply view_ite
    | split
    | simp (disch := decide) only [↓enterBivouac_view]

theorem execCanWake_view {m : Nat} (h : P.event ||| P.mod ||| P.hdrs ||| P.img ||| P.sections ||| P.imgId ||| P.pegRest ||| P.otp ||| P.banks ||| P.chs ||| P.groups ||| P.points ||| P.tu ||| P.alarm ||| P.logic ||| P.div ||| P.divSel ||| P.trx ||| P.loops ||| P.axes ||| P.bedrock ||| P.pool ||| P.mmpRest ||| P.can ||| P.pair ||| P.panel ||| P.recRest ||| P.ckpt ||| P.pi ||| m = m) (a1) (a2) (s : State) {t} (e : execCanWake a1 a2 s = .next t) : view m t = view m s := by
  refine view_mono h ?_
  unfold execCanWake at e
  obtain rfl := Host.Outcome.next.inj e
  repeat' first
    | with_reducible rfl
    | with_reducible apply view_ite
    | split
    | simp (disch := decide) only [↓canWake_view]

theorem execWakeInput_view {m : Nat} (h : P.event ||| P.mod ||| P.hdrs ||| P.img ||| P.sections ||| P.imgId ||| P.pegRest ||| P.otp ||| P.banks ||| P.chs ||| P.groups ||| P.points ||| P.tu ||| P.alarm ||| P.logic ||| P.div ||| P.divSel ||| P.trx ||| P.loops ||| P.axes ||| P.bedrock ||| P.pool ||| P.mmpRest ||| P.can ||| P.pair ||| P.panel ||| P.recRest ||| P.ckpt ||| P.pi ||| m = m) (a1) (a2) (s : State) {t} (e : execWakeInput a1 a2 s = .next t) : view m t = view m s := by
  refine view_mono h ?_
  unfold execWakeInput at e
  obtain rfl := Host.Outcome.next.inj e
  repeat' first
    | with_reducible rfl
    | with_reducible apply view_ite
    | split
    | simp (disch := decide) only [↓wakeInput_view]

theorem execSiltTimer_view {m : Nat} (h : P.event ||| P.mod ||| P.hdrs ||| P.img ||| P.sections ||| P.imgId ||| P.pegRest ||| P.otp ||| P.banks ||| P.chs ||| P.groups ||| P.points ||| P.tu ||| P.alarm ||| P.logic ||| P.div ||| P.divSel ||| P.trx ||| P.loops ||| P.axes ||| P.bedrock ||| P.pool ||| P.mmpRest ||| P.can ||| P.pair ||| P.panel ||| P.recRest ||| P.ckpt ||| P.pi ||| m = m) (s : State) {t} (e : execSiltTimer s = .next t) : view m t = view m s := by
  refine view_mono h ?_
  unfold execSiltTimer at e
  obtain rfl := Host.Outcome.next.inj e
  repeat' first
    | with_reducible rfl
    | with_reducible apply view_ite
    | split
    | simp (disch := decide) only [↓siltTimeout_view]

theorem execMmpWake_view {m : Nat} (h : P.event ||| P.mod ||| P.hdrs ||| P.img ||| P.sections ||| P.imgId ||| P.pegRest ||| P.otp ||| P.banks ||| P.chs ||| P.groups ||| P.points ||| P.tu ||| P.alarm ||| P.logic ||| P.div ||| P.divSel ||| P.trx ||| P.loops ||| P.axes ||| P.bedrock ||| P.pool ||| P.mmpRest ||| P.can ||| P.pair ||| P.panel ||| P.recRest ||| P.ckpt ||| P.pi ||| m = m) (a1) (s : State) {t} (e : execMmpWake a1 s = .next t) : view m t = view m s := by
  refine view_mono h ?_
  unfold execMmpWake at e
  obtain rfl := Host.Outcome.next.inj e
  repeat' first
    | with_reducible rfl
    | with_reducible apply view_ite
    | split
    | simp (disch := decide) only [↓mmpWake_view]

theorem execWakeLine_view {m : Nat} (h : P.event ||| P.mod ||| P.hdrs ||| P.img ||| P.sections ||| P.imgId ||| P.pegRest ||| P.otp ||| P.banks ||| P.chs ||| P.groups ||| P.points ||| P.tu ||| P.alarm ||| P.logic ||| P.div ||| P.divSel ||| P.trx ||| P.loops ||| P.axes ||| P.bedrock ||| P.pool ||| P.mmpRest ||| P.can ||| P.pair ||| P.panel ||| P.recRest ||| P.ckpt ||| P.pi ||| m = m) (s : State) {t} (e : execWakeLine s = .next t) : view m t = view m s := by
  refine view_mono h ?_
  unfold execWakeLine at e
  obtain rfl := Host.Outcome.next.inj e
  repeat' first
    | with_reducible rfl
    | with_reducible apply view_ite
    | split
    | simp (disch := decide) only [↓wakeBy_view]

end Sys2Proof.Laws
end

