-- ==== Sys2Proof/Laws/Frame/Pair.lean ====
section
/-! SUPPORT. Frame laws of Sys2Proof/Machine/Pair.lean: for each operation, the parts of the state outside which it
changes nothing. -/

namespace Sys2Proof.Laws

open Sys2Proof.Machine

@[simp ↓] theorem beginTakeover_view {m : Nat} (h : P.event ||| P.pair ||| m = m) (a1) (s : State) : view m (beginTakeover a1 s) = view m s := by
  refine view_mono h ?_
  unfold beginTakeover
  try dsimp only
  repeat' first
    | with_reducible rfl
    | with_reducible apply view_ite
    | split
    | simp (disch := decide) only [↓raiseN_view, ↓setPair_view]

@[simp ↓] theorem pairTakeover_view {m : Nat} (h : P.event ||| P.mod ||| P.hdrs ||| P.img ||| P.sections ||| P.imgId ||| P.pegRest ||| P.otp ||| P.banks ||| P.chs ||| P.groups ||| P.points ||| P.tu ||| P.alarm ||| P.logic ||| P.div ||| P.divSel ||| P.trx ||| P.loops ||| P.axes ||| P.bedrock ||| P.pool ||| P.mmpRest ||| P.can ||| P.pair ||| P.panel ||| P.recRest ||| P.ckpt ||| P.pi ||| m = m) (s : State) : view m (pairTakeover s) = view m s := by
  refine view_mono h ?_
  unfold pairTakeover
  try dsimp only
  repeat' first
    | with_reducible rfl
    | with_reducible apply view_ite
    | split
    | simp (disch := decide) only [↓setPair_view, ↓restartNow_view, ↓beginTakeover_view]

@[simp ↓] theorem takeoverBase_view {m : Nat} (h : P.recd ||| P.mod ||| P.points ||| P.tu ||| P.alarm ||| P.logic ||| P.loops ||| P.axes ||| P.bedrock ||| P.can ||| P.panel ||| P.pi ||| m = m) (s : State) : view m (takeoverBase s) = view m s := by
  refine view_mono h ?_
  unfold takeoverBase
  try dsimp only
  repeat' first
    | with_reducible rfl
    | with_reducible apply view_ite
    | split
    | simp (disch := decide) only [↓imageValues_view, ↓setAxis_view, ↓view_logic_pi, ↓view_points]
    | with_reducible refine (forRange_keeps (view _) (fun _ _ => ?_) _).trans ?_

@[simp ↓] theorem finishTakeover_view {m : Nat} (h : P.event ||| P.mod ||| P.hdrs ||| P.chs ||| P.points ||| P.tu ||| P.alarm ||| P.logic ||| P.loops ||| P.axes ||| P.bedrock ||| P.pool ||| P.can ||| P.pair ||| P.panel ||| P.recRest ||| P.ckpt ||| P.pi ||| m = m) (a1) (s : State) : view m (finishTakeover a1 s) = view m s := by
  refine view_mono h ?_
  unfold finishTakeover
  try dsimp only
  repeat' first
    | with_reducible rfl
    | with_reducible apply view_ite
    | split
    | simp (disch := decide) only [↓takeoverBase_view, ↓restoreForces_view, ↓restoreProcess_view, ↓raiseN_view, ↓setMod_view, ↓setPair_view, ↓runConfigured_view, ↓restoreBedrock_view, ↓raiseIf_view, ↓setCkpt_view, ↓driveAll_view, ↓redrawAll_view]

@[simp ↓] theorem takeoverRestore_view {m : Nat} (h : P.event ||| P.mod ||| P.hdrs ||| P.chs ||| P.points ||| P.tu ||| P.alarm ||| P.logic ||| P.loops ||| P.axes ||| P.bedrock ||| P.pool ||| P.can ||| P.pair ||| P.panel ||| P.recRest ||| P.ckpt ||| P.pi ||| m = m) (a1) (s : State) : view m (takeoverRestore a1 s) = view m s := by
  refine view_mono h ?_
  unfold takeoverRestore
  try dsimp only
  repeat' first
    | with_reducible rfl
    | with_reducible apply view_ite
    | split
    | simp (disch := decide) only [↓startRun_view, ↓setPair_view, ↓finishTakeover_view]

@[simp ↓] theorem waitEnds_view {m : Nat} (h : P.pair ||| m = m) (s : State) : view m (waitEnds s) = view m s := by
  refine view_mono h ?_
  unfold waitEnds
  try dsimp only
  repeat' first
    | with_reducible rfl
    | with_reducible apply view_ite
    | split
    | simp (disch := decide) only [↓setPair_view]

@[simp ↓] theorem pitchEnds_view {m : Nat} (h : P.event ||| P.mod ||| P.hdrs ||| P.chs ||| P.points ||| P.tu ||| P.alarm ||| P.logic ||| P.loops ||| P.axes ||| P.bedrock ||| P.pool ||| P.can ||| P.pair ||| P.panel ||| P.pi ||| m = m) (a1) (a2) (a3) (s : State) : view m (pitchEnds a1 a2 a3 s) = view m s := by
  refine view_mono h ?_
  unfold pitchEnds
  try dsimp only
  repeat' first
    | with_reducible rfl
    | with_reducible apply view_ite
    | split
    | simp (disch := decide) only [↓pitchEnd_view, ↓beginTakeover_view]

@[simp ↓] theorem grantHandover_view {m : Nat} (h : P.pair ||| m = m) (s : State) : view m (grantHandover s) = view m s := by
  refine view_mono h ?_
  unfold grantHandover
  try dsimp only
  repeat' first
    | with_reducible rfl
    | with_reducible apply view_ite
    | split
    | simp (disch := decide) only [↓setPair_view]

@[simp ↓] theorem handoverRequest_view {m : Nat} (h : P.pair ||| m = m) (s : State) : view m (handoverRequest s) = view m s := by
  refine view_mono h ?_
  unfold handoverRequest
  try dsimp only
  repeat' first
    | with_reducible rfl
    | with_reducible apply view_ite
    | split
    | simp (disch := decide) only [↓grantHandover_view]

@[simp ↓] theorem handoverIdle_view {m : Nat} (h : P.pair ||| P.ckpt ||| m = m) (s : State) : view m (handoverIdle s) = view m s := by
  refine view_mono h ?_
  unfold handoverIdle
  try dsimp only
  repeat' first
    | with_reducible rfl
    | with_reducible apply view_ite
    | split
    | simp (disch := decide) only [↓beginCkpt_view, ↓setPair_view]

@[simp ↓] theorem sendHeartbeat_view {m : Nat} (h : P.mod ||| P.pair ||| m = m) (s : State) : view m (sendHeartbeat s) = view m s := by
  refine view_mono h ?_
  unfold sendHeartbeat
  try dsimp only
  repeat' first
    | with_reducible rfl
    | with_reducible apply view_ite
    | split
    | simp (disch := decide) only [↓setPair_view, ↓setMod_view]

@[simp ↓] theorem leaveControl_view {m : Nat} (h : P.event ||| P.mod ||| P.hdrs ||| P.chs ||| P.points ||| P.logic ||| P.loops ||| P.axes ||| P.bedrock ||| P.pool ||| P.can ||| P.pair ||| m = m) (s : State) : view m (leaveControl s) = view m s := by
  refine view_mono h ?_
  unfold leaveControl
  try dsimp only
  repeat' first
    | with_reducible rfl
    | with_reducible apply view_ite
    | split
    | simp (disch := decide) only [↓outputsOff_view, ↓setPair_view, ↓enterStandby_view, ↓view_mod_logic]
    | with_reducible refine (forAll_keeps (view _) (fun _ _ => ?_) _).trans ?_

@[simp ↓] theorem handoverDone_view {m : Nat} (h : P.event ||| P.mod ||| P.hdrs ||| P.chs ||| P.points ||| P.logic ||| P.loops ||| P.axes ||| P.bedrock ||| P.pool ||| P.can ||| P.pair ||| P.ckpt ||| m = m) (s : State) : view m (handoverDone s) = view m s := by
  refine view_mono h ?_
  unfold handoverDone
  try dsimp only
  repeat' first
    | with_reducible rfl
    | with_reducible apply view_ite
    | split
    | simp (disch := decide) only [↓ckptWritten_view, ↓leaveControl_view, ↓sendHeartbeat_view, ↓setPair_view]

@[simp ↓] theorem holdoffEnd_view {m : Nat} (h : P.pair ||| m = m) (s : State) : view m (holdoffEnd s) = view m s := by
  refine view_mono h ?_
  unfold holdoffEnd
  try dsimp only
  repeat' first
    | with_reducible rfl
    | with_reducible apply view_ite
    | split
    | simp (disch := decide) only [↓setPair_view]

@[simp ↓] theorem heartbeatSend_view {m : Nat} (h : P.mod ||| P.pair ||| m = m) (s : State) : view m (heartbeatSend s) = view m s := by
  refine view_mono h ?_
  unfold heartbeatSend
  try dsimp only
  repeat' first
    | with_reducible rfl
    | with_reducible apply view_ite
    | split
    | simp (disch := decide) only [↓waitEnds_view, ↓grantHandover_view, ↓sendHeartbeat_view]

@[simp ↓] theorem heartbeatNotes_view {m : Nat} (h : P.pair ||| P.ckpt ||| m = m) (a1) (s : State) : view m (heartbeatNotes a1 s) = view m s := by
  refine view_mono h ?_
  unfold heartbeatNotes
  try dsimp only
  repeat' first
    | with_reducible rfl
    | with_reducible apply view_ite
    | split
    | simp (disch := decide) only [↓setCkpt_view, ↓setPair_view]

@[simp ↓] theorem heartbeatIn_view {m : Nat} (h : P.event ||| P.mod ||| P.hdrs ||| P.img ||| P.sections ||| P.imgId ||| P.pegRest ||| P.otp ||| P.banks ||| P.chs ||| P.groups ||| P.points ||| P.tu ||| P.alarm ||| P.logic ||| P.div ||| P.divSel ||| P.trx ||| P.loops ||| P.axes ||| P.bedrock ||| P.pool ||| P.mmpRest ||| P.can ||| P.pair ||| P.panel ||| P.recRest ||| P.ckpt ||| P.pi ||| m = m) (a1) (a2) (s : State) : view m (heartbeatIn a1 a2 s) = view m s := by
  refine view_mono h ?_
  unfold heartbeatIn
  try dsimp only
  repeat' first
    | with_reducible rfl
    | with_reducible apply view_ite
    | split
    | simp (disch := decide) only [↓setPair_view, ↓heartbeatNotes_view, ↓raiseIf_view, ↓decidePref_view, ↓restartNow_view, ↓waitEnds_view, ↓holdoffNote_view]

@[simp ↓] theorem guyLost_view {m : Nat} (h : P.event ||| P.pair ||| m = m) (s : State) : view m (guyLost s) = view m s := by
  refine view_mono h ?_
  unfold guyLost
  try dsimp only
  repeat' first
    | with_reducible rfl
    | with_reducible apply view_ite
    | split
    | simp (disch := decide) only [↓raiseN_view, ↓setPair_view]

@[simp ↓] theorem claimDrop_view {m : Nat} (h : P.chs ||| P.points ||| P.bedrock ||| P.pair ||| m = m) (s : State) : view m (claimDrop s) = view m s := by
  refine view_mono h ?_
  unfold claimDrop
  try dsimp only
  repeat' first
    | with_reducible rfl
    | with_reducible apply view_ite
    | split
    | simp (disch := decide) only [↓outputsOff_view, ↓setPair_view]

@[simp ↓] theorem prefStraps_view {m : Nat} (h : P.event ||| P.pair ||| m = m) (a1) (s : State) : view m (prefStraps a1 s) = view m s := by
  refine view_mono h ?_
  unfold prefStraps
  try dsimp only
  repeat' first
    | with_reducible rfl
    | with_reducible apply view_ite
    | split
    | simp (disch := decide) only [↓prefConflict_view, ↓setPair_view]

@[simp ↓] theorem standbyCheck_view {m : Nat} (h : P.event ||| P.pair ||| P.ckpt ||| m = m) (a1) (a2) (a3) (a4) (a5) (s : State) : view m (standbyCheck a1 a2 a3 a4 a5 s) = view m s := by
  refine view_mono h ?_
  unfold standbyCheck
  try dsimp only
  repeat' first
    | with_reducible rfl
    | with_reducible apply view_ite
    | split
    | simp (disch := decide) only [↓setCkpt_view, ↓setPair_view, ↓raiseN_view]

@[simp ↓] theorem moduleRestart_view {m : Nat} (h : P.event ||| P.mod ||| P.hdrs ||| P.img ||| P.sections ||| P.imgId ||| P.pegRest ||| P.otp ||| P.banks ||| P.chs ||| P.groups ||| P.points ||| P.tu ||| P.alarm ||| P.logic ||| P.div ||| P.divSel ||| P.trx ||| P.loops ||| P.axes ||| P.bedrock ||| P.pool ||| P.mmpRest ||| P.can ||| P.pair ||| P.panel ||| P.recRest ||| P.ckpt ||| P.pi ||| m = m) (a1) (s : State) : view m (moduleRestart a1 s) = view m s := by
  refine view_mono h ?_
  unfold moduleRestart
  try dsimp only
  repeat' first
    | with_reducible rfl
    | with_reducible apply view_ite
    | split
    | simp (disch := decide) only [↓answer_view, ↓raise_view, ↓grantHandover_view, ↓setMod_view, ↓restartNow_view]

theorem execPitchEnd_view {m : Nat} (h : P.event ||| P.mod ||| P.hdrs ||| P.chs ||| P.points ||| P.tu ||| P.alarm ||| P.logic ||| P.loops ||| P.axes ||| P.bedrock ||| P.pool ||| P.can ||| P.pair ||| P.panel ||| P.pi ||| m = m) (a1) (a2) (a3) (s : State) {t} (e : execPitchEnd a1 a2 a3 s = .next t) : view m t = view m s := by
  refine view_mono h ?_
  unfold execPitchEnd at e
  obtain rfl := Host.Outcome.next.inj e
  repeat' first
    | with_reducible rfl
    | with_reducible apply view_ite
    | split
    | simp (disch := decide) only [↓pitchEnds_view]

theorem execModuleRestart_view {m : Nat} (h : P.event ||| P.mod ||| P.hdrs ||| P.img ||| P.sections ||| P.imgId ||| P.pegRest ||| P.otp ||| P.banks ||| P.chs ||| P.groups ||| P.points ||| P.tu ||| P.alarm ||| P.logic ||| P.div ||| P.divSel ||| P.trx ||| P.loops ||| P.axes ||| P.bedrock ||| P.pool ||| P.mmpRest ||| P.can ||| P.pair ||| P.panel ||| P.recRest ||| P.ckpt ||| P.pi ||| m = m) (a1) (s : State) {t} (e : execModuleRestart a1 s = .next t) : view m t = view m s := by
  refine view_mono h ?_
  unfold execModuleRestart at e
  obtain rfl := Host.Outcome.next.inj e
  repeat' first
    | with_reducible rfl
    | with_reducible apply view_ite
    | split
    | simp (disch := decide) only [↓moduleRestart_view]
    | with_reducible refine onSized_view (by decide) _ _ _ _ _ (fun _ _ => ?_) _

theorem execHeartbeatSend_view {m : Nat} (h : P.mod ||| P.pair ||| m = m) (s : State) {t} (e : execHeartbeatSend s = .next t) : view m t = view m s := by
  refine view_mono h ?_
  unfold execHeartbeatSend at e
  obtain rfl := Host.Outcome.next.inj e
  repeat' first
    | with_reducible rfl
    | with_reducible apply view_ite
    | split
    | simp (disch := decide) only [↓heartbeatSend_view]

theorem execHeartbeat_view {m : Nat} (h : P.event ||| P.mod ||| P.hdrs ||| P.img ||| P.sections ||| P.imgId ||| P.pegRest ||| P.otp ||| P.banks ||| P.chs ||| P.groups ||| P.points ||| P.tu ||| P.alarm ||| P.logic ||| P.div ||| P.divSel ||| P.trx ||| P.loops ||| P.axes ||| P.bedrock ||| P.pool ||| P.mmpRest ||| P.can ||| P.pair ||| P.panel ||| P.recRest ||| P.ckpt ||| P.pi ||| m = m) (a1) (a2) (s : State) {t} (e : execHeartbeat a1 a2 s = .next t) : view m t = view m s := by
  refine view_mono h ?_
  unfold execHeartbeat at e
  obtain rfl := Host.Outcome.next.inj e
  repeat' first
    | with_reducible rfl
    | with_reducible apply view_ite
    | split
    | simp (disch := decide) only [↓heartbeatIn_view]

theorem execPairGuyLost_view {m : Nat} (h : P.event ||| P.pair ||| m = m) (s : State) {t} (e : execPairGuyLost s = .next t) : view m t = view m s := by
  refine view_mono h ?_
  unfold execPairGuyLost at e
  obtain rfl := Host.Outcome.next.inj e
  repeat' first
    | with_reducible rfl
    | with_reducible apply view_ite
    | split
    | simp (disch := decide) only [↓guyLost_view]

theorem execClaimDrop_view {m : Nat} (h : P.chs ||| P.points ||| P.bedrock ||| P.pair ||| m = m) (s : State) {t} (e : execClaimDrop s = .next t) : view m t = view m s := by
  refine view_mono h ?_
  unfold execClaimDrop at e
  obtain rfl := Host.Outcome.next.inj e
  repeat' first
    | with_reducible rfl
    | with_reducible apply view_ite
    | split
    | simp (disch := decide) only [↓claimDrop_view]

theorem execPairTakeover_view {m : Nat} (h : P.event ||| P.mod ||| P.hdrs ||| P.img ||| P.sections ||| P.imgId ||| P.pegRest ||| P.otp ||| P.banks ||| P.chs ||| P.groups ||| P.points ||| P.tu ||| P.alarm ||| P.logic ||| P.div ||| P.divSel ||| P.trx ||| P.loops ||| P.axes ||| P.bedrock ||| P.pool ||| P.mmpRest ||| P.can ||| P.pair ||| P.panel ||| P.recRest ||| P.ckpt ||| P.pi ||| m = m) (s : State) {t} (e : execPairTakeover s = .next t) : view m t = view m s := by
  refine view_mono h ?_
  unfold execPairTakeover at e
  obtain rfl := Host.Outcome.next.inj e
  repeat' first
    | with_reducible rfl
    | with_reducible apply view_ite
    | split
    | simp (disch := decide) only [↓pairTakeover_view]

theorem execTakeoverRestore_view {m : Nat} (h : P.event ||| P.mod ||| P.hdrs ||| P.chs ||| P.points ||| P.tu ||| P.alarm ||| P.logic ||| P.loops ||| P.axes ||| P.bedrock ||| P.pool ||| P.can ||| P.pair ||| P.panel ||| P.recRest ||| P.ckpt ||| P.pi ||| m = m) (a1) (s : State) {t} (e : execTakeoverRestore a1 s = .next t) : view m t = view m s := by
  refine view_mono h ?_
  unfold execTakeoverRestore at e
  obtain rfl := Host.Outcome.next.inj e
  repeat' first
    | with_reducible rfl
    | with_reducible apply view_ite
    | split
    | simp (disch := decide) only [↓takeoverRestore_view]

theorem execHoldoffEnd_view {m : Nat} (h : P.pair ||| m = m) (s : State) {t} (e : execHoldoffEnd s = .next t) : view m t = view m s := by
  refine view_mono h ?_
  unfold execHoldoffEnd at e
  obtain rfl := Host.Outcome.next.inj e
  repeat' first
    | with_reducible rfl
    | with_reducible apply view_ite
    | split
    | simp (disch := decide) only [↓holdoffEnd_view]

theorem execHandoverRequest_view {m : Nat} (h : P.pair ||| m = m) (s : State) {t} (e : execHandoverRequest s = .next t) : view m t = view m s := by
  refine view_mono h ?_
  unfold execHandoverRequest at e
  obtain rfl := Host.Outcome.next.inj e
  repeat' first
    | with_reducible rfl
    | with_reducible apply view_ite
    | split
    | simp (disch := decide) only [↓handoverRequest_view]

theorem execHandoverIdle_view {m : Nat} (h : P.pair ||| P.ckpt ||| m = m) (s : State) {t} (e : execHandoverIdle s = .next t) : view m t = view m s := by
  refine view_mono h ?_
  unfold execHandoverIdle at e
  obtain rfl := Host.Outcome.next.inj e
  repeat' first
    | with_reducible rfl
    | with_reducible apply view_ite
    | split
    | simp (disch := decide) only [↓handoverIdle_view]

theorem execHandoverCheckpoint_view {m : Nat} (h : P.event ||| P.mod ||| P.hdrs ||| P.chs ||| P.points ||| P.logic ||| P.loops ||| P.axes ||| P.bedrock ||| P.pool ||| P.can ||| P.pair ||| P.ckpt ||| m = m) (s : State) {t} (e : execHandoverCheckpoint s = .next t) : view m t = view m s := by
  refine view_mono h ?_
  unfold execHandoverCheckpoint at e
  obtain rfl := Host.Outcome.next.inj e
  repeat' first
    | with_reducible rfl
    | with_reducible apply view_ite
    | split
    | simp (disch := decide) only [↓handoverDone_view]

theorem execStandbyCkptCheck_view {m : Nat} (h : P.event ||| P.pair ||| P.ckpt ||| m = m) (a1) (a2) (a3) (a4) (a5) (s : State) {t} (e : execStandbyCkptCheck a1 a2 a3 a4 a5 s = .next t) : view m t = view m s := by
  refine view_mono h ?_
  unfold execStandbyCkptCheck at e
  obtain rfl := Host.Outcome.next.inj e
  repeat' first
    | with_reducible rfl
    | with_reducible apply view_ite
    | split
    | simp (disch := decide) only [↓standbyCheck_view]

theorem execPrefStrapSense_view {m : Nat} (h : P.event ||| P.pair ||| m = m) (a1) (s : State) {t} (e : execPrefStrapSense a1 s = .next t) : view m t = view m s := by
  refine view_mono h ?_
  unfold execPrefStrapSense at e
  obtain rfl := Host.Outcome.next.inj e
  repeat' first
    | with_reducible rfl
    | with_reducible apply view_ite
    | split
    | simp (disch := decide) only [↓prefStraps_view]

end Sys2Proof.Laws
end

