-- ==== Sys2Proof/Laws/Frame/Objects.lean ====
section
/-! SUPPORT. Frame laws of Sys2Proof/Machine/Objects.lean: for each operation, the parts of the state outside which it
changes nothing. -/

namespace Sys2Proof.Laws

open Sys2Proof.Machine

@[simp ↓] theorem readWord_view {m : Nat} (h : P.tu ||| P.freeCount ||| m = m) (a1) (a2) (a3) (s : State) : view m (readWord a1 a2 a3 s).2 = view m s := by
  refine view_mono h ?_
  unfold readWord
  try dsimp only
  repeat' first
    | with_reducible rfl
    | with_reducible apply view_ite
    | split
    | simp (disch := decide) only [↓takeFree_view, ↓latchTime_view]
    | (refine (congrArg (fun p => view _ p.2) ‹takeFree _ = _›).symm.trans ((takeFree_view ?_ _).trans ?_); decide)

@[simp ↓] theorem readWords_view {m : Nat} (h : P.tu ||| P.freeCount ||| m = m) (l : List (Nat × Nat × Nat)) (acc : List W32)
    (s : State) : view m (readWords l acc s).2.2 = view m s := by
  refine view_mono h ?_
  induction l generalizing acc s with
  | nil => rfl
  | cons p r ih =>
    unfold readWords
    split
    · exact (ih _ _).trans (readWord_view (by decide) _ _ _ _)
    · rfl

@[simp ↓] theorem wrote_view {m : Nat} (h : 0 ||| m = m) (s : State) : view m (wrote s).2.2 = view m s := by
  refine view_mono h ?_
  unfold wrote
  try dsimp only
  repeat' first
    | with_reducible rfl
    | with_reducible apply view_ite
    | split

@[simp ↓] theorem denied_view {m : Nat} (h : 0 ||| m = m) (a1) (s : State) : view m (denied a1 s).2.2 = view m s := by
  refine view_mono h ?_
  unfold denied
  try dsimp only
  repeat' first
    | with_reducible rfl
    | with_reducible apply view_ite
    | split

@[simp ↓] theorem byCode_view {m : Nat} (h : 0 ||| m = m) (a1) (s : State) : view m (byCode a1 s).2.2 = view m s := by
  refine view_mono h ?_
  unfold byCode
  try dsimp only
  repeat' first
    | with_reducible rfl
    | with_reducible apply view_ite
    | split

theorem taken_view {m : Nat} {v : Option State} (s : State) (hv : ∀ t, v = some t → view m t = view m s) :
    view m (taken v s).2.2 = view m s := by
  unfold taken
  split
  · exact hv _ rfl
  · rfl

theorem needs_view {m : Nat} {least r : Role} (s : State) (k : WriteRes) (hk : view m k.2.2 = view m s) :
    view m (needs least r s k).2.2 = view m s := by
  unfold needs
  split
  · exact hk
  · rfl

@[simp ↓] theorem headerWrite_view {m : Nat} (h : P.event ||| P.mod ||| P.hdrs ||| P.img ||| P.sections ||| P.imgId ||| P.pegRest ||| P.otp ||| P.banks ||| P.chs ||| P.groups ||| P.points ||| P.tu ||| P.alarm ||| P.logic ||| P.div ||| P.divSel ||| P.trx ||| P.loops ||| P.axes ||| P.bedrock ||| P.pool ||| P.mmpRest ||| P.can ||| P.pair ||| P.panel ||| P.recRest ||| P.ckpt ||| P.pi ||| m = m) (a1) (a2) (a3) (a4) (s : State) : view m (headerWrite a1 a2 a3 a4 s).2.2 = view m s := by
  refine view_mono h ?_
  unfold headerWrite
  try dsimp only
  repeat' first
    | with_reducible rfl
    | with_reducible apply view_ite
    | split
    | simp (disch := decide) only [↓fnCtrl_view, ↓wrote_view, ↓setHdr_view, ↓denied_view]
    | (refine (congrArg (fun p => view _ p.2) ‹fnCtrl _ _ _ _ = _›).symm.trans ((fnCtrl_view ?_ _ _ _ _).trans ?_); decide)
    | (refine (congrArg (fun p => view _ p.2.2) ‹wrote _ = _›).symm.trans ((wrote_view ?_ _).trans ?_); decide)
    | (refine (congrArg (fun p => view _ p.2.2) ‹denied _ _ = _›).symm.trans ((denied_view ?_ _ _).trans ?_); decide)
    | with_reducible refine needs_view _ _ ?_

@[simp ↓] theorem shadowWrite_view {m : Nat} (h : P.fns ||| m = m) (a1) (a2) (a3) (s : State) : view m (shadowWrite a1 a2 a3 s).2.2 = view m s := by
  refine view_mono h ?_
  unfold shadowWrite
  try dsimp only
  repeat' first
    | with_reducible rfl
    | with_reducible apply view_ite
    | split
    | simp (disch := decide) only [↓wrote_view, ↓setHdr_view, ↓denied_view]
    | (refine (congrArg (fun p => view _ p.2.2) ‹wrote _ = _›).symm.trans ((wrote_view ?_ _).trans ?_); decide)
    | (refine (congrArg (fun p => view _ p.2.2) ‹denied _ _ = _›).symm.trans ((denied_view ?_ _ _).trans ?_); decide)

@[simp ↓] theorem moduleWrite_view {m : Nat} (h : P.event ||| P.mod ||| P.otp ||| P.banks ||| P.divSel ||| m = m) (a1) (a2) (a3) (a4) (s : State) : view m (moduleWrite a1 a2 a3 a4 s).2.2 = view m s := by
  refine view_mono h ?_
  unfold moduleWrite
  try dsimp only
  repeat' first
    | with_reducible rfl
    | with_reducible apply view_ite
    | split
    | simp (disch := decide) only [↓wrote_view, ↓setOtp_view, ↓otpCommand_view, ↓byCode_view, ↓denied_view, ↓setMod_view, ↓view_divSel]
    | (refine (congrArg (fun p => view _ p.2.2) ‹wrote _ = _›).symm.trans ((wrote_view ?_ _).trans ?_); decide)
    | (refine (congrArg (fun p => view _ p.2) ‹otpCommand _ _ _ = _›).symm.trans ((otpCommand_view ?_ _ _ _).trans ?_); decide)
    | (refine (congrArg (fun p => view _ p.2.2) ‹byCode _ _ = _›).symm.trans ((byCode_view ?_ _ _).trans ?_); decide)
    | (refine (congrArg (fun p => view _ p.2.2) ‹denied _ _ = _›).symm.trans ((denied_view ?_ _ _).trans ?_); decide)
    | with_reducible refine needs_view _ _ ?_

/-- The state of a write's answer under a condition. -/
theorem view_ite_res {m : Nat} {c : Prop} [Decidable c] {a b : WriteRes} {v : View} (ha : view m a.2.2 = v)
    (hb : view m b.2.2 = v) : view m (if c then a else b).2.2 = v := by
  split
  · exact ha
  · exact hb

@[simp ↓] theorem loopWrite_view {m : Nat} (h : P.event ||| P.loops ||| m = m) (blk off : Nat) (v : W32) (r : Role) (s : State) :
    view m (loopWrite blk off v r s).2.2 = view m s := by
  refine view_mono h ?_
  unfold loopWrite byCode wrote denied
  dsimp only
  repeat' first
    | with_reducible rfl
    | with_reducible refine needs_view _ _ ?_
    | with_reducible refine view_ite_res ?_ ?_
    | simp (disch := decide) only [↓lpTarget_view, ↓lpManv_view, ↓lpModeReq_view, ↓loopSwap_view, ↓loopRestart_view,
        ↓bankEdit_view, ↓testStart_view, ↓testStop_view, ↓setTest_view]

@[simp ↓] theorem almWrite_view {m : Nat} (h : P.event ||| P.alarm ||| m = m) (a1) (a2) (a3) (a4) (s : State) : view m (almWrite a1 a2 a3 a4 s).2.2 = view m s := by
  refine view_mono h ?_
  unfold almWrite
  try dsimp only
  repeat' first
    | with_reducible rfl
    | with_reducible apply view_ite
    | split
    | simp (disch := decide) only [↓wrote_view, ↓setAlm_view, ↓byCode_view, ↓denied_view, ↓dutyWrite_view]
    | exact shelveWrite_view (by decide) _ _ _ ‹shelveWrite _ _ _ = _›
    | exact umsWrite_view (by decide) _ _ _ ‹umsWrite _ _ _ = _›
    | exact oosWrite_view (by decide) _ _ _ ‹oosWrite _ _ _ = _›
    | (refine (congrArg (fun p => view _ p.2.2) ‹wrote _ = _›).symm.trans ((wrote_view ?_ _).trans ?_); decide)
    | (refine (congrArg (fun p => view _ p.2.2) ‹byCode _ _ = _›).symm.trans ((byCode_view ?_ _ _).trans ?_); decide)
    | (refine (congrArg (fun p => view _ p.2.2) ‹denied _ _ = _›).symm.trans ((denied_view ?_ _ _).trans ?_); decide)
    | with_reducible refine needs_view _ _ ?_
    | with_reducible refine taken_view _ (fun _ e => ?_)

@[simp ↓] theorem timeWrite_view {m : Nat} (h : P.event ||| P.tu ||| m = m) (a1) (a2) (a3) (a4) (s : State) : view m (timeWrite a1 a2 a3 a4 s).2.2 = view m s := by
  refine view_mono h ?_
  unfold timeWrite
  try dsimp only
  repeat' first
    | with_reducible rfl
    | with_reducible apply view_ite
    | split
    | simp (disch := decide) only [↓wrote_view, ↓setUnit_view, ↓denied_view, ↓matchArm_view, ↓setTu_view]
    | (refine (congrArg (fun p => view _ p.2.2) ‹wrote _ = _›).symm.trans ((wrote_view ?_ _).trans ?_); decide)
    | (refine (congrArg (fun p => view _ p.2.2) ‹denied _ _ = _›).symm.trans ((denied_view ?_ _ _).trans ?_); decide)
    | with_reducible refine needs_view _ _ ?_

@[simp ↓] theorem bankWrite_view {m : Nat} (h : P.event ||| P.otp ||| P.banks ||| P.chs ||| P.points ||| P.axes ||| m = m) (a1) (a2) (a3) (a4) (a5) (s : State) : view m (bankWrite a1 a2 a3 a4 a5 s).2.2 = view m s := by
  refine view_mono h ?_
  unfold bankWrite
  try dsimp only
  repeat' first
    | with_reducible rfl
    | with_reducible apply view_ite
    | split
    | simp (disch := decide) only [↓byCode_view, ↓denied_view, ↓wrote_view, ↓chClear_view, ↓setTrim_view, ↓trimStart_view, ↓trimAccept_view, ↓trimWriteCmd_view, ↓trimAbortCmd_view, ↓setBank_view, ↓slotSubmit_view]
    | (refine (congrArg (fun p => view _ p.2.2) ‹byCode _ _ = _›).symm.trans ((byCode_view ?_ _ _).trans ?_); decide)
    | (refine (congrArg (fun p => view _ p.2.2) ‹denied _ _ = _›).symm.trans ((denied_view ?_ _ _).trans ?_); decide)
    | (refine (congrArg (fun p => view _ p.2.2) ‹wrote _ = _›).symm.trans ((wrote_view ?_ _).trans ?_); decide)
    | with_reducible refine needs_view _ _ ?_

@[simp ↓] theorem canWrite_view {m : Nat} (h : P.event ||| P.can ||| m = m) (a1) (a2) (a3) (a4) (a5) (s : State) : view m (canWrite a1 a2 a3 a4 a5 s).2.2 = view m s := by
  refine view_mono h ?_
  unfold canWrite
  try dsimp only
  repeat' first
    | with_reducible rfl
    | with_reducible apply view_ite
    | split
    | simp (disch := decide) only [↓wrote_view, ↓pairLoad_view, ↓denied_view, ↓pairStage_view, ↓canTestWrite_view]
    | exact wakeWrite_view (by decide) _ _ _ _ ‹wakeWrite _ _ _ _ = _›
    | (refine (congrArg (fun p => view _ p.2.2) ‹wrote _ = _›).symm.trans ((wrote_view ?_ _).trans ?_); decide)
    | (refine (congrArg (fun p => view _ p.2.2) ‹denied _ _ = _›).symm.trans ((denied_view ?_ _ _).trans ?_); decide)
    | with_reducible refine needs_view _ _ ?_
    | with_reducible refine taken_view _ (fun _ e => ?_)

@[simp ↓] theorem bodyWrite_view {m : Nat} (h : P.event ||| P.mod ||| P.otp ||| P.banks ||| P.chs ||| P.points ||| P.tu ||| P.alarm ||| P.logic ||| P.divSel ||| P.loops ||| P.axes ||| P.can ||| P.panel ||| P.recRest ||| m = m) (a1) (a2) (a3) (a4) (a5) (s : State) : view m (bodyWrite a1 a2 a3 a4 a5 s).2.2 = view m s := by
  refine view_mono h ?_
  unfold bodyWrite
  try dsimp only
  repeat' first
    | with_reducible rfl
    | with_reducible apply view_ite
    | split
    | simp (disch := decide) only [↓moduleWrite_view, ↓denied_view, ↓taskRestart_view, ↓byCode_view, ↓loopWrite_view, ↓almWrite_view, ↓timeWrite_view, ↓recClear_view, ↓bankWrite_view, ↓wrote_view, ↓dgClear_view, ↓axMmpWrite_view, ↓canWrite_view]
    | exact recRepeatWrite_view (by decide) _ _ ‹recRepeatWrite _ _ = _›
    | exact brightWrite_view (by decide) _ _ ‹brightWrite _ _ = _›
    | exact pageWrite_view (by decide) _ _ ‹pageWrite _ _ = _›
    | (refine (congrArg (fun p => view _ p.2.2) ‹moduleWrite _ _ _ _ _ = _›).symm.trans ((moduleWrite_view ?_ _ _ _ _ _).trans ?_); decide)
    | (refine (congrArg (fun p => view _ p.2.2) ‹denied _ _ = _›).symm.trans ((denied_view ?_ _ _).trans ?_); decide)
    | (refine (congrArg (fun p => view _ p.2.2) ‹byCode _ _ = _›).symm.trans ((byCode_view ?_ _ _).trans ?_); decide)
    | (refine (congrArg (fun p => view _ p.2.2) ‹loopWrite _ _ _ _ _ = _›).symm.trans ((loopWrite_view ?_ _ _ _ _ _).trans ?_); decide)
    | (refine (congrArg (fun p => view _ p.2.2) ‹almWrite _ _ _ _ _ = _›).symm.trans ((almWrite_view ?_ _ _ _ _ _).trans ?_); decide)
    | (refine (congrArg (fun p => view _ p.2.2) ‹timeWrite _ _ _ _ _ = _›).symm.trans ((timeWrite_view ?_ _ _ _ _ _).trans ?_); decide)
    | (refine (congrArg (fun p => view _ p.2) ‹recClear _ _ _ = _›).symm.trans ((recClear_view ?_ _ _ _).trans ?_); decide)
    | (refine (congrArg (fun p => view _ p.2.2) ‹bankWrite _ _ _ _ _ _ = _›).symm.trans ((bankWrite_view ?_ _ _ _ _ _ _).trans ?_); decide)
    | (refine (congrArg (fun p => view _ p.2.2) ‹wrote _ = _›).symm.trans ((wrote_view ?_ _).trans ?_); decide)
    | (refine (congrArg (fun p => view _ p.2.2) ‹canWrite _ _ _ _ _ _ = _›).symm.trans ((canWrite_view ?_ _ _ _ _ _ _).trans ?_); decide)
    | with_reducible refine needs_view _ _ ?_
    | with_reducible refine taken_view _ (fun _ e => ?_)

@[simp ↓] theorem writeWord_view {m : Nat} (h : P.event ||| P.mod ||| P.hdrs ||| P.img ||| P.sections ||| P.imgId ||| P.pegRest ||| P.otp ||| P.banks ||| P.chs ||| P.groups ||| P.points ||| P.tu ||| P.alarm ||| P.logic ||| P.div ||| P.divSel ||| P.trx ||| P.loops ||| P.axes ||| P.bedrock ||| P.pool ||| P.mmpRest ||| P.can ||| P.pair ||| P.panel ||| P.recRest ||| P.ckpt ||| P.pi ||| m = m) (a1) (a2) (a3) (s : State) : view m (writeWord a1 a2 a3 s).2.2 = view m s := by
  refine view_mono h ?_
  unfold writeWord
  try dsimp only
  repeat' first
    | with_reducible rfl
    | with_reducible apply view_ite
    | split
    | simp (disch := decide) only [↓headerWrite_view, ↓shadowWrite_view, ↓bodyWrite_view, ↓denied_view]
    | (refine (congrArg (fun p => view _ p.2.2) ‹headerWrite _ _ _ _ _ = _›).symm.trans ((headerWrite_view ?_ _ _ _ _ _).trans ?_); decide)
    | (refine (congrArg (fun p => view _ p.2.2) ‹shadowWrite _ _ _ _ = _›).symm.trans ((shadowWrite_view ?_ _ _ _ _).trans ?_); decide)
    | (refine (congrArg (fun p => view _ p.2.2) ‹bodyWrite _ _ _ _ _ _ = _›).symm.trans ((bodyWrite_view ?_ _ _ _ _ _ _).trans ?_); decide)
    | (refine (congrArg (fun p => view _ p.2.2) ‹denied _ _ = _›).symm.trans ((denied_view ?_ _ _).trans ?_); decide)

@[simp ↓] theorem writeWords_view {m : Nat} (h : P.event ||| P.mod ||| P.hdrs ||| P.img ||| P.sections ||| P.imgId ||| P.pegRest ||| P.otp ||| P.banks ||| P.chs ||| P.groups ||| P.points ||| P.tu ||| P.alarm ||| P.logic ||| P.div ||| P.divSel ||| P.trx ||| P.loops ||| P.axes ||| P.bedrock ||| P.pool ||| P.mmpRest ||| P.can ||| P.pair ||| P.panel ||| P.recRest ||| P.ckpt ||| P.pi ||| m = m) (src : Nat) (r : Role) (l : List (Nat × W32))
    (i : Nat) (s : State) : view m (writeWords src r l i s).2.2.2 = view m s := by
  refine view_mono h ?_
  induction l generalizing i s with
  | nil => rfl
  | cons p l ih =>
    have hw := writeWord_view (m := P.event ||| P.mod ||| P.hdrs ||| P.img ||| P.sections ||| P.imgId ||| P.pegRest ||| P.otp ||| P.banks ||| P.chs ||| P.groups ||| P.points ||| P.tu ||| P.alarm ||| P.logic ||| P.div ||| P.divSel ||| P.trx ||| P.loops ||| P.axes ||| P.bedrock ||| P.pool ||| P.mmpRest ||| P.can ||| P.pair ||| P.panel ||| P.recRest ||| P.ckpt ||| P.pi) (by decide) p.1 p.2 r s
    unfold writeWords
    split
    · rename_i e
      rw [e] at hw
      refine (ih _ _).trans (view_ite ((raise_view (by decide) _ _ _ _ _).trans hw) hw)
    · rename_i e
      rw [e] at hw
      exact hw

end Sys2Proof.Laws
end

