-- ==== Sys2Proof/Laws/Frame/Mmp.lean ====
section
/-! SUPPORT. Frame laws of Sys2Proof/Machine/Mmp.lean: for each operation, the parts of the state outside which it
changes nothing. -/

namespace Sys2Proof.Laws

open Sys2Proof.Machine

@[simp ↓] theorem linkUp_view {m : Nat} (h : P.event ||| P.mmpRest ||| m = m) (a1) (a2) (s : State) : view m (linkUp a1 a2 s) = view m s := by
  refine view_mono h ?_
  unfold linkUp
  try dsimp only
  repeat' first
    | with_reducible rfl
    | with_reducible apply view_ite
    | split
    | simp (disch := decide) only [↓raiseN_view, ↓setPort_view]

@[simp ↓] theorem superviseIn_view {m : Nat} (h : P.event ||| P.mmpRest ||| m = m) (a1) (s : State) : view m (superviseIn a1 s) = view m s := by
  refine view_mono h ?_
  unfold superviseIn
  try dsimp only
  repeat' first
    | with_reducible rfl
    | with_reducible apply view_ite
    | split
    | simp (disch := decide) only [↓raiseIf_view, ↓setPort_view]

@[simp ↓] theorem superviseLost_view {m : Nat} (h : P.event ||| P.mmpRest ||| m = m) (a1) (s : State) : view m (superviseLost a1 s) = view m s := by
  refine view_mono h ?_
  unfold superviseLost
  try dsimp only
  repeat' first
    | with_reducible rfl
    | with_reducible apply view_ite
    | split
    | simp (disch := decide) only [↓raiseN_view, ↓setPort_view]

@[simp ↓] theorem passOn_view {m : Nat} (h : P.event ||| P.tu ||| P.mmpRest ||| m = m) (a1) (a2) (s : State) : view m (passOn a1 a2 s) = view m s := by
  refine view_mono h ?_
  unfold passOn
  try dsimp only
  repeat' first
    | with_reducible rfl
    | with_reducible apply view_ite
    | split
    | simp (disch := decide) only [↓send_view, ↓ptpOut_view]

@[simp ↓] theorem forwardFrame_view {m : Nat} (h : P.event ||| P.tu ||| P.pool ||| P.mmpRest ||| P.can ||| m = m) (a1) (a2) (s : State) : view m (forwardFrame a1 a2 s) = view m s := by
  refine view_mono h ?_
  unfold forwardFrame
  try dsimp only
  repeat' first
    | with_reducible rfl
    | with_reducible apply view_ite
    | split
    | simp (disch := decide) only [↓poolAlloc_view, ↓setPort_view, ↓giveBack_view, ↓passOn_view, ↓followUpDrop_view]
    | with_reducible refine (forAll_keeps (view _) (fun _ _ => ?_) _).trans ?_
    | (refine (congrArg (fun p => view _ p.2) ‹poolAlloc _ _ _ = _›).symm.trans ((poolAlloc_view ?_ _ _ _).trans ?_); decide)

@[simp ↓] theorem ringTake_view {m : Nat} (h : P.event ||| P.tu ||| P.pool ||| P.mmpRest ||| P.can ||| m = m) (a1) (a2) (s : State) : view m (ringTake a1 a2 s) = view m s := by
  refine view_mono h ?_
  unfold ringTake
  try dsimp only
  repeat' first
    | with_reducible rfl
    | with_reducible apply view_ite
    | split
    | simp (disch := decide) only [↓setMmp_view, ↓setPort_view, ↓forwardFrame_view]

@[simp ↓] theorem ringFrame_view {m : Nat} (h : P.event ||| P.tu ||| P.pool ||| P.mmpRest ||| P.can ||| m = m) (a1) (a2) (s : State) : view m (ringFrame a1 a2 s) = view m s := by
  refine view_mono h ?_
  unfold ringFrame
  try dsimp only
  repeat' first
    | with_reducible rfl
    | with_reducible apply view_ite
    | split
    | simp (disch := decide) only [↓setPort_view, ↓ringTake_view, ↓superviseIn_view]

@[simp ↓] theorem arpIn_view {m : Nat} (h : P.mmp ||| m = m) (a1) (a2) (s : State) : view m (arpIn a1 a2 s) = view m s := by
  refine view_mono h ?_
  unfold arpIn
  try dsimp only
  repeat' first
    | with_reducible rfl
    | with_reducible apply view_ite
    | split
    | simp (disch := decide) only [↓send_view]

@[simp ↓] theorem echoIn_view {m : Nat} (h : P.mmp ||| m = m) (a1) (a2) (a3) (a4) (s : State) : view m (echoIn a1 a2 a3 a4 s) = view m s := by
  refine view_mono h ?_
  unfold echoIn
  try dsimp only
  repeat' first
    | with_reducible rfl
    | with_reducible apply view_ite
    | split
    | simp (disch := decide) only [↓send_view, ↓setMmp_view]

@[simp ↓] theorem mmpRead_view {m : Nat} (h : P.mmp ||| P.tu ||| P.freeCount ||| m = m) (a1) (a2) (s : State) : view m (mmpRead a1 a2 s) = view m s := by
  refine view_mono h ?_
  unfold mmpRead
  try dsimp only
  repeat' first
    | with_reducible rfl
    | with_reducible apply view_ite
    | split
    | simp (disch := decide) only [↓answer_view, ↓readWords_view, ↓reply_view]
    | (refine (congrArg (fun p => view _ p.2.2) ‹readWords _ _ _ = _›).symm.trans ((readWords_view ?_ _ _ _).trans ?_); decide)

@[simp ↓] theorem mmpWrite_view {m : Nat} (h : P.event ||| P.mod ||| P.hdrs ||| P.img ||| P.sections ||| P.imgId ||| P.pegRest ||| P.otp ||| P.banks ||| P.chs ||| P.groups ||| P.points ||| P.tu ||| P.alarm ||| P.logic ||| P.div ||| P.divSel ||| P.trx ||| P.loops ||| P.axes ||| P.bedrock ||| P.pool ||| P.mmpRest ||| P.can ||| P.pair ||| P.panel ||| P.recRest ||| P.ckpt ||| P.pi ||| m = m) (a1) (s : State) : view m (mmpWrite a1 s) = view m s := by
  refine view_mono h ?_
  unfold mmpWrite
  try dsimp only
  repeat' first
    | with_reducible rfl
    | with_reducible apply view_ite
    | split
    | simp (disch := decide) only [↓answer_view, ↓writeWords_view, ↓reply_view]
    | (refine (congrArg (fun p => view _ p.2.2.2) ‹writeWords _ _ _ _ _ = _›).symm.trans ((writeWords_view ?_ _ _ _ _ _).trans ?_); decide)

@[simp ↓] theorem funcReset_view {m : Nat} (h : P.event ||| P.mod ||| P.hdrs ||| P.img ||| P.sections ||| P.imgId ||| P.pegRest ||| P.otp ||| P.banks ||| P.chs ||| P.groups ||| P.points ||| P.tu ||| P.alarm ||| P.logic ||| P.div ||| P.divSel ||| P.trx ||| P.loops ||| P.axes ||| P.bedrock ||| P.pool ||| P.mmpRest ||| P.can ||| P.pair ||| P.panel ||| P.recRest ||| P.ckpt ||| P.pi ||| m = m) (a1) (a2) (s : State) : view m (funcReset a1 a2 s) = view m s := by
  refine view_mono h ?_
  unfold funcReset
  try dsimp only
  repeat' first
    | with_reducible rfl
    | with_reducible apply view_ite
    | split
    | simp (disch := decide) only [↓answer_view, ↓fnCtrl_view, ↓raise_view]
    | (refine (congrArg (fun p => view _ p.2) ‹fnCtrl _ _ _ _ = _›).symm.trans ((fnCtrl_view ?_ _ _ _ _).trans ?_); decide)

@[simp ↓] theorem alarmReply_view {m : Nat} (h : P.mmp ||| m = m) (a1) (s : State) : view m (alarmReply a1 s) = view m s := by
  refine view_mono h ?_
  unfold alarmReply
  try dsimp only
  repeat' first
    | with_reducible rfl
    | with_reducible apply view_ite
    | split
    | simp (disch := decide) only [↓answer_view, ↓refused_view]

theorem onAlarmCmd_view {m : Nat} (h : P.event ||| P.alarm ||| P.mmpRest ||| m = m) (msg : Msg) (op : Nat) (need : Role)
    (k : Req → State → State) (hk : ∀ q t, view m (k q t) = view m t) (s : State) :
    view m (onAlarmCmd msg op need k s) = view m s := by
  have ha : P.mmp ||| m = m := within_trans (by decide) h
  refine onNoted_view (within_trans (by decide) h) _ _ _ _ _ _ (fun _ t => ?_) (fun q t => ?_) s
  · exact view_ite (almResult_view (within_trans (by decide) h) _ _) rfl
  · exact view_ite (answer_view ha _ _ _) (view_ite (answer_view ha _ _ _)
      ((alarmReply_view (within_trans (by decide) h) _ _).trans (hk q t)))

@[simp ↓] theorem publishSet_view {m : Nat} (h : P.event ||| P.mmpRest ||| m = m) (a1) (s : State) : view m (publishSet a1 s) = view m s := by
  refine view_mono h ?_
  unfold publishSet
  try dsimp only
  repeat' first
    | with_reducible rfl
    | with_reducible apply view_ite
    | split
    | simp (disch := decide) only [↓raiseIf_view, ↓setMmp_view, ↓send_view]

@[simp ↓] theorem healthSend_view {m : Nat} (h : P.mmp ||| P.mod ||| m = m) (s : State) : view m (healthSend s) = view m s := by
  refine view_mono h ?_
  unfold healthSend
  try dsimp only
  repeat' first
    | with_reducible rfl
    | with_reducible apply view_ite
    | split
    | simp (disch := decide) only [↓send_view, ↓setMod_view]

@[simp ↓] theorem notifySend_view {m : Nat} (h : P.mmp ||| m = m) (s : State) : view m (notifySend s) = view m s := by
  refine view_mono h ?_
  unfold notifySend
  try dsimp only
  repeat' first
    | with_reducible rfl
    | with_reducible apply view_ite
    | split
    | simp (disch := decide) only [↓setMmp_view, ↓send_view]
    | with_reducible refine (forAll_keeps (view _) (fun _ _ => ?_) _).trans ?_

theorem execPortLinkUp_view {m : Nat} (h : P.event ||| P.mmpRest ||| m = m) (a1) (a2) (s : State) {t} (e : execPortLinkUp a1 a2 s = .next t) : view m t = view m s := by
  refine view_mono h ?_
  unfold execPortLinkUp at e
  obtain rfl := Host.Outcome.next.inj e
  repeat' first
    | with_reducible rfl
    | with_reducible apply view_ite
    | split
    | simp (disch := decide) only [↓linkUp_view]

theorem execPortLinkDown_view {m : Nat} (h : P.event ||| P.tu ||| P.mmpRest ||| m = m) (a1) (s : State) {t} (e : execPortLinkDown a1 s = .next t) : view m t = view m s := by
  refine view_mono h ?_
  unfold execPortLinkDown at e
  obtain rfl := Host.Outcome.next.inj e
  repeat' first
    | with_reducible rfl
    | with_reducible apply view_ite
    | split
    | simp (disch := decide) only [↓portDown_view]

theorem execRingFrame_view {m : Nat} (h : P.event ||| P.tu ||| P.pool ||| P.mmpRest ||| P.can ||| m = m) (a1) (a2) (s : State) {t} (e : execRingFrame a1 a2 s = .next t) : view m t = view m s := by
  refine view_mono h ?_
  unfold execRingFrame at e
  obtain rfl := Host.Outcome.next.inj e
  repeat' first
    | with_reducible rfl
    | with_reducible apply view_ite
    | split
    | simp (disch := decide) only [↓ringFrame_view]

theorem execSupervisionSend_view {m : Nat} (h : P.mmp ||| m = m) (s : State) {t} (e : execSupervisionSend s = .next t) : view m t = view m s := by
  refine view_mono h ?_
  unfold execSupervisionSend at e
  obtain rfl := Host.Outcome.next.inj e
  repeat' first
    | with_reducible rfl
    | with_reducible apply view_ite
    | split
    | simp (disch := decide) only [↓send_view]

theorem execRingSupervisionLost_view {m : Nat} (h : P.event ||| P.mmpRest ||| m = m) (a1) (s : State) {t} (e : execRingSupervisionLost a1 s = .next t) : view m t = view m s := by
  refine view_mono h ?_
  unfold execRingSupervisionLost at e
  obtain rfl := Host.Outcome.next.inj e
  repeat' first
    | with_reducible rfl
    | with_reducible apply view_ite
    | split
    | simp (disch := decide) only [↓superviseLost_view]

theorem execArp_view {m : Nat} (h : P.mmp ||| m = m) (a1) (a2) (s : State) {t} (e : execArp a1 a2 s = .next t) : view m t = view m s := by
  refine view_mono h ?_
  unfold execArp at e
  obtain rfl := Host.Outcome.next.inj e
  repeat' first
    | with_reducible rfl
    | with_reducible apply view_ite
    | split
    | simp (disch := decide) only [↓arpIn_view]

theorem execIcmpEcho_view {m : Nat} (h : P.mmp ||| m = m) (a1) (a2) (a3) (a4) (s : State) {t} (e : execIcmpEcho a1 a2 a3 a4 s = .next t) : view m t = view m s := by
  refine view_mono h ?_
  unfold execIcmpEcho at e
  obtain rfl := Host.Outcome.next.inj e
  repeat' first
    | with_reducible rfl
    | with_reducible apply view_ite
    | split
    | simp (disch := decide) only [↓echoIn_view]

theorem execRead_view {m : Nat} (h : P.event ||| P.tu ||| P.mmpRest ||| P.freeCount ||| m = m) (a1) (a2) (s : State) {t} (e : execRead a1 a2 s = .next t) : view m t = view m s := by
  refine view_mono h ?_
  unfold execRead at e
  obtain rfl := Host.Outcome.next.inj e
  repeat' first
    | with_reducible rfl
    | with_reducible apply view_ite
    | split
    | simp (disch := decide) only [↓mmpRead_view]
    | with_reducible refine onMessage_view (by decide) _ _ _ _ _ (fun _ _ => ?_) _

theorem execWrite_view {m : Nat} (h : P.event ||| P.mod ||| P.hdrs ||| P.img ||| P.sections ||| P.imgId ||| P.pegRest ||| P.otp ||| P.banks ||| P.chs ||| P.groups ||| P.points ||| P.tu ||| P.alarm ||| P.logic ||| P.div ||| P.divSel ||| P.trx ||| P.loops ||| P.axes ||| P.bedrock ||| P.pool ||| P.mmpRest ||| P.can ||| P.pair ||| P.panel ||| P.recRest ||| P.ckpt ||| P.pi ||| m = m) (a1) (s : State) {t} (e : execWrite a1 s = .next t) : view m t = view m s := by
  refine view_mono h ?_
  unfold execWrite at e
  obtain rfl := Host.Outcome.next.inj e
  repeat' first
    | with_reducible rfl
    | with_reducible apply view_ite
    | split
    | simp (disch := decide) only [↓mmpWrite_view]
    | with_reducible refine onMessage_view (by decide) _ _ _ _ _ (fun _ _ => ?_) _

theorem execRegisterWrite_view {m : Nat} (h : P.event ||| P.mod ||| P.hdrs ||| P.img ||| P.sections ||| P.imgId ||| P.pegRest ||| P.otp ||| P.banks ||| P.chs ||| P.groups ||| P.points ||| P.tu ||| P.alarm ||| P.logic ||| P.div ||| P.divSel ||| P.trx ||| P.loops ||| P.axes ||| P.bedrock ||| P.pool ||| P.mmpRest ||| P.can ||| P.pair ||| P.panel ||| P.recRest ||| P.ckpt ||| P.pi ||| m = m) (a1) (a2) (a3) (s : State) {t} (e : execRegisterWrite a1 a2 a3 s = .next t) : view m t = view m s := by
  refine view_mono h ?_
  unfold execRegisterWrite at e
  obtain rfl := Host.Outcome.next.inj e
  repeat' first
    | with_reducible rfl
    | with_reducible apply view_ite
    | split
    | simp (disch := decide) only [↓writeWord_view]
    | (refine (congrArg (fun p => view _ p.2.2) ‹writeWord _ _ _ _ = _›).symm.trans ((writeWord_view ?_ _ _ _ _).trans ?_); decide)

theorem execFuncReset_view {m : Nat} (h : P.event ||| P.mod ||| P.hdrs ||| P.img ||| P.sections ||| P.imgId ||| P.pegRest ||| P.otp ||| P.banks ||| P.chs ||| P.groups ||| P.points ||| P.tu ||| P.alarm ||| P.logic ||| P.div ||| P.divSel ||| P.trx ||| P.loops ||| P.axes ||| P.bedrock ||| P.pool ||| P.mmpRest ||| P.can ||| P.pair ||| P.panel ||| P.recRest ||| P.ckpt ||| P.pi ||| m = m) (a1) (a2) (s : State) {t} (e : execFuncReset a1 a2 s = .next t) : view m t = view m s := by
  refine view_mono h ?_
  unfold execFuncReset at e
  obtain rfl := Host.Outcome.next.inj e
  repeat' first
    | with_reducible rfl
    | with_reducible apply view_ite
    | split
    | simp (disch := decide) only [↓funcReset_view]
    | with_reducible refine onMessage_view (by decide) _ _ _ _ _ (fun _ _ => ?_) _

theorem execAck_view {m : Nat} (h : P.event ||| P.alarm ||| P.mmpRest ||| m = m) (a1) (s : State) {t} (e : execAck a1 s = .next t) : view m t = view m s := by
  refine view_mono h ?_
  unfold execAck at e
  obtain rfl := Host.Outcome.next.inj e
  repeat' first
    | with_reducible rfl
    | with_reducible apply view_ite
    | split
    | simp (disch := decide) only [↓ackArrives_view]
    | with_reducible refine onAlarmCmd_view (by decide) _ _ _ _ (fun _ _ => ?_) _

theorem execShelve_view {m : Nat} (h : P.event ||| P.alarm ||| P.mmpRest ||| m = m) (a1) (s : State) {t} (e : execShelve a1 s = .next t) : view m t = view m s := by
  refine view_mono h ?_
  unfold execShelve at e
  obtain rfl := Host.Outcome.next.inj e
  repeat' first
    | with_reducible rfl
    | with_reducible apply view_ite
    | split
    | simp (disch := decide) only [↓shelveArrives_view]
    | with_reducible refine onAlarmCmd_view (by decide) _ _ _ _ (fun _ _ => ?_) _

theorem execUnshelve_view {m : Nat} (h : P.event ||| P.alarm ||| P.mmpRest ||| m = m) (a1) (s : State) {t} (e : execUnshelve a1 s = .next t) : view m t = view m s := by
  refine view_mono h ?_
  unfold execUnshelve at e
  obtain rfl := Host.Outcome.next.inj e
  repeat' first
    | with_reducible rfl
    | with_reducible apply view_ite
    | split
    | simp (disch := decide) only [↓unshelveArrives_view]
    | with_reducible refine onAlarmCmd_view (by decide) _ _ _ _ (fun _ _ => ?_) _

theorem execGroupState_view {m : Nat} (h : P.event ||| P.alarm ||| P.mmpRest ||| m = m) (a1) (s : State) {t} (e : execGroupState a1 s = .next t) : view m t = view m s := by
  refine view_mono h ?_
  unfold execGroupState at e
  obtain rfl := Host.Outcome.next.inj e
  repeat' first
    | with_reducible rfl
    | with_reducible apply view_ite
    | split
    | simp (disch := decide) only [↓groupState_view]
    | with_reducible refine onPeer_view (by decide) _ _ _ _ (fun _ _ => ?_) _

theorem execBsl_view {m : Nat} (h : P.event ||| P.bedrock ||| P.mmpRest ||| m = m) (a1) (s : State) {t} (e : execBsl a1 s = .next t) : view m t = view m s := by
  refine view_mono h ?_
  unfold execBsl at e
  obtain rfl := Host.Outcome.next.inj e
  repeat' first
    | with_reducible rfl
    | with_reducible apply view_ite
    | split
    | simp (disch := decide) only [↓bslOffer_view]
    | with_reducible refine onPeer_view (by decide) _ _ _ _ (fun _ _ => ?_) _

theorem execPublish_view {m : Nat} (h : P.event ||| P.mmpRest ||| m = m) (a1) (s : State) {t} (e : execPublish a1 s = .next t) : view m t = view m s := by
  refine view_mono h ?_
  unfold execPublish at e
  obtain rfl := Host.Outcome.next.inj e
  repeat' first
    | with_reducible rfl
    | with_reducible apply view_ite
    | split
    | simp (disch := decide) only [↓publishSet_view]

theorem execHealth_view {m : Nat} (h : P.mmp ||| P.mod ||| m = m) (s : State) {t} (e : execHealth s = .next t) : view m t = view m s := by
  refine view_mono h ?_
  unfold execHealth at e
  obtain rfl := Host.Outcome.next.inj e
  repeat' first
    | with_reducible rfl
    | with_reducible apply view_ite
    | split
    | simp (disch := decide) only [↓healthSend_view]

theorem execNotify_view {m : Nat} (h : P.mmp ||| m = m) (s : State) {t} (e : execNotify s = .next t) : view m t = view m s := by
  refine view_mono h ?_
  unfold execNotify at e
  obtain rfl := Host.Outcome.next.inj e
  repeat' first
    | with_reducible rfl
    | with_reducible apply view_ite
    | split
    | simp (disch := decide) only [↓notifySend_view]

end Sys2Proof.Laws
end

