-- ==== Sys2Proof/Laws/State.lean ====
section
/-! SUPPORT. What each update of the state leaves and what it writes: one lemma for each field of each update. -/

namespace Sys2Proof.Laws

open Sys2Proof.Machine

/-! ### State.setAlm -/

@[simp] theorem setAlm_pending (s : State) (f : AlarmSt → AlarmSt) : (s.setAlm f).pending = s.pending := rfl
@[simp] theorem setAlm_mod (s : State) (f : AlarmSt → AlarmSt) : (s.setAlm f).mod = s.mod := rfl
@[simp] theorem setAlm_fns (s : State) (f : AlarmSt → AlarmSt) : (s.setAlm f).fns = s.fns := rfl
@[simp] theorem setAlm_img (s : State) (f : AlarmSt → AlarmSt) : (s.setAlm f).img = s.img := rfl
@[simp] theorem setAlm_sections (s : State) (f : AlarmSt → AlarmSt) : (s.setAlm f).sections = s.sections := rfl
@[simp] theorem setAlm_imgId (s : State) (f : AlarmSt → AlarmSt) : (s.setAlm f).imgId = s.imgId := rfl
@[simp] theorem setAlm_peg (s : State) (f : AlarmSt → AlarmSt) : (s.setAlm f).peg = s.peg := rfl
@[simp] theorem setAlm_otp (s : State) (f : AlarmSt → AlarmSt) : (s.setAlm f).otp = s.otp := rfl
@[simp] theorem setAlm_banks (s : State) (f : AlarmSt → AlarmSt) : (s.setAlm f).banks = s.banks := rfl
@[simp] theorem setAlm_chs (s : State) (f : AlarmSt → AlarmSt) : (s.setAlm f).chs = s.chs := rfl
@[simp] theorem setAlm_groups (s : State) (f : AlarmSt → AlarmSt) : (s.setAlm f).groups = s.groups := rfl
@[simp] theorem setAlm_points (s : State) (f : AlarmSt → AlarmSt) : (s.setAlm f).points = s.points := rfl
@[simp] theorem setAlm_outCurrent (s : State) (f : AlarmSt → AlarmSt) : (s.setAlm f).outCurrent = s.outCurrent := rfl
@[simp] theorem setAlm_tu (s : State) (f : AlarmSt → AlarmSt) : (s.setAlm f).tu = s.tu := rfl
@[simp] theorem setAlm_logic (s : State) (f : AlarmSt → AlarmSt) : (s.setAlm f).logic = s.logic := rfl
@[simp] theorem setAlm_div (s : State) (f : AlarmSt → AlarmSt) : (s.setAlm f).div = s.div := rfl
@[simp] theorem setAlm_divSel (s : State) (f : AlarmSt → AlarmSt) : (s.setAlm f).divSel = s.divSel := rfl
@[simp] theorem setAlm_trx (s : State) (f : AlarmSt → AlarmSt) : (s.setAlm f).trx = s.trx := rfl
@[simp] theorem setAlm_loops (s : State) (f : AlarmSt → AlarmSt) : (s.setAlm f).loops = s.loops := rfl
@[simp] theorem setAlm_axes (s : State) (f : AlarmSt → AlarmSt) : (s.setAlm f).axes = s.axes := rfl
@[simp] theorem setAlm_bedrock (s : State) (f : AlarmSt → AlarmSt) : (s.setAlm f).bedrock = s.bedrock := rfl
@[simp] theorem setAlm_pool (s : State) (f : AlarmSt → AlarmSt) : (s.setAlm f).pool = s.pool := rfl
@[simp] theorem setAlm_mmp (s : State) (f : AlarmSt → AlarmSt) : (s.setAlm f).mmp = s.mmp := rfl
@[simp] theorem setAlm_can (s : State) (f : AlarmSt → AlarmSt) : (s.setAlm f).can = s.can := rfl
@[simp] theorem setAlm_pair (s : State) (f : AlarmSt → AlarmSt) : (s.setAlm f).pair = s.pair := rfl
@[simp] theorem setAlm_panel (s : State) (f : AlarmSt → AlarmSt) : (s.setAlm f).panel = s.panel := rfl
@[simp] theorem setAlm_recd (s : State) (f : AlarmSt → AlarmSt) : (s.setAlm f).recd = s.recd := rfl
@[simp] theorem setAlm_ckpt (s : State) (f : AlarmSt → AlarmSt) : (s.setAlm f).ckpt = s.ckpt := rfl
@[simp] theorem setAlm_pi (s : State) (f : AlarmSt → AlarmSt) : (s.setAlm f).pi = s.pi := rfl
@[simp] theorem setAlm_taskInbox (s : State) (f : AlarmSt → AlarmSt) : (s.setAlm f).taskInbox = s.taskInbox := rfl
@[simp] theorem setAlm_freeCount (s : State) (f : AlarmSt → AlarmSt) : (s.setAlm f).freeCount = s.freeCount := rfl
@[simp] theorem setAlm_alarm (s : State) (f : AlarmSt → AlarmSt) : (s.setAlm f).alarm = f s.alarm := rfl

/-! ### State.setBr -/

@[simp] theorem setBr_pending (s : State) (f : BedrockSt → BedrockSt) : (s.setBr f).pending = s.pending := rfl
@[simp] theorem setBr_mod (s : State) (f : BedrockSt → BedrockSt) : (s.setBr f).mod = s.mod := rfl
@[simp] theorem setBr_fns (s : State) (f : BedrockSt → BedrockSt) : (s.setBr f).fns = s.fns := rfl
@[simp] theorem setBr_img (s : State) (f : BedrockSt → BedrockSt) : (s.setBr f).img = s.img := rfl
@[simp] theorem setBr_sections (s : State) (f : BedrockSt → BedrockSt) : (s.setBr f).sections = s.sections := rfl
@[simp] theorem setBr_imgId (s : State) (f : BedrockSt → BedrockSt) : (s.setBr f).imgId = s.imgId := rfl
@[simp] theorem setBr_peg (s : State) (f : BedrockSt → BedrockSt) : (s.setBr f).peg = s.peg := rfl
@[simp] theorem setBr_otp (s : State) (f : BedrockSt → BedrockSt) : (s.setBr f).otp = s.otp := rfl
@[simp] theorem setBr_banks (s : State) (f : BedrockSt → BedrockSt) : (s.setBr f).banks = s.banks := rfl
@[simp] theorem setBr_chs (s : State) (f : BedrockSt → BedrockSt) : (s.setBr f).chs = s.chs := rfl
@[simp] theorem setBr_groups (s : State) (f : BedrockSt → BedrockSt) : (s.setBr f).groups = s.groups := rfl
@[simp] theorem setBr_points (s : State) (f : BedrockSt → BedrockSt) : (s.setBr f).points = s.points := rfl
@[simp] theorem setBr_outCurrent (s : State) (f : BedrockSt → BedrockSt) : (s.setBr f).outCurrent = s.outCurrent := rfl
@[simp] theorem setBr_tu (s : State) (f : BedrockSt → BedrockSt) : (s.setBr f).tu = s.tu := rfl
@[simp] theorem setBr_alarm (s : State) (f : BedrockSt → BedrockSt) : (s.setBr f).alarm = s.alarm := rfl
@[simp] theorem setBr_logic (s : State) (f : BedrockSt → BedrockSt) : (s.setBr f).logic = s.logic := rfl
@[simp] theorem setBr_div (s : State) (f : BedrockSt → BedrockSt) : (s.setBr f).div = s.div := rfl
@[simp] theorem setBr_divSel (s : State) (f : BedrockSt → BedrockSt) : (s.setBr f).divSel = s.divSel := rfl
@[simp] theorem setBr_trx (s : State) (f : BedrockSt → BedrockSt) : (s.setBr f).trx = s.trx := rfl
@[simp] theorem setBr_loops (s : State) (f : BedrockSt → BedrockSt) : (s.setBr f).loops = s.loops := rfl
@[simp] theorem setBr_axes (s : State) (f : BedrockSt → BedrockSt) : (s.setBr f).axes = s.axes := rfl
@[simp] theorem setBr_pool (s : State) (f : BedrockSt → BedrockSt) : (s.setBr f).pool = s.pool := rfl
@[simp] theorem setBr_mmp (s : State) (f : BedrockSt → BedrockSt) : (s.setBr f).mmp = s.mmp := rfl
@[simp] theorem setBr_can (s : State) (f : BedrockSt → BedrockSt) : (s.setBr f).can = s.can := rfl
@[simp] theorem setBr_pair (s : State) (f : BedrockSt → BedrockSt) : (s.setBr f).pair = s.pair := rfl
@[simp] theorem setBr_panel (s : State) (f : BedrockSt → BedrockSt) : (s.setBr f).panel = s.panel := rfl
@[simp] theorem setBr_recd (s : State) (f : BedrockSt → BedrockSt) : (s.setBr f).recd = s.recd := rfl
@[simp] theorem setBr_ckpt (s : State) (f : BedrockSt → BedrockSt) : (s.setBr f).ckpt = s.ckpt := rfl
@[simp] theorem setBr_pi (s : State) (f : BedrockSt → BedrockSt) : (s.setBr f).pi = s.pi := rfl
@[simp] theorem setBr_taskInbox (s : State) (f : BedrockSt → BedrockSt) : (s.setBr f).taskInbox = s.taskInbox := rfl
@[simp] theorem setBr_freeCount (s : State) (f : BedrockSt → BedrockSt) : (s.setBr f).freeCount = s.freeCount := rfl
@[simp] theorem setBr_bedrock (s : State) (f : BedrockSt → BedrockSt) : (s.setBr f).bedrock = f s.bedrock := rfl

/-! ### State.setCkpt -/

@[simp] theorem setCkpt_pending (s : State) (f : CkptSt → CkptSt) : (s.setCkpt f).pending = s.pending := rfl
@[simp] theorem setCkpt_mod (s : State) (f : CkptSt → CkptSt) : (s.setCkpt f).mod = s.mod := rfl
@[simp] theorem setCkpt_fns (s : State) (f : CkptSt → CkptSt) : (s.setCkpt f).fns = s.fns := rfl
@[simp] theorem setCkpt_img (s : State) (f : CkptSt → CkptSt) : (s.setCkpt f).img = s.img := rfl
@[simp] theorem setCkpt_sections (s : State) (f : CkptSt → CkptSt) : (s.setCkpt f).sections = s.sections := rfl
@[simp] theorem setCkpt_imgId (s : State) (f : CkptSt → CkptSt) : (s.setCkpt f).imgId = s.imgId := rfl
@[simp] theorem setCkpt_peg (s : State) (f : CkptSt → CkptSt) : (s.setCkpt f).peg = s.peg := rfl
@[simp] theorem setCkpt_otp (s : State) (f : CkptSt → CkptSt) : (s.setCkpt f).otp = s.otp := rfl
@[simp] theorem setCkpt_banks (s : State) (f : CkptSt → CkptSt) : (s.setCkpt f).banks = s.banks := rfl
@[simp] theorem setCkpt_chs (s : State) (f : CkptSt → CkptSt) : (s.setCkpt f).chs = s.chs := rfl
@[simp] theorem setCkpt_groups (s : State) (f : CkptSt → CkptSt) : (s.setCkpt f).groups = s.groups := rfl
@[simp] theorem setCkpt_points (s : State) (f : CkptSt → CkptSt) : (s.setCkpt f).points = s.points := rfl
@[simp] theorem setCkpt_outCurrent (s : State) (f : CkptSt → CkptSt) : (s.setCkpt f).outCurrent = s.outCurrent := rfl
@[simp] theorem setCkpt_tu (s : State) (f : CkptSt → CkptSt) : (s.setCkpt f).tu = s.tu := rfl
@[simp] theorem setCkpt_alarm (s : State) (f : CkptSt → CkptSt) : (s.setCkpt f).alarm = s.alarm := rfl
@[simp] theorem setCkpt_logic (s : State) (f : CkptSt → CkptSt) : (s.setCkpt f).logic = s.logic := rfl
@[simp] theorem setCkpt_div (s : State) (f : CkptSt → CkptSt) : (s.setCkpt f).div = s.div := rfl
@[simp] theorem setCkpt_divSel (s : State) (f : CkptSt → CkptSt) : (s.setCkpt f).divSel = s.divSel := rfl
@[simp] theorem setCkpt_trx (s : State) (f : CkptSt → CkptSt) : (s.setCkpt f).trx = s.trx := rfl
@[simp] theorem setCkpt_loops (s : State) (f : CkptSt → CkptSt) : (s.setCkpt f).loops = s.loops := rfl
@[simp] theorem setCkpt_axes (s : State) (f : CkptSt → CkptSt) : (s.setCkpt f).axes = s.axes := rfl
@[simp] theorem setCkpt_bedrock (s : State) (f : CkptSt → CkptSt) : (s.setCkpt f).bedrock = s.bedrock := rfl
@[simp] theorem setCkpt_pool (s : State) (f : CkptSt → CkptSt) : (s.setCkpt f).pool = s.pool := rfl
@[simp] theorem setCkpt_mmp (s : State) (f : CkptSt → CkptSt) : (s.setCkpt f).mmp = s.mmp := rfl
@[simp] theorem setCkpt_can (s : State) (f : CkptSt → CkptSt) : (s.setCkpt f).can = s.can := rfl
@[simp] theorem setCkpt_pair (s : State) (f : CkptSt → CkptSt) : (s.setCkpt f).pair = s.pair := rfl
@[simp] theorem setCkpt_panel (s : State) (f : CkptSt → CkptSt) : (s.setCkpt f).panel = s.panel := rfl
@[simp] theorem setCkpt_recd (s : State) (f : CkptSt → CkptSt) : (s.setCkpt f).recd = s.recd := rfl
@[simp] theorem setCkpt_pi (s : State) (f : CkptSt → CkptSt) : (s.setCkpt f).pi = s.pi := rfl
@[simp] theorem setCkpt_taskInbox (s : State) (f : CkptSt → CkptSt) : (s.setCkpt f).taskInbox = s.taskInbox := rfl
@[simp] theorem setCkpt_freeCount (s : State) (f : CkptSt → CkptSt) : (s.setCkpt f).freeCount = s.freeCount := rfl
@[simp] theorem setCkpt_ckpt (s : State) (f : CkptSt → CkptSt) : (s.setCkpt f).ckpt = f s.ckpt := rfl

/-! ### State.setLoops -/

@[simp] theorem setLoops_pending (s : State) (f : LoopSt → LoopSt) : (s.setLoops f).pending = s.pending := rfl
@[simp] theorem setLoops_mod (s : State) (f : LoopSt → LoopSt) : (s.setLoops f).mod = s.mod := rfl
@[simp] theorem setLoops_fns (s : State) (f : LoopSt → LoopSt) : (s.setLoops f).fns = s.fns := rfl
@[simp] theorem setLoops_img (s : State) (f : LoopSt → LoopSt) : (s.setLoops f).img = s.img := rfl
@[simp] theorem setLoops_sections (s : State) (f : LoopSt → LoopSt) : (s.setLoops f).sections = s.sections := rfl
@[simp] theorem setLoops_imgId (s : State) (f : LoopSt → LoopSt) : (s.setLoops f).imgId = s.imgId := rfl
@[simp] theorem setLoops_peg (s : State) (f : LoopSt → LoopSt) : (s.setLoops f).peg = s.peg := rfl
@[simp] theorem setLoops_otp (s : State) (f : LoopSt → LoopSt) : (s.setLoops f).otp = s.otp := rfl
@[simp] theorem setLoops_banks (s : State) (f : LoopSt → LoopSt) : (s.setLoops f).banks = s.banks := rfl
@[simp] theorem setLoops_chs (s : State) (f : LoopSt → LoopSt) : (s.setLoops f).chs = s.chs := rfl
@[simp] theorem setLoops_groups (s : State) (f : LoopSt → LoopSt) : (s.setLoops f).groups = s.groups := rfl
@[simp] theorem setLoops_points (s : State) (f : LoopSt → LoopSt) : (s.setLoops f).points = s.points := rfl
@[simp] theorem setLoops_outCurrent (s : State) (f : LoopSt → LoopSt) : (s.setLoops f).outCurrent = s.outCurrent := rfl
@[simp] theorem setLoops_tu (s : State) (f : LoopSt → LoopSt) : (s.setLoops f).tu = s.tu := rfl
@[simp] theorem setLoops_alarm (s : State) (f : LoopSt → LoopSt) : (s.setLoops f).alarm = s.alarm := rfl
@[simp] theorem setLoops_logic (s : State) (f : LoopSt → LoopSt) : (s.setLoops f).logic = s.logic := rfl
@[simp] theorem setLoops_div (s : State) (f : LoopSt → LoopSt) : (s.setLoops f).div = s.div := rfl
@[simp] theorem setLoops_divSel (s : State) (f : LoopSt → LoopSt) : (s.setLoops f).divSel = s.divSel := rfl
@[simp] theorem setLoops_trx (s : State) (f : LoopSt → LoopSt) : (s.setLoops f).trx = s.trx := rfl
@[simp] theorem setLoops_axes (s : State) (f : LoopSt → LoopSt) : (s.setLoops f).axes = s.axes := rfl
@[simp] theorem setLoops_bedrock (s : State) (f : LoopSt → LoopSt) : (s.setLoops f).bedrock = s.bedrock := rfl
@[simp] theorem setLoops_pool (s : State) (f : LoopSt → LoopSt) : (s.setLoops f).pool = s.pool := rfl
@[simp] theorem setLoops_mmp (s : State) (f : LoopSt → LoopSt) : (s.setLoops f).mmp = s.mmp := rfl
@[simp] theorem setLoops_can (s : State) (f : LoopSt → LoopSt) : (s.setLoops f).can = s.can := rfl
@[simp] theorem setLoops_pair (s : State) (f : LoopSt → LoopSt) : (s.setLoops f).pair = s.pair := rfl
@[simp] theorem setLoops_panel (s : State) (f : LoopSt → LoopSt) : (s.setLoops f).panel = s.panel := rfl
@[simp] theorem setLoops_recd (s : State) (f : LoopSt → LoopSt) : (s.setLoops f).recd = s.recd := rfl
@[simp] theorem setLoops_ckpt (s : State) (f : LoopSt → LoopSt) : (s.setLoops f).ckpt = s.ckpt := rfl
@[simp] theorem setLoops_pi (s : State) (f : LoopSt → LoopSt) : (s.setLoops f).pi = s.pi := rfl
@[simp] theorem setLoops_taskInbox (s : State) (f : LoopSt → LoopSt) : (s.setLoops f).taskInbox = s.taskInbox := rfl
@[simp] theorem setLoops_freeCount (s : State) (f : LoopSt → LoopSt) : (s.setLoops f).freeCount = s.freeCount := rfl
@[simp] theorem setLoops_loops (s : State) (f : LoopSt → LoopSt) : (s.setLoops f).loops = f s.loops := rfl

/-! ### State.setMod -/

@[simp] theorem setMod_pending (s : State) (f : ModuleSt → ModuleSt) : (s.setMod f).pending = s.pending := rfl
@[simp] theorem setMod_fns (s : State) (f : ModuleSt → ModuleSt) : (s.setMod f).fns = s.fns := rfl
@[simp] theorem setMod_img (s : State) (f : ModuleSt → ModuleSt) : (s.setMod f).img = s.img := rfl
@[simp] theorem setMod_sections (s : State) (f : ModuleSt → ModuleSt) : (s.setMod f).sections = s.sections := rfl
@[simp] theorem setMod_imgId (s : State) (f : ModuleSt → ModuleSt) : (s.setMod f).imgId = s.imgId := rfl
@[simp] theorem setMod_peg (s : State) (f : ModuleSt → ModuleSt) : (s.setMod f).peg = s.peg := rfl
@[simp] theorem setMod_otp (s : State) (f : ModuleSt → ModuleSt) : (s.setMod f).otp = s.otp := rfl
@[simp] theorem setMod_banks (s : State) (f : ModuleSt → ModuleSt) : (s.setMod f).banks = s.banks := rfl
@[simp] theorem setMod_chs (s : State) (f : ModuleSt → ModuleSt) : (s.setMod f).chs = s.chs := rfl
@[simp] theorem setMod_groups (s : State) (f : ModuleSt → ModuleSt) : (s.setMod f).groups = s.groups := rfl
@[simp] theorem setMod_points (s : State) (f : ModuleSt → ModuleSt) : (s.setMod f).points = s.points := rfl
@[simp] theorem setMod_outCurrent (s : State) (f : ModuleSt → ModuleSt) : (s.setMod f).outCurrent = s.outCurrent := rfl
@[simp] theorem setMod_tu (s : State) (f : ModuleSt → ModuleSt) : (s.setMod f).tu = s.tu := rfl
@[simp] theorem setMod_alarm (s : State) (f : ModuleSt → ModuleSt) : (s.setMod f).alarm = s.alarm := rfl
@[simp] theorem setMod_logic (s : State) (f : ModuleSt → ModuleSt) : (s.setMod f).logic = s.logic := rfl
@[simp] theorem setMod_div (s : State) (f : ModuleSt → ModuleSt) : (s.setMod f).div = s.div := rfl
@[simp] theorem setMod_divSel (s : State) (f : ModuleSt → ModuleSt) : (s.setMod f).divSel = s.divSel := rfl
@[simp] theorem setMod_trx (s : State) (f : ModuleSt → ModuleSt) : (s.setMod f).trx = s.trx := rfl
@[simp] theorem setMod_loops (s : State) (f : ModuleSt → ModuleSt) : (s.setMod f).loops = s.loops := rfl
@[simp] theorem setMod_axes (s : State) (f : ModuleSt → ModuleSt) : (s.setMod f).axes = s.axes := rfl
@[simp] theorem setMod_bedrock (s : State) (f : ModuleSt → ModuleSt) : (s.setMod f).bedrock = s.bedrock := rfl
@[simp] theorem setMod_pool (s : State) (f : ModuleSt → ModuleSt) : (s.setMod f).pool = s.pool := rfl
@[simp] theorem setMod_mmp (s : State) (f : ModuleSt → ModuleSt) : (s.setMod f).mmp = s.mmp := rfl
@[simp] theorem setMod_can (s : State) (f : ModuleSt → ModuleSt) : (s.setMod f).can = s.can := rfl
@[simp] theorem setMod_pair (s : State) (f : ModuleSt → ModuleSt) : (s.setMod f).pair = s.pair := rfl
@[simp] theorem setMod_panel (s : State) (f : ModuleSt → ModuleSt) : (s.setMod f).panel = s.panel := rfl
@[simp] theorem setMod_recd (s : State) (f : ModuleSt → ModuleSt) : (s.setMod f).recd = s.recd := rfl
@[simp] theorem setMod_ckpt (s : State) (f : ModuleSt → ModuleSt) : (s.setMod f).ckpt = s.ckpt := rfl
@[simp] theorem setMod_pi (s : State) (f : ModuleSt → ModuleSt) : (s.setMod f).pi = s.pi := rfl
@[simp] theorem setMod_taskInbox (s : State) (f : ModuleSt → ModuleSt) : (s.setMod f).taskInbox = s.taskInbox := rfl
@[simp] theorem setMod_freeCount (s : State) (f : ModuleSt → ModuleSt) : (s.setMod f).freeCount = s.freeCount := rfl
@[simp] theorem setMod_mod (s : State) (f : ModuleSt → ModuleSt) : (s.setMod f).mod = f s.mod := rfl

/-! ### State.setTu -/

@[simp] theorem setTu_pending (s : State) (f : TimeSt → TimeSt) : (s.setTu f).pending = s.pending := rfl
@[simp] theorem setTu_mod (s : State) (f : TimeSt → TimeSt) : (s.setTu f).mod = s.mod := rfl
@[simp] theorem setTu_fns (s : State) (f : TimeSt → TimeSt) : (s.setTu f).fns = s.fns := rfl
@[simp] theorem setTu_img (s : State) (f : TimeSt → TimeSt) : (s.setTu f).img = s.img := rfl
@[simp] theorem setTu_sections (s : State) (f : TimeSt → TimeSt) : (s.setTu f).sections = s.sections := rfl
@[simp] theorem setTu_imgId (s : State) (f : TimeSt → TimeSt) : (s.setTu f).imgId = s.imgId := rfl
@[simp] theorem setTu_peg (s : State) (f : TimeSt → TimeSt) : (s.setTu f).peg = s.peg := rfl
@[simp] theorem setTu_otp (s : State) (f : TimeSt → TimeSt) : (s.setTu f).otp = s.otp := rfl
@[simp] theorem setTu_banks (s : State) (f : TimeSt → TimeSt) : (s.setTu f).banks = s.banks := rfl
@[simp] theorem setTu_chs (s : State) (f : TimeSt → TimeSt) : (s.setTu f).chs = s.chs := rfl
@[simp] theorem setTu_groups (s : State) (f : TimeSt → TimeSt) : (s.setTu f).groups = s.groups := rfl
@[simp] theorem setTu_points (s : State) (f : TimeSt → TimeSt) : (s.setTu f).points = s.points := rfl
@[simp] theorem setTu_outCurrent (s : State) (f : TimeSt → TimeSt) : (s.setTu f).outCurrent = s.outCurrent := rfl
@[simp] theorem setTu_alarm (s : State) (f : TimeSt → TimeSt) : (s.setTu f).alarm = s.alarm := rfl
@[simp] theorem setTu_logic (s : State) (f : TimeSt → TimeSt) : (s.setTu f).logic = s.logic := rfl
@[simp] theorem setTu_div (s : State) (f : TimeSt → TimeSt) : (s.setTu f).div = s.div := rfl
@[simp] theorem setTu_divSel (s : State) (f : TimeSt → TimeSt) : (s.setTu f).divSel = s.divSel := rfl
@[simp] theorem setTu_trx (s : State) (f : TimeSt → TimeSt) : (s.setTu f).trx = s.trx := rfl
@[simp] theorem setTu_loops (s : State) (f : TimeSt → TimeSt) : (s.setTu f).loops = s.loops := rfl
@[simp] theorem setTu_axes (s : State) (f : TimeSt → TimeSt) : (s.setTu f).axes = s.axes := rfl
@[simp] theorem setTu_bedrock (s : State) (f : TimeSt → TimeSt) : (s.setTu f).bedrock = s.bedrock := rfl
@[simp] theorem setTu_pool (s : State) (f : TimeSt → TimeSt) : (s.setTu f).pool = s.pool := rfl
@[simp] theorem setTu_mmp (s : State) (f : TimeSt → TimeSt) : (s.setTu f).mmp = s.mmp := rfl
@[simp] theorem setTu_can (s : State) (f : TimeSt → TimeSt) : (s.setTu f).can = s.can := rfl
@[simp] theorem setTu_pair (s : State) (f : TimeSt → TimeSt) : (s.setTu f).pair = s.pair := rfl
@[simp] theorem setTu_panel (s : State) (f : TimeSt → TimeSt) : (s.setTu f).panel = s.panel := rfl
@[simp] theorem setTu_recd (s : State) (f : TimeSt → TimeSt) : (s.setTu f).recd = s.recd := rfl
@[simp] theorem setTu_ckpt (s : State) (f : TimeSt → TimeSt) : (s.setTu f).ckpt = s.ckpt := rfl
@[simp] theorem setTu_pi (s : State) (f : TimeSt → TimeSt) : (s.setTu f).pi = s.pi := rfl
@[simp] theorem setTu_taskInbox (s : State) (f : TimeSt → TimeSt) : (s.setTu f).taskInbox = s.taskInbox := rfl
@[simp] theorem setTu_freeCount (s : State) (f : TimeSt → TimeSt) : (s.setTu f).freeCount = s.freeCount := rfl
@[simp] theorem setTu_tu (s : State) (f : TimeSt → TimeSt) : (s.setTu f).tu = f s.tu := rfl

/-! ### State.setLogic -/

@[simp] theorem setLogic_pending (s : State) (f : LogicSt → LogicSt) : (s.setLogic f).pending = s.pending := rfl
@[simp] theorem setLogic_mod (s : State) (f : LogicSt → LogicSt) : (s.setLogic f).mod = s.mod := rfl
@[simp] theorem setLogic_fns (s : State) (f : LogicSt → LogicSt) : (s.setLogic f).fns = s.fns := rfl
@[simp] theorem setLogic_img (s : State) (f : LogicSt → LogicSt) : (s.setLogic f).img = s.img := rfl
@[simp] theorem setLogic_sections (s : State) (f : LogicSt → LogicSt) : (s.setLogic f).sections = s.sections := rfl
@[simp] theorem setLogic_imgId (s : State) (f : LogicSt → LogicSt) : (s.setLogic f).imgId = s.imgId := rfl
@[simp] theorem setLogic_peg (s : State) (f : LogicSt → LogicSt) : (s.setLogic f).peg = s.peg := rfl
@[simp] theorem setLogic_otp (s : State) (f : LogicSt → LogicSt) : (s.setLogic f).otp = s.otp := rfl
@[simp] theorem setLogic_banks (s : State) (f : LogicSt → LogicSt) : (s.setLogic f).banks = s.banks := rfl
@[simp] theorem setLogic_chs (s : State) (f : LogicSt → LogicSt) : (s.setLogic f).chs = s.chs := rfl
@[simp] theorem setLogic_groups (s : State) (f : LogicSt → LogicSt) : (s.setLogic f).groups = s.groups := rfl
@[simp] theorem setLogic_points (s : State) (f : LogicSt → LogicSt) : (s.setLogic f).points = s.points := rfl
@[simp] theorem setLogic_outCurrent (s : State) (f : LogicSt → LogicSt) : (s.setLogic f).outCurrent = s.outCurrent := rfl
@[simp] theorem setLogic_tu (s : State) (f : LogicSt → LogicSt) : (s.setLogic f).tu = s.tu := rfl
@[simp] theorem setLogic_alarm (s : State) (f : LogicSt → LogicSt) : (s.setLogic f).alarm = s.alarm := rfl
@[simp] theorem setLogic_div (s : State) (f : LogicSt → LogicSt) : (s.setLogic f).div = s.div := rfl
@[simp] theorem setLogic_divSel (s : State) (f : LogicSt → LogicSt) : (s.setLogic f).divSel = s.divSel := rfl
@[simp] theorem setLogic_trx (s : State) (f : LogicSt → LogicSt) : (s.setLogic f).trx = s.trx := rfl
@[simp] theorem setLogic_loops (s : State) (f : LogicSt → LogicSt) : (s.setLogic f).loops = s.loops := rfl
@[simp] theorem setLogic_axes (s : State) (f : LogicSt → LogicSt) : (s.setLogic f).axes = s.axes := rfl
@[simp] theorem setLogic_bedrock (s : State) (f : LogicSt → LogicSt) : (s.setLogic f).bedrock = s.bedrock := rfl
@[simp] theorem setLogic_pool (s : State) (f : LogicSt → LogicSt) : (s.setLogic f).pool = s.pool := rfl
@[simp] theorem setLogic_mmp (s : State) (f : LogicSt → LogicSt) : (s.setLogic f).mmp = s.mmp := rfl
@[simp] theorem setLogic_can (s : State) (f : LogicSt → LogicSt) : (s.setLogic f).can = s.can := rfl
@[simp] theorem setLogic_pair (s : State) (f : LogicSt → LogicSt) : (s.setLogic f).pair = s.pair := rfl
@[simp] theorem setLogic_panel (s : State) (f : LogicSt → LogicSt) : (s.setLogic f).panel = s.panel := rfl
@[simp] theorem setLogic_recd (s : State) (f : LogicSt → LogicSt) : (s.setLogic f).recd = s.recd := rfl
@[simp] theorem setLogic_ckpt (s : State) (f : LogicSt → LogicSt) : (s.setLogic f).ckpt = s.ckpt := rfl
@[simp] theorem setLogic_pi (s : State) (f : LogicSt → LogicSt) : (s.setLogic f).pi = s.pi := rfl
@[simp] theorem setLogic_taskInbox (s : State) (f : LogicSt → LogicSt) : (s.setLogic f).taskInbox = s.taskInbox := rfl
@[simp] theorem setLogic_freeCount (s : State) (f : LogicSt → LogicSt) : (s.setLogic f).freeCount = s.freeCount := rfl
@[simp] theorem setLogic_logic (s : State) (f : LogicSt → LogicSt) : (s.setLogic f).logic = f s.logic := rfl

/-! ### State.setMmp -/

@[simp] theorem setMmp_pending (s : State) (f : MmpSt → MmpSt) : (s.setMmp f).pending = s.pending := rfl
@[simp] theorem setMmp_mod (s : State) (f : MmpSt → MmpSt) : (s.setMmp f).mod = s.mod := rfl
@[simp] theorem setMmp_fns (s : State) (f : MmpSt → MmpSt) : (s.setMmp f).fns = s.fns := rfl
@[simp] theorem setMmp_img (s : State) (f : MmpSt → MmpSt) : (s.setMmp f).img = s.img := rfl
@[simp] theorem setMmp_sections (s : State) (f : MmpSt → MmpSt) : (s.setMmp f).sections = s.sections := rfl
@[simp] theorem setMmp_imgId (s : State) (f : MmpSt → MmpSt) : (s.setMmp f).imgId = s.imgId := rfl
@[simp] theorem setMmp_peg (s : State) (f : MmpSt → MmpSt) : (s.setMmp f).peg = s.peg := rfl
@[simp] theorem setMmp_otp (s : State) (f : MmpSt → MmpSt) : (s.setMmp f).otp = s.otp := rfl
@[simp] theorem setMmp_banks (s : State) (f : MmpSt → MmpSt) : (s.setMmp f).banks = s.banks := rfl
@[simp] theorem setMmp_chs (s : State) (f : MmpSt → MmpSt) : (s.setMmp f).chs = s.chs := rfl
@[simp] theorem setMmp_groups (s : State) (f : MmpSt → MmpSt) : (s.setMmp f).groups = s.groups := rfl
@[simp] theorem setMmp_points (s : State) (f : MmpSt → MmpSt) : (s.setMmp f).points = s.points := rfl
@[simp] theorem setMmp_outCurrent (s : State) (f : MmpSt → MmpSt) : (s.setMmp f).outCurrent = s.outCurrent := rfl
@[simp] theorem setMmp_tu (s : State) (f : MmpSt → MmpSt) : (s.setMmp f).tu = s.tu := rfl
@[simp] theorem setMmp_alarm (s : State) (f : MmpSt → MmpSt) : (s.setMmp f).alarm = s.alarm := rfl
@[simp] theorem setMmp_logic (s : State) (f : MmpSt → MmpSt) : (s.setMmp f).logic = s.logic := rfl
@[simp] theorem setMmp_div (s : State) (f : MmpSt → MmpSt) : (s.setMmp f).div = s.div := rfl
@[simp] theorem setMmp_divSel (s : State) (f : MmpSt → MmpSt) : (s.setMmp f).divSel = s.divSel := rfl
@[simp] theorem setMmp_trx (s : State) (f : MmpSt → MmpSt) : (s.setMmp f).trx = s.trx := rfl
@[simp] theorem setMmp_loops (s : State) (f : MmpSt → MmpSt) : (s.setMmp f).loops = s.loops := rfl
@[simp] theorem setMmp_axes (s : State) (f : MmpSt → MmpSt) : (s.setMmp f).axes = s.axes := rfl
@[simp] theorem setMmp_bedrock (s : State) (f : MmpSt → MmpSt) : (s.setMmp f).bedrock = s.bedrock := rfl
@[simp] theorem setMmp_pool (s : State) (f : MmpSt → MmpSt) : (s.setMmp f).pool = s.pool := rfl
@[simp] theorem setMmp_can (s : State) (f : MmpSt → MmpSt) : (s.setMmp f).can = s.can := rfl
@[simp] theorem setMmp_pair (s : State) (f : MmpSt → MmpSt) : (s.setMmp f).pair = s.pair := rfl
@[simp] theorem setMmp_panel (s : State) (f : MmpSt → MmpSt) : (s.setMmp f).panel = s.panel := rfl
@[simp] theorem setMmp_recd (s : State) (f : MmpSt → MmpSt) : (s.setMmp f).recd = s.recd := rfl
@[simp] theorem setMmp_ckpt (s : State) (f : MmpSt → MmpSt) : (s.setMmp f).ckpt = s.ckpt := rfl
@[simp] theorem setMmp_pi (s : State) (f : MmpSt → MmpSt) : (s.setMmp f).pi = s.pi := rfl
@[simp] theorem setMmp_taskInbox (s : State) (f : MmpSt → MmpSt) : (s.setMmp f).taskInbox = s.taskInbox := rfl
@[simp] theorem setMmp_freeCount (s : State) (f : MmpSt → MmpSt) : (s.setMmp f).freeCount = s.freeCount := rfl
@[simp] theorem setMmp_mmp (s : State) (f : MmpSt → MmpSt) : (s.setMmp f).mmp = f s.mmp := rfl

/-! ### State.setPair -/

@[simp] theorem setPair_pending (s : State) (f : PairSt → PairSt) : (s.setPair f).pending = s.pending := rfl
@[simp] theorem setPair_mod (s : State) (f : PairSt → PairSt) : (s.setPair f).mod = s.mod := rfl
@[simp] theorem setPair_fns (s : State) (f : PairSt → PairSt) : (s.setPair f).fns = s.fns := rfl
@[simp] theorem setPair_img (s : State) (f : PairSt → PairSt) : (s.setPair f).img = s.img := rfl
@[simp] theorem setPair_sections (s : State) (f : PairSt → PairSt) : (s.setPair f).sections = s.sections := rfl
@[simp] theorem setPair_imgId (s : State) (f : PairSt → PairSt) : (s.setPair f).imgId = s.imgId := rfl
@[simp] theorem setPair_peg (s : State) (f : PairSt → PairSt) : (s.setPair f).peg = s.peg := rfl
@[simp] theorem setPair_otp (s : State) (f : PairSt → PairSt) : (s.setPair f).otp = s.otp := rfl
@[simp] theorem setPair_banks (s : State) (f : PairSt → PairSt) : (s.setPair f).banks = s.banks := rfl
@[simp] theorem setPair_chs (s : State) (f : PairSt → PairSt) : (s.setPair f).chs = s.chs := rfl
@[simp] theorem setPair_groups (s : State) (f : PairSt → PairSt) : (s.setPair f).groups = s.groups := rfl
@[simp] theorem setPair_points (s : State) (f : PairSt → PairSt) : (s.setPair f).points = s.points := rfl
@[simp] theorem setPair_outCurrent (s : State) (f : PairSt → PairSt) : (s.setPair f).outCurrent = s.outCurrent := rfl
@[simp] theorem setPair_tu (s : State) (f : PairSt → PairSt) : (s.setPair f).tu = s.tu := rfl
@[simp] theorem setPair_alarm (s : State) (f : PairSt → PairSt) : (s.setPair f).alarm = s.alarm := rfl
@[simp] theorem setPair_logic (s : State) (f : PairSt → PairSt) : (s.setPair f).logic = s.logic := rfl
@[simp] theorem setPair_div (s : State) (f : PairSt → PairSt) : (s.setPair f).div = s.div := rfl
@[simp] theorem setPair_divSel (s : State) (f : PairSt → PairSt) : (s.setPair f).divSel = s.divSel := rfl
@[simp] theorem setPair_trx (s : State) (f : PairSt → PairSt) : (s.setPair f).trx = s.trx := rfl
@[simp] theorem setPair_loops (s : State) (f : PairSt → PairSt) : (s.setPair f).loops = s.loops := rfl
@[simp] theorem setPair_axes (s : State) (f : PairSt → PairSt) : (s.setPair f).axes = s.axes := rfl
@[simp] theorem setPair_bedrock (s : State) (f : PairSt → PairSt) : (s.setPair f).bedrock = s.bedrock := rfl
@[simp] theorem setPair_pool (s : State) (f : PairSt → PairSt) : (s.setPair f).pool = s.pool := rfl
@[simp] theorem setPair_mmp (s : State) (f : PairSt → PairSt) : (s.setPair f).mmp = s.mmp := rfl
@[simp] theorem setPair_can (s : State) (f : PairSt → PairSt) : (s.setPair f).can = s.can := rfl
@[simp] theorem setPair_panel (s : State) (f : PairSt → PairSt) : (s.setPair f).panel = s.panel := rfl
@[simp] theorem setPair_recd (s : State) (f : PairSt → PairSt) : (s.setPair f).recd = s.recd := rfl
@[simp] theorem setPair_ckpt (s : State) (f : PairSt → PairSt) : (s.setPair f).ckpt = s.ckpt := rfl
@[simp] theorem setPair_pi (s : State) (f : PairSt → PairSt) : (s.setPair f).pi = s.pi := rfl
@[simp] theorem setPair_taskInbox (s : State) (f : PairSt → PairSt) : (s.setPair f).taskInbox = s.taskInbox := rfl
@[simp] theorem setPair_freeCount (s : State) (f : PairSt → PairSt) : (s.setPair f).freeCount = s.freeCount := rfl
@[simp] theorem setPair_pair (s : State) (f : PairSt → PairSt) : (s.setPair f).pair = f s.pair := rfl

/-! ### State.setRec -/

@[simp] theorem setRec_pending (s : State) (f : RecSt → RecSt) : (s.setRec f).pending = s.pending := rfl
@[simp] theorem setRec_mod (s : State) (f : RecSt → RecSt) : (s.setRec f).mod = s.mod := rfl
@[simp] theorem setRec_fns (s : State) (f : RecSt → RecSt) : (s.setRec f).fns = s.fns := rfl
@[simp] theorem setRec_img (s : State) (f : RecSt → RecSt) : (s.setRec f).img = s.img := rfl
@[simp] theorem setRec_sections (s : State) (f : RecSt → RecSt) : (s.setRec f).sections = s.sections := rfl
@[simp] theorem setRec_imgId (s : State) (f : RecSt → RecSt) : (s.setRec f).imgId = s.imgId := rfl
@[simp] theorem setRec_peg (s : State) (f : RecSt → RecSt) : (s.setRec f).peg = s.peg := rfl
@[simp] theorem setRec_otp (s : State) (f : RecSt → RecSt) : (s.setRec f).otp = s.otp := rfl
@[simp] theorem setRec_banks (s : State) (f : RecSt → RecSt) : (s.setRec f).banks = s.banks := rfl
@[simp] theorem setRec_chs (s : State) (f : RecSt → RecSt) : (s.setRec f).chs = s.chs := rfl
@[simp] theorem setRec_groups (s : State) (f : RecSt → RecSt) : (s.setRec f).groups = s.groups := rfl
@[simp] theorem setRec_points (s : State) (f : RecSt → RecSt) : (s.setRec f).points = s.points := rfl
@[simp] theorem setRec_outCurrent (s : State) (f : RecSt → RecSt) : (s.setRec f).outCurrent = s.outCurrent := rfl
@[simp] theorem setRec_tu (s : State) (f : RecSt → RecSt) : (s.setRec f).tu = s.tu := rfl
@[simp] theorem setRec_alarm (s : State) (f : RecSt → RecSt) : (s.setRec f).alarm = s.alarm := rfl
@[simp] theorem setRec_logic (s : State) (f : RecSt → RecSt) : (s.setRec f).logic = s.logic := rfl
@[simp] theorem setRec_div (s : State) (f : RecSt → RecSt) : (s.setRec f).div = s.div := rfl
@[simp] theorem setRec_divSel (s : State) (f : RecSt → RecSt) : (s.setRec f).divSel = s.divSel := rfl
@[simp] theorem setRec_trx (s : State) (f : RecSt → RecSt) : (s.setRec f).trx = s.trx := rfl
@[simp] theorem setRec_loops (s : State) (f : RecSt → RecSt) : (s.setRec f).loops = s.loops := rfl
@[simp] theorem setRec_axes (s : State) (f : RecSt → RecSt) : (s.setRec f).axes = s.axes := rfl
@[simp] theorem setRec_bedrock (s : State) (f : RecSt → RecSt) : (s.setRec f).bedrock = s.bedrock := rfl
@[simp] theorem setRec_pool (s : State) (f : RecSt → RecSt) : (s.setRec f).pool = s.pool := rfl
@[simp] theorem setRec_mmp (s : State) (f : RecSt → RecSt) : (s.setRec f).mmp = s.mmp := rfl
@[simp] theorem setRec_can (s : State) (f : RecSt → RecSt) : (s.setRec f).can = s.can := rfl
@[simp] theorem setRec_pair (s : State) (f : RecSt → RecSt) : (s.setRec f).pair = s.pair := rfl
@[simp] theorem setRec_panel (s : State) (f : RecSt → RecSt) : (s.setRec f).panel = s.panel := rfl
@[simp] theorem setRec_ckpt (s : State) (f : RecSt → RecSt) : (s.setRec f).ckpt = s.ckpt := rfl
@[simp] theorem setRec_pi (s : State) (f : RecSt → RecSt) : (s.setRec f).pi = s.pi := rfl
@[simp] theorem setRec_taskInbox (s : State) (f : RecSt → RecSt) : (s.setRec f).taskInbox = s.taskInbox := rfl
@[simp] theorem setRec_freeCount (s : State) (f : RecSt → RecSt) : (s.setRec f).freeCount = s.freeCount := rfl
@[simp] theorem setRec_recd (s : State) (f : RecSt → RecSt) : (s.setRec f).recd = f s.recd := rfl

/-! ### State.setPeg -/

@[simp] theorem setPeg_pending (s : State) (f : PegSt → PegSt) : (s.setPeg f).pending = s.pending := rfl
@[simp] theorem setPeg_mod (s : State) (f : PegSt → PegSt) : (s.setPeg f).mod = s.mod := rfl
@[simp] theorem setPeg_fns (s : State) (f : PegSt → PegSt) : (s.setPeg f).fns = s.fns := rfl
@[simp] theorem setPeg_img (s : State) (f : PegSt → PegSt) : (s.setPeg f).img = s.img := rfl
@[simp] theorem setPeg_sections (s : State) (f : PegSt → PegSt) : (s.setPeg f).sections = s.sections := rfl
@[simp] theorem setPeg_imgId (s : State) (f : PegSt → PegSt) : (s.setPeg f).imgId = s.imgId := rfl
@[simp] theorem setPeg_otp (s : State) (f : PegSt → PegSt) : (s.setPeg f).otp = s.otp := rfl
@[simp] theorem setPeg_banks (s : State) (f : PegSt → PegSt) : (s.setPeg f).banks = s.banks := rfl
@[simp] theorem setPeg_chs (s : State) (f : PegSt → PegSt) : (s.setPeg f).chs = s.chs := rfl
@[simp] theorem setPeg_groups (s : State) (f : PegSt → PegSt) : (s.setPeg f).groups = s.groups := rfl
@[simp] theorem setPeg_points (s : State) (f : PegSt → PegSt) : (s.setPeg f).points = s.points := rfl
@[simp] theorem setPeg_outCurrent (s : State) (f : PegSt → PegSt) : (s.setPeg f).outCurrent = s.outCurrent := rfl
@[simp] theorem setPeg_tu (s : State) (f : PegSt → PegSt) : (s.setPeg f).tu = s.tu := rfl
@[simp] theorem setPeg_alarm (s : State) (f : PegSt → PegSt) : (s.setPeg f).alarm = s.alarm := rfl
@[simp] theorem setPeg_logic (s : State) (f : PegSt → PegSt) : (s.setPeg f).logic = s.logic := rfl
@[simp] theorem setPeg_div (s : State) (f : PegSt → PegSt) : (s.setPeg f).div = s.div := rfl
@[simp] theorem setPeg_divSel (s : State) (f : PegSt → PegSt) : (s.setPeg f).divSel = s.divSel := rfl
@[simp] theorem setPeg_trx (s : State) (f : PegSt → PegSt) : (s.setPeg f).trx = s.trx := rfl
@[simp] theorem setPeg_loops (s : State) (f : PegSt → PegSt) : (s.setPeg f).loops = s.loops := rfl
@[simp] theorem setPeg_axes (s : State) (f : PegSt → PegSt) : (s.setPeg f).axes = s.axes := rfl
@[simp] theorem setPeg_bedrock (s : State) (f : PegSt → PegSt) : (s.setPeg f).bedrock = s.bedrock := rfl
@[simp] theorem setPeg_pool (s : State) (f : PegSt → PegSt) : (s.setPeg f).pool = s.pool := rfl
@[simp] theorem setPeg_mmp (s : State) (f : PegSt → PegSt) : (s.setPeg f).mmp = s.mmp := rfl
@[simp] theorem setPeg_can (s : State) (f : PegSt → PegSt) : (s.setPeg f).can = s.can := rfl
@[simp] theorem setPeg_pair (s : State) (f : PegSt → PegSt) : (s.setPeg f).pair = s.pair := rfl
@[simp] theorem setPeg_panel (s : State) (f : PegSt → PegSt) : (s.setPeg f).panel = s.panel := rfl
@[simp] theorem setPeg_recd (s : State) (f : PegSt → PegSt) : (s.setPeg f).recd = s.recd := rfl
@[simp] theorem setPeg_ckpt (s : State) (f : PegSt → PegSt) : (s.setPeg f).ckpt = s.ckpt := rfl
@[simp] theorem setPeg_pi (s : State) (f : PegSt → PegSt) : (s.setPeg f).pi = s.pi := rfl
@[simp] theorem setPeg_taskInbox (s : State) (f : PegSt → PegSt) : (s.setPeg f).taskInbox = s.taskInbox := rfl
@[simp] theorem setPeg_freeCount (s : State) (f : PegSt → PegSt) : (s.setPeg f).freeCount = s.freeCount := rfl
@[simp] theorem setPeg_peg (s : State) (f : PegSt → PegSt) : (s.setPeg f).peg = f s.peg := rfl

/-! ### State.setPool -/

@[simp] theorem setPool_pending (s : State) (f : PoolSt → PoolSt) : (s.setPool f).pending = s.pending := rfl
@[simp] theorem setPool_mod (s : State) (f : PoolSt → PoolSt) : (s.setPool f).mod = s.mod := rfl
@[simp] theorem setPool_fns (s : State) (f : PoolSt → PoolSt) : (s.setPool f).fns = s.fns := rfl
@[simp] theorem setPool_img (s : State) (f : PoolSt → PoolSt) : (s.setPool f).img = s.img := rfl
@[simp] theorem setPool_sections (s : State) (f : PoolSt → PoolSt) : (s.setPool f).sections = s.sections := rfl
@[simp] theorem setPool_imgId (s : State) (f : PoolSt → PoolSt) : (s.setPool f).imgId = s.imgId := rfl
@[simp] theorem setPool_peg (s : State) (f : PoolSt → PoolSt) : (s.setPool f).peg = s.peg := rfl
@[simp] theorem setPool_otp (s : State) (f : PoolSt → PoolSt) : (s.setPool f).otp = s.otp := rfl
@[simp] theorem setPool_banks (s : State) (f : PoolSt → PoolSt) : (s.setPool f).banks = s.banks := rfl
@[simp] theorem setPool_chs (s : State) (f : PoolSt → PoolSt) : (s.setPool f).chs = s.chs := rfl
@[simp] theorem setPool_groups (s : State) (f : PoolSt → PoolSt) : (s.setPool f).groups = s.groups := rfl
@[simp] theorem setPool_points (s : State) (f : PoolSt → PoolSt) : (s.setPool f).points = s.points := rfl
@[simp] theorem setPool_outCurrent (s : State) (f : PoolSt → PoolSt) : (s.setPool f).outCurrent = s.outCurrent := rfl
@[simp] theorem setPool_tu (s : State) (f : PoolSt → PoolSt) : (s.setPool f).tu = s.tu := rfl
@[simp] theorem setPool_alarm (s : State) (f : PoolSt → PoolSt) : (s.setPool f).alarm = s.alarm := rfl
@[simp] theorem setPool_logic (s : State) (f : PoolSt → PoolSt) : (s.setPool f).logic = s.logic := rfl
@[simp] theorem setPool_div (s : State) (f : PoolSt → PoolSt) : (s.setPool f).div = s.div := rfl
@[simp] theorem setPool_divSel (s : State) (f : PoolSt → PoolSt) : (s.setPool f).divSel = s.divSel := rfl
@[simp] theorem setPool_trx (s : State) (f : PoolSt → PoolSt) : (s.setPool f).trx = s.trx := rfl
@[simp] theorem setPool_loops (s : State) (f : PoolSt → PoolSt) : (s.setPool f).loops = s.loops := rfl
@[simp] theorem setPool_axes (s : State) (f : PoolSt → PoolSt) : (s.setPool f).axes = s.axes := rfl
@[simp] theorem setPool_bedrock (s : State) (f : PoolSt → PoolSt) : (s.setPool f).bedrock = s.bedrock := rfl
@[simp] theorem setPool_mmp (s : State) (f : PoolSt → PoolSt) : (s.setPool f).mmp = s.mmp := rfl
@[simp] theorem setPool_can (s : State) (f : PoolSt → PoolSt) : (s.setPool f).can = s.can := rfl
@[simp] theorem setPool_pair (s : State) (f : PoolSt → PoolSt) : (s.setPool f).pair = s.pair := rfl
@[simp] theorem setPool_panel (s : State) (f : PoolSt → PoolSt) : (s.setPool f).panel = s.panel := rfl
@[simp] theorem setPool_recd (s : State) (f : PoolSt → PoolSt) : (s.setPool f).recd = s.recd := rfl
@[simp] theorem setPool_ckpt (s : State) (f : PoolSt → PoolSt) : (s.setPool f).ckpt = s.ckpt := rfl
@[simp] theorem setPool_pi (s : State) (f : PoolSt → PoolSt) : (s.setPool f).pi = s.pi := rfl
@[simp] theorem setPool_taskInbox (s : State) (f : PoolSt → PoolSt) : (s.setPool f).taskInbox = s.taskInbox := rfl
@[simp] theorem setPool_freeCount (s : State) (f : PoolSt → PoolSt) : (s.setPool f).freeCount = s.freeCount := rfl
@[simp] theorem setPool_pool (s : State) (f : PoolSt → PoolSt) : (s.setPool f).pool = f s.pool := rfl

/-! ### State.setOtp -/

@[simp] theorem setOtp_pending (s : State) (f : OtpSt → OtpSt) : (s.setOtp f).pending = s.pending := rfl
@[simp] theorem setOtp_mod (s : State) (f : OtpSt → OtpSt) : (s.setOtp f).mod = s.mod := rfl
@[simp] theorem setOtp_fns (s : State) (f : OtpSt → OtpSt) : (s.setOtp f).fns = s.fns := rfl
@[simp] theorem setOtp_img (s : State) (f : OtpSt → OtpSt) : (s.setOtp f).img = s.img := rfl
@[simp] theorem setOtp_sections (s : State) (f : OtpSt → OtpSt) : (s.setOtp f).sections = s.sections := rfl
@[simp] theorem setOtp_imgId (s : State) (f : OtpSt → OtpSt) : (s.setOtp f).imgId = s.imgId := rfl
@[simp] theorem setOtp_peg (s : State) (f : OtpSt → OtpSt) : (s.setOtp f).peg = s.peg := rfl
@[simp] theorem setOtp_banks (s : State) (f : OtpSt → OtpSt) : (s.setOtp f).banks = s.banks := rfl
@[simp] theorem setOtp_chs (s : State) (f : OtpSt → OtpSt) : (s.setOtp f).chs = s.chs := rfl
@[simp] theorem setOtp_groups (s : State) (f : OtpSt → OtpSt) : (s.setOtp f).groups = s.groups := rfl
@[simp] theorem setOtp_points (s : State) (f : OtpSt → OtpSt) : (s.setOtp f).points = s.points := rfl
@[simp] theorem setOtp_outCurrent (s : State) (f : OtpSt → OtpSt) : (s.setOtp f).outCurrent = s.outCurrent := rfl
@[simp] theorem setOtp_tu (s : State) (f : OtpSt → OtpSt) : (s.setOtp f).tu = s.tu := rfl
@[simp] theorem setOtp_alarm (s : State) (f : OtpSt → OtpSt) : (s.setOtp f).alarm = s.alarm := rfl
@[simp] theorem setOtp_logic (s : State) (f : OtpSt → OtpSt) : (s.setOtp f).logic = s.logic := rfl
@[simp] theorem setOtp_div (s : State) (f : OtpSt → OtpSt) : (s.setOtp f).div = s.div := rfl
@[simp] theorem setOtp_divSel (s : State) (f : OtpSt → OtpSt) : (s.setOtp f).divSel = s.divSel := rfl
@[simp] theorem setOtp_trx (s : State) (f : OtpSt → OtpSt) : (s.setOtp f).trx = s.trx := rfl
@[simp] theorem setOtp_loops (s : State) (f : OtpSt → OtpSt) : (s.setOtp f).loops = s.loops := rfl
@[simp] theorem setOtp_axes (s : State) (f : OtpSt → OtpSt) : (s.setOtp f).axes = s.axes := rfl
@[simp] theorem setOtp_bedrock (s : State) (f : OtpSt → OtpSt) : (s.setOtp f).bedrock = s.bedrock := rfl
@[simp] theorem setOtp_pool (s : State) (f : OtpSt → OtpSt) : (s.setOtp f).pool = s.pool := rfl
@[simp] theorem setOtp_mmp (s : State) (f : OtpSt → OtpSt) : (s.setOtp f).mmp = s.mmp := rfl
@[simp] theorem setOtp_can (s : State) (f : OtpSt → OtpSt) : (s.setOtp f).can = s.can := rfl
@[simp] theorem setOtp_pair (s : State) (f : OtpSt → OtpSt) : (s.setOtp f).pair = s.pair := rfl
@[simp] theorem setOtp_panel (s : State) (f : OtpSt → OtpSt) : (s.setOtp f).panel = s.panel := rfl
@[simp] theorem setOtp_recd (s : State) (f : OtpSt → OtpSt) : (s.setOtp f).recd = s.recd := rfl
@[simp] theorem setOtp_ckpt (s : State) (f : OtpSt → OtpSt) : (s.setOtp f).ckpt = s.ckpt := rfl
@[simp] theorem setOtp_pi (s : State) (f : OtpSt → OtpSt) : (s.setOtp f).pi = s.pi := rfl
@[simp] theorem setOtp_taskInbox (s : State) (f : OtpSt → OtpSt) : (s.setOtp f).taskInbox = s.taskInbox := rfl
@[simp] theorem setOtp_freeCount (s : State) (f : OtpSt → OtpSt) : (s.setOtp f).freeCount = s.freeCount := rfl
@[simp] theorem setOtp_otp (s : State) (f : OtpSt → OtpSt) : (s.setOtp f).otp = f s.otp := rfl

/-! ### State.setPanel -/

@[simp] theorem setPanel_pending (s : State) (f : PanelSt → PanelSt) : (s.setPanel f).pending = s.pending := rfl
@[simp] theorem setPanel_mod (s : State) (f : PanelSt → PanelSt) : (s.setPanel f).mod = s.mod := rfl
@[simp] theorem setPanel_fns (s : State) (f : PanelSt → PanelSt) : (s.setPanel f).fns = s.fns := rfl
@[simp] theorem setPanel_img (s : State) (f : PanelSt → PanelSt) : (s.setPanel f).img = s.img := rfl
@[simp] theorem setPanel_sections (s : State) (f : PanelSt → PanelSt) : (s.setPanel f).sections = s.sections := rfl
@[simp] theorem setPanel_imgId (s : State) (f : PanelSt → PanelSt) : (s.setPanel f).imgId = s.imgId := rfl
@[simp] theorem setPanel_peg (s : State) (f : PanelSt → PanelSt) : (s.setPanel f).peg = s.peg := rfl
@[simp] theorem setPanel_otp (s : State) (f : PanelSt → PanelSt) : (s.setPanel f).otp = s.otp := rfl
@[simp] theorem setPanel_banks (s : State) (f : PanelSt → PanelSt) : (s.setPanel f).banks = s.banks := rfl
@[simp] theorem setPanel_chs (s : State) (f : PanelSt → PanelSt) : (s.setPanel f).chs = s.chs := rfl
@[simp] theorem setPanel_groups (s : State) (f : PanelSt → PanelSt) : (s.setPanel f).groups = s.groups := rfl
@[simp] theorem setPanel_points (s : State) (f : PanelSt → PanelSt) : (s.setPanel f).points = s.points := rfl
@[simp] theorem setPanel_outCurrent (s : State) (f : PanelSt → PanelSt) : (s.setPanel f).outCurrent = s.outCurrent := rfl
@[simp] theorem setPanel_tu (s : State) (f : PanelSt → PanelSt) : (s.setPanel f).tu = s.tu := rfl
@[simp] theorem setPanel_alarm (s : State) (f : PanelSt → PanelSt) : (s.setPanel f).alarm = s.alarm := rfl
@[simp] theorem setPanel_logic (s : State) (f : PanelSt → PanelSt) : (s.setPanel f).logic = s.logic := rfl
@[simp] theorem setPanel_div (s : State) (f : PanelSt → PanelSt) : (s.setPanel f).div = s.div := rfl
@[simp] theorem setPanel_divSel (s : State) (f : PanelSt → PanelSt) : (s.setPanel f).divSel = s.divSel := rfl
@[simp] theorem setPanel_trx (s : State) (f : PanelSt → PanelSt) : (s.setPanel f).trx = s.trx := rfl
@[simp] theorem setPanel_loops (s : State) (f : PanelSt → PanelSt) : (s.setPanel f).loops = s.loops := rfl
@[simp] theorem setPanel_axes (s : State) (f : PanelSt → PanelSt) : (s.setPanel f).axes = s.axes := rfl
@[simp] theorem setPanel_bedrock (s : State) (f : PanelSt → PanelSt) : (s.setPanel f).bedrock = s.bedrock := rfl
@[simp] theorem setPanel_pool (s : State) (f : PanelSt → PanelSt) : (s.setPanel f).pool = s.pool := rfl
@[simp] theorem setPanel_mmp (s : State) (f : PanelSt → PanelSt) : (s.setPanel f).mmp = s.mmp := rfl
@[simp] theorem setPanel_can (s : State) (f : PanelSt → PanelSt) : (s.setPanel f).can = s.can := rfl
@[simp] theorem setPanel_pair (s : State) (f : PanelSt → PanelSt) : (s.setPanel f).pair = s.pair := rfl
@[simp] theorem setPanel_recd (s : State) (f : PanelSt → PanelSt) : (s.setPanel f).recd = s.recd := rfl
@[simp] theorem setPanel_ckpt (s : State) (f : PanelSt → PanelSt) : (s.setPanel f).ckpt = s.ckpt := rfl
@[simp] theorem setPanel_pi (s : State) (f : PanelSt → PanelSt) : (s.setPanel f).pi = s.pi := rfl
@[simp] theorem setPanel_taskInbox (s : State) (f : PanelSt → PanelSt) : (s.setPanel f).taskInbox = s.taskInbox := rfl
@[simp] theorem setPanel_freeCount (s : State) (f : PanelSt → PanelSt) : (s.setPanel f).freeCount = s.freeCount := rfl
@[simp] theorem setPanel_panel (s : State) (f : PanelSt → PanelSt) : (s.setPanel f).panel = f s.panel := rfl

/-! ### State.setBank -/

@[simp] theorem setBank_pending (s : State) (b : Nat) (u : BankSt → BankSt) : (s.setBank b u).pending = s.pending := rfl
@[simp] theorem setBank_mod (s : State) (b : Nat) (u : BankSt → BankSt) : (s.setBank b u).mod = s.mod := rfl
@[simp] theorem setBank_fns (s : State) (b : Nat) (u : BankSt → BankSt) : (s.setBank b u).fns = s.fns := rfl
@[simp] theorem setBank_img (s : State) (b : Nat) (u : BankSt → BankSt) : (s.setBank b u).img = s.img := rfl
@[simp] theorem setBank_sections (s : State) (b : Nat) (u : BankSt → BankSt) : (s.setBank b u).sections = s.sections := rfl
@[simp] theorem setBank_imgId (s : State) (b : Nat) (u : BankSt → BankSt) : (s.setBank b u).imgId = s.imgId := rfl
@[simp] theorem setBank_peg (s : State) (b : Nat) (u : BankSt → BankSt) : (s.setBank b u).peg = s.peg := rfl
@[simp] theorem setBank_otp (s : State) (b : Nat) (u : BankSt → BankSt) : (s.setBank b u).otp = s.otp := rfl
@[simp] theorem setBank_chs (s : State) (b : Nat) (u : BankSt → BankSt) : (s.setBank b u).chs = s.chs := rfl
@[simp] theorem setBank_groups (s : State) (b : Nat) (u : BankSt → BankSt) : (s.setBank b u).groups = s.groups := rfl
@[simp] theorem setBank_points (s : State) (b : Nat) (u : BankSt → BankSt) : (s.setBank b u).points = s.points := rfl
@[simp] theorem setBank_outCurrent (s : State) (b : Nat) (u : BankSt → BankSt) : (s.setBank b u).outCurrent = s.outCurrent := rfl
@[simp] theorem setBank_tu (s : State) (b : Nat) (u : BankSt → BankSt) : (s.setBank b u).tu = s.tu := rfl
@[simp] theorem setBank_alarm (s : State) (b : Nat) (u : BankSt → BankSt) : (s.setBank b u).alarm = s.alarm := rfl
@[simp] theorem setBank_logic (s : State) (b : Nat) (u : BankSt → BankSt) : (s.setBank b u).logic = s.logic := rfl
@[simp] theorem setBank_div (s : State) (b : Nat) (u : BankSt → BankSt) : (s.setBank b u).div = s.div := rfl
@[simp] theorem setBank_divSel (s : State) (b : Nat) (u : BankSt → BankSt) : (s.setBank b u).divSel = s.divSel := rfl
@[simp] theorem setBank_trx (s : State) (b : Nat) (u : BankSt → BankSt) : (s.setBank b u).trx = s.trx := rfl
@[simp] theorem setBank_loops (s : State) (b : Nat) (u : BankSt → BankSt) : (s.setBank b u).loops = s.loops := rfl
@[simp] theorem setBank_axes (s : State) (b : Nat) (u : BankSt → BankSt) : (s.setBank b u).axes = s.axes := rfl
@[simp] theorem setBank_bedrock (s : State) (b : Nat) (u : BankSt → BankSt) : (s.setBank b u).bedrock = s.bedrock := rfl
@[simp] theorem setBank_pool (s : State) (b : Nat) (u : BankSt → BankSt) : (s.setBank b u).pool = s.pool := rfl
@[simp] theorem setBank_mmp (s : State) (b : Nat) (u : BankSt → BankSt) : (s.setBank b u).mmp = s.mmp := rfl
@[simp] theorem setBank_can (s : State) (b : Nat) (u : BankSt → BankSt) : (s.setBank b u).can = s.can := rfl
@[simp] theorem setBank_pair (s : State) (b : Nat) (u : BankSt → BankSt) : (s.setBank b u).pair = s.pair := rfl
@[simp] theorem setBank_panel (s : State) (b : Nat) (u : BankSt → BankSt) : (s.setBank b u).panel = s.panel := rfl
@[simp] theorem setBank_recd (s : State) (b : Nat) (u : BankSt → BankSt) : (s.setBank b u).recd = s.recd := rfl
@[simp] theorem setBank_ckpt (s : State) (b : Nat) (u : BankSt → BankSt) : (s.setBank b u).ckpt = s.ckpt := rfl
@[simp] theorem setBank_pi (s : State) (b : Nat) (u : BankSt → BankSt) : (s.setBank b u).pi = s.pi := rfl
@[simp] theorem setBank_taskInbox (s : State) (b : Nat) (u : BankSt → BankSt) : (s.setBank b u).taskInbox = s.taskInbox := rfl
@[simp] theorem setBank_freeCount (s : State) (b : Nat) (u : BankSt → BankSt) : (s.setBank b u).freeCount = s.freeCount := rfl
@[simp] theorem setBank_banks (s : State) (b : Nat) (u : BankSt → BankSt) : (s.setBank b u).banks = s.banks.upd b u := rfl

/-! ### State.setCh -/

@[simp] theorem setCh_pending (s : State) (b c : Nat) (u : ChSt → ChSt) : (s.setCh b c u).pending = s.pending := rfl
@[simp] theorem setCh_mod (s : State) (b c : Nat) (u : ChSt → ChSt) : (s.setCh b c u).mod = s.mod := rfl
@[simp] theorem setCh_fns (s : State) (b c : Nat) (u : ChSt → ChSt) : (s.setCh b c u).fns = s.fns := rfl
@[simp] theorem setCh_img (s : State) (b c : Nat) (u : ChSt → ChSt) : (s.setCh b c u).img = s.img := rfl
@[simp] theorem setCh_sections (s : State) (b c : Nat) (u : ChSt → ChSt) : (s.setCh b c u).sections = s.sections := rfl
@[simp] theorem setCh_imgId (s : State) (b c : Nat) (u : ChSt → ChSt) : (s.setCh b c u).imgId = s.imgId := rfl
@[simp] theorem setCh_peg (s : State) (b c : Nat) (u : ChSt → ChSt) : (s.setCh b c u).peg = s.peg := rfl
@[simp] theorem setCh_otp (s : State) (b c : Nat) (u : ChSt → ChSt) : (s.setCh b c u).otp = s.otp := rfl
@[simp] theorem setCh_banks (s : State) (b c : Nat) (u : ChSt → ChSt) : (s.setCh b c u).banks = s.banks := rfl
@[simp] theorem setCh_groups (s : State) (b c : Nat) (u : ChSt → ChSt) : (s.setCh b c u).groups = s.groups := rfl
@[simp] theorem setCh_points (s : State) (b c : Nat) (u : ChSt → ChSt) : (s.setCh b c u).points = s.points := rfl
@[simp] theorem setCh_outCurrent (s : State) (b c : Nat) (u : ChSt → ChSt) : (s.setCh b c u).outCurrent = s.outCurrent := rfl
@[simp] theorem setCh_tu (s : State) (b c : Nat) (u : ChSt → ChSt) : (s.setCh b c u).tu = s.tu := rfl
@[simp] theorem setCh_alarm (s : State) (b c : Nat) (u : ChSt → ChSt) : (s.setCh b c u).alarm = s.alarm := rfl
@[simp] theorem setCh_logic (s : State) (b c : Nat) (u : ChSt → ChSt) : (s.setCh b c u).logic = s.logic := rfl
@[simp] theorem setCh_div (s : State) (b c : Nat) (u : ChSt → ChSt) : (s.setCh b c u).div = s.div := rfl
@[simp] theorem setCh_divSel (s : State) (b c : Nat) (u : ChSt → ChSt) : (s.setCh b c u).divSel = s.divSel := rfl
@[simp] theorem setCh_trx (s : State) (b c : Nat) (u : ChSt → ChSt) : (s.setCh b c u).trx = s.trx := rfl
@[simp] theorem setCh_loops (s : State) (b c : Nat) (u : ChSt → ChSt) : (s.setCh b c u).loops = s.loops := rfl
@[simp] theorem setCh_axes (s : State) (b c : Nat) (u : ChSt → ChSt) : (s.setCh b c u).axes = s.axes := rfl
@[simp] theorem setCh_bedrock (s : State) (b c : Nat) (u : ChSt → ChSt) : (s.setCh b c u).bedrock = s.bedrock := rfl
@[simp] theorem setCh_pool (s : State) (b c : Nat) (u : ChSt → ChSt) : (s.setCh b c u).pool = s.pool := rfl
@[simp] theorem setCh_mmp (s : State) (b c : Nat) (u : ChSt → ChSt) : (s.setCh b c u).mmp = s.mmp := rfl
@[simp] theorem setCh_can (s : State) (b c : Nat) (u : ChSt → ChSt) : (s.setCh b c u).can = s.can := rfl
@[simp] theorem setCh_pair (s : State) (b c : Nat) (u : ChSt → ChSt) : (s.setCh b c u).pair = s.pair := rfl
@[simp] theorem setCh_panel (s : State) (b c : Nat) (u : ChSt → ChSt) : (s.setCh b c u).panel = s.panel := rfl
@[simp] theorem setCh_recd (s : State) (b c : Nat) (u : ChSt → ChSt) : (s.setCh b c u).recd = s.recd := rfl
@[simp] theorem setCh_ckpt (s : State) (b c : Nat) (u : ChSt → ChSt) : (s.setCh b c u).ckpt = s.ckpt := rfl
@[simp] theorem setCh_pi (s : State) (b c : Nat) (u : ChSt → ChSt) : (s.setCh b c u).pi = s.pi := rfl
@[simp] theorem setCh_taskInbox (s : State) (b c : Nat) (u : ChSt → ChSt) : (s.setCh b c u).taskInbox = s.taskInbox := rfl
@[simp] theorem setCh_freeCount (s : State) (b c : Nat) (u : ChSt → ChSt) : (s.setCh b c u).freeCount = s.freeCount := rfl
@[simp] theorem setCh_chs (s : State) (b c : Nat) (u : ChSt → ChSt) : (s.setCh b c u).chs = s.chs.upd (16 * b + c) u := rfl

/-! ### State.setPoint -/

@[simp] theorem setPoint_pending (s : State) (g p : Nat) (u : DpSt → DpSt) : (s.setPoint g p u).pending = s.pending := rfl
@[simp] theorem setPoint_mod (s : State) (g p : Nat) (u : DpSt → DpSt) : (s.setPoint g p u).mod = s.mod := rfl
@[simp] theorem setPoint_fns (s : State) (g p : Nat) (u : DpSt → DpSt) : (s.setPoint g p u).fns = s.fns := rfl
@[simp] theorem setPoint_img (s : State) (g p : Nat) (u : DpSt → DpSt) : (s.setPoint g p u).img = s.img := rfl
@[simp] theorem setPoint_sections (s : State) (g p : Nat) (u : DpSt → DpSt) : (s.setPoint g p u).sections = s.sections := rfl
@[simp] theorem setPoint_imgId (s : State) (g p : Nat) (u : DpSt → DpSt) : (s.setPoint g p u).imgId = s.imgId := rfl
@[simp] theorem setPoint_peg (s : State) (g p : Nat) (u : DpSt → DpSt) : (s.setPoint g p u).peg = s.peg := rfl
@[simp] theorem setPoint_otp (s : State) (g p : Nat) (u : DpSt → DpSt) : (s.setPoint g p u).otp = s.otp := rfl
@[simp] theorem setPoint_banks (s : State) (g p : Nat) (u : DpSt → DpSt) : (s.setPoint g p u).banks = s.banks := rfl
@[simp] theorem setPoint_chs (s : State) (g p : Nat) (u : DpSt → DpSt) : (s.setPoint g p u).chs = s.chs := rfl
@[simp] theorem setPoint_groups (s : State) (g p : Nat) (u : DpSt → DpSt) : (s.setPoint g p u).groups = s.groups := rfl
@[simp] theorem setPoint_outCurrent (s : State) (g p : Nat) (u : DpSt → DpSt) : (s.setPoint g p u).outCurrent = s.outCurrent := rfl
@[simp] theorem setPoint_tu (s : State) (g p : Nat) (u : DpSt → DpSt) : (s.setPoint g p u).tu = s.tu := rfl
@[simp] theorem setPoint_alarm (s : State) (g p : Nat) (u : DpSt → DpSt) : (s.setPoint g p u).alarm = s.alarm := rfl
@[simp] theorem setPoint_logic (s : State) (g p : Nat) (u : DpSt → DpSt) : (s.setPoint g p u).logic = s.logic := rfl
@[simp] theorem setPoint_div (s : State) (g p : Nat) (u : DpSt → DpSt) : (s.setPoint g p u).div = s.div := rfl
@[simp] theorem setPoint_divSel (s : State) (g p : Nat) (u : DpSt → DpSt) : (s.setPoint g p u).divSel = s.divSel := rfl
@[simp] theorem setPoint_trx (s : State) (g p : Nat) (u : DpSt → DpSt) : (s.setPoint g p u).trx = s.trx := rfl
@[simp] theorem setPoint_loops (s : State) (g p : Nat) (u : DpSt → DpSt) : (s.setPoint g p u).loops = s.loops := rfl
@[simp] theorem setPoint_axes (s : State) (g p : Nat) (u : DpSt → DpSt) : (s.setPoint g p u).axes = s.axes := rfl
@[simp] theorem setPoint_bedrock (s : State) (g p : Nat) (u : DpSt → DpSt) : (s.setPoint g p u).bedrock = s.bedrock := rfl
@[simp] theorem setPoint_pool (s : State) (g p : Nat) (u : DpSt → DpSt) : (s.setPoint g p u).pool = s.pool := rfl
@[simp] theorem setPoint_mmp (s : State) (g p : Nat) (u : DpSt → DpSt) : (s.setPoint g p u).mmp = s.mmp := rfl
@[simp] theorem setPoint_can (s : State) (g p : Nat) (u : DpSt → DpSt) : (s.setPoint g p u).can = s.can := rfl
@[simp] theorem setPoint_pair (s : State) (g p : Nat) (u : DpSt → DpSt) : (s.setPoint g p u).pair = s.pair := rfl
@[simp] theorem setPoint_panel (s : State) (g p : Nat) (u : DpSt → DpSt) : (s.setPoint g p u).panel = s.panel := rfl
@[simp] theorem setPoint_recd (s : State) (g p : Nat) (u : DpSt → DpSt) : (s.setPoint g p u).recd = s.recd := rfl
@[simp] theorem setPoint_ckpt (s : State) (g p : Nat) (u : DpSt → DpSt) : (s.setPoint g p u).ckpt = s.ckpt := rfl
@[simp] theorem setPoint_pi (s : State) (g p : Nat) (u : DpSt → DpSt) : (s.setPoint g p u).pi = s.pi := rfl
@[simp] theorem setPoint_taskInbox (s : State) (g p : Nat) (u : DpSt → DpSt) : (s.setPoint g p u).taskInbox = s.taskInbox := rfl
@[simp] theorem setPoint_freeCount (s : State) (g p : Nat) (u : DpSt → DpSt) : (s.setPoint g p u).freeCount = s.freeCount := rfl
@[simp] theorem setPoint_points (s : State) (g p : Nat) (u : DpSt → DpSt) : (s.setPoint g p u).points = s.points.upd (8 * g + p) u := rfl

/-! ### State.setGroup -/

@[simp] theorem setGroup_pending (s : State) (g : Nat) (u : DgSt → DgSt) : (s.setGroup g u).pending = s.pending := rfl
@[simp] theorem setGroup_mod (s : State) (g : Nat) (u : DgSt → DgSt) : (s.setGroup g u).mod = s.mod := rfl
@[simp] theorem setGroup_fns (s : State) (g : Nat) (u : DgSt → DgSt) : (s.setGroup g u).fns = s.fns := rfl
@[simp] theorem setGroup_img (s : State) (g : Nat) (u : DgSt → DgSt) : (s.setGroup g u).img = s.img := rfl
@[simp] theorem setGroup_sections (s : State) (g : Nat) (u : DgSt → DgSt) : (s.setGroup g u).sections = s.sections := rfl
@[simp] theorem setGroup_imgId (s : State) (g : Nat) (u : DgSt → DgSt) : (s.setGroup g u).imgId = s.imgId := rfl
@[simp] theorem setGroup_peg (s : State) (g : Nat) (u : DgSt → DgSt) : (s.setGroup g u).peg = s.peg := rfl
@[simp] theorem setGroup_otp (s : State) (g : Nat) (u : DgSt → DgSt) : (s.setGroup g u).otp = s.otp := rfl
@[simp] theorem setGroup_banks (s : State) (g : Nat) (u : DgSt → DgSt) : (s.setGroup g u).banks = s.banks := rfl
@[simp] theorem setGroup_chs (s : State) (g : Nat) (u : DgSt → DgSt) : (s.setGroup g u).chs = s.chs := rfl
@[simp] theorem setGroup_points (s : State) (g : Nat) (u : DgSt → DgSt) : (s.setGroup g u).points = s.points := rfl
@[simp] theorem setGroup_outCurrent (s : State) (g : Nat) (u : DgSt → DgSt) : (s.setGroup g u).outCurrent = s.outCurrent := rfl
@[simp] theorem setGroup_tu (s : State) (g : Nat) (u : DgSt → DgSt) : (s.setGroup g u).tu = s.tu := rfl
@[simp] theorem setGroup_alarm (s : State) (g : Nat) (u : DgSt → DgSt) : (s.setGroup g u).alarm = s.alarm := rfl
@[simp] theorem setGroup_logic (s : State) (g : Nat) (u : DgSt → DgSt) : (s.setGroup g u).logic = s.logic := rfl
@[simp] theorem setGroup_div (s : State) (g : Nat) (u : DgSt → DgSt) : (s.setGroup g u).div = s.div := rfl
@[simp] theorem setGroup_divSel (s : State) (g : Nat) (u : DgSt → DgSt) : (s.setGroup g u).divSel = s.divSel := rfl
@[simp] theorem setGroup_trx (s : State) (g : Nat) (u : DgSt → DgSt) : (s.setGroup g u).trx = s.trx := rfl
@[simp] theorem setGroup_loops (s : State) (g : Nat) (u : DgSt → DgSt) : (s.setGroup g u).loops = s.loops := rfl
@[simp] theorem setGroup_axes (s : State) (g : Nat) (u : DgSt → DgSt) : (s.setGroup g u).axes = s.axes := rfl
@[simp] theorem setGroup_bedrock (s : State) (g : Nat) (u : DgSt → DgSt) : (s.setGroup g u).bedrock = s.bedrock := rfl
@[simp] theorem setGroup_pool (s : State) (g : Nat) (u : DgSt → DgSt) : (s.setGroup g u).pool = s.pool := rfl
@[simp] theorem setGroup_mmp (s : State) (g : Nat) (u : DgSt → DgSt) : (s.setGroup g u).mmp = s.mmp := rfl
@[simp] theorem setGroup_can (s : State) (g : Nat) (u : DgSt → DgSt) : (s.setGroup g u).can = s.can := rfl
@[simp] theorem setGroup_pair (s : State) (g : Nat) (u : DgSt → DgSt) : (s.setGroup g u).pair = s.pair := rfl
@[simp] theorem setGroup_panel (s : State) (g : Nat) (u : DgSt → DgSt) : (s.setGroup g u).panel = s.panel := rfl
@[simp] theorem setGroup_recd (s : State) (g : Nat) (u : DgSt → DgSt) : (s.setGroup g u).recd = s.recd := rfl
@[simp] theorem setGroup_ckpt (s : State) (g : Nat) (u : DgSt → DgSt) : (s.setGroup g u).ckpt = s.ckpt := rfl
@[simp] theorem setGroup_pi (s : State) (g : Nat) (u : DgSt → DgSt) : (s.setGroup g u).pi = s.pi := rfl
@[simp] theorem setGroup_taskInbox (s : State) (g : Nat) (u : DgSt → DgSt) : (s.setGroup g u).taskInbox = s.taskInbox := rfl
@[simp] theorem setGroup_freeCount (s : State) (g : Nat) (u : DgSt → DgSt) : (s.setGroup g u).freeCount = s.freeCount := rfl
@[simp] theorem setGroup_groups (s : State) (g : Nat) (u : DgSt → DgSt) : (s.setGroup g u).groups = s.groups.upd g u := rfl

/-! ### State.setAxis -/

@[simp] theorem setAxis_pending (s : State) (a : Nat) (u : AxisSt → AxisSt) : (s.setAxis a u).pending = s.pending := rfl
@[simp] theorem setAxis_mod (s : State) (a : Nat) (u : AxisSt → AxisSt) : (s.setAxis a u).mod = s.mod := rfl
@[simp] theorem setAxis_fns (s : State) (a : Nat) (u : AxisSt → AxisSt) : (s.setAxis a u).fns = s.fns := rfl
@[simp] theorem setAxis_img (s : State) (a : Nat) (u : AxisSt → AxisSt) : (s.setAxis a u).img = s.img := rfl
@[simp] theorem setAxis_sections (s : State) (a : Nat) (u : AxisSt → AxisSt) : (s.setAxis a u).sections = s.sections := rfl
@[simp] theorem setAxis_imgId (s : State) (a : Nat) (u : AxisSt → AxisSt) : (s.setAxis a u).imgId = s.imgId := rfl
@[simp] theorem setAxis_peg (s : State) (a : Nat) (u : AxisSt → AxisSt) : (s.setAxis a u).peg = s.peg := rfl
@[simp] theorem setAxis_otp (s : State) (a : Nat) (u : AxisSt → AxisSt) : (s.setAxis a u).otp = s.otp := rfl
@[simp] theorem setAxis_banks (s : State) (a : Nat) (u : AxisSt → AxisSt) : (s.setAxis a u).banks = s.banks := rfl
@[simp] theorem setAxis_chs (s : State) (a : Nat) (u : AxisSt → AxisSt) : (s.setAxis a u).chs = s.chs := rfl
@[simp] theorem setAxis_groups (s : State) (a : Nat) (u : AxisSt → AxisSt) : (s.setAxis a u).groups = s.groups := rfl
@[simp] theorem setAxis_points (s : State) (a : Nat) (u : AxisSt → AxisSt) : (s.setAxis a u).points = s.points := rfl
@[simp] theorem setAxis_outCurrent (s : State) (a : Nat) (u : AxisSt → AxisSt) : (s.setAxis a u).outCurrent = s.outCurrent := rfl
@[simp] theorem setAxis_tu (s : State) (a : Nat) (u : AxisSt → AxisSt) : (s.setAxis a u).tu = s.tu := rfl
@[simp] theorem setAxis_alarm (s : State) (a : Nat) (u : AxisSt → AxisSt) : (s.setAxis a u).alarm = s.alarm := rfl
@[simp] theorem setAxis_logic (s : State) (a : Nat) (u : AxisSt → AxisSt) : (s.setAxis a u).logic = s.logic := rfl
@[simp] theorem setAxis_div (s : State) (a : Nat) (u : AxisSt → AxisSt) : (s.setAxis a u).div = s.div := rfl
@[simp] theorem setAxis_divSel (s : State) (a : Nat) (u : AxisSt → AxisSt) : (s.setAxis a u).divSel = s.divSel := rfl
@[simp] theorem setAxis_trx (s : State) (a : Nat) (u : AxisSt → AxisSt) : (s.setAxis a u).trx = s.trx := rfl
@[simp] theorem setAxis_loops (s : State) (a : Nat) (u : AxisSt → AxisSt) : (s.setAxis a u).loops = s.loops := rfl
@[simp] theorem setAxis_bedrock (s : State) (a : Nat) (u : AxisSt → AxisSt) : (s.setAxis a u).bedrock = s.bedrock := rfl
@[simp] theorem setAxis_pool (s : State) (a : Nat) (u : AxisSt → AxisSt) : (s.setAxis a u).pool = s.pool := rfl
@[simp] theorem setAxis_mmp (s : State) (a : Nat) (u : AxisSt → AxisSt) : (s.setAxis a u).mmp = s.mmp := rfl
@[simp] theorem setAxis_can (s : State) (a : Nat) (u : AxisSt → AxisSt) : (s.setAxis a u).can = s.can := rfl
@[simp] theorem setAxis_pair (s : State) (a : Nat) (u : AxisSt → AxisSt) : (s.setAxis a u).pair = s.pair := rfl
@[simp] theorem setAxis_panel (s : State) (a : Nat) (u : AxisSt → AxisSt) : (s.setAxis a u).panel = s.panel := rfl
@[simp] theorem setAxis_recd (s : State) (a : Nat) (u : AxisSt → AxisSt) : (s.setAxis a u).recd = s.recd := rfl
@[simp] theorem setAxis_ckpt (s : State) (a : Nat) (u : AxisSt → AxisSt) : (s.setAxis a u).ckpt = s.ckpt := rfl
@[simp] theorem setAxis_pi (s : State) (a : Nat) (u : AxisSt → AxisSt) : (s.setAxis a u).pi = s.pi := rfl
@[simp] theorem setAxis_taskInbox (s : State) (a : Nat) (u : AxisSt → AxisSt) : (s.setAxis a u).taskInbox = s.taskInbox := rfl
@[simp] theorem setAxis_freeCount (s : State) (a : Nat) (u : AxisSt → AxisSt) : (s.setAxis a u).freeCount = s.freeCount := rfl
@[simp] theorem setAxis_axes (s : State) (a : Nat) (u : AxisSt → AxisSt) : (s.setAxis a u).axes = s.axes.upd a u := rfl

/-! ### State.setCan -/

@[simp] theorem setCan_pending (s : State) (c : Nat) (u : CanSt → CanSt) : (s.setCan c u).pending = s.pending := rfl
@[simp] theorem setCan_mod (s : State) (c : Nat) (u : CanSt → CanSt) : (s.setCan c u).mod = s.mod := rfl
@[simp] theorem setCan_fns (s : State) (c : Nat) (u : CanSt → CanSt) : (s.setCan c u).fns = s.fns := rfl
@[simp] theorem setCan_img (s : State) (c : Nat) (u : CanSt → CanSt) : (s.setCan c u).img = s.img := rfl
@[simp] theorem setCan_sections (s : State) (c : Nat) (u : CanSt → CanSt) : (s.setCan c u).sections = s.sections := rfl
@[simp] theorem setCan_imgId (s : State) (c : Nat) (u : CanSt → CanSt) : (s.setCan c u).imgId = s.imgId := rfl
@[simp] theorem setCan_peg (s : State) (c : Nat) (u : CanSt → CanSt) : (s.setCan c u).peg = s.peg := rfl
@[simp] theorem setCan_otp (s : State) (c : Nat) (u : CanSt → CanSt) : (s.setCan c u).otp = s.otp := rfl
@[simp] theorem setCan_banks (s : State) (c : Nat) (u : CanSt → CanSt) : (s.setCan c u).banks = s.banks := rfl
@[simp] theorem setCan_chs (s : State) (c : Nat) (u : CanSt → CanSt) : (s.setCan c u).chs = s.chs := rfl
@[simp] theorem setCan_groups (s : State) (c : Nat) (u : CanSt → CanSt) : (s.setCan c u).groups = s.groups := rfl
@[simp] theorem setCan_points (s : State) (c : Nat) (u : CanSt → CanSt) : (s.setCan c u).points = s.points := rfl
@[simp] theorem setCan_outCurrent (s : State) (c : Nat) (u : CanSt → CanSt) : (s.setCan c u).outCurrent = s.outCurrent := rfl
@[simp] theorem setCan_tu (s : State) (c : Nat) (u : CanSt → CanSt) : (s.setCan c u).tu = s.tu := rfl
@[simp] theorem setCan_alarm (s : State) (c : Nat) (u : CanSt → CanSt) : (s.setCan c u).alarm = s.alarm := rfl
@[simp] theorem setCan_logic (s : State) (c : Nat) (u : CanSt → CanSt) : (s.setCan c u).logic = s.logic := rfl
@[simp] theorem setCan_div (s : State) (c : Nat) (u : CanSt → CanSt) : (s.setCan c u).div = s.div := rfl
@[simp] theorem setCan_divSel (s : State) (c : Nat) (u : CanSt → CanSt) : (s.setCan c u).divSel = s.divSel := rfl
@[simp] theorem setCan_trx (s : State) (c : Nat) (u : CanSt → CanSt) : (s.setCan c u).trx = s.trx := rfl
@[simp] theorem setCan_loops (s : State) (c : Nat) (u : CanSt → CanSt) : (s.setCan c u).loops = s.loops := rfl
@[simp] theorem setCan_axes (s : State) (c : Nat) (u : CanSt → CanSt) : (s.setCan c u).axes = s.axes := rfl
@[simp] theorem setCan_bedrock (s : State) (c : Nat) (u : CanSt → CanSt) : (s.setCan c u).bedrock = s.bedrock := rfl
@[simp] theorem setCan_pool (s : State) (c : Nat) (u : CanSt → CanSt) : (s.setCan c u).pool = s.pool := rfl
@[simp] theorem setCan_mmp (s : State) (c : Nat) (u : CanSt → CanSt) : (s.setCan c u).mmp = s.mmp := rfl
@[simp] theorem setCan_pair (s : State) (c : Nat) (u : CanSt → CanSt) : (s.setCan c u).pair = s.pair := rfl
@[simp] theorem setCan_panel (s : State) (c : Nat) (u : CanSt → CanSt) : (s.setCan c u).panel = s.panel := rfl
@[simp] theorem setCan_recd (s : State) (c : Nat) (u : CanSt → CanSt) : (s.setCan c u).recd = s.recd := rfl
@[simp] theorem setCan_ckpt (s : State) (c : Nat) (u : CanSt → CanSt) : (s.setCan c u).ckpt = s.ckpt := rfl
@[simp] theorem setCan_pi (s : State) (c : Nat) (u : CanSt → CanSt) : (s.setCan c u).pi = s.pi := rfl
@[simp] theorem setCan_taskInbox (s : State) (c : Nat) (u : CanSt → CanSt) : (s.setCan c u).taskInbox = s.taskInbox := rfl
@[simp] theorem setCan_freeCount (s : State) (c : Nat) (u : CanSt → CanSt) : (s.setCan c u).freeCount = s.freeCount := rfl
@[simp] theorem setCan_can (s : State) (c : Nat) (u : CanSt → CanSt) : (s.setCan c u).can = s.can.upd c u := rfl

/-! ### State.setDiv -/

@[simp] theorem setDiv_pending (s : State) (i : Nat) (u : DivSt → DivSt) : (s.setDiv i u).pending = s.pending := rfl
@[simp] theorem setDiv_mod (s : State) (i : Nat) (u : DivSt → DivSt) : (s.setDiv i u).mod = s.mod := rfl
@[simp] theorem setDiv_fns (s : State) (i : Nat) (u : DivSt → DivSt) : (s.setDiv i u).fns = s.fns := rfl
@[simp] theorem setDiv_img (s : State) (i : Nat) (u : DivSt → DivSt) : (s.setDiv i u).img = s.img := rfl
@[simp] theorem setDiv_sections (s : State) (i : Nat) (u : DivSt → DivSt) : (s.setDiv i u).sections = s.sections := rfl
@[simp] theorem setDiv_imgId (s : State) (i : Nat) (u : DivSt → DivSt) : (s.setDiv i u).imgId = s.imgId := rfl
@[simp] theorem setDiv_peg (s : State) (i : Nat) (u : DivSt → DivSt) : (s.setDiv i u).peg = s.peg := rfl
@[simp] theorem setDiv_otp (s : State) (i : Nat) (u : DivSt → DivSt) : (s.setDiv i u).otp = s.otp := rfl
@[simp] theorem setDiv_banks (s : State) (i : Nat) (u : DivSt → DivSt) : (s.setDiv i u).banks = s.banks := rfl
@[simp] theorem setDiv_chs (s : State) (i : Nat) (u : DivSt → DivSt) : (s.setDiv i u).chs = s.chs := rfl
@[simp] theorem setDiv_groups (s : State) (i : Nat) (u : DivSt → DivSt) : (s.setDiv i u).groups = s.groups := rfl
@[simp] theorem setDiv_points (s : State) (i : Nat) (u : DivSt → DivSt) : (s.setDiv i u).points = s.points := rfl
@[simp] theorem setDiv_outCurrent (s : State) (i : Nat) (u : DivSt → DivSt) : (s.setDiv i u).outCurrent = s.outCurrent := rfl
@[simp] theorem setDiv_tu (s : State) (i : Nat) (u : DivSt → DivSt) : (s.setDiv i u).tu = s.tu := rfl
@[simp] theorem setDiv_alarm (s : State) (i : Nat) (u : DivSt → DivSt) : (s.setDiv i u).alarm = s.alarm := rfl
@[simp] theorem setDiv_logic (s : State) (i : Nat) (u : DivSt → DivSt) : (s.setDiv i u).logic = s.logic := rfl
@[simp] theorem setDiv_divSel (s : State) (i : Nat) (u : DivSt → DivSt) : (s.setDiv i u).divSel = s.divSel := rfl
@[simp] theorem setDiv_trx (s : State) (i : Nat) (u : DivSt → DivSt) : (s.setDiv i u).trx = s.trx := rfl
@[simp] theorem setDiv_loops (s : State) (i : Nat) (u : DivSt → DivSt) : (s.setDiv i u).loops = s.loops := rfl
@[simp] theorem setDiv_axes (s : State) (i : Nat) (u : DivSt → DivSt) : (s.setDiv i u).axes = s.axes := rfl
@[simp] theorem setDiv_bedrock (s : State) (i : Nat) (u : DivSt → DivSt) : (s.setDiv i u).bedrock = s.bedrock := rfl
@[simp] theorem setDiv_pool (s : State) (i : Nat) (u : DivSt → DivSt) : (s.setDiv i u).pool = s.pool := rfl
@[simp] theorem setDiv_mmp (s : State) (i : Nat) (u : DivSt → DivSt) : (s.setDiv i u).mmp = s.mmp := rfl
@[simp] theorem setDiv_can (s : State) (i : Nat) (u : DivSt → DivSt) : (s.setDiv i u).can = s.can := rfl
@[simp] theorem setDiv_pair (s : State) (i : Nat) (u : DivSt → DivSt) : (s.setDiv i u).pair = s.pair := rfl
@[simp] theorem setDiv_panel (s : State) (i : Nat) (u : DivSt → DivSt) : (s.setDiv i u).panel = s.panel := rfl
@[simp] theorem setDiv_recd (s : State) (i : Nat) (u : DivSt → DivSt) : (s.setDiv i u).recd = s.recd := rfl
@[simp] theorem setDiv_ckpt (s : State) (i : Nat) (u : DivSt → DivSt) : (s.setDiv i u).ckpt = s.ckpt := rfl
@[simp] theorem setDiv_pi (s : State) (i : Nat) (u : DivSt → DivSt) : (s.setDiv i u).pi = s.pi := rfl
@[simp] theorem setDiv_taskInbox (s : State) (i : Nat) (u : DivSt → DivSt) : (s.setDiv i u).taskInbox = s.taskInbox := rfl
@[simp] theorem setDiv_freeCount (s : State) (i : Nat) (u : DivSt → DivSt) : (s.setDiv i u).freeCount = s.freeCount := rfl
@[simp] theorem setDiv_div (s : State) (i : Nat) (u : DivSt → DivSt) : (s.setDiv i u).div = s.div.upd i u := rfl

/-! ### State.setTrx -/

@[simp] theorem setTrx_pending (s : State) (e : Nat) (u : TrxSt → TrxSt) : (s.setTrx e u).pending = s.pending := rfl
@[simp] theorem setTrx_mod (s : State) (e : Nat) (u : TrxSt → TrxSt) : (s.setTrx e u).mod = s.mod := rfl
@[simp] theorem setTrx_fns (s : State) (e : Nat) (u : TrxSt → TrxSt) : (s.setTrx e u).fns = s.fns := rfl
@[simp] theorem setTrx_img (s : State) (e : Nat) (u : TrxSt → TrxSt) : (s.setTrx e u).img = s.img := rfl
@[simp] theorem setTrx_sections (s : State) (e : Nat) (u : TrxSt → TrxSt) : (s.setTrx e u).sections = s.sections := rfl
@[simp] theorem setTrx_imgId (s : State) (e : Nat) (u : TrxSt → TrxSt) : (s.setTrx e u).imgId = s.imgId := rfl
@[simp] theorem setTrx_peg (s : State) (e : Nat) (u : TrxSt → TrxSt) : (s.setTrx e u).peg = s.peg := rfl
@[simp] theorem setTrx_otp (s : State) (e : Nat) (u : TrxSt → TrxSt) : (s.setTrx e u).otp = s.otp := rfl
@[simp] theorem setTrx_banks (s : State) (e : Nat) (u : TrxSt → TrxSt) : (s.setTrx e u).banks = s.banks := rfl
@[simp] theorem setTrx_chs (s : State) (e : Nat) (u : TrxSt → TrxSt) : (s.setTrx e u).chs = s.chs := rfl
@[simp] theorem setTrx_groups (s : State) (e : Nat) (u : TrxSt → TrxSt) : (s.setTrx e u).groups = s.groups := rfl
@[simp] theorem setTrx_points (s : State) (e : Nat) (u : TrxSt → TrxSt) : (s.setTrx e u).points = s.points := rfl
@[simp] theorem setTrx_outCurrent (s : State) (e : Nat) (u : TrxSt → TrxSt) : (s.setTrx e u).outCurrent = s.outCurrent := rfl
@[simp] theorem setTrx_tu (s : State) (e : Nat) (u : TrxSt → TrxSt) : (s.setTrx e u).tu = s.tu := rfl
@[simp] theorem setTrx_alarm (s : State) (e : Nat) (u : TrxSt → TrxSt) : (s.setTrx e u).alarm = s.alarm := rfl
@[simp] theorem setTrx_logic (s : State) (e : Nat) (u : TrxSt → TrxSt) : (s.setTrx e u).logic = s.logic := rfl
@[simp] theorem setTrx_div (s : State) (e : Nat) (u : TrxSt → TrxSt) : (s.setTrx e u).div = s.div := rfl
@[simp] theorem setTrx_divSel (s : State) (e : Nat) (u : TrxSt → TrxSt) : (s.setTrx e u).divSel = s.divSel := rfl
@[simp] theorem setTrx_loops (s : State) (e : Nat) (u : TrxSt → TrxSt) : (s.setTrx e u).loops = s.loops := rfl
@[simp] theorem setTrx_axes (s : State) (e : Nat) (u : TrxSt → TrxSt) : (s.setTrx e u).axes = s.axes := rfl
@[simp] theorem setTrx_bedrock (s : State) (e : Nat) (u : TrxSt → TrxSt) : (s.setTrx e u).bedrock = s.bedrock := rfl
@[simp] theorem setTrx_pool (s : State) (e : Nat) (u : TrxSt → TrxSt) : (s.setTrx e u).pool = s.pool := rfl
@[simp] theorem setTrx_mmp (s : State) (e : Nat) (u : TrxSt → TrxSt) : (s.setTrx e u).mmp = s.mmp := rfl
@[simp] theorem setTrx_can (s : State) (e : Nat) (u : TrxSt → TrxSt) : (s.setTrx e u).can = s.can := rfl
@[simp] theorem setTrx_pair (s : State) (e : Nat) (u : TrxSt → TrxSt) : (s.setTrx e u).pair = s.pair := rfl
@[simp] theorem setTrx_panel (s : State) (e : Nat) (u : TrxSt → TrxSt) : (s.setTrx e u).panel = s.panel := rfl
@[simp] theorem setTrx_recd (s : State) (e : Nat) (u : TrxSt → TrxSt) : (s.setTrx e u).recd = s.recd := rfl
@[simp] theorem setTrx_ckpt (s : State) (e : Nat) (u : TrxSt → TrxSt) : (s.setTrx e u).ckpt = s.ckpt := rfl
@[simp] theorem setTrx_pi (s : State) (e : Nat) (u : TrxSt → TrxSt) : (s.setTrx e u).pi = s.pi := rfl
@[simp] theorem setTrx_taskInbox (s : State) (e : Nat) (u : TrxSt → TrxSt) : (s.setTrx e u).taskInbox = s.taskInbox := rfl
@[simp] theorem setTrx_freeCount (s : State) (e : Nat) (u : TrxSt → TrxSt) : (s.setTrx e u).freeCount = s.freeCount := rfl
@[simp] theorem setTrx_trx (s : State) (e : Nat) (u : TrxSt → TrxSt) : (s.setTrx e u).trx = s.trx.upd e u := rfl

/-! ### State.setHdr -/

@[simp] theorem setHdr_pending (s : State) (f : Fn) (u : FnHdr → FnHdr) : (s.setHdr f u).pending = s.pending := rfl
@[simp] theorem setHdr_mod (s : State) (f : Fn) (u : FnHdr → FnHdr) : (s.setHdr f u).mod = s.mod := rfl
@[simp] theorem setHdr_img (s : State) (f : Fn) (u : FnHdr → FnHdr) : (s.setHdr f u).img = s.img := rfl
@[simp] theorem setHdr_sections (s : State) (f : Fn) (u : FnHdr → FnHdr) : (s.setHdr f u).sections = s.sections := rfl
@[simp] theorem setHdr_imgId (s : State) (f : Fn) (u : FnHdr → FnHdr) : (s.setHdr f u).imgId = s.imgId := rfl
@[simp] theorem setHdr_peg (s : State) (f : Fn) (u : FnHdr → FnHdr) : (s.setHdr f u).peg = s.peg := rfl
@[simp] theorem setHdr_otp (s : State) (f : Fn) (u : FnHdr → FnHdr) : (s.setHdr f u).otp = s.otp := rfl
@[simp] theorem setHdr_banks (s : State) (f : Fn) (u : FnHdr → FnHdr) : (s.setHdr f u).banks = s.banks := rfl
@[simp] theorem setHdr_chs (s : State) (f : Fn) (u : FnHdr → FnHdr) : (s.setHdr f u).chs = s.chs := rfl
@[simp] theorem setHdr_groups (s : State) (f : Fn) (u : FnHdr → FnHdr) : (s.setHdr f u).groups = s.groups := rfl
@[simp] theorem setHdr_points (s : State) (f : Fn) (u : FnHdr → FnHdr) : (s.setHdr f u).points = s.points := rfl
@[simp] theorem setHdr_outCurrent (s : State) (f : Fn) (u : FnHdr → FnHdr) : (s.setHdr f u).outCurrent = s.outCurrent := rfl
@[simp] theorem setHdr_tu (s : State) (f : Fn) (u : FnHdr → FnHdr) : (s.setHdr f u).tu = s.tu := rfl
@[simp] theorem setHdr_alarm (s : State) (f : Fn) (u : FnHdr → FnHdr) : (s.setHdr f u).alarm = s.alarm := rfl
@[simp] theorem setHdr_logic (s : State) (f : Fn) (u : FnHdr → FnHdr) : (s.setHdr f u).logic = s.logic := rfl
@[simp] theorem setHdr_div (s : State) (f : Fn) (u : FnHdr → FnHdr) : (s.setHdr f u).div = s.div := rfl
@[simp] theorem setHdr_divSel (s : State) (f : Fn) (u : FnHdr → FnHdr) : (s.setHdr f u).divSel = s.divSel := rfl
@[simp] theorem setHdr_trx (s : State) (f : Fn) (u : FnHdr → FnHdr) : (s.setHdr f u).trx = s.trx := rfl
@[simp] theorem setHdr_loops (s : State) (f : Fn) (u : FnHdr → FnHdr) : (s.setHdr f u).loops = s.loops := rfl
@[simp] theorem setHdr_axes (s : State) (f : Fn) (u : FnHdr → FnHdr) : (s.setHdr f u).axes = s.axes := rfl
@[simp] theorem setHdr_bedrock (s : State) (f : Fn) (u : FnHdr → FnHdr) : (s.setHdr f u).bedrock = s.bedrock := rfl
@[simp] theorem setHdr_pool (s : State) (f : Fn) (u : FnHdr → FnHdr) : (s.setHdr f u).pool = s.pool := rfl
@[simp] theorem setHdr_mmp (s : State) (f : Fn) (u : FnHdr → FnHdr) : (s.setHdr f u).mmp = s.mmp := rfl
@[simp] theorem setHdr_can (s : State) (f : Fn) (u : FnHdr → FnHdr) : (s.setHdr f u).can = s.can := rfl
@[simp] theorem setHdr_pair (s : State) (f : Fn) (u : FnHdr → FnHdr) : (s.setHdr f u).pair = s.pair := rfl
@[simp] theorem setHdr_panel (s : State) (f : Fn) (u : FnHdr → FnHdr) : (s.setHdr f u).panel = s.panel := rfl
@[simp] theorem setHdr_recd (s : State) (f : Fn) (u : FnHdr → FnHdr) : (s.setHdr f u).recd = s.recd := rfl
@[simp] theorem setHdr_ckpt (s : State) (f : Fn) (u : FnHdr → FnHdr) : (s.setHdr f u).ckpt = s.ckpt := rfl
@[simp] theorem setHdr_pi (s : State) (f : Fn) (u : FnHdr → FnHdr) : (s.setHdr f u).pi = s.pi := rfl
@[simp] theorem setHdr_taskInbox (s : State) (f : Fn) (u : FnHdr → FnHdr) : (s.setHdr f u).taskInbox = s.taskInbox := rfl
@[simp] theorem setHdr_freeCount (s : State) (f : Fn) (u : FnHdr → FnHdr) : (s.setHdr f u).freeCount = s.freeCount := rfl
@[simp] theorem setHdr_fns (s : State) (f : Fn) (u : FnHdr → FnHdr) : (s.setHdr f u).fns = s.fns.upd (fnId f) u := rfl

/-! ### State.setSf -/

@[simp] theorem setSf_pending (s : State) (n : Nat) (u : SfSt → SfSt) : (s.setSf n u).pending = s.pending := rfl
@[simp] theorem setSf_mod (s : State) (n : Nat) (u : SfSt → SfSt) : (s.setSf n u).mod = s.mod := rfl
@[simp] theorem setSf_fns (s : State) (n : Nat) (u : SfSt → SfSt) : (s.setSf n u).fns = s.fns := rfl
@[simp] theorem setSf_img (s : State) (n : Nat) (u : SfSt → SfSt) : (s.setSf n u).img = s.img := rfl
@[simp] theorem setSf_sections (s : State) (n : Nat) (u : SfSt → SfSt) : (s.setSf n u).sections = s.sections := rfl
@[simp] theorem setSf_imgId (s : State) (n : Nat) (u : SfSt → SfSt) : (s.setSf n u).imgId = s.imgId := rfl
@[simp] theorem setSf_peg (s : State) (n : Nat) (u : SfSt → SfSt) : (s.setSf n u).peg = s.peg := rfl
@[simp] theorem setSf_otp (s : State) (n : Nat) (u : SfSt → SfSt) : (s.setSf n u).otp = s.otp := rfl
@[simp] theorem setSf_banks (s : State) (n : Nat) (u : SfSt → SfSt) : (s.setSf n u).banks = s.banks := rfl
@[simp] theorem setSf_chs (s : State) (n : Nat) (u : SfSt → SfSt) : (s.setSf n u).chs = s.chs := rfl
@[simp] theorem setSf_groups (s : State) (n : Nat) (u : SfSt → SfSt) : (s.setSf n u).groups = s.groups := rfl
@[simp] theorem setSf_points (s : State) (n : Nat) (u : SfSt → SfSt) : (s.setSf n u).points = s.points := rfl
@[simp] theorem setSf_outCurrent (s : State) (n : Nat) (u : SfSt → SfSt) : (s.setSf n u).outCurrent = s.outCurrent := rfl
@[simp] theorem setSf_tu (s : State) (n : Nat) (u : SfSt → SfSt) : (s.setSf n u).tu = s.tu := rfl
@[simp] theorem setSf_alarm (s : State) (n : Nat) (u : SfSt → SfSt) : (s.setSf n u).alarm = s.alarm := rfl
@[simp] theorem setSf_logic (s : State) (n : Nat) (u : SfSt → SfSt) : (s.setSf n u).logic = s.logic := rfl
@[simp] theorem setSf_div (s : State) (n : Nat) (u : SfSt → SfSt) : (s.setSf n u).div = s.div := rfl
@[simp] theorem setSf_divSel (s : State) (n : Nat) (u : SfSt → SfSt) : (s.setSf n u).divSel = s.divSel := rfl
@[simp] theorem setSf_trx (s : State) (n : Nat) (u : SfSt → SfSt) : (s.setSf n u).trx = s.trx := rfl
@[simp] theorem setSf_loops (s : State) (n : Nat) (u : SfSt → SfSt) : (s.setSf n u).loops = s.loops := rfl
@[simp] theorem setSf_axes (s : State) (n : Nat) (u : SfSt → SfSt) : (s.setSf n u).axes = s.axes := rfl
@[simp] theorem setSf_pool (s : State) (n : Nat) (u : SfSt → SfSt) : (s.setSf n u).pool = s.pool := rfl
@[simp] theorem setSf_mmp (s : State) (n : Nat) (u : SfSt → SfSt) : (s.setSf n u).mmp = s.mmp := rfl
@[simp] theorem setSf_can (s : State) (n : Nat) (u : SfSt → SfSt) : (s.setSf n u).can = s.can := rfl
@[simp] theorem setSf_pair (s : State) (n : Nat) (u : SfSt → SfSt) : (s.setSf n u).pair = s.pair := rfl
@[simp] theorem setSf_panel (s : State) (n : Nat) (u : SfSt → SfSt) : (s.setSf n u).panel = s.panel := rfl
@[simp] theorem setSf_recd (s : State) (n : Nat) (u : SfSt → SfSt) : (s.setSf n u).recd = s.recd := rfl
@[simp] theorem setSf_ckpt (s : State) (n : Nat) (u : SfSt → SfSt) : (s.setSf n u).ckpt = s.ckpt := rfl
@[simp] theorem setSf_pi (s : State) (n : Nat) (u : SfSt → SfSt) : (s.setSf n u).pi = s.pi := rfl
@[simp] theorem setSf_taskInbox (s : State) (n : Nat) (u : SfSt → SfSt) : (s.setSf n u).taskInbox = s.taskInbox := rfl
@[simp] theorem setSf_freeCount (s : State) (n : Nat) (u : SfSt → SfSt) : (s.setSf n u).freeCount = s.freeCount := rfl

/-! ### State.setVg -/

@[simp] theorem setVg_pending (s : State) (n : Nat) (u : VgSt → VgSt) : (s.setVg n u).pending = s.pending := rfl
@[simp] theorem setVg_mod (s : State) (n : Nat) (u : VgSt → VgSt) : (s.setVg n u).mod = s.mod := rfl
@[simp] theorem setVg_fns (s : State) (n : Nat) (u : VgSt → VgSt) : (s.setVg n u).fns = s.fns := rfl
@[simp] theorem setVg_img (s : State) (n : Nat) (u : VgSt → VgSt) : (s.setVg n u).img = s.img := rfl
@[simp] theorem setVg_sections (s : State) (n : Nat) (u : VgSt → VgSt) : (s.setVg n u).sections = s.sections := rfl
@[simp] theorem setVg_imgId (s : State) (n : Nat) (u : VgSt → VgSt) : (s.setVg n u).imgId = s.imgId := rfl
@[simp] theorem setVg_peg (s : State) (n : Nat) (u : VgSt → VgSt) : (s.setVg n u).peg = s.peg := rfl
@[simp] theorem setVg_otp (s : State) (n : Nat) (u : VgSt → VgSt) : (s.setVg n u).otp = s.otp := rfl
@[simp] theorem setVg_banks (s : State) (n : Nat) (u : VgSt → VgSt) : (s.setVg n u).banks = s.banks := rfl
@[simp] theorem setVg_chs (s : State) (n : Nat) (u : VgSt → VgSt) : (s.setVg n u).chs = s.chs := rfl
@[simp] theorem setVg_groups (s : State) (n : Nat) (u : VgSt → VgSt) : (s.setVg n u).groups = s.groups := rfl
@[simp] theorem setVg_points (s : State) (n : Nat) (u : VgSt → VgSt) : (s.setVg n u).points = s.points := rfl
@[simp] theorem setVg_outCurrent (s : State) (n : Nat) (u : VgSt → VgSt) : (s.setVg n u).outCurrent = s.outCurrent := rfl
@[simp] theorem setVg_tu (s : State) (n : Nat) (u : VgSt → VgSt) : (s.setVg n u).tu = s.tu := rfl
@[simp] theorem setVg_alarm (s : State) (n : Nat) (u : VgSt → VgSt) : (s.setVg n u).alarm = s.alarm := rfl
@[simp] theorem setVg_logic (s : State) (n : Nat) (u : VgSt → VgSt) : (s.setVg n u).logic = s.logic := rfl
@[simp] theorem setVg_div (s : State) (n : Nat) (u : VgSt → VgSt) : (s.setVg n u).div = s.div := rfl
@[simp] theorem setVg_divSel (s : State) (n : Nat) (u : VgSt → VgSt) : (s.setVg n u).divSel = s.divSel := rfl
@[simp] theorem setVg_trx (s : State) (n : Nat) (u : VgSt → VgSt) : (s.setVg n u).trx = s.trx := rfl
@[simp] theorem setVg_loops (s : State) (n : Nat) (u : VgSt → VgSt) : (s.setVg n u).loops = s.loops := rfl
@[simp] theorem setVg_axes (s : State) (n : Nat) (u : VgSt → VgSt) : (s.setVg n u).axes = s.axes := rfl
@[simp] theorem setVg_pool (s : State) (n : Nat) (u : VgSt → VgSt) : (s.setVg n u).pool = s.pool := rfl
@[simp] theorem setVg_mmp (s : State) (n : Nat) (u : VgSt → VgSt) : (s.setVg n u).mmp = s.mmp := rfl
@[simp] theorem setVg_can (s : State) (n : Nat) (u : VgSt → VgSt) : (s.setVg n u).can = s.can := rfl
@[simp] theorem setVg_pair (s : State) (n : Nat) (u : VgSt → VgSt) : (s.setVg n u).pair = s.pair := rfl
@[simp] theorem setVg_panel (s : State) (n : Nat) (u : VgSt → VgSt) : (s.setVg n u).panel = s.panel := rfl
@[simp] theorem setVg_recd (s : State) (n : Nat) (u : VgSt → VgSt) : (s.setVg n u).recd = s.recd := rfl
@[simp] theorem setVg_ckpt (s : State) (n : Nat) (u : VgSt → VgSt) : (s.setVg n u).ckpt = s.ckpt := rfl
@[simp] theorem setVg_pi (s : State) (n : Nat) (u : VgSt → VgSt) : (s.setVg n u).pi = s.pi := rfl
@[simp] theorem setVg_taskInbox (s : State) (n : Nat) (u : VgSt → VgSt) : (s.setVg n u).taskInbox = s.taskInbox := rfl
@[simp] theorem setVg_freeCount (s : State) (n : Nat) (u : VgSt → VgSt) : (s.setVg n u).freeCount = s.freeCount := rfl

/-! ### State.setSto -/

@[simp] theorem setSto_pending (s : State) (n : Nat) (u : StoSt → StoSt) : (s.setSto n u).pending = s.pending := rfl
@[simp] theorem setSto_mod (s : State) (n : Nat) (u : StoSt → StoSt) : (s.setSto n u).mod = s.mod := rfl
@[simp] theorem setSto_fns (s : State) (n : Nat) (u : StoSt → StoSt) : (s.setSto n u).fns = s.fns := rfl
@[simp] theorem setSto_img (s : State) (n : Nat) (u : StoSt → StoSt) : (s.setSto n u).img = s.img := rfl
@[simp] theorem setSto_sections (s : State) (n : Nat) (u : StoSt → StoSt) : (s.setSto n u).sections = s.sections := rfl
@[simp] theorem setSto_imgId (s : State) (n : Nat) (u : StoSt → StoSt) : (s.setSto n u).imgId = s.imgId := rfl
@[simp] theorem setSto_peg (s : State) (n : Nat) (u : StoSt → StoSt) : (s.setSto n u).peg = s.peg := rfl
@[simp] theorem setSto_otp (s : State) (n : Nat) (u : StoSt → StoSt) : (s.setSto n u).otp = s.otp := rfl
@[simp] theorem setSto_banks (s : State) (n : Nat) (u : StoSt → StoSt) : (s.setSto n u).banks = s.banks := rfl
@[simp] theorem setSto_chs (s : State) (n : Nat) (u : StoSt → StoSt) : (s.setSto n u).chs = s.chs := rfl
@[simp] theorem setSto_groups (s : State) (n : Nat) (u : StoSt → StoSt) : (s.setSto n u).groups = s.groups := rfl
@[simp] theorem setSto_points (s : State) (n : Nat) (u : StoSt → StoSt) : (s.setSto n u).points = s.points := rfl
@[simp] theorem setSto_outCurrent (s : State) (n : Nat) (u : StoSt → StoSt) : (s.setSto n u).outCurrent = s.outCurrent := rfl
@[simp] theorem setSto_tu (s : State) (n : Nat) (u : StoSt → StoSt) : (s.setSto n u).tu = s.tu := rfl
@[simp] theorem setSto_alarm (s : State) (n : Nat) (u : StoSt → StoSt) : (s.setSto n u).alarm = s.alarm := rfl
@[simp] theorem setSto_logic (s : State) (n : Nat) (u : StoSt → StoSt) : (s.setSto n u).logic = s.logic := rfl
@[simp] theorem setSto_div (s : State) (n : Nat) (u : StoSt → StoSt) : (s.setSto n u).div = s.div := rfl
@[simp] theorem setSto_divSel (s : State) (n : Nat) (u : StoSt → StoSt) : (s.setSto n u).divSel = s.divSel := rfl
@[simp] theorem setSto_trx (s : State) (n : Nat) (u : StoSt → StoSt) : (s.setSto n u).trx = s.trx := rfl
@[simp] theorem setSto_loops (s : State) (n : Nat) (u : StoSt → StoSt) : (s.setSto n u).loops = s.loops := rfl
@[simp] theorem setSto_axes (s : State) (n : Nat) (u : StoSt → StoSt) : (s.setSto n u).axes = s.axes := rfl
@[simp] theorem setSto_pool (s : State) (n : Nat) (u : StoSt → StoSt) : (s.setSto n u).pool = s.pool := rfl
@[simp] theorem setSto_mmp (s : State) (n : Nat) (u : StoSt → StoSt) : (s.setSto n u).mmp = s.mmp := rfl
@[simp] theorem setSto_can (s : State) (n : Nat) (u : StoSt → StoSt) : (s.setSto n u).can = s.can := rfl
@[simp] theorem setSto_pair (s : State) (n : Nat) (u : StoSt → StoSt) : (s.setSto n u).pair = s.pair := rfl
@[simp] theorem setSto_panel (s : State) (n : Nat) (u : StoSt → StoSt) : (s.setSto n u).panel = s.panel := rfl
@[simp] theorem setSto_recd (s : State) (n : Nat) (u : StoSt → StoSt) : (s.setSto n u).recd = s.recd := rfl
@[simp] theorem setSto_ckpt (s : State) (n : Nat) (u : StoSt → StoSt) : (s.setSto n u).ckpt = s.ckpt := rfl
@[simp] theorem setSto_pi (s : State) (n : Nat) (u : StoSt → StoSt) : (s.setSto n u).pi = s.pi := rfl
@[simp] theorem setSto_taskInbox (s : State) (n : Nat) (u : StoSt → StoSt) : (s.setSto n u).taskInbox = s.taskInbox := rfl
@[simp] theorem setSto_freeCount (s : State) (n : Nat) (u : StoSt → StoSt) : (s.setSto n u).freeCount = s.freeCount := rfl

/-! ### State.setBsl -/

@[simp] theorem setBsl_pending (s : State) (n : Nat) (u : BslSt → BslSt) : (s.setBsl n u).pending = s.pending := rfl
@[simp] theorem setBsl_mod (s : State) (n : Nat) (u : BslSt → BslSt) : (s.setBsl n u).mod = s.mod := rfl
@[simp] theorem setBsl_fns (s : State) (n : Nat) (u : BslSt → BslSt) : (s.setBsl n u).fns = s.fns := rfl
@[simp] theorem setBsl_img (s : State) (n : Nat) (u : BslSt → BslSt) : (s.setBsl n u).img = s.img := rfl
@[simp] theorem setBsl_sections (s : State) (n : Nat) (u : BslSt → BslSt) : (s.setBsl n u).sections = s.sections := rfl
@[simp] theorem setBsl_imgId (s : State) (n : Nat) (u : BslSt → BslSt) : (s.setBsl n u).imgId = s.imgId := rfl
@[simp] theorem setBsl_peg (s : State) (n : Nat) (u : BslSt → BslSt) : (s.setBsl n u).peg = s.peg := rfl
@[simp] theorem setBsl_otp (s : State) (n : Nat) (u : BslSt → BslSt) : (s.setBsl n u).otp = s.otp := rfl
@[simp] theorem setBsl_banks (s : State) (n : Nat) (u : BslSt → BslSt) : (s.setBsl n u).banks = s.banks := rfl
@[simp] theorem setBsl_chs (s : State) (n : Nat) (u : BslSt → BslSt) : (s.setBsl n u).chs = s.chs := rfl
@[simp] theorem setBsl_groups (s : State) (n : Nat) (u : BslSt → BslSt) : (s.setBsl n u).groups = s.groups := rfl
@[simp] theorem setBsl_points (s : State) (n : Nat) (u : BslSt → BslSt) : (s.setBsl n u).points = s.points := rfl
@[simp] theorem setBsl_outCurrent (s : State) (n : Nat) (u : BslSt → BslSt) : (s.setBsl n u).outCurrent = s.outCurrent := rfl
@[simp] theorem setBsl_tu (s : State) (n : Nat) (u : BslSt → BslSt) : (s.setBsl n u).tu = s.tu := rfl
@[simp] theorem setBsl_alarm (s : State) (n : Nat) (u : BslSt → BslSt) : (s.setBsl n u).alarm = s.alarm := rfl
@[simp] theorem setBsl_logic (s : State) (n : Nat) (u : BslSt → BslSt) : (s.setBsl n u).logic = s.logic := rfl
@[simp] theorem setBsl_div (s : State) (n : Nat) (u : BslSt → BslSt) : (s.setBsl n u).div = s.div := rfl
@[simp] theorem setBsl_divSel (s : State) (n : Nat) (u : BslSt → BslSt) : (s.setBsl n u).divSel = s.divSel := rfl
@[simp] theorem setBsl_trx (s : State) (n : Nat) (u : BslSt → BslSt) : (s.setBsl n u).trx = s.trx := rfl
@[simp] theorem setBsl_loops (s : State) (n : Nat) (u : BslSt → BslSt) : (s.setBsl n u).loops = s.loops := rfl
@[simp] theorem setBsl_axes (s : State) (n : Nat) (u : BslSt → BslSt) : (s.setBsl n u).axes = s.axes := rfl
@[simp] theorem setBsl_pool (s : State) (n : Nat) (u : BslSt → BslSt) : (s.setBsl n u).pool = s.pool := rfl
@[simp] theorem setBsl_mmp (s : State) (n : Nat) (u : BslSt → BslSt) : (s.setBsl n u).mmp = s.mmp := rfl
@[simp] theorem setBsl_can (s : State) (n : Nat) (u : BslSt → BslSt) : (s.setBsl n u).can = s.can := rfl
@[simp] theorem setBsl_pair (s : State) (n : Nat) (u : BslSt → BslSt) : (s.setBsl n u).pair = s.pair := rfl
@[simp] theorem setBsl_panel (s : State) (n : Nat) (u : BslSt → BslSt) : (s.setBsl n u).panel = s.panel := rfl
@[simp] theorem setBsl_recd (s : State) (n : Nat) (u : BslSt → BslSt) : (s.setBsl n u).recd = s.recd := rfl
@[simp] theorem setBsl_ckpt (s : State) (n : Nat) (u : BslSt → BslSt) : (s.setBsl n u).ckpt = s.ckpt := rfl
@[simp] theorem setBsl_pi (s : State) (n : Nat) (u : BslSt → BslSt) : (s.setBsl n u).pi = s.pi := rfl
@[simp] theorem setBsl_taskInbox (s : State) (n : Nat) (u : BslSt → BslSt) : (s.setBsl n u).taskInbox = s.taskInbox := rfl
@[simp] theorem setBsl_freeCount (s : State) (n : Nat) (u : BslSt → BslSt) : (s.setBsl n u).freeCount = s.freeCount := rfl

/-! ### State.setPt -/

@[simp] theorem setPt_pending (s : State) (n : Nat) (u : AlmPt → AlmPt) : (s.setPt n u).pending = s.pending := rfl
@[simp] theorem setPt_mod (s : State) (n : Nat) (u : AlmPt → AlmPt) : (s.setPt n u).mod = s.mod := rfl
@[simp] theorem setPt_fns (s : State) (n : Nat) (u : AlmPt → AlmPt) : (s.setPt n u).fns = s.fns := rfl
@[simp] theorem setPt_img (s : State) (n : Nat) (u : AlmPt → AlmPt) : (s.setPt n u).img = s.img := rfl
@[simp] theorem setPt_sections (s : State) (n : Nat) (u : AlmPt → AlmPt) : (s.setPt n u).sections = s.sections := rfl
@[simp] theorem setPt_imgId (s : State) (n : Nat) (u : AlmPt → AlmPt) : (s.setPt n u).imgId = s.imgId := rfl
@[simp] theorem setPt_peg (s : State) (n : Nat) (u : AlmPt → AlmPt) : (s.setPt n u).peg = s.peg := rfl
@[simp] theorem setPt_otp (s : State) (n : Nat) (u : AlmPt → AlmPt) : (s.setPt n u).otp = s.otp := rfl
@[simp] theorem setPt_banks (s : State) (n : Nat) (u : AlmPt → AlmPt) : (s.setPt n u).banks = s.banks := rfl
@[simp] theorem setPt_chs (s : State) (n : Nat) (u : AlmPt → AlmPt) : (s.setPt n u).chs = s.chs := rfl
@[simp] theorem setPt_groups (s : State) (n : Nat) (u : AlmPt → AlmPt) : (s.setPt n u).groups = s.groups := rfl
@[simp] theorem setPt_points (s : State) (n : Nat) (u : AlmPt → AlmPt) : (s.setPt n u).points = s.points := rfl
@[simp] theorem setPt_outCurrent (s : State) (n : Nat) (u : AlmPt → AlmPt) : (s.setPt n u).outCurrent = s.outCurrent := rfl
@[simp] theorem setPt_tu (s : State) (n : Nat) (u : AlmPt → AlmPt) : (s.setPt n u).tu = s.tu := rfl
@[simp] theorem setPt_logic (s : State) (n : Nat) (u : AlmPt → AlmPt) : (s.setPt n u).logic = s.logic := rfl
@[simp] theorem setPt_div (s : State) (n : Nat) (u : AlmPt → AlmPt) : (s.setPt n u).div = s.div := rfl
@[simp] theorem setPt_divSel (s : State) (n : Nat) (u : AlmPt → AlmPt) : (s.setPt n u).divSel = s.divSel := rfl
@[simp] theorem setPt_trx (s : State) (n : Nat) (u : AlmPt → AlmPt) : (s.setPt n u).trx = s.trx := rfl
@[simp] theorem setPt_loops (s : State) (n : Nat) (u : AlmPt → AlmPt) : (s.setPt n u).loops = s.loops := rfl
@[simp] theorem setPt_axes (s : State) (n : Nat) (u : AlmPt → AlmPt) : (s.setPt n u).axes = s.axes := rfl
@[simp] theorem setPt_bedrock (s : State) (n : Nat) (u : AlmPt → AlmPt) : (s.setPt n u).bedrock = s.bedrock := rfl
@[simp] theorem setPt_pool (s : State) (n : Nat) (u : AlmPt → AlmPt) : (s.setPt n u).pool = s.pool := rfl
@[simp] theorem setPt_mmp (s : State) (n : Nat) (u : AlmPt → AlmPt) : (s.setPt n u).mmp = s.mmp := rfl
@[simp] theorem setPt_can (s : State) (n : Nat) (u : AlmPt → AlmPt) : (s.setPt n u).can = s.can := rfl
@[simp] theorem setPt_pair (s : State) (n : Nat) (u : AlmPt → AlmPt) : (s.setPt n u).pair = s.pair := rfl
@[simp] theorem setPt_panel (s : State) (n : Nat) (u : AlmPt → AlmPt) : (s.setPt n u).panel = s.panel := rfl
@[simp] theorem setPt_recd (s : State) (n : Nat) (u : AlmPt → AlmPt) : (s.setPt n u).recd = s.recd := rfl
@[simp] theorem setPt_ckpt (s : State) (n : Nat) (u : AlmPt → AlmPt) : (s.setPt n u).ckpt = s.ckpt := rfl
@[simp] theorem setPt_pi (s : State) (n : Nat) (u : AlmPt → AlmPt) : (s.setPt n u).pi = s.pi := rfl
@[simp] theorem setPt_taskInbox (s : State) (n : Nat) (u : AlmPt → AlmPt) : (s.setPt n u).taskInbox = s.taskInbox := rfl
@[simp] theorem setPt_freeCount (s : State) (n : Nat) (u : AlmPt → AlmPt) : (s.setPt n u).freeCount = s.freeCount := rfl

/-! ### State.setGrp -/

@[simp] theorem setGrp_pending (s : State) (n : Nat) (u : AlmGrp → AlmGrp) : (s.setGrp n u).pending = s.pending := rfl
@[simp] theorem setGrp_mod (s : State) (n : Nat) (u : AlmGrp → AlmGrp) : (s.setGrp n u).mod = s.mod := rfl
@[simp] theorem setGrp_fns (s : State) (n : Nat) (u : AlmGrp → AlmGrp) : (s.setGrp n u).fns = s.fns := rfl
@[simp] theorem setGrp_img (s : State) (n : Nat) (u : AlmGrp → AlmGrp) : (s.setGrp n u).img = s.img := rfl
@[simp] theorem setGrp_sections (s : State) (n : Nat) (u : AlmGrp → AlmGrp) : (s.setGrp n u).sections = s.sections := rfl
@[simp] theorem setGrp_imgId (s : State) (n : Nat) (u : AlmGrp → AlmGrp) : (s.setGrp n u).imgId = s.imgId := rfl
@[simp] theorem setGrp_peg (s : State) (n : Nat) (u : AlmGrp → AlmGrp) : (s.setGrp n u).peg = s.peg := rfl
@[simp] theorem setGrp_otp (s : State) (n : Nat) (u : AlmGrp → AlmGrp) : (s.setGrp n u).otp = s.otp := rfl
@[simp] theorem setGrp_banks (s : State) (n : Nat) (u : AlmGrp → AlmGrp) : (s.setGrp n u).banks = s.banks := rfl
@[simp] theorem setGrp_chs (s : State) (n : Nat) (u : AlmGrp → AlmGrp) : (s.setGrp n u).chs = s.chs := rfl
@[simp] theorem setGrp_groups (s : State) (n : Nat) (u : AlmGrp → AlmGrp) : (s.setGrp n u).groups = s.groups := rfl
@[simp] theorem setGrp_points (s : State) (n : Nat) (u : AlmGrp → AlmGrp) : (s.setGrp n u).points = s.points := rfl
@[simp] theorem setGrp_outCurrent (s : State) (n : Nat) (u : AlmGrp → AlmGrp) : (s.setGrp n u).outCurrent = s.outCurrent := rfl
@[simp] theorem setGrp_tu (s : State) (n : Nat) (u : AlmGrp → AlmGrp) : (s.setGrp n u).tu = s.tu := rfl
@[simp] theorem setGrp_logic (s : State) (n : Nat) (u : AlmGrp → AlmGrp) : (s.setGrp n u).logic = s.logic := rfl
@[simp] theorem setGrp_div (s : State) (n : Nat) (u : AlmGrp → AlmGrp) : (s.setGrp n u).div = s.div := rfl
@[simp] theorem setGrp_divSel (s : State) (n : Nat) (u : AlmGrp → AlmGrp) : (s.setGrp n u).divSel = s.divSel := rfl
@[simp] theorem setGrp_trx (s : State) (n : Nat) (u : AlmGrp → AlmGrp) : (s.setGrp n u).trx = s.trx := rfl
@[simp] theorem setGrp_loops (s : State) (n : Nat) (u : AlmGrp → AlmGrp) : (s.setGrp n u).loops = s.loops := rfl
@[simp] theorem setGrp_axes (s : State) (n : Nat) (u : AlmGrp → AlmGrp) : (s.setGrp n u).axes = s.axes := rfl
@[simp] theorem setGrp_bedrock (s : State) (n : Nat) (u : AlmGrp → AlmGrp) : (s.setGrp n u).bedrock = s.bedrock := rfl
@[simp] theorem setGrp_pool (s : State) (n : Nat) (u : AlmGrp → AlmGrp) : (s.setGrp n u).pool = s.pool := rfl
@[simp] theorem setGrp_mmp (s : State) (n : Nat) (u : AlmGrp → AlmGrp) : (s.setGrp n u).mmp = s.mmp := rfl
@[simp] theorem setGrp_can (s : State) (n : Nat) (u : AlmGrp → AlmGrp) : (s.setGrp n u).can = s.can := rfl
@[simp] theorem setGrp_pair (s : State) (n : Nat) (u : AlmGrp → AlmGrp) : (s.setGrp n u).pair = s.pair := rfl
@[simp] theorem setGrp_panel (s : State) (n : Nat) (u : AlmGrp → AlmGrp) : (s.setGrp n u).panel = s.panel := rfl
@[simp] theorem setGrp_recd (s : State) (n : Nat) (u : AlmGrp → AlmGrp) : (s.setGrp n u).recd = s.recd := rfl
@[simp] theorem setGrp_ckpt (s : State) (n : Nat) (u : AlmGrp → AlmGrp) : (s.setGrp n u).ckpt = s.ckpt := rfl
@[simp] theorem setGrp_pi (s : State) (n : Nat) (u : AlmGrp → AlmGrp) : (s.setGrp n u).pi = s.pi := rfl
@[simp] theorem setGrp_taskInbox (s : State) (n : Nat) (u : AlmGrp → AlmGrp) : (s.setGrp n u).taskInbox = s.taskInbox := rfl
@[simp] theorem setGrp_freeCount (s : State) (n : Nat) (u : AlmGrp → AlmGrp) : (s.setGrp n u).freeCount = s.freeCount := rfl

/-! ### State.setTask -/

@[simp] theorem setTask_pending (s : State) (n : Nat) (u : TaskSt → TaskSt) : (s.setTask n u).pending = s.pending := rfl
@[simp] theorem setTask_mod (s : State) (n : Nat) (u : TaskSt → TaskSt) : (s.setTask n u).mod = s.mod := rfl
@[simp] theorem setTask_fns (s : State) (n : Nat) (u : TaskSt → TaskSt) : (s.setTask n u).fns = s.fns := rfl
@[simp] theorem setTask_img (s : State) (n : Nat) (u : TaskSt → TaskSt) : (s.setTask n u).img = s.img := rfl
@[simp] theorem setTask_sections (s : State) (n : Nat) (u : TaskSt → TaskSt) : (s.setTask n u).sections = s.sections := rfl
@[simp] theorem setTask_imgId (s : State) (n : Nat) (u : TaskSt → TaskSt) : (s.setTask n u).imgId = s.imgId := rfl
@[simp] theorem setTask_peg (s : State) (n : Nat) (u : TaskSt → TaskSt) : (s.setTask n u).peg = s.peg := rfl
@[simp] theorem setTask_otp (s : State) (n : Nat) (u : TaskSt → TaskSt) : (s.setTask n u).otp = s.otp := rfl
@[simp] theorem setTask_banks (s : State) (n : Nat) (u : TaskSt → TaskSt) : (s.setTask n u).banks = s.banks := rfl
@[simp] theorem setTask_chs (s : State) (n : Nat) (u : TaskSt → TaskSt) : (s.setTask n u).chs = s.chs := rfl
@[simp] theorem setTask_groups (s : State) (n : Nat) (u : TaskSt → TaskSt) : (s.setTask n u).groups = s.groups := rfl
@[simp] theorem setTask_points (s : State) (n : Nat) (u : TaskSt → TaskSt) : (s.setTask n u).points = s.points := rfl
@[simp] theorem setTask_outCurrent (s : State) (n : Nat) (u : TaskSt → TaskSt) : (s.setTask n u).outCurrent = s.outCurrent := rfl
@[simp] theorem setTask_tu (s : State) (n : Nat) (u : TaskSt → TaskSt) : (s.setTask n u).tu = s.tu := rfl
@[simp] theorem setTask_alarm (s : State) (n : Nat) (u : TaskSt → TaskSt) : (s.setTask n u).alarm = s.alarm := rfl
@[simp] theorem setTask_div (s : State) (n : Nat) (u : TaskSt → TaskSt) : (s.setTask n u).div = s.div := rfl
@[simp] theorem setTask_divSel (s : State) (n : Nat) (u : TaskSt → TaskSt) : (s.setTask n u).divSel = s.divSel := rfl
@[simp] theorem setTask_trx (s : State) (n : Nat) (u : TaskSt → TaskSt) : (s.setTask n u).trx = s.trx := rfl
@[simp] theorem setTask_loops (s : State) (n : Nat) (u : TaskSt → TaskSt) : (s.setTask n u).loops = s.loops := rfl
@[simp] theorem setTask_axes (s : State) (n : Nat) (u : TaskSt → TaskSt) : (s.setTask n u).axes = s.axes := rfl
@[simp] theorem setTask_bedrock (s : State) (n : Nat) (u : TaskSt → TaskSt) : (s.setTask n u).bedrock = s.bedrock := rfl
@[simp] theorem setTask_pool (s : State) (n : Nat) (u : TaskSt → TaskSt) : (s.setTask n u).pool = s.pool := rfl
@[simp] theorem setTask_mmp (s : State) (n : Nat) (u : TaskSt → TaskSt) : (s.setTask n u).mmp = s.mmp := rfl
@[simp] theorem setTask_can (s : State) (n : Nat) (u : TaskSt → TaskSt) : (s.setTask n u).can = s.can := rfl
@[simp] theorem setTask_pair (s : State) (n : Nat) (u : TaskSt → TaskSt) : (s.setTask n u).pair = s.pair := rfl
@[simp] theorem setTask_panel (s : State) (n : Nat) (u : TaskSt → TaskSt) : (s.setTask n u).panel = s.panel := rfl
@[simp] theorem setTask_recd (s : State) (n : Nat) (u : TaskSt → TaskSt) : (s.setTask n u).recd = s.recd := rfl
@[simp] theorem setTask_ckpt (s : State) (n : Nat) (u : TaskSt → TaskSt) : (s.setTask n u).ckpt = s.ckpt := rfl
@[simp] theorem setTask_pi (s : State) (n : Nat) (u : TaskSt → TaskSt) : (s.setTask n u).pi = s.pi := rfl
@[simp] theorem setTask_taskInbox (s : State) (n : Nat) (u : TaskSt → TaskSt) : (s.setTask n u).taskInbox = s.taskInbox := rfl
@[simp] theorem setTask_freeCount (s : State) (n : Nat) (u : TaskSt → TaskSt) : (s.setTask n u).freeCount = s.freeCount := rfl

/-! ### State.setLp -/

@[simp] theorem setLp_pending (s : State) (n : Nat) (u : LpSt → LpSt) : (s.setLp n u).pending = s.pending := rfl
@[simp] theorem setLp_mod (s : State) (n : Nat) (u : LpSt → LpSt) : (s.setLp n u).mod = s.mod := rfl
@[simp] theorem setLp_fns (s : State) (n : Nat) (u : LpSt → LpSt) : (s.setLp n u).fns = s.fns := rfl
@[simp] theorem setLp_img (s : State) (n : Nat) (u : LpSt → LpSt) : (s.setLp n u).img = s.img := rfl
@[simp] theorem setLp_sections (s : State) (n : Nat) (u : LpSt → LpSt) : (s.setLp n u).sections = s.sections := rfl
@[simp] theorem setLp_imgId (s : State) (n : Nat) (u : LpSt → LpSt) : (s.setLp n u).imgId = s.imgId := rfl
@[simp] theorem setLp_peg (s : State) (n : Nat) (u : LpSt → LpSt) : (s.setLp n u).peg = s.peg := rfl
@[simp] theorem setLp_otp (s : State) (n : Nat) (u : LpSt → LpSt) : (s.setLp n u).otp = s.otp := rfl
@[simp] theorem setLp_banks (s : State) (n : Nat) (u : LpSt → LpSt) : (s.setLp n u).banks = s.banks := rfl
@[simp] theorem setLp_chs (s : State) (n : Nat) (u : LpSt → LpSt) : (s.setLp n u).chs = s.chs := rfl
@[simp] theorem setLp_groups (s : State) (n : Nat) (u : LpSt → LpSt) : (s.setLp n u).groups = s.groups := rfl
@[simp] theorem setLp_points (s : State) (n : Nat) (u : LpSt → LpSt) : (s.setLp n u).points = s.points := rfl
@[simp] theorem setLp_outCurrent (s : State) (n : Nat) (u : LpSt → LpSt) : (s.setLp n u).outCurrent = s.outCurrent := rfl
@[simp] theorem setLp_tu (s : State) (n : Nat) (u : LpSt → LpSt) : (s.setLp n u).tu = s.tu := rfl
@[simp] theorem setLp_alarm (s : State) (n : Nat) (u : LpSt → LpSt) : (s.setLp n u).alarm = s.alarm := rfl
@[simp] theorem setLp_logic (s : State) (n : Nat) (u : LpSt → LpSt) : (s.setLp n u).logic = s.logic := rfl
@[simp] theorem setLp_div (s : State) (n : Nat) (u : LpSt → LpSt) : (s.setLp n u).div = s.div := rfl
@[simp] theorem setLp_divSel (s : State) (n : Nat) (u : LpSt → LpSt) : (s.setLp n u).divSel = s.divSel := rfl
@[simp] theorem setLp_trx (s : State) (n : Nat) (u : LpSt → LpSt) : (s.setLp n u).trx = s.trx := rfl
@[simp] theorem setLp_axes (s : State) (n : Nat) (u : LpSt → LpSt) : (s.setLp n u).axes = s.axes := rfl
@[simp] theorem setLp_bedrock (s : State) (n : Nat) (u : LpSt → LpSt) : (s.setLp n u).bedrock = s.bedrock := rfl
@[simp] theorem setLp_pool (s : State) (n : Nat) (u : LpSt → LpSt) : (s.setLp n u).pool = s.pool := rfl
@[simp] theorem setLp_mmp (s : State) (n : Nat) (u : LpSt → LpSt) : (s.setLp n u).mmp = s.mmp := rfl
@[simp] theorem setLp_can (s : State) (n : Nat) (u : LpSt → LpSt) : (s.setLp n u).can = s.can := rfl
@[simp] theorem setLp_pair (s : State) (n : Nat) (u : LpSt → LpSt) : (s.setLp n u).pair = s.pair := rfl
@[simp] theorem setLp_panel (s : State) (n : Nat) (u : LpSt → LpSt) : (s.setLp n u).panel = s.panel := rfl
@[simp] theorem setLp_recd (s : State) (n : Nat) (u : LpSt → LpSt) : (s.setLp n u).recd = s.recd := rfl
@[simp] theorem setLp_ckpt (s : State) (n : Nat) (u : LpSt → LpSt) : (s.setLp n u).ckpt = s.ckpt := rfl
@[simp] theorem setLp_pi (s : State) (n : Nat) (u : LpSt → LpSt) : (s.setLp n u).pi = s.pi := rfl
@[simp] theorem setLp_taskInbox (s : State) (n : Nat) (u : LpSt → LpSt) : (s.setLp n u).taskInbox = s.taskInbox := rfl
@[simp] theorem setLp_freeCount (s : State) (n : Nat) (u : LpSt → LpSt) : (s.setLp n u).freeCount = s.freeCount := rfl

/-! ### State.setTest -/

@[simp] theorem setTest_pending (s : State) (u : TestSt → TestSt) : (s.setTest u).pending = s.pending := rfl
@[simp] theorem setTest_mod (s : State) (u : TestSt → TestSt) : (s.setTest u).mod = s.mod := rfl
@[simp] theorem setTest_fns (s : State) (u : TestSt → TestSt) : (s.setTest u).fns = s.fns := rfl
@[simp] theorem setTest_img (s : State) (u : TestSt → TestSt) : (s.setTest u).img = s.img := rfl
@[simp] theorem setTest_sections (s : State) (u : TestSt → TestSt) : (s.setTest u).sections = s.sections := rfl
@[simp] theorem setTest_imgId (s : State) (u : TestSt → TestSt) : (s.setTest u).imgId = s.imgId := rfl
@[simp] theorem setTest_peg (s : State) (u : TestSt → TestSt) : (s.setTest u).peg = s.peg := rfl
@[simp] theorem setTest_otp (s : State) (u : TestSt → TestSt) : (s.setTest u).otp = s.otp := rfl
@[simp] theorem setTest_banks (s : State) (u : TestSt → TestSt) : (s.setTest u).banks = s.banks := rfl
@[simp] theorem setTest_chs (s : State) (u : TestSt → TestSt) : (s.setTest u).chs = s.chs := rfl
@[simp] theorem setTest_groups (s : State) (u : TestSt → TestSt) : (s.setTest u).groups = s.groups := rfl
@[simp] theorem setTest_points (s : State) (u : TestSt → TestSt) : (s.setTest u).points = s.points := rfl
@[simp] theorem setTest_outCurrent (s : State) (u : TestSt → TestSt) : (s.setTest u).outCurrent = s.outCurrent := rfl
@[simp] theorem setTest_tu (s : State) (u : TestSt → TestSt) : (s.setTest u).tu = s.tu := rfl
@[simp] theorem setTest_alarm (s : State) (u : TestSt → TestSt) : (s.setTest u).alarm = s.alarm := rfl
@[simp] theorem setTest_logic (s : State) (u : TestSt → TestSt) : (s.setTest u).logic = s.logic := rfl
@[simp] theorem setTest_div (s : State) (u : TestSt → TestSt) : (s.setTest u).div = s.div := rfl
@[simp] theorem setTest_divSel (s : State) (u : TestSt → TestSt) : (s.setTest u).divSel = s.divSel := rfl
@[simp] theorem setTest_trx (s : State) (u : TestSt → TestSt) : (s.setTest u).trx = s.trx := rfl
@[simp] theorem setTest_axes (s : State) (u : TestSt → TestSt) : (s.setTest u).axes = s.axes := rfl
@[simp] theorem setTest_bedrock (s : State) (u : TestSt → TestSt) : (s.setTest u).bedrock = s.bedrock := rfl
@[simp] theorem setTest_pool (s : State) (u : TestSt → TestSt) : (s.setTest u).pool = s.pool := rfl
@[simp] theorem setTest_mmp (s : State) (u : TestSt → TestSt) : (s.setTest u).mmp = s.mmp := rfl
@[simp] theorem setTest_can (s : State) (u : TestSt → TestSt) : (s.setTest u).can = s.can := rfl
@[simp] theorem setTest_pair (s : State) (u : TestSt → TestSt) : (s.setTest u).pair = s.pair := rfl
@[simp] theorem setTest_panel (s : State) (u : TestSt → TestSt) : (s.setTest u).panel = s.panel := rfl
@[simp] theorem setTest_recd (s : State) (u : TestSt → TestSt) : (s.setTest u).recd = s.recd := rfl
@[simp] theorem setTest_ckpt (s : State) (u : TestSt → TestSt) : (s.setTest u).ckpt = s.ckpt := rfl
@[simp] theorem setTest_pi (s : State) (u : TestSt → TestSt) : (s.setTest u).pi = s.pi := rfl
@[simp] theorem setTest_taskInbox (s : State) (u : TestSt → TestSt) : (s.setTest u).taskInbox = s.taskInbox := rfl
@[simp] theorem setTest_freeCount (s : State) (u : TestSt → TestSt) : (s.setTest u).freeCount = s.freeCount := rfl

/-! ### State.setPi -/

@[simp] theorem setPi_pending (s : State) (i : Nat) (v : Qv) : (s.setPi i v).pending = s.pending := rfl
@[simp] theorem setPi_mod (s : State) (i : Nat) (v : Qv) : (s.setPi i v).mod = s.mod := rfl
@[simp] theorem setPi_fns (s : State) (i : Nat) (v : Qv) : (s.setPi i v).fns = s.fns := rfl
@[simp] theorem setPi_img (s : State) (i : Nat) (v : Qv) : (s.setPi i v).img = s.img := rfl
@[simp] theorem setPi_sections (s : State) (i : Nat) (v : Qv) : (s.setPi i v).sections = s.sections := rfl
@[simp] theorem setPi_imgId (s : State) (i : Nat) (v : Qv) : (s.setPi i v).imgId = s.imgId := rfl
@[simp] theorem setPi_peg (s : State) (i : Nat) (v : Qv) : (s.setPi i v).peg = s.peg := rfl
@[simp] theorem setPi_otp (s : State) (i : Nat) (v : Qv) : (s.setPi i v).otp = s.otp := rfl
@[simp] theorem setPi_banks (s : State) (i : Nat) (v : Qv) : (s.setPi i v).banks = s.banks := rfl
@[simp] theorem setPi_chs (s : State) (i : Nat) (v : Qv) : (s.setPi i v).chs = s.chs := rfl
@[simp] theorem setPi_groups (s : State) (i : Nat) (v : Qv) : (s.setPi i v).groups = s.groups := rfl
@[simp] theorem setPi_points (s : State) (i : Nat) (v : Qv) : (s.setPi i v).points = s.points := rfl
@[simp] theorem setPi_outCurrent (s : State) (i : Nat) (v : Qv) : (s.setPi i v).outCurrent = s.outCurrent := rfl
@[simp] theorem setPi_tu (s : State) (i : Nat) (v : Qv) : (s.setPi i v).tu = s.tu := rfl
@[simp] theorem setPi_alarm (s : State) (i : Nat) (v : Qv) : (s.setPi i v).alarm = s.alarm := rfl
@[simp] theorem setPi_logic (s : State) (i : Nat) (v : Qv) : (s.setPi i v).logic = s.logic := rfl
@[simp] theorem setPi_div (s : State) (i : Nat) (v : Qv) : (s.setPi i v).div = s.div := rfl
@[simp] theorem setPi_divSel (s : State) (i : Nat) (v : Qv) : (s.setPi i v).divSel = s.divSel := rfl
@[simp] theorem setPi_trx (s : State) (i : Nat) (v : Qv) : (s.setPi i v).trx = s.trx := rfl
@[simp] theorem setPi_loops (s : State) (i : Nat) (v : Qv) : (s.setPi i v).loops = s.loops := rfl
@[simp] theorem setPi_axes (s : State) (i : Nat) (v : Qv) : (s.setPi i v).axes = s.axes := rfl
@[simp] theorem setPi_bedrock (s : State) (i : Nat) (v : Qv) : (s.setPi i v).bedrock = s.bedrock := rfl
@[simp] theorem setPi_pool (s : State) (i : Nat) (v : Qv) : (s.setPi i v).pool = s.pool := rfl
@[simp] theorem setPi_mmp (s : State) (i : Nat) (v : Qv) : (s.setPi i v).mmp = s.mmp := rfl
@[simp] theorem setPi_can (s : State) (i : Nat) (v : Qv) : (s.setPi i v).can = s.can := rfl
@[simp] theorem setPi_pair (s : State) (i : Nat) (v : Qv) : (s.setPi i v).pair = s.pair := rfl
@[simp] theorem setPi_panel (s : State) (i : Nat) (v : Qv) : (s.setPi i v).panel = s.panel := rfl
@[simp] theorem setPi_recd (s : State) (i : Nat) (v : Qv) : (s.setPi i v).recd = s.recd := rfl
@[simp] theorem setPi_ckpt (s : State) (i : Nat) (v : Qv) : (s.setPi i v).ckpt = s.ckpt := rfl
@[simp] theorem setPi_taskInbox (s : State) (i : Nat) (v : Qv) : (s.setPi i v).taskInbox = s.taskInbox := rfl
@[simp] theorem setPi_freeCount (s : State) (i : Nat) (v : Qv) : (s.setPi i v).freeCount = s.freeCount := rfl
@[simp] theorem setPi_pi (s : State) (i : Nat) (v : Qv) : (s.setPi i v).pi = s.pi.put i (some v) := rfl

/-! ### Reads of one entry after a write -/

@[simp] theorem setBank_self (s : State) (b : Nat) (u : BankSt → BankSt) : (s.setBank b u).bank b = u (s.bank b) := by
  simp [State.bank]
@[simp] theorem setBank_other (s : State) {b d : Nat} (u : BankSt → BankSt) (h : d ≠ b) : (s.setBank b u).bank d = s.bank d := by
  simp [State.bank, h]
@[simp] theorem setCh_self (s : State) (b c : Nat) (u : ChSt → ChSt) : (s.setCh b c u).ch b c = u (s.ch b c) := by
  simp [State.ch]
theorem setCh_other (s : State) {b c d e : Nat} (u : ChSt → ChSt) (h : 16 * d + e ≠ 16 * b + c) :
    (s.setCh b c u).ch d e = s.ch d e := by
  simp [State.ch, h]
@[simp] theorem setPoint_self (s : State) (g p : Nat) (u : DpSt → DpSt) : (s.setPoint g p u).point g p = u (s.point g p) := by
  simp [State.point]
theorem setPoint_other (s : State) {g p h q : Nat} (u : DpSt → DpSt) (n : 8 * h + q ≠ 8 * g + p) :
    (s.setPoint g p u).point h q = s.point h q := by
  simp [State.point, n]
@[simp] theorem setGroup_self (s : State) (g : Nat) (u : DgSt → DgSt) : (s.setGroup g u).group g = u (s.group g) := by
  simp [State.group]
@[simp] theorem setGroup_other (s : State) {g h : Nat} (u : DgSt → DgSt) (n : h ≠ g) : (s.setGroup g u).group h = s.group h := by
  simp [State.group, n]
@[simp] theorem setAxis_self (s : State) (a : Nat) (u : AxisSt → AxisSt) : (s.setAxis a u).axis a = u (s.axis a) := by
  simp [State.axis]
@[simp] theorem setAxis_other (s : State) {a c : Nat} (u : AxisSt → AxisSt) (h : c ≠ a) : (s.setAxis a u).axis c = s.axis c := by
  simp [State.axis, h]
@[simp] theorem setHdr_self (s : State) (f : Fn) (u : FnHdr → FnHdr) : (s.setHdr f u).hdr f = u (s.hdr f) := by
  simp [State.hdr]
theorem setHdr_other (s : State) {f g : Fn} (u : FnHdr → FnHdr) (h : fnId g ≠ fnId f) : (s.setHdr f u).hdr g = s.hdr g := by
  simp [State.hdr, h]
@[simp] theorem setSf_self (s : State) (n : Nat) (u : SfSt → SfSt) : (s.setSf n u).bedrock.fns.look n = u (s.bedrock.fns.look n) := by
  simp [State.setSf]
@[simp] theorem setVg_self (s : State) (n : Nat) (u : VgSt → VgSt) : (s.setVg n u).bedrock.groups.look n = u (s.bedrock.groups.look n) := by
  simp [State.setVg]
@[simp] theorem setSto_self (s : State) (n : Nat) (u : StoSt → StoSt) : (s.setSto n u).bedrock.sto.look n = u (s.bedrock.sto.look n) := by
  simp [State.setSto]
@[simp] theorem setPt_self (s : State) (n : Nat) (u : AlmPt → AlmPt) : (s.setPt n u).alarm.pts.look n = u (s.alarm.pts.look n) := by
  simp [State.setPt]
@[simp] theorem setLp_self (s : State) (n : Nat) (u : LpSt → LpSt) : (s.setLp n u).loops.lps.look n = u (s.loops.lps.look n) := by
  simp [State.setLp]

end Sys2Proof.Laws
end

