-- ==== Sys2Proof/Laws/Reads.lean ====
section
/-! SUPPORT. A part of a state as the view that hides every other part: with these and the frame laws a part of
`f (g s)` is read off without unfolding `f` and `g`. -/

namespace Sys2Proof.Laws

open Sys2Proof.Machine

/-- Every part but `pending`. -/
abbrev N.pending : Nat := 0xffffffffe
/-- Every part but `mod`. -/
abbrev N.mod : Nat := 0xffffffffd
/-- Every part but `img`. -/
abbrev N.img : Nat := 0xfffffffef
/-- Every part but `sections`. -/
abbrev N.sections : Nat := 0xfffffffdf
/-- Every part but `imgId`. -/
abbrev N.imgId : Nat := 0xfffffffbf
/-- Every part but `otp`. -/
abbrev N.otp : Nat := 0xffffffdff
/-- Every part but `banks`. -/
abbrev N.banks : Nat := 0xffffffbff
/-- Every part but `chs`. -/
abbrev N.chs : Nat := 0xffffff7ff
/-- Every part but `groups`. -/
abbrev N.groups : Nat := 0xfffffefff
/-- Every part but `points`. -/
abbrev N.points : Nat := 0xfffffdfff
/-- Every part but `outCurrent`. -/
abbrev N.outCurrent : Nat := 0xfffffbfff
/-- Every part but `tu`. -/
abbrev N.tu : Nat := 0xfffff7fff
/-- Every part but `alarm`. -/
abbrev N.alarm : Nat := 0xffffeffff
/-- Every part but `logic`. -/
abbrev N.logic : Nat := 0xffffdffff
/-- Every part but `div`. -/
abbrev N.div : Nat := 0xffffbffff
/-- Every part but `divSel`. -/
abbrev N.divSel : Nat := 0xffff7ffff
/-- Every part but `trx`. -/
abbrev N.trx : Nat := 0xfffefffff
/-- Every part but `loops`. -/
abbrev N.loops : Nat := 0xfffdfffff
/-- Every part but `axes`. -/
abbrev N.axes : Nat := 0xfffbfffff
/-- Every part but `bedrock`. -/
abbrev N.bedrock : Nat := 0xfff7fffff
/-- Every part but `pool`. -/
abbrev N.pool : Nat := 0xffeffffff
/-- Every part but `can`. -/
abbrev N.can : Nat := 0xff7ffffff
/-- Every part but `pair`. -/
abbrev N.pair : Nat := 0xfefffffff
/-- Every part but `panel`. -/
abbrev N.panel : Nat := 0xfdfffffff
/-- Every part but `ckpt`. -/
abbrev N.ckpt : Nat := 0xeffffffff
/-- Every part but `pi`. -/
abbrev N.pi : Nat := 0xdffffffff
/-- Every part but `taskInbox`. -/
abbrev N.taskInbox : Nat := 0xbffffffff
/-- Every part but `freeCount`. -/
abbrev N.freeCount : Nat := 0x7ffffffff
/-- Every part but `hdrs`. -/
abbrev N.hdrs : Nat := 0xffffffffb
/-- Every part but `evstat`. -/
abbrev N.evstat : Nat := 0xffffffff7
/-- Every part but `pegMem`. -/
abbrev N.pegMem : Nat := 0xfffffff7f
/-- Every part but `pegRest`. -/
abbrev N.pegRest : Nat := 0xffffffeff
/-- Every part but `notifyQ`. -/
abbrev N.notifyQ : Nat := 0xffdffffff
/-- Every part but `mmpRest`. -/
abbrev N.mmpRest : Nat := 0xffbffffff
/-- Every part but `inbox`. -/
abbrev N.inbox : Nat := 0xfbfffffff
/-- Every part but `recRest`. -/
abbrev N.recRest : Nat := 0xf7fffffff

theorem pending_read (s : State) : s.pending = (view N.pending s).pending := rfl
theorem mod_read (s : State) : s.mod = (view N.mod s).mod := rfl
theorem img_read (s : State) : s.img = (view N.img s).img := rfl
theorem sections_read (s : State) : s.sections = (view N.sections s).sections := rfl
theorem imgId_read (s : State) : s.imgId = (view N.imgId s).imgId := rfl
theorem otp_read (s : State) : s.otp = (view N.otp s).otp := rfl
theorem banks_read (s : State) : s.banks = (view N.banks s).banks := rfl
theorem chs_read (s : State) : s.chs = (view N.chs s).chs := rfl
theorem groups_read (s : State) : s.groups = (view N.groups s).groups := rfl
theorem points_read (s : State) : s.points = (view N.points s).points := rfl
theorem outCurrent_read (s : State) : s.outCurrent = (view N.outCurrent s).outCurrent := rfl
theorem tu_read (s : State) : s.tu = (view N.tu s).tu := rfl
theorem alarm_read (s : State) : s.alarm = (view N.alarm s).alarm := rfl
theorem logic_read (s : State) : s.logic = (view N.logic s).logic := rfl
theorem div_read (s : State) : s.div = (view N.div s).div := rfl
theorem divSel_read (s : State) : s.divSel = (view N.divSel s).divSel := rfl
theorem trx_read (s : State) : s.trx = (view N.trx s).trx := rfl
theorem loops_read (s : State) : s.loops = (view N.loops s).loops := rfl
theorem axes_read (s : State) : s.axes = (view N.axes s).axes := rfl
theorem bedrock_read (s : State) : s.bedrock = (view N.bedrock s).bedrock := rfl
theorem pool_read (s : State) : s.pool = (view N.pool s).pool := rfl
theorem can_read (s : State) : s.can = (view N.can s).can := rfl
theorem pair_read (s : State) : s.pair = (view N.pair s).pair := rfl
theorem panel_read (s : State) : s.panel = (view N.panel s).panel := rfl
theorem ckpt_read (s : State) : s.ckpt = (view N.ckpt s).ckpt := rfl
theorem pi_read (s : State) : s.pi = (view N.pi s).pi := rfl
theorem taskInbox_read (s : State) : s.taskInbox = (view N.taskInbox s).taskInbox := rfl
theorem freeCount_read (s : State) : s.freeCount = (view N.freeCount s).freeCount := rfl
theorem hdr_read (s : State) (f : Fn) : { s.hdr f with evstat := 0 } = (view N.hdrs s).hdrs (fnId f) := rfl
theorem fnState_read (s : State) (f : Fn) : s.fnState f = ((view N.hdrs s).hdrs (fnId f)).state := rfl
theorem evstat_read (s : State) (f : Fn) : (s.hdr f).evstat = (view N.evstat s).evstat (fnId f) := rfl
theorem pegMem_read (s : State) : s.peg.mem = (view N.pegMem s).pegMem := rfl
theorem notifyQ_read (s : State) : s.mmp.notifyQ = (view N.notifyQ s).notifyQ := rfl
theorem inbox_read (s : State) : s.recd.inbox = (view N.inbox s).inbox := rfl

theorem peg_present_read (s : State) : s.peg.present = (view N.pegRest s).pegRest.present := rfl
theorem peg_slots_read (s : State) : s.peg.slots = (view N.pegRest s).pegRest.slots := rfl
theorem peg_sel_read (s : State) : s.peg.sel = (view N.pegRest s).pegRest.sel := rfl
theorem peg_uncommissioned_read (s : State) : s.peg.uncommissioned = (view N.pegRest s).pegRest.uncommissioned := rfl
theorem peg_reading_read (s : State) : s.peg.reading = (view N.pegRest s).pegRest.reading := rfl
theorem peg_selecting_read (s : State) : s.peg.selecting = (view N.pegRest s).pegRest.selecting := rfl
theorem peg_openSlot_read (s : State) : s.peg.openSlot = (view N.pegRest s).pegRest.openSlot := rfl
theorem peg_chg_read (s : State) : s.peg.chg = (view N.pegRest s).pegRest.chg := rfl
theorem peg_chgSlot_read (s : State) : s.peg.chgSlot = (view N.pegRest s).pegRest.chgSlot := rfl
theorem peg_chgResult_read (s : State) : s.peg.chgResult = (view N.pegRest s).pegRest.chgResult := rfl
theorem peg_chgSeq_read (s : State) : s.peg.chgSeq = (view N.pegRest s).pegRest.chgSeq := rfl
theorem peg_chgInstant_read (s : State) : s.peg.chgInstant = (view N.pegRest s).pegRest.chgInstant := rfl
theorem peg_chgPause_read (s : State) : s.peg.chgPause = (view N.pegRest s).pegRest.chgPause := rfl
theorem peg_chgCount_read (s : State) : s.peg.chgCount = (view N.pegRest s).pegRest.chgCount := rfl
theorem peg_staged_read (s : State) : s.peg.staged = (view N.pegRest s).pegRest.staged := rfl
theorem peg_stagedId_read (s : State) : s.peg.stagedId = (view N.pegRest s).pegRest.stagedId := rfl
theorem peg_holdAt_read (s : State) : s.peg.holdAt = (view N.pegRest s).pegRest.holdAt := rfl
theorem peg_resetWaits_read (s : State) : s.peg.resetWaits = (view N.pegRest s).pegRest.resetWaits := rfl
theorem peg_drainWaits_read (s : State) : s.peg.drainWaits = (view N.pegRest s).pegRest.drainWaits := rfl
theorem mmp_ports_read (s : State) : s.mmp.ports = (view N.mmpRest s).mmpRest.ports := rfl
theorem mmp_dupDeliver_read (s : State) : s.mmp.dupDeliver = (view N.mmpRest s).mmpRest.dupDeliver := rfl
theorem mmp_dupForward_read (s : State) : s.mmp.dupForward = (view N.mmpRest s).mmpRest.dupForward := rfl
theorem mmp_hsrSeq_read (s : State) : s.mmp.hsrSeq = (view N.mmpRest s).mmpRest.hsrSeq := rfl
theorem mmp_starts_read (s : State) : s.mmp.starts = (view N.mmpRest s).mmpRest.starts := rfl
theorem mmp_rxOk_read (s : State) : s.mmp.rxOk = (view N.mmpRest s).mmpRest.rxOk := rfl
theorem mmp_authFail_read (s : State) : s.mmp.authFail = (view N.mmpRest s).mmpRest.authFail := rfl
theorem mmp_frameFail_read (s : State) : s.mmp.frameFail = (view N.mmpRest s).mmpRest.frameFail := rfl
theorem mmp_replay_read (s : State) : s.mmp.replay = (view N.mmpRest s).mmpRest.replay := rfl
theorem mmp_pubSkipped_read (s : State) : s.mmp.pubSkipped = (view N.mmpRest s).mmpRest.pubSkipped := rfl
theorem mmp_notifyLost_read (s : State) : s.mmp.notifyLost = (view N.mmpRest s).mmpRest.notifyLost := rfl
theorem mmp_pairs_read (s : State) : s.mmp.pairs = (view N.mmpRest s).mmpRest.pairs := rfl
theorem mmp_peerEpochs_read (s : State) : s.mmp.peerEpochs = (view N.mmpRest s).mmpRest.peerEpochs := rfl
theorem mmp_outSeq_read (s : State) : s.mmp.outSeq = (view N.mmpRest s).mmpRest.outSeq := rfl
theorem mmp_queueEpisode_read (s : State) : s.mmp.queueEpisode = (view N.mmpRest s).mmpRest.queueEpisode := rfl
theorem mmp_waits_read (s : State) : s.mmp.waits = (view N.mmpRest s).mmpRest.waits := rfl
theorem mmp_pubEpisode_read (s : State) : s.mmp.pubEpisode = (view N.mmpRest s).mmpRest.pubEpisode := rfl
theorem mmp_pubCount_read (s : State) : s.mmp.pubCount = (view N.mmpRest s).mmpRest.pubCount := rfl
theorem mmp_echoes_read (s : State) : s.mmp.echoes = (view N.mmpRest s).mmpRest.echoes := rfl
theorem mmp_replies_read (s : State) : s.mmp.replies = (view N.mmpRest s).mmpRest.replies := rfl
theorem mmp_sent_read (s : State) : s.mmp.sent = (view N.mmpRest s).mmpRest.sent := rfl
theorem recd_staging_read (s : State) : s.recd.staging = (view N.recRest s).recRest.staging := rfl
theorem recd_ring_read (s : State) : s.recd.ring = (view N.recRest s).recRest.ring := rfl
theorem recd_auditRing_read (s : State) : s.recd.auditRing = (view N.recRest s).recRest.auditRing := rfl
theorem recd_next_read (s : State) : s.recd.next = (view N.recRest s).recRest.next := rfl
theorem recd_oldest_read (s : State) : s.recd.oldest = (view N.recRest s).recRest.oldest := rfl
theorem recd_auditNext_read (s : State) : s.recd.auditNext = (view N.recRest s).recRest.auditNext := rfl
theorem recd_auditOldest_read (s : State) : s.recd.auditOldest = (view N.recRest s).recRest.auditOldest := rfl
theorem recd_lost_read (s : State) : s.recd.lost = (view N.recRest s).recRest.lost := rfl
theorem recd_lostEpisode_read (s : State) : s.recd.lostEpisode = (view N.recRest s).recRest.lostEpisode := rfl
theorem recd_fifoMax_read (s : State) : s.recd.fifoMax = (view N.recRest s).recRest.fifoMax := rfl
theorem recd_bad_read (s : State) : s.recd.bad = (view N.recRest s).recRest.bad := rfl
theorem recd_auditOverwritten_read (s : State) : s.recd.auditOverwritten = (view N.recRest s).recRest.auditOverwritten := rfl
theorem recd_repeatSet_read (s : State) : s.recd.repeatSet = (view N.recRest s).recRest.repeatSet := rfl
theorem recd_clearWaits_read (s : State) : s.recd.clearWaits = (view N.recRest s).recRest.clearWaits := rfl
theorem recd_clearAfter_read (s : State) : s.recd.clearAfter = (view N.recRest s).recRest.clearAfter := rfl
theorem recd_cursors_read (s : State) : s.recd.cursors = (view N.recRest s).recRest.cursors := rfl
theorem recd_mirSecs_read (s : State) : s.recd.mirSecs = (view N.recRest s).recRest.mirSecs := rfl
theorem recd_mirCycles_read (s : State) : s.recd.mirCycles = (view N.recRest s).recRest.mirCycles := rfl
theorem recd_mirLost_read (s : State) : s.recd.mirLost = (view N.recRest s).recRest.mirLost := rfl

@[simp] theorem read_setAlm (s : State) (u : AlarmSt → AlarmSt) : (view N.alarm (s.setAlm u)).alarm = u (view N.alarm s).alarm := rfl
@[simp] theorem read_setBr (s : State) (u : BedrockSt → BedrockSt) : (view N.bedrock (s.setBr u)).bedrock = u (view N.bedrock s).bedrock := rfl
@[simp] theorem read_setCkpt (s : State) (u : CkptSt → CkptSt) : (view N.ckpt (s.setCkpt u)).ckpt = u (view N.ckpt s).ckpt := rfl
@[simp] theorem read_setLoops (s : State) (u : LoopSt → LoopSt) : (view N.loops (s.setLoops u)).loops = u (view N.loops s).loops := rfl
@[simp] theorem read_setMod (s : State) (u : ModuleSt → ModuleSt) : (view N.mod (s.setMod u)).mod = u (view N.mod s).mod := rfl
@[simp] theorem read_setTu (s : State) (u : TimeSt → TimeSt) : (view N.tu (s.setTu u)).tu = u (view N.tu s).tu := rfl
@[simp] theorem read_setLogic (s : State) (u : LogicSt → LogicSt) : (view N.logic (s.setLogic u)).logic = u (view N.logic s).logic := rfl
@[simp] theorem read_setPair (s : State) (u : PairSt → PairSt) : (view N.pair (s.setPair u)).pair = u (view N.pair s).pair := rfl
@[simp] theorem read_setPool (s : State) (u : PoolSt → PoolSt) : (view N.pool (s.setPool u)).pool = u (view N.pool s).pool := rfl
@[simp] theorem read_setOtp (s : State) (u : OtpSt → OtpSt) : (view N.otp (s.setOtp u)).otp = u (view N.otp s).otp := rfl
@[simp] theorem read_setPanel (s : State) (u : PanelSt → PanelSt) : (view N.panel (s.setPanel u)).panel = u (view N.panel s).panel := rfl
end Sys2Proof.Laws
end

