-- ==== Sys2Proof/Laws/Ops.lean ====
section
/-! SUPPORT. What the shared operations do: the headers and states of functions, the events raised, the replies sent,
the peg, the outputs and the recorder, one lemma for each operation. -/

namespace Sys2Proof.Laws

open Sys2Proof.Machine

set_option linter.unusedSimpArgs false

theorem enterHold_mod (c : HoldCause) (s : State) : (enterHold c s).mod = { s.mod with
    state := .hold, hold := c, imageValid := false, bivStage := .none, domains := holdDomains, clocks := holdClocks } := by
  unfold enterHold
  simp (disch := decide) only [mod_read, holdRuns_view, applyDomains_view]
  simp only [← mod_read]
  have : ∀ x, (outputsOff x).mod = x.mod := fun x => by
    simp (disch := decide) only [mod_read, outputsOff_view]
  have h2 : (endLocals 5 .module (fun _ => true) s).mod = s.mod := by
    simp (disch := decide) only [mod_read, endLocals_view]
  rw [this, h2]
theorem view_forAll {β : Type} {m : Nat} {l : List β} {f : β → State → State} (h : ∀ a t, view m (f a t) = view m t) (s : State) :
    view m (forAll l f s) = view m s := forAll_keeps (view m) h s
theorem view_forRange {m : Nat} {n : Nat} {f : Nat → State → State} (h : ∀ a t, view m (f a t) = view m t) (s : State) :
    view m (forRange n f s) = view m s := forRange_keeps (view m) h s

theorem fnId_inj {f g : Fn} (h : fnId f = fnId g) : f = g := by
  cases f <;> cases g <;> simp_all [fnId] <;> omega
theorem hdrRead (s : State) (f : Fn) {t : State} (h : view N.hdrs t = view N.hdrs s) :
    (t.hdr f).state = (s.hdr f).state ∧ (t.hdr f).resets = (s.hdr f).resets ∧ (t.hdr f).fault = (s.hdr f).fault
      ∧ (t.hdr f).configured = (s.hdr f).configured ∧ (t.hdr f).powered = (s.hdr f).powered := by
  have := hdr_of_view h (by decide) f
  simp only [FnHdr.mk.injEq] at this
  simp_all
theorem fnStateRead (s : State) (f : Fn) {t : State} (h : view N.hdrs t = view N.hdrs s) : t.fnState f = s.fnState f :=
  (hdrRead s f h).1
@[simp] theorem setHdr_fnState_self (s : State) (f : Fn) (u) : (s.setHdr f u).fnState f = (u (s.hdr f)).state := by
  simp [State.fnState]
theorem setHdr_fnState_other (s : State) {f g : Fn} (u) (h : g ≠ f) : (s.setHdr f u).fnState g = s.fnState g := by
  have : fnId g ≠ fnId f := fun e => h (fnId_inj e)
  simp [State.fnState, setHdr_other s u this]
theorem enterFn_hdr (f : Fn) (st : FnState) (s : State) :
    ((enterFn f st s).hdr f).state = st ∧ ((enterFn f st s).hdr f).resets = (s.hdr f).resets
      ∧ ((enterFn f st s).hdr f).fault = (s.hdr f).fault ∧ ((enterFn f st s).hdr f).configured = (s.hdr f).configured
      ∧ ((enterFn f st s).hdr f).powered = (s.hdr f).powered := by
  have h : view N.hdrs (enterFn f st s) = view N.hdrs (s.setHdr f (fun h => { h with state := st })) := by
    unfold enterFn
    dsimp only
    split <;> simp (disch := decide)
  have := hdrRead _ f h
  simpa using this
@[simp] theorem enterFn_fnState (f : Fn) (st : FnState) (s : State) : (enterFn f st s).fnState f = st :=
  (enterFn_hdr f st s).1
theorem enterFn_other {f g : Fn} (st : FnState) (s : State) (h : g ≠ f) : (enterFn f st s).fnState g = s.fnState g :=
  by
  have h2 : view N.hdrs (enterFn f st s) = view N.hdrs (s.setHdr f (fun h => { h with state := st })) := by
    unfold enterFn
    dsimp only
    split <;> simp (disch := decide)
  rw [fnStateRead _ g h2, setHdr_fnState_other _ _ h]
@[simp] theorem deliver_inbox (k : EvKind) (e : Event) (s : State) : (deliver k e s).recd.inbox = s.recd.inbox ++ [e] :=
  by
  unfold deliver
  dsimp only
  repeat' split
  all_goals rfl
@[simp] theorem raise_inbox (k : EvKind) (src : Nat) (d : W32) (o : Origin) (s : State) :
    (raise k src d o s).recd.inbox = s.recd.inbox ++ [mkEvent k src d o s] := deliver_inbox _ _ _
@[simp] theorem raiseN_inbox (k : EvKind) (src d : Nat) (s : State) :
    (raiseN k src d s).recd.inbox = s.recd.inbox ++ [mkEvent k src (w32 d) .module s] := deliver_inbox _ _ _
theorem raised_raise {s t u : State} {k : EvKind} {src : Nat} {d : W32} {o : Origin} (hi : u.recd.inbox = s.recd.inbox)
    (ht : t.recd.inbox = (raise k src d o u).recd.inbox) : Raised k src d s t :=
  ⟨[], [], mkEvent k src d o u, by simp [ht, hi], rfl, rfl, rfl⟩
theorem raised_raiseN {s t u : State} {k : EvKind} {src : Nat} {d : Nat} (hi : u.recd.inbox = s.recd.inbox)
    (ht : t.recd.inbox = (raiseN k src d u).recd.inbox) : Raised k src (w32 d) s t :=
  raised_raise hi ht
/-- Parts read across a step that keeps the module part. -/
theorem modRead {s t : State} (h : view N.mod t = view N.mod s) : t.mod = s.mod := mod_of_view h (by decide)
@[simp] theorem mkEvent_code (k : EvKind) (src : Nat) (d : W32) (o : Origin) (s : State) : (mkEvent k src d o s).code = k.code :=
  rfl
@[simp] theorem mkEvent_source (k : EvKind) (src : Nat) (d : W32) (o : Origin) (s : State) : (mkEvent k src d o s).source = src :=
  rfl
@[simp] theorem mkEvent_data (k : EvKind) (src : Nat) (d : W32) (o : Origin) (s : State) : (mkEvent k src d o s).data = d :=
  rfl
theorem raised_last {s t : State} {k : EvKind} {src : Nat} {d : W32}
    (h : ∃ e : Event, t.recd.inbox = s.recd.inbox ++ [e] ∧ e.code = k.code ∧ e.source = src
        ∧ e.data = d) : Raised k src d s t := by
  obtain ⟨e, h, a, b, c⟩ := h
  exact ⟨[], [], e, by simp [h], a, b, c⟩
@[simp] theorem append_cancel {α : Type} (a b c : List α) : (a ++ b = a ++ c) = (b = c) := by simp
theorem forAll_fnState {F : Fn → FnState → FnState} {h : Fn → State → State}
    (ho : ∀ f t g, g ≠ f → (h f t).fnState g = t.fnState g) (hs : ∀ f t, (h f t).fnState f = F f (t.fnState f)) :
    ∀ (l : List Fn) (s : State), l.Nodup → ∀ g, (forAll l h s).fnState g = if g ∈ l then F g (s.fnState g) else s.fnState g := by
  intro l
  induction l with
  | nil => intro s _ g; simp
  | cons x r ih =>
    intro s hn g
    obtain ⟨hx, hr⟩ := List.nodup_cons.1 hn
    rw [forAll_cons, ih _ hr]
    by_cases hg : g = x
    · subst hg
      simp [hx, hs]
    · simp [hg, ho _ _ _ hg]
theorem accepted_noted {m : Msg} {ty : Nat} {need : Role} {q : Req} {s u : State} (h : Accepted m ty need q s u)
    (note : Status → State → State) (k : Req → State → State) :
    onNoted m [] (fun q => q.type == ty) need note k s = k q u := by
  obtain ⟨h1, h2, h3, h4⟩ := h
  simp [onNoted, h1, h2, h3, h4]
theorem accepted_sized {m : Msg} {ty : Nat} {need : Role} {q : Req} {s u : State} (h : Accepted m ty need q s u)
    {len : Nat} (hl : len ≤ q.payload.length) (k : Req → State → State) : onSized m ty need len k s = k q u := by
  unfold onSized onMessage
  rw [accepted_noted h]
  simp [Nat.not_lt.2 hl]
theorem accepted_onPeer {m : Msg} {ty : Nat} {need : Role} {q : Req} {s u : State} (h : Accepted m ty need q s u)
    (k : Req → State → State) : onPeer m ty need k s = k q u := by
  obtain ⟨h1, h2, h3, h4⟩ := h
  simp [onPeer, h1, h2, h3, h4]
theorem accepted_view {m : Msg} {ty : Nat} {need : Role} {q : Req} {s u : State} (h : Accepted m ty need q s u) {v : Nat}
    (hv : P.event ||| P.mmpRest ||| v = v) : view v u = view v s := by
  have := receive_view hv m [] s
  rwa [h.1] at this
@[simp] theorem countTx_replies (p : Port) (s : State) : (countTx p s).mmp.replies = s.mmp.replies := by
  rfl
@[simp] theorem sendReply_replies (a : Reply) (s : State) : (sendReply a s).mmp.replies = a :: s.mmp.replies := by
  simp [sendReply, ownFrame]
@[simp] theorem reply_replies (q : Req) (st : Status) (result pad : Nat) (body : List Byte) (s : State) :
    ∃ a : Reply, (reply q st result pad body s).mmp.replies = a :: s.mmp.replies ∧ a.seq = q.seq ∧ a.sender = q.sender
      ∧ a.type = q.type ∧ a.status = st := by
  unfold reply
  dsimp only
  exact ⟨{ sender := q.sender, role := q.role, type := q.type, seq := q.seq, epoch := s.epoch, status := st, result := result, pad := pad, body := body, unsigned := q.unsigned }, by simp, rfl, rfl, rfl, rfl⟩
theorem replied_reply (q : Req) (st : Status) (result pad : Nat) (body : List Byte) {u t : State}
    (h : t.mmp.replies = u.mmp.replies) : Replied q st u (reply q st result pad body t) := by
  obtain ⟨a, h1, h2⟩ := reply_replies q st result pad body t
  exact ⟨a, by rw [h1, h], h2⟩
theorem replied_answer (q : Req) (st : Status) {u t : State} (h : t.mmp.replies = u.mmp.replies) :
    Replied q st u (answer q st t) := replied_reply q st 0 0 [] h
theorem restartNow_mod (k : StartKind) (s : State) : (restartNow k s).mod = freshModule k s.mod := by
  have h1 : (outputsOff (forAll ((if k == .restart then panelDischarge 2 (endLocals 3 .module (fun _ => true) s)
      else endLocals 3 .module (fun _ => true) s).logic.forces.filter (fun p => p.2.kind != .free))
      (fun p t => forceEndNow 1 p.1 t) (if k == .restart then panelDischarge 2 (endLocals 3 .module (fun _ => true) s)
      else endLocals 3 .module (fun _ => true) s))).mod = s.mod := by
    split
    · simp (disch := (first | decide | (intros; (repeat' split) <;> simp (disch := decide); done) | fail)) only [mod_read, view_forAll, outputsOff_view, panelDischarge_view, endLocals_view]
    · simp (disch := (first | decide | (intros; (repeat' split) <;> simp (disch := decide); done) | fail)) only [mod_read, view_forAll, outputsOff_view, endLocals_view]
  unfold restartNow
  dsimp only
  rw [show ∀ x : State, (restartRecorder x).mod = x.mod from fun _ => rfl]
  rw [show ∀ x : State, (freshStart k x).mod = freshModule k x.mod from fun _ => rfl,
      forAll_keeps State.mod (fun f t => by split <;> (simp (disch := (first | decide | (intros; (repeat' split) <;> simp (disch := decide); done) | fail)) [view_forAll, view_forRange, mod_read, tu_read, trx_read, pair_read, img_read, sections_read, imgId_read, otp_read, banks_read, chs_read, groups_read, points_read, outCurrent_read, alarm_read, logic_read, div_read, divSel_read, loops_read, axes_read, bedrock_read, pool_read, can_read, panel_read, ckpt_read, pi_read, taskInbox_read, freeCount_read, pegMem_read, peg_present_read, peg_slots_read, peg_sel_read, peg_selecting_read, peg_reading_read, peg_chg_read, peg_chgSlot_read, peg_chgResult_read, peg_staged_read, peg_openSlot_read, mmp_waits_read, mmp_replies_read, mmp_sent_read, mmp_ports_read, inbox_read]; try simp only [← mod_read, ← tu_read, ← trx_read, ← pair_read, ← img_read, ← sections_read, ← imgId_read, ← otp_read, ← banks_read, ← chs_read, ← groups_read, ← points_read, ← outCurrent_read, ← alarm_read, ← logic_read, ← div_read, ← divSel_read, ← loops_read, ← axes_read, ← bedrock_read, ← pool_read, ← can_read, ← panel_read, ← ckpt_read, ← pi_read, ← taskInbox_read, ← freeCount_read, ← pegMem_read, ← peg_present_read, ← peg_slots_read, ← peg_sel_read, ← peg_selecting_read, ← peg_reading_read, ← peg_chg_read, ← peg_chgSlot_read, ← peg_chgResult_read, ← peg_staged_read, ← peg_openSlot_read, ← mmp_waits_read, ← mmp_replies_read, ← mmp_sent_read, ← mmp_ports_read, ← inbox_read])), h1]
theorem peg_of_view {m : Nat} {s t : State} (e : view m t = view m s) (h : m.testBit 7 = false) (h2 : m.testBit 8 = false) : t.peg = s.peg :=
  by
  have a := pegMem_of_view e h
  have b := pegRest_of_view e h2
  cases s with | mk _ _ _ _ _ _ p => cases t with | mk _ _ _ _ _ _ p2 => cases p; cases p2; simp_all
abbrev N.pegW : Nat := N.pegMem &&& N.pegRest
@[simp] theorem raise_peg (k : EvKind) (src : Nat) (d : W32) (o : Origin) (s : State) : (raise k src d o s).peg = s.peg :=
  by
  (refine peg_of_view (m := N.pegW) ?_ (by decide) (by decide); simp (disch := (first | decide | (intros; (repeat' split) <;> simp (disch := decide); done) | fail)) [view_forAll, view_forRange]; done)
@[simp] theorem raiseN_peg (k : EvKind) (src d : Nat) (s : State) : (raiseN k src d s).peg = s.peg := by
  (refine peg_of_view (m := N.pegW) ?_ (by decide) (by decide); simp (disch := (first | decide | (intros; (repeat' split) <;> simp (disch := decide); done) | fail)) [view_forAll, view_forRange]; done)
@[simp] theorem raiseIf_peg (b : Bool) (k : EvKind) (src d : Nat) (s : State) : (raiseIf b k src d s).peg = s.peg :=
  by
  (refine peg_of_view (m := N.pegW) ?_ (by decide) (by decide); simp (disch := (first | decide | (intros; (repeat' split) <;> simp (disch := decide); done) | fail)) [view_forAll, view_forRange]; done)
@[simp] theorem reply_peg (q : Req) (st : Status) (a b : Nat) (l : List Byte) (s : State) : (reply q st a b l s).peg = s.peg :=
  by
  (refine peg_of_view (m := N.pegW) ?_ (by decide) (by decide); simp (disch := (first | decide | (intros; (repeat' split) <;> simp (disch := decide); done) | fail)) [view_forAll, view_forRange]; done)
@[simp] theorem answer_peg (q : Req) (st : Status) (s : State) : (answer q st s).peg = s.peg := by
  (refine peg_of_view (m := N.pegW) ?_ (by decide) (by decide); simp (disch := (first | decide | (intros; (repeat' split) <;> simp (disch := decide); done) | fail)) [view_forAll, view_forRange]; done)
@[simp] theorem answerHeld_peg (k : Nat) (st : Status) (n : Nat) (s : State) : (answerHeld k st n s).peg = s.peg := by
  (refine peg_of_view (m := N.pegW) ?_ (by decide) (by decide); simp (disch := (first | decide | (intros; (repeat' split) <;> simp (disch := decide); done) | fail)) [view_forAll, view_forRange]; done)
theorem accepted_peg {m : Msg} {ty : Nat} {need : Role} {q : Req} {s u : State} (h : Accepted m ty need q s u) : u.peg = s.peg :=
  peg_of_view (m := N.pegW) (accepted_view h (by decide)) (by decide) (by decide)
@[simp] theorem raise_replies (k : EvKind) (src : Nat) (d : W32) (o : Origin) (s : State) : (raise k src d o s).mmp.replies = s.mmp.replies :=
  by
  simp only [mmp_replies_read]; simp (disch := decide)
@[simp] theorem raiseN_replies (k : EvKind) (src d : Nat) (s : State) : (raiseN k src d s).mmp.replies = s.mmp.replies :=
  raise_replies _ _ _ _ _
theorem refreshSlots_shape (s : State) : ∃ l, refreshSlots s = s.setPeg (fun p => { p with slots := l }) := by
  unfold refreshSlots
  exact ⟨_, rfl⟩
@[simp] theorem refreshSlots_recd (s : State) : (refreshSlots s).recd = s.recd := by
  obtain ⟨l, h⟩ := refreshSlots_shape s; simp [h]
@[simp] theorem refreshSlots_mmp (s : State) : (refreshSlots s).mmp = s.mmp := by
  obtain ⟨l, h⟩ := refreshSlots_shape s; simp [h]
@[simp] theorem refreshSlots_mem (s : State) : (refreshSlots s).peg.mem = s.peg.mem := by
  obtain ⟨l, h⟩ := refreshSlots_shape s; simp [h]
@[simp] theorem refreshSlots_present (s : State) : (refreshSlots s).peg.present = s.peg.present := by
  obtain ⟨l, h⟩ := refreshSlots_shape s; simp [h]
@[simp] theorem refreshSlots_open (s : State) : (refreshSlots s).peg.openSlot = s.peg.openSlot := by
  obtain ⟨l, h⟩ := refreshSlots_shape s; simp [h]
@[simp] theorem refreshSlots_chg (s : State) : (refreshSlots s).peg.chg = s.peg.chg := by
  obtain ⟨l, h⟩ := refreshSlots_shape s; simp [h]
@[simp] theorem refreshSlots_chgSlot (s : State) : (refreshSlots s).peg.chgSlot = s.peg.chgSlot := by
  obtain ⟨l, h⟩ := refreshSlots_shape s; simp [h]
@[simp] theorem refreshSlots_chgResult (s : State) : (refreshSlots s).peg.chgResult = s.peg.chgResult := by
  obtain ⟨l, h⟩ := refreshSlots_shape s; simp [h]
theorem answerHeld_cleared (k : Nat) (st : Status) (n : Nat) (x : State) : (answerHeld k st n x).mmp.waits.look k = none :=
  by
  unfold answerHeld
  split
  · assumption
  · unfold reply sendReply ownFrame countTx
    simp
@[simp] theorem setImageRefs_peg (s : State) : (setImageRefs s).peg = s.peg := by
  (refine peg_of_view (m := N.pegW) ?_ (by decide) (by decide); simp (disch := (first | decide | (intros; (repeat' split) <;> simp (disch := decide); done) | fail)) [view_forAll, view_forRange]; done)
theorem setImageRefs_ref (s : State) (f : Fn) (h : f ∈ allFns) : ((setImageRefs s).hdr f).imageref = s.imgId.seq := by
  have main : ∀ (l : List Fn) (t : State) (v : W32), ((f ∈ l) ∨ (t.hdr f).imageref = v) → 
      ((forAll l (fun f t => t.setHdr f (fun h => { h with imageref := v })) t).hdr f).imageref = v := by
    intro l
    induction l with
    | nil => intro t v h; simpa using h
    | cons x r ih =>
      intro t v h
      rw [forAll_cons]
      refine ih _ _ ?_
      by_cases e : f = x
      · right; subst e; simp
      · rcases h with h | h
        · rcases List.mem_cons.1 h with h | h
          · exact absurd h e
          · exact .inl h
        · right
          have : fnId f ≠ fnId x := fun h => e (fnId_inj h)
          rw [setHdr_other _ _ this, h]
  exact main allFns s s.imgId.seq (.inl h)
@[simp] theorem raise_mod (k : EvKind) (src : Nat) (d : W32) (o : Origin) (s : State) : (raise k src d o s).mod = s.mod :=
  mod_of_view (raise_view (m := N.mod) (by decide) k src d o s) (by decide)
@[simp] theorem raiseN_mod (k : EvKind) (src d : Nat) (s : State) : (raiseN k src d s).mod = s.mod :=
  raise_mod _ _ _ _ _
@[simp] theorem raiseIf_mod (b : Bool) (k : EvKind) (src d : Nat) (s : State) : (raiseIf b k src d s).mod = s.mod :=
  by
  unfold raiseIf; split <;> simp
@[simp] theorem raise_img (k : EvKind) (src : Nat) (d : W32) (o : Origin) (s : State) : (raise k src d o s).img = s.img :=
  img_of_view (raise_view (m := N.img) (by decide) k src d o s) (by decide)
@[simp] theorem raiseN_img (k : EvKind) (src d : Nat) (s : State) : (raiseN k src d s).img = s.img :=
  raise_img _ _ _ _ _
@[simp] theorem raiseIf_img (b : Bool) (k : EvKind) (src d : Nat) (s : State) : (raiseIf b k src d s).img = s.img :=
  by
  unfold raiseIf; split <;> simp
@[simp] theorem raise_sections (k : EvKind) (src : Nat) (d : W32) (o : Origin) (s : State) : (raise k src d o s).sections = s.sections :=
  sections_of_view (raise_view (m := N.sections) (by decide) k src d o s) (by decide)
@[simp] theorem raiseN_sections (k : EvKind) (src d : Nat) (s : State) : (raiseN k src d s).sections = s.sections :=
  raise_sections _ _ _ _ _
@[simp] theorem raiseIf_sections (b : Bool) (k : EvKind) (src d : Nat) (s : State) : (raiseIf b k src d s).sections = s.sections :=
  by
  unfold raiseIf; split <;> simp
@[simp] theorem raise_imgId (k : EvKind) (src : Nat) (d : W32) (o : Origin) (s : State) : (raise k src d o s).imgId = s.imgId :=
  imgId_of_view (raise_view (m := N.imgId) (by decide) k src d o s) (by decide)
@[simp] theorem raiseN_imgId (k : EvKind) (src d : Nat) (s : State) : (raiseN k src d s).imgId = s.imgId :=
  raise_imgId _ _ _ _ _
@[simp] theorem raiseIf_imgId (b : Bool) (k : EvKind) (src d : Nat) (s : State) : (raiseIf b k src d s).imgId = s.imgId :=
  by
  unfold raiseIf; split <;> simp
@[simp] theorem raise_otp (k : EvKind) (src : Nat) (d : W32) (o : Origin) (s : State) : (raise k src d o s).otp = s.otp :=
  otp_of_view (raise_view (m := N.otp) (by decide) k src d o s) (by decide)
@[simp] theorem raiseN_otp (k : EvKind) (src d : Nat) (s : State) : (raiseN k src d s).otp = s.otp :=
  raise_otp _ _ _ _ _
@[simp] theorem raiseIf_otp (b : Bool) (k : EvKind) (src d : Nat) (s : State) : (raiseIf b k src d s).otp = s.otp :=
  by
  unfold raiseIf; split <;> simp
@[simp] theorem raise_banks (k : EvKind) (src : Nat) (d : W32) (o : Origin) (s : State) : (raise k src d o s).banks = s.banks :=
  banks_of_view (raise_view (m := N.banks) (by decide) k src d o s) (by decide)
@[simp] theorem raiseN_banks (k : EvKind) (src d : Nat) (s : State) : (raiseN k src d s).banks = s.banks :=
  raise_banks _ _ _ _ _
@[simp] theorem raiseIf_banks (b : Bool) (k : EvKind) (src d : Nat) (s : State) : (raiseIf b k src d s).banks = s.banks :=
  by
  unfold raiseIf; split <;> simp
@[simp] theorem raise_chs (k : EvKind) (src : Nat) (d : W32) (o : Origin) (s : State) : (raise k src d o s).chs = s.chs :=
  chs_of_view (raise_view (m := N.chs) (by decide) k src d o s) (by decide)
@[simp] theorem raiseN_chs (k : EvKind) (src d : Nat) (s : State) : (raiseN k src d s).chs = s.chs :=
  raise_chs _ _ _ _ _
@[simp] theorem raiseIf_chs (b : Bool) (k : EvKind) (src d : Nat) (s : State) : (raiseIf b k src d s).chs = s.chs :=
  by
  unfold raiseIf; split <;> simp
@[simp] theorem raise_groups (k : EvKind) (src : Nat) (d : W32) (o : Origin) (s : State) : (raise k src d o s).groups = s.groups :=
  groups_of_view (raise_view (m := N.groups) (by decide) k src d o s) (by decide)
@[simp] theorem raiseN_groups (k : EvKind) (src d : Nat) (s : State) : (raiseN k src d s).groups = s.groups :=
  raise_groups _ _ _ _ _
@[simp] theorem raiseIf_groups (b : Bool) (k : EvKind) (src d : Nat) (s : State) : (raiseIf b k src d s).groups = s.groups :=
  by
  unfold raiseIf; split <;> simp
@[simp] theorem raise_points (k : EvKind) (src : Nat) (d : W32) (o : Origin) (s : State) : (raise k src d o s).points = s.points :=
  points_of_view (raise_view (m := N.points) (by decide) k src d o s) (by decide)
@[simp] theorem raiseN_points (k : EvKind) (src d : Nat) (s : State) : (raiseN k src d s).points = s.points :=
  raise_points _ _ _ _ _
@[simp] theorem raiseIf_points (b : Bool) (k : EvKind) (src d : Nat) (s : State) : (raiseIf b k src d s).points = s.points :=
  by
  unfold raiseIf; split <;> simp
@[simp] theorem raise_outCurrent (k : EvKind) (src : Nat) (d : W32) (o : Origin) (s : State) : (raise k src d o s).outCurrent = s.outCurrent :=
  outCurrent_of_view (raise_view (m := N.outCurrent) (by decide) k src d o s) (by decide)
@[simp] theorem raiseN_outCurrent (k : EvKind) (src d : Nat) (s : State) : (raiseN k src d s).outCurrent = s.outCurrent :=
  raise_outCurrent _ _ _ _ _
@[simp] theorem raiseIf_outCurrent (b : Bool) (k : EvKind) (src d : Nat) (s : State) : (raiseIf b k src d s).outCurrent = s.outCurrent :=
  by
  unfold raiseIf; split <;> simp
@[simp] theorem raise_tu (k : EvKind) (src : Nat) (d : W32) (o : Origin) (s : State) : (raise k src d o s).tu = s.tu :=
  tu_of_view (raise_view (m := N.tu) (by decide) k src d o s) (by decide)
@[simp] theorem raiseN_tu (k : EvKind) (src d : Nat) (s : State) : (raiseN k src d s).tu = s.tu := raise_tu _ _ _ _ _
@[simp] theorem raiseIf_tu (b : Bool) (k : EvKind) (src d : Nat) (s : State) : (raiseIf b k src d s).tu = s.tu := by
  unfold raiseIf; split <;> simp
@[simp] theorem raise_alarm (k : EvKind) (src : Nat) (d : W32) (o : Origin) (s : State) : (raise k src d o s).alarm = s.alarm :=
  alarm_of_view (raise_view (m := N.alarm) (by decide) k src d o s) (by decide)
@[simp] theorem raiseN_alarm (k : EvKind) (src d : Nat) (s : State) : (raiseN k src d s).alarm = s.alarm :=
  raise_alarm _ _ _ _ _
@[simp] theorem raiseIf_alarm (b : Bool) (k : EvKind) (src d : Nat) (s : State) : (raiseIf b k src d s).alarm = s.alarm :=
  by
  unfold raiseIf; split <;> simp
@[simp] theorem raise_logic (k : EvKind) (src : Nat) (d : W32) (o : Origin) (s : State) : (raise k src d o s).logic = s.logic :=
  logic_of_view (raise_view (m := N.logic) (by decide) k src d o s) (by decide)
@[simp] theorem raiseN_logic (k : EvKind) (src d : Nat) (s : State) : (raiseN k src d s).logic = s.logic :=
  raise_logic _ _ _ _ _
@[simp] theorem raiseIf_logic (b : Bool) (k : EvKind) (src d : Nat) (s : State) : (raiseIf b k src d s).logic = s.logic :=
  by
  unfold raiseIf; split <;> simp
@[simp] theorem raise_div (k : EvKind) (src : Nat) (d : W32) (o : Origin) (s : State) : (raise k src d o s).div = s.div :=
  div_of_view (raise_view (m := N.div) (by decide) k src d o s) (by decide)
@[simp] theorem raiseN_div (k : EvKind) (src d : Nat) (s : State) : (raiseN k src d s).div = s.div :=
  raise_div _ _ _ _ _
@[simp] theorem raiseIf_div (b : Bool) (k : EvKind) (src d : Nat) (s : State) : (raiseIf b k src d s).div = s.div :=
  by
  unfold raiseIf; split <;> simp
@[simp] theorem raise_divSel (k : EvKind) (src : Nat) (d : W32) (o : Origin) (s : State) : (raise k src d o s).divSel = s.divSel :=
  divSel_of_view (raise_view (m := N.divSel) (by decide) k src d o s) (by decide)
@[simp] theorem raiseN_divSel (k : EvKind) (src d : Nat) (s : State) : (raiseN k src d s).divSel = s.divSel :=
  raise_divSel _ _ _ _ _
@[simp] theorem raiseIf_divSel (b : Bool) (k : EvKind) (src d : Nat) (s : State) : (raiseIf b k src d s).divSel = s.divSel :=
  by
  unfold raiseIf; split <;> simp
@[simp] theorem raise_trx (k : EvKind) (src : Nat) (d : W32) (o : Origin) (s : State) : (raise k src d o s).trx = s.trx :=
  trx_of_view (raise_view (m := N.trx) (by decide) k src d o s) (by decide)
@[simp] theorem raiseN_trx (k : EvKind) (src d : Nat) (s : State) : (raiseN k src d s).trx = s.trx :=
  raise_trx _ _ _ _ _
@[simp] theorem raiseIf_trx (b : Bool) (k : EvKind) (src d : Nat) (s : State) : (raiseIf b k src d s).trx = s.trx :=
  by
  unfold raiseIf; split <;> simp
@[simp] theorem raise_loops (k : EvKind) (src : Nat) (d : W32) (o : Origin) (s : State) : (raise k src d o s).loops = s.loops :=
  loops_of_view (raise_view (m := N.loops) (by decide) k src d o s) (by decide)
@[simp] theorem raiseN_loops (k : EvKind) (src d : Nat) (s : State) : (raiseN k src d s).loops = s.loops :=
  raise_loops _ _ _ _ _
@[simp] theorem raiseIf_loops (b : Bool) (k : EvKind) (src d : Nat) (s : State) : (raiseIf b k src d s).loops = s.loops :=
  by
  unfold raiseIf; split <;> simp
@[simp] theorem raise_axes (k : EvKind) (src : Nat) (d : W32) (o : Origin) (s : State) : (raise k src d o s).axes = s.axes :=
  axes_of_view (raise_view (m := N.axes) (by decide) k src d o s) (by decide)
@[simp] theorem raiseN_axes (k : EvKind) (src d : Nat) (s : State) : (raiseN k src d s).axes = s.axes :=
  raise_axes _ _ _ _ _
@[simp] theorem raiseIf_axes (b : Bool) (k : EvKind) (src d : Nat) (s : State) : (raiseIf b k src d s).axes = s.axes :=
  by
  unfold raiseIf; split <;> simp
@[simp] theorem raise_bedrock (k : EvKind) (src : Nat) (d : W32) (o : Origin) (s : State) : (raise k src d o s).bedrock = s.bedrock :=
  bedrock_of_view (raise_view (m := N.bedrock) (by decide) k src d o s) (by decide)
@[simp] theorem raiseN_bedrock (k : EvKind) (src d : Nat) (s : State) : (raiseN k src d s).bedrock = s.bedrock :=
  raise_bedrock _ _ _ _ _
@[simp] theorem raiseIf_bedrock (b : Bool) (k : EvKind) (src d : Nat) (s : State) : (raiseIf b k src d s).bedrock = s.bedrock :=
  by
  unfold raiseIf; split <;> simp
@[simp] theorem raise_pool (k : EvKind) (src : Nat) (d : W32) (o : Origin) (s : State) : (raise k src d o s).pool = s.pool :=
  pool_of_view (raise_view (m := N.pool) (by decide) k src d o s) (by decide)
@[simp] theorem raiseN_pool (k : EvKind) (src d : Nat) (s : State) : (raiseN k src d s).pool = s.pool :=
  raise_pool _ _ _ _ _
@[simp] theorem raiseIf_pool (b : Bool) (k : EvKind) (src d : Nat) (s : State) : (raiseIf b k src d s).pool = s.pool :=
  by
  unfold raiseIf; split <;> simp
@[simp] theorem raise_can (k : EvKind) (src : Nat) (d : W32) (o : Origin) (s : State) : (raise k src d o s).can = s.can :=
  can_of_view (raise_view (m := N.can) (by decide) k src d o s) (by decide)
@[simp] theorem raiseN_can (k : EvKind) (src d : Nat) (s : State) : (raiseN k src d s).can = s.can :=
  raise_can _ _ _ _ _
@[simp] theorem raiseIf_can (b : Bool) (k : EvKind) (src d : Nat) (s : State) : (raiseIf b k src d s).can = s.can :=
  by
  unfold raiseIf; split <;> simp
@[simp] theorem raise_pair (k : EvKind) (src : Nat) (d : W32) (o : Origin) (s : State) : (raise k src d o s).pair = s.pair :=
  pair_of_view (raise_view (m := N.pair) (by decide) k src d o s) (by decide)
@[simp] theorem raiseN_pair (k : EvKind) (src d : Nat) (s : State) : (raiseN k src d s).pair = s.pair :=
  raise_pair _ _ _ _ _
@[simp] theorem raiseIf_pair (b : Bool) (k : EvKind) (src d : Nat) (s : State) : (raiseIf b k src d s).pair = s.pair :=
  by
  unfold raiseIf; split <;> simp
@[simp] theorem raise_panel (k : EvKind) (src : Nat) (d : W32) (o : Origin) (s : State) : (raise k src d o s).panel = s.panel :=
  panel_of_view (raise_view (m := N.panel) (by decide) k src d o s) (by decide)
@[simp] theorem raiseN_panel (k : EvKind) (src d : Nat) (s : State) : (raiseN k src d s).panel = s.panel :=
  raise_panel _ _ _ _ _
@[simp] theorem raiseIf_panel (b : Bool) (k : EvKind) (src d : Nat) (s : State) : (raiseIf b k src d s).panel = s.panel :=
  by
  unfold raiseIf; split <;> simp
@[simp] theorem raise_ckpt (k : EvKind) (src : Nat) (d : W32) (o : Origin) (s : State) : (raise k src d o s).ckpt = s.ckpt :=
  ckpt_of_view (raise_view (m := N.ckpt) (by decide) k src d o s) (by decide)
@[simp] theorem raiseN_ckpt (k : EvKind) (src d : Nat) (s : State) : (raiseN k src d s).ckpt = s.ckpt :=
  raise_ckpt _ _ _ _ _
@[simp] theorem raiseIf_ckpt (b : Bool) (k : EvKind) (src d : Nat) (s : State) : (raiseIf b k src d s).ckpt = s.ckpt :=
  by
  unfold raiseIf; split <;> simp
@[simp] theorem raise_pi (k : EvKind) (src : Nat) (d : W32) (o : Origin) (s : State) : (raise k src d o s).pi = s.pi :=
  pi_of_view (raise_view (m := N.pi) (by decide) k src d o s) (by decide)
@[simp] theorem raiseN_pi (k : EvKind) (src d : Nat) (s : State) : (raiseN k src d s).pi = s.pi := raise_pi _ _ _ _ _
@[simp] theorem raiseIf_pi (b : Bool) (k : EvKind) (src d : Nat) (s : State) : (raiseIf b k src d s).pi = s.pi := by
  unfold raiseIf; split <;> simp
@[simp] theorem raise_freeCount (k : EvKind) (src : Nat) (d : W32) (o : Origin) (s : State) : (raise k src d o s).freeCount = s.freeCount :=
  freeCount_of_view (raise_view (m := N.freeCount) (by decide) k src d o s) (by decide)
@[simp] theorem raiseN_freeCount (k : EvKind) (src d : Nat) (s : State) : (raiseN k src d s).freeCount = s.freeCount :=
  raise_freeCount _ _ _ _ _
@[simp] theorem raiseIf_freeCount (b : Bool) (k : EvKind) (src d : Nat) (s : State) : (raiseIf b k src d s).freeCount = s.freeCount :=
  by
  unfold raiseIf; split <;> simp
@[simp] theorem raise_ch (k : EvKind) (src : Nat) (d : W32) (o : Origin) (s : State) (b c : Nat) : (raise k src d o s).ch b c = s.ch b c :=
  by
  simp [State.ch]
@[simp] theorem raiseN_ch (k : EvKind) (src d : Nat) (s : State) (b c : Nat) : (raiseN k src d s).ch b c = s.ch b c :=
  raise_ch _ _ _ _ _ b c
@[simp] theorem raiseIf_ch (x : Bool) (k : EvKind) (src d : Nat) (s : State) (b c : Nat) : (raiseIf x k src d s).ch b c = s.ch b c :=
  by
  unfold raiseIf; split <;> simp
@[simp] theorem raise_bank (k : EvKind) (src : Nat) (d : W32) (o : Origin) (s : State) (b : Nat) : (raise k src d o s).bank b = s.bank b :=
  by
  simp [State.bank]
@[simp] theorem raiseN_bank (k : EvKind) (src d : Nat) (s : State) (b : Nat) : (raiseN k src d s).bank b = s.bank b :=
  raise_bank _ _ _ _ _ b
@[simp] theorem raiseIf_bank (x : Bool) (k : EvKind) (src d : Nat) (s : State) (b : Nat) : (raiseIf x k src d s).bank b = s.bank b :=
  by
  unfold raiseIf; split <;> simp
@[simp] theorem raise_point (k : EvKind) (src : Nat) (d : W32) (o : Origin) (s : State) (g p : Nat) : (raise k src d o s).point g p = s.point g p :=
  by
  simp [State.point]
@[simp] theorem raiseN_point (k : EvKind) (src d : Nat) (s : State) (g p : Nat) : (raiseN k src d s).point g p = s.point g p :=
  raise_point _ _ _ _ _ g p
@[simp] theorem raiseIf_point (x : Bool) (k : EvKind) (src d : Nat) (s : State) (g p : Nat) : (raiseIf x k src d s).point g p = s.point g p :=
  by
  unfold raiseIf; split <;> simp
@[simp] theorem raise_group (k : EvKind) (src : Nat) (d : W32) (o : Origin) (s : State) (g : Nat) : (raise k src d o s).group g = s.group g :=
  by
  simp [State.group]
@[simp] theorem raiseN_group (k : EvKind) (src d : Nat) (s : State) (g : Nat) : (raiseN k src d s).group g = s.group g :=
  raise_group _ _ _ _ _ g
@[simp] theorem raiseIf_group (x : Bool) (k : EvKind) (src d : Nat) (s : State) (g : Nat) : (raiseIf x k src d s).group g = s.group g :=
  by
  unfold raiseIf; split <;> simp
@[simp] theorem raise_axis (k : EvKind) (src : Nat) (d : W32) (o : Origin) (s : State) (a : Nat) : (raise k src d o s).axis a = s.axis a :=
  by
  simp [State.axis]
@[simp] theorem raiseN_axis (k : EvKind) (src d : Nat) (s : State) (a : Nat) : (raiseN k src d s).axis a = s.axis a :=
  raise_axis _ _ _ _ _ a
@[simp] theorem raiseIf_axis (x : Bool) (k : EvKind) (src d : Nat) (s : State) (a : Nat) : (raiseIf x k src d s).axis a = s.axis a :=
  by
  unfold raiseIf; split <;> simp
theorem raise_hdrs (k : EvKind) (src : Nat) (d : W32) (o : Origin) (s : State) : view N.hdrs (raise k src d o s) = view N.hdrs s :=
  raise_view (by decide) k src d o s
@[simp] theorem raise_fnState (k : EvKind) (src : Nat) (d : W32) (o : Origin) (s : State) (f : Fn) : (raise k src d o s).fnState f = s.fnState f :=
  fnStateRead _ f (raise_hdrs k src d o s)
@[simp] theorem raiseN_fnState (k : EvKind) (src d : Nat) (s : State) (f : Fn) : (raiseN k src d s).fnState f = s.fnState f :=
  raise_fnState _ _ _ _ _ f
@[simp] theorem raiseIf_fnState (x : Bool) (k : EvKind) (src d : Nat) (s : State) (f : Fn) : (raiseIf x k src d s).fnState f = s.fnState f :=
  by
  unfold raiseIf; split <;> simp
/-- A loop over distinct elements passes through the round of `c`, and the other rounds keep a relation. -/
theorem forAll_at {β σ : Type} {R : σ → σ → Prop} (refl : ∀ t, R t t) (trans : ∀ a b c, R a b → R b c → R a c)
    {l : List β} {f : β → σ → σ} {c : β} (h : ∀ a t, a ≠ c → R t (f a t)) (hn : l.Nodup) (hc : c ∈ l) (s : σ) :
    ∃ u, R s u ∧ R (f c u) (forAll l f s) := by
  have keep : ∀ (l : List β) (s : σ), c ∉ l → R s (forAll l f s) := by
    intro l
    induction l with
    | nil => intro s _; exact refl s
    | cons a r ih =>
      intro s hm
      simp only [List.mem_cons, not_or] at hm
      exact trans _ _ _ (h a s (Ne.symm hm.1)) (ih _ hm.2)
  induction l generalizing s with
  | nil => simp at hc
  | cons a r ih =>
    obtain ⟨ha, hr⟩ := List.nodup_cons.1 hn
    by_cases e : a = c
    · subst e
      exact ⟨s, refl s, keep r _ ha⟩
    · have : c ∈ r := by
        rcases List.mem_cons.1 hc with h | h
        · exact absurd h.symm e
        · exact h
      obtain ⟨u, h1, h2⟩ := ih hr this (f a s)
      exact ⟨u, trans _ _ _ (h a s e) h1, h2⟩
theorem forRange_at {σ : Type} {R : σ → σ → Prop} (refl : ∀ t, R t t) (trans : ∀ a b c, R a b → R b c → R a c)
    {n : Nat} {f : Nat → σ → σ} {c : Nat} (h : ∀ a t, a ≠ c → R t (f a t)) (hc : c < n) (s : σ) :
    ∃ u, R s u ∧ R (f c u) (forRange n f s) := forAll_at refl trans h List.nodup_range (by simpa using hc) s
/-- The inbox only grows. -/
def Grows (s t : State) : Prop := ∃ l, t.recd.inbox = s.recd.inbox ++ l
theorem Grows.refl (s : State) : Grows s s := ⟨[], by simp⟩
theorem Grows.trans {a b c : State} : Grows a b → Grows b c → Grows a c := by
  rintro ⟨l, h⟩ ⟨m, k⟩
  exact ⟨l ++ m, by rw [k, h, List.append_assoc]⟩
theorem Grows.of_eq {s t : State} (h : t.recd.inbox = s.recd.inbox) : Grows s t := ⟨[], by simp [h]⟩
theorem grows_raise (k : EvKind) (src : Nat) (d : W32) (o : Origin) (s : State) : Grows s (raise k src d o s) :=
  ⟨_, raise_inbox _ _ _ _ _⟩
theorem grows_raiseN (k : EvKind) (src d : Nat) (s : State) : Grows s (raiseN k src d s) := ⟨_, raiseN_inbox _ _ _ _⟩
theorem raised_mid {s u v t : State} {k : EvKind} {src : Nat} {d : W32} (h1 : Grows s u) (h2 : Raised k src d u v) (h3 : Grows v t) : Raised k src d s t :=
  by
  obtain ⟨l, h1⟩ := h1
  obtain ⟨m, h3⟩ := h3
  obtain ⟨a, b, e, h, x⟩ := h2
  exact ⟨l ++ a, b ++ m, e, by rw [h3, h, h1]; simp, x⟩
theorem forAll_grows {β : Type} {l : List β} {f : β → State → State} (h : ∀ a t, Grows t (f a t)) (s : State) : Grows s (forAll l f s) :=
  by
  induction l generalizing s with
  | nil => exact .refl _
  | cons a r ih => exact (h a s).trans (ih _)
theorem forRange_grows {n : Nat} {f : Nat → State → State} (h : ∀ a t, Grows t (f a t)) (s : State) : Grows s (forRange n f s) :=
  forAll_grows h s
theorem raised_of_grows {s u : State} (h : Grows s u) (k : EvKind) (src : Nat) (d : W32) (o : Origin) : Raised k src d s (raise k src d o u) :=
  by
  obtain ⟨l, h⟩ := h
  exact ⟨l, [], mkEvent k src d o u, by simp [h], rfl, rfl, rfl⟩
theorem raised_of_growsN {s u : State} (h : Grows s u) (k : EvKind) (src d : Nat) : Raised k src (w32 d) s (raiseN k src d u) :=
  raised_of_grows h _ _ _ _
theorem driveAo_ch_other (b c : Nat) (s : State) {d e : Nat} (h : 16 * d + e ≠ 16 * b + c) : (driveAo b c s).ch d e = s.ch d e :=
  by
  unfold driveAo
  dsimp only
  split
  · rfl
  · rw [setCh_other _ _ h]
theorem driveAo_ch (b c : Nat) (s : State) : ∃ l d r, (driveAo b c s).ch b c = { s.ch b c with cmdLog := l, driven := d, raw := r } :=
  by
  unfold driveAo
  dsimp only
  split
  · exact ⟨_, _, _, rfl⟩
  · rw [setCh_self]; exact ⟨_, _, _, rfl⟩
theorem publishRow_ch (b c : Nat) (cl ra : Bool) (s : State) : ∃ e ep ri re lg pu, (publishRow b c cl ra s).ch b c
    = { s.ch b c with entry := e, episode := ep, riding := ri, rideEnd := re, lastGood := lg, published := pu } := by
  unfold publishRow
  extract_lets
  rw [raiseIf_ch, setCh_self]
  exact ⟨_, _, _, _, _, _, rfl⟩
theorem publishRow_ch_other (b c : Nat) (cl ra : Bool) (s : State) {d e : Nat} (h : 16 * d + e ≠ 16 * b + c) :
    (publishRow b c cl ra s).ch d e = s.ch d e := by
  unfold publishRow
  extract_lets
  rw [raiseIf_ch, setCh_other _ _ h]
theorem publish_ch (b c : Nat) (s : State) : ∃ e ep ri re lg pu, (publish b c s).ch b c
    = { s.ch b c with entry := e, episode := ep, riding := ri, rideEnd := re, lastGood := lg, published := pu } := publishRow_ch _ _ _ _ _
theorem publish_ch_other (b c : Nat) (s : State) {d e : Nat} (h : 16 * d + e ≠ 16 * b + c) : (publish b c s).ch d e = s.ch d e :=
  publishRow_ch_other _ _ _ _ _ h
theorem grows_raiseIf (x : Bool) (k : EvKind) (src d : Nat) (s : State) : Grows s (raiseIf x k src d s) := by
  unfold raiseIf
  split
  · exact grows_raiseN _ _ _ _
  · exact Grows.refl _
theorem grows_publishRow (b c : Nat) (cl ra : Bool) (s : State) : Grows s (publishRow b c cl ra s) := by
  unfold publishRow
  extract_lets
  refine Grows.trans ?_ (grows_raiseIf _ _ _ _ _)
  exact .of_eq rfl
theorem clearChannel_ch (b c : Nat) (s : State) : ((clearChannel b c s).ch b c).backfeed = false
    ∧ ((clearChannel b c s).ch b c).ne43 = false
    ∧ ((clearChannel b c s).ch b c).stageOff = false
        ∧ (failAction (s.chCfg b c) ≠ 2 → ((clearChannel b c s).ch b c).rbMismatch = false) := by
  unfold clearChannel
  extract_lets x latched s1
  have h1 : s1.ch b c = { x with backfeed := false, ne43 := false, stageOff := false, devRun := 0, rbMismatch := if latched then false else x.rbMismatch } := by
    simp [s1, x]
  split
  · obtain ⟨l, d, r, h⟩ := driveAo_ch b c s1
    rw [h, h1]
    refine ⟨rfl, rfl, rfl, ?_⟩
    intro h; simp [latched, h]
  · split
    · obtain ⟨e, ep, ri, re, lg, pu, h⟩ := publish_ch b c s1
      rw [h, h1]
      refine ⟨rfl, rfl, rfl, ?_⟩
      intro h; simp [latched, h]
    · rw [h1]
      refine ⟨rfl, rfl, rfl, ?_⟩
      intro h; simp [latched, h]
theorem clearChannel_grows (b c : Nat) (s : State) : Grows s (clearChannel b c s) := by
  unfold clearChannel
  extract_lets x latched s1
  split
  · refine .of_eq ?_
    (simp (disch := (first | decide | (intros; (repeat' split) <;> simp (disch := decide); done) | fail)) [view_forAll, view_forRange, mod_read, tu_read, trx_read, pair_read, img_read, sections_read, imgId_read, otp_read, banks_read, chs_read, groups_read, points_read, outCurrent_read, alarm_read, logic_read, div_read, divSel_read, loops_read, axes_read, bedrock_read, pool_read, can_read, panel_read, ckpt_read, pi_read, taskInbox_read, freeCount_read, pegMem_read, peg_present_read, peg_slots_read, peg_sel_read, peg_selecting_read, peg_reading_read, peg_chg_read, peg_chgSlot_read, peg_chgResult_read, peg_staged_read, peg_openSlot_read, mmp_waits_read, mmp_replies_read, mmp_sent_read, mmp_ports_read, inbox_read]; try simp only [← mod_read, ← tu_read, ← trx_read, ← pair_read, ← img_read, ← sections_read, ← imgId_read, ← otp_read, ← banks_read, ← chs_read, ← groups_read, ← points_read, ← outCurrent_read, ← alarm_read, ← logic_read, ← div_read, ← divSel_read, ← loops_read, ← axes_read, ← bedrock_read, ← pool_read, ← can_read, ← panel_read, ← ckpt_read, ← pi_read, ← taskInbox_read, ← freeCount_read, ← pegMem_read, ← peg_present_read, ← peg_slots_read, ← peg_sel_read, ← peg_selecting_read, ← peg_reading_read, ← peg_chg_read, ← peg_chgSlot_read, ← peg_chgResult_read, ← peg_staged_read, ← peg_openSlot_read, ← mmp_waits_read, ← mmp_replies_read, ← mmp_sent_read, ← mmp_ports_read, ← inbox_read])
    rfl
  · split
    · refine Grows.trans ?_ (grows_publishRow _ _ _ _ _)
      exact .of_eq rfl
    · exact .of_eq rfl
theorem clearChannel_other (b c : Nat) (s : State) {d e : Nat} (h : 16 * d + e ≠ 16 * b + c) : (clearChannel b c s).ch d e = s.ch d e :=
  by
  unfold clearChannel
  extract_lets x latched s1
  have h1 : s1.ch d e = s.ch d e := setCh_other _ _ h
  split
  · rw [driveAo_ch_other _ _ _ h, h1]
  · split
    · rw [publish_ch_other _ _ _ h, h1]
    · exact h1
theorem forRange_get {σ γ : Type} (get : σ → γ) {n : Nat} {f : Nat → σ → σ} {c : Nat} (h : ∀ a t, a ≠ c → get (f a t) = get t) (hc : c < n) (s : σ) :
    ∃ u, get u = get s ∧ get (forRange n f s) = get (f c u) := by
  obtain ⟨u, a, b⟩ := forRange_at (R := fun x y => get y = get x) (fun _ => rfl) (fun _ _ _ (h : _ = _) (k : _ = _) => k.trans h) h hc s
  exact ⟨u, a, b⟩
theorem forRange_getG {γ : Type} (get : State → γ) {n : Nat} {f : Nat → State → State} {c : Nat} (h : ∀ a t, a ≠ c → get (f a t) = get t)
    (hg : ∀ a t, Grows t (f a t)) (hc : c < n) (s : State) :
    ∃ u, get u = get s ∧ get (forRange n f s) = get (f c u) ∧ Grows s u ∧ Grows (f c u) (forRange n f s) := by
  obtain ⟨u, a, b⟩ := forRange_at (R := fun x y => get y = get x ∧ Grows x y) (fun _ => ⟨rfl, .refl _⟩) (fun _ _ _ (h : _ ∧ _) (k : _ ∧ _) => ⟨k.1.trans h.1, h.2.trans k.2⟩) (fun a t e => ⟨h a t e, hg a t⟩) hc s
  exact ⟨u, a.1, b.1, a.2, b.2⟩
theorem setTrim_bank (b : Nat) (f : TrimSt → TrimSt) (s : State) : (setTrim b f s).bank b = { s.bank b with trim := f (s.bank b).trim } :=
  by
  simp [setTrim]
theorem bank_of_banks {s t : State} (h : t.banks = s.banks) (b : Nat) : t.bank b = s.bank b := by simp [State.bank, h]
theorem settleVisible_bank (b c : Nat) (x : Bool) (s : State) (d : Nat) : (settleVisible b c x s).bank d = s.bank d :=
  bank_of_banks (by (simp (disch := (first | decide | (intros; (repeat' split) <;> simp (disch := decide); done) | fail)) [view_forAll, view_forRange, mod_read, tu_read, trx_read, pair_read, img_read, sections_read, imgId_read, otp_read, banks_read, chs_read, groups_read, points_read, outCurrent_read, alarm_read, logic_read, div_read, divSel_read, loops_read, axes_read, bedrock_read, pool_read, can_read, panel_read, ckpt_read, pi_read, taskInbox_read, freeCount_read, pegMem_read, peg_present_read, peg_slots_read, peg_sel_read, peg_selecting_read, peg_reading_read, peg_chg_read, peg_chgSlot_read, peg_chgResult_read, peg_staged_read, peg_openSlot_read, mmp_waits_read, mmp_replies_read, mmp_sent_read, mmp_ports_read, inbox_read]; try simp only [← mod_read, ← tu_read, ← trx_read, ← pair_read, ← img_read, ← sections_read, ← imgId_read, ← otp_read, ← banks_read, ← chs_read, ← groups_read, ← points_read, ← outCurrent_read, ← alarm_read, ← logic_read, ← div_read, ← divSel_read, ← loops_read, ← axes_read, ← bedrock_read, ← pool_read, ← can_read, ← panel_read, ← ckpt_read, ← pi_read, ← taskInbox_read, ← freeCount_read, ← pegMem_read, ← peg_present_read, ← peg_slots_read, ← peg_sel_read, ← peg_selecting_read, ← peg_reading_read, ← peg_chg_read, ← peg_chgSlot_read, ← peg_chgResult_read, ← peg_staged_read, ← peg_openSlot_read, ← mmp_waits_read, ← mmp_replies_read, ← mmp_sent_read, ← mmp_ports_read, ← inbox_read])) d
theorem wdRestart_bank (r : Ref) (s : State) (d : Nat) : (wdRestart r s).bank d = s.bank d :=
  bank_of_banks (by (simp (disch := (first | decide | (intros; (repeat' split) <;> simp (disch := decide); done) | fail)) [view_forAll, view_forRange, mod_read, tu_read, trx_read, pair_read, img_read, sections_read, imgId_read, otp_read, banks_read, chs_read, groups_read, points_read, outCurrent_read, alarm_read, logic_read, div_read, divSel_read, loops_read, axes_read, bedrock_read, pool_read, can_read, panel_read, ckpt_read, pi_read, taskInbox_read, freeCount_read, pegMem_read, peg_present_read, peg_slots_read, peg_sel_read, peg_selecting_read, peg_reading_read, peg_chg_read, peg_chgSlot_read, peg_chgResult_read, peg_staged_read, peg_openSlot_read, mmp_waits_read, mmp_replies_read, mmp_sent_read, mmp_ports_read, inbox_read]; try simp only [← mod_read, ← tu_read, ← trx_read, ← pair_read, ← img_read, ← sections_read, ← imgId_read, ← otp_read, ← banks_read, ← chs_read, ← groups_read, ← points_read, ← outCurrent_read, ← alarm_read, ← logic_read, ← div_read, ← divSel_read, ← loops_read, ← axes_read, ← bedrock_read, ← pool_read, ← can_read, ← panel_read, ← ckpt_read, ← pi_read, ← taskInbox_read, ← freeCount_read, ← pegMem_read, ← peg_present_read, ← peg_slots_read, ← peg_sel_read, ← peg_selecting_read, ← peg_reading_read, ← peg_chg_read, ← peg_chgSlot_read, ← peg_chgResult_read, ← peg_staged_read, ← peg_openSlot_read, ← mmp_waits_read, ← mmp_replies_read, ← mmp_sent_read, ← mmp_ports_read, ← inbox_read])) d
theorem wdSuspend_bank (r : Ref) (s : State) (d : Nat) : (wdSuspend r s).bank d = s.bank d :=
  bank_of_banks (by (simp (disch := (first | decide | (intros; (repeat' split) <;> simp (disch := decide); done) | fail)) [view_forAll, view_forRange, mod_read, tu_read, trx_read, pair_read, img_read, sections_read, imgId_read, otp_read, banks_read, chs_read, groups_read, points_read, outCurrent_read, alarm_read, logic_read, div_read, divSel_read, loops_read, axes_read, bedrock_read, pool_read, can_read, panel_read, ckpt_read, pi_read, taskInbox_read, freeCount_read, pegMem_read, peg_present_read, peg_slots_read, peg_sel_read, peg_selecting_read, peg_reading_read, peg_chg_read, peg_chgSlot_read, peg_chgResult_read, peg_staged_read, peg_openSlot_read, mmp_waits_read, mmp_replies_read, mmp_sent_read, mmp_ports_read, inbox_read]; try simp only [← mod_read, ← tu_read, ← trx_read, ← pair_read, ← img_read, ← sections_read, ← imgId_read, ← otp_read, ← banks_read, ← chs_read, ← groups_read, ← points_read, ← outCurrent_read, ← alarm_read, ← logic_read, ← div_read, ← divSel_read, ← loops_read, ← axes_read, ← bedrock_read, ← pool_read, ← can_read, ← panel_read, ← ckpt_read, ← pi_read, ← taskInbox_read, ← freeCount_read, ← pegMem_read, ← peg_present_read, ← peg_slots_read, ← peg_sel_read, ← peg_selecting_read, ← peg_reading_read, ← peg_chg_read, ← peg_chgSlot_read, ← peg_chgResult_read, ← peg_staged_read, ← peg_openSlot_read, ← mmp_waits_read, ← mmp_replies_read, ← mmp_sent_read, ← mmp_ports_read, ← inbox_read])) d
theorem publish_bank (b c : Nat) (s : State) (d : Nat) : (publish b c s).bank d = s.bank d :=
  bank_of_banks (by (simp (disch := (first | decide | (intros; (repeat' split) <;> simp (disch := decide); done) | fail)) [view_forAll, view_forRange, mod_read, tu_read, trx_read, pair_read, img_read, sections_read, imgId_read, otp_read, banks_read, chs_read, groups_read, points_read, outCurrent_read, alarm_read, logic_read, div_read, divSel_read, loops_read, axes_read, bedrock_read, pool_read, can_read, panel_read, ckpt_read, pi_read, taskInbox_read, freeCount_read, pegMem_read, peg_present_read, peg_slots_read, peg_sel_read, peg_selecting_read, peg_reading_read, peg_chg_read, peg_chgSlot_read, peg_chgResult_read, peg_staged_read, peg_openSlot_read, mmp_waits_read, mmp_replies_read, mmp_sent_read, mmp_ports_read, inbox_read]; try simp only [← mod_read, ← tu_read, ← trx_read, ← pair_read, ← img_read, ← sections_read, ← imgId_read, ← otp_read, ← banks_read, ← chs_read, ← groups_read, ← points_read, ← outCurrent_read, ← alarm_read, ← logic_read, ← div_read, ← divSel_read, ← loops_read, ← axes_read, ← bedrock_read, ← pool_read, ← can_read, ← panel_read, ← ckpt_read, ← pi_read, ← taskInbox_read, ← freeCount_read, ← pegMem_read, ← peg_present_read, ← peg_slots_read, ← peg_sel_read, ← peg_selecting_read, ← peg_reading_read, ← peg_chg_read, ← peg_chgSlot_read, ← peg_chgResult_read, ← peg_staged_read, ← peg_openSlot_read, ← mmp_waits_read, ← mmp_replies_read, ← mmp_sent_read, ← mmp_ports_read, ← inbox_read])) d
theorem driveAo_bank (b c : Nat) (s : State) (d : Nat) : (driveAo b c s).bank d = s.bank d :=
  bank_of_banks (by (simp (disch := (first | decide | (intros; (repeat' split) <;> simp (disch := decide); done) | fail)) [view_forAll, view_forRange, mod_read, tu_read, trx_read, pair_read, img_read, sections_read, imgId_read, otp_read, banks_read, chs_read, groups_read, points_read, outCurrent_read, alarm_read, logic_read, div_read, divSel_read, loops_read, axes_read, bedrock_read, pool_read, can_read, panel_read, ckpt_read, pi_read, taskInbox_read, freeCount_read, pegMem_read, peg_present_read, peg_slots_read, peg_sel_read, peg_selecting_read, peg_reading_read, peg_chg_read, peg_chgSlot_read, peg_chgResult_read, peg_staged_read, peg_openSlot_read, mmp_waits_read, mmp_replies_read, mmp_sent_read, mmp_ports_read, inbox_read]; try simp only [← mod_read, ← tu_read, ← trx_read, ← pair_read, ← img_read, ← sections_read, ← imgId_read, ← otp_read, ← banks_read, ← chs_read, ← groups_read, ← points_read, ← outCurrent_read, ← alarm_read, ← logic_read, ← div_read, ← divSel_read, ← loops_read, ← axes_read, ← bedrock_read, ← pool_read, ← can_read, ← panel_read, ← ckpt_read, ← pi_read, ← taskInbox_read, ← freeCount_read, ← pegMem_read, ← peg_present_read, ← peg_slots_read, ← peg_sel_read, ← peg_selecting_read, ← peg_reading_read, ← peg_chg_read, ← peg_chgSlot_read, ← peg_chgResult_read, ← peg_staged_read, ← peg_openSlot_read, ← mmp_waits_read, ← mmp_replies_read, ← mmp_sent_read, ← mmp_ports_read, ← inbox_read])) d
theorem trimEnd_trim (b result : Nat) (s : State) : ((trimEnd b result s).bank b).trim
    = { (s.bank b).trim with state := .idle, averaging := false, result := result } := by
  unfold trimEnd
  extract_lets t s1
  have h : s1.bank b = { s.bank b with trim := { t with state := .idle, averaging := false, result := result } } := by
    simp only [s1, setTrim_bank]; rfl
  split
  · rw [h]
  · split
    · rw [settleVisible_bank, h]
    · rw [wdRestart_bank, h]
theorem trimStart_ok (s : State) (b kind : Nat) (r : Role) (h : trimStartCode s b kind r = 0) (hg : Grows s (publish b (s.bank b).trim.sel (setTrim b (fun t => { sel := t.sel, meas := t.meas, state := .point1, kind := kind }) s))) :
    ((trimStart b kind r s).bank b).trim = { sel := (s.bank b).trim.sel, meas := (s.bank b).trim.meas, state := .point1, kind := kind }
      ∧ Raised Ev.TRIM_STARTED (chSrc b (s.bank b).trim.sel) (w32 kind) s (trimStart b kind r s) := by
  unfold trimStart
  extract_lets code c s1 s2
  have e : code = 0 := h
  rw [if_neg (by simp [e])]
  refine ⟨?_, ?_⟩
  · rw [raise_bank]
    have : s2.bank b = s1.bank b := by
      unfold s2
      split
      · rw [publish_bank]
      · rw [wdSuspend_bank]
    rw [this]
    simp only [s1, setTrim_bank]
  · refine raised_of_grows ?_ _ _ _ _
    unfold s2
    split
    · exact hg
    · refine .of_eq ?_
      (simp (disch := (first | decide | (intros; (repeat' split) <;> simp (disch := decide); done) | fail)) [view_forAll, view_forRange, mod_read, tu_read, trx_read, pair_read, img_read, sections_read, imgId_read, otp_read, banks_read, chs_read, groups_read, points_read, outCurrent_read, alarm_read, logic_read, div_read, divSel_read, loops_read, axes_read, bedrock_read, pool_read, can_read, panel_read, ckpt_read, pi_read, taskInbox_read, freeCount_read, pegMem_read, peg_present_read, peg_slots_read, peg_sel_read, peg_selecting_read, peg_reading_read, peg_chg_read, peg_chgSlot_read, peg_chgResult_read, peg_staged_read, peg_openSlot_read, mmp_waits_read, mmp_replies_read, mmp_sent_read, mmp_ports_read, inbox_read]; try simp only [← mod_read, ← tu_read, ← trx_read, ← pair_read, ← img_read, ← sections_read, ← imgId_read, ← otp_read, ← banks_read, ← chs_read, ← groups_read, ← points_read, ← outCurrent_read, ← alarm_read, ← logic_read, ← div_read, ← divSel_read, ← loops_read, ← axes_read, ← bedrock_read, ← pool_read, ← can_read, ← panel_read, ← ckpt_read, ← pi_read, ← taskInbox_read, ← freeCount_read, ← pegMem_read, ← peg_present_read, ← peg_slots_read, ← peg_sel_read, ← peg_selecting_read, ← peg_reading_read, ← peg_chg_read, ← peg_chgSlot_read, ← peg_chgResult_read, ← peg_staged_read, ← peg_openSlot_read, ← mmp_waits_read, ← mmp_replies_read, ← mmp_sent_read, ← mmp_ports_read, ← inbox_read])
      rfl
@[simp] theorem publish_f_result (b c : Nat) (s : State) : ((publish b c s).ch b c).result = (s.ch b c).result := by
  obtain ⟨_, _, _, _, _, _, h⟩ := publish_ch b c s; rw [h]
@[simp] theorem publishRow_f_result (b c : Nat) (x y : Bool) (s : State) : ((publishRow b c x y s).ch b c).result = (s.ch b c).result :=
  by
  obtain ⟨_, _, _, _, _, _, h⟩ := publishRow_ch b c x y s; rw [h]
@[simp] theorem publish_f_mode (b c : Nat) (s : State) : ((publish b c s).ch b c).mode = (s.ch b c).mode := by
  obtain ⟨_, _, _, _, _, _, h⟩ := publish_ch b c s; rw [h]
@[simp] theorem publishRow_f_mode (b c : Nat) (x y : Bool) (s : State) : ((publishRow b c x y s).ch b c).mode = (s.ch b c).mode :=
  by
  obtain ⟨_, _, _, _, _, _, h⟩ := publishRow_ch b c x y s; rw [h]
@[simp] theorem publish_f_raw (b c : Nat) (s : State) : ((publish b c s).ch b c).raw = (s.ch b c).raw := by
  obtain ⟨_, _, _, _, _, _, h⟩ := publish_ch b c s; rw [h]
@[simp] theorem publishRow_f_raw (b c : Nat) (x y : Bool) (s : State) : ((publishRow b c x y s).ch b c).raw = (s.ch b c).raw :=
  by
  obtain ⟨_, _, _, _, _, _, h⟩ := publishRow_ch b c x y s; rw [h]
@[simp] theorem publish_f_readback (b c : Nat) (s : State) : ((publish b c s).ch b c).readback = (s.ch b c).readback :=
  by
  obtain ⟨_, _, _, _, _, _, h⟩ := publish_ch b c s; rw [h]
@[simp] theorem publishRow_f_readback (b c : Nat) (x y : Bool) (s : State) : ((publishRow b c x y s).ch b c).readback = (s.ch b c).readback :=
  by
  obtain ⟨_, _, _, _, _, _, h⟩ := publishRow_ch b c x y s; rw [h]
@[simp] theorem publish_f_supply (b c : Nat) (s : State) : ((publish b c s).ch b c).supply = (s.ch b c).supply := by
  obtain ⟨_, _, _, _, _, _, h⟩ := publish_ch b c s; rw [h]
@[simp] theorem publishRow_f_supply (b c : Nat) (x y : Bool) (s : State) : ((publishRow b c x y s).ch b c).supply = (s.ch b c).supply :=
  by
  obtain ⟨_, _, _, _, _, _, h⟩ := publishRow_ch b c x y s; rw [h]
@[simp] theorem publish_f_headroom (b c : Nat) (s : State) : ((publish b c s).ch b c).headroom = (s.ch b c).headroom :=
  by
  obtain ⟨_, _, _, _, _, _, h⟩ := publish_ch b c s; rw [h]
@[simp] theorem publishRow_f_headroom (b c : Nat) (x y : Bool) (s : State) : ((publishRow b c x y s).ch b c).headroom = (s.ch b c).headroom :=
  by
  obtain ⟨_, _, _, _, _, _, h⟩ := publishRow_ch b c x y s; rw [h]
@[simp] theorem publish_f_compLow (b c : Nat) (s : State) : ((publish b c s).ch b c).compLow = (s.ch b c).compLow :=
  by
  obtain ⟨_, _, _, _, _, _, h⟩ := publish_ch b c s; rw [h]
@[simp] theorem publishRow_f_compLow (b c : Nat) (x y : Bool) (s : State) : ((publishRow b c x y s).ch b c).compLow = (s.ch b c).compLow :=
  by
  obtain ⟨_, _, _, _, _, _, h⟩ := publishRow_ch b c x y s; rw [h]
@[simp] theorem publish_f_compShort (b c : Nat) (s : State) : ((publish b c s).ch b c).compShort = (s.ch b c).compShort :=
  by
  obtain ⟨_, _, _, _, _, _, h⟩ := publish_ch b c s; rw [h]
@[simp] theorem publishRow_f_compShort (b c : Nat) (x y : Bool) (s : State) : ((publishRow b c x y s).ch b c).compShort = (s.ch b c).compShort :=
  by
  obtain ⟨_, _, _, _, _, _, h⟩ := publishRow_ch b c x y s; rw [h]
@[simp] theorem publish_f_backfeed (b c : Nat) (s : State) : ((publish b c s).ch b c).backfeed = (s.ch b c).backfeed :=
  by
  obtain ⟨_, _, _, _, _, _, h⟩ := publish_ch b c s; rw [h]
@[simp] theorem publishRow_f_backfeed (b c : Nat) (x y : Bool) (s : State) : ((publishRow b c x y s).ch b c).backfeed = (s.ch b c).backfeed :=
  by
  obtain ⟨_, _, _, _, _, _, h⟩ := publishRow_ch b c x y s; rw [h]
@[simp] theorem publish_f_rbMismatch (b c : Nat) (s : State) : ((publish b c s).ch b c).rbMismatch = (s.ch b c).rbMismatch :=
  by
  obtain ⟨_, _, _, _, _, _, h⟩ := publish_ch b c s; rw [h]
@[simp] theorem publishRow_f_rbMismatch (b c : Nat) (x y : Bool) (s : State) : ((publishRow b c x y s).ch b c).rbMismatch = (s.ch b c).rbMismatch :=
  by
  obtain ⟨_, _, _, _, _, _, h⟩ := publishRow_ch b c x y s; rw [h]
@[simp] theorem publish_f_stageOff (b c : Nat) (s : State) : ((publish b c s).ch b c).stageOff = (s.ch b c).stageOff :=
  by
  obtain ⟨_, _, _, _, _, _, h⟩ := publish_ch b c s; rw [h]
@[simp] theorem publishRow_f_stageOff (b c : Nat) (x y : Bool) (s : State) : ((publishRow b c x y s).ch b c).stageOff = (s.ch b c).stageOff :=
  by
  obtain ⟨_, _, _, _, _, _, h⟩ := publishRow_ch b c x y s; rw [h]
@[simp] theorem publish_f_ne43 (b c : Nat) (s : State) : ((publish b c s).ch b c).ne43 = (s.ch b c).ne43 := by
  obtain ⟨_, _, _, _, _, _, h⟩ := publish_ch b c s; rw [h]
@[simp] theorem publishRow_f_ne43 (b c : Nat) (x y : Bool) (s : State) : ((publishRow b c x y s).ch b c).ne43 = (s.ch b c).ne43 :=
  by
  obtain ⟨_, _, _, _, _, _, h⟩ := publishRow_ch b c x y s; rw [h]
@[simp] theorem publish_f_devRun (b c : Nat) (s : State) : ((publish b c s).ch b c).devRun = (s.ch b c).devRun := by
  obtain ⟨_, _, _, _, _, _, h⟩ := publish_ch b c s; rw [h]
@[simp] theorem publishRow_f_devRun (b c : Nat) (x y : Bool) (s : State) : ((publishRow b c x y s).ch b c).devRun = (s.ch b c).devRun :=
  by
  obtain ⟨_, _, _, _, _, _, h⟩ := publishRow_ch b c x y s; rw [h]
@[simp] theorem publish_f_okRun (b c : Nat) (s : State) : ((publish b c s).ch b c).okRun = (s.ch b c).okRun := by
  obtain ⟨_, _, _, _, _, _, h⟩ := publish_ch b c s; rw [h]
@[simp] theorem publishRow_f_okRun (b c : Nat) (x y : Bool) (s : State) : ((publishRow b c x y s).ch b c).okRun = (s.ch b c).okRun :=
  by
  obtain ⟨_, _, _, _, _, _, h⟩ := publishRow_ch b c x y s; rw [h]
@[simp] theorem publish_f_rbEntry (b c : Nat) (s : State) : ((publish b c s).ch b c).rbEntry = (s.ch b c).rbEntry :=
  by
  obtain ⟨_, _, _, _, _, _, h⟩ := publish_ch b c s; rw [h]
@[simp] theorem publishRow_f_rbEntry (b c : Nat) (x y : Bool) (s : State) : ((publishRow b c x y s).ch b c).rbEntry = (s.ch b c).rbEntry :=
  by
  obtain ⟨_, _, _, _, _, _, h⟩ := publishRow_ch b c x y s; rw [h]
@[simp] theorem publish_f_wd (b c : Nat) (s : State) : ((publish b c s).ch b c).wd = (s.ch b c).wd := by
  obtain ⟨_, _, _, _, _, _, h⟩ := publish_ch b c s; rw [h]
@[simp] theorem publishRow_f_wd (b c : Nat) (x y : Bool) (s : State) : ((publishRow b c x y s).ch b c).wd = (s.ch b c).wd :=
  by
  obtain ⟨_, _, _, _, _, _, h⟩ := publishRow_ch b c x y s; rw [h]
@[simp] theorem publish_f_driven (b c : Nat) (s : State) : ((publish b c s).ch b c).driven = (s.ch b c).driven := by
  obtain ⟨_, _, _, _, _, _, h⟩ := publish_ch b c s; rw [h]
@[simp] theorem publishRow_f_driven (b c : Nat) (x y : Bool) (s : State) : ((publishRow b c x y s).ch b c).driven = (s.ch b c).driven :=
  by
  obtain ⟨_, _, _, _, _, _, h⟩ := publishRow_ch b c x y s; rw [h]
@[simp] theorem publish_f_cmdLog (b c : Nat) (s : State) : ((publish b c s).ch b c).cmdLog = (s.ch b c).cmdLog := by
  obtain ⟨_, _, _, _, _, _, h⟩ := publish_ch b c s; rw [h]
@[simp] theorem publishRow_f_cmdLog (b c : Nat) (x y : Bool) (s : State) : ((publishRow b c x y s).ch b c).cmdLog = (s.ch b c).cmdLog :=
  by
  obtain ⟨_, _, _, _, _, _, h⟩ := publishRow_ch b c x y s; rw [h]
@[simp] theorem publish_f_discard (b c : Nat) (s : State) : ((publish b c s).ch b c).discard = (s.ch b c).discard :=
  by
  obtain ⟨_, _, _, _, _, _, h⟩ := publish_ch b c s; rw [h]
@[simp] theorem publishRow_f_discard (b c : Nat) (x y : Bool) (s : State) : ((publishRow b c x y s).ch b c).discard = (s.ch b c).discard :=
  by
  obtain ⟨_, _, _, _, _, _, h⟩ := publishRow_ch b c x y s; rw [h]
@[simp] theorem publish_f_partial (b c : Nat) (s : State) : ((publish b c s).ch b c).partial' = (s.ch b c).partial' :=
  by
  obtain ⟨_, _, _, _, _, _, h⟩ := publish_ch b c s; rw [h]
@[simp] theorem publishRow_f_partial (b c : Nat) (x y : Bool) (s : State) : ((publishRow b c x y s).ch b c).partial' = (s.ch b c).partial' :=
  by
  obtain ⟨_, _, _, _, _, _, h⟩ := publishRow_ch b c x y s; rw [h]
@[simp] theorem publish_f_winAt (b c : Nat) (s : State) : ((publish b c s).ch b c).winAt = (s.ch b c).winAt := by
  obtain ⟨_, _, _, _, _, _, h⟩ := publish_ch b c s; rw [h]
@[simp] theorem publishRow_f_winAt (b c : Nat) (x y : Bool) (s : State) : ((publishRow b c x y s).ch b c).winAt = (s.ch b c).winAt :=
  by
  obtain ⟨_, _, _, _, _, _, h⟩ := publishRow_ch b c x y s; rw [h]
@[simp] theorem publish_f_half2 (b c : Nat) (s : State) : ((publish b c s).ch b c).half2 = (s.ch b c).half2 := by
  obtain ⟨_, _, _, _, _, _, h⟩ := publish_ch b c s; rw [h]
@[simp] theorem publishRow_f_half2 (b c : Nat) (x y : Bool) (s : State) : ((publishRow b c x y s).ch b c).half2 = (s.ch b c).half2 :=
  by
  obtain ⟨_, _, _, _, _, _, h⟩ := publishRow_ch b c x y s; rw [h]
@[simp] theorem publish_f_winSeen (b c : Nat) (s : State) : ((publish b c s).ch b c).winSeen = (s.ch b c).winSeen :=
  by
  obtain ⟨_, _, _, _, _, _, h⟩ := publish_ch b c s; rw [h]
@[simp] theorem publishRow_f_winSeen (b c : Nat) (x y : Bool) (s : State) : ((publishRow b c x y s).ch b c).winSeen = (s.ch b c).winSeen :=
  by
  obtain ⟨_, _, _, _, _, _, h⟩ := publishRow_ch b c x y s; rw [h]
@[simp] theorem publish_f_winBad (b c : Nat) (s : State) : ((publish b c s).ch b c).winBad = (s.ch b c).winBad := by
  obtain ⟨_, _, _, _, _, _, h⟩ := publish_ch b c s; rw [h]
@[simp] theorem publishRow_f_winBad (b c : Nat) (x y : Bool) (s : State) : ((publishRow b c x y s).ch b c).winBad = (s.ch b c).winBad :=
  by
  obtain ⟨_, _, _, _, _, _, h⟩ := publishRow_ch b c x y s; rw [h]
@[simp] theorem publish_f_res1 (b c : Nat) (s : State) : ((publish b c s).ch b c).res1 = (s.ch b c).res1 := by
  obtain ⟨_, _, _, _, _, _, h⟩ := publish_ch b c s; rw [h]
@[simp] theorem publishRow_f_res1 (b c : Nat) (x y : Bool) (s : State) : ((publishRow b c x y s).ch b c).res1 = (s.ch b c).res1 :=
  by
  obtain ⟨_, _, _, _, _, _, h⟩ := publishRow_ch b c x y s; rw [h]
@[simp] theorem publish_f_res2 (b c : Nat) (s : State) : ((publish b c s).ch b c).res2 = (s.ch b c).res2 := by
  obtain ⟨_, _, _, _, _, _, h⟩ := publish_ch b c s; rw [h]
@[simp] theorem publishRow_f_res2 (b c : Nat) (x y : Bool) (s : State) : ((publishRow b c x y s).ch b c).res2 = (s.ch b c).res2 :=
  by
  obtain ⟨_, _, _, _, _, _, h⟩ := publishRow_ch b c x y s; rw [h]
@[simp] theorem publish_f_settling (b c : Nat) (s : State) : ((publish b c s).ch b c).settling = (s.ch b c).settling :=
  by
  obtain ⟨_, _, _, _, _, _, h⟩ := publish_ch b c s; rw [h]
@[simp] theorem publishRow_f_settling (b c : Nat) (x y : Bool) (s : State) : ((publishRow b c x y s).ch b c).settling = (s.ch b c).settling :=
  by
  obtain ⟨_, _, _, _, _, _, h⟩ := publishRow_ch b c x y s; rw [h]
@[simp] theorem publish_f_rng (b c : Nat) (s : State) : ((publish b c s).ch b c).rng = (s.ch b c).rng := by
  obtain ⟨_, _, _, _, _, _, h⟩ := publish_ch b c s; rw [h]
@[simp] theorem publishRow_f_rng (b c : Nat) (x y : Bool) (s : State) : ((publishRow b c x y s).ch b c).rng = (s.ch b c).rng :=
  by
  obtain ⟨_, _, _, _, _, _, h⟩ := publishRow_ch b c x y s; rw [h]
@[simp] theorem publish_f_rng2 (b c : Nat) (s : State) : ((publish b c s).ch b c).rng2 = (s.ch b c).rng2 := by
  obtain ⟨_, _, _, _, _, _, h⟩ := publish_ch b c s; rw [h]
@[simp] theorem publishRow_f_rng2 (b c : Nat) (x y : Bool) (s : State) : ((publishRow b c x y s).ch b c).rng2 = (s.ch b c).rng2 :=
  by
  obtain ⟨_, _, _, _, _, _, h⟩ := publishRow_ch b c x y s; rw [h]
@[simp] theorem publish_f_wireBreak (b c : Nat) (s : State) : ((publish b c s).ch b c).wireBreak = (s.ch b c).wireBreak :=
  by
  obtain ⟨_, _, _, _, _, _, h⟩ := publish_ch b c s; rw [h]
@[simp] theorem publishRow_f_wireBreak (b c : Nat) (x y : Bool) (s : State) : ((publishRow b c x y s).ch b c).wireBreak = (s.ch b c).wireBreak :=
  by
  obtain ⟨_, _, _, _, _, _, h⟩ := publishRow_ch b c x y s; rw [h]
@[simp] theorem publish_f_wbPass (b c : Nat) (s : State) : ((publish b c s).ch b c).wbPass = (s.ch b c).wbPass := by
  obtain ⟨_, _, _, _, _, _, h⟩ := publish_ch b c s; rw [h]
@[simp] theorem publishRow_f_wbPass (b c : Nat) (x y : Bool) (s : State) : ((publishRow b c x y s).ch b c).wbPass = (s.ch b c).wbPass :=
  by
  obtain ⟨_, _, _, _, _, _, h⟩ := publishRow_ch b c x y s; rw [h]
@[simp] theorem publish_f_comp (b c : Nat) (s : State) : ((publish b c s).ch b c).comp = (s.ch b c).comp := by
  obtain ⟨_, _, _, _, _, _, h⟩ := publish_ch b c s; rw [h]
@[simp] theorem publishRow_f_comp (b c : Nat) (x y : Bool) (s : State) : ((publishRow b c x y s).ch b c).comp = (s.ch b c).comp :=
  by
  obtain ⟨_, _, _, _, _, _, h⟩ := publishRow_ch b c x y s; rw [h]
@[simp] theorem publish_f_tComp (b c : Nat) (s : State) : ((publish b c s).ch b c).tComp = (s.ch b c).tComp := by
  obtain ⟨_, _, _, _, _, _, h⟩ := publish_ch b c s; rw [h]
@[simp] theorem publishRow_f_tComp (b c : Nat) (x y : Bool) (s : State) : ((publishRow b c x y s).ch b c).tComp = (s.ch b c).tComp :=
  by
  obtain ⟨_, _, _, _, _, _, h⟩ := publishRow_ch b c x y s; rw [h]
@[simp] theorem publish_f_lead (b c : Nat) (s : State) : ((publish b c s).ch b c).lead = (s.ch b c).lead := by
  obtain ⟨_, _, _, _, _, _, h⟩ := publish_ch b c s; rw [h]
@[simp] theorem publishRow_f_lead (b c : Nat) (x y : Bool) (s : State) : ((publishRow b c x y s).ch b c).lead = (s.ch b c).lead :=
  by
  obtain ⟨_, _, _, _, _, _, h⟩ := publishRow_ch b c x y s; rw [h]
@[simp] theorem publish_f_x (b c : Nat) (s : State) : ((publish b c s).ch b c).x = (s.ch b c).x := by
  obtain ⟨_, _, _, _, _, _, h⟩ := publish_ch b c s; rw [h]
@[simp] theorem publishRow_f_x (b c : Nat) (x y : Bool) (s : State) : ((publishRow b c x y s).ch b c).x = (s.ch b c).x :=
  by
  obtain ⟨_, _, _, _, _, _, h⟩ := publishRow_ch b c x y s; rw [h]
@[simp] theorem publish_f_t (b c : Nat) (s : State) : ((publish b c s).ch b c).t = (s.ch b c).t := by
  obtain ⟨_, _, _, _, _, _, h⟩ := publish_ch b c s; rw [h]
@[simp] theorem publishRow_f_t (b c : Nat) (x y : Bool) (s : State) : ((publishRow b c x y s).ch b c).t = (s.ch b c).t :=
  by
  obtain ⟨_, _, _, _, _, _, h⟩ := publishRow_ch b c x y s; rw [h]
@[simp] theorem publish_f_y (b c : Nat) (s : State) : ((publish b c s).ch b c).y = (s.ch b c).y := by
  obtain ⟨_, _, _, _, _, _, h⟩ := publish_ch b c s; rw [h]
@[simp] theorem publishRow_f_y (b c : Nat) (x y : Bool) (s : State) : ((publishRow b c x y s).ch b c).y = (s.ch b c).y :=
  by
  obtain ⟨_, _, _, _, _, _, h⟩ := publishRow_ch b c x y s; rw [h]
@[simp] theorem publish_f_second (b c : Nat) (s : State) : ((publish b c s).ch b c).second = (s.ch b c).second := by
  obtain ⟨_, _, _, _, _, _, h⟩ := publish_ch b c s; rw [h]
@[simp] theorem publishRow_f_second (b c : Nat) (x y : Bool) (s : State) : ((publishRow b c x y s).ch b c).second = (s.ch b c).second :=
  by
  obtain ⟨_, _, _, _, _, _, h⟩ := publishRow_ch b c x y s; rw [h]
@[simp] theorem publish_f_secondN (b c : Nat) (s : State) : ((publish b c s).ch b c).secondN = (s.ch b c).secondN :=
  by
  obtain ⟨_, _, _, _, _, _, h⟩ := publish_ch b c s; rw [h]
@[simp] theorem publishRow_f_secondN (b c : Nat) (x y : Bool) (s : State) : ((publishRow b c x y s).ch b c).secondN = (s.ch b c).secondN :=
  by
  obtain ⟨_, _, _, _, _, _, h⟩ := publishRow_ch b c x y s; rw [h]
@[simp] theorem publish_f_secondAt (b c : Nat) (s : State) : ((publish b c s).ch b c).secondAt = (s.ch b c).secondAt :=
  by
  obtain ⟨_, _, _, _, _, _, h⟩ := publish_ch b c s; rw [h]
@[simp] theorem publishRow_f_secondAt (b c : Nat) (x y : Bool) (s : State) : ((publishRow b c x y s).ch b c).secondAt = (s.ch b c).secondAt :=
  by
  obtain ⟨_, _, _, _, _, _, h⟩ := publishRow_ch b c x y s; rw [h]
@[simp] theorem publish_f_track (b c : Nat) (s : State) : ((publish b c s).ch b c).track = (s.ch b c).track := by
  obtain ⟨_, _, _, _, _, _, h⟩ := publish_ch b c s; rw [h]
@[simp] theorem publishRow_f_track (b c : Nat) (x y : Bool) (s : State) : ((publishRow b c x y s).ch b c).track = (s.ch b c).track :=
  by
  obtain ⟨_, _, _, _, _, _, h⟩ := publishRow_ch b c x y s; rw [h]
@[simp] theorem publish_f_notchFreq (b c : Nat) (s : State) : ((publish b c s).ch b c).notchFreq = (s.ch b c).notchFreq :=
  by
  obtain ⟨_, _, _, _, _, _, h⟩ := publish_ch b c s; rw [h]
@[simp] theorem publishRow_f_notchFreq (b c : Nat) (x y : Bool) (s : State) : ((publishRow b c x y s).ch b c).notchFreq = (s.ch b c).notchFreq :=
  by
  obtain ⟨_, _, _, _, _, _, h⟩ := publishRow_ch b c x y s; rw [h]
@[simp] theorem publish_f_lastFreq (b c : Nat) (s : State) : ((publish b c s).ch b c).lastFreq = (s.ch b c).lastFreq :=
  by
  obtain ⟨_, _, _, _, _, _, h⟩ := publish_ch b c s; rw [h]
@[simp] theorem publishRow_f_lastFreq (b c : Nat) (x y : Bool) (s : State) : ((publishRow b c x y s).ch b c).lastFreq = (s.ch b c).lastFreq :=
  by
  obtain ⟨_, _, _, _, _, _, h⟩ := publishRow_ch b c x y s; rw [h]
@[simp] theorem publish_f_notchLen (b c : Nat) (s : State) : ((publish b c s).ch b c).notchLen = (s.ch b c).notchLen :=
  by
  obtain ⟨_, _, _, _, _, _, h⟩ := publish_ch b c s; rw [h]
@[simp] theorem publishRow_f_notchLen (b c : Nat) (x y : Bool) (s : State) : ((publishRow b c x y s).ch b c).notchLen = (s.ch b c).notchLen :=
  by
  obtain ⟨_, _, _, _, _, _, h⟩ := publishRow_ch b c x y s; rw [h]
@[simp] theorem publish_f_validSince (b c : Nat) (s : State) : ((publish b c s).ch b c).validSince = (s.ch b c).validSince :=
  by
  obtain ⟨_, _, _, _, _, _, h⟩ := publish_ch b c s; rw [h]
@[simp] theorem publishRow_f_validSince (b c : Nat) (x y : Bool) (s : State) : ((publishRow b c x y s).ch b c).validSince = (s.ch b c).validSince :=
  by
  obtain ⟨_, _, _, _, _, _, h⟩ := publishRow_ch b c x y s; rw [h]
@[simp] theorem publish_f_testFailed (b c : Nat) (s : State) : ((publish b c s).ch b c).testFailed = (s.ch b c).testFailed :=
  by
  obtain ⟨_, _, _, _, _, _, h⟩ := publish_ch b c s; rw [h]
@[simp] theorem publishRow_f_testFailed (b c : Nat) (x y : Bool) (s : State) : ((publishRow b c x y s).ch b c).testFailed = (s.ch b c).testFailed :=
  by
  obtain ⟨_, _, _, _, _, _, h⟩ := publishRow_ch b c x y s; rw [h]
theorem compStep_ch (b c : Nat) (s : State) : ∃ m t, (compStep b c s).ch b c = { s.ch b c with comp := m, tComp := t } :=
  by
  unfold compStep
  dsimp only
  split
  · exact ⟨_, _, by rw [setCh_self]⟩
  · split
    · exact ⟨_, _, by rw [raiseIf_ch, setCh_self]⟩
    · split
      · exact ⟨_, _, by rw [raiseIf_ch, setCh_self]⟩
      · exact ⟨_, _, by rw [raiseIf_ch, raiseIf_ch, setCh_self]⟩
@[simp] theorem rangeEvents_ch (src : Nat) (old new : RangeSt) (x y : F32) (s : State) (b c : Nat) : (rangeEvents src old new x y s).ch b c = s.ch b c :=
  by
  unfold rangeEvents
  dsimp only
  split
  · rfl
  · split
    · simp
    · split
      · simp
      · split <;> simp
@[simp] theorem takeFree_ch (s : State) (b c : Nat) : ((takeFree s).2).ch b c = s.ch b c := rfl
theorem evaluateRow_ch (b c : Nat) (raw : Int) (rr : F32) (cl ra : Bool) (s : State) :
    ((evaluateRow b c raw rr cl ra s).ch b c).raw = (s.ch b c).raw
        ∧ ((evaluateRow b c raw rr cl ra s).ch b c).winSeen = (s.ch b c).winSeen
      ∧ ((evaluateRow b c raw rr cl ra s).ch b c).settling = false := by
  unfold evaluateRow
  extract_lets s1 r xs x ts y g s2
  have h : ts.2.ch b c = s1.ch b c := by
    unfold ts
    split
    · rfl
    · split <;> rfl
  obtain ⟨m, t, e⟩ := compStep_ch b c s
  simp [s2, h, s1, e]
@[simp] theorem settleVisible_raw (b c : Nat) (x : Bool) (s : State) : ((settleVisible b c x s).ch b c).raw = (s.ch b c).raw :=
  by
  simp [settleVisible]
@[simp] theorem settleVisible_winSeen (b c : Nat) (x : Bool) (s : State) : ((settleVisible b c x s).ch b c).winSeen = (s.ch b c).winSeen :=
  by
  simp [settleVisible]
theorem breakPass_ch (b c : Nat) (i : Bool) (s : State) : ((breakPass b c i s).ch b c).raw = (s.ch b c).raw
    ∧ ((breakPass b c i s).ch b c).winSeen = (s.ch b c).winSeen :=
  by
  unfold breakPass
  dsimp only
  split
  · exact ⟨rfl, rfl⟩
  · split <;> simp
@[simp] theorem rangeEvents_grows (src : Nat) (old new : RangeSt) (x y : F32) (s : State) : Grows s (rangeEvents src old new x y s) :=
  by
  unfold rangeEvents
  dsimp only
  repeat' split
  all_goals first | exact .refl _ | exact grows_raiseN _ _ _ _

end Sys2Proof.Laws
end

