-- ==== Sys2Proof/Laws/Peg.lean ====
section
/-! SUPPORT. The peg's memory: every write keeps its canonical form, and reading after a write gives what was written. -/

namespace Sys2Proof.Machine

theorem pegPut_addr {m : List (Nat × Byte)} {k : Nat} {v : Byte} {p : Nat × Byte} (h : p ∈ pegPut m k v) :
    p ∈ m ∨ p.1 = k := by
  induction m with
  | nil =>
    by_cases e : v = 0xFF#8 <;> simp_all [pegPut]
  | cons a r ih =>
    obtain ⟨a, w⟩ := a
    simp only [pegPut] at h
    repeat' split at h
    all_goals simp only [List.mem_cons] at h ⊢
    · exact .inl h
    · rcases h with rfl | h
      · exact .inr rfl
      · exact .inl h
    · exact .inl (.inr h)
    · rcases h with rfl | h
      · exact .inr rfl
      · exact .inl (.inr h)
    · rcases h with rfl | h
      · exact .inl (.inl rfl)
      · rcases ih h with h | h
        · exact .inl (.inr h)
        · exact .inr h

/-- Writing one byte keeps the canonical form. -/
theorem pegPut_wf {m : List (Nat × Byte)} (h : Memory.wf m) (k : Nat) (v : Byte) : Memory.wf (pegPut m k v) := by
  induction m with
  | nil => by_cases e : v = 0xFF#8 <;> simp [pegPut, Memory.wf, e]
  | cons a r ih =>
    obtain ⟨a, w⟩ := a
    obtain ⟨h1, h2⟩ := h
    simp only [List.map_cons, List.pairwise_cons, List.mem_map, forall_exists_index, and_imp] at h1
    have hw : Memory.wf r := ⟨h1.2, fun p hp => h2 p (List.mem_cons_of_mem _ hp)⟩
    have hlt : ∀ p ∈ r, a < p.1 := fun p hp => h1.1 p.1 p hp rfl
    have h0 : w ≠ 0xFF#8 := h2 (a, w) (List.mem_cons_self ..)
    simp only [pegPut]
    repeat' split
    · exact ⟨by simpa using ⟨fun x y hy => hlt _ hy, h1.2⟩, h2⟩
    · rename_i hk hv
      refine ⟨?_, ?_⟩
      · simp only [List.map_cons, List.pairwise_cons, List.mem_cons, List.mem_map]
        refine ⟨?_, ?_, h1.2⟩
        · rintro x (rfl | ⟨p, hp, rfl⟩)
          · exact hk
          · exact Nat.lt_trans hk (hlt p hp)
        · rintro x ⟨p, hp, rfl⟩
          exact hlt p hp
      · rintro p hp
        rcases List.mem_cons.1 hp with rfl | hp
        · exact hv
        · exact h2 p hp
    · exact hw
    · rename_i hk hv
      refine ⟨?_, ?_⟩
      · simp only [List.map_cons, List.pairwise_cons, List.mem_map]
        refine ⟨?_, h1.2⟩
        rintro x ⟨p, hp, rfl⟩
        have := hlt p hp
        omega
      · rintro p hp
        rcases List.mem_cons.1 hp with rfl | hp
        · exact hv
        · exact h2 p (List.mem_cons_of_mem _ hp)
    · rename_i hk hne
      have := ih hw
      refine ⟨?_, ?_⟩
      · simp only [List.map_cons, List.pairwise_cons, List.mem_map]
        refine ⟨?_, this.1⟩
        rintro x ⟨p, hp, rfl⟩
        rcases pegPut_addr hp with hp | hp
        · exact hlt p hp
        · omega
      · rintro p hp
        rcases List.mem_cons.1 hp with rfl | hp
        · exact h0
        · exact this.2 p hp

/-- Writing a run of bytes keeps the canonical form. -/
theorem pegWrite_wf {m : List (Nat × Byte)} (h : Memory.wf m) (k : Nat) (l : List Byte) : Memory.wf (pegWrite m k l) := by
  induction l generalizing m k with
  | nil => exact h
  | cons v r ih => exact ih (pegPut_wf h k v) (k + 1)

/-- A peg as fitted is in the canonical form. -/
theorem pegOf_wf (l : List (Nat × Byte)) : Memory.wf (pegOf l) := by
  have : ∀ (l m : List (Nat × Byte)), Memory.wf m → Memory.wf (l.foldl (fun m p => pegPut m p.1 p.2) m) := by
    intro l
    induction l with
    | nil => exact fun m h => h
    | cons p r ih => exact fun m h => ih _ (pegPut_wf h p.1 p.2)
  exact this _ _ ⟨by simp, by simp⟩

theorem pegByte_small {m : List (Nat × Byte)} {k : Nat} (h : ∀ p ∈ m, k < p.1) : pegByte m k = 0xFF#8 := by
  induction m with
  | nil => rfl
  | cons a r ih =>
    have : a.1 ≠ k := by have := h a (List.mem_cons_self ..); omega
    simp only [pegByte, this, if_false]
    exact ih (fun p hp => h p (List.mem_cons_of_mem _ hp))

/-- A byte reads as last written, and a write of one byte leaves every other address alone. -/
theorem pegByte_pegPut {m : List (Nat × Byte)} (h : Memory.wf m) (k : Nat) (v : Byte) (j : Nat) :
    pegByte (pegPut m k v) j = if j = k then v else pegByte m j := by
  induction m with
  | nil =>
    by_cases e : v = 0xFF#8 <;> by_cases f : j = k <;> simp_all [pegPut, pegByte, eq_comm]
  | cons a r ih =>
    obtain ⟨a, w⟩ := a
    obtain ⟨h1, h2⟩ := h
    simp only [List.map_cons, List.pairwise_cons, List.mem_map, forall_exists_index, and_imp] at h1
    have hw : Memory.wf r := ⟨h1.2, fun p hp => h2 p (List.mem_cons_of_mem _ hp)⟩
    have hlt : ∀ p ∈ r, a < p.1 := fun p hp => h1.1 p.1 p hp rfl
    simp only [pegPut]
    repeat' split
    all_goals try simp only [pegByte]
    all_goals subst_vars
    all_goals try rw [ih hw]
    all_goals repeat' split
    all_goals try rfl
    all_goals try omega
    all_goals try (first | rfl | omega | (rw [pegByte_small]; intro p hp; have := hlt p hp; omega))

/-- A run of bytes leaves every address outside it alone. -/
theorem pegByte_pegWrite_other {m : List (Nat × Byte)} (h : Memory.wf m) (k : Nat) (l : List Byte) (j : Nat)
    (hj : j < k ∨ k + l.length ≤ j) : pegByte (pegWrite m k l) j = pegByte m j := by
  induction l generalizing m k with
  | nil => rfl
  | cons v r ih =>
    simp only [List.length_cons] at hj
    rw [pegWrite, ih (pegPut_wf h k v) (k + 1) (by omega), pegByte_pegPut h]
    rw [if_neg (by omega)]

/-- A run of bytes reads as written. -/
theorem pegByte_pegWrite {m : List (Nat × Byte)} (h : Memory.wf m) (k : Nat) (l : List Byte) (i : Nat) (hi : i < l.length) :
    pegByte (pegWrite m k l) (k + i) = l[i] := by
  induction l generalizing m k i with
  | nil => simp at hi
  | cons v r ih =>
    rw [pegWrite]
    cases i with
    | zero =>
      rw [pegByte_pegWrite_other (pegPut_wf h k v) _ _ _ (.inl (by omega)), pegByte_pegPut h]
      simp
    | succ n =>
      have := ih (pegPut_wf h k v) (k + 1) n (by simpa using hi)
      rw [show k + (n + 1) = k + 1 + n by omega, this]
      simp

end Sys2Proof.Machine
end

