-- ==== Sys2Proof/Laws/Signed.lean ====
section
/-! SUPPORT. A signed request of a station, and what the checks of 15 R465 answer to it: every statement about an
accepted message has its witnesses through these. -/

namespace Sys2Proof.Machine

/-! ### Lengths of the hash -/

theorem shaRound_length (k w : BitVec 32) (v : List (BitVec 32)) : (shaRound k w v).length = v.length := by
  unfold shaRound
  split <;> rfl

theorem shaRounds_length (ks win v : List (BitVec 32)) : (shaRounds ks win v).length = v.length := by
  induction ks generalizing win v with
  | nil => rfl
  | cons k r ih => rw [shaRounds, ih, shaRound_length]

theorem shaBlocks_length (n : Nat) (h : List (BitVec 32)) (bs : List Byte) : (shaBlocks n h bs).length = h.length := by
  induction n generalizing h bs with
  | zero => rfl
  | succ n ih => rw [shaBlocks, ih, shaBlock, List.length_zipWith, shaRounds_length, Nat.min_self]

theorem flatMap_beBytes_length (l : List (BitVec 32)) : (l.flatMap beBytes).length = 4 * l.length := by
  induction l with
  | nil => rfl
  | cons a r ih => simp only [List.flatMap_cons, List.length_append, ih, List.length_cons, beBytes, List.length_nil]; omega

theorem sha256_length (bs : List Byte) : (sha256 bs).length = 32 := by
  unfold sha256
  simp only [flatMap_beBytes_length, shaBlocks_length]
  rfl

theorem hmacSha256_length (k m : List Byte) : (hmacSha256 k m).length = 32 := sha256_length _

/-! ### A signed message -/

/-- The first 24 bytes of a message of type `ty` in role `r` from `sender` to this station, with `n` payload bytes,
in the present epoch and with SEQ 1 (15 R464). -/
def signedHead (s : State) (ty : Nat) (r : Role) (sender n : Nat) : List Byte :=
  leBytes 2 0x4D4D ++ leBytes 1 1 ++ leBytes 1 ty ++ leBytes 2 (4 * roleNo r) ++ leBytes 2 n ++ leBytes 4 sender
    ++ leBytes 4 s.station ++ leBytes 4 s.epoch ++ leBytes 4 1

/-- A message signed with the key of its role (15 R464, R468). -/
def signedMsg (s : State) (ty : Nat) (r : Role) (sender : Nat) (p : List Byte) : Msg :=
  { bytes := signedHead s ty r sender p.length ++ p
      ++ (hmacSha256 ((s.roleKey r).getD []) (signedHead s ty r sender p.length ++ p)).take 16 }

/-- The request that a signed message carries. -/
def signedReq (s : State) (ty : Nat) (r : Role) (sender : Nat) (p : List Byte) : Req :=
  { type := ty, role := r, sender := sender, epoch := s.epoch, seq := 1, payload := p
    tag := (hmacSha256 ((s.roleKey r).getD []) (signedHead s ty r sender p.length ++ p)).take 16 }

/-- The state after checks 1 to 5 of the first request of its sender. -/
def signedNext (s : State) (q : Req) : State :=
  s.setMmp (fun m => { m with
    pairs := m.pairs ++ [seqTake { sender := q.sender, role := q.role } q], rxOk := wrap32 (m.rxOk + 1) })

theorem station_lt (s : State) : s.station < 4294967296 := (s.otpWord 1 0 0).isLt

theorem epoch_lt (s : State) : s.epoch < 4294967296 := by unfold State.epoch; omega

theorem signedHead_length (s : State) (ty : Nat) (r : Role) (sender n : Nat) : (signedHead s ty r sender n).length = 24 :=
  rfl

theorem roleNo_lt (r : Role) : roleNo r < 4 := by cases r <;> decide

theorem signed_fields (s : State) (ty : Nat) (r : Role) (sender : Nat) (p : List Byte) (h1 : ty < 256)
    (h2 : sender < 4294967296) (h3 : p.length < 65536) :
    let m := signedMsg s ty r sender p
    leAt m.bytes 0 2 = 0x4D4D ∧ leAt m.bytes 2 1 = 1 ∧ leAt m.bytes 3 1 = ty ∧ leAt m.bytes 4 2 = 4 * roleNo r
      ∧ leAt m.bytes 6 2 = p.length ∧ leAt m.bytes 8 4 = sender ∧ leAt m.bytes 12 4 = s.station
      ∧ leAt m.bytes 16 4 = s.epoch ∧ leAt m.bytes 20 4 = 1 := by
  have hs := station_lt s
  have he := epoch_lt s
  have hr := roleNo_lt r
  intro m
  refine ⟨?_, ?_, ?_, ?_, ?_, ?_, ?_, ?_, ?_⟩ <;>
    simp only [m, signedMsg, signedHead, leBytes, leAt, ofLe, List.cons_append, List.nil_append,
      List.drop_succ_cons, List.drop_zero, List.take_succ_cons, List.take_zero, BitVec.toNat_ofNat, Nat.mul_zero] <;>
    omega

theorem signed_bytes (s : State) (ty : Nat) (r : Role) (sender : Nat) (p : List Byte) (h3 : p.length < 65536)
    (h1 : ty < 256) (h2 : sender < 4294967296) :
    let m := signedMsg s ty r sender p
    msgPayload m = p ∧ msgSigned m = signedHead s ty r sender p.length ++ p
      ∧ msgTag m = (hmacSha256 ((s.roleKey r).getD []) (signedHead s ty r sender p.length ++ p)).take 16
      ∧ m.bytes.length = 40 + p.length := by
  intro m
  have hf := signed_fields s ty r sender p h1 h2 h3
  have hl : leAt m.bytes 6 2 = p.length := hf.2.2.2.2.1
  have hh := signedHead_length s ty r sender p.length
  refine ⟨?_, ?_, ?_, ?_⟩
  · rw [msgPayload, hl]
    simp only [m, signedMsg, List.append_assoc]
    rw [List.drop_append_of_le_length (by omega), List.drop_eq_nil_of_le (by omega)]
    simp
  · rw [msgSigned, hl]
    simp only [m, signedMsg]
    rw [List.take_append_of_le_length (by simp [hh]), List.take_of_length_le (by simp [hh])]
  · rw [msgTag, hl]
    simp only [m, signedMsg]
    rw [List.drop_append_of_le_length (by simp [hh]), List.drop_eq_nil_of_le (by simp [hh])]
    simp
  · simp only [m, signedMsg, List.length_append, hh, List.length_take, hmacSha256_length]
    omega

/-- What a state must hold for the signed requests of role `r`: ports deliver, this station has an identity, the
COMMISSION key and the role's key exist, no sender is known yet and no request was dropped. -/
abbrev TakesSigned (s : State) (r : Role) : Prop :=
  delivers s = true ∧ s.station ≠ 0xFFFFFFFF ∧ (s.roleKey .commission).isSome = true ∧ (s.roleKey r).isSome = true
    ∧ s.mmp.pairs = [] ∧ s.mmp.queueEpisode = 0

theorem signed_req (s : State) (ty : Nat) (r : Role) (sender : Nat) (p : List Byte) (h1 : ty < 256)
    (h2 : sender < 4294967296) (h3 : p.length < 65536) :
    msgReq (signedMsg s ty r sender p) = signedReq s ty r sender p := by
  obtain ⟨-, -, f3, f4, -, f6, -, f8, f9⟩ := signed_fields s ty r sender p h1 h2 h3
  obtain ⟨b1, -, b3, -⟩ := signed_bytes s ty r sender p h3 h1 h2
  unfold msgReq signedReq msgType msgRole msgFlags
  rw [f3, f4, f6, f8, f9, b1, b3]
  cases r <;> rfl

theorem signed_authentic (s : State) (ty : Nat) (r : Role) (sender : Nat) (p : List Byte) (a : List W32) (h1 : ty < 256)
    (h2 : sender < 4294967296) (h3 : p.length < 65536) (hc : (s.roleKey .commission).isSome = true)
    (hk : (s.roleKey r).isSome = true) : authentic s (signedMsg s ty r sender p) a = true := by
  obtain ⟨-, b2, b3, -⟩ := signed_bytes s ty r sender p h3 h1 h2
  unfold authentic
  rw [signed_req s ty r sender p h1 h2 h3, b2, b3]
  obtain ⟨c, hc⟩ := Option.isSome_iff_exists.mp hc
  obtain ⟨k, hk⟩ := Option.isSome_iff_exists.mp hk
  simp [hc, signedReq, hk]

/-- A signed request of a station passes checks 1 to 5. -/
theorem receive_signed (s : State) (ty : Nat) (r : Role) (sender : Nat) (p : List Byte) (a : List W32)
    (h : TakesSigned s r) (h1 : 1 ≤ ty ∧ ty ≤ 14) (h2 : sender < 4294967296) (h3 : p.length < 65536) :
    receive (signedMsg s ty r sender p) a s = (some (signedReq s ty r sender p), signedNext s (signedReq s ty r sender p)) := by
  obtain ⟨hd, hs, hc, hk, hp, hq⟩ := h
  have ht : ty < 256 := by omega
  obtain ⟨f1, f2, -, f4, f5, -, f7, -, -⟩ := signed_fields s ty r sender p ht h2 h3
  obtain ⟨-, -, -, b4⟩ := signed_bytes s ty r sender p h3 ht h2
  have hform : msgFormed (signedMsg s ty r sender p) = true := by
    simp [msgFormed, f1, f2, f5, b4]
  have hpeer : isPeerType ty = false := by simp [isPeerType]; omega
  have hreq : isRequestType ty = true := by simp [isRequestType]; omega
  have hres : isReservedType ty = false := by simp [isReservedType]; omega
  have hb : bitOf 0 (4 * roleNo r) = false := by cases r <;> rfl
  unfold receive
  simp only [signed_req s ty r sender p ht h2 h3, hd, hform, f7, hs, signed_authentic s ty r sender p a ht h2 h3 hc hk,
    msgFlags, f4, hb]
  simp [signedReq, hpeer, hreq, hres, queueFree, hq, checkSeq, hp, signedNext, signedMsg, Machine.State.setMmp]

/-- A signed request of a type that the role and the module state allow is accepted. -/
theorem accepted_signed (s : State) (ty : Nat) (r need : Role) (sender : Nat) (p : List Byte)
    (h : TakesSigned s r) (h1 : 1 ≤ ty ∧ ty ≤ 14) (h2 : sender < 4294967296) (h3 : p.length < 65536)
    (h4 : roleAtLeast r need = true) (h5 : stateTakes s ty = true) :
    Accepted (signedMsg s ty r sender p) ty need (signedReq s ty r sender p) s (signedNext s (signedReq s ty r sender p)) :=
  ⟨receive_signed s ty r sender p [] h h1 h2 h3, rfl, h4, h5⟩

/-- The state after checks 1 to 5 of the first unsolicited message of its sender. -/
def peerNext (s : State) (q : Req) : State :=
  signedNext (s.setMmp (fun m => { m with peerEpochs := m.peerEpochs.put q.sender (some q.epoch) })) q

/-- A signed unsolicited message of a station not heard before is accepted. -/
theorem accepted_peer (s : State) (ty : Nat) (r need : Role) (sender : Nat) (p : List Byte)
    (h : TakesSigned s r) (h1 : ty = 0x13 ∨ ty = 0x16) (h2 : sender < 4294967296) (h3 : p.length < 65536)
    (h4 : roleAtLeast r need = true) (h5 : stateTakes s ty = true) (h6 : s.mmp.peerEpochs.look sender = none) :
    Accepted (signedMsg s ty r sender p) ty need (signedReq s ty r sender p) s (peerNext s (signedReq s ty r sender p)) := by
  obtain ⟨hd, hs, hc, hk, hp, hq⟩ := h
  have ht : ty < 256 := by omega
  obtain ⟨f1, f2, -, f4, f5, -, f7, -, -⟩ := signed_fields s ty r sender p ht h2 h3
  obtain ⟨-, -, -, b4⟩ := signed_bytes s ty r sender p h3 ht h2
  have hform : msgFormed (signedMsg s ty r sender p) = true := by
    simp [msgFormed, f1, f2, f5, b4]
  have hpeer : isPeerType ty = true := by obtain rfl | rfl := h1 <;> rfl
  have hb : bitOf 0 (4 * roleNo r) = false := by cases r <;> rfl
  refine ⟨?_, rfl, h4, ?_⟩
  · unfold receive
    simp only [signed_req s ty r sender p ht h2 h3, hd, hform, f7, hs, signed_authentic s ty r sender p [] ht h2 h3 hc hk,
      msgFlags, f4, hb]
    simp [signedReq, hpeer, queueFree, hq, checkSeq, hp, signedNext, peerNext, signedMsg, Machine.State.setMmp, receivePeer, h6]
  · exact h5

end Sys2Proof.Machine
end

