-- ==== Sys2Proof/WellFormed.lean ====
section
/-! DEFINITION. Which commands the module can meet: operands within the ranges that spec/ gives them.

Operands whose type is a Fin or a word are in range by their type. A command outside these ranges stands for nothing that
can happen to the module; exec answers it all the same. -/

namespace Sys2Proof

/-- An MMP message is one UDP payload of at most 1472 bytes (15 R464). -/
def Msg.wf (m : Msg) : Bool := m.bytes.length ≤ 1472

/-- A data length of a CAN frame that its DLC names (ISO 11898-1). -/
def canLen (fdf : Bool) (dlc : Nat) : Nat :=
  if dlc ≤ 8 then dlc
  else if !fdf then 8
  else if dlc ≤ 12 then 4 * dlc - 24
  else 16 * dlc - 176

/-- A CAN frame: an identifier of its format, a DLC of 4 bits and the bytes that it names (16 R486, R491). -/
def CanFrame.wf (f : CanFrame) : Bool :=
  f.id < (if f.ide then 2 ^ 29 else 2 ^ 11) && f.dlc < 16 && f.data.length ≤ canLen f.fdf f.dlc && !(f.fdf && f.rtr)
    && (f.fdf || !f.brs)

/-- A Sync of a domain of 8 bits, at an interval of 62.5 ms to 1 s (07 R202). -/
def SyncMsg.wf (m : SyncMsg) : Bool := m.domain < 256 && 62500000 ≤ m.interval && m.interval ≤ 1000000000

/-- An Announce with the field widths of its message (07 R202). -/
def Announce.wf (a : Announce) : Bool :=
  a.domain < 256 && a.prio1 < 256 && a.clockClass < 256 && a.accuracy < 256 && a.variance < 65536 && a.prio2 < 256
    && a.stepsRemoved < 65536

/-- A captured edge, frame or PTP message of a source that the module has (07 R213, R216). -/
def CapSource.wf : CapSource → Bool
  | .edge g p _ _ _ => g < 8 && p < 8
  | .sof c => c < 4
  | .ptp _ _ ty seq => ty < 16 && seq < 65536

/-- A PTP message with the field widths of its header (07 R207). -/
def PtpFrame.wf : PtpFrame → Bool
  | .oneStep _ _ _ => true
  | .twoStep _ seq domain _ _ => seq < 65536 && domain < 256
  | .followUp _ seq domain _ => seq < 65536 && domain < 256

/-- A heartbeat with the field widths of R506 (17 R506). -/
def Heartbeat.wf (h : Heartbeat) : Bool := h.modState < 16 && h.prefOtp < 4 && h.position ≤ 2 && h.handshake ≤ 3

/-- A 24-bit converter result, sign-extended (03 R71). -/
def rawWf (raw : Int) : Bool := -8388608 ≤ raw && raw ≤ 8388607

/-- A visit of the readback converter (03 R84; 04 R138). -/
def Visit.wf : Visit → Bool
  | .crossCheck raw _ => rawWf raw
  | _ => true

/-- The operands of the command lie in the ranges that spec/ gives. -/
def Instr.wf : Instr → Bool
  | .powerGood _ _ coding => coding ≤ 2
  | .selfTestEnd _ fails _ => fails.all (fun p => p.1 < 3 && p.2 < 106)
  | .bivouac m | .mmpWake m | .moduleRestart m | .ack m | .shelve m | .unshelve m | .groupState m | .bsl m | .write m
  | .roleKey m | .reccursor m => m.wf
  | .pegWriteOpen m _ | .pegWriteClose m _ | .pegWriteErase m _ | .commit m _ => m.wf
  | .pegWriteData m _ off bytes => m.wf && off < 4294967296 && bytes.length ≤ 1472
  | .force m _ _ tgt _ | .release m _ tgt => m.wf && tgt < 65536
  | .commission m _ _ => m.wf
  | .read m _ => m.wf
  | .funcReset m fid => m.wf && fid < 256
  | .recwin m bad => m.wf && bad.all (· < 16)
  | .bivouacRequest timer | .guyLineBivouacRequest timer => timer < 4294967296
  | .canWake _ f => f.all (·.wf)
  | .canRxFrame _ f | .canTxRequest _ _ f => f.wf
  | .pegInserted mem => mem.all (fun p => p.1 < 16777216)
  | .readbackVisit _ _ v => v.wf
  | .strapSense straps => straps.length = 8
  | .conversionResult _ _ raw _ => rawWf raw
  | .sync m => m.wf
  | .announce a => a.wf
  | .followUp _ _ seq domain _ | .twoStepExpiry _ seq domain => seq < 65536 && domain < 256
  | .pdelayReq _ seq _ _ _ | .pdelayResp _ seq _ _ _ _ => seq < 65536
  | .firstOutCapture c => c.wf
  | .comparatorTestPart _ upto fails => upto ≤ 106 && fails.all (· < upto)
  | .axisTick _ _ drive => drive ≤ 5
  | .axDriverFault _ cause => 1 ≤ cause && cause ≤ 5
  | .partnerUncommissioned result => result < 256
  | .segmentCompare _ _ r => r.log.length ≤ 512
  | .decisionPoint _ beats cont _ => 1 ≤ beats && beats ≤ 16 && cont.all (· < 256)
  | .tagTimeout _ tag | .fabricParity _ tag => tag < 256
  | .poolAllocate _ n => 1 ≤ n && n ≤ 64
  | .blockFree _ blocks => blocks.all (· < 8192)
  | .poolParity block => block < 8192
  | .poolScrub bad => bad.all (· < 8192)
  | .lock _ res | .unlock _ res => res ≤ 10
  | .ringFrame _ f => f.src < 2 ^ 48 && f.seq < 65536 && f.ptp.all (·.wf)
  | .arp ip mac => ip < 2 ^ 32 && mac < 2 ^ 48
  | .icmpEcho ip id seq _ => ip < 2 ^ 32 && id < 65536 && seq < 65536
  | .heartbeat h _ => h.wf
  | .standbyCkptCheck seq _ _ _ _ => seq < 4294967296
  | .rowPeriod row => row < 480
  | .take _ index | .localRelease _ index | .pnlLocalCmd _ index _ => index < 65536
  | _ => true

end Sys2Proof
end

