-- ==== Sys2Proof/Tests/Slice0.lean ====
section
/-! SUPPORT. Tests: for each clause of each statement a state and operands that meet its hypotheses, the commands that
WellFormed refuses, and the worked examples of spec/.

Expected values come from spec/, from a published check value, or by hand. -/

namespace Sys2Proof.Machine

-- One theorem after the other: each proof by kernel evaluation waits for the theorems before it.
set_option Elab.async false

/-! ### Small states -/

/-- Every function in one state. -/
def fnsAll (x : FnState) : Tab FnHdr := allFns.map (fun f => (fnId f, { state := x }))

/-- The key of a role: eight words of its number. -/
def keySlot (n : Nat) : OtpSlot := { bytes := w32 n :: List.replicate 8 (w32 (n + 1)) }

/-- One-time settings: station 7, and a key for each role. -/
def otpKeys : OtpSt :=
  { items := [(otpKey 1 0, [{ bytes := [7] }]), (otpKey 4 0, [keySlot 0, keySlot 1, keySlot 2, keySlot 3])] }

/-- A single module in RUN with every function in RUN. -/
def base : State := { mod := { state := .run, powerCycles := 1 }, fns := fnsAll .run, otp := otpKeys }

/-- The same with the module in another state. -/
def inState (x : ModState) : State := { base with mod := { base.mod with state := x } }

/-- The same with one function in another state. -/
def withFn (f : Fn) (x : FnState) : State := base.setHdr f (fun h => { h with state := x })

/-- The fore module of a pair. -/
def foreIn (x : ModState) (r : PairRole) : State :=
  { base with mod := { base.mod with state := x, position := 1 }, pair := { role := r } }

/-- Bytes placed from an address on. -/
def placed (k : Nat) (bs : List Byte) : List (Nat × Byte) := bs.zipIdx.map (fun p => (k + p.2, p.1))

/-- A peg with one image: three empty sections of the types that an image must have, in slot `n`. -/
def slotImage (n : Nat) : List (Nat × Byte) :=
  placed 0 (leBytes 4 0x48475031 ++ leBytes 2 1) ++ placed 0x10 (leBytes 4 2582202010)
    ++ placed (slotBase n) (leBytes 4 imgMagic ++ leBytes 2 1 ++ leBytes 2 3 ++ leBytes 4 1 ++ leBytes 4 0x200 ++ leBytes 4 0
      ++ leBytes 4 5 ++ leBytes 4 0)
    ++ [1, 3, 6].zipIdx.flatMap (fun p => placed (slotBase n + 0x20 + 16 * p.2) (leBytes 4 p.1 ++ leBytes 4 0x200 ++ leBytes 4 0))
    ++ placed (slotBase n + 0x1FC) (leBytes 4 3562508301)

/-- A peg with an image in slot 2, which is not in use. -/
def pegBase : State := { base with peg := { present := true, mem := slotImage 2, sel := 0 } }

/-- The same with slot 2 open. -/
def pegOpen : State := { base with peg := { present := true, mem := slotImage 2, sel := 0, openSlot := some 2, chg := .writing } }

/-- A correction set of channel 15 of bank 1 being programmed. -/
def trimBusy : OtpBusy := { index := 31, by' := 3 }

/-- One channel of bank 1. -/
def withCh (c : Nat) (x : ChSt) (r : ChCfg) : State :=
  { base with chs := [(16 + c, x)], img := { banks := [(1, { rows := [(c, r)] })] } }

/-- One bank. -/
def withBank (x : BankSt) : State := { base with banks := [(1, x)] }

/-- One digital point of group 7. -/
def withPt (p : Nat) (x : DpSt) (r : DpCfg) : State :=
  { base with points := [(56 + p, x)], img := { points := [(56 + p, r)] } }

/-- One alarm point, number 2047. -/
def withAlm (x : AlmPt) (r : AlmRow) : State :=
  { base with alarm := { pts := [(2047, x)] }, img := { alarm := { rows := [(2047, r)] } } }

/-- A master of the engineer call with one engineer and one station behind it. -/
def callBase : State := { base with img := { alarm := { master := true, engs := [{}], fwd := [9] } } }

/-- One task. -/
def withTask (n : Nat) (x : TaskSt) (c : TaskCfg) : State :=
  { base with logic := { tasks := [(n, x)] }, img := { logic := { tasks := [(n, c)] } } }

/-- One loop, number 255. -/
def withLoop (x : LpSt) (r : LoopRow) : State :=
  { base with loops := { lps := [(255, x)] }, img := { loops := { rows := [(255, r)] } } }

/-- Axis 3. -/
def withAxis (x : AxisSt) (c : AxisCfg) : State := { base with axes := [(3, x)], img := { axes := [(3, c)] } }

/-- A lane of bank 1 with two slots. -/
def slotPair : Tab SlotEntry := [(0, { w0 := 7 }), (31, { w0 := 7 })]

/-- One alarm point in service. -/
def almBase : State :=
  { base with alarm := { pts := [(2047, { state := .normal })] }, img := { alarm := { rows := [(2047, {})], shelve := [(0, 480)] } } }

/-- A user entry at index 3. -/
def forceBase : State := { base with img := { layout := [(3, { ref := .user, out := true })] } }

/-- The logged load of an asynchronous entry. -/
def loadLog : LaneWrite := { entry := 9, kind := 2 }

/-- An axis with a potentiometer that reads 0, GOOD. -/
def potAxis : State :=
  { withAxis { state := .idle } { mode := 1, potCh := some 5 } with chs := [(5, { mode := 1, entry := { val := 0, q := 0x80 } })] }

/-- A consumer connection in RUN that has taken frame 65535. -/
def bslBase : State :=
  { base with img := { bedrock := { conns := [(15, { dir := 1, peer := 9 })] } },
              bedrock := { conns := [(15, { state := 2, seq := 65535, texp := 5 })] } }

/-- Its next frame: number 0, 100 ms later. -/
def bslBytes : List Byte := leBytes 2 0 ++ leBytes 4 100005 ++ leBytes 1 1 ++ leBytes 1 0 ++ [7] ++ leBytes 4 2238085359

/-- Both ring ports are up. -/
def ringBase : State := { base with mmp := { ports := [(0, { up := true }), (1, { up := true })] } }

/-- One record in the main ring. -/
def recBase : State := { base with recd := { ring := [{}], next := 1 } }

set_option maxRecDepth 1000000 in
/-- States that meet the hypotheses of each clause of ModuleStarts. -/
theorem test_witness_ModuleStarts :
    (∃ (s : State) (coding : Nat), s.mod.state = .off
      ∧ coding ≤ 2)
    ∧ (∃ (s : State) (dev : Int), s.mod.state = .selfTest
      ∧ dev.natAbs ≤ 20000)
    ∧ (∃ (s : State) (n : Nat) (uncom : Bool) (ign : List Nat), s.mod.state = .imageSelect
      ∧ s.peg.selecting = true
      ∧ s.peg.present = true
      ∧ chooseImage (forRange 3 (fun k (t : Tab SlotSt) => t.put k (readSlot s.peg.mem s.station k)) [])
        s.lastCommissioned
      = .chosen n uncom ign)
    ∧ (∃ (s : State) (crc : W32), s.mod.state = .pitch
      ∧ s.peg.reading = true
      ∧ s.peg.selecting = false
      ∧ crc = (s.peg.slots.look s.peg.sel).crc)
    ∧ (∃ (s : State) (f : Fn), s.fnState f = .pitch
      ∧ (s.hdr f).configured = false
      ∧ s.mod.state = .pitch
      ∧ s.peg.reading = false
      ∧ (configureFn f s).fnState f ≠ .fault)
    ∧ (∃ (s : State), s.mod.state = .pitch
      ∧ s.mod.position = 0
      ∧ s.peg.reading = false
      ∧ allConfigured s = true) :=
  ⟨⟨inState .off, 2, by decide +kernel⟩,
   ⟨inState .selfTest, -20000, by decide +kernel⟩,
   ⟨{ inState .imageSelect with peg := { present := true, mem := slotImage 0, selecting := true } }, 0, true, [], by
      decide +kernel⟩,
   ⟨{ inState .pitch with peg := { sel := 0, present := true } }, 0, by decide +kernel⟩,
   ⟨{ fns := fnsAll .pitch, mod := { state := .pitch }, peg := { reading := false } }, .panel, by decide +kernel⟩,
   ⟨{ mod := { state := .pitch }, peg := { reading := false }, fns := allFns.map (fun f => (fnId f, { configured := true })) },
      by decide +kernel⟩⟩

/-- States that meet the hypotheses of each clause of FunctionControl. -/
theorem test_witness_FunctionControl :
    (∃ (s : State) (f : Fn) (r : Role), roleAtLeast r .engineer = true
      ∧ f ≠ .module
      ∧ f ≠ .pool
      ∧ (f = .peg → pastHold s = false)
      ∧ (s.fnState f = .run ∨ s.fnState f = .standby ∨ s.fnState f = .drain
      ∨ s.fnState f = .disabled ∨ s.fnState f = .fault))
    ∧ (∃ (s : State) (f : Fn) (r : Role), roleAtLeast r .engineer = true
      ∧ f ≠ .module
      ∧ f ≠ .bedrock
      ∧ (s.fnState f = .run ∨ s.fnState f = .standby))
    ∧ (∃ (s : State) (f : Fn) (r : Role), roleAtLeast r .engineer = true
      ∧ f ≠ .module
      ∧ s.fnState f = .disabled)
    ∧ (∃ (s : State) (f : Fn), s.fnState f = .reset
      ∧ (s.mod.state = .pitch ∨ s.mod.state = .run ∨ s.mod.state = .standby ∨ s.mod.state = .hold))
    ∧ (∃ (s : State) (f : Fn), s.fnState f = .drain
      ∧ f ≠ .pool
      ∧ (f = .peg → pastHold s = false)
      ∧ (domainOf f = 4 ∨ domainOf f = 5 ∨ ∃ g ∈ allFns, g ≠ f ∧ domainOf g = domainOf f ∧ s.fnState g ≠ .disabled))
    ∧ (∃ (s : State) (f : Fn), s.fnState f = .drain
      ∧ f ≠ .pool
      ∧ (∀ a, f ≠ .axis a)
      ∧ f ≠ .module) :=
  ⟨⟨base, .axis 3, .engineer, by decide +kernel⟩,
   ⟨base, .logic, .commission, by decide +kernel⟩,
   ⟨withFn (.can 3) .disabled, .can 3, .engineer, by decide +kernel⟩,
   ⟨withFn .time .reset, .time, by decide +kernel⟩,
   ⟨withFn (.axis 0) .drain, .axis 0, by decide +kernel⟩,
   ⟨withFn .loop .drain, .loop, by decide +kernel⟩⟩

/-- States that meet the hypotheses of each clause of PowerFails. -/
theorem test_witness_PowerFails :
    (∃ (s : State), awake s = true
      ∧ s.mod.warning = false)
    ∧ (∃ (s : State), awake s = true
      ∧ s.mod.warning = true
      ∧ s.mod.windowClosed = false)
    ∧ (∃ (s : State), awake s = true
      ∧ s.mod.warning = true
      ∧ s.mod.below14 = false)
    ∧ (∃ (s : State), (s.mod.state = .bivouac ∨ (awake s = true ∧ s.mod.warning = true)))
    ∧ (∃ (s : State), awake s = true
      ∧ s.mod.warning = true
      ∧ s.mod.below14 = false) :=
  ⟨⟨base, by decide +kernel⟩,
   ⟨{ base with mod := { base.mod with warning := true } }, by decide +kernel⟩,
   ⟨{ base with mod := { base.mod with warning := true } }, by decide +kernel⟩,
   ⟨inState .bivouac, by decide +kernel⟩,
   ⟨{ base with mod := { base.mod with warning := true } }, by decide +kernel⟩⟩

/-- States that meet the hypotheses of each clause of SuppliesAndTemperature. -/
theorem test_witness_SuppliesAndTemperature :
    (∃ (s : State), awake s = true
      ∧ s.mod.lostA = false
      ∧ 18000 ≤ s.mod.supplyB)
    ∧ (∃ (s : State), awake s = true
      ∧ s.mod.lostB = false
      ∧ 18000 ≤ s.mod.supplyA)
    ∧ (∃ (s : State), awake s = true
      ∧ s.mod.lostA = true)
    ∧ (∃ (s : State), awake s = true
      ∧ s.mod.lostB = true)
    ∧ (∃ (s : State) (charge : Nat), awake s = true
      ∧ s.mod.storeGood = true
      ∧ charge < 100)
    ∧ (∃ (s : State) (charge : Nat), awake s = true
      ∧ 100 ≤ charge)
    ∧ (∃ (s : State) (c : Int), awake s = true
      ∧ s.mod.overTempCrit = false
      ∧ s.mod.overTemp = false
      ∧ c < 1000)
    ∧ (∃ (s : State) (c : Int), awake s = true
      ∧ s.mod.overTempCrit = false
      ∧ s.mod.overTemp = false
      ∧ 1000 ≤ c
      ∧ c < 1150)
    ∧ (∃ (s : State) (c : Int), awake s = true
      ∧ s.mod.overTempCrit = false
      ∧ s.mod.overTemp = false
      ∧ 1150 ≤ c) :=
  ⟨⟨base, by decide +kernel⟩,
   ⟨base, by decide +kernel⟩,
   ⟨{ base with mod := { base.mod with lostA := true } }, by decide +kernel⟩,
   ⟨{ base with mod := { base.mod with lostB := true } }, by decide +kernel⟩,
   ⟨base, 99, by decide +kernel⟩,
   ⟨base, 100, by decide +kernel⟩,
   ⟨base, 999, by decide +kernel⟩,
   ⟨base, 1149, by decide +kernel⟩,
   ⟨base, 1150, by decide +kernel⟩⟩

/-- States that meet the hypotheses of each clause of Clocks. -/
theorem test_witness_Clocks :
    (∃ (s : State), awake s = true)
    ∧ (∃ (s : State) (ppm : Int), awake s = true
      ∧ s.mod.drift = false
      ∧ 200 < ppm.natAbs)
    ∧ (∃ (s : State) (ppm : Int), awake s = true
      ∧ 20000 < ppm.natAbs
      ∧ s.mod.state ≠ .selfTest
      ∧ s.mod.state ≠ .hold)
    ∧ (∃ (s : State) (k : Fin 14), awake s = true
      ∧ k.val ≠ 0
      ∧ k.val ≠ 2
      ∧ s.mod.clocks.getLsbD k = true
      ∧ k.val ≠ 4) :=
  ⟨⟨base, by decide +kernel⟩,
   ⟨base, -201, by decide +kernel⟩,
   ⟨base, 20001, by decide +kernel⟩,
   ⟨base, 13, by decide +kernel⟩⟩

/-- States that meet the hypotheses of each clause of Checkpoints. -/
theorem test_witness_Checkpoints :
    (∃ (s : State), takesCkpt s = true
      ∧ s.ckpt.busy = none)
    ∧ (∃ (s : State), takesCkpt s = true
      ∧ s.ckpt.busy.isSome = true)
    ∧ (∃ (s : State) (w : CkptWrite), s.ckpt.busy = some w
      ∧ w.peg = false)
    ∧ (∃ (s : State) (w : CkptWrite), s.ckpt.busy = some w
      ∧ w.peg = true
      ∧ w.localDone = true)
    ∧ (∃ (s : State), awake s = true)
    ∧ (∃ (s : State), paired s = true
      ∧ s.mod.state = .standby)
    ∧ (∃ (s : State), paired s = true
      ∧ s.mod.state = .standby) :=
  ⟨⟨base, by decide +kernel⟩,
   ⟨{ base with ckpt := { busy := some {} } }, by decide +kernel⟩,
   ⟨{ base with ckpt := { busy := some {} } }, {}, by decide +kernel⟩,
   ⟨{ base with ckpt := { busy := some { peg := true, localDone := true } } }, { peg := true, localDone := true }, by
      decide +kernel⟩,
   ⟨base, by decide +kernel⟩,
   ⟨foreIn .standby .standby, by decide +kernel⟩,
   ⟨foreIn .standby .standby, by decide +kernel⟩⟩

/-- States that meet the hypotheses of each clause of OneTimeSettings. -/
theorem test_witness_OneTimeSettings :
    (∃ (s : State) (r : Role), otpCheck s false r = 0)
    ∧ (∃ (s : State) (r : Role), otpCheck s true r = 0
      ∧ s.otp.selItem ≠ 6
      ∧ s.otp.selItem ≠ 7)
    ∧ (∃ (s : State) (k : OtpBusy), s.otp.busy = some k
      ∧ k.by' = 0)
    ∧ (∃ (s : State) (u : State) (m : Msg) (q : Req) (v : W32) (confirm : Bool), Accepted m 0x0C .commission q s u
      ∧ commissionCheck u v confirm = 0
      ∧ u.otp.busy = none)
    ∧ (∃ (s : State) (v : W32), s.mod.state = .standby
      ∧ commissionCheck s v false = 0
      ∧ s.otp.busy = none)
    ∧ (∃ (s : State) (n : Nat), s.pair.handOnWaits = true
      ∧ 0 < n
      ∧ n < 256)
    ∧ (∃ (s : State) (u : State) (m : Msg) (q : Req), Accepted m 0x0D .commission q s u
      ∧ q.payload.length = 36
      ∧ leAt q.payload 0 1 ≤ 3
      ∧ leAt q.payload 2 2 = 0
      ∧ u.otp.busy = none
      ∧ u.otpUsed 4 0 < 15) :=
  ⟨⟨{ base with otp := { otpKeys with selItem := 5, selIndex := 7, data := 2 } }, .commission, by decide +kernel⟩,
   ⟨{ base with otp := { otpKeys with selItem := 5, selIndex := 7, data := 2 } }, .commission, by decide +kernel⟩,
   ⟨{ base with otp := { otpKeys with busy := some { item := 5 } } }, { item := 5 }, by decide +kernel⟩,
   ⟨base, (signedNext base (signedReq base 0x0C .commission 9 [])), (signedMsg base 0x0C .commission 9 []), (signedReq
      base 0x0C .commission 9 []), 0, false, accepted_signed base 0x0C .commission .commission 9 [] (by
      decide +kernel) (by decide) (by decide) (by decide) (by decide) (by decide +kernel), by decide +kernel⟩,
   ⟨foreIn .standby .standby, 0, by decide +kernel⟩,
   ⟨{ base with pair := { handOnWaits := true } }, 255, by decide +kernel⟩,
   ⟨base, (signedNext base (signedReq base 0x0D .commission 9 (List.replicate 36 0#8))), (signedMsg base 0x0D
      .commission 9 (List.replicate 36 0#8)), (signedReq base 0x0D .commission 9 (List.replicate 36 0#8)),
      accepted_signed base 0x0D .commission .commission 9 (List.replicate 36 0#8) (by decide +kernel) (by decide) (by
      decide) (by decide) (by decide) (by decide +kernel), by decide +kernel⟩⟩

/-- States that meet the hypotheses of each clause of Bivouac. -/
theorem test_witness_Bivouac :
    (∃ (s : State) (u : State) (m : Msg) (q : Req), Accepted m 0x0E .engineer q s u
      ∧ 8 ≤ q.payload.length
      ∧ leAt q.payload 0 1 = 0
      ∧ u.mod.bivStage = .none
      ∧ 0 < leAt q.payload 4 4
      ∧ bivCheck u (leAt q.payload 4 4) = 0)
    ∧ (∃ (s : State) (v : Nat), v ≠ 0
      ∧ v ≠ 0xFFFFFFFF
      ∧ s.running .logic = true
      ∧ s.mod.bivStage = .none
      ∧ bivCheck s v = 0)
    ∧ (∃ (s : State), s.mod.state = .run
      ∧ wakeArmed s = true
      ∧ s.mod.bivWakeLatched = none)
    ∧ (∃ (s : State), s.mod.state = .standby
      ∧ s.mod.bivWakeLatched = none) :=
  ⟨⟨base, (signedNext base (signedReq base 0x0E .engineer 9 (leBytes 4 0 ++ leBytes 4 60))), (signedMsg base 0x0E
      .engineer 9 (leBytes 4 0 ++ leBytes 4 60)), (signedReq base 0x0E .engineer 9 (leBytes 4 0 ++ leBytes 4 60)),
      accepted_signed base 0x0E .engineer .engineer 9 (leBytes 4 0 ++ leBytes 4 60) (by decide +kernel) (by decide)
      (by decide) (by decide) (by decide) (by decide +kernel), by decide +kernel⟩,
   ⟨base, 1, by decide +kernel⟩,
   ⟨{ base with mod := { base.mod with bivStage := .held } }, by decide +kernel⟩,
   ⟨foreIn .standby .standby, by decide +kernel⟩⟩

/-- States that meet the hypotheses of each clause of WakesAndRestarts. -/
theorem test_witness_WakesAndRestarts :
    (∃ (s : State) (c : Fin 4) (f : CanFrame), s.mod.state = .bivouac
      ∧ (wakeWord s c).toNat % 4 = 2
      ∧ wakeFrame s c f = true)
    ∧ (∃ (s : State) (n : Fin 8) (rising : Bool) (w : WakeCfg), s.mod.state = .bivouac
      ∧ s.img.module.wakes[n.val]? = some w
      ∧ bitOf (if rising then 0 else 1) w.edge = true)
    ∧ (∃ (s : State), s.mod.state = .bivouac
      ∧ s.mod.siltTimer ≠ 0)
    ∧ (∃ (s : State) (u : State) (m : Msg) (q : Req), s.mod.state = .bivouac
      ∧ wakeDatagram m s = true
      ∧ receive m [] (s.setMod (fun x => { x with state := .hold })) = (some q, u)
      ∧ q.type = 0x0E
      ∧ roleAtLeast q.role .engineer = true
      ∧ 8 ≤ q.payload.length)
    ∧ (∃ (s : State), s.mod.state = .bivouac)
    ∧ (∃ (s : State) (u : State) (m : Msg) (q : Req), Accepted m 4 .engineer q s u
      ∧ 5 ≤ q.payload.length
      ∧ leAt q.payload 0 4 = 0x52455354
      ∧ (leAt q.payload 4 1).testBit 0 = false
      ∧ u.mod.restartAfterHandover = false) :=
  ⟨⟨{ inState .bivouac with can := [(3, { wake := some 0x0A#32, wufData0 := some 0xFF#32 })] }, 3,
      { dlc := 1, data := [1] }, by decide +kernel⟩,
   ⟨{ inState .bivouac with img := { module := { wakes := [{ edge := 2 }] } } }, 0, false, { edge := 2 }, by
      decide +kernel⟩,
   ⟨{ inState .bivouac with mod := { state := .bivouac, siltTimer := 1 } }, by decide +kernel⟩,
   ⟨inState .bivouac, signedNext (inState .hold) (signedReq (inState .hold) 0x0E .engineer 9 (leBytes 8 1)), signedMsg
      (inState .hold) 0x0E .engineer 9 (leBytes 8 1), signedReq (inState .hold) 0x0E .engineer 9 (leBytes 8 1), by
      decide +kernel, by decide +kernel, receive_signed (inState .hold) 0x0E .engineer 9 (leBytes 8 1) [] (by
      decide +kernel) (by decide) (by decide) (by decide), by decide +kernel⟩,
   ⟨inState .bivouac, by decide +kernel⟩,
   ⟨base, (signedNext base (signedReq base 4 .engineer 9 (leBytes 4 0x52455354 ++ leBytes 1 0))), (signedMsg base 4
      .engineer 9 (leBytes 4 0x52455354 ++ leBytes 1 0)), (signedReq base 4 .engineer 9 (leBytes 4 0x52455354 ++
      leBytes 1 0)), accepted_signed base 4 .engineer .engineer 9 (leBytes 4 0x52455354 ++ leBytes 1 0) (by
      decide +kernel) (by decide) (by decide) (by decide) (by decide) (by decide +kernel), by decide +kernel⟩⟩

/-- States that meet the hypotheses of each clause of PairClaims. -/
theorem test_witness_PairClaims :
    (∃ (s : State), (s.mod.state = .imageSelect ∨ s.mod.state = .pitch ∨ s.mod.state = .run ∨ s.mod.state = .standby)
      ∧ s.mod.position ≠ 0
      ∧ s.pair.waitUntilRun = false
      ∧ s.pair.grantWaits = false)
    ∧ (∃ (s : State) (h : Heartbeat), paired s = true
      ∧ h.crcOk = true
      ∧ s.mod.restartAfterHandover = false
      ∧ s.pair.waitUntilRun = false)
    ∧ (∃ (s : State), paired s = true
      ∧ s.pair.guyLost = false)
    ∧ (∃ (s : State), paired s = true
      ∧ s.pair.claim = true)
    ∧ (∃ (s : State) (n : Fin 4), paired s = true
      ∧ s.pair.straps ≠ n.val) :=
  ⟨⟨foreIn .run .active, by decide +kernel⟩,
   ⟨foreIn .run .active, {}, by decide +kernel⟩,
   ⟨foreIn .run .active, by decide +kernel⟩,
   ⟨{ foreIn .run .active with pair := { role := .active, claim := true } }, by decide +kernel⟩,
   ⟨foreIn .run .active, 3, by decide +kernel⟩⟩

/-- States that meet the hypotheses of each clause of TakeoverAndHandover. -/
theorem test_witness_TakeoverAndHandover :
    (∃ (s : State), paired s = true
      ∧ s.mod.state = .standby
      ∧ s.pair.role ≠ .takingOver
      ∧ s.mod.restartAfterHandover = false
      ∧ s.pair.repitch = false)
    ∧ (∃ (s : State), paired s = true
      ∧ s.mod.state = .standby
      ∧ s.pair.role = .takingOver
      ∧ s.pair.startRestore = false)
    ∧ (∃ (s : State), paired s = true
      ∧ s.mod.state = .standby
      ∧ s.pair.holdoffStart.isSome = true
      ∧ isPreferred s = true
      ∧ standbyReady s = true)
    ∧ (∃ (s : State), paired s = true
      ∧ s.mod.state = .run
      ∧ s.pair.role = .active
      ∧ grantBlocked s = false)
    ∧ (∃ (s : State), s.pair.role = .handingOver
      ∧ s.logic.held = true
      ∧ s.pair.handoverHold = false
      ∧ allIdle s = true
      ∧ s.mod.warning = false)
    ∧ (∃ (s : State), s.pair.role = .handingOver
      ∧ s.pair.handoverHold = true) :=
  ⟨⟨foreIn .standby .standby, by decide +kernel⟩,
   ⟨foreIn .standby .takingOver, by decide +kernel⟩,
   ⟨{ foreIn .standby .standby with pair := { role := .standby, holdoffStart := some 0 } }, by decide +kernel⟩,
   ⟨foreIn .run .active, by decide +kernel⟩,
   ⟨{ foreIn .run .handingOver with logic := { held := true } }, by decide +kernel⟩,
   ⟨{ foreIn .run .handingOver with pair := { role := .handingOver, handoverHold := true } }, by decide +kernel⟩⟩

set_option maxRecDepth 1000000 in
/-- States that meet the hypotheses of each clause of PegSlots. -/
theorem test_witness_PegSlots :
    (∃ (s : State), s.peg.present = true
      ∧ (s.mod.state = .run ∨ s.mod.state = .hold)
      ∧ s.peg.openSlot = none
      ∧ s.peg.chg = .idle)
    ∧ (∃ (s : State), s.peg.present = false
      ∧ (s.mod.state = .run ∨ s.mod.state = .hold))
    ∧ (∃ (s : State) (u : State) (m : Msg) (q : Req) (n : Fin 3), Accepted m 0x0A .engineer q s u
      ∧ pegCheck u q.role (.openSlot n.val) n.val = 0)
    ∧ (∃ (s : State) (u : State) (m : Msg) (q : Req) (n : Fin 3) (off : Nat) (bytes : List Byte), Accepted m 0x0A
        .engineer q s u
      ∧ off % 4 = 0
      ∧ bytes.length % 4 = 0
      ∧ 4 ≤ bytes.length
      ∧ bytes.length ≤ 1024
      ∧ off + bytes.length ≤ 0x400000
      ∧ pegCheck u q.role (.data n.val off bytes) n.val = 0)
    ∧ (∃ (s : State) (u : State) (m : Msg) (q : Req) (n : Fin 3), Accepted m 0x0A .engineer q s u
      ∧ pegCheck u q.role (.close n.val) n.val = 0
      ∧ verifyCode u.peg.mem u.station n.val true = .verified)
    ∧ (∃ (s : State) (u : State) (m : Msg) (q : Req) (n : Fin 3), Accepted m 0x0A .engineer q s u
      ∧ pegCheck u q.role (.erase n.val) n.val = 0) :=
  ⟨⟨{ base with peg := { present := true } }, by decide +kernel⟩,
   ⟨base, by decide +kernel⟩,
   ⟨pegBase, (signedNext pegBase (signedReq pegBase 0x0A .engineer 9 [])), (signedMsg pegBase 0x0A .engineer 9 []),
      (signedReq pegBase 0x0A .engineer 9 []), 2, accepted_signed pegBase 0x0A .engineer .engineer 9 [] (by
      decide +kernel) (by decide) (by decide) (by decide) (by decide) (by decide +kernel), by decide +kernel⟩,
   ⟨pegOpen, (signedNext pegOpen (signedReq pegOpen 0x0A .engineer 9 [])), (signedMsg pegOpen 0x0A .engineer 9 []),
      (signedReq pegOpen 0x0A .engineer 9 []), 2, 0x3FFFFC, [1, 2, 3, 4], accepted_signed pegOpen 0x0A .engineer
      .engineer 9 [] (by decide +kernel) (by decide) (by decide) (by decide) (by decide) (by decide +kernel), by
      decide +kernel⟩,
   ⟨pegOpen, (signedNext pegOpen (signedReq pegOpen 0x0A .engineer 9 [])), (signedMsg pegOpen 0x0A .engineer 9 []),
      (signedReq pegOpen 0x0A .engineer 9 []), 2, accepted_signed pegOpen 0x0A .engineer .engineer 9 [] (by
      decide +kernel) (by decide) (by decide) (by decide) (by decide) (by decide +kernel), by decide +kernel⟩,
   ⟨pegOpen, (signedNext pegOpen (signedReq pegOpen 0x0A .engineer 9 [])), (signedMsg pegOpen 0x0A .engineer 9 []),
      (signedReq pegOpen 0x0A .engineer 9 []), 2, accepted_signed pegOpen 0x0A .engineer .engineer 9 [] (by
      decide +kernel) (by decide) (by decide) (by decide) (by decide) (by decide +kernel), by decide +kernel⟩⟩

/-- States that meet the hypotheses of each clause of Commits. -/
theorem test_witness_Commits :
    (∃ (s : State) (u : State) (m : Msg) (q : Req), Accepted m 0x0B .engineer q s u)
    ∧ (∃ (s : State), s.peg.chg = .staging)
    ∧ (∃ (s : State), s.peg.chg = .waitInstant
      ∧ s.logic.held = true
      ∧ instanceRunning s false = false)
    ∧ (∃ (s : State), s.peg.chg = .waitInstant)
    ∧ (∃ (s : State), s.peg.chg = .switching
      ∧ s.peg.resetWaits = false
      ∧ s.peg.drainWaits = false)
    ∧ (∃ (s : State), s.mod.state = .standby) :=
  ⟨⟨pegBase, (signedNext pegBase (signedReq pegBase 0x0B .engineer 9 [])), (signedMsg pegBase 0x0B .engineer 9 []),
      (signedReq pegBase 0x0B .engineer 9 []), accepted_signed pegBase 0x0B .engineer .engineer 9 [] (by
      decide +kernel) (by decide) (by decide) (by decide) (by decide) (by decide +kernel)⟩,
   ⟨{ base with peg := { chg := .staging } }, by decide +kernel⟩,
   ⟨{ base with peg := { chg := .waitInstant }, logic := { held := true } }, by decide +kernel⟩,
   ⟨{ base with peg := { chg := .waitInstant } }, by decide +kernel⟩,
   ⟨{ base with peg := { chg := .switching } }, by decide +kernel⟩,
   ⟨foreIn .standby .standby, by decide +kernel⟩⟩

/-- States that meet the hypotheses of each clause of AnalogueCompliance. -/
theorem test_witness_AnalogueCompliance :
    (∃ (s : State) (b : Fin 8) (c : Fin 16), s.live (bankFn b) = true
      ∧ isCurMode (s.ch b c).mode = true)
    ∧ (∃ (s : State) (b : Fin 8) (c : Fin 16), isCurMode (s.ch b c).mode = true
      ∧ (s.ch b c).compLow = false)
    ∧ (∃ (s : State) (b : Fin 8) (c : Fin 16), isCurMode (s.ch b c).mode = true
      ∧ (s.ch b c).compLow = true
      ∧ (s.ch b c).compShort = false)
    ∧ (∃ (s : State) (b : Fin 8) (c : Fin 16), isCurMode (s.ch b c).mode = true
      ∧ (s.ch b c).compLow = true)
    ∧ (∃ (s : State) (b : Fin 8) (c : Fin 16), (isActiveCur (s.ch b c).mode = true ∨ (s.ch b c).mode = 0x16
      ∨ (s.ch b c).mode = 0x17)
      ∧ (s.ch b c).backfeed = false
      ∧ s.live (bankFn b) = true)
    ∧ (∃ (r : Role), roleAtLeast r .engineer = true)
    ∧ (∃ (s : State) (b : Fin 8) (c : Fin 16), s.live (bankFn b) = true
      ∧ (s.ch b c).mode = 9) :=
  ⟨⟨withCh 15 { mode := 0x15 } {}, 1, 15, by decide +kernel⟩,
   ⟨withCh 15 { mode := 0x10 } {}, 1, 15, by decide +kernel⟩,
   ⟨withCh 15 { mode := 0x10, compLow := true } {}, 1, 15, by decide +kernel⟩,
   ⟨withCh 15 { mode := 0x10, compLow := true } {}, 1, 15, by decide +kernel⟩,
   ⟨withCh 15 { mode := 0x17 } {}, 1, 15, by decide +kernel⟩,
   ⟨.engineer, by decide +kernel⟩,
   ⟨withCh 15 { mode := 9 } {}, 1, 15, by decide +kernel⟩⟩

/-- States that meet the hypotheses of each clause of TrimProcedure. -/
theorem test_witness_TrimProcedure :
    (∃ (s : State) (b : Fin 8) (r : Role), roleAtLeast r .engineer = true
      ∧ s.running (bankFn b) = true
      ∧ (s.bank b).trim.state = .idle
      ∧ ((s.chCfg b (s.bank b).trim.sel).safety ≠ 1 ∧ layIdx s (.aoOut b (s.bank b).trim.sel) = none
      ∨ s.safetyCommissioned = false)
      ∧ isCurMode (s.ch b (s.bank b).trim.sel).mode = true)
    ∧ (∃ (s : State) (b : Fin 8) (r : Role), roleAtLeast r .engineer = true
      ∧ s.running (bankFn b) = true
      ∧ (s.bank b).trim.state = .idle
      ∧ ((s.chCfg b (s.bank b).trim.sel).safety ≠ 1 ∧ layIdx s (.aoOut b (s.bank b).trim.sel) = none
      ∨ s.safetyCommissioned = false)
      ∧ ((s.ch b (s.bank b).trim.sel).mode = 0x16 ∨ (s.ch b (s.bank b).trim.sel).mode = 0x17))
    ∧ (∃ (s : State) (b : Fin 8) (r : Role), roleAtLeast r .engineer = true
      ∧ s.running (bankFn b) = true
      ∧ (s.bank b).trim.state = .idle
      ∧ ((s.chCfg b (s.bank b).trim.sel).safety ≠ 1 ∧ layIdx s (.aoOut b (s.bank b).trim.sel) = none
      ∨ s.safetyCommissioned = false)
      ∧ isInMode (s.ch b (s.bank b).trim.sel).mode = true)
    ∧ (∃ (s : State) (b : Fin 8) (r : Role), roleAtLeast r .engineer = true
      ∧ (s.bank b).trim.averaging = false
      ∧ (s.bank b).trim.state = .point1)
    ∧ (∃ (s : State) (b : Fin 8), (s.bank b).trim.averaging = true
      ∧ (s.bank b).trim.state = .point1)
    ∧ (∃ (s : State) (b : Fin 8) (r : Role), roleAtLeast r .commission = true
      ∧ (s.bank b).trim.state = .computed
      ∧ s.otp.busy = none
      ∧ s.otpUsed (trimItem (s.bank b).trim.kind) (16 * b + (s.bank b).trim.sel) < 3)
    ∧ (∃ (s : State) (b : Fin 8) (k : OtpBusy), s.otp.busy = some k
      ∧ k.by' = 3
      ∧ (s.bank b).trim.state = .writing
      ∧ k.index / 16 = b)
    ∧ (∃ (s : State) (b : Fin 8) (k : OtpBusy), s.otp.busy = some k
      ∧ k.by' = 3
      ∧ (s.bank b).trim.state = .writing
      ∧ k.index / 16 = b)
    ∧ (∃ (s : State) (b : Fin 8) (r : Role), roleAtLeast r .engineer = true
      ∧ (s.bank b).trim.state ≠ .idle
      ∧ (s.bank b).trim.state ≠ .writing)
    ∧ (∃ (s : State) (b : Fin 8) (r : Role), roleAtLeast r .engineer = true
      ∧ (s.bank b).trim.state ≠ .idle
      ∧ (s.bank b).trim.state ≠ .writing) :=
  ⟨⟨withCh 0 { mode := 0x10 } {}, 1, .engineer, by decide +kernel⟩,
   ⟨withCh 0 { mode := 0x17 } {}, 1, .engineer, by decide +kernel⟩,
   ⟨withCh 0 { mode := 0x0C } {}, 1, .engineer, by decide +kernel⟩,
   ⟨withBank { trim := { state := .point1, kind := 3 } }, 1, .engineer, by decide +kernel⟩,
   ⟨withBank { trim := { state := .point1, averaging := true } }, 1, by decide +kernel⟩,
   ⟨withBank { trim := { state := .computed, kind := 3 } }, 1, .commission, by decide +kernel⟩,
   ⟨{ withBank { trim := { state := .writing } } with otp := { busy := some trimBusy } }, 1, trimBusy, by decide +kernel⟩,
   ⟨{ withBank { trim := { state := .writing } } with otp := { busy := some trimBusy } }, 1, trimBusy, by decide +kernel⟩,
   ⟨withBank { trim := { state := .computed } }, 1, .engineer, by decide +kernel⟩,
   ⟨withBank { trim := { state := .point2 } }, 1, .engineer, by decide +kernel⟩⟩

/-- States that meet the hypotheses of each clause of SlotTables. -/
theorem test_witness_SlotTables :
    (∃ (s : State) (b : Fin 8) (r : Role), submitCode s b r = (0, 0))
    ∧ (∃ (s : State) (b : Fin 8) (r : Role) (n : Nat) (m : Nat), submitCode s b r = (n, m)
      ∧ n ≠ 0)
    ∧ (∃ (s : State) (b : Fin 8), s.live (bankFn b) = true)
    ∧ (∃ (s : State) (b : Fin 8) (l : Fin 4) (n : Nat), (s.bank b).lanes.look l ≠ 0
      ∧ s.live (bankFn b) = true
      ∧ (laneOf (s.bank b).slotAct l).find? (fun k => decide ((s.bank b).lanes.look l - 1 < k)) = some n)
    ∧ (∃ (s : State) (b : Fin 8) (c : Fin 16), converting s b c = true) :=
  ⟨⟨withBank {}, 1, .engineer, by decide +kernel⟩,
   ⟨withBank {}, 1, .operate, 1, 0, by decide +kernel⟩,
   ⟨base, 7, by decide +kernel⟩,
   ⟨withBank { lanes := [(3, 1)], slotAct := slotPair }, 1, 3, 31, by decide +kernel⟩,
   ⟨withCh 0 { mode := 1 } {}, 1, 0, by decide +kernel⟩⟩

/-- States that meet the hypotheses of each clause of InputEpisodes. -/
theorem test_witness_InputEpisodes :
    (∃ (s : State) (b : Fin 8) (c : Fin 16), (s.ch b c).comp = .held)
    ∧ (∃ (s : State) (b : Fin 8) (c : Fin 16), (s.ch b c).riding = true
      ∧ (s.ch b c).episode = true)
    ∧ (∃ (s : State) (b : Fin 8) (c : Fin 16) (g : Nat) (p : Nat), isInMode (s.ch b c).mode = true
      ∧ (s.chCfg b c).notch = 4
      ∧ s.live (bankFn b) = true
      ∧ (s.chCfg b c).trackPt = some (g, p)
      ∧ (s.ch b c).track = .holding)
    ∧ (∃ (s : State) (b : Fin 8) (c : Fin 16), (s.ch b c).track = .locked)
    ∧ (∃ (s : State) (b : Fin 8) (c : Fin 16), (s.ch b c).track = .holding) :=
  ⟨⟨withCh 0 { comp := .held } {}, 1, 0, by decide +kernel⟩,
   ⟨withCh 0 { riding := true, episode := true } {}, 1, 0, by decide +kernel⟩,
   ⟨withCh 0 { mode := 1, track := .holding } { notch := 4, trackPt := some (7, 7) }, 1, 0, 7, 7, by decide +kernel⟩,
   ⟨withCh 0 { track := .locked } {}, 1, 0, by decide +kernel⟩,
   ⟨withCh 0 { track := .holding } {}, 1, 0, by decide +kernel⟩⟩

/-- States that meet the hypotheses of each clause of ClampsAndTests. -/
theorem test_witness_ClampsAndTests :
    (∃ (s : State) (b : Fin 8) (k : Fin 48), (s.bank b).clampLive.getLsbD k = true)
    ∧ (∃ (s : State) (b : Fin 8) (c : Fin 16), isInMode (s.ch b c).mode = true
      ∧ testOf (s.chCfg b c) = 1
      ∧ s.live (bankFn b) = true
      ∧ (s.ch b c).wireBreak = none)
    ∧ (∃ (s : State) (b : Fin 8) (c : Fin 16), s.live (bankFn b) = true
      ∧ isOutMode (s.ch b c).mode = true)
    ∧ (∃ (s : State) (b : Fin 8) (c : Fin 16), s.live (bankFn b) = true
      ∧ isInMode (s.ch b c).mode = true
      ∧ (s.chCfg b c).safety = 1) :=
  ⟨⟨withBank { clampLive := 0x800000000000#48 }, 1, 47, by decide +kernel⟩,
   ⟨withCh 0 { mode := 5 } { mode := 5 }, 1, 0, by decide +kernel⟩,
   ⟨withCh 0 { mode := 0x17 } {}, 1, 0, by decide +kernel⟩,
   ⟨withCh 0 { mode := 0x0C } { safety := 1 }, 1, 0, by decide +kernel⟩⟩

/-- States that meet the hypotheses of each clause of DigitalInputs. -/
theorem test_witness_DigitalInputs :
    (∃ (s : State) (g : Fin 8) (p : Fin 8), dpIsIn (s.point g p).mode = true
      ∧ (s.dpCfg g p).count ≠ 0
      ∧ s.live (groupFn g) = true)
    ∧ (∃ (s : State) (g : Fin 8) (p : Fin 8), dpIsIn (s.point g p).mode = true
      ∧ (s.dpCfg g p).count ≠ 0
      ∧ s.live (groupFn g) = true
      ∧ (s.point g p).edges.length < 2)
    ∧ (∃ (s : State) (g : Fin 8) (p : Fin 8), dpIsIn (s.point g p).mode = true
      ∧ (s.dpCfg g p).count ≠ 0
      ∧ s.live (groupFn g) = true
      ∧ 2 ≤ (s.point g p).edges.length
      ∧ (s.point g p).edges.headD 0 < (s.point g p).edges.getLastD 0)
    ∧ (∃ (s : State) (clk : Fin 2) (g : Fin 8) (p : Fin 8), dpIsIn (s.point g p).mode = true
      ∧ (s.dpCfg g p).filtClk = clk
      ∧ s.live (groupFn g) = true)
    ∧ (∃ (s : State) (g : Fin 8) (p : Fin 8) (j : Nat), dpIsIn (s.point g p).mode = true
      ∧ (s.dpCfg g p).count ≠ 0
      ∧ layIdx s (.diCount g p) = some j
      ∧ (∀ h q : Fin 8, (h, q) ≠ (g, p) → layIdx s (.diCount h q) ≠ some j)) :=
  ⟨⟨withPt 7 { mode := 2 } { count := 1 }, 7, 7, by decide +kernel⟩,
   ⟨withPt 7 { mode := 1, edges := [5] } { count := 1 }, 7, 7, by decide +kernel⟩,
   ⟨withPt 7 { mode := 1, edges := [5, 6] } { count := 1 }, 7, 7, by decide +kernel⟩,
   ⟨withPt 7 { mode := 1 } { filtClk := 1 }, 1, 7, 7, by decide +kernel⟩,
   ⟨{ withPt 7 { mode := 1 } {} with img := { points := [(63, { count := 1 })], layout := [(4, { ref := .diCount 7 7 })] } },
      7, 7, 4, by decide +kernel⟩⟩

/-- States that meet the hypotheses of each clause of DigitalOutputs. -/
theorem test_witness_DigitalOutputs :
    (∃ (s : State) (g : Fin 8) (p : Fin 8), (s.point g p).mode = 8
      ∧ (s.point g p).on = true
      ∧ (s.point g p).retries < 10)
    ∧ (∃ (s : State) (g : Fin 8) (p : Fin 8), (s.point g p).mode = 8
      ∧ (s.point g p).on = true
      ∧ 10 ≤ (s.point g p).retries)
    ∧ (∃ (s : State) (g : Fin 8) (p : Fin 8), (s.point g p).mode = 8
      ∧ (s.point g p).tripped = true
      ∧ (s.point g p).latched = false
      ∧ s.pair.enabled = true
      ∧ s.fnState (groupFn g) = .run)
    ∧ (∃ (s : State) (g : Fin 8) (p : Fin 8), (s.point g p).on = true)
    ∧ (∃ (s : State) (g : Fin 8) (p : Fin 8), (s.point g p).mode = 8
      ∧ doCommand s g p = false
      ∧ (s.point g p).extFeed = false)
    ∧ (∃ (s : State) (g : Fin 8) (p : Fin 8), (s.point g p).mode = 8)
    ∧ (∃ (s : State) (g : Fin 8) (p : Fin 8), (s.point g p).mode = 8)
    ∧ (∃ (r : Role), roleAtLeast r .engineer = true) :=
  ⟨⟨withPt 0 { mode := 8, on := true, retries := 9 } {}, 7, 0, by decide +kernel⟩,
   ⟨withPt 0 { mode := 8, on := true, retries := 10 } {}, 7, 0, by decide +kernel⟩,
   ⟨withPt 0 { mode := 8, tripped := true } {}, 7, 0, by decide +kernel⟩,
   ⟨withPt 0 { on := true } {}, 7, 0, by decide +kernel⟩,
   ⟨withPt 0 { mode := 8 } {}, 7, 0, by decide +kernel⟩,
   ⟨withPt 0 { mode := 8 } {}, 7, 0, by decide +kernel⟩,
   ⟨withPt 0 { mode := 8 } {}, 7, 0, by decide +kernel⟩,
   ⟨.engineer, by decide +kernel⟩⟩

/-- States that meet the hypotheses of each clause of GroupsAndWatchdogs. -/
theorem test_witness_GroupsAndWatchdogs :
    (∃ (s : State) (g : Fin 8), (s.group g).supplyLow = false)
    ∧ (∃ (s : State) (g : Fin 8), (s.group g).supplyLow = true)
    ∧ (∃ (s : State) (o : OutRef), outInUse s o = true
      ∧ (wdOf s (refOfOut o)).state = .run) :=
  ⟨⟨base, 7, by decide +kernel⟩,
   ⟨{ base with groups := [(7, { supplyLow := true })] }, 7, by decide +kernel⟩,
   ⟨{ withPt 0 { mode := 8 } {} with pair := {} }, .dig 7 0, by decide +kernel⟩⟩

/-- States that meet the hypotheses of each clause of TimeServo. -/
theorem test_witness_TimeServo :
    (∃ (s : State) (m : SyncMsg), s.live .time = true
      ∧ m.domain = s.img.time.domain
      ∧ s.tu.gm = some m.gm
      ∧ m.port = prefPort s
      ∧ s.tu.activePort = portCode m.port
      ∧ (linkOf s m.port).valid = true)
    ∧ (∃ (s : State), (s.tu.servo = .locking ∨ s.tu.servo = .locked))
    ∧ (∃ (s : State) (a : Announce), s.live .time = true
      ∧ a.domain = s.img.time.domain)
    ∧ (∃ (s : State) (src : Nat) (seq : Nat) (dom : Nat) (e : TwoStep), s.live .ring = true
      ∧ s.tu.twoStep.find? (twoStepKey src seq dom) = some e)
    ∧ (∃ (s : State) (src : Nat) (seq : Nat) (dom : Nat), s.live .ring = true
      ∧ s.tu.twoStep.find? (twoStepKey src seq dom) = none) :=
  ⟨⟨{ base with tu := { gm := some 1, activePort := 1, links := [(0, { valid := true })] } }, { gm := 1 }, by
      decide +kernel⟩,
   ⟨{ base with tu := { servo := .locked } }, by decide +kernel⟩,
   ⟨base, {}, by decide +kernel⟩,
   ⟨{ base with tu := { twoStep := [{ srcId := 1, seq := 2 }] } }, 1, 2, 0, { srcId := 1, seq := 2 }, by decide +kernel⟩,
   ⟨base, 1, 2, 0, by decide +kernel⟩⟩

/-- States that meet the hypotheses of each clause of LinkDelays. -/
theorem test_witness_LinkDelays :
    (∃ (s : State), s.live .ring = true)
    ∧ (∃ (s : State), s.live .ring = true)
    ∧ (∃ (s : State) (p : Port) (seq : Nat), s.live .ring = true
      ∧ (linkOf s p).pending = some seq)
    ∧ (∃ (s : State) (n : Fin 8) (r : Role), roleAtLeast r .engineer = true
      ∧ s.live .time = true
      ∧ 0 < sdiff32 (unitOf s n).target (shortTime s))
    ∧ (∃ (s : State) (n : Fin 8) (r : Role), roleAtLeast r .engineer = true
      ∧ s.live .time = true
      ∧ sdiff32 (unitOf s n).target (shortTime s) ≤ 0)
    ∧ (∃ (s : State) (n : Fin 8), (unitOf s n).armed = true
      ∧ s.live .time = true)
    ∧ (∃ (s : State) (g : Nat) (p : Nat), s.running .time = true
      ∧ 8 * g + p < 64
      ∧ (capEn s).getLsbD (8 * g + p) = true
      ∧ (fifoHeld s).length < 1024)
    ∧ (∃ (s : State) (c : Fin 4), s.running .time = true
      ∧ bitOf c s.img.time.capCan = true
      ∧ (fifoHeld s).length < 1024)
    ∧ (∃ (s : State) (c : CapSource) (g : Nat) (p : Nat) (latched : Nat) (dur : Nat) (rising : Bool), c = .edge g p
        latched rising dur
      ∧ s.running .time = true
      ∧ 8 * g + p < 64
      ∧ (capEn s).getLsbD (8 * g + p) = true
      ∧ 1024 ≤ (fifoHeld s).length) :=
  ⟨⟨base, by decide +kernel⟩,
   ⟨base, by decide +kernel⟩,
   ⟨{ base with tu := { links := [(1, { pending := some 4 })] } }, .b, 4, by decide +kernel⟩,
   ⟨{ base with tu := { units := [(7, { target := 1 })] } }, 7, .engineer, by decide +kernel⟩,
   ⟨base, 7, .engineer, by decide +kernel⟩,
   ⟨{ base with tu := { units := [(7, { armed := true })] } }, 7, by decide +kernel⟩,
   ⟨{ base with tu := { capEnSet := some (BitVec.allOnes 64) } }, 7, 7, by decide +kernel⟩,
   ⟨{ base with img := { time := { capCan := 8 } } }, 3, by decide +kernel⟩,
   ⟨{ base with tu := { capEnSet := some (BitVec.allOnes 64), fifo := List.replicate 1024 { forAlarm := true } } },
      .edge 7 7 0 true 0, 7, 7, 0, 0, true, by decide +kernel⟩⟩

/-- States that meet the hypotheses of each clause of AlarmPoints. -/
theorem test_witness_AlarmPoints :
    (∃ (s : State), s.running .alarm = true)
    ∧ (∃ (s : State) (n : Fin 2048), s.running .alarm = true
      ∧ (almOf s n).state = .normal
      ∧ (almOf s n).raw = true
      ∧ (almOf s n).delayed = false
      ∧ (almOf s n).suppOn = false)
    ∧ (∃ (s : State) (n : Fin 2048), s.running .alarm = true
      ∧ (almOf s n).state = .activeUnack
      ∧ (almOf s n).raw = false
      ∧ (almOf s n).delayed = true
      ∧ (almOf s n).suppOn = false)
    ∧ (∃ (s : State) (n : Fin 2048), s.running .alarm = true
      ∧ (almOf s n).state = .shelved
      ∧ (almOf s n).delayed = false
      ∧ (almOf s n).suppOn = false)
    ∧ (∃ (s : State) (n : Fin 2048), s.running .alarm = true
      ∧ (almOf s n).state = .suppressed
      ∧ (almOf s n).reentry = .none
      ∧ (almOf s n).suppRun.isSome = true
      ∧ (almOf s n).shelve = none
      ∧ (almOf s n).delayed = false) :=
  ⟨⟨base, by decide +kernel⟩,
   ⟨withAlm { state := .normal, raw := true } {}, 2047, by decide +kernel⟩,
   ⟨withAlm { state := .activeUnack, delayed := true } {}, 2047, by decide +kernel⟩,
   ⟨withAlm { state := .shelved } {}, 2047, by decide +kernel⟩,
   ⟨withAlm { state := .suppressed, suppRun := some 1 } {}, 2047, by decide +kernel⟩⟩

/-- States that meet the hypotheses of each clause of EngineerCall. -/
theorem test_witness_EngineerCall :
    (∃ (s : State), s.running .alarm = true
      ∧ s.img.alarm.master = true
      ∧ s.alarm.stage = 2)
    ∧ (∃ (s : State) (i : Fin 16), s.running .alarm = true
      ∧ s.img.alarm.master = true
      ∧ i < s.img.alarm.fwd.length
      ∧ (s.alarm.stations.look i).lost = false)
    ∧ (∃ (s : State), s.running .alarm = true
      ∧ s.alarm.dm = .running)
    ∧ (∃ (s : State), s.running .alarm = true
      ∧ s.alarm.dm = .prewarn)
    ∧ (∃ (v : W32) (r : Role), roleAtLeast r .engineer = true
      ∧ v.toNat % 4 ≠ 3)
    ∧ (∃ (s : State) (v : W32) (r : Role), roleAtLeast r .operate = true
      ∧ (v.toNat % 16 = 15 ∨ v.toNat % 16 < s.img.alarm.engN))
    ∧ (∃ (s : State), s.running .alarm = true
      ∧ s.img.alarm.master = false)
    ∧ (∃ (s : State) (u : Nat) (c : CallCond), s.running .alarm = true
      ∧ u ∈ stageUnits s
      ∧ unitSilenced s u = false
      ∧ s.alarm.opener = some c)
    ∧ (∃ (s : State) (u : Nat), s.running .alarm = true
      ∧ s.alarm.stage = 0
      ∧ u ∈ s.alarm.notified) :=
  ⟨⟨{ callBase with alarm := { stage := 2 } }, by decide +kernel⟩,
   ⟨callBase, 0, by decide +kernel⟩,
   ⟨{ callBase with alarm := { dm := .running } }, by decide +kernel⟩,
   ⟨{ callBase with alarm := { dm := .prewarn } }, by decide +kernel⟩,
   ⟨2, .engineer, by decide +kernel⟩,
   ⟨callBase, 0, .operate, by decide +kernel⟩,
   ⟨base, by decide +kernel⟩,
   ⟨{ callBase with alarm := { stage := 3, opener := some .deadman } }, 8, .deadman, by decide +kernel⟩,
   ⟨{ callBase with alarm := { notified := [8] } }, 8, by decide +kernel⟩⟩

/-- States that meet the hypotheses of each clause of AlarmCommands. -/
theorem test_witness_AlarmCommands :
    (∃ (s : State) (u : State) (m : Msg) (q : Req), Accepted m 7 .operate q s u
      ∧ leAt q.payload 0 1 = 1
      ∧ 6 ≤ q.payload.length
      ∧ u.running .alarm = true
      ∧ leAt q.payload 1 1 ≤ 3
      ∧ (leAt q.payload 1 1 = 0 → leAt q.payload 4 2 < 2048)
      ∧ (leAt q.payload 1 1 = 1 → leAt q.payload 4 2 < 256)
      ∧ locOk s (leAt q.payload 2 1) = true)
    ∧ (∃ (s : State) (u : State) (m : Msg) (q : Req), Accepted m 7 .engineer q s u
      ∧ leAt q.payload 0 1 = 2
      ∧ 8 ≤ q.payload.length
      ∧ u.running .alarm = true
      ∧ leAt q.payload 1 1 = 0
      ∧ leAt q.payload 2 1 = 0
      ∧ leAt q.payload 4 2 < 2048
      ∧ almUsed s (leAt q.payload 4 2) = true
      ∧ (almRow s (leAt q.payload 4 2)).prio ≠ 0
      ∧ 1 ≤ leAt q.payload 6 2
      ∧ leAt q.payload 6 2 ≤ shelveLimit s (almRow s (leAt q.payload 4 2)).group
      ∧ (almOf s (leAt q.payload 4 2)).state ≠ .oos)
    ∧ (∃ (s : State) (u : State) (m : Msg) (q : Req), Accepted m 7 .engineer q s u
      ∧ leAt q.payload 0 1 = 3
      ∧ 6 ≤ q.payload.length
      ∧ u.running .alarm = true
      ∧ leAt q.payload 1 1 = 0
      ∧ leAt q.payload 2 1 = 0
      ∧ leAt q.payload 4 2 < 2048
      ∧ almUsed s (leAt q.payload 4 2) = true)
    ∧ (∃ (s : State) (v : W32) (r : Role), roleAtLeast r .engineer = true
      ∧ v.toNat / 16777216 = 0x0A
      ∧ v.toNat / 2048 % 32 = 0
      ∧ v.toNat / 131072 % 128 = 0
      ∧ almUsed s (v.toNat % 2048) = true)
    ∧ (∃ (s : State), s.running .alarm = true
      ∧ locOk s s.img.alarm.panelLoc = true)
    ∧ (∃ (s : State), s.running .alarm = true
      ∧ locOk s s.img.alarm.panelLoc = true)
    ∧ (∃ (s : State) (u : State) (m : Msg) (q : Req) (i : Nat), Accepted m 0x13 .operate q s u
      ∧ u.running .alarm = true
      ∧ s.img.alarm.master = true
      ∧ 10 + 8 * leAt q.payload 8 2 ≤ q.payload.length
      ∧ (List.range s.img.alarm.fwd.length).find? (fun i => s.img.alarm.fwd.getD i 0 == q.sender) = some i) :=
  ⟨⟨base, (signedNext base (signedReq base 7 .operate 9 [1, 0, 0, 0, 0xFF, 7])), (signedMsg base 7 .operate 9 [1, 0, 0,
      0, 0xFF, 7]), (signedReq base 7 .operate 9 [1, 0, 0, 0, 0xFF, 7]), accepted_signed base 7 .operate .operate 9
      [1, 0, 0, 0, 0xFF, 7] (by decide +kernel) (by decide) (by decide) (by decide) (by decide) (by decide +kernel),
      by decide +kernel⟩,
   ⟨almBase, (signedNext almBase (signedReq almBase 7 .engineer 9 [2, 0, 0, 0, 0xFF, 7, 1, 0])), (signedMsg almBase 7
      .engineer 9 [2, 0, 0, 0, 0xFF, 7, 1, 0]), (signedReq almBase 7 .engineer 9 [2, 0, 0, 0, 0xFF, 7, 1, 0]),
      accepted_signed almBase 7 .engineer .engineer 9 [2, 0, 0, 0, 0xFF, 7, 1, 0] (by decide +kernel) (by decide) (by
      decide) (by decide) (by decide) (by decide +kernel), by decide +kernel⟩,
   ⟨almBase, (signedNext almBase (signedReq almBase 7 .engineer 9 [3, 0, 0, 0, 0xFF, 7])), (signedMsg almBase 7
      .engineer 9 [3, 0, 0, 0, 0xFF, 7]), (signedReq almBase 7 .engineer 9 [3, 0, 0, 0, 0xFF, 7]), accepted_signed
      almBase 7 .engineer .engineer 9 [3, 0, 0, 0, 0xFF, 7] (by decide +kernel) (by decide) (by decide) (by decide)
      (by decide) (by decide +kernel), by decide +kernel⟩,
   ⟨almBase, 0x0A0007FF, .engineer, by decide +kernel⟩,
   ⟨base, by decide +kernel⟩,
   ⟨base, by decide +kernel⟩,
   ⟨callBase, (peerNext callBase (signedReq callBase 0x13 .operate 9 (List.replicate 10 0#8))), (signedMsg callBase 0x13
      .operate 9 (List.replicate 10 0#8)), (signedReq callBase 0x13 .operate 9 (List.replicate 10 0#8)), 0,
      accepted_peer callBase 0x13 .operate .operate 9 (List.replicate 10 0#8) (by decide +kernel) (by decide) (by
      decide) (by decide) (by decide) (by decide +kernel) (by decide +kernel), by decide +kernel⟩⟩

/-- States that meet the hypotheses of each clause of LogicTasks. -/
theorem test_witness_LogicTasks :
    (∃ (s : State), s.running .logic = true
      ∧ s.logic.held = false
      ∧ holdWanted s = false)
    ∧ (∃ (s : State) (e : Event) (r : List Event), s.running .logic = true
      ∧ s.taskInbox = e :: r)
    ∧ (∃ (s : State) (c : CapEntry), s.running .logic = true
      ∧ s.img.time.capLogic = 1
      ∧ s.tu.fifo.find? (·.forLogic) = some c)
    ∧ (∃ (s : State) (n : Fin 33), s.running .logic = true
      ∧ (taskOf s n).state = .ready
      ∧ chosen s n = true)
    ∧ (∃ (s : State), s.running .logic = true
      ∧ (taskCfg s 32).kind = .background
      ∧ (taskOf s 32).state = .waiting
      ∧ s.logic.held = false)
    ∧ (∃ (s : State) (n : Fin 33), s.running .logic = true
      ∧ (taskOf s n).state = .running)
    ∧ (∃ (s : State) (n : Fin 33), s.running .logic = true
      ∧ (taskOf s n).state = .running)
    ∧ (∃ (s : State), s.running .logic = true
      ∧ s.logic.bgRunning = true)
    ∧ (∃ (s : State) (v : W32) (r : Role), v.toNat / 256 = 0x7A5C00
      ∧ v.toNat % 256 ≤ 32
      ∧ roleAtLeast r .engineer = true
      ∧ s.running .logic = true
      ∧ (taskOf s (v.toNat % 256)).state = .fault) :=
  ⟨⟨base, by decide +kernel⟩,
   ⟨{ base with taskInbox := [{ code := 1 }] }, { code := 1 }, [], by decide +kernel⟩,
   ⟨{ base with img := { time := { capLogic := 1 } }, tu := { fifo := [{ forLogic := true }] } }, { forLogic := true },
      by decide +kernel⟩,
   ⟨withTask 32 { state := .ready } {}, 32, by decide +kernel⟩,
   ⟨withTask 32 {} { kind := .background }, by decide +kernel⟩,
   ⟨withTask 15 { state := .running } {}, 15, by decide +kernel⟩,
   ⟨withTask 15 { state := .running } {}, 15, by decide +kernel⟩,
   ⟨{ base with logic := { bgRunning := true } }, by decide +kernel⟩,
   ⟨withTask 32 { state := .fault } {}, 0x7A5C0020, .engineer, by decide +kernel⟩⟩

/-- States that meet the hypotheses of each clause of RedundantExecution. -/
theorem test_witness_RedundantExecution :
    (∃ (s : State) (n : Nat) (r : SegRun), s.running .logic = true
      ∧ (taskOf s n).state = .running
      ∧ (taskOf s n).unit.done = false
      ∧ r.parity = .none
      ∧ r.last = true
      ∧ compareSeg r = .equal)
    ∧ (∃ (s : State) (n : Nat) (i : Nat) (k : Nat) (r : SegRun), s.running .logic = true
      ∧ (taskOf s n).state = .running
      ∧ (taskOf s n).unit.done = false
      ∧ r.parity = .none
      ∧ compareSeg r = .mismatch i k)
    ∧ (∃ (s : State) (n : Nat) (w : LaneWrite) (r : SegRun), s.running .logic = true
      ∧ (taskOf s n).state = .running
      ∧ (taskOf s n).unit.done = false
      ∧ (taskOf s n).unit.repeated = false
      ∧ r.parity = .none
      ∧ compareSeg r = .load w)
    ∧ (∃ (s : State) (e : Engine), e ≠ .alarm
      ∧ s.running (engineFn e) = true
      ∧ engineIdle s e = true
      ∧ dailyDue s e = true
      ∧ (s.trx.look (engineCode e)).nextCase < 106)
    ∧ (∃ (s : State) (e : Engine), e ≠ .alarm
      ∧ s.running (engineFn e) = true
      ∧ engineIdle s e = true
      ∧ dailyDue s e = true
      ∧ (s.trx.look (engineCode e)).nextCase < 106)
    ∧ (∃ (s : State) (e : Engine), e ≠ .alarm
      ∧ dailyDue s e = true) :=
  ⟨⟨withTask 15 { state := .running } {}, 15, {}, by decide +kernel⟩,
   ⟨withTask 15 { state := .running } {}, 15, 0, 0, { reached := false }, by decide +kernel⟩,
   ⟨withTask 15 { state := .running } {}, 15, loadLog, { log := [loadLog], passC := [{ loadLog with data := 1 }] }, by
      decide +kernel⟩,
   ⟨{ base with trx := [(0, { daily := true })] }, .logic, by decide +kernel⟩,
   ⟨{ base with trx := [(0, { daily := true })] }, .logic, by decide +kernel⟩,
   ⟨{ base with trx := [(2, { daily := true })] }, .bedrock, by decide +kernel⟩⟩

/-- States that meet the hypotheses of each clause of Forcing. -/
theorem test_witness_Forcing :
    (∃ (s : State) (u : State) (m : Msg) (q : Req) (kind : Fin 3) (ty : Vty) (tgt : Nat) (n : Nat) (v : W32), Accepted m
        5 .engineer q s u
      ∧ forceCheck u q.role (forceKindOf kind) ty tgt v = (0, n))
    ∧ (∃ (s : State) (u : State) (m : Msg) (q : Req) (kind : Fin 4) (tgt : Nat) (n : Nat), Accepted m 6 .engineer q s
        u
      ∧ u.running .logic = true
      ∧ u.mod.state = .run
      ∧ slotOf s (forceKindOf kind) tgt = some n
      ∧ kind ≠ 3
      ∧ (s.logic.forces.look n).ending = false) :=
  ⟨⟨forceBase, (signedNext forceBase (signedReq forceBase 5 .engineer 9 [])), (signedMsg forceBase 5 .engineer 9 []),
      (signedReq forceBase 5 .engineer 9 []), 1, .real, 3, 0, 0, accepted_signed forceBase 5 .engineer .engineer 9 []
      (by decide +kernel) (by decide) (by decide) (by decide) (by decide) (by decide +kernel), by decide +kernel⟩,
   ⟨{ forceBase with logic := { forces := [(255, { kind := .output, tgt := 3 })] } }, (signedNext
      { forceBase with logic := { forces := [(255, { kind := .output, tgt := 3 })] } } (signedReq
      { forceBase with logic := { forces := [(255, { kind := .output, tgt := 3 })] } } 6 .engineer 9 [])), (signedMsg
      { forceBase with logic := { forces := [(255, { kind := .output, tgt := 3 })] } } 6 .engineer 9 []), (signedReq
      { forceBase with logic := { forces := [(255, { kind := .output, tgt := 3 })] } } 6 .engineer 9 []), 1, 3, 255,
      accepted_signed { forceBase with logic := { forces := [(255, { kind := .output, tgt := 3 })] } } 6 .engineer
      .engineer 9 [] (by decide +kernel) (by decide) (by decide) (by decide) (by decide) (by decide +kernel), by
      decide +kernel⟩⟩

/-- States that meet the hypotheses of each clause of LoopSamples. -/
theorem test_witness_LoopSamples :
    (∃ (s : State), s.running .loop = true
      ∧ s.logic.held = false)
    ∧ (∃ (s : State) (n : Fin 256), s.running .loop = true
      ∧ loopUsed s n = true
      ∧ loopTurn s n = true)
    ∧ (∃ (s : State) (r : Role), testCheck s r = 0)
    ∧ (∃ (s : State) (r : Role), roleAtLeast r .engineer = true
      ∧ testRunning s = true) :=
  ⟨⟨base, by decide +kernel⟩,
   ⟨withLoop { due := true } { form := 1 }, 255, by decide +kernel⟩,
   ⟨{ withLoop { mode := .auto } { form := 1 } with loops := { lps := [(255, { mode := .auto })], test := { loop := 255 } } },
      .engineer, by decide +kernel⟩,
   ⟨{ base with loops := { test := { state := .pre } } }, .engineer, by decide +kernel⟩⟩

/-- States that meet the hypotheses of each clause of LoopCommands. -/
theorem test_witness_LoopCommands :
    (∃ (s : State) (n : Fin 256) (r : Role) (v : _), s.running .loop = true
      ∧ loopUsed s n = true
      ∧ heldLocal s 0 n = false
      ∧ roleAtLeast r .operate = true
      ∧ inRange (loopRow s n).spLo (loopRow s n).spHi v = true)
    ∧ (∃ (s : State) (n : Fin 256) (r : Role) (v : _), s.running .loop = true
      ∧ loopUsed s n = true
      ∧ heldLocal s 0 n = false
      ∧ roleAtLeast r .operate = true
      ∧ inRange (loopRow s n).umin (loopRow s n).umax v = true)
    ∧ (∃ (s : State) (n : Fin 256) (r : Role) (v : W32), s.running .loop = true
      ∧ loopUsed s n = true
      ∧ heldLocal s 0 n = false
      ∧ roleAtLeast r .operate = true
      ∧ v.toNat % 4 < 3
      ∧ (v.toNat % 4 = 2 → (loopRow s n).casRef ≠ none)
      ∧ reqAfter (loopOf s n) ≠ v.toNat % 4)
    ∧ (∃ (s : State) (n : Fin 256) (r : Role), s.running .loop = true
      ∧ loopUsed s n = true
      ∧ heldLocal s 0 n = false
      ∧ roleAtLeast r .engineer = true
      ∧ (loopOf s n).swap = false
      ∧ bankValid (loopRow s n).form (if (loopOf s n).bankB then (loopOf s n).a else (loopOf s n).b) = true)
    ∧ (∃ (s : State) (n : Fin 256) (r : Role), s.running .loop = true
      ∧ loopUsed s n = true
      ∧ heldLocal s 0 n = false
      ∧ roleAtLeast r .engineer = true
      ∧ (loopOf s n).mode = .fault)
    ∧ (∃ (s : State) (n : Fin 256) (r : Role) (inB : Bool), s.running .loop = true
      ∧ loopUsed s n = true
      ∧ heldLocal s 0 n = false
      ∧ roleAtLeast r .engineer = true
      ∧ (loopOf s n).bankB ≠ inB
      ∧ (loopOf s n).swap = false) :=
  ⟨⟨withLoop {} { form := 1 }, 255, .operate, 0, by decide +kernel⟩,
   ⟨withLoop {} { form := 1 }, 255, .operate, 0, by decide +kernel⟩,
   ⟨withLoop {} { form := 1, casRef := some 4 }, 255, .operate, 2, by decide +kernel⟩,
   ⟨withLoop {} { form := 2 }, 255, .engineer, by decide +kernel⟩,
   ⟨withLoop { mode := .fault } { form := 1 }, 255, .engineer, by decide +kernel⟩,
   ⟨withLoop {} { form := 1 }, 255, .engineer, true, by decide +kernel⟩⟩

/-- States that meet the hypotheses of each clause of AxisCommands. -/
theorem test_witness_AxisCommands :
    (∃ (s : State) (a : Fin 4) (src : CmdSrc), CmdAllowed a src s
      ∧ s.running (axisFn a) = true
      ∧ (axCfg s a).mode ≠ 0
      ∧ (s.axis a).state = .noTorque
      ∧ (s.axis a).torqueOff = false)
    ∧ (∃ (s : State) (a : Fin 4) (src : CmdSrc), CmdAllowed a src s
      ∧ s.running (axisFn a) = true
      ∧ (axCfg s a).mode ≠ 0
      ∧ ((s.axis a).state = .idle ∨ (s.axis a).state = .stopped ∨ (s.axis a).state = .dwell))
    ∧ (∃ (s : State) (a : Fin 4) (src : CmdSrc), CmdAllowed a src s
      ∧ s.running (axisFn a) = true
      ∧ (axCfg s a).mode ≠ 0
      ∧ (s.axis a).state = .moving
      ∧ (s.axis a).first = false)
    ∧ (∃ (s : State) (a : Fin 4) (src : CmdSrc), CmdAllowed a src s
      ∧ s.running (axisFn a) = true
      ∧ (axCfg s a).mode ≠ 0
      ∧ (s.axis a).state = .moving
      ∧ (s.axis a).first = false)
    ∧ (∃ (s : State) (a : Fin 4) (src : CmdSrc), CmdAllowed a src s
      ∧ s.running (axisFn a) = true
      ∧ (axCfg s a).mode ≠ 0
      ∧ (s.axis a).state = .stopped
      ∧ (s.axis a).ss1Line = false
      ∧ (axCfg s a).mode ≠ 2
      ∧ (s.axis a).pending = none)
    ∧ (∃ (s : State) (a : Fin 4) (src : CmdSrc) (p : _), CmdAllowed a src s
      ∧ s.running (axisFn a) = true
      ∧ (axCfg s a).mode ≠ 0
      ∧ (s.axis a).state = .stopped
      ∧ (s.axis a).ss1Line = false
      ∧ (axCfg s a).mode ≠ 2
      ∧ (s.axis a).pending = some p
      ∧ MoveAllowed a (prepTarget (axCfg s a) (s.axis a) p).1 s)
    ∧ (∃ (s : State) (a : Fin 4) (src : CmdSrc), CmdAllowed a src s
      ∧ s.running (axisFn a) = true
      ∧ (axCfg s a).mode ≠ 0
      ∧ ((s.axis a).state = .idle ∨ (s.axis a).state = .stopped)
      ∧ (axCfg s a).homeMode ≠ 0
      ∧ (axCfg s a).mode ≠ 2
      ∧ (s.axis a).ss1Line = false)
    ∧ (∃ (s : State) (a : Fin 4) (src : CmdSrc), CmdAllowed a src s
      ∧ s.running (axisFn a) = true
      ∧ (axCfg s a).mode ≠ 0
      ∧ (s.axis a).state = .fault
      ∧ (s.axis a).drive = 0)
    ∧ (∃ (s : State) (a : Fin 4) (src : CmdSrc) (p : _), CmdAllowed a src s
      ∧ s.running (axisFn a) = true
      ∧ (axCfg s a).mode ≠ 0
      ∧ potValue s a = some p
      ∧ inMotion (s.axis a) = false) :=
  ⟨⟨withAxis {} { mode := 1 }, 3, .mmp .engineer, by decide +kernel⟩,
   ⟨withAxis { state := .dwell } { mode := 1 }, 3, .panel, by decide +kernel⟩,
   ⟨withAxis { state := .moving, first := false } { mode := 1 }, 3, .entry, by decide +kernel⟩,
   ⟨withAxis { state := .moving, first := false } { mode := 1 }, 3, .entry, by decide +kernel⟩,
   ⟨withAxis { state := .stopped } { mode := 1 }, 3, .panel, by decide +kernel⟩,
   ⟨withAxis { state := .stopped, pending := some 5 } { mode := 1 }, 3, .panel, 5, by decide +kernel⟩,
   ⟨withAxis { state := .idle } { mode := 1, homeMode := 1 }, 3, .entry, by decide +kernel⟩,
   ⟨withAxis { state := .fault, cause := 6 } { mode := 1 }, 3, .entry, by decide +kernel⟩,
   ⟨potAxis, 3, .mmp .commission, 0, by decide +kernel⟩⟩

/-- States that meet the hypotheses of each clause of AxisMotion. -/
theorem test_witness_AxisMotion :
    (∃ (s : State) (a : Fin 4), axLive s a = true
      ∧ (s.axis a).torqueOff = false)
    ∧ (∃ (s : State) (a : Fin 4) (w : W32), axLive s a = true
      ∧ s.running (axisFn a) = true
      ∧ (axCfg s a).mode ≠ 2
      ∧ (s.axis a).state = .idle
      ∧ MoveAllowed a (prepTarget (axCfg s a) (s.axis a) w.toInt).1 s)
    ∧ (∃ (s : State) (a : Fin 4), axLive s a = true
      ∧ (axCfg s a).mode = 1
      ∧ (s.axis a).state = .moving
      ∧ (s.axis a).reversal = false)
    ∧ (∃ (s : State) (a : Fin 4), axLive s a = true
      ∧ (axCfg s a).mode = 2
      ∧ (s.axis a).state = .idle
      ∧ (s.axis a).queue ≠ 0)
    ∧ (∃ (s : State) (a : Fin 4), axLive s a = true
      ∧ (s.axis a).state = .dwell
      ∧ MoveAllowed a (prepTarget (axCfg s a) (s.axis a) (s.axis a).target).1 s)
    ∧ (∃ (s : State) (a : Fin 4), axLive s a = true
      ∧ energised (s.axis a) = true
      ∧ inMotion (s.axis a) = false)
    ∧ (∃ (s : State) (a : Fin 4) (c : _), axLive s a = true
      ∧ 1 ≤ c
      ∧ c ≤ 5
      ∧ (s.axis a).state ≠ .torqueRemoved
      ∧ (s.axis a).state ≠ .fault)
    ∧ (∃ (s : State) (a : Fin 4), axLive s a = true
      ∧ ((s.axis a).state = .idle ∨ (s.axis a).state = .stopped)
      ∧ (s.axis a).limP = false)
    ∧ (∃ (s : State) (a : Fin 4), axLive s a = true
      ∧ ((s.axis a).state = .idle ∨ (s.axis a).state = .stopped)
      ∧ (s.axis a).limN = false) :=
  ⟨⟨withAxis {} { mode := 1 }, 3, by decide +kernel⟩,
   ⟨withAxis { state := .idle } { mode := 1 }, 3, 5, by decide +kernel⟩,
   ⟨withAxis { state := .moving } { mode := 1 }, 3, by decide +kernel⟩,
   ⟨withAxis { state := .idle, queue := -1 } { mode := 2 }, 3, by decide +kernel⟩,
   ⟨withAxis { state := .dwell, target := 5 } { mode := 1 }, 3, by decide +kernel⟩,
   ⟨withAxis { state := .idle } { mode := 1 }, 3, by decide +kernel⟩,
   ⟨withAxis { state := .idle } { mode := 1 }, 3, 5, by decide +kernel⟩,
   ⟨withAxis { state := .idle } { mode := 1 }, 3, by decide +kernel⟩,
   ⟨withAxis { state := .stopped } { mode := 1 }, 3, by decide +kernel⟩⟩

/-- States that meet the hypotheses of each clause of AxisSensors. -/
theorem test_witness_AxisSensors :
    (∃ (s : State) (a : Fin 4), axLive s a = true)
    ∧ (∃ (s : State) (a : Fin 4) (p : _), axLive s a = true
      ∧ potValue s a = some p
      ∧ (s.axis a).potInit = false
      ∧ ((s.axis a).state = .idle ∨ (s.axis a).state = .stopped ∨ (s.axis a).state = .noTorque)
      ∧ (s.axis a).restAt + 500000000 ≤ s.now)
    ∧ (∃ (s : State) (a : Fin 4) (dir : _), axLive s a = true
      ∧ (axCfg s a).mode = 2
      ∧ (s.axis a).state = .idle
      ∧ (s.axis a).ss1Line = false
      ∧ ((s.axis a).source ≠ .unknown ∨ (axCfg s a).homeMode = 0)
      ∧ barred (s.axis a) dir = false)
    ∧ (∃ (s : State) (a : Fin 4), axLive s a = true
      ∧ (axCfg s a).mode = 3
      ∧ (s.axis a).state = .moving
      ∧ (s.axis a).braking = false
      ∧ (s.axis a).reversal = false
      ∧ psBrake (axCfg s a) (s.axis a).vel < (carriesLeft (axCfg s a) (s.axis a) : Int))
    ∧ (∃ (s : State) (a : Fin 4), axLive s a = true
      ∧ (axCfg s a).mode = 3
      ∧ (s.axis a).state = .moving
      ∧ (s.axis a).vel ≠ 0) :=
  ⟨⟨withAxis {} { mode := 1 }, 3, by decide +kernel⟩,
   ⟨{ potAxis with tu := { mono := 500000000 } }, 3, 0, by decide +kernel⟩,
   ⟨withAxis { state := .idle } { mode := 2 }, 3, true, by decide +kernel⟩,
   ⟨withAxis { state := .moving, target := 100000 } { mode := 3 }, 3, by decide +kernel⟩,
   ⟨withAxis { state := .moving, vel := 1 } { mode := 3 }, 3, by decide +kernel⟩⟩

/-- States that meet the hypotheses of each clause of SafetyCycles. -/
theorem test_witness_SafetyCycles :
    (∃ (s : State), s.fnState .bedrock = .run)
    ∧ (∃ (s : State), s.fnState .bedrock = .run)
    ∧ (∃ (s : State) (g : Fin 128), s.fnState .bedrock = .run
      ∧ (vgRow s g).kind ≠ 0
      ∧ (vgOf s g).disc = false
      ∧ (vgOf s g).apart.isSome = true) :=
  ⟨⟨base, by decide +kernel⟩,
   ⟨base, by decide +kernel⟩,
   ⟨{ base with img := { bedrock := { groups := [(127, { kind := 2 })] } }, bedrock := { groups := [(127, { apart := some 0 })] } },
      127, by decide +kernel⟩⟩

/-- States that meet the hypotheses of each clause of StoFaults. -/
theorem test_witness_StoFaults :
    (∃ (s : State) (k : Fin 4), (stoOf s k).on = true
      ∧ bitOf k s.img.bedrock.stoTest = true
      ∧ s.fnState .bedrock = .run
      ∧ (stoOf s k).latched = false)
    ∧ (∃ (s : State) (k : Fin 4), s.fnState .bedrock = .run
      ∧ (stoOf s k).latched = false) :=
  ⟨⟨{ base with img := { bedrock := { stoTest := 8 } }, bedrock := { sto := [(3, { on := true })] } }, 3, by
      decide +kernel⟩,
   ⟨base, 3, by decide +kernel⟩⟩

/-- States that meet the hypotheses of each clause of BslFrames. -/
theorem test_witness_BslFrames :
    (∃ (m : Msg) (q : Req) (s : State) (u : State) (c : Nat), Accepted m 0x16 .operate q s u
      ∧ (bslFromPeer u q.sender).filter (bslTakes u) = [c]
      ∧ bslCheck (bslRow u c) q.payload = true
      ∧ (bslOf s c).state = 2
      ∧ leAt q.payload 0 2 = ((bslOf s c).seq + 1) % 65536
      ∧ (bslOf s c).seq < 65536
      ∧ bitOf 1 (leAt q.payload 7 1) = false
      ∧ bitOf 0 (leAt q.payload 7 1) = false
      ∧ 0 < (w32 (leAt q.payload 2 4) - w32 (bslOf s c).texp).toInt
      ∧ (w32 (leAt q.payload 2 4) - w32 (bslOf s c).texp).toInt ≤ ((bslRow s c).wd * 1000 : Nat))
    ∧ (∃ (s : State) (c : Fin 16), s.fnState .bedrock = .run
      ∧ (bslRow s c).dir = 1
      ∧ (bslOf s c).state = 2) :=
  ⟨⟨(signedMsg bslBase 0x16 .operate 9 bslBytes), (signedReq bslBase 0x16 .operate 9 bslBytes), bslBase, (peerNext
      bslBase (signedReq bslBase 0x16 .operate 9 bslBytes)), 15, accepted_peer bslBase 0x16 .operate .operate 9
      bslBytes (by decide +kernel) (by decide) (by decide) (by decide) (by decide) (by decide +kernel) (by
      decide +kernel), by decide +kernel⟩,
   ⟨{ base with img := { bedrock := { conns := [(15, { dir := 1 })] } }, bedrock := { conns := [(15, { state := 2 })] } },
      15, by decide +kernel⟩⟩

/-- States that meet the hypotheses of each clause of PoolBlocks. -/
theorem test_witness_PoolBlocks :
    (∃ (s : State) (f : Fn) (n : Nat) (bs : List Nat), 1 ≤ n
      ∧ n ≤ 64
      ∧ masked s f = false
      ∧ poolPick s f n = some bs)
    ∧ (∃ (s : State) (f : Fn) (n : Nat), 1 ≤ n
      ∧ n ≤ 64
      ∧ masked s f = false
      ∧ poolPick s f n = none
      ∧ (s.pool.fns.look (fnId f)).exhausted = false)
    ∧ (∃ (s : State) (f : Fn) (b : Nat), (poolBlock s b).owner = some (fnId f)
      ∧ (poolBlock s b).marked = false)
    ∧ (∃ (s : State) (f : Fn) (b : Nat), (poolBlock s b).owner = some (fnId f)
      ∧ (poolBlock s b).marked = true)
    ∧ (∃ (s : State) (b : Nat), b < 8192
      ∧ (poolBlock s b).retired = false)
    ∧ (∃ (s : State) (b : Nat), b < 8192
      ∧ (poolBlock s b).retired = false
      ∧ (poolBlock s b).owner = none)
    ∧ (∃ (s : State) (b : Nat) (o : Nat), b < 8192
      ∧ (poolBlock s b).retired = false
      ∧ (poolBlock s b).owner = some o) :=
  ⟨⟨base, .recorder, 1, [0], by decide +kernel⟩,
   ⟨{ base with img := { pool := { res := [8192] } } }, .recorder, 1, by decide +kernel⟩,
   ⟨{ base with pool := { blocks := [(8191, { owner := some (fnId .recorder) })] } }, .recorder, 8191, by decide +kernel⟩,
   ⟨{ base with pool := { blocks := [(8191, { owner := some (fnId .recorder), marked := true })] } }, .recorder, 8191,
      by decide +kernel⟩,
   ⟨base, 8191, by decide +kernel⟩,
   ⟨base, 8191, by decide +kernel⟩,
   ⟨{ base with pool := { blocks := [(8191, { owner := some 1 })] } }, 8191, 1, by decide +kernel⟩⟩

/-- States that meet the hypotheses of each clause of ArbiterCommands. -/
theorem test_witness_ArbiterCommands :
    (∃ (s : State) (r : Requester) (beats : Nat), eligible s none r = true
      ∧ s.pool.holder = none
      ∧ 1 ≤ beats
      ∧ beats ≤ 16)
    ∧ (∃ (s : State) (h : Requester) (r : Requester) (k : Nat), s.pool.holder = some h
      ∧ ownsTag s h k = true
      ∧ masked s h.fn = false
      ∧ eligible s (some k) r = true
      ∧ rankOf h < rankOf r
      ∧ h.fn ≠ .logic)
    ∧ (∃ (s : State) (f : Fn) (w : WaitSt), s.pool.waits = [w]
      ∧ w.who.fn = f
      ∧ w.starved = false)
    ∧ (∃ (k : Nat), k < 256)
    ∧ (∃ (s : State) (f : Fn) (k : Nat), k < 256
      ∧ f ≠ .module
      ∧ f ≠ .pool
      ∧ (s.fnState f = .run ∨ s.fnState f = .drain ∨ s.fnState f = .standby))
    ∧ (∃ (s : State) (f : Fn) (n : Nat), n ≤ 10
      ∧ masked s f = false
      ∧ (∀ h ∈ locksOf s f, h < n)
      ∧ (s.pool.locks.look n).owner = none)
    ∧ (∃ (s : State) (f : Fn) (n : Nat) (o : Nat), n ≤ 10
      ∧ masked s f = false
      ∧ (∀ h ∈ locksOf s f, h < n)
      ∧ (s.pool.locks.look n).owner = some o
      ∧ fnId f ∉ (s.pool.locks.look n).waiters)
    ∧ (∃ (s : State) (f : Fn) (n : Nat), n ≤ 10
      ∧ masked s f = false
      ∧ (∃ h ∈ locksOf s f, n ≤ h))
    ∧ (∃ (s : State) (f : Fn) (n : Nat), (s.pool.locks.look n) = { owner := some (fnId f), waiters := [] })
    ∧ (∃ (s : State) (f : Fn) (g : Fn) (n : Nat) (w : List Nat), (s.pool.locks.look n) =
        { owner := some (fnId f), waiters := fnId g :: w }
      ∧ (∀ p ∈ s.pool.locks, p.2.owner = some (fnId g) → p.1 < n)) :=
  ⟨⟨base, { fn := .bedrock }, 16, by decide +kernel⟩,
   ⟨{ base with pool := { holder := some { fn := .bedrock }, tags := [(255, some { fn := fnId .bedrock })] } },
      { fn := .bedrock }, { fn := .panel }, 255, by decide +kernel⟩,
   ⟨{ base with pool := { waits := [{ who := { fn := .loop } }] } }, .loop, { who := { fn := .loop } }, by
      decide +kernel⟩,
   ⟨255, by decide +kernel⟩,
   ⟨base, .loop, 255, by decide +kernel⟩,
   ⟨base, .loop, 10, by decide +kernel⟩,
   ⟨{ base with pool := { locks := [(10, { owner := some 1 })] } }, .loop, 10, 1, by decide +kernel⟩,
   ⟨{ base with pool := { locks := [(10, { owner := some (fnId .loop) })] } }, .loop, 10, by decide +kernel⟩,
   ⟨{ base with pool := { locks := [(10, { owner := some (fnId .loop) })] } }, .loop, 10, by decide +kernel⟩,
   ⟨{ base with pool := { locks := [(9, { owner := some (fnId .peg) }), (10, { owner := some (fnId .loop), waiters := [fnId .peg] })] } },
      .loop, .peg, 10, [], by decide +kernel⟩⟩

/-- States that meet the hypotheses of each clause of RingFrames. -/
theorem test_witness_RingFrames :
    (∃ (s : State) (p : Port) (f : RingIn), portsAlive s = true
      ∧ (portOf s p).up = true
      ∧ f.fcsOk = false)
    ∧ (∃ (s : State) (p : Port) (f : RingIn), portsAlive s = true
      ∧ (portOf s p).up = true
      ∧ f.fcsOk = true
      ∧ f.len ≤ 1528
      ∧ f.own = true)
    ∧ (∃ (s : State) (p : Port) (f : RingIn), portsAlive s = true
      ∧ (portOf s p).up = true
      ∧ f.fcsOk = true
      ∧ f.len ≤ 1528
      ∧ f.own = false
      ∧ f.kind = .other
      ∧ (dupSee s.now f.src f.seq s.mmp.dupForward).1 = true)
    ∧ (∃ (s : State) (p : Port) (f : RingIn) (bs : List Nat), portsAlive s = true
      ∧ (portOf s p).up = true
      ∧ (portOf s (otherPort p)).up = true
      ∧ f.fcsOk = true
      ∧ f.len ≤ 1528
      ∧ f.own = false
      ∧ f.kind = .other
      ∧ f.ptp = none
      ∧ (dupSee s.now f.src f.seq s.mmp.dupForward).1 = false
      ∧ poolPick s .ring ((f.len + 255) / 256) = some bs)
    ∧ (∃ (s : State) (p : Port) (f : RingIn) (bs : List Nat) (corr : Int) (i : Int) (e : Int), portsAlive s = true
      ∧ (portOf s p).up = true
      ∧ (portOf s (otherPort p)).up = true
      ∧ f.fcsOk = true
      ∧ f.len ≤ 1528
      ∧ f.own = false
      ∧ f.kind = .multicast
      ∧ f.ptp = some (.oneStep corr i e)
      ∧ (dupSee s.now f.src f.seq s.mmp.dupForward).1 = false
      ∧ poolPick s .ring ((f.len + 255) / 256) = some bs
      ∧ residence s p i e ≤ 65536000000)
    ∧ (∃ (s : State) (p : Port) (f : RingIn) (bs : List Nat) (corr : Int) (i : Int) (e : Int), portsAlive s = true
      ∧ (portOf s p).up = true
      ∧ (portOf s (otherPort p)).up = true
      ∧ f.fcsOk = true
      ∧ f.len ≤ 1528
      ∧ f.own = false
      ∧ f.kind = .multicast
      ∧ f.ptp = some (.oneStep corr i e)
      ∧ (dupSee s.now f.src f.seq s.mmp.dupForward).1 = false
      ∧ poolPick s .ring ((f.len + 255) / 256) = some bs
      ∧ 65536000000 < residence s p i e)
    ∧ (∃ (s : State) (p : Port) (f : RingIn) (bs : List Nat) (src : Nat) (seq : Nat) (dom : Nat) (i : Int) (e : Int),
        portsAlive s = true
      ∧ (portOf s p).up = true
      ∧ (portOf s (otherPort p)).up = true
      ∧ f.fcsOk = true
      ∧ f.len ≤ 1528
      ∧ f.own = false
      ∧ f.kind = .multicast
      ∧ f.ptp = some (.twoStep src seq dom i e)
      ∧ (dupSee s.now f.src f.seq s.mmp.dupForward).1 = false
      ∧ poolPick s .ring ((f.len + 255) / 256) = some bs
      ∧ residence s p i e ≤ 65536000000)
    ∧ (∃ (s : State) (p : Port) (f : RingIn) (src : Nat) (seq : Nat) (dom : Nat) (corr : Int), portsAlive s = true
      ∧ (portOf s p).up = true
      ∧ f.fcsOk = true
      ∧ f.len ≤ 1528
      ∧ f.own = false
      ∧ f.kind = .multicast
      ∧ f.ptp = some (.followUp src seq dom corr)
      ∧ (dupSee s.now f.src f.seq s.mmp.dupForward).1 = false
      ∧ s.tu.twoStep.any (twoStepKey src seq dom) = false)
    ∧ (∃ (s : State) (p : Port) (f : RingIn), portsAlive s = true
      ∧ (portOf s p).up = true
      ∧ f.fcsOk = true
      ∧ f.len ≤ 1528
      ∧ f.own = false
      ∧ f.kind = .supervision
      ∧ (portOf s (otherPort p)).up = false
      ∧ (portOf s p).supOk = false)
    ∧ (∃ (s : State) (p : Port), (portOf s p).up = true)
    ∧ (∃ (s : State) (p : Port) (speed : Fin 3), portsAlive s = true
      ∧ (portOf s p).up = false
      ∧ speed ≠ 0)
    ∧ (∃ (s : State), delivers s = true)
    ∧ (∃ (s : State) (p : Port), (portOf s p).up = true
      ∧ (portOf s p).supOk = true) :=
  ⟨⟨ringBase, .a, { fcsOk := false }, by decide +kernel⟩,
   ⟨ringBase, .a, { own := true, len := 1528 }, by decide +kernel⟩,
   ⟨{ ringBase with mmp := { ports := [(0, { up := true })], dupForward := [{ mac := 5, nums := [{ num := 6 }] }] } },
      .a, { src := 5, seq := 6 }, by decide +kernel⟩,
   ⟨ringBase, .a, { src := 5, seq := 6, len := 64 }, [0], by decide +kernel⟩,
   ⟨{ ringBase with img := { time := { consts := [(0, some 0), (1, some 0), (4, some 0), (5, some 0)] } } }, .a,
      { src := 5, seq := 6, len := 64, kind := .multicast, ptp := some (.oneStep 7 0 65536) }, [0], 7, 0, 65536, by
      decide +kernel⟩,
   ⟨{ ringBase with img := { time := { consts := [(0, some 0), (1, some 0), (4, some 0), (5, some 0)] } } }, .a,
      { src := 5, seq := 6, len := 64, kind := .multicast, ptp := some (.oneStep 7 0 131072000000) }, [0], 7, 0,
      131072000000, by decide +kernel⟩,
   ⟨{ ringBase with img := { time := { consts := [(0, some 0), (1, some 0), (4, some 0), (5, some 0)] } } }, .b,
      { src := 5, seq := 6, len := 64, kind := .multicast, ptp := some (.twoStep 1 2 3 0 65536) }, [0], 1, 2, 3, 0,
      65536, by decide +kernel⟩,
   ⟨ringBase, .b, { src := 5, seq := 6, len := 64, kind := .multicast, ptp := some (.followUp 1 2 3 4) }, 1, 2, 3, 4, by
      decide +kernel⟩,
   ⟨{ base with mmp := { ports := [(1, { up := true })] } }, .b, { kind := .supervision }, by decide +kernel⟩,
   ⟨ringBase, .b, by decide +kernel⟩,
   ⟨base, .b, 2, by decide +kernel⟩,
   ⟨base, by decide +kernel⟩,
   ⟨{ base with mmp := { ports := [(1, { up := true, supOk := true })] } }, .b, by decide +kernel⟩⟩

/-- States that meet the hypotheses of each clause of HostServices. -/
theorem test_witness_HostServices :
    (∃ (s : State), delivers s = true)
    ∧ (∃ (s : State), delivers s = true
      ∧ (s.mmp.echoes.filter (fun x => decide (s.now < x + 1000000000))).length < 10)
    ∧ (∃ (s : State), 10 ≤ (s.mmp.echoes.filter (fun x => decide (s.now < x + 1000000000))).length)
    ∧ (∃ (s : State) (n : Fin 16), s.mod.state = .run
      ∧ (s.img.mmp.pubs.look n).period ≠ 0
      ∧ (s.roleKey .observe).isSome = true
      ∧ delivers s = true)
    ∧ (∃ (s : State) (n : Fin 16), s.mod.state = .run
      ∧ (s.img.mmp.pubs.look n).period ≠ 0
      ∧ (s.roleKey .observe).isSome = true
      ∧ delivers s = false
      ∧ s.mmp.pubEpisode.testBit n = false)
    ∧ (∃ (s : State), delivers s = true)
    ∧ (∃ (s : State), delivers s = true
      ∧ (s.roleKey .observe).isSome = true
      ∧ s.img.mmp.notify ≠ []
      ∧ s.mmp.notifyQ ≠ []) :=
  ⟨⟨base, by decide +kernel⟩,
   ⟨base, by decide +kernel⟩,
   ⟨{ base with mmp := { echoes := List.replicate 10 0 } }, by decide +kernel⟩,
   ⟨{ base with img := { mmp := { pubs := [(15, { period := 10 })] } } }, 15, by decide +kernel⟩,
   ⟨{ withFn .ring .fault with img := { mmp := { pubs := [(15, { period := 10 })] } } }, 15, by decide +kernel⟩,
   ⟨base, by decide +kernel⟩,
   ⟨{ base with img := { mmp := { notify := [1] } }, mmp := { notifyQ := [{}] } }, by decide +kernel⟩⟩

/-- States that meet the hypotheses of each clause of ObjectAccess. -/
theorem test_witness_ObjectAccess :
    (∃ (m : Msg) (pairs : List (W32 × Nat)) (q : Req) (ws : List W32) (s : State) (u : State) (v : State), receive m
        (pairs.map (·.1)) s = (some q, u)
      ∧ q.type = 1
      ∧ readFormed pairs = true
      ∧ readWords (readList pairs) [] u = (.ok, ws, v))
    ∧ (∃ (m : Msg) (q : Req) (f : Fn) (v : W32) (s : State) (u : State), Accepted m 2 .engineer q s u
      ∧ q.payload = leBytes 4 (16777216 * fnId f + 0x10) ++ leBytes 4 v.toNat)
    ∧ (∃ (r : Role), roleAtLeast r .engineer = true)
    ∧ (∃ (r : Role), roleAtLeast r .engineer = false)
    ∧ (∃ (m : Msg) (q : Req) (f : Fn) (s : State) (u : State), Accepted m 3 .engineer q s u
      ∧ f ≠ .module
      ∧ f ≠ .pool
      ∧ f ≠ .peg
      ∧ f ≠ .ring
      ∧ (s.fnState f = .run ∨ s.fnState f = .drain ∨ s.fnState f = .disabled ∨ s.fnState f = .fault)) :=
  ⟨⟨signedMsg base 1 .observe 9 [], [(0x010010, 1)], signedReq base 1 .observe 9 [], [0], base, signedNext base
      (signedReq base 1 .observe 9 []), signedNext base (signedReq base 1 .observe 9 []), receive_signed base 1
      .observe 9 [] _ (by decide +kernel) (by decide) (by decide) (by decide), by decide +kernel, by decide +kernel,
      by decide +kernel⟩,
   ⟨(signedMsg base 2 .engineer 9 (leBytes 4 (16777216 * fnId .loop + 0x10) ++ leBytes 4 5)), (signedReq base 2
      .engineer 9 (leBytes 4 (16777216 * fnId .loop + 0x10) ++ leBytes 4 5)), .loop, 5, base, (signedNext base
      (signedReq base 2 .engineer 9 (leBytes 4 (16777216 * fnId .loop + 0x10) ++ leBytes 4 5))), accepted_signed base
      2 .engineer .engineer 9 (leBytes 4 (16777216 * fnId .loop + 0x10) ++ leBytes 4 5) (by decide +kernel) (by
      decide) (by decide) (by decide) (by decide) (by decide +kernel), by decide +kernel⟩,
   ⟨.engineer, by decide +kernel⟩,
   ⟨.operate, by decide +kernel⟩,
   ⟨(signedMsg base 3 .engineer 9 []), (signedReq base 3 .engineer 9 []), .loop, base, (signedNext base (signedReq base
      3 .engineer 9 [])), accepted_signed base 3 .engineer .engineer 9 [] (by decide +kernel) (by decide) (by decide)
      (by decide) (by decide) (by decide +kernel), by decide +kernel⟩⟩

/-- States that meet the hypotheses of each clause of CanFrames. -/
theorem test_witness_CanFrames :
    (∃ (s : State) (c : Fin 4) (f : CanFrame) (n : Nat) (q : Nat) (bs : List Nat), canFnOn s c = true
      ∧ (canOf s c).state = .active
      ∧ ((canCfg s c).mode = 2 → f.fdf = false)
      ∧ bslFromCan s c f = []
      ∧ filterFrame s c f = some (n, q)
      ∧ (canQ (canOf s c) q).entries.length < (canCfg s c).qdepth.getD q 64
      ∧ poolPick s (canFn c) 1 = some bs)
    ∧ (∃ (s : State) (c : Fin 4) (f : CanFrame) (n : Nat) (q : Nat), canFnOn s c = true
      ∧ (canOf s c).state = .active
      ∧ ((canCfg s c).mode = 2 → f.fdf = false)
      ∧ bslFromCan s c f = []
      ∧ filterFrame s c f = some (n, q)
      ∧ (canCfg s c).qdepth.getD q 64 ≤ (canQ (canOf s c) q).entries.length
      ∧ (canQ (canOf s c) q).lost = false)
    ∧ (∃ (s : State) (c : Fin 4) (f : CanFrame), canFnOn s c = true
      ∧ (canOf s c).state = .active
      ∧ ((canCfg s c).mode = 2 → f.fdf = false)
      ∧ bslFromCan s c f = []
      ∧ filterFrame s c f = none)
    ∧ (∃ (s : State) (c : Fin 4) (f : CanFrame), (canCfg s c).mode ≠ 0
      ∧ canFnOn s c = true
      ∧ ((canCfg s c).mode = 2 → f.fdf = false)
      ∧ ((canOf s c).state = .active ∨ (canOf s c).state = .passive)
      ∧ (∀ k < 3, (txb (canOf s c) k).frame = none ∧ (txb (canOf s c) k).next = none ∧ (txb (canOf s c) k).busy =
        false))
    ∧ (∃ (s : State) (c : Fin 4) (b : Fin 3) (f : CanFrame), sending (canOf s c) = some b.val
      ∧ (txb (canOf s c) b).frame = some f
      ∧ ((canOf s c).state = .active ∨ (canOf s c).state = .passive))
    ∧ (∃ (s : State) (c : Fin 4) (b : Fin 3) (f : CanFrame), sending (canOf s c) = some b.val
      ∧ (txb (canOf s c) b).frame = some f
      ∧ (canCfg s c).oneshot.getD b 0 = 1) :=
  ⟨⟨{ base with can := [(3, { state := .active })], img := { can := [(3, { mode := 1, pairs := [(31, { w2 := 1 })] })] } },
      3, {}, 31, 0, [0], by decide +kernel⟩,
   ⟨{ base with can := [(3, { state := .active })], img := { can := [(3, { mode := 1, qdepth := [0, 0], pairs := [(31, { w2 := 1 })] })] } },
      3, {}, 31, 0, by decide +kernel⟩,
   ⟨{ base with can := [(3, { state := .active })] }, 3, {}, by decide +kernel⟩,
   ⟨{ base with can := [(3, { state := .active })], img := { can := [(3, { mode := 1 })] } }, 3, {}, by decide +kernel⟩,
   ⟨{ base with can := [(3, { state := .passive, b2 := { busy := true, frame := some {} } })] }, 3, 2, {}, by
      decide +kernel⟩,
   ⟨{ base with can := [(3, { b2 := { busy := true, frame := some {} } })], img := { can := [(3, { oneshot := [0, 0, 1] })] } },
      3, 2, {}, by decide +kernel⟩⟩

/-- States that meet the hypotheses of each clause of CanStates. -/
theorem test_witness_CanStates :
    (∃ (s : State) (c : Fin 4) (tec : Nat), ((canOf s c).state = .active ∨ (canOf s c).state = .passive)
      ∧ (canOf s c).test = 0
      ∧ tec ≤ 255)
    ∧ (∃ (s : State) (c : Fin 4) (tec : Nat), ((canOf s c).state = .active ∨ (canOf s c).state = .passive)
      ∧ 255 < tec)
    ∧ (∃ (s : State) (c : Fin 4), (canOf s c).state = .busOff
      ∧ (canOf s c).test = 0)
    ∧ (∃ (s : State) (c : Fin 4), (canOf s c).state = .recovery
      ∧ (canOf s c).test = 0
      ∧ 128 ≤ (canOf s c).okRun
      ∧ (canOf s c).tec ≤ 127
      ∧ (canOf s c).rec' ≤ 127)
    ∧ (∃ (s : State) (c : Fin 4), (canOf s c).state = .off
      ∧ canFnOn s c = true
      ∧ (canCfg s c).mode ≠ 0
      ∧ (canOf s c).test = 0)
    ∧ (∃ (s : State) (c : Fin 4) (v : W32) (r : Role), roleAtLeast r .engineer = true
      ∧ v.toNat % 4 ≠ 3
      ∧ v.toNat % 4 ≠ 0
      ∧ (canOf s c).state = .active
      ∧ sending (canOf s c) = none)
    ∧ (∃ (r : Role), roleAtLeast r .engineer = true) :=
  ⟨⟨{ base with can := [(3, { state := .active })] }, 3, 255, by decide +kernel⟩,
   ⟨{ base with can := [(3, { state := .active })] }, 3, 256, by decide +kernel⟩,
   ⟨{ base with can := [(3, { state := .busOff })] }, 3, by decide +kernel⟩,
   ⟨{ base with can := [(3, { state := .recovery, okRun := 128 })] }, 3, by decide +kernel⟩,
   ⟨{ base with img := { can := [(3, { mode := 1 })] } }, 3, by decide +kernel⟩,
   ⟨{ base with can := [(3, { state := .active })] }, 3, 2, .engineer, by decide +kernel⟩,
   ⟨.engineer, by decide +kernel⟩⟩

/-- States that meet the hypotheses of each clause of PanelDrive. -/
theorem test_witness_PanelDrive :
    (∃ (s : State), panelDrives s = true
      ∧ s.panel.scan = .on)
    ∧ (∃ (s : State), panelDrives s = true
      ∧ s.panel.scan = .off
      ∧ s.mod.warning = false)
    ∧ (∃ (s : State) (r : Nat), s.panel.scan = .on
      ∧ panelDrives s = true
      ∧ r < 480)
    ∧ (∃ (s : State) (x : Int), panelDrives s = true
      ∧ -400 ≤ x
      ∧ x ≤ 1000)
    ∧ (∃ (s : State), panelDrives s = true
      ∧ s.panel.tempFault = false)
    ∧ (∃ (s : State) (r : Nat), s.fnState .panel = .run
      ∧ s.panel.scan = .on
      ∧ r < (pageCfg s).regions.length
      ∧ (regOf s r).phase = .idle
      ∧ s.panel.queue = []
      ∧ regBytes s r ≤ backFree s)
    ∧ (∃ (s : State) (r : Nat), s.fnState .panel = .run
      ∧ s.panel.scan = .on
      ∧ r < (pageCfg s).regions.length
      ∧ (regOf s r).phase = .idle
      ∧ backFree s < regBytes s r)
    ∧ (∃ (s : State) (r : Nat), (regOf s r).phase = .rendering)
    ∧ (∃ (s : State), s.panel.scan = .discharging) :=
  ⟨⟨base, by decide +kernel⟩,
   ⟨{ base with panel := { scan := .off } }, by decide +kernel⟩,
   ⟨base, 479, by decide +kernel⟩,
   ⟨base, 1000, by decide +kernel⟩,
   ⟨base, by decide +kernel⟩,
   ⟨{ base with img := { panel := { pages := [{ regions := [{ w := 8, h := 8 }] }] } } }, 0, by decide +kernel⟩,
   ⟨{ base with img := { panel := { pages := [{ regions := [{ w := 2400, h := 480 }] }] } } }, 0, by decide +kernel⟩,
   ⟨{ base with panel := { regs := [(63, { phase := .rendering })] } }, 63, by decide +kernel⟩,
   ⟨{ base with panel := { scan := .discharging } }, by decide +kernel⟩⟩

/-- States that meet the hypotheses of each clause of LocalControl. -/
theorem test_witness_LocalControl :
    (∃ (s : State) (k : Fin 6) (n : Nat), pageKeys s = true
      ∧ nth (pageCfg s).keys k = .page n
      ∧ n < s.img.panel.pages.length)
    ∧ (∃ (s : State) (k : Fin 6) (p : LocalPt), pageKeys s = true
      ∧ nth (pageCfg s).keys k = .select p)
    ∧ (∃ (s : State), panelDrives s = true)
    ∧ (∃ (s : State), s.mod.domains.getLsbD 11 = true
      ∧ s.panel.keyOn = false)
    ∧ (∃ (s : State), s.mod.domains.getLsbD 11 = true
      ∧ s.panel.keyOn = true)
    ∧ (∃ (s : State), s.mod.domains.getLsbD 11 = true
      ∧ s.panel.keyFault = false)
    ∧ (∃ (s : State) (kind : Fin 3) (i : Nat), s.fnState .panel = .run
      ∧ takeCode s { kind := kind, index := i } = 0
      ∧ { kind := kind, index := i } ∉ s.panel.locals)
    ∧ (∃ (s : State) (kind : Fin 3) (i : Nat), s.fnState .panel = .run
      ∧ takeCode s { kind := kind, index := i } ≠ 0)
    ∧ (∃ (s : State) (kind : Fin 4) (i : Nat), s.fnState .panel = .run
      ∧ kind ≠ 3
      ∧ { kind := kind, index := i } ∈ s.panel.locals)
    ∧ (∃ (s : State), s.fnState .panel = .run)
    ∧ (∃ (s : State) (g : Nat) (p : Nat) (i : Nat) (k : LocalCfg), s.fnState .panel = .run
      ∧ { kind := 2, index := i } ∈ s.panel.locals
      ∧ localCfg s { kind := 2, index := i } = some k
      ∧ (s.lay i).ref = .doOut g p)
    ∧ (∃ (s : State) (p : LocalPt) (c : LocalCmd) (plus : Bool), pageKeys s = true
      ∧ s.panel.sel = some p
      ∧ s.panel.lastStep = some c
      ∧ stepDir c = some plus) :=
  ⟨⟨{ base with img := { panel := { pages := [{ keys := [.page 0] }] } } }, 0, 0, by decide +kernel⟩,
   ⟨{ base with img := { panel := { pages := [{ keys := [.none, .none, .none, .none, .none, .select {}] }] } } }, 5, {},
      by decide +kernel⟩,
   ⟨base, by decide +kernel⟩,
   ⟨base, by decide +kernel⟩,
   ⟨{ base with panel := { keyOn := true } }, by decide +kernel⟩,
   ⟨base, by decide +kernel⟩,
   ⟨{ base with panel := { keyOn := true }, img := { panel := { locals := [{}] } } }, 0, 0, by decide +kernel⟩,
   ⟨base, 2, 3, by decide +kernel⟩,
   ⟨{ base with panel := { locals := [{}] } }, 0, 0, by decide +kernel⟩,
   ⟨base, by decide +kernel⟩,
   ⟨{ base with panel := { locals := [{ kind := 2, index := 3 }] }, img := { panel := { locals := [{ pt := { kind := 2, index := 3 } }] }, layout := [(3, { ref := .doOut 7 7 })] } },
      7, 7, 3, { pt := { kind := 2, index := 3 } }, by decide +kernel⟩,
   ⟨{ base with panel := { sel := some {}, lastStep := some (.step true) } }, {}, .step true, true, by decide +kernel⟩⟩

/-- States that meet the hypotheses of each clause of EventRecords. -/
theorem test_witness_EventRecords :
    (∃ (s : State) (e : Event) (r : List Event), s.recd.inbox = e :: r
      ∧ pastWindow s e = false
      ∧ e.code / 4096 = 5
      ∧ s.recd.staging.length < 512)
    ∧ (∃ (s : State) (e : Event) (r : List Event) (l : List Rec) (k : Rec), s.recd.inbox = e :: r
      ∧ pastWindow s e = false
      ∧ s.recd.staging = l ++ [k]
      ∧ s.recd.clearWaits = none
      ∧ e.code = k.ev.code
      ∧ e.source = k.ev.source
      ∧ e.data = k.ev.data
      ∧ e.code / 4096 ≠ 5
      ∧ k.rep < 65535
      ∧ k.lostBefore = false
      ∧ e.mono ≤ k.ev.mono + 1000 * repeatWindow s)
    ∧ (∃ (s : State) (e : Event) (r : List Event), s.recd.inbox = e :: r
      ∧ pastWindow s e = false
      ∧ e.code / 4096 = 5
      ∧ 512 ≤ s.recd.staging.length)
    ∧ (∃ (s : State) (r : Rec), recorderCommits s = true
      ∧ s.recd.clearWaits = none
      ∧ s.recd.staging = [r]
      ∧ r.lostBefore = false
      ∧ r.ev.code / 4096 ≠ 5)
    ∧ (∃ (s : State) (r : Rec), recorderCommits s = true
      ∧ s.recd.clearWaits = none
      ∧ s.recd.staging = [r]
      ∧ r.lostBefore = false
      ∧ r.ev.code / 4096 = 5
      ∧ s.recd.auditRing.length < 8192)
    ∧ (∃ (r : Role), roleAtLeast r .commission = true)
    ∧ (∃ (s : State) (o : Origin), recorderCommits s = true
      ∧ s.recd.clearWaits = some o
      ∧ s.recd.staging = []) :=
  ⟨⟨{ base with recd := { inbox := [{ code := 0x5001 }] } }, { code := 0x5001 }, [], by decide +kernel⟩,
   ⟨{ base with recd := { inbox := [{ code := 0x1001, mono := 100000 }], staging := [{ ev := { code := 0x1001 } }] } },
      { code := 0x1001, mono := 100000 }, [], [], { ev := { code := 0x1001 } }, by decide +kernel⟩,
   ⟨{ base with recd := { inbox := [{ code := 0x5001 }], staging := List.replicate 512 {} } }, { code := 0x5001 }, [],
      by decide +kernel⟩,
   ⟨{ base with recd := { staging := [{ ev := { code := 0x1001 } }] } }, { ev := { code := 0x1001 } }, by decide +kernel⟩,
   ⟨{ base with recd := { staging := [{ ev := { code := 0x5001 } }] } }, { ev := { code := 0x5001 } }, by decide +kernel⟩,
   ⟨.commission, by decide +kernel⟩,
   ⟨{ base with recd := { clearWaits := some .module } }, .module, by decide +kernel⟩⟩

/-- States that meet the hypotheses of each clause of RecorderReading. -/
theorem test_witness_RecorderReading :
    (∃ (m : Msg) (q : Req) (s : State) (u : State) (region : Nat) (count : Nat), Accepted m 8 .observe q s u
      ∧ 2 ≤ q.payload.length
      ∧ leAt q.payload 0 1 = region
      ∧ leAt q.payload 1 1 = count
      ∧ region ≤ 1
      ∧ 1 ≤ count
      ∧ count ≤ 16
      ∧ (recVisible s region (cursorOf s q region) = true ∨ cursorOf s q region = (regionOf s region).2.1))
    ∧ (∃ (m : Msg) (q : Req) (s : State) (u : State), Accepted m 8 .observe q s u
      ∧ (q.payload.length < 2 ∨ 1 < leAt q.payload 0 1 ∨ leAt q.payload 1 1 < 1 ∨ 16 < leAt q.payload 1 1))
    ∧ (∃ (m : Msg) (q : Req) (s : State) (u : State) (region : Nat), Accepted m 9 .observe q s u
      ∧ 8 ≤ q.payload.length
      ∧ leAt q.payload 0 1 = region
      ∧ region ≤ 1
      ∧ leAt q.payload 1 1 = 1)
    ∧ (∃ (m : Msg) (q : Req) (s : State) (u : State) (region : Nat), Accepted m 9 .observe q s u
      ∧ 8 ≤ q.payload.length
      ∧ leAt q.payload 0 1 = region
      ∧ region ≤ 1
      ∧ leAt q.payload 1 1 = 2)
    ∧ (∃ (m : Msg) (q : Req) (s : State) (u : State) (region : Nat), Accepted m 9 .observe q s u
      ∧ 8 ≤ q.payload.length
      ∧ leAt q.payload 0 1 = region
      ∧ region ≤ 1
      ∧ leAt q.payload 1 1 = 0
      ∧ recVisible s region (leAt q.payload 4 4) = true)
    ∧ (∃ (m : Msg) (q : Req) (s : State) (u : State) (region : Nat), Accepted m 9 .observe q s u
      ∧ 8 ≤ q.payload.length
      ∧ leAt q.payload 0 1 = region
      ∧ region ≤ 1
      ∧ leAt q.payload 1 1 = 0
      ∧ recVisible s region (leAt q.payload 4 4) = false
      ∧ leAt q.payload 4 4 ≠ (regionOf s region).2.1) :=
  ⟨⟨(signedMsg base 8 .observe 9 [0, 16]), (signedReq base 8 .observe 9 [0, 16]), base, (signedNext base (signedReq base
      8 .observe 9 [0, 16])), 0, 16, accepted_signed base 8 .observe .observe 9 [0, 16] (by decide +kernel) (by
      decide) (by decide) (by decide) (by decide) (by decide +kernel), by decide +kernel⟩,
   ⟨(signedMsg base 8 .observe 9 [2, 1]), (signedReq base 8 .observe 9 [2, 1]), base, (signedNext base (signedReq base 8
      .observe 9 [2, 1])), accepted_signed base 8 .observe .observe 9 [2, 1] (by decide +kernel) (by decide) (by
      decide) (by decide) (by decide) (by decide +kernel), by decide +kernel⟩,
   ⟨(signedMsg base 9 .observe 9 [1, 1, 0, 0, 0, 0, 0, 0]), (signedReq base 9 .observe 9 [1, 1, 0, 0, 0, 0, 0, 0]),
      base, (signedNext base (signedReq base 9 .observe 9 [1, 1, 0, 0, 0, 0, 0, 0])), 1, accepted_signed base 9
      .observe .observe 9 [1, 1, 0, 0, 0, 0, 0, 0] (by decide +kernel) (by decide) (by decide) (by decide) (by
      decide) (by decide +kernel), by decide +kernel⟩,
   ⟨(signedMsg base 9 .observe 9 [1, 2, 0, 0, 0, 0, 0, 0]), (signedReq base 9 .observe 9 [1, 2, 0, 0, 0, 0, 0, 0]),
      base, (signedNext base (signedReq base 9 .observe 9 [1, 2, 0, 0, 0, 0, 0, 0])), 1, accepted_signed base 9
      .observe .observe 9 [1, 2, 0, 0, 0, 0, 0, 0] (by decide +kernel) (by decide) (by decide) (by decide) (by
      decide) (by decide +kernel), by decide +kernel⟩,
   ⟨(signedMsg recBase 9 .observe 9 [0, 0, 0, 0, 0, 0, 0, 0]), (signedReq recBase 9 .observe 9 [0, 0, 0, 0, 0, 0, 0,
      0]), recBase, (signedNext recBase (signedReq recBase 9 .observe 9 [0, 0, 0, 0, 0, 0, 0, 0])), 0,
      accepted_signed recBase 9 .observe .observe 9 [0, 0, 0, 0, 0, 0, 0, 0] (by decide +kernel) (by decide) (by
      decide) (by decide) (by decide) (by decide +kernel), by decide +kernel⟩,
   ⟨(signedMsg recBase 9 .observe 9 [0, 0, 0, 0, 9, 0, 0, 0]), (signedReq recBase 9 .observe 9 [0, 0, 0, 0, 9, 0, 0,
      0]), recBase, (signedNext recBase (signedReq recBase 9 .observe 9 [0, 0, 0, 0, 9, 0, 0, 0])), 0,
      accepted_signed recBase 9 .observe .observe 9 [0, 0, 0, 0, 9, 0, 0, 0] (by decide +kernel) (by decide) (by
      decide) (by decide) (by decide) (by decide +kernel), by decide +kernel⟩⟩

/-! ### The remaining statements -/

/-- A group of Bedrock, number 127. -/
def withGroup (r : VgRow) (x : VgSt) : State :=
  { base with img := { bedrock := { groups := [(127, r)] } }, bedrock := { groups := [(127, x)] } }

/-- Two channels that vote. -/
def twoValid : VgSt := { c0 := { valid := true }, c1 := { valid := true } }

/-- States that meet the hypotheses of each clause of GroupVotes. -/
theorem test_witness_GroupVotes :
    (∃ (s : State) (g : Nat) (c : VgCh) (l : List VgCh), (vgRow s g).discAct = 0 ∧ (vgRow s g).chs = c :: l
      ∧ (vgRow s g).kind = 1)
    ∧ (∃ (s : State) (g : Nat) (c : VgCh) (l : List VgCh), (vgRow s g).discAct = 0 ∧ (vgRow s g).chs = c :: l
      ∧ (vgRow s g).kind = 5)
    ∧ (∃ (s : State) (g : Nat), (vgRow s g).discAct = 0 ∧ (vgRow s g).kind = 2)
    ∧ (∃ (s : State) (g : Nat) (a b : VgCh) (l : List VgCh), (vgRow s g).discAct = 0 ∧ (vgRow s g).chs = a :: b :: l
      ∧ (vgRow s g).kind = 6 ∧ (vgOf s g).c0.valid = true ∧ (vgOf s g).c1.valid = true)
    ∧ (∃ (s : State) (g : Nat), (vgRow s g).discAct = 0 ∧ (vgRow s g).kind = 3)
    ∧ (∃ (s : State) (g : Nat), (vgRow s g).discAct = 0 ∧ (vgRow s g).kind = 4)
    ∧ (∃ (s : State) (g : Nat) (a b c : VgCh) (l : List VgCh), (vgRow s g).discAct = 0
      ∧ (vgRow s g).chs = a :: b :: c :: l ∧ (vgRow s g).kind = 7 ∧ (vgOf s g).c0.valid = true
      ∧ (vgOf s g).c1.valid = true ∧ (vgOf s g).c2.valid = true)
    ∧ (∃ (s : State) (g : Nat) (a b c : VgCh) (l : List VgCh), (vgRow s g).discAct = 0
      ∧ (vgRow s g).chs = a :: b :: c :: l ∧ (vgRow s g).kind = 7 ∧ (vgOf s g).c0.valid = true
      ∧ (vgOf s g).c1.valid = true ∧ (vgOf s g).c2.valid = false)
    ∧ (∃ (s : State) (g : Nat), (vgRow s g).discAct = 0 ∧ (vgRow s g).kind = 7 ∧ (vgOf s g).c0.valid = false
      ∧ (vgOf s g).c1.valid = false) :=
  ⟨⟨withGroup { kind := 1, chs := [.entry 1] } {}, 127, .entry 1, [], by decide⟩,
   ⟨withGroup { kind := 5, chs := [.entry 1] } {}, 127, .entry 1, [], by decide⟩,
   ⟨withGroup { kind := 2 } {}, 127, by decide⟩,
   ⟨withGroup { kind := 6, chs := [.entry 1, .entry 2] } twoValid, 127, .entry 1, .entry 2, [], by decide⟩,
   ⟨withGroup { kind := 3 } {}, 127, by decide⟩,
   ⟨withGroup { kind := 4 } {}, 127, by decide⟩,
   ⟨withGroup { kind := 7, chs := [.entry 1, .entry 2, .entry 3] } { twoValid with c2 := { valid := true } }, 127, .entry 1,
     .entry 2, .entry 3, [], by decide⟩,
   ⟨withGroup { kind := 7, chs := [.entry 1, .entry 2, .entry 3] } twoValid, 127, .entry 1, .entry 2, .entry 3, [], by decide⟩,
   ⟨withGroup { kind := 7 } {}, 127, by decide⟩⟩

/-- A panel that drives its rows, with a ledger at its lower end. -/
def panelBase : State := { base with panel := { scan := .on, rows := [(479, { cells := [(2399, -7)] })] } }

/-- A state that meets the hypotheses of LedgerAndPolarity. -/
theorem test_witness_LedgerAndPolarity :
    ∃ (s : State) (r : Nat), s.panel.scan = .on ∧ panelDrives s = true ∧ r < 480 := ⟨panelBase, 479, by decide⟩

/-- States that meet the hypotheses of each clause of StepTakesFront. -/
theorem test_witness_StepTakesFront :
    (∃ (c : Instr) (r : List Instr) (s : State), s.pending = c :: r) ∧ (∃ s : State, s.pending = []) :=
  ⟨⟨.rowPeriod 479, [], { base with pending := [.rowPeriod 479] }, rfl⟩, ⟨base, rfl⟩⟩

/-- A step that meets the hypotheses of PegMemoryCanonical. -/
theorem test_witness_PegMemoryCanonical : ∃ s t : State, Memory.wf s.peg.mem ∧ step s = .next t :=
  ⟨{ base with pending := [.pegInserted [(9, 1#8), (5, 2#8)]] }, _, by decide, rfl⟩

/-- A step that meets the hypotheses of OneTimeSlotsKept. -/
theorem test_witness_OneTimeSlotsKept : ∃ s t : State, step s = .next t ∧ s.otp.items ≠ [] :=
  ⟨{ base with otp := { otpKeys with busy := some { item := 1, index := 0, value := [9] } }, pending := [.otpWrite true] }, _,
    rfl, by decide⟩

/-- A step that meets the hypotheses of LedgersKept. -/
theorem test_witness_LedgersKept : ∃ s t : State, LedgersInRange s ∧ step s = .next t :=
  ⟨{ panelBase with pending := [.rowPeriod 479] }, _, by
    intro r c
    by_cases h : 479 = r <;> by_cases k : 2399 = c <;> simp [panelBase, Tab.look, h, k] <;>
      exact (show (-7 : Int) ≤ 0 ∧ (0 : Int) ≤ 7 by decide), rfl⟩

/-- A step that meets the hypotheses of RecordsKept. -/
theorem test_witness_RecordsKept : ∃ s t : State, RecordsInBounds s ∧ step s = .next t :=
  ⟨{ recBase with pending := [.stagingCommit] }, _, by unfold RecordsInBounds; decide, rfl⟩

/-- Commands, states and parts that meet the hypotheses of Frames. -/
theorem test_witness_Frames :
    ∃ (c : Instr) (s t : State) (p : Part), exec c s = .next t ∧ p ∉ touches c :=
  ⟨.rowPeriod 479, panelBase, _, .pegBytes, rfl, by decide⟩

/-- Commands that meet the hypotheses of each clause of OtherInstances. -/
theorem test_witness_OtherInstances :
    (∃ (c : Instr) (s t : State) (k : Nat), exec c s = .next t ∧ channelOf c = some k)
    ∧ (∃ (c : Instr) (s t : State) (k : Nat), exec c s = .next t ∧ pointOf c = some k)
    ∧ (∃ (c : Instr) (s t : State) (k : Nat), exec c s = .next t ∧ axisOf c = some k)
    ∧ (∃ (c : Instr) (s t : State) (k : Nat), exec c s = .next t ∧ controllerOf c = some k) :=
  ⟨⟨.compFailed 7 15, base, _, _, rfl, rfl⟩, ⟨.freqGateEnd 7 7, base, _, _, rfl, rfl⟩, ⟨.potCheck 3, base, _, _, rfl, rfl⟩,
   ⟨.busIntegration 3, base, _, _, rfl, rfl⟩⟩

/-- A refused write of FN_CTRL, as ControlWriteRefusals has it. -/
theorem test_witness_ControlWriteRefusals :
    ∃ (s : State) (f : Fn) (v : W32) (r : Role), (writeWord (16777216 * fnId f + 8) v r s).1 ≠ .ok :=
  ⟨base, .bedrock, 0xA5A50002, .commission, by decide⟩

/-! ### Commands outside their ranges -/

/-- Messages and lists that are too long, and operands past the end of their range, are refused. -/
theorem test_wf_refuses :
    Instr.wf (.powerGood 0 0 3) = false ∧ Instr.wf (.selfTestEnd true [(3, 0)] 0) = false
      ∧ Instr.wf (.selfTestEnd true [(0, 106)] 0) = false ∧ Instr.wf (.pegWriteData {} 0 4294967296 []) = false
      ∧ Instr.wf (.force {} 0 .bool 65536 0) = false ∧ Instr.wf (.release {} 0 65536) = false
      ∧ Instr.wf (.funcReset {} 256) = false ∧ Instr.wf (.recwin {} [16]) = false
      ∧ Instr.wf (.bivouacRequest 4294967296) = false ∧ Instr.wf (.pegInserted [(16777216, 0)]) = false
      ∧ Instr.wf (.readbackVisit 0 0 (.crossCheck 8388608 0)) = false ∧ Instr.wf (.strapSense []) = false
      ∧ Instr.wf (.conversionResult 0 0 (-8388609) {}) = false ∧ Instr.wf (.sync { domain := 256 }) = false
      ∧ Instr.wf (.sync { interval := 62499999 }) = false ∧ Instr.wf (.announce { prio1 := 256 }) = false
      ∧ Instr.wf (.followUp .a 0 65536 0 0) = false ∧ Instr.wf (.twoStepExpiry 0 0 256) = false
      ∧ Instr.wf (.pdelayReq .a 65536 0 0 0) = false ∧ Instr.wf (.firstOutCapture (.edge 8 0 0 true 0)) = false
      ∧ Instr.wf (.firstOutCapture (.sof 4)) = false ∧ Instr.wf (.comparatorTestPart .logic 107 []) = false
      ∧ Instr.wf (.axisTick 0 0 6) = false ∧ Instr.wf (.axDriverFault 0 0) = false
      ∧ Instr.wf (.partnerUncommissioned 256) = false ∧ Instr.wf (.decisionPoint [] 17 none true) = false
      ∧ Instr.wf (.decisionPoint [] 1 (some 256) true) = false ∧ Instr.wf (.tagTimeout .ring 256) = false
      ∧ Instr.wf (.poolAllocate .ring 65) = false ∧ Instr.wf (.blockFree .ring [8192]) = false
      ∧ Instr.wf (.poolParity 8192) = false ∧ Instr.wf (.poolScrub [8192]) = false ∧ Instr.wf (.lock .ring 11) = false
      ∧ Instr.wf (.ringFrame .a { seq := 65536 }) = false
      ∧ Instr.wf (.ringFrame .a { ptp := some (.followUp 0 0 256 0) }) = false ∧ Instr.wf (.arp 4294967296 0) = false
      ∧ Instr.wf (.icmpEcho 0 65536 0 []) = false ∧ Instr.wf (.heartbeat { position := 3 } false) = false
      ∧ Instr.wf (.standbyCkptCheck 4294967296 0 0 true true) = false ∧ Instr.wf (.rowPeriod 480) = false
      ∧ Instr.wf (.take 0 65536) = false ∧ Instr.wf (.canRxFrame 0 { id := 2048 }) = false
      ∧ Instr.wf (.canTxRequest 0 0 { dlc := 16 }) = false := by
  decide

/-- A message of 1473 bytes is no message. -/
theorem test_wf_refuses_long_message : Instr.wf (.write { bytes := List.replicate 1473 0 }) = false := by
  simp only [Instr.wf, Msg.wf, List.length_replicate]
  decide

/-- Commands at the ends of their ranges are well formed. -/
theorem test_wf_takes :
    Instr.wf (.powerGood 24000 24000 2) = true ∧ Instr.wf (.canRxFrame 3 { id := 536870911, ide := true, dlc := 8 }) = true
      ∧ Instr.wf (.canRxFrame 3 { fdf := true, brs := true, dlc := 15, data := List.replicate 64 0 }) = true
      ∧ Instr.wf (.conversionResult 7 15 (-8388608) {}) = true ∧ Instr.wf (.rowPeriod 479) = true := by
  decide

/-! ### The worked examples of spec/ -/

/-- The image that 02's example after R45 chooses: slot 0, since slot 2 does not match the commissioned value. -/
def ballastSlots : Tab SlotSt :=
  [(0, { stat := .verified, seq := 41, safety := 0x3C9E1A07, crc := 1 }),
   (2, { stat := .verified, seq := 43, safety := 0x5B10C4E2, crc := 2 })]

/-- 02, example of an interrupted write: slot 0 is chosen and no safety value is uncommissioned. -/
theorem test_example_choice :
    (match chooseImage ballastSlots (some 0x3C9E1A07) with | .chosen n u _ => (n, u) | _ => (3, true)) = (0, false) := by
  decide

/-- 03, example of the jacket-water valve: gain 525 ppm, offset −520, TRIM_NEW 0xFDF8_020D. -/
theorem test_example_trim :
    trimSolve 1 { m1 := F32.ofRat 40031 10000, m2 := F32.ofRat 199947 10000 } = (525, -520, true)
      ∧ trimInLimits 1 525 (-520) = true ∧ trimWord 525 (-520) = 0xFDF8020D := by
  decide +kernel

/-- 03, example of the budget: 559 mW and 473 mW an output, 600 mW a transmitter, 6872 mW and 6184 mW the bank. -/
theorem test_example_budget :
    rowCharge { mode := 0x11 } = 559 ∧ rowCharge { mode := 0x11, vlim := 22000 } = 473 ∧ rowCharge { mode := 2 } = 600
      ∧ 8 * 559 + 4 * 600 = 6872 ∧ 8 * 473 + 4 * 600 = 6184 := by
  decide

/-- 04, example of N_s: 4 at 25 S/s with the 50 Hz notch, 3 at 100 S/s without a notch. -/
theorem test_example_settling :
    settleCount { rate := 3, notch := 1 } {} = 4 ∧ settleCount { rate := 5, notch := 0 } {} = 3 := by
  decide

/-- 05, example of the drifting transmitter: the polynomial gives 0.5015 and the entry 5.015 bar, to binary32 accuracy. -/
theorem test_example_polynomial :
    let r : ChCfg := { linSet := 0xFFFF, gain := 0x41200000
                       linC := [0xBE800000, 0x3FC00000, 0, 0, 0, 0, 0xBC75C28F, 0x3C75C28F, 0, 0, 0, 0, 0xB903126F] }
    let y := evalY r (F32.ofRat 5025 10000) (tOf (F32.ofInt 55))
    F32.lt (F32.ofRat 50149 10000) y = true ∧ F32.lt y (F32.ofRat 50151 10000) = true := by
  decide +kernel

/-- 06, example of the solenoid: WD_EXPIRED of D 5.2 with SAFE = OFF carries 0x0000_021D. -/
theorem test_example_watchdog :
    wdData { base with points := [(42, { mode := 8 })] } (.doOut 5 2) = 0x021D := by
  decide

/-- 07, example of the engine trip: the three stamps, and the signed differences of their short times. -/
theorem test_example_stamps :
    (stampOf 0xFFFE7960 1680).setWidth 32 = 0xFFFE788E#32 ∧ (stampOf 0x111E1A3DA 1744).setWidth 32 = 0x11E1A300#32
      ∧ (stampOf 0x147868CCD 1640).setWidth 32 = 0x47868C00#32 ∧ sdiff32 0x11E1A300 0xFFFE788E = 300100210
      ∧ sdiff32 0x47868C00 0xFFFE788E = 1200100210 := by
  decide

/-- 15, example of the epoch: power cycle 791, no start counted, then one. -/
theorem test_example_epoch :
    State.epoch { base with mod := { base.mod with powerCycles := 791 } } = 0x03170000
      ∧ State.epoch { base with mod := { base.mod with powerCycles := 791 }, mmp := { starts := 1 } } = 0x03170001 := by
  decide

/-- 16, example of the governor frame: identifier 0x185 is matched by match 0x180 and mask 0x1F0. -/
theorem test_example_filter :
    elemMatches false { w0 := 0x180, w1 := 0x1F0, w2 := 1 } { id := 0x185 } = true
      ∧ elemMatches false { w0 := 0x180, w1 := 0x1F0, w2 := 1 } { id := 0x195 } = false
      ∧ elemMatches false { w0 := 0x180, w1 := 0x1F0, w2 := 1 } { id := 0x185, ide := true } = false := by
  decide

/-- 18, example of one subpixel: frames 1000 to 1003 drive it +3, −2, +2, −1, and its ledger is 3, 1, 3, 2. -/
theorem test_example_ledger :
    ledgerStep 0 (polarity false 0 1000 100 300) (driveWeight 43) = (3, false)
      ∧ ledgerStep 3 (polarity false 3 1001 100 300) (driveWeight 42) = (1, false)
      ∧ ledgerStep 1 (polarity false 1 1002 100 300) (driveWeight 42) = (3, false)
      ∧ ledgerStep 3 (polarity false 3 1003 100 300) (driveWeight 8) = (2, false) := by
  decide

/-! ### Check values published with the functions -/

/-- CRC-32C (02 R34) of the nine digits, as its catalogue has it. -/
theorem test_crc32c : crc32c ("123456789".toList.map (fun c => BitVec.ofNat 8 c.toNat)) = 0xE3069283 := by
  decide +kernel

/-- SHA-256 of "abc", as FIPS 180 has it: the first four bytes. -/
theorem test_sha256 : (sha256 [0x61, 0x62, 0x63]).take 4 = [0xBA, 0x78, 0x16, 0xBF] := by
  decide +kernel

/-- binary32: a third rounds up, a sum of a unit and half its last place stays, and no product of small numbers is flushed. -/
theorem test_binary32 :
    F32.div 0x3F800000 0x40400000 = 0x3EAAAAAB ∧ F32.add 0x3F800000 0x33800000 = 0x3F800000
      ∧ F32.mul 0x00800000 0x3F000000 = 0x00400000 := by
  decide +kernel

/-- A write log longer than 512 entries is ill-formed (10 R296). -/
theorem test_ill_formed_log : Instr.wf (.segmentCompare .loop 0 { log := List.replicate 513 {} }) = false := by
  decide +kernel

end Sys2Proof.Machine
end

section
/-! SUPPORT. The inbox of the recorder only grows (01 R15): function resets and received messages add events to it and take
none back. -/

namespace Sys2Proof.Laws

open Sys2Proof Sys2Proof.Machine

/-! ### How growth is shown -/

/-- An operation whose frame keeps the inbox. -/
theorem grows_of_silent {s t : State} (e : view N.inbox t = view N.inbox s) : Grows s t :=
  .of_eq (inbox_of_view e (by decide))

/-- Writes outside the inbox before an operation that grows it. -/
theorem Grows.from_eq {s u t : State} (h : Grows u t) (e : u.recd.inbox = s.recd.inbox) : Grows s t :=
  Grows.trans (.of_eq e) h

/-! ### Local control and masked functions (18 R546; 14 R450) -/

theorem endLocal_grows (n : Nat) (o : Origin) (p : LocalPt) (s : State) : Grows s (endLocal n o p s) := by
  unfold endLocal
  split
  · exact .refl s
  · refine Grows.trans (grows_of_silent ?_) (grows_raise ..)
    split
    · exact wdRestart_view (by decide) ..
    · split
      · exact localAxisEnd_view (by decide) ..
      · rfl

theorem endLocals_grows (n : Nat) (o : Origin) (p : LocalPt → Bool) (s : State) : Grows s (endLocals n o p s) :=
  forAll_grows (fun q t => endLocal_grows n o q t) s

theorem freeBlock_grows (b : Nat) (s : State) : Grows s (freeBlock b s) := by
  unfold freeBlock
  split
  · exact (grows_raiseN ..).from_eq rfl
  · exact .of_eq rfl

theorem freeBlocksOf_grows (f : Fn) (s : State) : Grows s (freeBlocksOf f s) := forAll_grows freeBlock_grows s

theorem grantLock_grows (n : Nat) (l : List Nat) (s : State) : Grows s (grantLock n l s) := by
  induction l generalizing s with
  | nil => exact .of_eq rfl
  | cons f r ih =>
    unfold grantLock
    dsimp only
    split
    · refine Grows.trans ?_ (ih _)
      exact (grows_raiseN ..).from_eq rfl
    · exact .of_eq rfl

theorem maskFn_grows (f : Fn) (s : State) : Grows s (maskFn f s) := by
  unfold maskFn
  dsimp only
  refine Grows.trans ?_ (grows_raiseIf ..)
  refine Grows.trans ?_ (freeBlocksOf_grows ..)
  refine Grows.trans ?_ (forAll_grows (fun n t => grantLock_grows n _ t) _)
  exact .of_eq rfl

theorem setHdr_grows (s : State) (f : Fn) (u : FnHdr → FnHdr) : Grows s (s.setHdr f u) :=
  .of_eq (congrArg RecSt.inbox (setHdr_recd s f u))

theorem enterFn_grows (f : Fn) (st : FnState) (s : State) : Grows s (enterFn f st s) := by
  have h := setHdr_grows s f (fun h => { h with state := st })
  unfold enterFn
  cases st with
  | off | reset => exact h.trans (maskFn_grows ..)
  | pitch | run | drain | disabled | fault | standby => exact h

/-! ### Loops, Bedrock and the axis lines -/

theorem testEnd_grows (n : Nat) (s : State) : Grows s (testEnd n s) := by
  unfold testEnd
  split
  · exact .refl s
  · exact (grows_raise ..).from_eq rfl

theorem resetLoops_grows (s : State) : Grows s (resetLoops s) := by
  unfold resetLoops
  exact (testEnd_grows 6 s).trans (.of_eq rfl)

theorem homeFail_grows (a n : Nat) (s : State) : Grows s (homeFail a n s) := (grows_raiseN ..).from_eq rfl

theorem torqueRestored_grows (a : Nat) (s : State) : Grows s (torqueRestored a s) := by
  unfold torqueRestored
  split
  · exact .refl s
  · exact (grows_raiseN ..).from_eq rfl

theorem torqueRemoved_grows (a : Nat) (b : Bool) (s : State) : Grows s (torqueRemoved a b s) := by
  unfold torqueRemoved
  split
  · exact .refl s
  · refine Grows.trans ?_ (grows_raiseN ..)
    split
    · exact (homeFail_grows ..).from_eq rfl
    · exact .of_eq rfl

theorem ss1Brake_grows (a d : Nat) (s : State) : Grows s (ss1Brake a d s) := by
  unfold ss1Brake
  dsimp only
  split
  · exact .refl s
  split
  · exact .of_eq rfl
  · refine Grows.trans ?_ (grows_of_silent ((setAxis_view (by decide) ..).trans (brakeTo_view (by decide) ..)))
    split
    · exact (homeFail_grows ..).from_eq rfl
    · exact .of_eq rfl

/-- The last step of AXIS_LINE where no safety function brakes the axis. -/
theorem clearSs1Line_grows (a : Nat) (s : State) :
    Grows s (if (s.axis a).ss1Line then s.setAxis a (fun x => { x with ss1Line := false }) else s) := by
  split
  · exact .of_eq rfl
  · exact .refl s

theorem axisLine_grows (a : Nat) (s : State) : Grows s (axisLine a s) := by
  unfold axisLine
  split
  · split
    · exact ss1Brake_grows ..
    · exact clearSs1Line_grows a s
  · split
    · exact (torqueRemoved_grows ..).from_eq rfl
    · extract_lets s1
      have h1 : Grows s s1 := by
        unfold s1
        split
        · exact (torqueRestored_grows ..).from_eq rfl
        · exact .refl s
      split
      · exact h1.trans (ss1Brake_grows ..)
      · exact h1.trans (clearSs1Line_grows a s1)

theorem brLines_grows (s : State) : Grows s (brLines s) := by
  unfold brLines
  refine Grows.trans (grows_of_silent ?_) (forRange_grows axisLine_grows _)
  exact view_forRange (fun n t => stoLine_view (by decide) n t) s

theorem sfTrip_grows (f c : Nat) (s : State) : Grows s (sfTrip f c s) := by
  unfold sfTrip
  split
  · exact (grows_raiseN ..).from_eq rfl
  · exact (grows_raiseN ..).from_eq rfl
  · exact .refl s

theorem tripEvery_grows (c : Nat) (s : State) : Grows s (tripEvery c s) := by
  unfold tripEvery
  refine Grows.trans ?_ (brLines_grows _)
  refine Grows.from_eq (forAll_grows (fun f t => sfTrip_grows f c t) _) ?_
  rfl

theorem startBedrock_grows (c : Nat) (s : State) : Grows s (startBedrock c s) := by
  unfold startBedrock
  dsimp only
  refine Grows.from_eq (brLines_grows _) ?_
  rw [setBr_recd]
  have h : view N.inbox (forAll (sfUsed s) (fun f t => t.setSf f (fun x =>
      { state := .tripped, cause := c, trips := x.trips, refusal := x.refusal })) s) = view N.inbox s :=
    view_forAll (fun f t => setSf_view (by decide) ..) s
  refine (forRange_keeps (fun t : State => t.recd.inbox) (fun n t => ?_) _).trans (inbox_of_view h (by decide))
  split <;> rfl

theorem resetBedrock_grows (s : State) : Grows s (resetBedrock s) := by
  unfold resetBedrock
  extract_lets s1 b
  have h1 : Grows s s1 := tripEvery_grows 8 s
  clear_value s1
  refine h1.trans (Grows.from_eq (startBedrock_grows 8 _) ?_)
  rfl

/-! ### CAN, panel and alarm engine -/

theorem abortFrames_grows (c : Nat) (s : State) : Grows s (abortFrames c s) := by
  unfold abortFrames
  refine forAll_grows (fun b t => ?_) s
  dsimp only
  refine Grows.trans (.of_eq ?_) (grows_raiseIf ..)
  split
  · split <;> rfl
  · rfl

theorem filterNote_grows (c : Nat) (s : State) : Grows s (filterNote c s) := by
  unfold filterNote
  dsimp only
  split
  · exact .refl s
  · exact (grows_raiseN ..).from_eq rfl

theorem resetCan_grows (c : Nat) (s : State) : Grows s (resetCan c s) := by
  unfold resetCan
  extract_lets s1 x
  have h1 : Grows s s1 := (abortFrames_grows c s).trans (freeBlocksOf_grows ..)
  refine h1.trans ((filterNote_grows c _).from_eq ?_)
  rw [setCan_recd]

theorem panelDischarge_grows (n : Nat) (s : State) : Grows s (panelDischarge n s) := by
  unfold panelDischarge
  split
  · exact .refl s
  · exact (grows_raiseN ..).from_eq rfl

theorem resetPanel_grows (s : State) : Grows s (resetPanel s) :=
  ((panelDischarge_grows 3 s).trans (endLocals_grows ..)).trans (.of_eq rfl)

theorem closeCall_grows (s : State) : Grows s (closeCall s) := by
  unfold closeCall
  refine Grows.trans ?_ (forAll_grows (fun u t => grows_of_silent (clearUnit_view (by decide) u t)) _)
  exact (grows_raise ..).from_eq rfl

theorem resetAlarm_grows (s : State) : Grows s (resetAlarm s) := by
  unfold resetAlarm
  refine Grows.trans ?_ (.of_eq rfl)
  split
  · exact .refl s
  · exact closeCall_grows s

/-! ### The recorder (15 R479) -/

@[simp] theorem raiseOwn_inbox (k : EvKind) (d : Nat) (o : Origin) (s : State) :
    (raiseOwn k d o s).2.recd.inbox = s.recd.inbox := rfl

@[simp] theorem writeRing_inbox (r : Rec) (s : State) : (writeRing r s).recd.inbox = s.recd.inbox := rfl

@[simp] theorem writeAudit_inbox (r : Rec) (s : State) : (writeAudit r s).recd.inbox = s.recd.inbox := by
  unfold writeAudit
  split <;> rfl

theorem commitRec_grows (r : Rec) (s : State) : Grows s (commitRec r s) := by
  unfold commitRec
  refine Grows.trans (.of_eq ?_) (grows_raiseIf ..)
  split <;> simp

theorem clearNow_grows (s : State) : Grows s (clearNow s) := by
  unfold clearNow
  split
  · exact .refl s
  · exact Grows.trans (.of_eq (by simp)) (grows_raiseIf ..)

theorem commitAll_grows (s : State) : Grows s (commitAll s) := by
  unfold commitAll
  refine Grows.trans ?_ (forAll_grows commitRec_grows _)
  refine Grows.trans ?_ (clearNow_grows _)
  refine Grows.from_eq (forAll_grows commitRec_grows _) ?_
  rfl

theorem resetRecorder_grows (s : State) : Grows s (resetRecorder s) := by
  unfold resetRecorder
  exact (commitAll_grows s).trans (.of_eq rfl)

/-! ### The ring ports and the peg (15 R479) -/

theorem updatePort_grows (s : State) : Grows s (updatePort s) := by
  unfold updatePort
  dsimp only
  split
  · exact .refl s
  · exact (grows_raiseIf ..).from_eq rfl

theorem linkLost_grows (p : Port) (s : State) : Grows s (linkLost p s) := by
  unfold linkLost
  refine Grows.trans ?_ (updatePort_grows _)
  exact (grows_raiseIf ..).from_eq rfl

theorem portDown_grows (p : Port) (s : State) : Grows s (portDown p s) := by
  unfold portDown
  dsimp only
  split
  · exact .refl s
  · refine Grows.trans ?_ (linkLost_grows ..)
    exact (grows_raiseN ..).from_eq rfl

theorem resetRing_grows (s : State) : Grows s (resetRing s) := by
  unfold resetRing
  exact ((portDown_grows .a s).trans (portDown_grows .b _)).trans (.of_eq rfl)

theorem commitRefused_grows (n : Nat) (s : State) : Grows s (commitRefused n s) := by
  unfold commitRefused
  refine Grows.trans ?_ (grows_of_silent (answerHeld_view (by decide) ..))
  exact (grows_raiseN ..).from_eq rfl

theorem pegStops_grows (s : State) : Grows s (pegStops s) := by
  unfold pegStops
  split
  · exact commitRefused_grows 2 s
  · exact grows_of_silent (abandonSlot_view (by decide) s)

/-! ### A function reset (01 R21, R22) -/

theorem resetEffects_grows (f : Fn) (s : State) : Grows s (resetEffects f s) := by
  unfold resetEffects
  cases f with
  | logic => exact grows_of_silent (resetLogic_view (by decide) s)
  | loop => exact resetLoops_grows s
  | bedrock => exact resetBedrock_grows s
  | alarm => exact resetAlarm_grows s
  | time => exact grows_of_silent (resetTime_view (by decide) s)
  | ring => exact resetRing_grows s
  | recorder => exact resetRecorder_grows s
  | peg => exact pegStops_grows s
  | panel => exact resetPanel_grows s
  | bank b => exact grows_of_silent (resetBank_view (by decide) ..)
  | group g => exact grows_of_silent (resetGroup_view (by decide) ..)
  | axis a => exact grows_of_silent (resetAxis_view (by decide) ..)
  | can c => exact resetCan_grows ..
  | guy | module | pool => exact .of_eq rfl

theorem resetFn_grows (f : Fn) (s : State) : Grows s (resetFn f s) := by
  unfold resetFn
  have h1 := (endLocals_grows 3 .module (localOf s f) s).trans (resetEffects_grows f _)
  exact (h1.trans (enterFn_grows ..)).trans (setHdr_grows ..)

/-! ### A received message (15 R465) -/

theorem queueFree_grows (p : Port) (s : State) : Grows s (queueFree p s) := by
  unfold queueFree
  split
  · exact .refl s
  · exact (grows_raiseN ..).from_eq rfl

theorem reply_grows (q : Req) (st : Status) (a b : Nat) (l : List Byte) (s : State) : Grows s (reply q st a b l s) :=
  grows_of_silent (reply_view (by decide) ..)

theorem answer_grows (q : Req) (st : Status) (s : State) : Grows s (answer q st s) := reply_grows ..

theorem replayed_grows (q : Req) (s : State) : Grows s (replayed q s) := (grows_raise ..).from_eq rfl

theorem checkSeq_grows (q : Req) (peer : Bool) (s : State) : Grows s (checkSeq q peer s).2 := by
  unfold checkSeq
  split
  · split
    · cases peer with
      | true => exact .refl s
      | false => exact reply_grows ..
    · split
      · exact replayed_grows q s
      · exact .of_eq rfl
  · split
    · dsimp only
      split
      · exact grows_of_silent (sendReply_view (by decide) ..)
      · exact .refl s
    · split
      · exact .of_eq rfl
      · exact replayed_grows q s

theorem queueDrop_grows (q : Req) (peer : Bool) (s : State) : Grows s (queueDrop q peer s) := by
  unfold queueDrop
  dsimp only
  split
  · exact .of_eq rfl
  · exact Grows.from_eq (grows_of_silent (sendReply_view (by decide) ..)) rfl

theorem receivePeer_grows (q : Req) (full : Bool) (s : State) : Grows s (receivePeer q full s).2 := by
  unfold receivePeer
  split
  · split
    · exact replayed_grows q s
    · split
      · exact queueDrop_grows q true s
      · dsimp only
        refine Grows.trans ?_ (checkSeq_grows ..)
        refine Grows.from_eq (queueFree_grows ..) ?_
        split <;> rfl
  · split
    · exact queueDrop_grows q true s
    · refine Grows.trans ?_ (checkSeq_grows ..)
      exact Grows.from_eq (queueFree_grows ..) rfl

/-- The outcome of a check of RECEIVE, one branch at a time. -/
theorem grows_ite_snd {c : Prop} [Decidable c] {s : State} {a b : Option Req × State} (ha : Grows s a.2)
    (hb : Grows s b.2) : Grows s (if c then a else b).2 := by
  split <;> assumption

theorem receive_grows (m : Msg) (a : List W32) (s : State) : Grows s (receive m a s).2 := by
  unfold receive
  extract_lets q
  refine grows_ite_snd (.refl s) (grows_ite_snd (.of_eq rfl) (grows_ite_snd (.refl s) (grows_ite_snd ?_
    (grows_ite_snd (.refl s) (grows_ite_snd (receivePeer_grows q m.full s) (grows_ite_snd (.refl s)
      (grows_ite_snd (answer_grows ..) (grows_ite_snd (queueDrop_grows q false s) ?_))))))))
  · exact (grows_raise ..).from_eq rfl
  · have h := (queueFree_grows q.port s).trans (checkSeq_grows q false _)
    split
    · rename_i e
      rwa [e] at h
    · rename_i e
      rw [e] at h
      split
      · exact h.trans (answer_grows ..)
      · exact h

theorem accepted_grows {m : Msg} {ty : Nat} {need : Role} {q : Req} {s u : State} (h : Accepted m ty need q s u) :
    Grows s u := by
  obtain ⟨hr, -⟩ := h
  have := receive_grows m [] s
  rwa [hr] at this

end Sys2Proof.Laws
end

section
/-! SUPPORT. What a function reset leaves of the replies sent, and what it does to the header. -/

namespace Sys2Proof.Laws

open Sys2Proof Sys2Proof.Machine

/-! ### Replies (15 R473) -/

@[simp] theorem send_replies (o : RingOut) (s : State) : (send o s).mmp.replies = s.mmp.replies := by
  cases o <;> rfl

theorem replies_of_view {s t : State} (e : view N.mmpRest t = view N.mmpRest s) : t.mmp.replies = s.mmp.replies := by
  rw [mmp_replies_read, e, ← mmp_replies_read]

theorem resetAlarm_replies (s : State) : (resetAlarm s).mmp.replies = s.mmp.replies := by
  have h : (closeCall s).mmp.replies = s.mmp.replies := by
    unfold closeCall
    refine (forAll_keeps (fun t : State => t.mmp.replies) (fun u t => send_replies _ t) _).trans ?_
    rw [raiseEng, raise_replies, setAlm_mmp]
  unfold resetAlarm
  rw [setAlm_mmp]
  split
  · rfl
  · exact h

theorem portDown_replies (p : Port) (s : State) : (portDown p s).mmp.replies = s.mmp.replies := by
  unfold portDown
  dsimp only
  split
  · rfl
  · rw [replies_of_view (linkLost_view (by decide) ..), raiseN_replies]
    rfl

theorem resetRing_replies (s : State) : (resetRing s).mmp.replies = s.mmp.replies := by
  unfold resetRing
  rw [setTu_mmp]
  exact (portDown_replies .b _).trans (portDown_replies .a s)

/-- The peg stands apart: its reset answers a COMMIT that waits (15 R479). -/
theorem resetEffects_replies (f : Fn) (h : f ≠ .peg) (s : State) :
    (resetEffects f s).mmp.replies = s.mmp.replies := by
  unfold resetEffects
  cases f with
  | logic => exact replies_of_view (resetLogic_view (by decide) s)
  | loop => exact replies_of_view (resetLoops_view (by decide) s)
  | bedrock => exact replies_of_view (resetBedrock_view (by decide) s)
  | alarm => exact resetAlarm_replies s
  | time => exact replies_of_view (resetTime_view (by decide) s)
  | ring => exact resetRing_replies s
  | recorder => exact replies_of_view (resetRecorder_view (by decide) s)
  | peg => exact absurd rfl h
  | panel => exact replies_of_view (resetPanel_view (by decide) s)
  | bank b => exact replies_of_view (resetBank_view (by decide) ..)
  | group g => exact replies_of_view (resetGroup_view (by decide) ..)
  | axis a => exact replies_of_view (resetAxis_view (by decide) ..)
  | can c => exact replies_of_view (resetCan_view (by decide) ..)
  | guy | module | pool => rfl

theorem resetFn_replies (f : Fn) (h : f ≠ .peg) (s : State) :
    (resetFn f s).mmp.replies = s.mmp.replies := by
  unfold resetFn
  rw [setHdr_mmp, replies_of_view (enterFn_view (by decide) ..), resetEffects_replies f h,
    replies_of_view (endLocals_view (by decide) ..)]

/-! ### The header of the function that is reset (01 R21) -/

theorem resetFn_hdr (f : Fn) (s : State) : ((resetFn f s).hdr f).state = .reset
    ∧ ((resetFn f s).hdr f).resets = satInc top32 (s.hdr f).resets := by
  unfold resetFn
  dsimp only
  have h1 : view N.hdrs (resetEffects f (endLocals 3 .module (localOf s f) s)) = view N.hdrs s :=
    (resetEffects_view (by decide) ..).trans (endLocals_view (by decide) ..)
  obtain ⟨-, hr, -⟩ := enterFn_hdr f .reset (resetEffects f (endLocals 3 .module (localOf s f) s))
  obtain ⟨-, hk, -⟩ := hdrRead s f h1
  rw [setHdr_self]
  exact ⟨rfl, by rw [resetHdr, hr, hk]⟩

end Sys2Proof.Laws
end

section
/-! SUPPORT. The objects of a function header as addresses, the bytes of a message, and what the messages READ, WRITE and
FUNC_RESET do with them. -/

namespace Sys2Proof.Laws

open Sys2Proof Sys2Proof.Machine

/-! ### Roles and module states (15 R467, R472) -/

theorem accepted_role {m : Msg} {ty : Nat} {need : Role} {q : Req} {s u : State} (h : Accepted m ty need q s u) :
    roleAtLeast q.role need = true := by
  obtain ⟨-, -, hr, -⟩ := h
  exact hr

theorem roleAtLeast_observe (r : Role) : roleAtLeast r .observe = true := by cases r <;> rfl

theorem accepted_observe {m : Msg} {ty : Nat} {need : Role} {q : Req} {s u : State} (h : Accepted m ty need q s u) :
    Accepted m ty .observe q s u := by
  obtain ⟨h1, h2, -, h4⟩ := h
  exact ⟨h1, h2, roleAtLeast_observe _, h4⟩

theorem stateTakes_read (s : State) : stateTakes s 1 = true := by
  unfold stateTakes
  cases s.mod.state <;> rfl

/-! ### The addresses of a function header (00 R4; 01 R19) -/

@[simp] theorem fnOfId_fnId (f : Fn) : fnOfId (fnId f) = some f := by
  cases f with
  | bank b => revert b; decide
  | group g => revert g; decide
  | axis a => revert a; decide
  | can c => revert c; decide
  | _ => rfl

theorem fnId_lt (f : Fn) : fnId f < 0x28 := by
  cases f <;> simp only [fnId] <;> omega

theorem splitAddr_header (f : Fn) {off : Nat} (h : off < 65536) :
    splitAddr (16777216 * fnId f + off) = (fnId f, 0, off) := by
  have := fnId_lt f
  simp only [splitAddr, Prod.mk.injEq]
  omega

theorem addrStatus_header (s : State) (f : Fn) {off : Nat} (h : off ∈ [0, 4, 8, 0xC, 0x10, 0x14, 0x18]) :
    addrStatus s (fnId f) 0 off = .ok := by
  simp only [addrStatus, fnOfId_fnId, objWord, if_true]
  simp only [List.mem_cons, List.not_mem_nil, or_false] at h
  rcases h with rfl | rfl | rfl | rfl | rfl | rfl | rfl <;> rfl

theorem writeWord_header (f : Fn) {off : Nat} (h : off ∈ [0, 4, 8, 0xC, 0x10, 0x14, 0x18]) (v : W32) (r : Role)
    (s : State) : writeWord (16777216 * fnId f + off) v r s =
      if (headerWrite f off v r s).1 = .access ∧ !roleAtLeast r (leastRole f 0 off) then denied .role s
      else headerWrite f off v r s := by
  have ho : off < 65536 := by
    simp only [List.mem_cons, List.not_mem_nil, or_false] at h
    omega
  unfold writeWord
  rw [splitAddr_header f ho]
  simp only [addrStatus_header s f h, fnOfId_fnId, if_true]

theorem writeWord_evstat (f : Fn) (v : W32) (r : Role) (s : State) :
    writeWord (16777216 * fnId f + 0xC) v r s =
      if roleAtLeast r .engineer then wrote (s.setHdr f (fun h => { h with evstat := h.evstat &&& ~~~v }))
      else denied .role s := by
  rw [writeWord_header f (by decide)]
  cases h : roleAtLeast r .engineer <;> simp [headerWrite, needs, wrote, denied, h]

theorem writeWord_evmask (f : Fn) (v : W32) (r : Role) (s : State) :
    writeWord (16777216 * fnId f + 0x10) v r s =
      if roleAtLeast r .engineer then wrote (s.setHdr f (fun h => { h with evmask := v })) else denied .role s := by
  rw [writeWord_header f (by decide)]
  cases h : roleAtLeast r .engineer <;> simp [headerWrite, needs, wrote, denied, h]

/-! ### The bytes of a WRITE (15 R474) -/

theorem length_leBytes (n v : Nat) : (leBytes n v).length = n := by
  induction n generalizing v with
  | zero => rfl
  | succ n ih => simp [leBytes, ih]

theorem ofLe_leBytes (n v : Nat) : ofLe (leBytes n v) = v % 256 ^ n := by
  induction n generalizing v with
  | zero => simp [leBytes, ofLe, Nat.mod_one]
  | succ n ih =>
    have h : v % 256 ^ (n + 1) = v % 256 + 256 * (v / 256 % 256 ^ n) := by rw [Nat.pow_succ', Nat.mod_mul]
    simp only [leBytes, ofLe, ih, BitVec.toNat_ofNat, h]

theorem leAt_append_left (bs cs : List Byte) : leAt (bs ++ cs) 0 bs.length = ofLe bs := by simp [leAt]

theorem leAt_append_right (bs cs : List Byte) : leAt (bs ++ cs) bs.length cs.length = ofLe cs := by simp [leAt]

/-! ### Effects of the messages (15 R474, R479) -/

theorem evmask_of_view {s t : State} (h : view N.hdrs t = view N.hdrs s) (f : Fn) :
    (t.hdr f).evmask = (s.hdr f).evmask := by
  have e := congrArg FnHdr.evmask (hdr_of_view h (by decide) f)
  exact e

/-- A payload of one address and one value is one pair. -/
theorem writePairs_one {a v : Nat} (ha : a < 4294967296) (hv : v < 4294967296) :
    writePairs 1 (leBytes 4 a ++ leBytes 4 v) = [(a, w32 v)] := by
  have h1 : leAt (leBytes 4 a ++ leBytes 4 v) 0 4 = a := by
    have := leAt_append_left (leBytes 4 a) (leBytes 4 v)
    rw [length_leBytes, ofLe_leBytes, Nat.mod_eq_of_lt (by omega)] at this
    exact this
  have h2 : leAt (leBytes 4 a ++ leBytes 4 v) 4 4 = v := by
    have := leAt_append_right (leBytes 4 a) (leBytes 4 v)
    rw [length_leBytes, length_leBytes, ofLe_leBytes, Nat.mod_eq_of_lt (by omega)] at this
    exact this
  simp only [writePairs, h1, h2]

theorem writeWords_evmask (src : Nat) (f : Fn) (v : W32) {r : Role} (hr : roleAtLeast r .engineer = true) (s : State) :
    writeWords src r [(16777216 * fnId f + 0x10, v)] 0 s = (.ok, 0, 0,
      raise Ev.MMP_WRITE src (w32 (fnId f + 65536 * 4)) (.role r) (s.setHdr f (fun h => { h with evmask := v }))) := by
  simp only [writeWords, writeWord_evmask, hr, if_true, wrote, audited, splitAddr_header f (show 0x10 < 65536 by decide)]
  simp

theorem mmpWrite_evmask {q : Req} {f : Fn} {v : W32} (hr : roleAtLeast q.role .engineer = true)
    (hp : q.payload = leBytes 4 (16777216 * fnId f + 0x10) ++ leBytes 4 v.toNat) (s : State) :
    mmpWrite q s = raise Ev.MMP_WRITE (portSrc q.port) (w32 (fnId f + 65536 * 4)) (.role q.role)
      ((reply q .ok 0 0 [] s).setHdr f (fun h => { h with evmask := v })) := by
  have hf := fnId_lt f
  have hl : q.payload.length = 8 := by rw [hp, List.length_append, length_leBytes, length_leBytes]
  have hw : writePairs 1 q.payload = [(16777216 * fnId f + 0x10, v)] := by
    rw [hp, writePairs_one (by omega) v.isLt]
    simp [w32]
  unfold mmpWrite
  simp [hl, hw, writeWords_evmask _ _ _ hr]

theorem registerWrite_header (f : Fn) {off : Nat} (h : off < 65536) (v : W32) (r : Role) (s : State) :
    execRegisterWrite (w32 (16777216 * fnId f + off)) v r s = .next (writeWord (16777216 * fnId f + off) v r s).2.2 := by
  have := fnId_lt f
  have e : (w32 (16777216 * fnId f + off)).toNat = 16777216 * fnId f + off := by
    simp only [w32, BitVec.toNat_ofNat]
    omega
  rw [execRegisterWrite, e]

/-- A commanded reset of a function that 01 R22 lets be reset. -/
theorem doReset_of_live {f : Fn} {s : State} (hm : f ≠ .module) (hp : f ≠ .pool) (hg : f ≠ .peg)
    (h : s.fnState f = .run ∨ s.fnState f = .drain ∨ s.fnState f = .disabled ∨ s.fnState f = .fault) :
    doReset f s = resetFn f s := by
  unfold doReset
  rcases h with h | h | h | h <;> simp [h, hm, hp, hg]

theorem fnCtrl_reset {f : Fn} {r : Role} (hm : f ≠ .module) (hr : roleAtLeast r .engineer = true) (s : State) :
    fnCtrl f 0xA5A50001#32 r s = (.ok, doReset f s) := by
  simp [fnCtrl, hm, hr]

theorem funcReset_eq {f : Fn} {q : Req} (hm : f ≠ .module) (hr : roleAtLeast q.role .engineer = true) (s : State) :
    funcReset (fnId f) q s =
      doReset f (answer q .ok (raise Ev.FUNC_RESET_REQ (portSrc q.port) (w32 (fnId f)) (.role q.role) s)) := by
  unfold funcReset
  simp only [fnOfId_fnId, fnCtrl_reset hm hr]

theorem mmpRead_ok {pairs : List (W32 × Nat)} {s t : State} {ws : List W32} (hf : readFormed pairs = true)
    (hw : readWords (readList pairs) [] s = (.ok, ws, t)) (q : Req) :
    mmpRead pairs q s = reply q .ok 0 0 (ws.flatMap (fun w => leBytes 4 w.toNat)) t := by
  simp [mmpRead, hf, hw]

theorem reply_cons (q : Req) (st : Status) (n pad : Nat) (body : List Byte) (s : State) :
    (reply q st n pad body s).mmp.replies =
      { sender := q.sender, role := q.role, type := q.type, seq := q.seq, epoch := s.epoch, status := st,
        result := n, pad := pad, body := body, unsigned := q.unsigned } :: s.mmp.replies := by
  simp [reply]

end Sys2Proof.Laws
end

section
/-! CERTIFICATE. Reads, writes and FUNC_RESET (00 R5; 01 R19, R20; 15 R465, R473, R474, R479). -/

namespace Sys2Proof.Proofs

open Sys2Proof Sys2Proof.Machine Sys2Proof.Laws

/-- An accepted READ whose words are all read replies with them (15 R474). -/
theorem read_answers {m : Msg} {pairs : List (W32 × Nat)} {q : Req} {ws : List W32} {s u v : State}
    (hr : receive m (pairs.map (·.1)) s = (some q, u)) (ht : q.type = 1) (hf : readFormed pairs = true)
    (hw : readWords (readList pairs) [] u = (.ok, ws, v)) :
    Completes (.read m pairs) s (fun t => ∃ a : Reply, t.mmp.replies = a :: v.mmp.replies ∧ a.status = .ok
      ∧ a.seq = q.seq ∧ a.sender = q.sender ∧ a.body = ws.flatMap (fun w => leBytes 4 w.toNat)) := by
  have e : exec (.read m pairs) s = .next (reply q .ok 0 0 (ws.flatMap (fun w => leBytes 4 w.toNat)) v) := by
    show execRead m pairs s = _
    rw [execRead, onMessage, onNoted, hr]
    simp [ht, roleAtLeast_observe, stateTakes_read, mmpRead_ok hf hw]
  exact ⟨_, e, _, reply_cons .., rfl, rfl, rfl, rfl⟩

/-- A WRITE of FN_EVMASK stores the mask alone, replies, and is audited (15 R474). -/
theorem write_evmask {m : Msg} {q : Req} {f : Fn} {v : W32} {s u : State} (h : Accepted m 2 .engineer q s u)
    (hp : q.payload = leBytes 4 (16777216 * fnId f + 0x10) ++ leBytes 4 v.toNat) :
    Completes (.write m) s (fun t => (t.hdr f).evmask = v ∧ (t.hdr f).state = (s.hdr f).state
      ∧ (∀ g ≠ f, (t.hdr g).evmask = (s.hdr g).evmask) ∧ t.img = s.img ∧ t.pi = s.pi
      ∧ Replied q .ok u t
      ∧ Raised Ev.MMP_WRITE (portSrc q.port) (w32 (fnId f + 65536 * 4)) s t) := by
  have hrole : roleAtLeast q.role .engineer = true := accepted_role h
  have e : exec (.write m) s = .next (mmpWrite q u) := by
    show execWrite m s = _
    rw [execWrite, onMessage, accepted_noted (accepted_observe h)]
  refine ⟨_, e, ?_⟩
  rw [mmpWrite_evmask hrole hp]
  have hraise := fun x : State => raise_view (m := N.hdrs) (by decide) Ev.MMP_WRITE (portSrc q.port)
    (w32 (fnId f + 65536 * 4)) (.role q.role) x
  have hru : view N.hdrs (reply q .ok 0 0 [] u) = view N.hdrs s :=
    (reply_view (by decide) ..).trans (accepted_view h (by decide))
  refine ⟨?_, ?_, fun g hg => ?_, ?_, ?_, ?_, ?_⟩
  · rw [evmask_of_view (hraise _), setHdr_self]
  · rw [(hdrRead _ f (hraise _)).1, setHdr_self, (hdrRead _ f hru).1]
  · rw [evmask_of_view (hraise _), setHdr_other _ _ (fun e => hg (fnId_inj e)), evmask_of_view hru]
  · rw [raise_img, setHdr_img, img_of_view (reply_view (m := N.img) (by decide) ..) (by decide),
      img_of_view (accepted_view h (v := N.img) (by decide)) (by decide)]
  · rw [raise_pi, setHdr_pi, pi_of_view (reply_view (m := N.pi) (by decide) ..) (by decide),
      pi_of_view (accepted_view h (v := N.pi) (by decide)) (by decide)]
  · obtain ⟨a, ha, h'⟩ := replied_reply q .ok 0 0 [] (u := u) rfl
    exact ⟨a, by rw [raise_replies, setHdr_mmp, ha], h'⟩
  · refine raised_of_grows ?_ ..
    exact ((accepted_grows h).trans (reply_grows ..)).trans (setHdr_grows ..)

/-- FUNC_RESET raises its event, replies, and then resets the function (15 R479): neither the reply nor the
event is taken back by the reset. -/
theorem funcReset_effect {m : Msg} {q : Req} {f : Fn} {s u : State} (h : Accepted m 3 .engineer q s u) (hm : f ≠ .module)
    (hp : f ≠ .pool) (hg : f ≠ .peg)
    (hs : s.fnState f = .run ∨ s.fnState f = .drain ∨ s.fnState f = .disabled ∨ s.fnState f = .fault) :
    Completes (.funcReset m (fnId f)) s (fun t => t.fnState f = .reset ∧ Replied q .ok u t
      ∧ (t.hdr f).resets = satInc top32 (s.hdr f).resets
      ∧ Raised Ev.FUNC_RESET_REQ (portSrc q.port) (w32 (fnId f)) s t) := by
  have hrole : roleAtLeast q.role .engineer = true := accepted_role h
  let w := raise Ev.FUNC_RESET_REQ (portSrc q.port) (w32 (fnId f)) (.role q.role) u
  have hv : view N.hdrs (answer q .ok w) = view N.hdrs s :=
    (answer_view (by decide) ..).trans ((raise_view (by decide) ..).trans (accepted_view h (by decide)))
  have e : exec (.funcReset m (fnId f)) s = .next (resetFn f (answer q .ok w)) := by
    show execFuncReset m (fnId f) s = _
    rw [execFuncReset, onMessage, accepted_noted h, funcReset_eq hm hrole,
      doReset_of_live hm hp hg (by rwa [fnStateRead s f hv])]
  obtain ⟨hstate, hresets⟩ := resetFn_hdr f (answer q .ok w)
  refine ⟨_, e, hstate, ?_, ?_, ?_⟩
  · obtain ⟨a, ha, h'⟩ := replied_answer q .ok (u := u) (t := w) (raise_replies ..)
    exact ⟨a, by rw [resetFn_replies f hg, ha], h'⟩
  · obtain ⟨-, hkept, -⟩ := hdrRead s f hv
    rw [hresets, hkept]
  · have hw : Raised Ev.FUNC_RESET_REQ (portSrc q.port) (w32 (fnId f)) s w := raised_of_grows (accepted_grows h) ..
    have ha : Grows w (answer q .ok w) := answer_grows ..
    exact raised_mid (.refl s) hw (ha.trans (resetFn_grows f _))

/-- Settles O42: READ, WRITE and FUNC_RESET by their effect lemmas, REGISTER_WRITE of FN_EVSTAT by its header write. -/
theorem objectAccess : Obligations.ObjectAccess := by
  unfold Obligations.ObjectAccess
  refine ⟨fun m pairs q ws s u v => read_answers, fun m q f v s u => write_evmask, fun s f v r hr => ?_,
    fun s f v r hr => ?_, fun m q f s u h hm hp hg _ hs => funcReset_effect h hm hp hg hs⟩
  · refine ⟨_, registerWrite_header f (by decide) v r s, ?_⟩
    rw [writeWord_evstat, if_pos hr, wrote]
  · refine ⟨_, registerWrite_header f (by decide) v r s, ?_⟩
    rw [writeWord_evstat, hr]
    rfl

end Sys2Proof.Proofs
end

section
/-! SUPPORT. The reset state read map by map (00 R7): what each object map gives for reset, and the invariants. -/

namespace Sys2Proof.Proofs

open Sys2Proof Sys2Proof.Machine

/-! ### What the maps give -/

/-- No header is listed at reset, so every function shows the defaults of the header map (01 R19, R615). -/
theorem reset_header (f : Fn) :
    objWord State.reset f 0 4 = some 0x302 ∧ objWord State.reset f 0 8 = some 0 ∧ objWord State.reset f 0 0xC = some 0
      ∧ objWord State.reset f 0 0x10 = some 0 ∧ objWord State.reset f 0 0x14 = some 0
      ∧ objWord State.reset f 0 0x18 = some 0 ∧ objWord State.reset f 1 4 = some 0 :=
  ⟨rfl, rfl, rfl, rfl, rfl, rfl, rfl⟩

/-- The module is in PITCH, and no one-time setting is selected (01 R28; 02 R64). -/
theorem reset_module :
    objWord State.reset .module 2 0 = some 3 ∧ objWord State.reset .module 3 0 = some 0
      ∧ objWord State.reset .module 3 4 = some 0 := ⟨rfl, rfl, rfl⟩

/-- No change is in progress: CHG_STATE is IDLE and names no slot (02 R60). -/
theorem reset_peg :
    fieldAt State.reset .peg 3 0 0 3 = some 0 ∧ fieldAt State.reset .peg 3 0 4 2 = some 3
      ∧ objWord State.reset .peg 3 4 = some 0 ∧ objWord State.reset .peg 3 0x14 = some 0 := ⟨rfl, rfl, rfl, rfl⟩

theorem reset_bank :
    fieldAt State.reset (.bank 0) 2 0 0 5 = some 0 ∧ fieldAt State.reset (.bank 0) 2 0 8 6 = some 0
      ∧ fieldAt State.reset (.bank 0) 2 0 16 6 = some 0xB ∧ fieldAt State.reset (.bank 0) 2 0 22 2 = some 0
      ∧ objWord State.reset (.bank 0) 2 4 = some 0 ∧ objWord State.reset (.bank 0) 5 0 = some 0
      ∧ objWord State.reset (.bank 0) 5 8 = some 0 ∧ objWord State.reset (.bank 0) 6 0x104 = some 0
      ∧ objWord State.reset (.bank 0) 0xB 0 = some 0 := ⟨rfl, rfl, rfl, rfl, rfl, rfl, rfl, rfl, rfl⟩

theorem reset_group : objWord State.reset (.group 0) 2 4 = some 0 := rfl

theorem reset_time :
    fieldAt State.reset .time 2 8 0 3 = some 0 ∧ fieldAt State.reset .time 2 8 4 2 = some 0
      ∧ objWord State.reset .time 2 0xC = some 0 ∧ objWord State.reset .time 2 0x14 = some 0
      ∧ objWord State.reset .time 4 0 = some 0 ∧ objWord State.reset .time 5 0xC = some 0 :=
  ⟨rfl, rfl, rfl, rfl, rfl, rfl⟩

theorem reset_alarm :
    objWord State.reset .alarm 2 0 = some 0 ∧ objWord State.reset .alarm 6 0 = some 0
      ∧ fieldAt State.reset .alarm 6 0x18 0 4 = some 0xF := ⟨rfl, rfl, rfl⟩

theorem reset_logic : objWord State.reset .logic 2 4 = some 0 ∧ objWord State.reset .logic 5 4 = some 0 := ⟨rfl, rfl⟩

/-- The guards of the loop test are the two infinities of binary32 (11 R354). -/
theorem reset_loop :
    objWord State.reset .loop 2 0xC = some 0 ∧ fieldAt State.reset .loop 6 0 12 4 = some 7
      ∧ objWord State.reset .loop 6 0x10 = some 0xFF800000 ∧ objWord State.reset .loop 6 0x14 = some 0x7F800000
      ∧ fieldAt State.reset .loop 6 0x1C 0 17 = some 0x10000 := ⟨rfl, rfl, rfl, rfl, rfl⟩

theorem reset_axis :
    fieldAt State.reset (.axis 0) 2 0 0 4 = some 0 ∧ objWord State.reset (.axis 0) 2 0x2C = some 0
      ∧ objWord State.reset (.axis 0) 3 4 = some 0 := ⟨rfl, rfl, rfl⟩

theorem reset_pool_can_panel :
    objWord State.reset .pool 2 0x34 = some 0 ∧ objWord State.reset (.can 0) 2 8 = some 0
      ∧ objWord State.reset .panel 2 8 = some 0 ∧ fieldAt State.reset .panel 2 0 10 1 = some 0 := ⟨rfl, rfl, rfl, rfl⟩

/-! ### The invariants -/

theorem reset_pegMem_wf : Memory.wf State.reset.peg.mem := pegOf_wf []

/-- No row is listed, and an unlisted ledger is 0. -/
theorem reset_ledgersInRange : LedgersInRange State.reset := fun r c => by
  have h : (State.reset.panel.rows.look r).cells.look c = 0 := rfl
  rw [h]
  decide

theorem reset_recordsInBounds : RecordsInBounds State.reset := by
  unfold RecordsInBounds
  decide

/-- Settles O50: each map's lemma gives its values, and the empty tables meet the invariants. -/
theorem resetState : Obligations.ResetState := by
  unfold Obligations.ResetState
  refine ⟨reset_header, ?_⟩
  simp only [reset_module, reset_peg, reset_bank, reset_group, reset_time, reset_alarm, reset_logic, reset_loop,
    reset_axis, reset_pool_can_panel, reset_ledgersInRange, reset_recordsInBounds, true_and, and_true]
  exact ⟨rfl, reset_pegMem_wf⟩

end Sys2Proof.Proofs
end

section
/-! SUPPORT. The parts of 95_what_each_step_holds.md as the fields of a view, and what each command leaves of them. -/

namespace Sys2Proof.Laws

open Sys2Proof Sys2Proof.Machine

/-- The part of the state that each field of a view belongs to. -/
def fieldPart : List Part :=
  [.pending, .mod, .headers, .evstat, .image, .image, .image, .pegBytes, .peg, .otp, .banks, .channels, .groups, .points,
   .outCurrent, .time, .alarm, .logic, .div, .divSel, .trx, .loops, .axes, .bedrock, .pool, .notifyQ, .mmp, .can, .pair,
   .panel, .inbox, .records, .ckpt, .pi, .taskInbox, .freeCount]

/-- The fields of a view that hold the parts of `l`. -/
def fieldsOf (l : List Part) : Nat := Nat.ofBits (fun i : Fin 36 => decide (fieldPart[i]'(by exact i.isLt) ∈ l))

/-- A part outside `l` has its fields outside the fields of `l`. -/
theorem fieldsOf_testBit {l : List Part} {p : Part} (h : p ∉ l) (i : Fin 36) (hi : fieldPart[i]'(by exact i.isLt) = p) :
    (fieldsOf l).testBit i = false := by
  rw [fieldsOf, Nat.testBit_ofBits_lt _ _ i.isLt]
  simpa only [hi, decide_eq_false_iff_not] using h

theorem hdrs_of_view {m : Nat} {s t : State} (e : view m t = view m s) (h : m.testBit 2 = false) (k : Nat) :
    { t.fns.look k with evstat := 0 } = { s.fns.look k with evstat := 0 } := by
  simpa [view, hide, parts, h] using congrFun (congrArg View.hdrs e) k

theorem evstats_of_view {m : Nat} {s t : State} (e : view m t = view m s) (h : m.testBit 3 = false) (k : Nat) :
    (t.fns.look k).evstat = (s.fns.look k).evstat := by
  simpa [view, hide, parts, h] using congrFun (congrArg View.evstat e) k

/-- Two states that agree outside the parts of `l` have every other part the same. -/
theorem same_of_view {l : List Part} {s t : State} (e : view (fieldsOf l) t = view (fieldsOf l) s) {p : Part} (h : p ∉ l) :
    p.same s t := by
  have outside := fieldsOf_testBit h
  cases p with
  | pending => exact pending_of_view e (outside 0 rfl)
  | mod => exact mod_of_view e (outside 1 rfl)
  | headers => exact hdrs_of_view e (outside 2 rfl)
  | evstat => exact evstats_of_view e (outside 3 rfl)
  | image => exact ⟨img_of_view e (outside 4 rfl), sections_of_view e (outside 5 rfl), imgId_of_view e (outside 6 rfl)⟩
  | pegBytes => exact pegMem_of_view e (outside 7 rfl)
  | peg => exact pegRest_of_view e (outside 8 rfl)
  | otp => exact otp_of_view e (outside 9 rfl)
  | banks => exact banks_of_view e (outside 10 rfl)
  | channels => exact chs_of_view e (outside 11 rfl)
  | groups => exact groups_of_view e (outside 12 rfl)
  | points => exact points_of_view e (outside 13 rfl)
  | outCurrent => exact outCurrent_of_view e (outside 14 rfl)
  | time => exact tu_of_view e (outside 15 rfl)
  | alarm => exact alarm_of_view e (outside 16 rfl)
  | logic => exact logic_of_view e (outside 17 rfl)
  | div => exact div_of_view e (outside 18 rfl)
  | divSel => exact divSel_of_view e (outside 19 rfl)
  | trx => exact trx_of_view e (outside 20 rfl)
  | loops => exact loops_of_view e (outside 21 rfl)
  | axes => exact axes_of_view e (outside 22 rfl)
  | bedrock => exact bedrock_of_view e (outside 23 rfl)
  | pool => exact pool_of_view e (outside 24 rfl)
  | notifyQ => exact notifyQ_of_view e (outside 25 rfl)
  | mmp => exact mmpRest_of_view e (outside 26 rfl)
  | can => exact can_of_view e (outside 27 rfl)
  | pair => exact pair_of_view e (outside 28 rfl)
  | panel => exact panel_of_view e (outside 29 rfl)
  | inbox => exact inbox_of_view e (outside 30 rfl)
  | records => exact recRest_of_view e (outside 31 rfl)
  | ckpt => exact ckpt_of_view e (outside 32 rfl)
  | pi => exact pi_of_view e (outside 33 rfl)
  | taskInbox => exact taskInbox_of_view e (outside 34 rfl)
  | freeCount => exact freeCount_of_view e (outside 35 rfl)

/-- A command changes nothing outside the parts that `touches` names for it. -/
theorem exec_view (c : Instr) (s : State) {t : State} (e : exec c s = .next t) :
    view (fieldsOf (touches c)) t = view (fieldsOf (touches c)) s := by
  cases c with dsimp only [touches]
  | powerGood => exact execPowerGood_view (by decide) (s := s) (e := e) ..
  | selfTestEnd => exact execSelfTestEnd_view (by decide) (s := s) (e := e) ..
  | imageSelectEnd => exact execImageSelectEnd_view (by decide) (s := s) (e := e) ..
  | secondReadEnd => exact execSecondReadEnd_view (by decide) (s := s) (e := e) ..
  | functionConfigured => exact execFunctionConfigured_view (by decide) (s := s) (e := e) ..
  | pitchEnd => exact execPitchEnd_view (by decide) (s := s) (e := e) ..
  | functionReset => exact execFunctionReset_view (by decide) (s := s) (e := e) ..
  | functionDisable => exact execFunctionDisable_view (by decide) (s := s) (e := e) ..
  | functionEnable => exact execFunctionEnable_view (by decide) (s := s) (e := e) ..
  | resetReleased => exact execResetReleased_view (by decide) (s := s) (e := e) ..
  | drainBreakPoint => exact execDrainBreakPoint_view (by decide) (s := s) (e := e) ..
  | drainTimeout => exact execDrainTimeout_view (by decide) (s := s) (e := e) ..
  | powerFailWarning => exact execPowerFailWarning_view (by decide) (s := s) (e := e) ..
  | eventWindowClose => exact execEventWindowClose_view (by decide) (s := s) (e := e) ..
  | inputBelow14v => exact execInputBelow14v_view (by decide) (s := s) (e := e) ..
  | storeExhausted => exact execStoreExhausted_view (by decide) (s := s) (e := e) ..
  | powerRestored => exact execPowerRestored_view (by decide) (s := s) (e := e) ..
  | supplyLost => exact execSupplyLost_view (by decide) (s := s) (e := e) ..
  | supplyOk => exact execSupplyOk_view (by decide) (s := s) (e := e) ..
  | holdupLow => exact execHoldupLow_view (by decide) (s := s) (e := e) ..
  | clockFault => exact execClockFault_view (by decide) (s := s) (e := e) ..
  | clockDrift => exact execClockDrift_view (by decide) (s := s) (e := e) ..
  | clockLost => exact execClockLost_view (by decide) (s := s) (e := e) ..
  | temperatureRead => exact execTemperatureRead_view (by decide) (s := s) (e := e) ..
  | checkpoint => exact execCheckpoint_view (by decide) (s := s) (e := e) ..
  | checkpointComplete => exact execCheckpointComplete_view (by decide) (s := s) (e := e) ..
  | headerMirror => exact execHeaderMirror_view (by decide) (s := s) (e := e) ..
  | bivouac => exact execBivouac_view (by decide) (s := s) (e := e) ..
  | bivouacRequest => exact execBivouacRequest_view (by decide) (s := s) (e := e) ..
  | bivouacEntered => exact execBivouacEntered_view (by decide) (s := s) (e := e) ..
  | canWake => exact execCanWake_view (by decide) (s := s) (e := e) ..
  | wakeInput => exact execWakeInput_view (by decide) (s := s) (e := e) ..
  | siltTimer => exact execSiltTimer_view (by decide) (s := s) (e := e) ..
  | mmpWake => exact execMmpWake_view (by decide) (s := s) (e := e) ..
  | moduleRestart => exact execModuleRestart_view (by decide) (s := s) (e := e) ..
  | pegRemoved => exact execPegRemoved_view (by decide) (s := s) (e := e) ..
  | pegInserted => exact execPegInserted_view (by decide) (s := s) (e := e) ..
  | pegWriteOpen => exact execPegWriteOpen_view (by decide) (s := s) (e := e) ..
  | pegWriteData => exact execPegWriteData_view (by decide) (s := s) (e := e) ..
  | pegWriteClose => exact execPegWriteClose_view (by decide) (s := s) (e := e) ..
  | pegWriteErase => exact execPegWriteErase_view (by decide) (s := s) (e := e) ..
  | commit => exact execCommit_view (by decide) (s := s) (e := e) ..
  | commitStaged => exact execCommitStaged_view (by decide) (s := s) (e := e) ..
  | commitSwitch => exact execCommitSwitch_view (by decide) (s := s) (e := e) ..
  | commitNoIdle => exact execCommitNoIdle_view (by decide) (s := s) (e := e) ..
  | commitDone => exact execCommitDone_view (by decide) (s := s) (e := e) ..
  | standbyRepitch => exact execStandbyRepitch_view (by decide) (s := s) (e := e) ..
  | otpProgram => exact execOtpProgram_view (by decide) (s := s) (e := e) ..
  | otpProgramLast => exact execOtpProgramLast_view (by decide) (s := s) (e := e) ..
  | otpWrite => exact execOtpWrite_view (by decide) (s := s) (e := e) ..
  | headroomMeasurement => exact execHeadroomMeasurement_view (by decide) (s := s) (e := e) ..
  | chComplianceLow => exact execChComplianceLow_view (by decide) (s := s) (e := e) ..
  | chComplianceShortfall => exact execChComplianceShortfall_view (by decide) (s := s) (e := e) ..
  | chComplianceOk => exact execChComplianceOk_view (by decide) (s := s) (e := e) ..
  | readbackVisit => exact execReadbackVisit_view (by decide) (s := s) (e := e) ..
  | chBackfeed => exact execChBackfeed_view (by decide) (s := s) (e := e) ..
  | chClear => exact execChClear_view (by decide) (s := s) (e := e) ..
  | strapSense => exact execStrapSense_view (by decide) (s := s) (e := e) ..
  | trimStartCurrent => exact execTrimStartCurrent_view (by decide) (s := s) (e := e) ..
  | trimStartVoltage => exact execTrimStartVoltage_view (by decide) (s := s) (e := e) ..
  | trimStartInput => exact execTrimStartInput_view (by decide) (s := s) (e := e) ..
  | trimAccept => exact execTrimAccept_view (by decide) (s := s) (e := e) ..
  | trimAverageDone => exact execTrimAverageDone_view (by decide) (s := s) (e := e) ..
  | trimWrite => exact execTrimWrite_view (by decide) (s := s) (e := e) ..
  | trimWritten => exact execTrimWritten_view (by decide) (s := s) (e := e) ..
  | trimAbort => exact execTrimAbort_view (by decide) (s := s) (e := e) ..
  | trimTimeout => exact execTrimTimeout_view (by decide) (s := s) (e := e) ..
  | slotSubmit => exact execSlotSubmit_view (by decide) (s := s) (e := e) ..
  | frameStart => exact execFrameStart_view (by decide) (s := s) (e := e) ..
  | excitationChange => exact execExcitationChange_view (by decide) (s := s) (e := e) ..
  | conversionResult => exact execConversionResult_view (by decide) (s := s) (e := e) ..
  | compFailed => exact execCompFailed_view (by decide) (s := s) (e := e) ..
  | rideTimeEnd => exact execRideTimeEnd_view (by decide) (s := s) (e := e) ..
  | cjSensorRead => exact execCjSensorRead_view (by decide) (s := s) (e := e) ..
  | trackMeasurement => exact execTrackMeasurement_view (by decide) (s := s) (e := e) ..
  | notchTrackLost => exact execNotchTrackLost_view (by decide) (s := s) (e := e) ..
  | notchFallback => exact execNotchFallback_view (by decide) (s := s) (e := e) ..
  | chClampActive => exact execChClampActive_view (by decide) (s := s) (e := e) ..
  | chClampReleased => exact execChClampReleased_view (by decide) (s := s) (e := e) ..
  | testPulse => exact execTestPulse_view (by decide) (s := s) (e := e) ..
  | counterPreset => exact execCounterPreset_view (by decide) (s := s) (e := e) ..
  | freqGateEnd => exact execFreqGateEnd_view (by decide) (s := s) (e := e) ..
  | dpOutTrip => exact execDpOutTrip_view (by decide) (s := s) (e := e) ..
  | outputRetry => exact execOutputRetry_view (by decide) (s := s) (e := e) ..
  | tripFreeTime => exact execTripFreeTime_view (by decide) (s := s) (e := e) ..
  | dpExternalFeed => exact execDpExternalFeed_view (by decide) (s := s) (e := e) ..
  | dgClear => exact execDgClear_view (by decide) (s := s) (e := e) ..
  | dgSupplyLow => exact execDgSupplyLow_view (by decide) (s := s) (e := e) ..
  | dgSupplyOk => exact execDgSupplyOk_view (by decide) (s := s) (e := e) ..
  | dgOverload => exact execDgOverload_view (by decide) (s := s) (e := e) ..
  | wdExpired => exact execWdExpired_view (by decide) (s := s) (e := e) ..
  | sync => exact execSync_view (by decide) (s := s) (e := e) ..
  | tuHoldover => exact execTuHoldover_view (by decide) (s := s) (e := e) ..
  | announce => exact execAnnounce_view (by decide) (s := s) (e := e) ..
  | followUp => exact execFollowUp_view (by decide) (s := s) (e := e) ..
  | twoStepExpiry => exact execTwoStepExpiry_view (by decide) (s := s) (e := e) ..
  | pdelayReq => exact execPdelayReq_view (by decide) (s := s) (e := e) ..
  | pdelayMeasurement => exact execPdelayMeasurement_view (by decide) (s := s) (e := e) ..
  | pdelayResp => exact execPdelayResp_view (by decide) (s := s) (e := e) ..
  | canrelCapture => exact execCanrelCapture_view (by decide) (s := s) (e := e) ..
  | matchArm => exact execMatchArm_view (by decide) (s := s) (e := e) ..
  | tuMatch => exact execTuMatch_view (by decide) (s := s) (e := e) ..
  | timeLoRead => exact execTimeLoRead_view (by decide) (s := s) (e := e) ..
  | firstOutCapture => exact execFirstOutCapture_view (by decide) (s := s) (e := e) ..
  | alarmTick => exact execAlarmTick_view (by decide) (s := s) (e := e) ..
  | onDelayEnd => exact execOnDelayEnd_view (by decide) (s := s) (e := e) ..
  | offDelayEnd => exact execOffDelayEnd_view (by decide) (s := s) (e := e) ..
  | shelveTimeEnd => exact execShelveTimeEnd_view (by decide) (s := s) (e := e) ..
  | alarmReleased => exact execAlarmReleased_view (by decide) (s := s) (e := e) ..
  | escalation => exact execEscalation_view (by decide) (s := s) (e := e) ..
  | stationLost => exact execStationLost_view (by decide) (s := s) (e := e) ..
  | dmPrewarn => exact execDmPrewarn_view (by decide) (s := s) (e := e) ..
  | dmAlarm => exact execDmAlarm_view (by decide) (s := s) (e := e) ..
  | ack => exact execAck_view (by decide) (s := s) (e := e) ..
  | shelve => exact execShelve_view (by decide) (s := s) (e := e) ..
  | unshelve => exact execUnshelve_view (by decide) (s := s) (e := e) ..
  | almOos => exact execAlmOos_view (by decide) (s := s) (e := e) ..
  | callUms => exact execCallUms_view (by decide) (s := s) (e := e) ..
  | callDuty => exact execCallDuty_view (by decide) (s := s) (e := e) ..
  | groupState => exact execGroupState_view (by decide) (s := s) (e := e) ..
  | groupStateSend => exact execGroupStateSend_view (by decide) (s := s) (e := e) ..
  | callNotifyRepeat => exact execCallNotifyRepeat_view (by decide) (s := s) (e := e) ..
  | callClearRepeat => exact execCallClearRepeat_view (by decide) (s := s) (e := e) ..
  | ackKey => exact execAckKey_view (by decide) (s := s) (e := e) ..
  | silenceKey => exact execSilenceKey_view (by decide) (s := s) (e := e) ..
  | logicBaseTick => exact execLogicBaseTick_view (by decide) (s := s) (e := e) ..
  | eventTaskItem => exact execEventTaskItem_view (by decide) (s := s) (e := e) ..
  | taskInstanceStart => exact execTaskInstanceStart_view (by decide) (s := s) (e := e) ..
  | backgroundCycleStart => exact execBackgroundCycleStart_view (by decide) (s := s) (e := e) ..
  | segmentCompare => exact execSegmentCompare_view (by decide) (s := s) (e := e) ..
  | taskRelease => exact execTaskRelease_view (by decide) (s := s) (e := e) ..
  | runTimeError => exact execRunTimeError_view (by decide) (s := s) (e := e) ..
  | backgroundWatchdog => exact execBackgroundWatchdog_view (by decide) (s := s) (e := e) ..
  | taskRestart => exact execTaskRestart_view (by decide) (s := s) (e := e) ..
  | force => exact execForce_view (by decide) (s := s) (e := e) ..
  | release => exact execRelease_view (by decide) (s := s) (e := e) ..
  | scrub => exact execScrub_view (by decide) (s := s) (e := e) ..
  | comparatorTestPart => exact execComparatorTestPart_view (by decide) (s := s) (e := e) ..
  | comparatorTestOverdue => exact execComparatorTestOverdue_view (by decide) (s := s) (e := e) ..
  | loopRelease => exact execLoopRelease_view (by decide) (s := s) (e := e) ..
  | loopSample => exact execLoopSample_view (by decide) (s := s) (e := e) ..
  | lpTarget => exact execLpTarget_view (by decide) (s := s) (e := e) ..
  | lpManv => exact execLpManv_view (by decide) (s := s) (e := e) ..
  | lpModeReq => exact execLpModeReq_view (by decide) (s := s) (e := e) ..
  | swap => exact execSwap_view (by decide) (s := s) (e := e) ..
  | restart => exact execRestart_view (by decide) (s := s) (e := e) ..
  | loopBankEdited => exact execLoopBankEdited_view (by decide) (s := s) (e := e) ..
  | testStart => exact execTestStart_view (by decide) (s := s) (e := e) ..
  | testStop => exact execTestStop_view (by decide) (s := s) (e := e) ..
  | axisTick => exact execAxisTick_view (by decide) (s := s) (e := e) ..
  | energise => exact execEnergise_view (by decide) (s := s) (e := e) ..
  | deenergise => exact execDeenergise_view (by decide) (s := s) (e := e) ..
  | stop => exact execStop_view (by decide) (s := s) (e := e) ..
  | quickStop => exact execQuickStop_view (by decide) (s := s) (e := e) ..
  | resume => exact execResume_view (by decide) (s := s) (e := e) ..
  | home => exact execHome_view (by decide) (s := s) (e := e) ..
  | clear => exact execClear_view (by decide) (s := s) (e := e) ..
  | syncPot => exact execSyncPot_view (by decide) (s := s) (e := e) ..
  | targetChange => exact execTargetChange_view (by decide) (s := s) (e := e) ..
  | microstep => exact execMicrostep_view (by decide) (s := s) (e := e) ..
  | dwellEnd => exact execDwellEnd_view (by decide) (s := s) (e := e) ..
  | holdDelayEnd => exact execHoldDelayEnd_view (by decide) (s := s) (e := e) ..
  | axDriverFault => exact execAxDriverFault_view (by decide) (s := s) (e := e) ..
  | axLimit => exact execAxLimit_view (by decide) (s := s) (e := e) ..
  | loadAngleEstimate => exact execLoadAngleEstimate_view (by decide) (s := s) (e := e) ..
  | potCheck => exact execPotCheck_view (by decide) (s := s) (e := e) ..
  | stepEdge => exact execStepEdge_view (by decide) (s := s) (e := e) ..
  | velocityUpdate => exact execVelocityUpdate_view (by decide) (s := s) (e := e) ..
  | carry => exact execCarry_view (by decide) (s := s) (e := e) ..
  | safetyCycle => exact execSafetyCycle_view (by decide) (s := s) (e := e) ..
  | brCycleOverrun => exact execBrCycleOverrun_view (by decide) (s := s) (e := e) ..
  | voteDiscrepancy => exact execVoteDiscrepancy_view (by decide) (s := s) (e := e) ..
  | stoTestPulse => exact execStoTestPulse_view (by decide) (s := s) (e := e) ..
  | stoChannelFault => exact execStoChannelFault_view (by decide) (s := s) (e := e) ..
  | commission => exact execCommission_view (by decide) (s := s) (e := e) ..
  | commissionHandOn => exact execCommissionHandOn_view (by decide) (s := s) (e := e) ..
  | partnerUncommissioned => exact execPartnerUncommissioned_view (by decide) (s := s) (e := e) ..
  | bsl => exact execBsl_view (by decide) (s := s) (e := e) ..
  | bslTimeout => exact execBslTimeout_view (by decide) (s := s) (e := e) ..
  | decisionPoint => exact execDecisionPoint_view (by decide) (s := s) (e := e) ..
  | tagTimeout => exact execTagTimeout_view (by decide) (s := s) (e := e) ..
  | fabricParity => exact execFabricParity_view (by decide) (s := s) (e := e) ..
  | poolAllocate => exact execPoolAllocate_view (by decide) (s := s) (e := e) ..
  | blockFree => exact execBlockFree_view (by decide) (s := s) (e := e) ..
  | poolParity => exact execPoolParity_view (by decide) (s := s) (e := e) ..
  | poolScrub => exact execPoolScrub_view (by decide) (s := s) (e := e) ..
  | lock => exact execLock_view (by decide) (s := s) (e := e) ..
  | unlock => exact execUnlock_view (by decide) (s := s) (e := e) ..
  | arbStarved => exact execArbStarved_view (by decide) (s := s) (e := e) ..
  | ringFrame => exact execRingFrame_view (by decide) (s := s) (e := e) ..
  | portLinkDown => exact execPortLinkDown_view (by decide) (s := s) (e := e) ..
  | portLinkUp => exact execPortLinkUp_view (by decide) (s := s) (e := e) ..
  | supervisionSend => exact execSupervisionSend_view (by decide) (s := s) (e := e) ..
  | ringSupervisionLost => exact execRingSupervisionLost_view (by decide) (s := s) (e := e) ..
  | arp => exact execArp_view (by decide) (s := s) (e := e) ..
  | icmpEcho => exact execIcmpEcho_view (by decide) (s := s) (e := e) ..
  | read => exact execRead_view (by decide) (s := s) (e := e) ..
  | write => exact execWrite_view (by decide) (s := s) (e := e) ..
  | registerWrite => exact execRegisterWrite_view (by decide) (s := s) (e := e) ..
  | funcReset => exact execFuncReset_view (by decide) (s := s) (e := e) ..
  | roleKey => exact execRoleKey_view (by decide) (s := s) (e := e) ..
  | publish => exact execPublish_view (by decide) (s := s) (e := e) ..
  | health => exact execHealth_view (by decide) (s := s) (e := e) ..
  | notify => exact execNotify_view (by decide) (s := s) (e := e) ..
  | canRxFrame => exact execCanRxFrame_view (by decide) (s := s) (e := e) ..
  | canTxRequest => exact execCanTxRequest_view (by decide) (s := s) (e := e) ..
  | canTxEnd => exact execCanTxEnd_view (by decide) (s := s) (e := e) ..
  | canError => exact execCanError_view (by decide) (s := s) (e := e) ..
  | busOffRecovery => exact execBusOffRecovery_view (by decide) (s := s) (e := e) ..
  | canRecovered => exact execCanRecovered_view (by decide) (s := s) (e := e) ..
  | canTest => exact execCanTest_view (by decide) (s := s) (e := e) ..
  | canFilterEdited => exact execCanFilterEdited_view (by decide) (s := s) (e := e) ..
  | heartbeatSend => exact execHeartbeatSend_view (by decide) (s := s) (e := e) ..
  | heartbeat => exact execHeartbeat_view (by decide) (s := s) (e := e) ..
  | pairGuyLost => exact execPairGuyLost_view (by decide) (s := s) (e := e) ..
  | claimDrop => exact execClaimDrop_view (by decide) (s := s) (e := e) ..
  | pairTakeover => exact execPairTakeover_view (by decide) (s := s) (e := e) ..
  | takeoverRestore => exact execTakeoverRestore_view (by decide) (s := s) (e := e) ..
  | holdoffEnd => exact execHoldoffEnd_view (by decide) (s := s) (e := e) ..
  | handoverRequest => exact execHandoverRequest_view (by decide) (s := s) (e := e) ..
  | handoverIdle => exact execHandoverIdle_view (by decide) (s := s) (e := e) ..
  | handoverCheckpoint => exact execHandoverCheckpoint_view (by decide) (s := s) (e := e) ..
  | standbyCkptCheck => exact execStandbyCkptCheck_view (by decide) (s := s) (e := e) ..
  | prefStrapSense => exact execPrefStrapSense_view (by decide) (s := s) (e := e) ..
  | panelFrame => exact execPanelFrame_view (by decide) (s := s) (e := e) ..
  | rowPeriod => exact execRowPeriod_view (by decide) (s := s) (e := e) ..
  | panelTempRead => exact execPanelTempRead_view (by decide) (s := s) (e := e) ..
  | regionUpdateRequest => exact execRegionUpdateRequest_view (by decide) (s := s) (e := e) ..
  | renderComplete => exact execRenderComplete_view (by decide) (s := s) (e := e) ..
  | dischargeEnd => exact execDischargeEnd_view (by decide) (s := s) (e := e) ..
  | functionKey => exact execFunctionKey_view (by decide) (s := s) (e := e) ..
  | f6Held => exact execF6Held_view (by decide) (s := s) (e := e) ..
  | pnlKeyswitch => exact execPnlKeyswitch_view (by decide) (s := s) (e := e) ..
  | pnlKeyswitchFault => exact execPnlKeyswitchFault_view (by decide) (s := s) (e := e) ..
  | take => exact execTake_view (by decide) (s := s) (e := e) ..
  | localRelease => exact execLocalRelease_view (by decide) (s := s) (e := e) ..
  | pnlLocalCmd => exact execPnlLocalCmd_view (by decide) (s := s) (e := e) ..
  | recordEvent => exact execRecordEvent_view (by decide) (s := s) (e := e) ..
  | stagingCommit => exact execStagingCommit_view (by decide) (s := s) (e := e) ..
  | recClear => exact execRecClear_view (by decide) (s := s) (e := e) ..
  | recwin => exact execRecwin_view (by decide) (s := s) (e := e) ..
  | reccursor => exact execReccursor_view (by decide) (s := s) (e := e) ..
  | filterClock => exact execFilterClock_view (by decide) (s := s) (e := e) ..
  | countEntryUpdate => exact execCountEntryUpdate_view (by decide) (s := s) (e := e) ..
  | outputReadback => exact execOutputReadback_view (by decide) (s := s) (e := e) ..
  | holdUpStoreGood => exact execHoldUpStoreGood_view (by decide) (s := s) (e := e) ..
  | clockMonitorWindow => exact execClockMonitorWindow_view (by decide) (s := s) (e := e) ..
  | busIntegration => exact execBusIntegration_view (by decide) (s := s) (e := e) ..
  | keyRepeat => exact execKeyRepeat_view (by decide) (s := s) (e := e) ..
  | guyLineBivouacRequest => exact execGuyLineBivouacRequest_view (by decide) (s := s) (e := e) ..
  | wakeLine => exact execWakeLine_view (by decide) (s := s) (e := e) ..

end Sys2Proof.Laws
end

section
/-! CERTIFICATE. The frame of every command (01 R14, R15; 95_what_each_step_holds.md). -/

namespace Sys2Proof.Proofs

open Sys2Proof Sys2Proof.Machine Sys2Proof.Laws

/-- Settles O56: a command's view outside the parts it touches stays, and every other part is read off it. -/
theorem frames : Obligations.Frames := by
  unfold Obligations.Frames
  exact fun c s _ _ e h => same_of_view (exec_view c s e) h

end Sys2Proof.Proofs
end

section
/-! SUPPORT. A write of FN_CTRL: its refusals in the order of 01 R20, and the word that it writes. -/

namespace Sys2Proof.Laws

open Sys2Proof Sys2Proof.Machine

theorem fnCtrl_status (f : Fn) (v : W32) (r : Role) (s : State) :
    (fnCtrl f v r s).1 = (if roleAtLeast r .engineer = false then .role
      else if v ≠ 0xA5A50001#32 ∧ v ≠ 0xA5A50002#32 ∧ v ≠ 0xA5A50003#32 then .access
      else if f = .module then .access
      else if v = 0xA5A50002#32 ∧ f = .bedrock then .access
      else if v = 0xA5A50003#32 ∧ s.fnState f = .drain then .access
      else .ok) := by
  simp only [fnCtrl, apply_ite Prod.fst, Bool.not_eq_true', Bool.or_eq_false_iff, beq_eq_false_iff_ne, ne_eq,
    Bool.and_eq_true, beq_iff_eq, and_assoc]

/-- Each refusal hands back the state as it was. -/
theorem fnCtrl_ok_or_same (f : Fn) (v : W32) (r : Role) (s : State) :
    (fnCtrl f v r s).1 = .ok ∨ (fnCtrl f v r s).2 = s := by
  unfold fnCtrl
  iterate 5
    split
    · exact .inr rfl
  exact .inl rfl

theorem fnCtrl_access_role {f : Fn} {v : W32} {r : Role} {s : State} (h : (fnCtrl f v r s).1 = .access) :
    roleAtLeast r .engineer = true := by
  rw [fnCtrl_status] at h
  by_contra hr
  rw [Bool.not_eq_true] at hr
  rw [if_pos hr] at h
  exact absurd h (by decide)

@[simp] theorem leastRole_header (f : Fn) : leastRole f 0 8 = .engineer := by cases f <;> rfl

/-- The role check of 15 R465 takes no part in a write of FN_CTRL, whose own role check comes first. -/
theorem writeWord_fnCtrl (f : Fn) (v : W32) (r : Role) (s : State) :
    writeWord (16777216 * fnId f + 8) v r s = ((fnCtrl f v r s).1, 0, (fnCtrl f v r s).2) := by
  have hw : headerWrite f 8 v r s = ((fnCtrl f v r s).1, 0, (fnCtrl f v r s).2) := rfl
  rw [writeWord_header f (by decide), leastRole_header, hw, if_neg]
  rintro ⟨ha, hr⟩
  rw [fnCtrl_access_role ha] at hr
  exact absurd hr (by decide)

end Sys2Proof.Laws
end

section
/-! CERTIFICATE. The refusals of FN_CTRL (01 R20). -/

namespace Sys2Proof.Proofs

open Sys2Proof Sys2Proof.Machine Sys2Proof.Laws

/-- Settles O58: the write of the word is the write of FN_CTRL, and a refused one hands back its state. -/
theorem controlWriteRefusals : Obligations.ControlWriteRefusals := by
  unfold Obligations.ControlWriteRefusals
  intro s f v r
  dsimp only
  rw [writeWord_fnCtrl]
  refine ⟨fnCtrl_status f v r s, fun h => ⟨_, registerWrite_header f (by decide) v r s, ?_⟩⟩
  rw [writeWord_fnCtrl]
  exact (fnCtrl_ok_or_same f v r s).resolve_left h

end Sys2Proof.Proofs
end

section
/-! SUPPORT. What reset, disable, enable, break point and drain time-out do to the state of every function (01 R21). -/

namespace Sys2Proof.Laws

open Sys2Proof Sys2Proof.Machine

/-- An operation that leaves the headers as the entry of `f` to `st` left them moves `f` alone. -/
theorem fnState_of_entered {f : Fn} {st : FnState} {s t : State} (h : view N.hdrs t = view N.hdrs (enterFn f st s)) :
    t.fnState f = st ∧ ∀ g ≠ f, t.fnState g = s.fnState g :=
  ⟨by rw [fnStateRead _ f h, enterFn_fnState], fun g hg => by rw [fnStateRead _ g h, enterFn_other st s hg]⟩

/-! ### Reset (01 R21, R22) -/

theorem doReset_eq_resetFn {f : Fn} {s : State} (hm : f ≠ .module) (hp : f ≠ .pool) (hg : f = .peg → pastHold s = false)
    (h : s.fnState f = .run ∨ s.fnState f = .standby ∨ s.fnState f = .drain ∨ s.fnState f = .disabled
      ∨ s.fnState f = .fault) : doReset f s = resetFn f s := by
  have hw : ¬(f = .peg ∧ pastHold s = true) := fun ⟨e, hh⟩ => by simp [hg e] at hh
  unfold doReset
  rcases h with h | h | h | h | h <;> simp [h, hm, hp, hw]

/-- A function reset clears FN_EVSTAT and keeps the last fault code. -/
theorem resetFn_kept (f : Fn) (s : State) :
    ((resetFn f s).hdr f).fault = (s.hdr f).fault ∧ ((resetFn f s).hdr f).evstat = 0 := by
  unfold resetFn
  dsimp only
  have h1 : view N.hdrs (resetEffects f (endLocals 3 .module (localOf s f) s)) = view N.hdrs s :=
    (resetEffects_view (by decide) ..).trans (endLocals_view (by decide) ..)
  obtain ⟨-, -, he, -⟩ := enterFn_hdr f .reset (resetEffects f (endLocals 3 .module (localOf s f) s))
  obtain ⟨-, -, hs, -⟩ := hdrRead s f h1
  rw [setHdr_self, resetHdr, he, hs]
  exact ⟨rfl, rfl⟩

theorem resetFn_img (f : Fn) (s : State) : (resetFn f s).img = s.img :=
  img_of_view (resetFn_view (m := N.img) (by decide) f s) (by decide)

/-! ### Disable, enable and release (01 R21) -/

theorem doDisable_entered {f : Fn} {s : State} (h : s.fnState f = .run ∨ s.fnState f = .standby) :
    view N.hdrs (doDisable f s) = view N.hdrs (enterFn f .drain s) := by
  unfold doDisable
  rcases h with h | h
  all_goals
    simp only [h]
    cases f with
    | logic => exact (setTask_view (by decide) ..).trans (setLogic_view (by decide) ..)
    | axis a => exact drainAxis_view (by decide) ..
    | peg => exact view_ite (setPeg_view (by decide) _ _ rfl) rfl
    | _ => rfl

theorem fnCtrl_disable {f : Fn} {r : Role} (hm : f ≠ .module) (hb : f ≠ .bedrock)
    (hr : roleAtLeast r .engineer = true) (s : State) : fnCtrl f 0xA5A50002#32 r s = (.ok, doDisable f s) := by
  simp [fnCtrl, hm, hb, hr]

theorem fnCtrl_enable {f : Fn} {r : Role} {s : State} (hm : f ≠ .module) (hr : roleAtLeast r .engineer = true)
    (hs : s.fnState f = .disabled) : fnCtrl f 0xA5A50003#32 r s = (.ok, doEnable f s) := by
  simp [fnCtrl, hm, hr, hs]

theorem doEnable_fnState {f : Fn} {s : State} (h : s.fnState f = .disabled) :
    (doEnable f s).fnState f = .pitch ∧ ∀ g ≠ f, (doEnable f s).fnState g = s.fnState g := by
  have e : doEnable f s = (enterFn f .pitch s).setHdr f (fun h => { h with configured := false, wasDisabled := false }) := by
    simp only [doEnable, h]
  rw [e]
  exact ⟨by rw [setHdr_fnState_self]; exact enterFn_fnState f .pitch s,
    fun g hg => by rw [setHdr_fnState_other _ _ hg, enterFn_other .pitch s hg]⟩

theorem resetReleased_eq {f : Fn} {s : State} (h : s.fnState f = .reset)
    (hm : s.mod.state = .pitch ∨ s.mod.state = .run ∨ s.mod.state = .standby ∨ s.mod.state = .hold) :
    resetReleased f s = enterFn f .pitch s := by
  rcases hm with hm | hm | hm | hm <;> simp [resetReleased, h, hm]

/-! ### Break point and time-out of a drain (20 R579, R591, R592) -/

/-- A domain stays on where it is PD4 or PD5, or where one of its functions is not DISABLED. -/
theorem domainCheck_eq_self {d : Nat} {s : State}
    (h : d = 4 ∨ d = 5 ∨ ∃ g ∈ allFns, domainOf g = d ∧ s.fnState g ≠ .disabled) : domainCheck d s = s := by
  unfold domainCheck
  refine if_pos ?_
  rcases h with rfl | rfl | ⟨g, hg, hd, hs⟩
  · rfl
  · rfl
  · have : (allFns.filter (fun f => domainOf f == d)).all (fun f => s.fnState f == .disabled) = false := by
      rw [List.all_eq_false]
      exact ⟨g, by simp [hg, hd], by simp [hs]⟩
    simp [this]

theorem breakPoint_fnState {f : Fn} {s : State} (hs : s.fnState f = .drain) (hp : f ≠ .pool)
    (hg : f = .peg → pastHold s = false)
    (hd : domainOf f = 4 ∨ domainOf f = 5 ∨ ∃ g ∈ allFns, g ≠ f ∧ domainOf g = domainOf f ∧ s.fnState g ≠ .disabled) :
    (breakPoint f s).fnState f = .disabled ∧ ∀ g ≠ f, (breakPoint f s).fnState g = s.fnState g := by
  have hw : ¬(f = .peg ∧ pastHold s = true) := fun ⟨e, hh⟩ => by simp [hg e] at hh
  have h1 : view N.hdrs (giveBackAll f (breakEffects f s)) = view N.hdrs s :=
    (giveBackAll_view (by decide) ..).trans (breakEffects_view (by decide) ..)
  have others : ∀ g ≠ f, (enterFn f .disabled (giveBackAll f (breakEffects f s))).fnState g = s.fnState g :=
    fun g hne => by rw [enterFn_other _ _ hne, fnStateRead s g h1]
  have e : breakPoint f s = enterFn f .disabled (giveBackAll f (breakEffects f s)) := by
    have stays : domainCheck (domainOf f) (enterFn f .disabled (giveBackAll f (breakEffects f s))) =
        enterFn f .disabled (giveBackAll f (breakEffects f s)) :=
      domainCheck_eq_self (hd.imp_right (Or.imp_right fun ⟨g, hm, hne, hdg, hsg⟩ =>
        ⟨g, hm, hdg, by rwa [others g hne]⟩))
    simp [breakPoint, hs, hw, hp, stays]
  rw [e]
  exact ⟨enterFn_fnState .., others⟩

/-- The fault of a function in DRAIN that is neither the module nor the pool is its own. -/
theorem faultFn_hdrs {f : Fn} {s : State} (n : Nat) (hs : s.fnState f = .drain) (hm : f ≠ .module) (hp : f ≠ .pool) :
    view N.hdrs (faultFn f n s) = view N.hdrs (s.setHdr f (fun h => { h with state := .fault, fault := n % 4096 })) := by
  have e : fnFault f n s = s.setHdr f (fun h => { h with state := .fault, fault := n % 4096 }) := by
    simp [fnFault, hs, hm, hp]
  unfold faultFn
  dsimp only
  rw [e]
  split
  · exact tripEvery_view (by decide) ..
  · rfl

theorem drainTimeout_eq {f : Fn} {s : State} (hs : s.fnState f = .drain) (ha : ∀ a, f ≠ .axis a) :
    drainTimeout f s = faultFn f Ev.DRAIN_TIMEOUT.code (raiseN Ev.DRAIN_TIMEOUT 0xF8 (fnId f) s) := by
  unfold drainTimeout
  rw [if_neg (by simp [hs])]
  split
  · exact absurd rfl (ha _)
  · rfl

theorem drainTimeout_fnState {f : Fn} {s : State} (hs : s.fnState f = .drain) (hp : f ≠ .pool) (ha : ∀ a, f ≠ .axis a)
    (hm : f ≠ .module) :
    (drainTimeout f s).fnState f = .fault ∧ ((drainTimeout f s).hdr f).fault = Ev.DRAIN_TIMEOUT.code % 4096
      ∧ ∀ g ≠ f, (drainTimeout f s).fnState g = s.fnState g := by
  have h1 : view N.hdrs (raiseN Ev.DRAIN_TIMEOUT 0xF8 (fnId f) s) = view N.hdrs s := raiseN_view (by decide) ..
  have h2 := faultFn_hdrs Ev.DRAIN_TIMEOUT.code ((fnStateRead s f h1).trans hs) hm hp
  rw [drainTimeout_eq hs ha]
  refine ⟨?_, ?_, fun g hg => ?_⟩
  · rw [fnStateRead _ f h2, setHdr_fnState_self]
  · obtain ⟨-, -, hf, -⟩ := hdrRead _ f h2
    rw [hf, setHdr_self]
  · rw [fnStateRead _ g h2, setHdr_fnState_other _ _ hg, fnStateRead s g h1]

end Sys2Proof.Laws
end

section
/-! CERTIFICATE. The control of a function (01 R19–R23; 20 R579, R591, R592). -/

namespace Sys2Proof.Proofs

open Sys2Proof Sys2Proof.Machine Sys2Proof.Laws

theorem functionReset_completes {s : State} {f : Fn} {r : Role} (hr : roleAtLeast r .engineer = true) (hm : f ≠ .module)
    (hp : f ≠ .pool) (hg : f = .peg → pastHold s = false)
    (hs : s.fnState f = .run ∨ s.fnState f = .standby ∨ s.fnState f = .drain ∨ s.fnState f = .disabled
      ∨ s.fnState f = .fault) :
    Completes (.functionReset f r) s (fun t =>
      t.fnState f = .reset ∧ (t.hdr f).resets = satInc top32 (s.hdr f).resets ∧ (t.hdr f).fault = (s.hdr f).fault
        ∧ (t.hdr f).evstat = 0 ∧ t.img = s.img) := by
  have e : exec (.functionReset f r) s = .next (resetFn f s) := by
    show execFunctionReset f r s = _
    rw [execFunctionReset, fnCtrl_reset hm hr, doReset_eq_resetFn hm hp hg hs]
  obtain ⟨hstate, hresets⟩ := resetFn_hdr f s
  obtain ⟨hfault, hevstat⟩ := resetFn_kept f s
  exact ⟨_, e, hstate, hresets, hfault, hevstat, resetFn_img f s⟩

/-- Settles O2: each command's move of the headers, with the state of every other function read off it. -/
theorem functionControl : Obligations.FunctionControl := by
  unfold Obligations.FunctionControl
  refine ⟨fun s f r hr hm hp hg hs => functionReset_completes hr hm hp hg hs, fun s f r hr hm hb hs => ?_,
    fun s f r hr hm hs => ?_, fun s f hs hm => ?_, fun s f hs hp hg hd => ?_, fun s f hs hp ha hm => ?_⟩
  · refine ⟨doDisable f s, ?_, fnState_of_entered (doDisable_entered hs)⟩
    show execFunctionDisable f r s = _
    rw [execFunctionDisable, fnCtrl_disable hm hb hr]
  · refine ⟨doEnable f s, ?_, doEnable_fnState hs⟩
    show execFunctionEnable f r s = _
    rw [execFunctionEnable, fnCtrl_enable hm hr hs]
  · refine ⟨_, rfl, ?_⟩
    rw [resetReleased_eq hs hm]
    exact fnState_of_entered rfl
  · exact ⟨_, rfl, breakPoint_fnState hs hp hg hd⟩
  · exact ⟨_, rfl, drainTimeout_fnState hs hp ha hm⟩

end Sys2Proof.Proofs
end

section
/-! SUPPORT. What a message of the row's own type keeps, and what the commands of the peg do to its bytes
(02 R48, R49; 15 R465). -/

namespace Sys2Proof.Laws

open Sys2Proof Sys2Proof.Machine

/-! ### Messages (15 R465) -/

/-- A property of the state that lies outside what a message's reception and its replies touch. -/
def OutsideMessages (I : State → Prop) : Prop :=
  ∀ t u, view (P.event ||| P.mmp) u = view (P.event ||| P.mmp) t → I t → I u

/-- Such a property holds after a message where the refusal's note and the row's own meaning keep it. -/
theorem onNoted_keeps {I : State → Prop} (outside : OutsideMessages I) (m : Msg) (a : List W32) (mine : Req → Bool)
    (need : Role) {note : Status → State → State} {k : Req → State → State} (hn : ∀ st t, I t → I (note st t))
    (hk : ∀ q t, I t → I (k q t)) {s : State} (hs : I s) : I (onNoted m a mine need note k s) := by
  have received : I (receive m a s).2 := outside s _ (receive_view (by decide) m a s) hs
  have answered : ∀ q st t, I t → I (answer q st t) := fun q st t => outside t _ (answer_view (by decide) q st t)
  unfold onNoted
  split
  next e => rwa [e] at received
  next q t e =>
    rw [e] at received
    split
    · exact hs
    split
    · exact answered _ _ _ (hn _ _ received)
    split
    · exact answered _ _ _ (hn _ _ received)
    · exact hk _ _ received

theorem onMessage_keeps {I : State → Prop} (outside : OutsideMessages I) (m : Msg) (a : List W32) (mine : Req → Bool)
    (need : Role) {k : Req → State → State} (hk : ∀ q t, I t → I (k q t)) {s : State} (hs : I s) :
    I (onMessage m a mine need k s) :=
  onNoted_keeps outside m a mine need (fun _ _ h => h) hk hs

theorem onSized_keeps {I : State → Prop} (outside : OutsideMessages I) (m : Msg) (ty : Nat) (need : Role) (len : Nat)
    {k : Req → State → State} (hk : ∀ q t, I t → I (k q t)) {s : State} (hs : I s) : I (onSized m ty need len k s) := by
  refine onMessage_keeps outside m [] _ need (fun q t h => ?_) hs
  split
  · exact outside t _ (answer_view (by decide) ..) h
  · exact hk q t h

/-! ### The bytes of the peg (02 R33, R49) -/

/-- The peg's bytes are in the canonical form. -/
def PegCanonical (s : State) : Prop := Memory.wf s.peg.mem

theorem pegCanonical_outsideMessages : OutsideMessages PegCanonical := fun t u e h => by
  unfold PegCanonical at *
  rwa [pegMem_of_view e (by decide)]

/-- An operation that leaves the bytes as they are leaves them canonical. -/
theorem PegCanonical.of_eq {s t : State} (h : PegCanonical s) (e : t.peg.mem = s.peg.mem) : PegCanonical t := by
  unfold PegCanonical at *
  rwa [e]

theorem pegResult_canonical (n : Nat) (o : Origin) {s : State} (h : PegCanonical s) : PegCanonical (pegResult n o s) :=
  h.of_eq (pegMem_of_view (pegResult_view (m := N.pegMem) (by decide) n o s) (by decide))

theorem dataWrite_wf {m : List (Nat × Byte)} (h : Memory.wf m) (slot off : Nat) (bytes : List Byte) :
    Memory.wf (dataWrite m slot off bytes) := by
  unfold dataWrite
  split
  · exact pegWrite_wf h ..
  · exact pegWrite_wf h ..

theorem pegApply_canonical (op : PegOp) (o : Origin) {s : State} (h : PegCanonical s) :
    PegCanonical (pegApply op o s) := by
  cases op with
  | openSlot n =>
    refine pegResult_canonical 0 o ?_
    exact pegWrite_wf h ..
  | data n off bytes =>
    refine pegResult_canonical 0 o ?_
    exact dataWrite_wf h ..
  | close n =>
    unfold pegApply
    dsimp only
    split
    · refine pegResult_canonical 0 o ?_
      rw [PegCanonical, raise_peg, refreshSlots_mem]
      exact pegWrite_wf h ..
    · exact pegResult_canonical 13 o (h.of_eq (refreshSlots_mem _))
  | erase n =>
    refine pegResult_canonical 0 o ?_
    rw [PegCanonical, raise_peg, refreshSlots_mem]
    exact pegWrite_wf h ..

theorem pegWriteOp_canonical (op : PegOp) (slot : Nat) (q : Req) {s : State} (h : PegCanonical s) :
    PegCanonical (pegWriteOp op slot q s) := by
  have answered : ∀ {t}, PegCanonical t → ∀ st, PegCanonical (answer q st t) := fun ht st =>
    ht.of_eq (by rw [answer_peg])
  have refusal : ∀ {t}, PegCanonical t → ∀ n, PegCanonical (refused q n t) := fun ht n =>
    ht.of_eq (congrArg PegSt.mem (reply_peg ..))
  unfold pegWriteOp
  extract_lets badOperands
  split
  · exact answered h .format
  split
  · have applied := pegApply_canonical op (.role q.role) h
    split
    · exact answered applied .ok
    · exact refusal applied _
  · exact answered (pegResult_canonical 1 _ h) .role
  · exact refusal (pegResult_canonical _ _ h) _

theorem pegInserted_canonical (mem : List (Nat × Byte)) {s : State} (h : PegCanonical s) :
    PegCanonical (pegInserted mem s) := by
  have fitted : PegCanonical (s.setPeg (fun p => { p with present := true, mem := pegOf mem })) := pegOf_wf mem
  unfold pegInserted
  dsimp only
  split
  · exact h
  split
  · exact fitted
  · exact fitted
  · exact fitted.of_eq (congrArg PegSt.mem (raiseN_peg ..))
  · exact fitted.of_eq (congrArg PegSt.mem (raiseN_peg ..))
  · exact fitted.of_eq ((refreshSlots_mem _).trans (congrArg PegSt.mem (raiseN_peg ..)))

/-- A PEG_WRITE message of one operation. -/
theorem pegWrite_canonical (m : Msg) (op : PegOp) (slot : Nat) {s : State} (h : PegCanonical s) :
    PegCanonical (onNoted m [] (fun q => q.type == 0x0A) .engineer (pegNote m) (pegWriteOp op slot) s) :=
  onNoted_keeps pegCanonical_outsideMessages m [] _ _ (fun _ _ ht => pegResult_canonical _ _ ht)
    (fun q _ ht => pegWriteOp_canonical op slot q ht) h

/-- Insertion and PEG_WRITE are the commands that touch the bytes of the peg; every other one leaves them. -/
theorem exec_canonical (c : Instr) {s t : State} (h : PegCanonical s) (e : exec c s = .next t) : PegCanonical t := by
  cases c with
  | pegInserted mem =>
    obtain rfl := Host.Outcome.next.inj e
    exact pegInserted_canonical mem h
  | pegWriteOpen m n =>
    obtain rfl := Host.Outcome.next.inj e
    exact pegWrite_canonical m (.openSlot n.val) n.val h
  | pegWriteData m n off bytes =>
    obtain rfl := Host.Outcome.next.inj e
    exact pegWrite_canonical m (.data n.val off bytes) n.val h
  | pegWriteClose m n =>
    obtain rfl := Host.Outcome.next.inj e
    exact pegWrite_canonical m (.close n.val) n.val h
  | pegWriteErase m n =>
    obtain rfl := Host.Outcome.next.inj e
    exact pegWrite_canonical m (.erase n.val) n.val h
  | _ =>
    exact h.of_eq (same_of_view (p := .pegBytes) (exec_view _ s e) (by dsimp only [touches]; decide))

end Sys2Proof.Laws
end

section
/-! CERTIFICATE. The canonical form of the peg's memory (02 R33, R49). -/

namespace Sys2Proof.Proofs

open Sys2Proof Sys2Proof.Machine Sys2Proof.Laws

/-- Settles O52: a CK5 cycle leaves the peg, and each command keeps the canonical form. -/
theorem pegMemoryCanonical : Obligations.PegMemoryCanonical := by
  unfold Obligations.PegMemoryCanonical
  intro s t h e
  unfold step at e
  split at e
  · obtain rfl := Host.Outcome.next.inj e
    refine PegCanonical.of_eq h ?_
    unfold clockCycle
    split <;> rfl
  next c r _ => exact exec_canonical c (s := { s with pending := r }) h e

end Sys2Proof.Proofs
end

section
/-! SUPPORT. The used one-time slots: every operation but the end of a programming leaves them as they are, and that
end adds one (02 R62, R66, R68). -/

namespace Sys2Proof.Laws

open Sys2Proof Sys2Proof.Machine

/-! ### How it is shown that the slots stay -/

/-- An operation that leaves the one-time settings. -/
theorem items_of_view {s t : State} (e : view N.otp t = view N.otp s) : t.otp.items = s.otp.items :=
  congrArg OtpSt.items (otp_of_view e (by decide))

theorem items_ite {c : Prop} [Decidable c] {a b : State} {l : Tab OtpItem} (ha : a.otp.items = l)
    (hb : b.otp.items = l) : (if c then a else b).otp.items = l := by
  split <;> assumption

theorem items_outsideMessages (l : Tab OtpItem) : OutsideMessages (fun t => t.otp.items = l) :=
  fun _ _ e h => (congrArg OtpSt.items (otp_of_view e (by decide))).trans h

/-! ### Starts of the module (20 R590, R593) -/

/-- A start keeps the one-time settings that are programmed. -/
@[simp] theorem freshStart_items (k : StartKind) (s : State) : (freshStart k s).otp.items = s.otp.items := rfl

@[simp] theorem restartNow_items (k : StartKind) (s : State) : (restartNow k s).otp.items = s.otp.items := by
  unfold restartNow
  extract_lets s1 s2 s3 s4
  have ended : view N.otp s2 = view N.otp s :=
    (view_ite (panelDischarge_view (by decide) 2 s1) rfl).trans (endLocals_view (by decide) ..)
  have released : view N.otp s3 = view N.otp s2 :=
    view_forAll (fun p t => forceEndNow_view (m := N.otp) (by decide) 1 _ t) s2
  have stopped : view N.otp s4 = view N.otp s3 :=
    (view_forAll (fun f t => view_ite rfl (enterFn_view (by decide) f .reset t)) _).trans
      (outputsOff_view (by decide) s3)
  rw [items_of_view (restartRecorder_view (by decide) _), freshStart_items]
  exact items_of_view (stopped.trans (released.trans ended))

@[simp] theorem powerGood_items (a b coding : Nat) (s : State) : (powerGood a b coding s).otp.items = s.otp.items := by
  unfold powerGood
  extract_lets s1 s2 s3
  have h3 : s3.otp.items = s.otp.items := by
    rw [items_of_view (restartRecorder_view (by decide) _), raiseN_otp]
    rfl
  refine items_ite rfl (items_ite h3 ?_)
  rw [items_of_view (enterHold_view (by decide) ..), raiseN_otp, h3]

@[simp] theorem wakeNow_items (w : WakeCause) (s : State) : (wakeNow w s).otp.items = s.otp.items := by
  unfold wakeNow
  extract_lets s1 s2
  rw [restartNow_items]
  exact items_of_view ((view_ite rfl (setPair_view (by decide) s1 _)).trans
    ((raiseN_view (by decide) ..).trans (setMod_view (by decide) s _)))

@[simp] theorem wakeBy_items (w : WakeCause) (s : State) : (wakeBy w s).otp.items = s.otp.items := by
  unfold wakeBy
  exact items_ite (wakeNow_items w s) (items_ite rfl rfl)

@[simp] theorem enterBivouac_items (timer : Nat) (s : State) : (enterBivouac timer s).otp.items = s.otp.items := by
  unfold enterBivouac
  extract_lets s1 s2 s3 s4 s5
  have asleep : view N.otp s1 = view N.otp s := (outputsOff_view (by decide) _).trans
    ((panelDischarge_view (by decide) ..).trans (view_forRange (fun c t => canSleep_view (by decide) c t) s))
  have recorded : view N.otp s2 = view N.otp s1 := (recordAll_view (by decide) _).trans (raiseN_view (by decide) ..)
  have off : view N.otp s4 = view N.otp s2 := (applyDomains_view (by decide) _).trans
    ((setPair_view (by decide) s3 _).trans (setMod_view (by decide) s2 _))
  have silent : view N.otp s5 = view N.otp s4 := view_forAll (fun p t => setPort_view (by decide) p _ t) s4
  have h5 : s5.otp.items = s.otp.items := items_of_view (silent.trans (off.trans (recorded.trans asleep)))
  split
  · rw [wakeNow_items, h5]
  · exact h5

@[simp] theorem bivouacMsg_items (q : Req) (s : State) : (bivouacMsg q s).otp.items = s.otp.items := by
  have answered : ∀ st t, (answer q st t).otp.items = t.otp.items := fun st t =>
    items_of_view (answer_view (by decide) q st t)
  unfold bivouacMsg
  extract_lets op t timer
  refine items_ite (answered ..) (items_ite ?_ (items_ite (answered ..) ?_))
  · rw [answered, wakeBy_items]
  · split
    · rw [answered]
      exact items_of_view (bivAccept_view (by decide) ..)
    · exact items_of_view (refused_view (by decide) ..)

@[simp] theorem canWake_items (c : Nat) (f : Option CanFrame) (s : State) :
    (canWake c f s).otp.items = s.otp.items := by
  unfold canWake
  refine items_ite rfl ?_
  rw [wakeBy_items, items_of_view (raiseCan_view (by decide) ..)]

@[simp] theorem wakeInput_items (n : Nat) (rising : Bool) (s : State) :
    (wakeInput n rising s).otp.items = s.otp.items := by
  unfold wakeInput
  split
  · rfl
  · exact items_ite (wakeBy_items ..) rfl

@[simp] theorem siltTimeout_items (s : State) : (siltTimeout s).otp.items = s.otp.items := by
  unfold siltTimeout
  exact items_ite (wakeBy_items ..) rfl

@[simp] theorem mmpWake_items (m : Msg) (s : State) : (mmpWake m s).otp.items = s.otp.items := by
  unfold mmpWake
  extract_lets r t pass
  have h : t.otp.items = s.otp.items := items_of_view (receive_view (m := N.otp) (by decide) m [] _)
  refine items_ite rfl (items_ite ?_ h)
  rw [wakeBy_items, h]

@[simp] theorem moduleRestart_items (q : Req) (s : State) : (moduleRestart q s).otp.items = s.otp.items := by
  unfold moduleRestart
  extract_lets first s1
  have h1 : view N.otp s1 = view N.otp s := (raise_view (by decide) ..).trans (answer_view (by decide) ..)
  refine items_ite (items_of_view (answer_view (by decide) ..)) (items_ite rfl (items_ite ?_ ?_))
  · exact items_of_view ((grantHandover_view (by decide) _).trans ((setMod_view (by decide) s1 _).trans h1))
  · rw [restartNow_items, items_of_view h1]

/-! ### The pair (17 R507, R513) -/

@[simp] theorem pairTakeover_items (s : State) : (pairTakeover s).otp.items = s.otp.items := by
  unfold pairTakeover
  extract_lets trigger s1
  have h1 : view N.otp s1 = view N.otp s := view_ite rfl (setPair_view (by decide) s _)
  refine items_ite rfl (items_ite ?_ (items_ite ?_ ?_))
  · rw [restartNow_items, items_of_view h1]
  · exact items_of_view h1
  · exact items_of_view ((beginTakeover_view (by decide) ..).trans h1)

@[simp] theorem heartbeatIn_items (h : Heartbeat) (claim : Bool) (s : State) :
    (heartbeatIn h claim s).otp.items = s.otp.items := by
  unfold heartbeatIn
  extract_lets was s1 s2 s3
  have h1 : view N.otp s1 = view N.otp s :=
    (setPair_view (by decide) (heartbeatNotes h s) _).trans (heartbeatNotes_view (by decide) h s)
  have h2 : view N.otp s2 = view N.otp s1 := raiseIf_view (by decide) ..
  have h3 : view N.otp s3 = view N.otp s := (view_ite rfl (decidePref_view (by decide) s2)).trans (h2.trans h1)
  refine items_ite rfl (items_ite ?_ ?_)
  · rw [restartNow_items, items_of_view h3]
  · exact items_of_view ((waitEnds_view (by decide) _).trans ((holdoffNote_view (by decide) _).trans h3))

/-! ### Writes of objects (00 R5; 01 R20; 02 R617; 03 R98) -/

@[simp] theorem doReset_items (f : Fn) (s : State) : (doReset f s).otp.items = s.otp.items := by
  unfold doReset
  split
  · rfl
  · rfl
  · rfl
  · exact items_ite rfl (items_ite (restartNow_items ..) (items_ite rfl (items_of_view (resetFn_view (by decide) ..))))

@[simp] theorem fnCtrl_items (f : Fn) (v : W32) (r : Role) (s : State) :
    (fnCtrl f v r s).2.otp.items = s.otp.items := by
  unfold fnCtrl
  iterate 5
    split
    · rfl
  refine items_ite (doReset_items f s) (items_ite ?_ ?_)
  · exact items_of_view (doDisable_view (by decide) f s)
  · exact items_of_view (doEnable_view (by decide) f s)

@[simp] theorem trimProgram_items (b : Nat) (o : Origin) (s : State) :
    (trimProgram b o s).otp.items = s.otp.items := rfl

@[simp] theorem trimWriteCmd_items (b : Nat) (r : Role) (s : State) : (trimWriteCmd b r s).otp.items = s.otp.items := by
  unfold trimWriteCmd
  extract_lets t used refuse
  exact items_ite rfl (items_ite rfl (items_ite rfl (items_ite rfl (items_ite rfl rfl))))

@[simp] theorem otpCommand_items (last : Bool) (r : Role) (s : State) :
    (otpCommand last r s).2.otp.items = s.otp.items := by
  unfold otpCommand
  split
  · extract_lets i k
    split <;> rfl
  · dsimp only
    rw [raise_otp]
    rfl

/-- What a write's answer keeps of the slots, where the writer lacks the role too. -/
theorem needs_items {least r : Role} {s : State} {k : WriteRes} (hk : k.2.2.otp.items = s.otp.items) :
    (needs least r s k).2.2.otp.items = s.otp.items := by
  unfold needs
  split
  · exact hk
  · rfl

theorem items_ite_res {c : Prop} [Decidable c] {a b : WriteRes} {l : Tab OtpItem} (ha : a.2.2.otp.items = l)
    (hb : b.2.2.otp.items = l) : (if c then a else b).2.2.otp.items = l := by
  split <;> assumption

@[simp] theorem headerWrite_items (f : Fn) (off : Nat) (v : W32) (r : Role) (s : State) :
    (headerWrite f off v r s).2.2.otp.items = s.otp.items := by
  unfold headerWrite
  exact items_ite_res (fnCtrl_items f v r s) (items_ite_res (needs_items rfl) (items_ite_res (needs_items rfl) rfl))

@[simp] theorem moduleWrite_items (blk off : Nat) (v : W32) (r : Role) (s : State) :
    (moduleWrite blk off v r s).2.2.otp.items = s.otp.items := by
  unfold moduleWrite
  refine items_ite_res (needs_items rfl) (items_ite_res (needs_items rfl) (items_ite_res (items_ite_res ?_ rfl)
    (items_ite_res (needs_items rfl) (items_ite_res (needs_items rfl) rfl))))
  exact otpCommand_items ..

@[simp] theorem bankWrite_items (b blk off : Nat) (v : W32) (r : Role) (s : State) :
    (bankWrite b blk off v r s).2.2.otp.items = s.otp.items := by
  have started : ∀ kind, (trimStart b kind r s).otp.items = s.otp.items := fun kind =>
    items_of_view (trimStart_view (by decide) b kind r s)
  unfold bankWrite
  extract_lets trim
  refine items_ite_res (items_ite_res rfl (needs_items ?_)) (items_ite_res (needs_items (items_ite_res rfl rfl))
    (items_ite_res ?_ (items_ite_res (needs_items rfl) (items_ite_res (needs_items rfl) (items_ite_res (needs_items rfl)
      (items_ite_res (items_ite_res ?_ rfl) (items_ite_res (needs_items rfl) rfl)))))))
  · exact items_of_view (chClear_view (by decide) ..)
  · refine items_ite_res (started 1) (items_ite_res (started 2) (items_ite_res (started 3) (items_ite_res ?_
      (items_ite_res ?_ (items_ite_res ?_ rfl)))))
    · exact items_of_view (trimAccept_view (by decide) b r s)
    · exact trimWriteCmd_items b r s
    · exact items_of_view (trimAbortCmd_view (by decide) b r s)
  · exact items_of_view (slotSubmit_view (by decide) b r s)

/-- Of the objects beyond the headers, those of the module and of the banks reach the one-time settings. -/
@[simp] theorem bodyWrite_items (f : Fn) (blk off : Nat) (v : W32) (r : Role) (s : State) :
    (bodyWrite f blk off v r s).2.2.otp.items = s.otp.items := by
  cases f with
  | module => exact moduleWrite_items blk off v r s
  | bank b => exact bankWrite_items b.val blk off v r s
  | loop => exact items_of_view (loopWrite_view (by decide) blk off v r s)
  | alarm => exact items_of_view (almWrite_view (by decide) blk off v r s)
  | time => exact items_of_view (timeWrite_view (by decide) blk off v r s)
  | can c => exact items_of_view (canWrite_view (by decide) c.val blk off v r s)
  | logic =>
    refine items_ite_res (items_ite_res rfl ?_) rfl
    exact items_of_view (taskRestart_view (by decide) v r s)
  | recorder =>
    refine items_of_view (view_ite_res (needs_view s _ (taken_view s fun t e => ?_)) (view_ite_res ?_ rfl))
    · exact recRepeatWrite_view (by decide) v s e
    · exact recClear_view (by decide) v r s
  | panel =>
    refine items_of_view (view_ite_res (needs_view s _ (taken_view s fun t e => ?_))
      (view_ite_res (needs_view s _ (taken_view s fun t e => ?_)) rfl))
    · exact brightWrite_view (by decide) v s e
    · exact pageWrite_view (by decide) v s e
  | group g =>
    refine items_ite_res (items_ite_res rfl (needs_items ?_)) rfl
    exact items_of_view (dgClear_view (by decide) ..)
  | axis a =>
    refine items_ite_res (items_ite_res rfl (items_ite_res ?_ ?_)) rfl
    · exact items_of_view (axMmpWrite_view (by decide) a.val v r s)
    · exact items_of_view (axMmpWrite_view (by decide) a.val v r s)
  | bedrock | ring | pool | peg | guy => rfl

@[simp] theorem writeWord_items (addr : Nat) (v : W32) (r : Role) (s : State) :
    (writeWord addr v r s).2.2.otp.items = s.otp.items := by
  unfold writeWord
  dsimp only
  split
  · refine items_ite_res rfl (items_ite_res (headerWrite_items ..) (items_ite_res ?_ (bodyWrite_items ..)))
    exact items_of_view (shadowWrite_view (by decide) ..)
  · rfl

@[simp] theorem writeWords_items (src : Nat) (r : Role) (l : List (Nat × W32)) (i : Nat) (s : State) :
    (writeWords src r l i s).2.2.2.otp.items = s.otp.items := by
  induction l generalizing i s with
  | nil => rfl
  | cons p l ih =>
    have written := writeWord_items p.1 p.2 r s
    unfold writeWords
    split
    next e =>
      rw [e] at written
      dsimp only
      rw [ih]
      exact items_ite (by rw [raise_otp, written]) written
    next e =>
      rw [e] at written
      exact written

@[simp] theorem mmpWrite_items (q : Req) (s : State) : (mmpWrite q s).otp.items = s.otp.items := by
  unfold mmpWrite
  extract_lets n l x
  refine items_ite (items_of_view (answer_view (by decide) ..)) ?_
  rw [writeWords_items, items_of_view (reply_view (by decide) ..)]

@[simp] theorem funcReset_items (fid : Nat) (q : Req) (s : State) : (funcReset fid q s).otp.items = s.otp.items := by
  unfold funcReset
  split
  · exact items_of_view (answer_view (by decide) ..)
  · split
    · rw [fnCtrl_items, items_of_view (answer_view (by decide) ..), raise_otp]
    · exact items_of_view (answer_view (by decide) ..)

/-! ### COMMISSION and ROLE_KEY (13 R421, R422; 15 R469) -/

@[simp] theorem commission_items (q : Req) (v : W32) (confirm : Bool) (s : State) :
    (commission q v confirm s).otp.items = s.otp.items := by
  unfold commission
  split
  · refine items_ite (items_of_view (answer_view (by decide) ..)) ?_
    rw [items_of_view (hold_view (by decide) _ 1 q), items_of_view (handOn_view (by decide) v _)]
    rfl
  · exact items_of_view ((refused_view (by decide) ..).trans (commissionRefused_view (by decide) ..))

@[simp] theorem commissionHandOn_items (v : W32) (s : State) : (commissionHandOn v s).otp.items = s.otp.items := by
  unfold commissionHandOn
  dsimp only
  refine items_ite rfl ?_
  split
  · exact items_ite rfl rfl
  · exact items_of_view ((setPair_view (by decide) _ _).trans (commissionRefused_view (by decide) ..))

@[simp] theorem roleKeyWrite_items (q : Req) (s : State) : (roleKeyWrite q s).otp.items = s.otp.items := by
  have answered : ∀ st, (answer q st s).otp.items = s.otp.items := fun st =>
    items_of_view (answer_view (by decide) q st s)
  have refusal : ∀ n, (refused q n s).otp.items = s.otp.items := fun n => items_of_view (refused_view (by decide) q n s)
  unfold roleKeyWrite
  extract_lets role confirm
  refine items_ite (answered _) (items_ite (answered _) (items_ite (refusal _) (items_ite (refusal _) ?_)))
  rw [items_of_view (hold_view (by decide) _ 2 q)]
  rfl

/-! ### The end of a programming (02 R63, R66) -/

/-- The slots of every item and index after an operation begin with the slots before it. -/
def SlotsGrow (s t : State) : Prop := ∀ k, ∃ l, t.otp.items.look k = s.otp.items.look k ++ l

theorem SlotsGrow.of_items {s t : State} (e : t.otp.items = s.otp.items) : SlotsGrow s t := fun k => ⟨[], by simp [e]⟩

theorem SlotsGrow.trans {s t u : State} (h : SlotsGrow s t) (h' : SlotsGrow t u) : SlotsGrow s u := fun k => by
  obtain ⟨a, ha⟩ := h k
  obtain ⟨b, hb⟩ := h' k
  exact ⟨a ++ b, by rw [hb, ha, List.append_assoc]⟩

/-- The one-time settings once a slot has been read back. -/
theorem otpFinish_otp (k : OtpBusy) (passed : Bool) (s : State) : (otpFinish k passed s).otp = { s.otp with
    items := s.otp.items.upd (otpKey k.item k.index) (fun l => l ++ [{ bytes := k.value, passed := passed }])
    result := if k.by' = 0 ∨ k.by' = 5 then (if passed then 0 else 5) else s.otp.result
    busy := none } := by
  unfold otpFinish
  dsimp only
  rw [raiseIf_otp, raiseIf_otp, raise_otp]

/-- The end of a programming adds the slot to its item. -/
theorem otpFinish_look_self (k : OtpBusy) (passed : Bool) (s : State) :
    (otpFinish k passed s).otp.items.look (otpKey k.item k.index) =
      s.otp.items.look (otpKey k.item k.index) ++ [{ bytes := k.value, passed := passed }] := by
  simp [otpFinish_otp]

theorem otpFinish_look_other (k : OtpBusy) (passed : Bool) (s : State) {j : Nat} (h : j ≠ otpKey k.item k.index) :
    (otpFinish k passed s).otp.items.look j = s.otp.items.look j := by
  simp [otpFinish_otp, h]

theorem otpFinish_grow (k : OtpBusy) (passed : Bool) (s : State) : SlotsGrow s (otpFinish k passed s) := fun j => by
  by_cases hj : j = otpKey k.item k.index
  · subst hj
    exact ⟨_, otpFinish_look_self k passed s⟩
  · exact ⟨[], by rw [otpFinish_look_other k passed s hj, List.append_nil]⟩

/-- What follows the read-back without touching the one-time settings. -/
theorem SlotsGrow.then_view {s t u : State} (h : SlotsGrow s t) (e : view N.otp u = view N.otp t) : SlotsGrow s u :=
  h.trans (.of_items (items_of_view e))

theorem trimFinish_grow (b : Nat) (passed : Bool) (s : State) : SlotsGrow s (trimFinish b passed s) := by
  unfold trimFinish
  split
  · exact .of_items rfl
  next k _ =>
    split
    · exact .of_items rfl
    · refine (otpFinish_grow k passed s).then_view ((trimEnd_view (by decide) ..).trans ?_)
      exact view_ite (raise_view (by decide) ..) rfl

theorem commissionFinish_grow (k : OtpBusy) (passed : Bool) (s : State) :
    SlotsGrow s (commissionFinish k passed s) := by
  unfold commissionFinish
  extract_lets s1 n s2
  have h2 : view N.otp s2 = view N.otp s1 := by
    refine view_ite ?_ (commissionRefused_view (by decide) ..)
    exact (raise_view (by decide) ..).trans ((setPeg_view (by decide) _ _ rfl).trans (setBr_view (by decide) s1 _))
  refine (otpFinish_grow k passed s).then_view (view_ite ?_ ?_)
  · exact (setPair_view (by decide) s2 _).trans h2
  · exact (answerHeld_view (by decide) ..).trans h2

theorem roleKeyFinish_grow (k : OtpBusy) (passed : Bool) (s : State) : SlotsGrow s (roleKeyFinish k passed s) := by
  unfold roleKeyFinish
  refine (otpFinish_grow k passed s).then_view ((answerHeld_view (by decide) ..).trans ?_)
  exact view_ite (raise_view (by decide) ..) rfl

theorem otpWritten_grow (passed : Bool) (s : State) : SlotsGrow s (otpWritten passed s) := by
  unfold otpWritten
  split
  · exact .of_items rfl
  next k _ =>
    split
    · exact otpFinish_grow k passed s
    split
    · exact roleKeyFinish_grow k passed s
    split
    · have finished := trimFinish_grow (k.index / 16) passed s
      dsimp only
      split
      · exact finished.trans (otpFinish_grow k passed _)
      · exact finished
    · exact commissionFinish_grow k passed s

/-! ### The commands -/

/-- A command that leaves the slots as they are, in the form in which the dispatch gives it. -/
theorem SlotsGrow.of_next {s t u : State} (e : (.next u : Host.Outcome State Fault Refusal) = .next t)
    (h : u.otp.items = s.otp.items) : SlotsGrow s t := by
  obtain rfl := Host.Outcome.next.inj e
  exact .of_items h

/-- A command reaches the slots by the end of a programming alone; starts, writes and messages keep them, and every
other command leaves the one-time settings as they are. -/
theorem exec_grow (c : Instr) {s t : State} (e : exec c s = .next t) : SlotsGrow s t := by
  have outside := items_outsideMessages s.otp.items
  cases c with
  | powerGood a b coding => exact .of_next e (powerGood_items a b coding s)
  | functionReset f r => exact .of_next e (fnCtrl_items f _ r s)
  | functionDisable f r => exact .of_next e (fnCtrl_items f _ r s)
  | functionEnable f r => exact .of_next e (fnCtrl_items f _ r s)
  | bivouac m => exact .of_next e (onSized_keeps outside m _ _ _ (fun q t h => (bivouacMsg_items q t).trans h) rfl)
  | bivouacEntered => exact .of_next e (items_ite (enterBivouac_items ..) rfl)
  | guyLineBivouacRequest timer => exact .of_next e (items_ite (enterBivouac_items ..) rfl)
  | canWake c f => exact .of_next e (canWake_items c.val f s)
  | wakeInput n rising => exact .of_next e (wakeInput_items n.val rising s)
  | siltTimer => exact .of_next e (siltTimeout_items s)
  | mmpWake m => exact .of_next e (mmpWake_items m s)
  | wakeLine => exact .of_next e (wakeBy_items _ s)
  | moduleRestart m =>
    exact .of_next e (onSized_keeps outside m _ _ _ (fun q t h => (moduleRestart_items q t).trans h) rfl)
  | pairTakeover => exact .of_next e (pairTakeover_items s)
  | heartbeat h claim => exact .of_next e (heartbeatIn_items h claim s)
  | write m => exact .of_next e (onMessage_keeps outside m _ _ _ (fun q t h => (mmpWrite_items q t).trans h) rfl)
  | registerWrite addr v r => exact .of_next e (writeWord_items addr.toNat v r s)
  | funcReset m fid =>
    exact .of_next e (onMessage_keeps outside m _ _ _ (fun q t h => (funcReset_items fid q t).trans h) rfl)
  | otpProgram r => exact .of_next e (otpCommand_items false r s)
  | otpProgramLast r => exact .of_next e (otpCommand_items true r s)
  | trimWrite b r => exact .of_next e (trimWriteCmd_items _ r s)
  | commission m v confirm =>
    refine .of_next e (onNoted_keeps outside m _ _ _ (fun st t h => ?_) (fun q t h => ?_) rfl)
    · exact (items_of_view (commissionRefused_view (by decide) ..)).trans h
    · exact (commission_items q v confirm t).trans h
  | commissionHandOn v => exact .of_next e (commissionHandOn_items v s)
  | roleKey m => exact .of_next e (onMessage_keeps outside m _ _ _ (fun q t h => (roleKeyWrite_items q t).trans h) rfl)
  | otpWrite passed =>
    obtain rfl := Host.Outcome.next.inj e
    exact otpWritten_grow passed s
  | trimWritten b passed =>
    obtain rfl := Host.Outcome.next.inj e
    exact trimFinish_grow _ passed s
  | _ =>
    have same : t.otp = s.otp := same_of_view (p := .otp) (exec_view _ s e) (by dsimp only [touches]; decide)
    exact .of_items (congrArg OtpSt.items same)

end Sys2Proof.Laws
end

section
/-! CERTIFICATE. The one-time slots over every step (02 R62, R66, R68). -/

namespace Sys2Proof.Proofs

open Sys2Proof Sys2Proof.Machine Sys2Proof.Laws

/-- Settles O53: a CK5 cycle leaves the slots, and each command leaves them or adds to them. -/
theorem oneTimeSlotsKept : Obligations.OneTimeSlotsKept := by
  unfold Obligations.OneTimeSlotsKept
  intro s t e
  unfold step at e
  split at e
  · refine SlotsGrow.of_next e ?_
    unfold clockCycle
    split <;> rfl
  next c r _ => exact exec_grow c (s := { s with pending := r }) e

end Sys2Proof.Proofs
end

section
/-! SUPPORT. What begins, ends and refuses the programming of a one-time slot (02 R63, R64, R617; 13 R421, R422;
15 R469). -/

namespace Sys2Proof.Laws

open Sys2Proof Sys2Proof.Machine

/-! ### The generic procedure (02 R617) -/

/-- The plain command refuses the trim and calibration items, which the last-slot command writes for an open trim. -/
theorem otpCheck_trim_item {s : State} (r : Role) (hi : s.otp.selItem = 6 ∨ s.otp.selItem = 7) :
    otpCheck s false r ≠ 0 := by
  have foreign : (s.otp.selItem == 1 || s.otp.selItem == 2 || s.otp.selItem == 5) = false := by
    rcases hi with hi | hi <;> simp [hi]
  simp only [otpCheck, foreign]
  split
  · decide
  split
  · decide
  · simp

/-- A command of the procedure whose checks pass starts programming what is selected. -/
theorem otpCommand_programs {s : State} {last : Bool} {r : Role} (h : otpCheck s last r = 0) (h6 : s.otp.selItem ≠ 6)
    (h7 : s.otp.selItem ≠ 7) : (otpCommand last r s).2.otp.busy = some
      { item := s.otp.selItem, index := s.otp.selIndex, value := [s.otp.data], origin := .role r, by' := 0 } := by
  simp [otpCommand, h, h6, h7]

theorem otpWritten_generic {s : State} {k : OtpBusy} (passed : Bool) (hk : s.otp.busy = some k) (hb : k.by' = 0) :
    otpWritten passed s = otpFinish k passed s := by
  simp [otpWritten, hk, hb]

/-! ### COMMISSION (13 R421, R422) -/

theorem commission_accepted {s : State} {v : W32} {confirm : Bool} (q : Req) (h : commissionCheck s v confirm = 0)
    (hb : s.otp.busy = none) :
    commission q v confirm s = (handOn v (commissionProgram v (.role q.role) 1 s)).hold 1 q := by
  simp [commission, h, hb]

theorem commissionHandOn_accepted {s : State} {v : W32} (hm : s.mod.state = .standby)
    (h : commissionCheck s v false = 0) (hb : s.otp.busy = none) :
    commissionHandOn v s = commissionProgram v .module 4 s := by
  simp [commissionHandOn, hm, h, hb]

@[simp] theorem handOn_otp (v : W32) (s : State) : (handOn v s).otp = s.otp :=
  otp_of_view (handOn_view (m := N.otp) (by decide) v s) (by decide)

@[simp] theorem hold_otp (s : State) (k : Nat) (q : Req) : (s.hold k q).otp = s.otp := rfl

/-- A reply that is held waits under its number. -/
@[simp] theorem hold_waits (s : State) (k : Nat) (q : Req) : (s.hold k q).mmp.waits.look k = some q :=
  Tab.look_put_self s.mmp.waits k (some q)

/-- The partner's refusal of a value handed on (13 R422). -/
theorem partnerResult_refused {s : State} {n : Nat} (hw : s.pair.handOnWaits = true) (h0 : 0 < n) (h256 : n < 256) :
    partnerResult n s = raiseN Ev.PARTNER_UNCOMMISSIONED 0xF7 n
      ((s.setBr (fun b => { b with partner := n })).setPair (fun p => { p with handOnWaits := false })) := by
  have hn : n ≠ 0 := by omega
  simp [partnerResult, hw, raiseIf, hn, Nat.mod_eq_of_lt h256]

/-! ### ROLE_KEY (15 R469) -/

/-- A ROLE_KEY of the right form, with no programming under way and an unused slot before the last. -/
theorem roleKeyWrite_accepted {q : Req} {s : State} (hl : q.payload.length = 36) (hr : leAt q.payload 0 1 ≤ 3)
    (hz : leAt q.payload 2 2 = 0) (hb : s.otp.busy = none) (hu : s.otpUsed 4 0 < 15) :
    roleKeyWrite q s = (s.setOtp (fun o =>
      { o with
        busy := some
          { item := 4, index := 0, value := keyWords (leAt q.payload 0 1) (keyOf s q (leAt q.payload 0 1)),
            origin := .role q.role, by' := 2, role := leAt q.payload 0 1 } })).hold 2 q := by
  have hr' : ¬ 3 < leAt q.payload 0 1 := by omega
  have hfull : ¬ 16 ≤ s.otpUsed 4 0 := by omega
  have hlast : ¬ s.otpUsed 4 0 = 15 := by omega
  simp [roleKeyWrite, hl, hr', hz, hb, hfull, hlast]

end Sys2Proof.Laws
end

section
/-! CERTIFICATE. One-time settings (02 R63, R64, R66, R617; 13 R421, R422; 15 R469). -/

namespace Sys2Proof.Proofs

open Sys2Proof Sys2Proof.Machine Sys2Proof.Laws

/-- The end of a programming of the generic procedure (02 R63, R66). -/
theorem otpWrite_completes {s : State} {k : OtpBusy} (passed : Bool) (hk : s.otp.busy = some k) (hb : k.by' = 0) :
    Completes (.otpWrite passed) s (fun t =>
      t.otp.busy = none ∧ t.otp.result = (if passed then 0 else 5)
        ∧ t.otp.items.look (otpKey k.item k.index)
            = s.otp.items.look (otpKey k.item k.index) ++ [{ bytes := k.value, passed := passed }]
        ∧ ∀ j, j ≠ otpKey k.item k.index → t.otp.items.look j = s.otp.items.look j) := by
  have e : exec (.otpWrite passed) s = .next (otpFinish k passed s) :=
    congrArg Host.Outcome.next (otpWritten_generic passed hk hb)
  exact ⟨_, e, by rw [otpFinish_otp], by simp [otpFinish_otp, hb], otpFinish_look_self k passed s,
    fun j hj => otpFinish_look_other k passed s hj⟩

/-- An accepted COMMISSION programs the value and holds its reply (13 R421). -/
theorem commission_completes {s u : State} {m : Msg} {q : Req} {v : W32} {confirm : Bool}
    (h : Accepted m 0x0C .commission q s u) (hc : commissionCheck u v confirm = 0) (hb : u.otp.busy = none) :
    Completes (.commission m v confirm) s (fun t =>
      t.otp.busy = some { item := 3, index := 0, value := [v], origin := .role q.role, by' := 1 }
        ∧ t.mmp.waits.look 1 = some q) := by
  have e : exec (.commission m v confirm) s = .next (commission q v confirm u) :=
    congrArg Host.Outcome.next (accepted_noted h _ _)
  rw [commission_accepted q hc hb] at e
  exact ⟨_, e, by rw [hold_otp, handOn_otp]; rfl, hold_waits ..⟩

/-- The partner's refusal is recorded, and the wait for it ends (13 R422). -/
theorem partnerUncommissioned_completes {s : State} {n : Nat} (hw : s.pair.handOnWaits = true) (h0 : 0 < n)
    (h256 : n < 256) : Completes (.partnerUncommissioned n) s (fun t =>
      t.bedrock.partner = n ∧ t.pair.handOnWaits = false ∧ Raised Ev.PARTNER_UNCOMMISSIONED 0xF7 (w32 n) s t) := by
  have e : exec (.partnerUncommissioned n) s = _ := congrArg Host.Outcome.next (partnerResult_refused hw h0 h256)
  exact ⟨_, e, by rw [raiseN_bedrock]; rfl, by rw [raiseN_pair]; rfl, raised_of_growsN (.of_eq rfl) ..⟩

/-- An accepted ROLE_KEY programs the role's key and holds its reply (15 R469). -/
theorem roleKey_completes {s u : State} {m : Msg} {q : Req} (h : Accepted m 0x0D .commission q s u)
    (hl : q.payload.length = 36) (hr : leAt q.payload 0 1 ≤ 3) (hz : leAt q.payload 2 2 = 0) (hb : u.otp.busy = none)
    (hu : u.otpUsed 4 0 < 15) : Completes (.roleKey m) s (fun t =>
      t.otp.busy = some
        { item := 4, index := 0, value := keyWords (leAt q.payload 0 1) (keyOf u q (leAt q.payload 0 1))
          origin := .role q.role, by' := 2, role := leAt q.payload 0 1 }
        ∧ t.mmp.waits.look 2 = some q) := by
  have e : exec (.roleKey m) s = .next (roleKeyWrite q u) := congrArg Host.Outcome.next (accepted_noted h _ _)
  rw [roleKeyWrite_accepted hl hr hz hb hu] at e
  exact ⟨_, e, rfl, hold_waits ..⟩

/-- Settles O7: each command's programming, its end, and the partner's refusal. -/
theorem oneTimeSettings : Obligations.OneTimeSettings := by
  unfold Obligations.OneTimeSettings
  refine ⟨fun s r hc => ?_, fun s r hc h6 h7 => ⟨_, rfl, otpCommand_programs hc h6 h7⟩,
    fun s k passed => otpWrite_completes passed, fun s u m q v confirm => commission_completes, fun s v hm hc hb => ?_,
    fun s n => partnerUncommissioned_completes, fun s u m q => roleKey_completes⟩
  · exact ⟨_, rfl, otpCommand_programs hc (fun hi => otpCheck_trim_item r (.inl hi) hc)
      (fun hi => otpCheck_trim_item r (.inr hi) hc)⟩
  · exact ⟨_, congrArg Host.Outcome.next (commissionHandOn_accepted hm hc hb), rfl⟩

end Sys2Proof.Proofs
end

section
/-! SUPPORT. The peg fitted and removed, and the accepted operations of PEG_WRITE (02 R48–R51). -/

namespace Sys2Proof.Laws

open Sys2Proof Sys2Proof.Machine

/-! ### Removal and insertion (02 R48) -/

/-- A removal that interrupts no read, no open slot and no commit. -/
theorem pegRemoved_idle {s : State} (hp : s.peg.present = true) (hm : s.mod.state = .run ∨ s.mod.state = .hold)
    (ho : s.peg.openSlot = none) (hc : s.peg.chg = .idle) :
    pegRemoved s = raiseN Ev.PEG_REMOVED 0xCD 0 (s.setPeg (fun p => { p with present := false })) := by
  have unread : pegPulledWhileReading s = false := by rcases hm with hm | hm <;> simp [pegPulledWhileReading, hm]
  have powered : (s.mod.state == .off || s.mod.state == .bivouac) = false := by rcases hm with hm | hm <;> simp [hm]
  have closed : abandonSlot (raiseN Ev.PEG_REMOVED 0xCD 0 (s.setPeg (fun p => { p with present := false }))) =
      raiseN Ev.PEG_REMOVED 0xCD 0 (s.setPeg (fun p => { p with present := false })) := by simp [abandonSlot, ho]
  simp [pegRemoved, hp, unread, powered, closed, hc]

theorem pegInserted_running {s : State} (mem : List (Nat × Byte)) (hp : s.peg.present = false)
    (hm : s.mod.state = .run ∨ s.mod.state = .hold) : pegInserted mem s =
      refreshSlots (raiseN Ev.PEG_INSERTED 0xCD 0
        (s.setPeg (fun p => { p with present := true, mem := pegOf mem }))) := by
  rcases hm with hm | hm <;> simp [pegInserted, hp, hm]

/-! ### The operations of PEG_WRITE (02 R49, R50) -/

theorem pegApply_open (n : Nat) (o : Origin) (s : State) : (pegApply (.openSlot n) o s).peg = { s.peg with
    mem := pegWrite s.peg.mem (slotBase n) (List.replicate 4 0#8), openSlot := some n, chg := .writing, chgSlot := n
    slots := s.peg.slots.put n { stat := .writeOpen }, chgResult := 0 } := rfl

theorem pegApply_data (n off : Nat) (bytes : List Byte) (o : Origin) (s : State) :
    (pegApply (.data n off bytes) o s).peg = { s.peg with mem := dataWrite s.peg.mem n off bytes, chgResult := 0 } :=
  rfl

/-- A CLOSE of a slot whose copy verifies. -/
theorem pegApply_close {n : Nat} {s : State} (o : Origin) (h : verifyCode s.peg.mem s.station n true = .verified) :
    (pegApply (.close n) o s).peg.openSlot = none ∧ (pegApply (.close n) o s).peg.chg = .idle
      ∧ (pegApply (.close n) o s).peg.chgSlot = 3 ∧ (pegApply (.close n) o s).peg.chgResult = 0
      ∧ (pegApply (.close n) o s).peg.mem = pegWrite s.peg.mem (slotBase n) (leBytes 4 imgMagic) := by
  simp [pegApply, h, pegResult]

theorem pegApply_erase (n : Nat) (o : Origin) (s : State) :
    (pegApply (.erase n) o s).peg.mem = pegWrite s.peg.mem (slotBase n) (List.replicate 4 0#8)
      ∧ (pegApply (.erase n) o s).peg.chgResult = 0
      ∧ (s.peg.openSlot = some n → (pegApply (.erase n) o s).peg.openSlot = none) := by
  simp only [pegApply, pegResult, if_true, setPeg_peg, raise_peg, refreshSlots_mem, refreshSlots_open, true_and]
  exact fun h => if_pos h

theorem pegApply_replies (op : PegOp) (o : Origin) (s : State) : (pegApply op o s).mmp.replies = s.mmp.replies :=
  replies_of_view (pegApply_view (by decide) op o s)

/-- The operands that a DATA operation may have: whole words, 4 to 1024 bytes, within the slot (02 R49). -/
def DataFits (op : PegOp) : Prop :=
  match op with
  | .data _ off bytes => off % 4 = 0 ∧ bytes.length % 4 = 0 ∧ 4 ≤ bytes.length ∧ bytes.length ≤ 1024
      ∧ off + bytes.length ≤ 0x400000
  | _ => True

/-- An operation that passes its check and verifies is answered OK. -/
theorem pegWriteOp_accepted {op : PegOp} {slot : Nat} {q : Req} {s : State} (hd : DataFits op)
    (hc : pegCheck s q.role op slot = 0) (hr : (pegApply op (.role q.role) s).peg.chgResult = 0) :
    pegWriteOp op slot q s = answer q .ok (pegApply op (.role q.role) s) := by
  unfold pegWriteOp
  extract_lets bad
  have fits : ¬ bad = true := by
    cases op with
    | data n off bytes =>
      obtain ⟨h1, h2, h3, h4, h5⟩ := hd
      simp only [bad, h1, h2, bne_self_eq_false, Bool.false_or, Bool.or_eq_true, decide_eq_true_eq]
      omega
    | openSlot n | close n | erase n => exact Bool.false_ne_true
  rw [if_neg fits, hc]
  exact if_pos hr

end Sys2Proof.Laws
end

section
/-! CERTIFICATE. The peg and its slots (02 R48–R51, R60). -/

namespace Sys2Proof.Proofs

open Sys2Proof Sys2Proof.Machine Sys2Proof.Laws

/-- What an accepted operation of PEG_WRITE leaves: the peg as the operation leaves it, and the reply OK. -/
theorem pegWriteOp_effect {op : PegOp} {slot : Nat} {m : Msg} {q : Req} {s u : State}
    (h : Accepted m 0x0A .engineer q s u) (hd : DataFits op) (hc : pegCheck u q.role op slot = 0)
    (hr : (pegApply op (.role q.role) u).peg.chgResult = 0) :
    ∃ t, onNoted m [] (fun q => q.type == 0x0A) .engineer (pegNote m) (pegWriteOp op slot) s = t
      ∧ t.peg = (pegApply op (.role q.role) u).peg ∧ Replied q .ok u t := by
  refine ⟨_, (accepted_noted h _ _).trans (pegWriteOp_accepted hd hc hr), answer_peg .., ?_⟩
  exact replied_answer q .ok (pegApply_replies ..)

theorem pegRemoved_completes {s : State} (hp : s.peg.present = true) (hm : s.mod.state = .run ∨ s.mod.state = .hold)
    (ho : s.peg.openSlot = none) (hc : s.peg.chg = .idle) : Completes .pegRemoved s (fun t =>
      t.peg = { s.peg with present := false } ∧ Raised Ev.PEG_REMOVED 0xCD 0 s t) := by
  have e : exec .pegRemoved s = _ := congrArg Host.Outcome.next (pegRemoved_idle hp hm ho hc)
  exact ⟨_, e, raiseN_peg .., raised_of_growsN (.of_eq rfl) ..⟩

theorem pegInserted_completes {s : State} (mem : List (Nat × Byte)) (hp : s.peg.present = false)
    (hm : s.mod.state = .run ∨ s.mod.state = .hold) : Completes (.pegInserted mem) s (fun t =>
      t.peg.present = true ∧ t.peg.mem = pegOf mem ∧ Raised Ev.PEG_INSERTED 0xCD 0 s t) := by
  have e : exec (.pegInserted mem) s = _ := congrArg Host.Outcome.next (pegInserted_running mem hp hm)
  refine ⟨_, e, ?_, ?_, raised_raiseN (u := s.setPeg _) rfl (by rw [refreshSlots_recd])⟩
  · rw [refreshSlots_present, raiseN_peg]
    rfl
  · rw [refreshSlots_mem, raiseN_peg]
    rfl

/-- Settles O12: the peg fitted and removed, and each operation by what it leaves of the peg. -/
theorem pegSlots : Obligations.PegSlots := by
  unfold Obligations.PegSlots
  refine ⟨fun s => pegRemoved_completes, fun s mem => pegInserted_completes mem, fun s u m q n h hc => ?_,
    fun s u m q n off bytes h h1 h2 h3 h4 h5 hc => ?_, fun s u m q n h hc hv => ?_, fun s u m q n h hc => ?_⟩
  · obtain ⟨t, e, hpeg, hreply⟩ := pegWriteOp_effect h (op := .openSlot n.val) trivial hc rfl
    rw [pegApply_open, accepted_peg h] at hpeg
    refine ⟨t, congrArg Host.Outcome.next e, ?_⟩
    beta_reduce
    rw [hpeg]
    exact ⟨rfl, rfl, rfl, rfl, rfl, Tab.look_put_self s.peg.slots n.val { stat := .writeOpen }, hreply⟩
  · obtain ⟨t, e, hpeg, hreply⟩ := pegWriteOp_effect h (op := .data n.val off bytes) ⟨h1, h2, h3, h4, h5⟩ hc rfl
    rw [pegApply_data, accepted_peg h] at hpeg
    refine ⟨t, congrArg Host.Outcome.next e, ?_⟩
    beta_reduce
    rw [hpeg]
    exact ⟨rfl, rfl, rfl, hreply⟩
  · obtain ⟨hopen, hchg, hslot, hresult, hmem⟩ := pegApply_close (.role q.role) hv
    obtain ⟨t, e, hpeg, hreply⟩ := pegWriteOp_effect h (op := .close n.val) trivial hc hresult
    rw [accepted_peg h] at hmem
    refine ⟨t, congrArg Host.Outcome.next e, ?_⟩
    beta_reduce
    rw [hpeg]
    exact ⟨hopen, hchg, hslot, hresult, hmem, hreply⟩
  · obtain ⟨hmem, hresult, hopen⟩ := pegApply_erase n.val (.role q.role) u
    obtain ⟨t, e, hpeg, hreply⟩ := pegWriteOp_effect h (op := .erase n.val) trivial hc hresult
    rw [accepted_peg h] at hmem hopen
    refine ⟨t, congrArg Host.Outcome.next e, ?_⟩
    beta_reduce
    rw [hpeg]
    exact ⟨hmem, hresult, hopen, hreply⟩

end Sys2Proof.Proofs
end

section
/-! SUPPORT. The instants of an online change (02 R53, R54, R56, R59). -/

namespace Sys2Proof.Laws

open Sys2Proof Sys2Proof.Machine

theorem waits_of_view {m : Nat} {s t : State} (e : view m t = view m s) (h : m.testBit 26 = false) :
    t.mmp.waits = s.mmp.waits := by
  have same := congrArg MmpSt.waits (mmpRest_of_view e h)
  exact same

theorem imageref_of_view {s t : State} (e : view N.hdrs t = view N.hdrs s) (f : Fn) :
    (t.hdr f).imageref = (s.hdr f).imageref := by
  have same := congrArg FnHdr.imageref (hdr_of_view e (by decide) f)
  exact same

/-! ### COMMIT is accepted or refused (02 R53) -/

theorem commit_accepted {s : State} {slot : Nat} (q : Req) (h : commitCheck s slot = 0) :
    commit slot q s = (s.setPeg (fun p =>
      { p with
        chg := .staging, chgSlot := slot, staged := imgSections p.mem slot
        stagedId := slotId p.mem slot })).hold 3 q := by
  simp [commit, h]

/-- A refused COMMIT: events of the budgets at most, then the note of the refusal and its reply. -/
theorem commit_refused {s : State} {slot : Nat} (q : Req) (h : commitCheck s slot ≠ 0) :
    ∃ w, view P.event w = view P.event s ∧ commit slot q s =
      refused q (commitCheck s slot) (commitNote (commitCheck s slot) (.role q.role) w) := by
  unfold commit
  split
  next e => exact absurd e h
  · exact ⟨_, view_ite ((loadEvents_view (by decide) ..).trans (budgetEvents_view (by decide) ..)) rfl, rfl⟩

@[simp] theorem commitNote_peg (n : Nat) (o : Origin) (s : State) :
    (commitNote n o s).peg = { s.peg with chgResult := n } := by
  rw [commitNote, raise_peg, setPeg_peg]

theorem commitNote_mem_inbox (n : Nat) (o : Origin) (s : State) :
    ∃ e ∈ (commitNote n o s).recd.inbox, e.code = Ev.COMMIT_REFUSED.code ∧ e.data = w32 n := by
  rw [commitNote, raise_inbox]
  exact ⟨_, List.mem_append_right _ (List.mem_singleton_self _), rfl, rfl⟩

/-! ### t3 and t4: the switch (02 R56) -/

/-- The module as t3 takes the staged image into use, before the engines take it over. -/
def imageSwitched (s : State) : State :=
  { s with
    img := loadImage s.peg.staged, sections := s.peg.staged, imgId := s.peg.stagedId
    peg := { s.peg with
      chg := .switching, sel := s.peg.chgSlot, chgInstant := shortTime s, staged := []
      chgPause := min top16 ((s.now - s.peg.holdAt) / 1000) } }

/-- What the engines, outputs and the panel change when they take the new image over. -/
abbrev switchParts : Nat := P.event ||| P.banks ||| P.chs ||| P.points ||| P.alarm ||| P.logic ||| P.loops ||| P.axes
  ||| P.panel ||| P.recRest

theorem commitSwitch_switched {s : State} (hc : s.peg.chg = .waitInstant) (hh : s.logic.held = true)
    (hi : instanceRunning s false = false) :
    view switchParts (commitSwitch s) = view switchParts (imageSwitched s) := by
  have idle : ¬ (s.peg.chg != .waitInstant || !s.logic.held || instanceRunning s false) = true := by simp [hc, hh, hi]
  unfold commitSwitch
  rw [if_neg idle]
  extract_lets old img pg s1 s2 s3 s4 s5
  have h2 : view switchParts s2 = view switchParts s1 :=
    (switchAlarm_view (by decide) ..).trans ((switchLoops_view (by decide) ..).trans (switchLogic_view (by decide) ..))
  have h3 : view switchParts s3 = view switchParts s2 :=
    (view_forRange (fun g t => switchGroup_view (by decide) old g t) _).trans
      (view_forRange (fun b t => switchBank_view (by decide) old b t) s2)
  have h4 : view switchParts s4 = view switchParts s3 :=
    (endLocals_view (by decide) ..).trans (switchPanel_view (by decide) ..)
  have h5 : view switchParts s5 = view switchParts s4 := view_forAll (fun p t => by
    split
    · rfl
    · exact forceEndNow_view (by decide) ..) s4
  have resumed : view switchParts (resumeLoops (resumeReleases (restartWatchdogs s5))) = view switchParts s5 :=
    (resumeLoops_view (by decide) _).trans ((resumeReleases_view (by decide) _).trans
      (restartWatchdogs_view (by decide) s5))
  exact resumed.trans (h5.trans (h4.trans (h3.trans h2)))

/-! ### No idle instant (02 R54) -/

@[simp] theorem commitRefused_peg (n : Nat) (s : State) : (commitRefused n s).peg =
    { s.peg with chg := .idle, chgSlot := 3, chgResult := n, staged := [], stagedId := {} } := by
  rw [commitRefused, answerHeld_peg, raiseN_peg, setPeg_peg]

theorem commitRefused_waits (n : Nat) (s : State) : (commitRefused n s).mmp.waits.look 3 = none := answerHeld_cleared ..

/-- The change is given up as refused with code 9; then the releases that it held resume. -/
theorem commitNoIdle_refused {s : State} (hc : s.peg.chg = .waitInstant) :
    view (P.event ||| P.logic ||| P.loops) (commitNoIdle s) =
      view (P.event ||| P.logic ||| P.loops) (commitRefused 9 s) := by
  have waiting : ¬ (s.peg.chg != .waitInstant) = true := by simp [hc]
  unfold commitNoIdle
  rw [if_neg waiting]
  exact view_ite ((resumeLoops_view (by decide) _).trans (resumeReleases_view (by decide) _)) rfl

/-! ### t5: the commit is done (02 R54) -/

/-- The commit of `s` as recorded at t5, where the slots of the peg read `l`. -/
def pegCommitted (s : State) (l : Tab SlotSt) : PegSt :=
  { s.peg with
    chg := .idle, chgSlot := 3, chgResult := 0, chgSeq := s.imgId.seq, chgCount := satInc top32 s.peg.chgCount
    slots := l }

/-- With nothing waiting for it, t5 records the commit, hands out the references and sends the reply that was held; then
the partner may be told. -/
theorem commitDone_recorded {s : State} (hc : s.peg.chg = .switching) (hr : s.peg.resetWaits = false)
    (hd : s.peg.drainWaits = false) : ∃ w l, w.peg = pegCommitted s l ∧ w.imgId = s.imgId
      ∧ view P.pair (commitDone s) = view P.pair (answerHeld 3 .ok 0 (setImageRefs w)) := by
  have switching : ¬ (s.peg.chg != .switching) = true := by simp [hc]
  unfold commitDone
  rw [if_neg switching]
  extract_lets o s1 s2 s3 s4 s5 s6
  obtain ⟨l, h2⟩ : ∃ l, s2 = s1.setPeg (fun p => { p with slots := l }) := by
    unfold s2
    split
    · exact refreshSlots_shape s1
    · exact ⟨s1.peg.slots, rfl⟩
  have hw : (raise Ev.COMMIT_DONE 0xCD s2.imgId.seq o s2).peg = pegCommitted s l := by
    rw [raise_peg, h2]
    rfl
  have hid : (raise Ev.COMMIT_DONE 0xCD s2.imgId.seq o s2).imgId = s.imgId := by
    rw [raise_imgId, h2]
    rfl
  have told : view P.pair s5 = view P.pair s4 := view_ite (setPair_view (by decide) s4 _) rfl
  have h5 : s5.peg = pegCommitted s l := by
    rw [peg_of_view told (by decide) (by decide)]
    exact (answerHeld_peg ..).trans ((setImageRefs_peg _).trans hw)
  have h6 : s6 = s5 := if_neg (by rw [h5]; simp [pegCommitted, hr])
  refine ⟨_, l, hw, hid, ?_⟩
  rw [h6, if_neg (by rw [h5]; simp [pegCommitted, hd])]
  exact told

/-! ### The standby repeats its selection (02 R59) -/

/-- The round of STANDBY_REPITCH for one function. -/
def repitchFn (f : Fn) (t : State) : State :=
  if inStandbySet f && t.fnState f == .standby then
    (enterFn f .pitch t).setHdr f (fun h => { h with configured := false })
  else t

/-- The state that it leaves a function of state `st` in. -/
def repitched (f : Fn) (st : FnState) : FnState := if inStandbySet f && st == .standby then .pitch else st

theorem repitchFn_self (f : Fn) (t : State) : (repitchFn f t).fnState f = repitched f (t.fnState f) := by
  unfold repitchFn repitched
  split
  · rw [setHdr_fnState_self]
    exact enterFn_fnState f .pitch t
  · rfl

theorem repitchFn_other (f : Fn) (t : State) (g : Fn) (h : g ≠ f) : (repitchFn f t).fnState g = t.fnState g := by
  unfold repitchFn
  split
  · rw [setHdr_fnState_other _ _ h, enterFn_other .pitch t h]
  · rfl

theorem repitchFn_view (f : Fn) (t : State) :
    view (P.event ||| P.hdrs ||| P.pool) (repitchFn f t) = view (P.event ||| P.hdrs ||| P.pool) t :=
  view_ite ((setHdr_view (by decide) _ f _).trans (enterFn_view (by decide) f .pitch t)) rfl

theorem standbyRepitch_eq {s : State} (hs : s.mod.state = .standby) : standbyRepitch s =
    forAll allFns repitchFn ((s.setPair (fun p => { p with repitch := true, holdoffStart := none })).setPeg
      (fun p => { p with reading := true, selecting := true })) :=
  if_neg (by simp [hs])

end Sys2Proof.Laws
end

section
/-! CERTIFICATE. The online change (02 R53, R54, R56, R59, R60). -/

namespace Sys2Proof.Proofs

open Sys2Proof Sys2Proof.Machine Sys2Proof.Laws

/-- A refused COMMIT leaves its code, its reply and its event (02 R53). -/
theorem commit_refused_effect {s u : State} {m : Msg} {q : Req} {slot : Nat} (h : Accepted m 0x0B .engineer q s u)
    (hc : commitCheck u slot ≠ 0) :
    (commit slot q u).peg = { s.peg with chgResult := commitCheck u slot } ∧ (commit slot q u).img = s.img
      ∧ Replied q .refused u (commit slot q u)
      ∧ ∃ e ∈ (commit slot q u).recd.inbox, e.code = Ev.COMMIT_REFUSED.code ∧ e.data = w32 (commitCheck u slot) := by
  have himg : view N.img (commit slot q u) = view N.img s :=
    (commit_view (by decide) ..).trans (accepted_view h (by decide))
  refine ⟨?_, img_of_view himg (by decide), ?_⟩
  all_goals
    obtain ⟨w, hw, e⟩ := commit_refused q hc
    rw [e]
  · rw [refused, reply_peg, commitNote_peg, peg_of_view hw (by decide) (by decide), accepted_peg h]
  · refine ⟨replied_reply q .refused _ 0 [] (replies_of_view ?_), ?_⟩
    · exact (commitNote_view (by decide) ..).trans (view_mono (by decide) hw)
    · rw [inbox_of_view (refused_view (m := N.inbox) (by decide) ..) (by decide)]
      exact commitNote_mem_inbox ..

theorem commit_completes {s u : State} {m : Msg} {q : Req} {n : Fin 3} (h : Accepted m 0x0B .engineer q s u) :
    Completes (.commit m n) s (fun t =>
      if commitCheck u n.val = 0 then
        t.peg.chg = .staging ∧ t.peg.chgSlot = n.val ∧ t.peg.staged = imgSections s.peg.mem n.val
          ∧ t.peg.stagedId = slotId s.peg.mem n.val ∧ t.mmp.waits.look 3 = some q
      else
        t.peg = { s.peg with chgResult := commitCheck u n.val } ∧ t.img = s.img ∧ Replied q .refused u t
          ∧ ∃ e ∈ t.recd.inbox, e.code = Ev.COMMIT_REFUSED.code ∧ e.data = w32 (commitCheck u n.val)) := by
  have e : exec (.commit m n) s = .next (commit n.val q u) := congrArg Host.Outcome.next (accepted_noted h _ _)
  refine ⟨_, e, ?_⟩
  split
  next hc =>
    rw [commit_accepted q hc, ← accepted_peg h]
    exact ⟨rfl, rfl, rfl, rfl, hold_waits ..⟩
  next hc => exact commit_refused_effect h hc

theorem commitSwitch_completes {s : State} (hc : s.peg.chg = .waitInstant) (hh : s.logic.held = true)
    (hi : instanceRunning s false = false) : Completes .commitSwitch s (fun t =>
      t.img = loadImage s.peg.staged ∧ t.sections = s.peg.staged ∧ t.imgId = s.peg.stagedId ∧ t.peg.chg = .switching
        ∧ t.peg.sel = s.peg.chgSlot ∧ t.peg.staged = [] ∧ t.peg.mem = s.peg.mem) := by
  have h := commitSwitch_switched hc hh hi
  have hpeg := peg_of_view h (by decide) (by decide)
  refine ⟨_, rfl, img_of_view h (by decide), sections_of_view h (by decide), imgId_of_view h (by decide), ?_⟩
  rw [hpeg]
  exact ⟨rfl, rfl, rfl, rfl⟩

theorem commitNoIdle_completes {s : State} (hc : s.peg.chg = .waitInstant) : Completes .commitNoIdle s (fun t =>
      t.peg.chg = .idle ∧ t.peg.chgSlot = 3 ∧ t.peg.chgResult = 9 ∧ t.peg.staged = [] ∧ t.mmp.waits.look 3 = none
        ∧ t.img = s.img) := by
  have h := commitNoIdle_refused hc
  have hpeg := (peg_of_view h (by decide) (by decide)).trans (commitRefused_peg 9 s)
  have himg := img_of_view (commitRefused_view (m := N.img) (by decide) 9 s) (by decide)
  refine ⟨_, rfl, ?_⟩
  beta_reduce
  rw [hpeg, waits_of_view h (by decide), commitRefused_waits, img_of_view h (by decide), himg]
  exact ⟨rfl, rfl, rfl, rfl, rfl, rfl⟩

theorem commitDone_completes {s : State} (hc : s.peg.chg = .switching) (hr : s.peg.resetWaits = false)
    (hd : s.peg.drainWaits = false) : Completes .commitDone s (fun t =>
      t.peg.chg = .idle ∧ t.peg.chgSlot = 3 ∧ t.peg.chgResult = 0 ∧ t.peg.chgSeq = s.imgId.seq
        ∧ t.peg.chgCount = satInc top32 s.peg.chgCount ∧ t.mmp.waits.look 3 = none
        ∧ ∀ f ∈ allFns, (t.hdr f).imageref = s.imgId.seq) := by
  obtain ⟨w, l, hw, hid, h⟩ := commitDone_recorded hc hr hd
  have hpeg : (commitDone s).peg = pegCommitted s l := by
    rw [peg_of_view h (by decide) (by decide), answerHeld_peg, setImageRefs_peg, hw]
  have hrefs : ∀ f ∈ allFns, ((commitDone s).hdr f).imageref = s.imgId.seq := fun f hf => by
    rw [imageref_of_view (view_mono (by decide) h), imageref_of_view (answerHeld_view (by decide) ..),
      setImageRefs_ref w f hf, hid]
  refine ⟨_, rfl, ?_⟩
  beta_reduce
  rw [hpeg, waits_of_view h (by decide), answerHeld_cleared]
  exact ⟨rfl, rfl, rfl, rfl, rfl, rfl, hrefs⟩

theorem standbyRepitch_completes {s : State} (hs : s.mod.state = .standby) : Completes .standbyRepitch s (fun t =>
      t.pair.repitch = true ∧ t.pair.holdoffStart = none ∧ t.peg.reading = true ∧ t.peg.selecting = true
        ∧ ∀ f ∈ allFns, t.fnState f = if inStandbySet f && s.fnState f == .standby then .pitch else s.fnState f) := by
  have e : exec .standbyRepitch s = _ := congrArg Host.Outcome.next (standbyRepitch_eq hs)
  have h := fun u : State => view_forAll (l := allFns) repitchFn_view u
  refine ⟨_, e, ?_⟩
  beta_reduce
  rw [pair_of_view (h _) (by decide), peg_of_view (h _) (by decide) (by decide)]
  refine ⟨rfl, rfl, rfl, rfl, fun f hf => ?_⟩
  rw [forAll_fnState repitchFn_other repitchFn_self allFns _ (by decide) f, if_pos hf]
  rfl

/-- Settles O13: each command of an online change by what its instant leaves. -/
theorem commits : Obligations.Commits := by
  unfold Obligations.Commits
  refine ⟨fun s u m q n => commit_completes, fun s hc => ⟨_, rfl, if_pos (by simp [hc])⟩,
    fun s => commitSwitch_completes, fun s => commitNoIdle_completes, fun s => commitDone_completes,
    fun s => standbyRepitch_completes⟩

end Sys2Proof.Proofs
end

section
/-! SUPPORT. What the commands of an analogue output do to a channel, and what the straps do to a bank (03 R76, R77, R82,
R84, R86, R88). -/

namespace Sys2Proof.Laws

open Sys2Proof Sys2Proof.Machine

/-- A write to one channel with its event. -/
theorem setCh_raiseN_effect (b c : Nat) (u : ChSt → ChSt) (k : EvKind) (src d : Nat) (s : State) :
    (raiseN k src d (s.setCh b c u)).ch b c = u (s.ch b c)
      ∧ Raised k src (w32 d) s (raiseN k src d (s.setCh b c u)) :=
  ⟨(raiseN_ch ..).trans (setCh_self ..), raised_of_growsN (.of_eq rfl) ..⟩

/-! ### Headroom, compliance and back-feed (03 R76, R77, R88) -/

theorem headroom_of_current {b c : Nat} {s : State} (supply head : Nat) (hl : s.live (bankFn b) = true)
    (hm : isCurMode (s.ch b c).mode = true) : headroom b c supply head s =
      s.setCh b c (fun x => { x with supply := supply, headroom := head }) := by
  simp [headroom, hl, hm]

theorem compLow_sets {b c : Nat} {s : State} (hm : isCurMode (s.ch b c).mode = true)
    (hf : (s.ch b c).compLow = false) : compLow b c s =
      raiseN Ev.CH_COMPLIANCE_LOW (chSrc b c) (s.ch b c).headroom
        (s.setCh b c (fun y => { y with compLow := true })) :=
  if_pos (by simp [hm, hf])

theorem compShort_sets {b c : Nat} {s : State} (ua : Nat) (hm : isCurMode (s.ch b c).mode = true)
    (hl : (s.ch b c).compLow = true) (hf : (s.ch b c).compShort = false) : compShort b c ua s =
      raiseN Ev.CH_COMPLIANCE_SHORTFALL (chSrc b c) ua (s.setCh b c (fun y => { y with compShort := true })) :=
  if_pos (by simp [hm, hl, hf])

theorem compOk_clears {b c : Nat} {s : State} (hm : isCurMode (s.ch b c).mode = true)
    (hl : (s.ch b c).compLow = true) : compOk b c s =
      raiseN Ev.CH_COMPLIANCE_OK (chSrc b c) (s.ch b c).headroom
        (s.setCh b c (fun y => { y with compLow := false, compShort := false })) :=
  if_pos (by simp [hm, hl])

/-- No active output mode is the input mode 0x02 that supplies its loop. -/
theorem activeOutput_ne_two {m : Nat} (h : isActiveCur m = true ∨ m = 0x16 ∨ m = 0x17) : m ≠ 2 := by
  rintro rfl
  revert h
  decide

/-- Back-feed of an active output: its supply measurement stays (03 R88). -/
theorem backfeed_latches {b c : Nat} {s : State} (mv : Int)
    (hm : isActiveCur (s.ch b c).mode = true ∨ (s.ch b c).mode = 0x16 ∨ (s.ch b c).mode = 0x17)
    (hf : (s.ch b c).backfeed = false) (hl : s.live (bankFn b) = true) :
    (backfeed b c mv s).ch b c = { s.ch b c with backfeed := true }
      ∧ Raised Ev.CH_BACKFEED (chSrc b c) (w32 (s32 mv)) s (backfeed b c mv s) := by
  have h2 := activeOutput_ne_two hm
  have e : backfeed b c mv s = raiseN Ev.CH_BACKFEED (chSrc b c) (s32 mv) (s.setCh b c
      (fun y => { y with backfeed := true, supply := if y.mode = 2 then 0 else y.supply })) := by
    unfold backfeed
    extract_lets x s1
    have supplied : (isActiveCur x.mode || x.mode == 0x16 || x.mode == 0x17 || x.mode == 2) = true := by
      simpa [or_assoc] using hm.imp_right (Or.imp_right Or.inl)
    rw [if_neg (by simp [supplied, hl, x, hf]), if_neg h2]
  rw [e]
  obtain ⟨hch, hev⟩ := setCh_raiseN_effect b c
    (fun y => { y with backfeed := true, supply := if y.mode = 2 then 0 else y.supply }) Ev.CH_BACKFEED (chSrc b c)
    (s32 mv) s
  exact ⟨hch.trans (by rw [if_neg h2]), hev⟩

/-- A visit of the lead of a row of mode 0x09 (03 R84; 04 R140). -/
theorem readbackVisit_lead {b c : Nat} {s : State} (ohms : F64) (hl : s.live (bankFn b) = true)
    (hm : (s.ch b c).mode = 9) : readbackVisit b c (.lead ohms) s = s.setCh b c (fun y => { y with lead := ohms }) := by
  simp [readbackVisit, hl, hm]

/-! ### CH_CLEAR (03 R86) -/

/-- The round of CH_CLEAR for one channel. -/
def clearRound (b : Nat) (mask : BitVec 16) (c : Nat) (t : State) : State :=
  if mask.getLsbD c then clearChannel b c t else t

theorem chClear_of_role (b : Nat) (mask : BitVec 16) {r : Role} (s : State) (h : roleAtLeast r .engineer = true) :
    chClear b mask r s = raise Ev.CH_CLEARED (chSrc b 0) (mask.setWidth 32) (.role r)
      (forRange 16 (clearRound b mask) s) :=
  if_neg (by simp [h])

theorem clearRound_grows (b : Nat) (mask : BitVec 16) (c : Nat) (t : State) : Grows t (clearRound b mask c t) := by
  unfold clearRound
  split
  · exact clearChannel_grows b c t
  · exact .refl t

theorem clearRound_img (b : Nat) (mask : BitVec 16) (c : Nat) (t : State) : (clearRound b mask c t).img = t.img := by
  unfold clearRound
  split
  · exact img_of_view (clearChannel_view (m := N.img) (by decide) b c t) (by decide)
  · rfl

theorem clearRound_ch_other (b : Nat) (mask : BitVec 16) {c d : Nat} (t : State) (h : c ≠ d) :
    (clearRound b mask c t).ch b d = t.ch b d := by
  unfold clearRound
  split
  · exact clearChannel_other b c t (by omega)
  · rfl

/-- What CH_CLEAR leaves of a channel is what the channel's own round leaves, from the same configuration. -/
theorem clearRounds_ch (b : Nat) (mask : BitVec 16) {c : Nat} (hc : c < 16) (s : State) :
    ∃ u : State, u.ch b c = s.ch b c ∧ u.img = s.img
      ∧ (forRange 16 (clearRound b mask) s).ch b c = (clearRound b mask c u).ch b c := by
  obtain ⟨u, hu, ht⟩ := forRange_get (fun t : State => (t.ch b c, t.img)) (f := clearRound b mask) (c := c)
    (fun a t ha => Prod.ext (clearRound_ch_other b mask t ha) (clearRound_img b mask a t)) hc s
  obtain ⟨hch, himg⟩ := Prod.mk.inj hu
  exact ⟨u, hch, himg, (Prod.mk.inj ht).1⟩

theorem clearRounds_cleared {b c : Nat} {mask : BitVec 16} (hc : c < 16) (hb : mask.getLsbD c = true) (s : State) :
    ((forRange 16 (clearRound b mask) s).ch b c).backfeed = false
      ∧ ((forRange 16 (clearRound b mask) s).ch b c).ne43 = false
      ∧ ((forRange 16 (clearRound b mask) s).ch b c).stageOff = false
      ∧ (failAction (s.chCfg b c) ≠ 2 → ((forRange 16 (clearRound b mask) s).ch b c).rbMismatch = false) := by
  obtain ⟨u, -, himg, e⟩ := clearRounds_ch b mask hc s
  have own : clearRound b mask c u = clearChannel b c u := if_pos hb
  have hcfg : u.chCfg b c = s.chCfg b c := by unfold State.chCfg; rw [himg]
  rw [e, own, ← hcfg]
  exact clearChannel_ch b c u

theorem clearRounds_kept {b c : Nat} {mask : BitVec 16} (hc : c < 16) (hb : mask.getLsbD c = false) (s : State) :
    (forRange 16 (clearRound b mask) s).ch b c = s.ch b c := by
  obtain ⟨u, hch, -, e⟩ := clearRounds_ch b mask hc s
  have own : clearRound b mask c u = u := if_neg (by simp [hb])
  rw [e, own, hch]

/-! ### The straps (03 R82) -/

/-- The straps of one bank are sensed as `v`. -/
def senseBank (b v : Nat) (t : State) : State :=
  if (t.bank b).straps = v then t
  else raiseN Ev.BANK_STRAP_CHANGED (chSrc b 0) v (t.setBank b (fun k => { k with straps := v, strapChanged := true }))

/-- The round of STRAP_SENSE for one bank. -/
def strapRound (straps : List (Fin 4)) (b : Nat) (t : State) : State :=
  match straps[b]? with
  | none => t
  | some v => senseBank b v.val t

theorem strapSense_eq (straps : List (Fin 4)) (s : State) : strapSense straps s = forRange 8 (strapRound straps) s := rfl

theorem strapRound_of_lt {straps : List (Fin 4)} {b : Nat} (h : b < straps.length) (t : State) :
    strapRound straps b t = senseBank b straps[b].val t := by
  unfold strapRound
  rw [List.getElem?_eq_getElem h]

theorem senseBank_straps (b v : Nat) (t : State) : ((senseBank b v t).bank b).straps = v := by
  unfold senseBank
  split
  next h => exact h
  next h => rw [raiseN_bank, setBank_self]

/-- Straps that differ from those sensed before are marked and reported. -/
theorem senseBank_changed {b v : Nat} {t : State} (h : (t.bank b).straps ≠ v) :
    ((senseBank b v t).bank b).strapChanged = true
      ∧ Raised Ev.BANK_STRAP_CHANGED (chSrc b 0) (w32 v) t (senseBank b v t) := by
  unfold senseBank
  rw [if_neg h, raiseN_bank, setBank_self]
  exact ⟨rfl, raised_of_growsN (.of_eq rfl) ..⟩

theorem senseBank_bank_other {b d : Nat} (v : Nat) (t : State) (h : b ≠ d) : (senseBank b v t).bank d = t.bank d := by
  unfold senseBank
  split
  · rfl
  · rw [raiseN_bank, setBank_other _ _ h.symm]

theorem senseBank_grows (b v : Nat) (t : State) : Grows t (senseBank b v t) := by
  unfold senseBank
  split
  · exact .refl t
  · exact Grows.trans (.of_eq rfl) (grows_raiseN ..)

theorem strapRound_bank_other (straps : List (Fin 4)) {b d : Nat} (t : State) (h : b ≠ d) :
    (strapRound straps b t).bank d = t.bank d := by
  unfold strapRound
  split
  · rfl
  · exact senseBank_bank_other _ t h

theorem strapRound_grows (straps : List (Fin 4)) (b : Nat) (t : State) : Grows t (strapRound straps b t) := by
  unfold strapRound
  split
  · exact .refl t
  · exact senseBank_grows ..

/-- What STRAP_SENSE leaves of a bank is what the bank's own round leaves, and that round's events stay. -/
theorem strapSense_bank {straps : List (Fin 4)} {b : Nat} (hb : b < 8) (h : b < straps.length) (s : State) :
    ∃ u : State, u.bank b = s.bank b ∧ (strapSense straps s).bank b = (senseBank b straps[b].val u).bank b
      ∧ Grows s u ∧ Grows (senseBank b straps[b].val u) (strapSense straps s) := by
  obtain ⟨u, hu, ht, before, after⟩ := forRange_getG (fun t => t.bank b) (f := strapRound straps) (c := b)
    (fun _ t ha => strapRound_bank_other straps t ha) (strapRound_grows straps) hb s
  rw [strapRound_of_lt h] at ht after
  exact ⟨u, hu, ht, before, after⟩

end Sys2Proof.Laws
end

section
/-! CERTIFICATE. Headroom, compliance, back-feed, CH_CLEAR, lead visits and straps (03 R76, R77, R82, R84, R86, R88,
R101). -/

namespace Sys2Proof.Proofs

open Sys2Proof Sys2Proof.Machine Sys2Proof.Laws

theorem headroomMeasurement_completes {s : State} {b : Fin 8} {c : Fin 16} (supply head : Nat)
    (hl : s.live (bankFn b) = true) (hm : isCurMode (s.ch b c).mode = true) :
    Completes (.headroomMeasurement b c supply head) s (fun t =>
      t.ch b c = { s.ch b c with supply := supply, headroom := head } ∧ t.recd = s.recd) := by
  refine ⟨_, congrArg Host.Outcome.next (headroom_of_current supply head hl hm), ?_, rfl⟩
  exact setCh_self ..

theorem chComplianceLow_completes {s : State} {b : Fin 8} {c : Fin 16} (hm : isCurMode (s.ch b c).mode = true)
    (hf : (s.ch b c).compLow = false) : Completes (.chComplianceLow b c) s (fun t =>
      t.ch b c = { s.ch b c with compLow := true }
        ∧ Raised Ev.CH_COMPLIANCE_LOW (chSrc b c) (w32 (s.ch b c).headroom) s t) :=
  ⟨_, congrArg Host.Outcome.next (compLow_sets hm hf), setCh_raiseN_effect ..⟩

theorem chComplianceShortfall_completes {s : State} {b : Fin 8} {c : Fin 16} (ua : Nat)
    (hm : isCurMode (s.ch b c).mode = true) (hl : (s.ch b c).compLow = true) (hf : (s.ch b c).compShort = false) :
    Completes (.chComplianceShortfall b c ua) s (fun t =>
      t.ch b c = { s.ch b c with compShort := true }
        ∧ Raised Ev.CH_COMPLIANCE_SHORTFALL (chSrc b c) (w32 ua) s t) :=
  ⟨_, congrArg Host.Outcome.next (compShort_sets ua hm hl hf), setCh_raiseN_effect ..⟩

theorem chComplianceOk_completes {s : State} {b : Fin 8} {c : Fin 16} (hm : isCurMode (s.ch b c).mode = true)
    (hl : (s.ch b c).compLow = true) : Completes (.chComplianceOk b c) s (fun t =>
      t.ch b c = { s.ch b c with compLow := false, compShort := false }
        ∧ Raised Ev.CH_COMPLIANCE_OK (chSrc b c) (w32 (s.ch b c).headroom) s t) :=
  ⟨_, congrArg Host.Outcome.next (compOk_clears hm hl), setCh_raiseN_effect ..⟩

theorem chClear_completes (s : State) (b : Fin 8) (mask : BitVec 16) {r : Role} (hr : roleAtLeast r .engineer = true) :
    Completes (.chClear b mask r) s (fun t =>
      (∀ c : Fin 16, mask.getLsbD c = true →
        (t.ch b c).backfeed = false ∧ (t.ch b c).ne43 = false ∧ (t.ch b c).stageOff = false
          ∧ (failAction (s.chCfg b c) ≠ 2 → (t.ch b c).rbMismatch = false))
      ∧ (∀ c : Fin 16, mask.getLsbD c = false → t.ch b c = s.ch b c)
      ∧ Raised Ev.CH_CLEARED (chSrc b 0) (mask.setWidth 32) s t) := by
  refine ⟨_, congrArg Host.Outcome.next (chClear_of_role b mask s hr), fun c hc => ?_, fun c hc => ?_, ?_⟩
  · rw [raise_ch]
    exact clearRounds_cleared c.isLt hc s
  · rw [raise_ch]
    exact clearRounds_kept c.isLt hc s
  · exact raised_of_grows (forRange_grows (clearRound_grows b mask) s) ..

theorem readbackVisit_lead_completes {s : State} {b : Fin 8} {c : Fin 16} (ohms : F64)
    (hl : s.live (bankFn b) = true) (hm : (s.ch b c).mode = 9) :
    Completes (.readbackVisit b c (.lead ohms)) s (fun t =>
      t.ch b c = { s.ch b c with lead := ohms } ∧ t.recd = s.recd) := by
  refine ⟨_, congrArg Host.Outcome.next (readbackVisit_lead ohms hl hm), ?_, rfl⟩
  exact setCh_self ..

theorem strapSense_completes (s : State) (straps : List (Fin 4)) (b : Fin 8) (h : b.val < straps.length) :
    Completes (.strapSense straps) s (fun t => (t.bank b).straps = straps[b.val].val
      ∧ ((s.bank b).straps ≠ straps[b.val].val → (t.bank b).strapChanged = true
          ∧ Raised Ev.BANK_STRAP_CHANGED (chSrc b 0) (w32 straps[b.val].val) s t)) := by
  obtain ⟨u, hu, ht, before, after⟩ := strapSense_bank b.isLt h s
  refine ⟨_, rfl, ?_, fun changed => ?_⟩
  · rw [ht]
    exact senseBank_straps ..
  · obtain ⟨marked, raised⟩ := senseBank_changed (hu ▸ changed)
    exact ⟨ht ▸ marked, raised_mid before raised after⟩

/-- Settles O14: each command of an analogue channel by what it writes to the channel and the event that it raises. -/
theorem analogueCompliance : Obligations.AnalogueCompliance := by
  unfold Obligations.AnalogueCompliance
  refine ⟨fun s b c supply head => headroomMeasurement_completes supply head,
    fun s b c => chComplianceLow_completes, fun s b c ua => chComplianceShortfall_completes ua,
    fun s b c => chComplianceOk_completes, fun s b c mv hm hf hl => ⟨_, rfl, backfeed_latches mv hm hf hl⟩,
    fun s b mask r => chClear_completes s b mask, fun s b c ohms => readbackVisit_lead_completes ohms,
    strapSense_completes⟩

end Sys2Proof.Proofs
end

section
/-! SUPPORT. What the operations of the front end leave of a bank and of a channel: publishing, settling, slots and
conversions (04 R112 to R119; 05 R148). -/

namespace Sys2Proof.Laws

open Sys2Proof Sys2Proof.Machine

/-! ### Publishing and settling of a row -/

theorem publish_grows (b c : Nat) (s : State) : Grows s (publish b c s) := grows_publishRow ..

theorem settleVisible_grows (b c : Nat) (p : Bool) (s : State) : Grows s (settleVisible b c p s) :=
  (publish_grows b c _).from_eq rfl

theorem settleVisible_ch (b c : Nat) (p : Bool) (s : State) :
    ((settleVisible b c p s).ch b c).settling = true
      ∧ ((settleVisible b c p s).ch b c).track = (s.ch b c).track
      ∧ ((settleVisible b c p s).ch b c).validSince = (s.ch b c).validSince := by
  simp [settleVisible]

theorem settleVisible_ch_other (b c : Nat) (p : Bool) (s : State) {d e : Nat} (h : 16 * d + e ≠ 16 * b + c) :
    (settleVisible b c p s).ch d e = s.ch d e :=
  (publish_ch_other b c _ h).trans (setCh_other _ _ h)

/-- An operation whose frame keeps the banks. -/
theorem bank_of_silent {s t : State} (e : view N.banks t = view N.banks s) (d : Nat) : t.bank d = s.bank d :=
  bank_of_banks (banks_of_view e (by decide)) d

theorem slotEnd_bank (b n : Nat) (s : State) (d : Nat) : (slotEnd b n s).bank d = s.bank d :=
  bank_of_silent (slotEnd_view (by decide) ..) d

theorem windowStart_bank (b n : Nat) (p : Option SlotEntry) (s : State) (d : Nat) :
    (windowStart b n p s).bank d = s.bank d :=
  bank_of_silent (windowStart_view (by decide) ..) d

theorem swapSettle_bank (b : Nat) (old new : Tab SlotEntry) (s : State) (d : Nat) :
    (swapSettle b old new s).bank d = s.bank d :=
  bank_of_silent (swapSettle_view (by decide) ..) d

/-! ### SLOT_SUBMIT (04 R118) -/

theorem slotSubmit_accepted {b : Nat} {r : Role} {s : State} (h : submitCode s b r = (0, 0)) :
    slotSubmit b r s = raise Ev.SLOT_SUBMITTED (chSrc b 0) (w32 (frameLen (s.bank b).slotShd)) (.role r)
      ((raiseIf (s.bank b).slotPend.isSome Ev.SLOT_SUBMIT_REPLACED (chSrc b 0) 0 s).setBank b
        (fun k => { k with slotPend := some k.slotShd, subResult := 0, subEntry := 0 })) :=
  if_neg (by simp [h])

theorem slotSubmit_refused {b n m : Nat} {r : Role} {s : State} (h : submitCode s b r = (n, m)) (hn : n ≠ 0) :
    slotSubmit b r s = raiseN Ev.SLOT_SUBMIT_REFUSED (chSrc b 0) (n + 256 * m)
      (s.setBank b (fun k => { k with subResult := n, subEntry := m })) := by
  unfold slotSubmit
  rw [h]
  exact if_pos (by simp [hn])

/-! ### EXCITATION_CHANGE (04 R114) -/

theorem excitationChange_to {b l n : Nat} {s : State} (hc : (s.bank b).lanes.look l ≠ 0)
    (hl : s.live (bankFn b) = true)
    (hn : (laneOf (s.bank b).slotAct l).find? (fun k => decide ((s.bank b).lanes.look l - 1 < k)) = some n) :
    excitationChange b l s = windowStart b n (some ((s.bank b).slotAct.look ((s.bank b).lanes.look l - 1)))
      ((slotEnd b ((s.bank b).lanes.look l - 1) s).setBank b (fun y => { y with lanes := y.lanes.put l (n + 1) })) := by
  simp [excitationChange, hc, hl, hn]

/-! ### FRAME_START (04 R113, R119) -/

/-- A bank without the entries in force in its lanes: what the restart of the lanes leaves. -/
def offLanes (k : BankSt) : BankSt := { k with lanes := [] }

/-- A bank after the swap at a frame start: a pending table is in use, and none is pending. -/
def takePending (k : BankSt) : BankSt :=
  match k.slotPend with
  | none => k
  | some t => { k with slotAct := t, slotShd := t, slotPend := none }

/-- The entry in force in lane `l` ends. -/
def endLane (b l : Nat) (t : State) : State :=
  if (t.bank b).lanes.look l = 0 then t else slotEnd b ((t.bank b).lanes.look l - 1) t

/-- The swap at a frame start, with what the rows do for it. -/
def swapPending (b : Nat) (k : BankSt) (s : State) : State :=
  match k.slotPend with
  | none => s
  | some t =>
    swapSettle b k.slotAct t
      (raiseN Ev.SLOT_SWAPPED (chSrc b 0) (wrap32 (k.frameCount + 1))
        (s.setBank b (fun y => { y with slotAct := t, slotShd := t, slotPend := none })))

theorem frameStart_of_live {b : Nat} {s : State} (h : s.live (bankFn b) = true) :
    frameStart b s = forRange 4 (laneRestart b (s.bank b).slotAct)
      (swapPending b (s.bank b)
        ((forRange 4 (endLane b) s).setBank b (fun y => { y with frameCount := wrap32 (y.frameCount + 1) }))) :=
  if_neg (by simp [h])

theorem endLane_bank (b l : Nat) (t : State) : (endLane b l t).bank b = t.bank b := by
  unfold endLane
  split
  · rfl
  · exact slotEnd_bank ..

theorem laneRestart_offLanes (b : Nat) (old : Tab SlotEntry) (l : Nat) (t : State) :
    offLanes ((laneRestart b old l t).bank b) = offLanes (t.bank b) := by
  unfold laneRestart
  extract_lets k cur
  split
  · rw [setBank_self]
    rfl
  · rw [windowStart_bank, setBank_self]
    rfl

theorem swapPending_bank {b : Nat} {k : BankSt} {s : State} (h : (s.bank b).slotPend = k.slotPend) :
    (swapPending b k s).bank b = takePending (s.bank b) := by
  unfold swapPending takePending
  rw [h]
  cases k.slotPend with
  | none => rfl
  | some t =>
    dsimp only
    rw [swapSettle_bank, raiseN_bank, setBank_self]

/-- A frame start counts the frame and takes a pending table into use; besides the lanes it changes nothing else. -/
theorem frameStart_bank {b : Nat} {s : State} (h : s.live (bankFn b) = true) :
    offLanes ((frameStart b s).bank b)
      = offLanes (takePending { s.bank b with frameCount := wrap32 ((s.bank b).frameCount + 1) }) := by
  have ended : (forRange 4 (endLane b) s).bank b = s.bank b :=
    forAll_keeps (fun t => t.bank b) (endLane_bank b) s
  rw [frameStart_of_live h]
  refine (forAll_keeps (fun t : State => offLanes (t.bank b)) (laneRestart_offLanes b (s.bank b).slotAct) _).trans ?_
  rw [swapPending_bank, setBank_self, ended]
  rw [setBank_self, ended]

theorem takePending_fields (k : BankSt) :
    (takePending k).frameCount = k.frameCount ∧ (takePending k).slotPend = none
      ∧ (takePending k).slotAct = k.slotPend.getD k.slotAct
      ∧ (takePending k).clampLive = k.clampLive ∧ (takePending k).trim = k.trim := by
  unfold takePending
  cases h : k.slotPend with
  | none => exact ⟨rfl, h, rfl, rfl, rfl⟩
  | some t => exact ⟨rfl, rfl, rfl, rfl, rfl⟩

/-! ### CONVERSION_RESULT (05 R148) -/

/-- The raw value of a channel, and whether its window has seen a conversion. -/
def convSeen (x : ChSt) : Int × Bool := (x.raw, x.winSeen)

theorem convSeen_eq {x y : ChSt} (raw : x.raw = y.raw) (seen : x.winSeen = y.winSeen) : convSeen x = convSeen y :=
  Prod.ext raw seen

theorem setCh_convSeen (b c : Nat) (u : ChSt → ChSt) (s : State)
    (h : ∀ x, convSeen (u x) = convSeen x := by intro; rfl) :
    convSeen ((s.setCh b c u).ch b c) = convSeen (s.ch b c) :=
  (congrArg convSeen (setCh_self s b c u)).trans (h _)

theorem publish_convSeen (b c : Nat) (s : State) : convSeen ((publish b c s).ch b c) = convSeen (s.ch b c) :=
  convSeen_eq (publish_f_raw ..) (publish_f_winSeen ..)

theorem declareBreak_convSeen (b c m : Nat) (s : State) :
    convSeen ((declareBreak b c m s).ch b c) = convSeen (s.ch b c) := by
  unfold declareBreak
  rw [publish_convSeen, raiseN_ch]
  exact setCh_convSeen ..

theorem breakPass_convSeen (b c : Nat) (p : Bool) (s : State) :
    convSeen ((breakPass b c p s).ch b c) = convSeen (s.ch b c) := by
  obtain ⟨hraw, hseen⟩ := breakPass_ch b c p s
  exact convSeen_eq hraw hseen

theorem settledResult_convSeen (b c : Nat) (raw : Int) (rr : F64) (s : State) :
    convSeen ((settledResult b c raw rr s).ch b c) = convSeen (s.ch b c) := by
  unfold settledResult
  extract_lets r e
  split
  · exact setCh_convSeen _ _ _ _ (fun x => by split <;> rfl)
  · obtain ⟨hraw, hseen, -⟩ := evaluateRow_ch b c raw (F64.toF32 rr) (rowClamped s b c) (rowRatio s b c) s
    exact convSeen_eq hraw hseen

/-- Whatever a conversion leads to, its raw value and its mark in the window stay. -/
theorem conversion_convSeen {b c : Nat} (raw : Int) (d : FeDiag) {s0 : State} (h : converting s0 b c = true) :
    convSeen ((conversion b c raw d s0).ch b c) = (raw, true) := by
  unfold conversion
  rw [if_neg (by simp [h])]
  extract_lets s1 s2 r rr m s x e
  have stored : convSeen (s.ch b c) = (raw, true) := by simp [s, s2, convSeen]
  rw [← stored]
  clear_value s
  split
  next clamped => rfl
  next =>
    split
    next broken =>
      split
      · exact setCh_convSeen ..
      · exact declareBreak_convSeen b c m s
    next sound =>
      split
      next k _ =>
        split
        · rfl
        · exact breakPass_convSeen b c false s
      next =>
        split
        next limited => exact publish_convSeen b c s
        split
        next reversed => exact setCh_convSeen ..
        split
        next interrupted => exact setCh_convSeen ..
        split
        next discarded => exact setCh_convSeen ..
        next settled => exact settledResult_convSeen b c raw rr s

end Sys2Proof.Laws
end

section
/-! CERTIFICATE. Slot tables, the frame start, the lanes and the conversions (04 R112 to R114, R118, R119; 05 R148). -/

namespace Sys2Proof.Proofs

open Sys2Proof Sys2Proof.Machine Sys2Proof.Laws

theorem slotSubmit_accepted_completes {s : State} {b : Fin 8} {r : Role} (h : submitCode s b r = (0, 0)) :
    Completes (.slotSubmit b r) s (fun t =>
      t.bank b = { s.bank b with slotPend := some (s.bank b).slotShd, subResult := 0, subEntry := 0 }
        ∧ Raised Ev.SLOT_SUBMITTED (chSrc b 0) (w32 (frameLen (s.bank b).slotShd)) s t) := by
  refine ⟨_, congrArg Host.Outcome.next (slotSubmit_accepted h), ?_, ?_⟩
  · rw [raise_bank, setBank_self, raiseIf_bank]
  · refine raised_of_grows ?_ ..
    exact (grows_raiseIf ..).trans (.of_eq rfl)

theorem slotSubmit_refused_completes {s : State} {b : Fin 8} {r : Role} {n m : Nat} (h : submitCode s b r = (n, m))
    (hn : n ≠ 0) : Completes (.slotSubmit b r) s (fun t =>
      t.bank b = { s.bank b with subResult := n, subEntry := m }
        ∧ Raised Ev.SLOT_SUBMIT_REFUSED (chSrc b 0) (w32 (n + 256 * m)) s t) := by
  refine ⟨_, congrArg Host.Outcome.next (slotSubmit_refused h hn), ?_, raised_of_growsN (.of_eq rfl) ..⟩
  rw [raiseN_bank, setBank_self]

theorem frameStart_completes {s : State} {b : Fin 8} (h : s.live (bankFn b) = true) :
    Completes (.frameStart b) s (fun t =>
      (t.bank b).frameCount = wrap32 ((s.bank b).frameCount + 1) ∧ (t.bank b).slotPend = none
        ∧ (t.bank b).slotAct = (s.bank b).slotPend.getD (s.bank b).slotAct
        ∧ (t.bank b).clampLive = (s.bank b).clampLive ∧ (t.bank b).trim = (s.bank b).trim) := by
  have e := frameStart_bank h
  obtain ⟨hcount, hpend, hact, hclamp, htrim⟩ :=
    takePending_fields { s.bank b with frameCount := wrap32 ((s.bank b).frameCount + 1) }
  exact ⟨_, rfl, (congrArg BankSt.frameCount e).trans hcount, (congrArg BankSt.slotPend e).trans hpend,
    (congrArg BankSt.slotAct e).trans hact, (congrArg BankSt.clampLive e).trans hclamp,
    (congrArg BankSt.trim e).trans htrim⟩

theorem excitationChange_completes {s : State} {b : Fin 8} {l : Fin 4} {n : Nat} (hc : (s.bank b).lanes.look l ≠ 0)
    (hl : s.live (bankFn b) = true)
    (hn : (laneOf (s.bank b).slotAct l).find? (fun k => decide ((s.bank b).lanes.look l - 1 < k)) = some n) :
    Completes (.excitationChange b l) s (fun t =>
      t.bank b = { s.bank b with lanes := (s.bank b).lanes.put l (n + 1) }) := by
  refine ⟨_, congrArg Host.Outcome.next (excitationChange_to hc hl hn), (windowStart_bank ..).trans ?_⟩
  rw [setBank_self, slotEnd_bank]

theorem conversionResult_completes {s : State} {b : Fin 8} {c : Fin 16} (raw : Int) (d : FeDiag)
    (h : converting s b c = true) :
    Completes (.conversionResult b c raw d) s (fun t => (t.ch b c).raw = raw ∧ (t.ch b c).winSeen = true) :=
  ⟨_, rfl, Prod.mk.inj (conversion_convSeen raw d h)⟩

/-- Settles O16: each command of the slot tables by what it leaves of its bank, and a conversion by what it stores. -/
theorem slotTables : Obligations.SlotTables := by
  unfold Obligations.SlotTables
  refine ⟨fun s b r => slotSubmit_accepted_completes, fun s b r n m => slotSubmit_refused_completes, fun s b h => ?_,
    fun s b l n => excitationChange_completes, fun s b c raw d => conversionResult_completes raw d⟩
  obtain ⟨t, ht, hcount, hpend, hact, kept⟩ := frameStart_completes h
  refine ⟨t, ht, hcount, hpend, hact.trans ?_, kept⟩
  cases (s.bank b).slotPend <;> rfl

end Sys2Proof.Proofs
end

section
/-! SUPPORT. What the episodes of an input row leave of its channel: compensation, ride-through, cold junctions and the
tracking notch (04 R128, R129; 05 R150, R151, R158). -/

namespace Sys2Proof.Laws

open Sys2Proof Sys2Proof.Machine

/-! ### Compensation (05 R151) -/

theorem compFail_of_held {b c : Nat} {s : State} (h : (s.ch b c).comp = .held) :
    compFail b c s = publish b c (raiseN Ev.COMP_FAILED (chSrc b c) (compSrc (s.chCfg b c))
      (s.setCh b c (fun x => { x with comp := .failed }))) :=
  if_pos h

/-! ### Ride-through (05 R158) -/

theorem rideEnds_of_riding {b c : Nat} {s : State} (h : (s.ch b c).riding = true) :
    rideEnds b c s = publish b c (s.setCh b c (fun x => { x with riding := false })) :=
  if_pos h

/-- A row within an episode does not start to ride through: ride-through starts with the episode. -/
theorem publish_not_riding {b c : Nat} {s : State} (hr : (s.ch b c).riding = false)
    (he : (s.ch b c).episode = true) : ((publish b c s).ch b c).riding = false := by
  unfold publish publishRow
  extract_lets x r cs win anyBad otherBad keep riding0 starts riding
  have stays : riding0 = false := by simp [riding0, x, hr]
  have noStart : starts = false := by simp [starts, x, he]
  rw [raiseIf_ch, setCh_self]
  show riding = false
  simp [riding, stays, noStart]

/-! ### Cold junctions (05 R150) -/

theorem cjRead_bank (b : Nat) (t0 t1 : Option F32) (s : State) :
    ((cjRead b t0 t1 s).bank b).cj0 = cjValid t0 ∧ ((cjRead b t0 t1 s).bank b).cj1 = cjValid t1 := by
  unfold cjRead
  rw [raiseIf_bank, raiseIf_bank, setBank_self]
  exact ⟨rfl, rfl⟩

/-! ### The tracking notch (04 R128, R129) -/

theorem takeNotch_lastFreq (chz : Nat) (x : ChSt) : (takeNotch chz x).lastFreq = chz := by
  unfold takeNotch
  extract_lets n d
  split <;> rfl

/-- A measurement of the tracked point is valid: 45.00 to 65.00 Hz, and the point GOOD. -/
abbrev TrackValid (s : State) (g p chz : Nat) : Prop :=
  4500 ≤ chz ∧ chz ≤ 6500 ∧ qIsGood (readRef s (.diState g p)).q = true

/-- In HOLDING a valid measurement locks the notch, and another one ends the run of valid ones. -/
theorem trackMeasure_of_holding {b c chz g p : Nat} {s : State} (hm : isInMode (s.ch b c).mode = true)
    (hn : (s.chCfg b c).notch = 4) (hl : s.live (bankFn b) = true) (hp : (s.chCfg b c).trackPt = some (g, p))
    (ht : (s.ch b c).track = .holding) :
    trackMeasure b c chz s = if TrackValid s g p chz then
        raiseN Ev.NOTCH_TRACK_OK (chSrc b c) chz
          (s.setCh b c (fun y => { takeNotch chz y with track := .locked }))
      else s.setCh b c (fun y => { y with validSince := none }) := by
  unfold trackMeasure
  extract_lets r x good valid
  have taken : (isInMode x.mode && r.notch == 4 && s.live (bankFn b)) = true := by simp [x, r, hm, hn, hl]
  have judged : valid = decide (TrackValid s g p chz) := by simp [valid, good, r, hp, Bool.and_assoc]
  rw [if_neg (by simp [taken])]
  by_cases hv : TrackValid s g p chz
  · rw [if_pos hv, if_neg (by simp only [judged, decide_eq_true hv]; decide)]
    simp only [x, ht]
  · rw [if_neg hv, if_pos (by simp only [judged, decide_eq_false hv]; decide)]

theorem trackLost_of_locked {b c : Nat} {s : State} (h : (s.ch b c).track = .locked) :
    trackLost b c s = raiseN Ev.NOTCH_TRACK_LOST (chSrc b c) (s.ch b c).lastFreq
      (s.setCh b c (fun x => { x with track := .holding })) :=
  if_pos h

theorem trackFallback_of_holding {b c : Nat} {s : State} (h : (s.ch b c).track = .holding) :
    trackFallback b c s = settleVisible b c true (raiseN Ev.NOTCH_FALLBACK (chSrc b c) 0
      (s.setCh b c (fun x => { x with track := .fallback, validSince := none }))) :=
  if_pos h

end Sys2Proof.Laws
end

section
/-! CERTIFICATE. Compensation, ride-through, cold junctions and the tracking notch (04 R128, R129; 05 R150, R151,
R158). -/

namespace Sys2Proof.Proofs

open Sys2Proof Sys2Proof.Machine Sys2Proof.Laws

theorem compFailed_completes {s : State} {b : Fin 8} {c : Fin 16} (h : (s.ch b c).comp = .held) :
    Completes (.compFailed b c) s (fun t => (t.ch b c).comp = .failed ∧ (t.ch b c).raw = (s.ch b c).raw
      ∧ Raised Ev.COMP_FAILED (chSrc b c) (w32 (compSrc (s.chCfg b c))) s t) := by
  obtain ⟨hch, hev⟩ := setCh_raiseN_effect b c (fun x => { x with comp := .failed }) Ev.COMP_FAILED (chSrc b c)
    (compSrc (s.chCfg b c)) s
  refine ⟨_, congrArg Host.Outcome.next (compFail_of_held h), ?_, ?_, raised_mid (.refl s) hev (publish_grows ..)⟩
  · rw [publish_f_comp, hch]
  · rw [publish_f_raw, hch]

theorem rideTimeEnd_completes {s : State} {b : Fin 8} {c : Fin 16} (hr : (s.ch b c).riding = true)
    (he : (s.ch b c).episode = true) :
    Completes (.rideTimeEnd b c) s (fun t => (t.ch b c).riding = false ∧ (t.ch b c).y = (s.ch b c).y
      ∧ (t.ch b c).wireBreak = (s.ch b c).wireBreak ∧ t.banks = s.banks) := by
  refine ⟨_, congrArg Host.Outcome.next (rideEnds_of_riding hr), publish_not_riding ?_ ?_, ?_, ?_, ?_⟩
  · rw [setCh_self]
  · rw [setCh_self]
    exact he
  · rw [publish_f_y, setCh_self]
  · rw [publish_f_wireBreak, setCh_self]
  · exact banks_of_view (publish_view (m := N.banks) (by decide) ..) (by decide)

theorem cjSensorRead_completes (s : State) (b : Fin 8) (t0 t1 : Option F32) :
    Completes (.cjSensorRead b t0 t1) s (fun t => (t.bank b).cj0 = cjValid t0 ∧ (t.bank b).cj1 = cjValid t1
      ∧ t.chs = s.chs) := by
  obtain ⟨h0, h1⟩ := cjRead_bank b t0 t1 s
  exact ⟨_, rfl, h0, h1, chs_of_view (cjRead_view (m := N.chs) (by decide) ..) (by decide)⟩

theorem trackMeasurement_completes {s : State} {b : Fin 8} {c : Fin 16} {chz g p : Nat}
    (hm : isInMode (s.ch b c).mode = true) (hn : (s.chCfg b c).notch = 4) (hl : s.live (bankFn b) = true)
    (hp : (s.chCfg b c).trackPt = some (g, p)) (ht : (s.ch b c).track = .holding) :
    Completes (.trackMeasurement b c chz) s (fun t =>
      if TrackValid s g p chz then
        (t.ch b c).track = .locked ∧ (t.ch b c).lastFreq = chz ∧ Raised Ev.NOTCH_TRACK_OK (chSrc b c) (w32 chz) s t
      else t.ch b c = { s.ch b c with validSince := none }) := by
  have step := trackMeasure_of_holding (chz := chz) hm hn hl hp ht
  split
  next valid =>
    obtain ⟨hch, hev⟩ := setCh_raiseN_effect b c (fun y => { takeNotch chz y with track := .locked })
      Ev.NOTCH_TRACK_OK (chSrc b c) chz s
    refine ⟨_, congrArg Host.Outcome.next (step.trans (if_pos valid)), ?_, ?_, hev⟩
    · rw [hch]
    · rw [hch]
      exact takeNotch_lastFreq ..
  next invalid => exact ⟨_, congrArg Host.Outcome.next (step.trans (if_neg invalid)), setCh_self ..⟩

theorem notchTrackLost_completes {s : State} {b : Fin 8} {c : Fin 16} (h : (s.ch b c).track = .locked) :
    Completes (.notchTrackLost b c) s (fun t => t.ch b c = { s.ch b c with track := .holding }
      ∧ Raised Ev.NOTCH_TRACK_LOST (chSrc b c) (w32 (s.ch b c).lastFreq) s t) :=
  ⟨_, congrArg Host.Outcome.next (trackLost_of_locked h), setCh_raiseN_effect ..⟩

theorem notchFallback_completes {s : State} {b : Fin 8} {c : Fin 16} (h : (s.ch b c).track = .holding) :
    Completes (.notchFallback b c) s (fun t => (t.ch b c).track = .fallback ∧ (t.ch b c).settling = true
      ∧ (t.ch b c).validSince = none ∧ Raised Ev.NOTCH_FALLBACK (chSrc b c) 0 s t) := by
  obtain ⟨hch, hev⟩ := setCh_raiseN_effect b c (fun x => { x with track := .fallback, validSince := none })
    Ev.NOTCH_FALLBACK (chSrc b c) 0 s
  obtain ⟨hsettling, htrack, hsince⟩ := settleVisible_ch b c true (raiseN Ev.NOTCH_FALLBACK (chSrc b c) 0
    (s.setCh b c (fun x => { x with track := .fallback, validSince := none })))
  rw [hch] at htrack hsince
  exact ⟨_, congrArg Host.Outcome.next (trackFallback_of_holding h), htrack, hsettling, hsince,
    raised_mid (.refl s) hev (settleVisible_grows ..)⟩

/-- Settles O17: each command of an input episode by what it leaves of its row and the event that it raises. -/
theorem inputEpisodes : Obligations.InputEpisodes := by
  unfold Obligations.InputEpisodes
  exact ⟨fun s b c => compFailed_completes, fun s b c => rideTimeEnd_completes, cjSensorRead_completes,
    fun s b c chz g p => trackMeasurement_completes, fun s b c => notchTrackLost_completes,
    fun s b c => notchFallback_completes⟩

end Sys2Proof.Proofs
end

section
/-! SUPPORT. Clamps, test pulses and the visits of the readback converter (04 R131, R132, R134, R138, R140). -/

namespace Sys2Proof.Laws

open Sys2Proof Sys2Proof.Machine

/-! ### The rows of a clamped terminal (04 R131, R132) -/

/-- What one round over the rows of bank `b` may do: raise events and write its own row. -/
structure RowRound (b : Nat) (f : Nat → State → State) : Prop where
  grows : ∀ c u, Grows u (f c u)
  banks : ∀ c u, (f c u).banks = u.banks
  img : ∀ c u, (f c u).img = u.img
  other : ∀ c d u, c ≠ d → (f c u).ch b d = u.ch b d

theorem publish_rowRound (b : Nat) : RowRound b (publish b) where
  grows := publish_grows b
  banks _ _ := banks_of_view (publish_view (m := N.banks) (by decide) ..) (by decide)
  img _ _ := img_of_view (publish_view (m := N.img) (by decide) ..) (by decide)
  other c _ u h := publish_ch_other b c u (by omega)

theorem settleVisible_rowRound (b : Nat) (p : Bool) : RowRound b (fun c => settleVisible b c p) where
  grows c := settleVisible_grows b c p
  banks _ _ := banks_of_view (settleVisible_view (m := N.banks) (by decide) ..) (by decide)
  img _ _ := img_of_view (settleVisible_view (m := N.img) (by decide) ..) (by decide)
  other c _ u h := settleVisible_ch_other b c p u (by omega)

/-- One row's part of a clamp of terminal `t`: its event, and for an input row what `f` does. -/
def clampRound (k : EvKind) (f : Nat → State → State) (b t c : Nat) (u : State) : State :=
  if rowHasTerm u b c t then
    let u1 := raiseN k (chSrc b c) t u
    if isInMode (u1.ch b c).mode then f c u1 else u1
  else u

/-- What holds of a state, of that state with the event, and of what `f` does then, holds after the round. -/
theorem clampRound_ind {P : State → Prop} {k : EvKind} {f : Nat → State → State} {b t c : Nat} {u : State}
    (same : P u) (raised : P (raiseN k (chSrc b c) t u)) (done : P (f c (raiseN k (chSrc b c) t u))) :
    P (clampRound k f b t c u) := by
  unfold clampRound
  split
  · extract_lets u1
    split
    · exact done
    · exact raised
  · exact same

theorem clampOn_of_clear {b t : Nat} {s : State} (h : (s.bank b).clampLive.getLsbD t = false) :
    clampOn b t s = forRange 16 (clampRound Ev.CH_CLAMP_ACTIVE (publish b) b t)
      (s.setBank b (fun k => { k with
        clampLive := k.clampLive ||| ((1 : BitVec 48) <<< t)
        clampLatch := k.clampLatch ||| ((1 : BitVec 48) <<< t) })) :=
  if_neg (by simp [h])

theorem clampOn_of_set {b t : Nat} {s : State} (h : (s.bank b).clampLive.getLsbD t = true) :
    clampOn b t s = s.setBank b (fun k => { k with
      clampLive := k.clampLive ||| ((1 : BitVec 48) <<< t)
      clampLatch := k.clampLatch ||| ((1 : BitVec 48) <<< t) }) :=
  if_pos h

theorem clampOff_of_set {b t : Nat} {s : State} (h : (s.bank b).clampLive.getLsbD t = true) :
    clampOff b t s = forRange 16 (clampRound Ev.CH_CLAMP_RELEASED (fun c => settleVisible b c true) b t)
      (s.setBank b (fun k => { k with clampLive := k.clampLive &&& ~~~((1 : BitVec 48) <<< t) })) :=
  if_neg (by simp [h])

/-- A row has a terminal by its mode and its configuration only. -/
theorem rowHasTerm_congr {s u : State} {b c : Nat} (t : Nat) (hch : u.ch b c = s.ch b c) (himg : u.img = s.img) :
    rowHasTerm u b c t = rowHasTerm s b c t := by
  simp only [rowHasTerm, State.chCfg, hch, himg]

section
variable {b : Nat} {f : Nat → State → State} (hf : RowRound b f) (k : EvKind) (t : Nat)
include hf

theorem clampRound_rowRound : RowRound b (clampRound k f b t) where
  grows _ u := clampRound_ind (P := Grows u) (.refl u) (grows_raiseN ..) ((grows_raiseN ..).trans (hf.grows ..))
  banks _ u := clampRound_ind (P := fun v => v.banks = u.banks) rfl (raiseN_banks ..)
    ((hf.banks ..).trans (raiseN_banks ..))
  img _ u := clampRound_ind (P := fun v => v.img = u.img) rfl (raiseN_img ..) ((hf.img ..).trans (raiseN_img ..))
  other _ d u h := clampRound_ind (P := fun v => v.ch b d = u.ch b d) rfl (raiseN_ch ..)
    ((hf.other _ _ _ h).trans (raiseN_ch ..))

theorem clampRound_raises {c : Nat} {u : State} (h : rowHasTerm u b c t = true) :
    Raised k (chSrc b c) (w32 t) u (clampRound k f b t c u) := by
  unfold clampRound
  rw [if_pos h]
  extract_lets u1
  have raised : Raised k (chSrc b c) (w32 t) u u1 := raised_of_growsN (.refl u) ..
  split
  · exact raised_mid (.refl u) raised (hf.grows c u1)
  · exact raised

theorem clampRounds_bank (s : State) (d : Nat) : (forRange 16 (clampRound k f b t) s).bank d = s.bank d :=
  bank_of_banks (forAll_keeps State.banks (clampRound_rowRound hf k t).banks s) d

/-- Every row that has the terminal reports the clamp: neither the bank's flags nor the rounds before its own change its
terminals. -/
theorem clampRounds_raise {c : Nat} {s : State} (w : BankSt → BankSt) (hc : c < 16)
    (h : rowHasTerm s b c t = true) :
    Raised k (chSrc b c) (w32 t) s (forRange 16 (clampRound k f b t) (s.setBank b w)) := by
  have round := clampRound_rowRound hf k t
  obtain ⟨u, hu, -, before, after⟩ := forRange_getG (fun v : State => (v.ch b c, v.img)) (f := clampRound k f b t)
    (c := c) (fun a v ha => Prod.ext (round.other a c v ha) (round.img a v)) round.grows hc (s.setBank b w)
  obtain ⟨hch, himg⟩ := Prod.mk.inj hu
  have has : rowHasTerm u b c t = true := (rowHasTerm_congr t (s := s) hch himg).trans h
  exact raised_mid (before.from_eq rfl) (clampRound_raises hf k t has) after

end

/-! ### TEST_PULSE (04 R134) -/

/-- The wire-break method that a failed test pulse declares: burnout of a thermocouple row, or pull test. -/
abbrev testMethod (r : ChCfg) : Nat := if r.mode = 5 ∨ r.mode = 0x0B then 3 else 4

/-- A row without a wire break: a deviation of 2 % in either direction declares one, and else the test has passed. -/
theorem testPulse_of_unbroken {b c : Nat} (d1 d2 : Nat) {s : State} (hm : isInMode (s.ch b c).mode = true)
    (ht : testOf (s.chCfg b c) = 1) (hl : s.live (bankFn b) = true) (hw : (s.ch b c).wireBreak = none) :
    testPulse b c d1 d2 s = if 20000 ≤ d1 ∨ 20000 ≤ d2 then
        declareBreak b c (testMethod (s.chCfg b c)) (s.setCh b c (fun y => { y with testFailed := true }))
      else s.setCh b c (fun y => { y with testFailed := false }) := by
  unfold testPulse
  extract_lets r x m fail s1
  have judged : fail = decide (20000 ≤ d1 ∨ 20000 ≤ d2) := (Bool.decide_or ..).symm
  rw [if_neg (by simp [x, r, hm, ht, hl])]
  by_cases hd : 20000 ≤ d1 ∨ 20000 ≤ d2
  · have failed : fail = true := judged.trans (decide_eq_true hd)
    rw [if_pos hd, if_pos failed]
    simp only [x, hw, s1, failed, m, r]
  · have passed : fail = false := judged.trans (decide_eq_false hd)
    rw [if_neg hd, if_neg (by simp [passed]), if_neg (by simp [x, hw])]
    simp only [s1, passed]

/-- A declared wire break stands with its method and its event; the result of the test stays. -/
theorem declareBreak_effect (b c m : Nat) (s : State) :
    ((declareBreak b c m s).ch b c).wireBreak = some m
      ∧ ((declareBreak b c m s).ch b c).testFailed = (s.ch b c).testFailed
      ∧ Raised Ev.CH_WIRE_BREAK (chSrc b c) (w32 m) s (declareBreak b c m s) := by
  obtain ⟨hch, hev⟩ := setCh_raiseN_effect b c
    (fun x => { x with wireBreak := some m, wbPass := 0, res1 := none, res2 := none }) Ev.CH_WIRE_BREAK (chSrc b c) m s
  unfold declareBreak
  refine ⟨?_, ?_, raised_mid (.refl s) hev (publish_grows ..)⟩
  · rw [publish_f_wireBreak, hch]
  · rw [publish_f_testFailed, hch]

/-! ### READBACK_VISIT (03 R83 to R85; 04 R138, R140) -/

/-- The readback of a channel and its entry. -/
def rbShown (x : ChSt) : F32 × Qv := (x.readback, x.rbEntry)

theorem setCh_rbShown (b c : Nat) (u : ChSt → ChSt) (s : State)
    (h : ∀ x, rbShown (u x) = rbShown x := by intro; rfl) :
    rbShown ((s.setCh b c u).ch b c) = rbShown (s.ch b c) :=
  (congrArg rbShown (setCh_self s b c u)).trans (h _)

/-- A write to the channel that leaves its readback, with an event. -/
theorem setCh_raiseN_rbShown (b c : Nat) (u : ChSt → ChSt) (k : EvKind) (src d : Nat) (s : State)
    (h : ∀ x, rbShown (u x) = rbShown x := by intro; rfl) :
    rbShown ((raiseN k src d (s.setCh b c u)).ch b c) = rbShown (s.ch b c) :=
  (congrArg rbShown (raiseN_ch ..)).trans (setCh_rbShown b c u s h)

theorem driveAo_rbShown (b c : Nat) (s : State) : rbShown ((driveAo b c s).ch b c) = rbShown (s.ch b c) := by
  obtain ⟨l, d, r, h⟩ := driveAo_ch b c s
  rw [h]
  rfl

theorem declareMismatch_rbShown (b c : Nat) (cmd rb : F32) (s : State) :
    rbShown ((declareMismatch b c cmd rb s).ch b c) = rbShown (s.ch b c) := by
  unfold declareMismatch
  extract_lets a s1
  have marked : rbShown (s1.ch b c) = rbShown (s.ch b c) := setCh_raiseN_rbShown ..
  rw [← marked]
  split
  · exact (driveAo_rbShown ..).trans (setCh_rbShown ..)
  · split
    · exact setCh_rbShown ..
    · rfl

/-- The runs and latches of a counting visit leave what the visit has shown. -/
theorem countVisit_rbShown (b c : Nat) (cmd rb : F32) (s : State) :
    rbShown ((countVisit b c cmd rb s).ch b c) = rbShown (s.ch b c) := by
  unfold countVisit
  extract_lets x dev
  split
  next unmatched =>
    split
    · exact setCh_rbShown ..
    · split
      · exact setCh_rbShown ..
      · exact declareMismatch_rbShown ..
  next mismatch =>
    split
    next ne43 =>
      split
      · exact setCh_rbShown ..
      · split
        · exact setCh_rbShown ..
        · exact setCh_raiseN_rbShown ..
    next =>
      split
      · exact setCh_rbShown ..
      · split
        · exact setCh_rbShown ..
        · exact setCh_raiseN_rbShown ..

theorem countCycle_ch (b c : Nat) (s : State) (d e : Nat) : (countCycle b c s).ch d e = s.ch d e := by
  unfold countCycle
  split <;> rfl

/-- The state in which a visit of an output row has stored its value and quality, and counted its cycle. -/
def storeReadback (b c : Nat) (rb : F32) (s : State) : State :=
  countCycle b c (s.setCh b c (fun y =>
    { y with readback := rb, rbEntry := { val := rb, q := if trimOpen s b c then qUnc 0 else qGood } }))

theorem storeReadback_rbShown (b c : Nat) (rb : F32) (s : State) : rbShown ((storeReadback b c rb s).ch b c)
    = (rb, { val := rb, q := if trimOpen s b c then qUnc 0 else qGood }) := by
  unfold storeReadback
  rw [countCycle_ch, setCh_self]
  rfl

theorem readbackVisit_output {b c : Nat} {s : State} (rb : F32) (hl : s.live (bankFn b) = true)
    (hm : isOutMode (s.ch b c).mode = true) :
    rbShown ((readbackVisit b c (.output rb) s).ch b c)
      = (rb, { val := rb, q := if trimOpen s b c then qUnc 0 else qGood }) := by
  unfold readbackVisit
  extract_lets x
  rw [if_neg (by simp [hl])]
  dsimp only
  rw [if_neg (by simp [x, hm])]
  split
  next counts => exact (countVisit_rbShown ..).trans (storeReadback_rbShown b c rb s)
  next => exact storeReadback_rbShown b c rb s

theorem readbackVisit_crossCheck {b c : Nat} {s : State} (raw : Int) (r : F32) (hl : s.live (bankFn b) = true)
    (hm : isInMode (s.ch b c).mode = true) (hs : (s.chCfg b c).safety = 1) :
    readbackVisit b c (.crossCheck raw r) s = secondPath b c raw r s := by
  simp [readbackVisit, hl, hm, hs]

/-- The second path counts and stamps its own entry; the main entry stays, whatever temperature compensates it. -/
theorem secondPath_ch (b c : Nat) (raw : Int) (r : F32) (s : State) :
    ((secondPath b c raw r s).ch b c).secondN = (s.ch b c).secondN + 1
      ∧ ((secondPath b c raw r s).ch b c).secondAt = s.now
      ∧ ((secondPath b c raw r s).ch b c).entry = (s.ch b c).entry := by
  unfold secondPath
  extract_lets cfg xs x ts y g
  have kept : ts.2.ch b c = s.ch b c := by
    unfold ts
    split
    · rfl
    · split <;> rfl
  rw [setCh_self, kept]
  exact ⟨rfl, rfl, rfl⟩

end Sys2Proof.Laws
end

section
/-! CERTIFICATE. Clamps, test pulses, readback visits and cross-checks (03 R84; 04 R131, R132, R134, R138, R140). -/

namespace Sys2Proof.Proofs

open Sys2Proof Sys2Proof.Machine Sys2Proof.Laws

theorem chClampActive_completes (s : State) (b : Fin 8) (k : Fin 48) :
    Completes (.chClampActive b k) s (fun t =>
      (t.bank b).clampLive = (s.bank b).clampLive ||| ((1 : BitVec 48) <<< k.val)
        ∧ (t.bank b).clampLatch = (s.bank b).clampLatch ||| ((1 : BitVec 48) <<< k.val)
        ∧ ∀ c : Fin 16, (s.bank b).clampLive.getLsbD k = false → rowHasTerm s b c k = true →
            Raised Ev.CH_CLAMP_ACTIVE (chSrc b c) (w32 k) s t) := by
  cases was : (s.bank b).clampLive.getLsbD k with
  | true =>
    refine ⟨_, congrArg Host.Outcome.next (clampOn_of_set was), ?_, ?_, fun c clear => nomatch clear⟩ <;>
      rw [setBank_self]
  | false =>
    refine ⟨_, congrArg Host.Outcome.next (clampOn_of_clear was), ?_, ?_, fun c _ has => ?_⟩
    · rw [clampRounds_bank (publish_rowRound b), setBank_self]
    · rw [clampRounds_bank (publish_rowRound b), setBank_self]
    · exact clampRounds_raise (publish_rowRound b) _ _ _ c.isLt has

theorem chClampReleased_completes {s : State} {b : Fin 8} {k : Fin 48} (h : (s.bank b).clampLive.getLsbD k = true) :
    Completes (.chClampReleased b k) s (fun t =>
      (t.bank b).clampLive = (s.bank b).clampLive &&& ~~~((1 : BitVec 48) <<< k.val)
        ∧ (t.bank b).clampLatch = (s.bank b).clampLatch
        ∧ ∀ c : Fin 16, rowHasTerm s b c k = true → Raised Ev.CH_CLAMP_RELEASED (chSrc b c) (w32 k) s t) := by
  have round := settleVisible_rowRound b true
  refine ⟨_, congrArg Host.Outcome.next (clampOff_of_set h), ?_, ?_, fun c has => ?_⟩
  · rw [clampRounds_bank round, setBank_self]
  · rw [clampRounds_bank round, setBank_self]
  · exact clampRounds_raise round _ _ _ c.isLt has

theorem testPulse_completes {s : State} {b : Fin 8} {c : Fin 16} (d1 d2 : Nat)
    (hm : isInMode (s.ch b c).mode = true) (ht : testOf (s.chCfg b c) = 1) (hl : s.live (bankFn b) = true)
    (hw : (s.ch b c).wireBreak = none) :
    Completes (.testPulse b c d1 d2) s (fun t =>
      if 20000 ≤ d1 ∨ 20000 ≤ d2 then
        (t.ch b c).testFailed = true ∧ (t.ch b c).wireBreak = some (testMethod (s.chCfg b c))
          ∧ Raised Ev.CH_WIRE_BREAK (chSrc b c) (w32 (testMethod (s.chCfg b c))) s t
      else t.ch b c = { s.ch b c with testFailed := false }) := by
  have step := testPulse_of_unbroken d1 d2 hm ht hl hw
  split
  next failed =>
    obtain ⟨hbreak, htest, hev⟩ := declareBreak_effect b c (testMethod (s.chCfg b c))
      (s.setCh b c (fun y => { y with testFailed := true }))
    rw [setCh_self] at htest
    exact ⟨_, congrArg Host.Outcome.next (step.trans (if_pos failed)), htest, hbreak, hev⟩
  next passed => exact ⟨_, congrArg Host.Outcome.next (step.trans (if_neg passed)), setCh_self ..⟩

theorem readbackVisit_output_completes {s : State} {b : Fin 8} {c : Fin 16} (rb : F32)
    (hl : s.live (bankFn b) = true) (hm : isOutMode (s.ch b c).mode = true) :
    Completes (.readbackVisit b c (.output rb)) s (fun t =>
      (t.ch b c).readback = rb ∧ (t.ch b c).rbEntry = { val := rb, q := if trimOpen s b c then qUnc 0 else qGood }) :=
  ⟨_, rfl, Prod.mk.inj (readbackVisit_output rb hl hm)⟩

theorem readbackVisit_crossCheck_completes {s : State} {b : Fin 8} {c : Fin 16} (raw : Int) (r : F32)
    (hl : s.live (bankFn b) = true) (hm : isInMode (s.ch b c).mode = true) (hs : (s.chCfg b c).safety = 1) :
    Completes (.readbackVisit b c (.crossCheck raw r)) s (fun t =>
      (t.ch b c).secondN = (s.ch b c).secondN + 1 ∧ (t.ch b c).secondAt = s.now
        ∧ (t.ch b c).entry = (s.ch b c).entry) :=
  ⟨_, congrArg Host.Outcome.next (readbackVisit_crossCheck raw r hl hm hs), secondPath_ch ..⟩

/-- Settles O18: each clamp, test pulse and visit by the latches and entries that it leaves. -/
theorem clampsAndTests : Obligations.ClampsAndTests := by
  unfold Obligations.ClampsAndTests
  exact ⟨chClampActive_completes, fun s b k => chClampReleased_completes,
    fun s b c d1 d2 => testPulse_completes d1 d2, fun s b c rb => readbackVisit_output_completes rb,
    fun s b c => readbackVisit_crossCheck_completes⟩

end Sys2Proof.Proofs
end

section
/-! SUPPORT. The digital points: writes to one point or group, and what filters, counters, presets and frequency gates do
to an input (06 R168, R171 to R173). -/

namespace Sys2Proof.Laws

open Sys2Proof Sys2Proof.Machine

/-! ### Writes to a point or a group with their event, and loops over points -/

theorem setPoint_raiseN_effect (g p : Nat) (u : DpSt → DpSt) (k : EvKind) (src d : Nat) (s : State) :
    (raiseN k src d (s.setPoint g p u)).point g p = u (s.point g p)
      ∧ Raised k src (w32 d) s (raiseN k src d (s.setPoint g p u)) :=
  ⟨(raiseN_point ..).trans (setPoint_self ..), raised_of_growsN (.of_eq rfl) ..⟩

theorem setGroup_raiseN_effect (g : Nat) (u : DgSt → DgSt) (k : EvKind) (src d : Nat) (s : State) :
    (raiseN k src d (s.setGroup g u)).group g = u (s.group g)
      ∧ Raised k src (w32 d) s (raiseN k src d (s.setGroup g u)) :=
  ⟨(raiseN_group ..).trans (setGroup_self ..), raised_of_growsN (.of_eq rfl) ..⟩

/-- A loop brings about `Q` when the round of one of its elements does, from what every round keeps, and no round of the
loop undoes it. -/
theorem forAll_establishes {β σ : Type} {P Q : σ → Prop} {l : List β} {f : β → σ → σ} {c : β}
    (keeps : ∀ a t, P t → P (f a t)) (own : ∀ t, P t → Q (f c t)) (stays : ∀ a ∈ l, ∀ t, Q t → Q (f a t))
    (hc : c ∈ l) {s : σ} (hs : P s) : Q (forAll l f s) := by
  obtain ⟨before, after, rfl⟩ := List.append_of_mem hc
  have reached : P (forAll before f s) := forAll_invariant keeps hs
  have passed : forAll (before ++ c :: after) f s = forAll after f (f c (forAll before f s)) := by
    simp [forAll]
  rw [passed]
  exact List.foldlRecOn after _ (own _ reached) fun t ht a ha => stays a (by simp [ha]) t ht

theorem live_congr {s u : State} (h : u.fns = s.fns) (f : Fn) : u.live f = s.live f := by
  unfold State.live State.fnState State.hdr
  rw [h]

theorem dpCfg_congr {s u : State} (h : u.img = s.img) (g p : Nat) : u.dpCfg g p = s.dpCfg g p := by
  unfold State.dpCfg
  rw [h]

theorem layIdx_congr {s u : State} (h : u.img = s.img) (r : Ref) : layIdx u r = layIdx s r := by
  unfold layIdx
  rw [h]

/-! ### COUNTER_PRESET and FREQ_GATE_END (06 R172, R173) -/

section
variable {g p : Nat} {s : State} (hm : dpIsIn (s.point g p).mode = true) (hc : (s.dpCfg g p).count ≠ 0)
  (hl : s.live (groupFn g) = true)
include hm hc hl

theorem counterPreset_of_counting (v : W32) :
    counterPreset g p v s = s.setPoint g p (fun x => { x with count := v, preset := none }) :=
  if_pos (by simp [hm, hc, hl])

theorem freqGate_of_few (h : (s.point g p).edges.length < 2) :
    freqGate g p s = s.setPoint g p (fun y => { y with freq := 0, freqOver := false, edges := [] }) := by
  unfold freqGate
  extract_lets x r n
  rw [if_neg (by simp [x, r, hm, hc, hl]), if_pos h]

/-- The intervals of a gate over their span; the count stays, whether or not the rate is above the maximum. -/
theorem freqGate_of_span (h : 2 ≤ (s.point g p).edges.length)
    (hd : (s.point g p).edges.headD 0 < (s.point g p).edges.getLastD 0) :
    ((freqGate g p s).point g p).edges = [] ∧ ((freqGate g p s).point g p).count = (s.point g p).count
      ∧ ((freqGate g p s).point g p).freq = F32.ofRat ((((s.point g p).edges.length - 1) * 10000000 : Nat) : Int)
          ((s.point g p).edges.getLastD 0 - (s.point g p).edges.headD 0) := by
  unfold freqGate
  extract_lets x r n dt fr m high f
  have span : dt ≠ 0 := Nat.sub_ne_zero_of_lt hd
  rw [if_neg (by simp [x, r, hm, hc, hl]), if_neg (Nat.not_lt.2 h), if_neg span, raiseIf_point, setPoint_self]
  exact ⟨rfl, rfl, rfl⟩

end

/-! ### FILTER_CLOCK (06 R168) -/

/-- A preset touches neither the filter nor the state. -/
theorem loadPreset_filter (now : Nat) (x : DpSt) :
    (loadPreset now x).c = x.c ∧ (loadPreset now x).state = x.state := by
  unfold loadPreset
  split
  · split <;> exact ⟨rfl, rfl⟩
  · exact ⟨rfl, rfl⟩

/-- One clock moves the counter by one within its bounds, and the state follows at the bounds only. -/
theorem filterPoint_filter (r : DpCfg) (smp : Bool) (now : Nat) (x : DpSt) :
    (filterPoint r smp now x).raw = smp
      ∧ (filterPoint r smp now x).c = (if smp then (if x.c < r.filtN then x.c + 1 else x.c) else x.c - 1)
      ∧ (filterPoint r smp now x).state = (if (filterPoint r smp now x).c = 0 then false
          else if (filterPoint r smp now x).c = r.filtN then true else x.state) := by
  obtain ⟨hc, hstate⟩ := loadPreset_filter now x
  unfold filterPoint
  extract_lets y c1 c2 st1 st2 rising falling counted
  refine ⟨rfl, ?_, ?_⟩
  · show c2 = _
    cases smp with
    | true => simp [c2, c1, y, hc]
    | false =>
      have low : (if 0 < x.c then x.c - 1 else x.c) = x.c - 1 := by split <;> omega
      simpa [c2, c1, y, hc] using low
  · show st2 = if c2 = 0 then false else if c2 = r.filtN then true else x.state
    rw [← hstate]

/-- The round of FILTER_CLOCK for the point of a number. -/
def filterRound (clk : Nat) (samples : BitVec 64) (i : Nat) (t : State) : State :=
  if dpIsIn (t.point (i / 8) (i % 8)).mode && (t.dpCfg (i / 8) (i % 8)).filtClk == clk && t.live (groupFn (i / 8)) then
    t.setPoint (i / 8) (i % 8) (filterPoint (t.dpCfg (i / 8) (i % 8)) (samples.getLsbD i) t.now)
  else t

theorem filterClock_eq (clk : Nat) (samples : BitVec 64) (s : State) :
    filterClock clk samples s = forRange 64 (filterRound clk samples) s := rfl

theorem pointNumber_div (g : Nat) {p : Nat} (hp : p < 8) : (8 * g + p) / 8 = g := by omega

theorem pointNumber_mod (g : Nat) {p : Nat} (hp : p < 8) : (8 * g + p) % 8 = p := by omega

theorem filterRound_point_other (clk : Nat) (samples : BitVec 64) {i g p : Nat} (t : State) (h : i ≠ 8 * g + p) :
    (filterRound clk samples i t).point g p = t.point g p := by
  unfold filterRound
  split
  · exact setPoint_other t _ (by omega)
  · rfl

theorem filterRound_frame (clk : Nat) (samples : BitVec 64) (i : Nat) (t : State) :
    (filterRound clk samples i t).img = t.img ∧ (filterRound clk samples i t).fns = t.fns := by
  unfold filterRound
  split <;> exact ⟨rfl, rfl⟩

/-- The point's own round, while its row is an input on the clock that has come. -/
theorem filterRound_own {clk g p : Nat} (samples : BitVec 64) {t : State} (hp : p < 8)
    (hm : dpIsIn (t.point g p).mode = true) (hc : (t.dpCfg g p).filtClk = clk) (hl : t.live (groupFn g) = true) :
    filterRound clk samples (8 * g + p) t
      = t.setPoint g p (filterPoint (t.dpCfg g p) (samples.getLsbD (8 * g + p)) t.now) := by
  unfold filterRound
  rw [pointNumber_div g hp, pointNumber_mod g hp]
  exact if_pos (by simp [hm, hc, hl])

/-- What FILTER_CLOCK leaves of an input on that clock is one clock of its filter. -/
theorem filterClock_point {clk g p : Nat} (samples : BitVec 64) {s : State} (hg : g < 8) (hp : p < 8)
    (hm : dpIsIn (s.point g p).mode = true) (hc : (s.dpCfg g p).filtClk = clk) (hl : s.live (groupFn g) = true) :
    ∃ now, (filterClock clk samples s).point g p
      = filterPoint (s.dpCfg g p) (samples.getLsbD (8 * g + p)) now (s.point g p) := by
  obtain ⟨u, hu, ht⟩ := forRange_get (fun t : State => (t.point g p, t.img, t.fns)) (f := filterRound clk samples)
    (c := 8 * g + p) (fun i t h => Prod.ext (filterRound_point_other clk samples t h)
      (Prod.ext_iff.2 (filterRound_frame clk samples i t))) (show 8 * g + p < 64 by omega) s
  obtain ⟨hpoint, hrest⟩ := Prod.mk.inj hu
  obtain ⟨himg, hfns⟩ := Prod.mk.inj hrest
  have hcfg := dpCfg_congr himg g p
  have own := filterRound_own (t := u) (clk := clk) samples hp (hpoint ▸ hm) (hcfg ▸ hc) ((live_congr hfns _).trans hl)
  refine ⟨u.now, ?_⟩
  rw [filterClock_eq, (Prod.mk.inj ht).1, own, setPoint_self, hcfg, hpoint]

/-! ### COUNT_ENTRY_UPDATE (06 R171) -/

theorem setRef_look_self {r : Ref} {j : Nat} (v : Qv) {s : State} (h : layIdx s r = some j) :
    (setRef r v s).pi.look j = some v := by
  unfold setRef
  rw [h]
  exact Tab.look_put_self s.pi j (some v)

theorem setRef_look_other {r : Ref} {j : Nat} (v : Qv) {s : State} (h : layIdx s r ≠ some j) :
    (setRef r v s).pi.look j = s.pi.look j := by
  unfold setRef
  split
  next i hi => exact Tab.look_put_of_ne s.pi (some v) fun e => h (hi.trans (congrArg some e.symm))
  next => rfl

theorem setRef_frame (r : Ref) (v : Qv) (s : State) :
    (setRef r v s).points = s.points ∧ (setRef r v s).img = s.img := by
  unfold setRef
  split <;> exact ⟨rfl, rfl⟩

/-- The round of COUNT_ENTRY_UPDATE for the point of a number. -/
def countRound (i : Nat) (t : State) : State :=
  if dpIsIn (t.point (i / 8) (i % 8)).mode && (t.dpCfg (i / 8) (i % 8)).count != 0 then
    setRef (.diCount (i / 8) (i % 8)) { val := (t.point (i / 8) (i % 8)).count, q := qGood } t
  else t

theorem countEntries_eq (s : State) : countEntries s = forAll (List.range 64) countRound s := rfl

theorem countRound_frame (i : Nat) (t : State) :
    (countRound i t).points = t.points ∧ (countRound i t).img = t.img := by
  unfold countRound
  split
  · exact setRef_frame ..
  · exact ⟨rfl, rfl⟩

theorem countRound_look_other {i j : Nat} {t : State} (h : layIdx t (.diCount (i / 8) (i % 8)) ≠ some j) :
    (countRound i t).pi.look j = t.pi.look j := by
  unfold countRound
  split
  · exact setRef_look_other _ h
  · rfl

theorem countRound_own {g p j : Nat} {t : State} (hp : p < 8) (hm : dpIsIn (t.point g p).mode = true)
    (hc : (t.dpCfg g p).count ≠ 0) (hj : layIdx t (.diCount g p) = some j) :
    (countRound (8 * g + p) t).pi.look j = some { val := (t.point g p).count, q := qGood } := by
  unfold countRound
  rw [pointNumber_div g hp, pointNumber_mod g hp, if_pos (by simp [hm, hc])]
  exact setRef_look_self _ hj

/-- The entry of a counting point takes its count, and the rounds of the other points leave it. -/
theorem countEntries_look {g p j : Nat} {s : State} (hg : g < 8) (hp : p < 8)
    (hm : dpIsIn (s.point g p).mode = true) (hc : (s.dpCfg g p).count ≠ 0) (hj : layIdx s (.diCount g p) = some j)
    (alone : ∀ i < 64, i ≠ 8 * g + p → layIdx s (.diCount (i / 8) (i % 8)) ≠ some j) :
    (countEntries s).pi.look j = some { val := (s.point g p).count, q := qGood }
      ∧ (countEntries s).points = s.points := by
  rw [countEntries_eq]
  have framed : ∀ i (t : State), t.points = s.points ∧ t.img = s.img →
      (countRound i t).points = s.points ∧ (countRound i t).img = s.img := fun i t ⟨hpts, himg⟩ =>
    ⟨(countRound_frame i t).1.trans hpts, (countRound_frame i t).2.trans himg⟩
  have own : ∀ t : State, t.points = s.points ∧ t.img = s.img →
      (countRound (8 * g + p) t).pi.look j = some { val := (s.point g p).count, q := qGood } := by
    rintro t ⟨hpts, himg⟩
    have hpoint : t.point g p = s.point g p := by unfold State.point; rw [hpts]
    rw [← hpoint]
    exact countRound_own hp (hpoint ▸ hm) (dpCfg_congr himg g p ▸ hc) ((layIdx_congr himg _).trans hj)
  obtain ⟨⟨hpts, -⟩, hlook⟩ := forAll_establishes (P := fun t => t.points = s.points ∧ t.img = s.img)
    (Q := fun t => (t.points = s.points ∧ t.img = s.img)
      ∧ t.pi.look j = some { val := (s.point g p).count, q := qGood })
    framed (fun t ht => ⟨framed _ t ht, own t ht⟩)
    (fun i hi t ⟨ht, hlook⟩ => by
      refine ⟨framed i t ht, ?_⟩
      by_cases e : i = 8 * g + p
      · exact e ▸ own t ht
      · have elsewhere := layIdx_congr ht.2 _ ▸ alone i (List.mem_range.1 hi) e
        exact (countRound_look_other elsewhere).trans hlook)
    (List.mem_range.2 (show 8 * g + p < 64 by omega)) ⟨rfl, rfl⟩
  exact ⟨hlook, hpts⟩

end Sys2Proof.Laws
end

section
/-! CERTIFICATE. Presets, frequency gates, filters and count entries (06 R168, R171 to R173). -/

namespace Sys2Proof.Proofs

open Sys2Proof Sys2Proof.Machine Sys2Proof.Laws

theorem counterPreset_completes {s : State} {g p : Fin 8} (v : W32) (hm : dpIsIn (s.point g p).mode = true)
    (hc : (s.dpCfg g p).count ≠ 0) (hl : s.live (groupFn g) = true) :
    Completes (.counterPreset g p v) s (fun t => t.point g p = { s.point g p with count := v, preset := none }) :=
  ⟨_, congrArg Host.Outcome.next (counterPreset_of_counting hm hc hl v), setPoint_self ..⟩

theorem freqGateEnd_completes {s : State} {g p : Fin 8} (hm : dpIsIn (s.point g p).mode = true)
    (hc : (s.dpCfg g p).count ≠ 0) (hl : s.live (groupFn g) = true) :
    ((s.point g p).edges.length < 2 → Completes (.freqGateEnd g p) s (fun t =>
      t.point g p = { s.point g p with freq := 0, freqOver := false, edges := [] }))
    ∧ (2 ≤ (s.point g p).edges.length → (s.point g p).edges.headD 0 < (s.point g p).edges.getLastD 0 →
      Completes (.freqGateEnd g p) s (fun t =>
        (t.point g p).edges = [] ∧ (t.point g p).count = (s.point g p).count
          ∧ (t.point g p).freq = F32.ofRat ((((s.point g p).edges.length - 1) * 10000000 : Nat) : Int)
              ((s.point g p).edges.getLastD 0 - (s.point g p).edges.headD 0))) :=
  ⟨fun few => ⟨_, congrArg Host.Outcome.next (freqGate_of_few hm hc hl few), setPoint_self ..⟩,
    fun two span => ⟨_, rfl, freqGate_of_span hm hc hl two span⟩⟩

theorem filterClock_completes {s : State} {clk : Fin 2} (samples : BitVec 64) {g p : Fin 8}
    (hm : dpIsIn (s.point g p).mode = true) (hc : (s.dpCfg g p).filtClk = clk) (hl : s.live (groupFn g) = true) :
    Completes (.filterClock clk samples) s (fun t =>
      (t.point g p).raw = samples.getLsbD (8 * g + p)
        ∧ (t.point g p).c = (if samples.getLsbD (8 * g + p) then
            (if (s.point g p).c < (s.dpCfg g p).filtN then (s.point g p).c + 1 else (s.point g p).c)
            else (s.point g p).c - 1)
        ∧ (t.point g p).state = (if (t.point g p).c = 0 then false
            else if (t.point g p).c = (s.dpCfg g p).filtN then true else (s.point g p).state)) := by
  obtain ⟨now, clocked⟩ := filterClock_point samples g.isLt p.isLt hm hc hl
  refine ⟨_, rfl, ?_⟩
  beta_reduce
  rw [clocked]
  exact filterPoint_filter ..

theorem countEntryUpdate_completes {s : State} {g p : Fin 8} {j : Nat} (hm : dpIsIn (s.point g p).mode = true)
    (hc : (s.dpCfg g p).count ≠ 0) (hj : layIdx s (.diCount g p) = some j)
    (alone : ∀ h q : Fin 8, (h, q) ≠ (g, p) → layIdx s (.diCount h q) ≠ some j) :
    Completes .countEntryUpdate s (fun t =>
      t.pi.look j = some { val := (s.point g p).count, q := qGood } ∧ t.points = s.points) := by
  refine ⟨_, rfl, countEntries_look g.isLt p.isLt hm hc hj fun i hi other => ?_⟩
  refine alone ⟨i / 8, by omega⟩ ⟨i % 8, by omega⟩ fun same => other ?_
  obtain ⟨rfl, rfl⟩ := Prod.mk.inj same
  exact (Nat.div_add_mod i 8).symm

/-- Settles O19: each command of an input point by what it leaves of the point or of its count entry. -/
theorem digitalInputs : Obligations.DigitalInputs := by
  unfold Obligations.DigitalInputs
  exact ⟨fun s g p v => counterPreset_completes v, fun s g p => freqGateEnd_completes,
    fun s clk samples g p => filterClock_completes samples, fun s g p j => countEntryUpdate_completes⟩

end Sys2Proof.Proofs
end

section
/-! SUPPORT. What trips, retries, readback, external feed, DG_CLEAR, supply, overload and the silence watchdog do to a
digital output, to its group and to an output's watchdog (06 R175 to R177, R180, R182, R183, R188). -/

namespace Sys2Proof.Laws

open Sys2Proof Sys2Proof.Machine

/-! ### The command of an output, and its drive (06 R175, R176, R183) -/

/-- The command is read from the force, the watchdog and the output entry. -/
theorem doCommand_setPoint {g p : Nat} {u : DpSt → DpSt} {s : State} (h : ∀ x, (u x).wd = x.wd) :
    doCommand (s.setPoint g p u) g p = doCommand s g p := by
  unfold doCommand
  rw [setPoint_self, h]
  rfl

/-- The switch of an output under command `c`: a latch or a wait for a retry keeps it off. -/
def switched (c : Bool) (x : DpSt) : DpSt :=
  if x.latched then { x with on := false, tripped := false }
  else if x.tripped && c then { x with on := false }
  else { x with on := c, tripped := false }

theorem switched_eq (c : Bool) (x : DpSt) : ∃ on tripped, switched c x = { x with on := on, tripped := tripped } := by
  unfold switched
  split
  · exact ⟨_, _, rfl⟩
  · split <;> exact ⟨_, _, rfl⟩

/-- Driving an output does nothing, switches it by its command, or keeps it off in STANDBY. -/
theorem driveDo_cases (g p : Nat) (s : State) : driveDo g p s = s
    ∨ driveDo g p s = s.setPoint g p (switched (doCommand s g p))
    ∨ driveDo g p s = s.setPoint g p (fun x => { x with on := false }) := by
  unfold driveDo
  split
  · exact .inl rfl
  · split
    case h_1 | h_2 | h_3 => exact .inr (.inl rfl)
    case h_4 => exact .inr (.inr rfl)
    case h_5 => exact .inl rfl

theorem driveDo_point (g p : Nat) (s : State) :
    ∃ on tripped, (driveDo g p s).point g p = { s.point g p with on := on, tripped := tripped } := by
  obtain kept | driven | off := driveDo_cases g p s
  · exact ⟨_, _, by rw [kept]⟩
  · obtain ⟨on, tripped, h⟩ := switched_eq (doCommand s g p) (s.point g p)
    exact ⟨on, tripped, by rw [driven, setPoint_self, h]⟩
  · exact ⟨_, _, by rw [off, setPoint_self]⟩

theorem driveDo_point_other (g p : Nat) (s : State) {h q : Nat} (n : 8 * h + q ≠ 8 * g + p) :
    (driveDo g p s).point h q = s.point h q := by
  obtain kept | driven | off := driveDo_cases g p s
  · rw [kept]
  · rw [driven, setPoint_other _ _ n]
  · rw [off, setPoint_other _ _ n]

theorem driveDo_grows (g p : Nat) (s : State) : Grows s (driveDo g p s) := grows_of_silent (driveDo_view (by decide) ..)

/-- An output of an enabled, running group that neither waits nor is latched follows its command. -/
theorem driveDo_follows {g p : Nat} {s : State} (hm : (s.point g p).mode = 8) (he : s.pair.enabled = true)
    (hr : s.fnState (groupFn g) = .run) (ht : (s.point g p).tripped = false) (hl : (s.point g p).latched = false) :
    (driveDo g p s).point g p = { s.point g p with on := doCommand s g p, tripped := false } := by
  have driven : driveDo g p s = s.setPoint g p (switched (doCommand s g p)) := by
    unfold driveDo
    rw [if_neg (by simp [hm, he]), hr]
    rfl
  rw [driven, setPoint_self, switched, if_neg (by simp [hl]), if_neg (by simp [ht])]

/-! ### DP_OUT_TRIP, OUTPUT_RETRY and TRIP_FREE_TIME (06 R175) -/

theorem outTrip_retries {g p : Nat} {s : State} (hm : (s.point g p).mode = 8) (ho : (s.point g p).on = true)
    (h : (s.point g p).retries < 10) :
    outTrip g p s = raiseN Ev.DP_OUT_TRIP (dpSrc g p) ((s.point g p).retries + 1)
      (s.setPoint g p (fun y => { y with retries := y.retries + 1, on := false, tripped := true, trip6 := true })) := by
  unfold outTrip
  extract_lets x
  rw [if_neg (by simp [x, hm, ho]), if_pos h]

theorem outTrip_latches {g p : Nat} {s : State} (hm : (s.point g p).mode = 8) (ho : (s.point g p).on = true)
    (h : 10 ≤ (s.point g p).retries) :
    outTrip g p s = raiseN Ev.DP_OUT_LATCHED (dpSrc g p) 0
      (s.setPoint g p (fun y => { y with on := false, tripped := false, trip6 := false, latched := true })) := by
  unfold outTrip
  extract_lets x
  rw [if_neg (by simp [x, hm, ho]), if_neg (Nat.not_lt.2 h)]

/-- The retry ends the wait, so the output follows its command. -/
theorem outRetry_point {g p : Nat} {s : State} (hm : (s.point g p).mode = 8) (ht : (s.point g p).tripped = true)
    (hl : (s.point g p).latched = false) (he : s.pair.enabled = true) (hr : s.fnState (groupFn g) = .run) :
    (outRetry g p s).point g p = { s.point g p with on := doCommand s g p, tripped := false } := by
  have driven : outRetry g p s = driveDo g p (s.setPoint g p (fun y => { y with tripped := false })) := if_pos ht
  have follows := driveDo_follows (s := s.setPoint g p (fun y => { y with tripped := false })) (g := g) (p := p)
    (by rwa [setPoint_self]) he hr (by rw [setPoint_self]) (by rwa [setPoint_self])
  rw [driven, follows, setPoint_self, doCommand_setPoint]
  exact fun _ => rfl

theorem tripFree_of_on {g p : Nat} {s : State} (h : (s.point g p).on = true) :
    tripFree g p s = s.setPoint g p (fun y => { y with retries := 0, trip6 := false }) :=
  if_pos h

/-! ### DP_EXTERNAL_FEED and OUTPUT_READBACK (06 R177) -/

theorem extFeed_of_off {g p : Nat} {s : State} (mv : Nat) (hm : (s.point g p).mode = 8)
    (hc : doCommand s g p = false) (hf : (s.point g p).extFeed = false) :
    extFeed g p mv s = raiseN Ev.DP_EXTERNAL_FEED (dpSrc g p) mv
      (s.setPoint g p (fun y => { y with extFeed := true, readback := true })) :=
  if_neg (by simp [hm, hc, hf])

theorem outReadback_point {g p : Nat} {s : State} (level : Bool) (held : Nat) (hm : (s.point g p).mode = 8) :
    (outReadback g p level held s).point g p = { s.point g p with
      readback := level
      extFeed := if !level && decide (10000 ≤ held) then false else (s.point g p).extFeed
      noRead := if level then false
        else if doCommand s g p && decide (2000 ≤ held) && !(s.point g p).tripped && !(s.point g p).latched then true
        else (s.point g p).noRead } := by
  unfold outReadback
  rw [if_neg (by simp [hm])]
  exact setPoint_self ..

/-! ### DG_CLEAR (06 R176, R188) -/

/-- The round of DG_CLEAR for one point. -/
def dgClearRound (g : Nat) (mask : BitVec 8) (p : Nat) (t : State) : State :=
  if mask.getLsbD p then
    driveDo g p (t.setPoint g p (fun y => { y with latched := false, retries := 0, trip6 := false }))
  else t

theorem dgClear_of_role (g : Nat) (mask : BitVec 8) {r : Role} (s : State) (h : roleAtLeast r .engineer = true) :
    dgClear g mask r s = raise Ev.DP_CLEARED (dpSrc g 0) (mask.setWidth 32) (.role r)
      (forRange 8 (dgClearRound g mask) s) :=
  if_neg (by simp [h])

theorem dgClearRound_grows (g : Nat) (mask : BitVec 8) (p : Nat) (t : State) : Grows t (dgClearRound g mask p t) := by
  unfold dgClearRound
  split
  · exact (driveDo_grows ..).from_eq rfl
  · exact .refl t

theorem dgClearRound_point_other (g : Nat) (mask : BitVec 8) {p q : Nat} (t : State) (h : p ≠ q) :
    (dgClearRound g mask p t).point g q = t.point g q := by
  unfold dgClearRound
  split
  · exact (driveDo_point_other _ _ _ (by omega)).trans (setPoint_other _ _ (by omega))
  · rfl

/-- What DG_CLEAR leaves of a point is what the point's own round leaves. -/
theorem dgClearRounds_point (g : Nat) (mask : BitVec 8) {p : Nat} (hp : p < 8) (s : State) :
    ∃ u : State, u.point g p = s.point g p
      ∧ (forRange 8 (dgClearRound g mask) s).point g p = (dgClearRound g mask p u).point g p :=
  forRange_get (fun t : State => t.point g p) (fun _ t h => dgClearRound_point_other g mask t h) hp s

theorem dgClearRounds_cleared {g p : Nat} {mask : BitVec 8} (hp : p < 8) (hb : mask.getLsbD p = true) (s : State) :
    ((forRange 8 (dgClearRound g mask) s).point g p).latched = false
      ∧ ((forRange 8 (dgClearRound g mask) s).point g p).retries = 0
      ∧ ((forRange 8 (dgClearRound g mask) s).point g p).trip6 = false := by
  obtain ⟨u, -, e⟩ := dgClearRounds_point g mask hp s
  have own : dgClearRound g mask p u
      = driveDo g p (u.setPoint g p (fun y => { y with latched := false, retries := 0, trip6 := false })) := if_pos hb
  obtain ⟨on, tripped, driven⟩ := driveDo_point g p
    (u.setPoint g p (fun y => { y with latched := false, retries := 0, trip6 := false }))
  rw [e, own, driven, setPoint_self]
  exact ⟨rfl, rfl, rfl⟩

theorem dgClearRounds_kept {g p : Nat} {mask : BitVec 8} (hp : p < 8) (hb : mask.getLsbD p = false) (s : State) :
    (forRange 8 (dgClearRound g mask) s).point g p = s.point g p := by
  obtain ⟨u, hpoint, e⟩ := dgClearRounds_point g mask hp s
  have own : dgClearRound g mask p u = u := if_neg (by simp [hb])
  rw [e, own, hpoint]

/-! ### Supply and overload of a group (06 R180) -/

theorem supplyLow_sets {g : Nat} {s : State} (mv : Nat) (h : (s.group g).supplyLow = false) :
    supplyLow g mv s = raiseN Ev.DG_SUPPLY_LOW (dpSrc g 0) mv
      (s.setGroup g (fun x => { x with vf := mv, supplyLow := true })) :=
  if_neg (by simp [h])

theorem supplyOkGroup_clears {g : Nat} {s : State} (mv : Nat) (h : (s.group g).supplyLow = true) :
    supplyOkGroup g mv s = raiseN Ev.DG_SUPPLY_OK (dpSrc g 0) mv
      (s.setGroup g (fun x => { x with vf := mv, supplyLow := false })) :=
  if_pos h

/-- An output latched off by an overload. -/
def overloaded (y : DpSt) : DpSt := if y.mode = 8 then { y with on := false, tripped := false, latched := true } else y

theorem overloaded_of_output {y : DpSt} (h : y.mode = 8) :
    (overloaded y).latched = true ∧ (overloaded y).on = false := by
  unfold overloaded
  rw [if_pos h]
  exact ⟨rfl, rfl⟩

/-- The round of DG_OVERLOAD of a group for one point. -/
def overloadRound (g p : Nat) (t : State) : State := t.setPoint g p overloaded

theorem overload_group (g ma : Nat) (s : State) :
    overload g ma false s = raiseN Ev.DG_OVERLOAD (dpSrc g 0) (ma % 65536)
      (forRange 8 (overloadRound g) (s.setGroup g (fun x => { x with current := ma }))) :=
  rfl

theorem overload_module (g ma : Nat) (s : State) :
    overload g ma true s = raiseN Ev.DG_OVERLOAD (dpSrc g 0) (ma % 65536 + 65536) { s with outCurrent := ma } :=
  rfl

theorem overloads_group (g : Nat) (s : State) (h : Nat) : (forRange 8 (overloadRound g) s).group h = s.group h :=
  forRange_keeps (fun t => t.group h) (fun p t => congrArg (·.look h) (setPoint_groups t g p overloaded)) s

theorem overloads_grows (g : Nat) (s : State) : Grows s (forRange 8 (overloadRound g) s) :=
  forRange_grows (fun p t => .of_eq (congrArg RecSt.inbox (setPoint_recd t g p overloaded))) s

theorem overloads_point (g : Nat) {p : Nat} (hp : p < 8) (s : State) :
    (forRange 8 (overloadRound g) s).point g p = overloaded (s.point g p) := by
  obtain ⟨u, hu, e⟩ := forRange_get (fun t : State => t.point g p) (f := overloadRound g)
    (fun q t h => setPoint_other t overloaded (by omega)) hp s
  rw [e, overloadRound, setPoint_self, hu]

/-! ### The watchdog of an output (06 R182, R183) -/

theorem setWd_self (o : OutRef) (u : Wd → Wd) (s : State) :
    wdOf (setWd (refOfOut o) u s) (refOfOut o) = u (wdOf s (refOfOut o)) := by
  cases o with
  | ao b c => exact congrArg ChSt.wd (setCh_self ..)
  | dig g p => exact congrArg DpSt.wd (setPoint_self ..)
  | axis a => exact congrArg AxisSt.wd (setAxis_self ..)

/-- Driving an output leaves its watchdog. -/
theorem driveOut_wd (o : OutRef) (s : State) : wdOf (driveOut (refOfOut o) s) (refOfOut o) = wdOf s (refOfOut o) := by
  cases o with
  | ao b c =>
    obtain ⟨l, d, r, h⟩ := driveAo_ch b c s
    exact (congrArg ChSt.wd h).trans rfl
  | dig g p =>
    obtain ⟨on, tripped, h⟩ := driveDo_point g p s
    exact (congrArg DpSt.wd h).trans rfl
  | axis a => rfl

theorem raiseN_wd (k : EvKind) (src d : Nat) (o : OutRef) (s : State) :
    wdOf (raiseN k src d s) (refOfOut o) = wdOf s (refOfOut o) := by
  cases o with
  | ao b c => exact congrArg ChSt.wd (raiseN_ch ..)
  | dig g p => exact congrArg DpSt.wd (raiseN_point ..)
  | axis a => exact congrArg AxisSt.wd (raiseN_axis ..)

theorem setWd_grows (r : Ref) (u : Wd → Wd) (s : State) : Grows s (setWd r u s) :=
  grows_of_silent (setWd_view (by decide) ..)

theorem driveOut_grows (r : Ref) (s : State) : Grows s (driveOut r s) :=
  grows_of_silent (driveOut_view (by decide) ..)

/-- An expired watchdog keeps the instant and what was driven then. -/
theorem wdExpire_effect (o : OutRef) (s : State) :
    wdOf (wdExpire (refOfOut o) s) (refOfOut o)
        = { wdOf s (refOfOut o) with state := .expired, since := s.now, hold := drivenNow s (refOfOut o) }
      ∧ Raised Ev.WD_EXPIRED 0xFD (w32 (wdData s (refOfOut o))) s (wdExpire (refOfOut o) s) := by
  unfold wdExpire
  extract_lets h
  refine ⟨?_, raised_of_growsN ((setWd_grows ..).trans (driveOut_grows ..)) ..⟩
  rw [raiseN_wd, driveOut_wd, setWd_self]

theorem wdTimeout_of_running {o : OutRef} {s : State} (hu : outInUse s o = true)
    (hr : (wdOf s (refOfOut o)).state = .run) : wdTimeout o s = wdExpire (refOfOut o) s :=
  if_pos (by simp [hu, hr])

end Sys2Proof.Laws
end

section
/-! CERTIFICATE. Trips, retries, readback and clearing of digital outputs (06 R175 to R177, R188). -/

namespace Sys2Proof.Proofs

open Sys2Proof Sys2Proof.Machine Sys2Proof.Laws

theorem dpOutTrip_completes {s : State} {g p : Fin 8} (hm : (s.point g p).mode = 8) (ho : (s.point g p).on = true) :
    ((s.point g p).retries < 10 → Completes (.dpOutTrip g p) s (fun t =>
      t.point g p
          = { s.point g p with retries := (s.point g p).retries + 1, on := false, tripped := true, trip6 := true }
        ∧ Raised Ev.DP_OUT_TRIP (dpSrc g p) (w32 ((s.point g p).retries + 1)) s t))
    ∧ (10 ≤ (s.point g p).retries → Completes (.dpOutTrip g p) s (fun t =>
      t.point g p = { s.point g p with on := false, tripped := false, trip6 := false, latched := true }
        ∧ Raised Ev.DP_OUT_LATCHED (dpSrc g p) 0 s t)) :=
  ⟨fun few => ⟨_, congrArg Host.Outcome.next (outTrip_retries hm ho few), setPoint_raiseN_effect ..⟩,
    fun ten => ⟨_, congrArg Host.Outcome.next (outTrip_latches hm ho ten), setPoint_raiseN_effect ..⟩⟩

theorem tripFreeTime_completes {s : State} {g p : Fin 8} (ho : (s.point g p).on = true) :
    Completes (.tripFreeTime g p) s (fun t =>
      t.point g p = { s.point g p with retries := 0, trip6 := false } ∧ t.recd = s.recd) :=
  ⟨_, congrArg Host.Outcome.next (tripFree_of_on ho), setPoint_self .., rfl⟩

theorem dpExternalFeed_completes {s : State} {g p : Fin 8} (mv : Nat) (hm : (s.point g p).mode = 8)
    (hc : doCommand s g p = false) (hf : (s.point g p).extFeed = false) :
    Completes (.dpExternalFeed g p mv) s (fun t =>
      t.point g p = { s.point g p with extFeed := true, readback := true }
        ∧ Raised Ev.DP_EXTERNAL_FEED (dpSrc g p) (w32 mv) s t) :=
  ⟨_, congrArg Host.Outcome.next (extFeed_of_off mv hm hc hf), setPoint_raiseN_effect ..⟩

theorem outputReadback_completes {s : State} {g p : Fin 8} (held : Nat) (hm : (s.point g p).mode = 8) :
    Completes (.outputReadback g p true held) s (fun t =>
      t.point g p = { s.point g p with readback := true, noRead := false })
    ∧ Completes (.outputReadback g p false held) s (fun t =>
      (t.point g p).readback = false ∧ (10000 ≤ held → (t.point g p).extFeed = false)
        ∧ (doCommand s g p = true → 2000 ≤ held → (s.point g p).tripped = false → (s.point g p).latched = false →
            (t.point g p).noRead = true)) := by
  refine ⟨⟨_, rfl, outReadback_point true held hm⟩, _, rfl, ?_⟩
  beta_reduce
  rw [outReadback_point false held hm]
  refine ⟨rfl, fun long => if_pos (by simp [long]), fun on stood untripped unlatched => ?_⟩
  simp [on, stood, untripped, unlatched]

theorem dgClear_completes (s : State) (g : Fin 8) (mask : BitVec 8) {r : Role} (h : roleAtLeast r .engineer = true) :
    Completes (.dgClear g mask r) s (fun t =>
      (∀ p : Fin 8, mask.getLsbD p = true →
        (t.point g p).latched = false ∧ (t.point g p).retries = 0 ∧ (t.point g p).trip6 = false)
      ∧ (∀ p : Fin 8, mask.getLsbD p = false → t.point g p = s.point g p)
      ∧ Raised Ev.DP_CLEARED (dpSrc g 0) (mask.setWidth 32) s t) := by
  refine ⟨_, congrArg Host.Outcome.next (dgClear_of_role g mask s h), fun p hb => ?_, fun p hb => ?_,
    raised_of_grows (forRange_grows (dgClearRound_grows g mask) s) ..⟩
  · rw [raise_point]
    exact dgClearRounds_cleared p.isLt hb s
  · rw [raise_point]
    exact dgClearRounds_kept p.isLt hb s

/-- Settles O20: each command of an output point by what it leaves of the point and the event that it raises. -/
theorem digitalOutputs : Obligations.DigitalOutputs := by
  unfold Obligations.DigitalOutputs
  exact ⟨fun s g p => dpOutTrip_completes,
    fun s g p hm ht hl he hr => ⟨_, rfl, outRetry_point hm ht hl he hr⟩,
    fun s g p => tripFreeTime_completes, fun s g p mv => dpExternalFeed_completes mv,
    fun s g p held => outputReadback_completes held, fun s g mask r => dgClear_completes s g mask⟩

end Sys2Proof.Proofs
end

section
/-! CERTIFICATE. Supply and overload of a group, and the silence watchdog (06 R180, R182, R183, R191). -/

namespace Sys2Proof.Proofs

open Sys2Proof Sys2Proof.Machine Sys2Proof.Laws

theorem dgSupplyLow_completes {s : State} {g : Fin 8} (mv : Nat) (h : (s.group g).supplyLow = false) :
    Completes (.dgSupplyLow g mv) s (fun t => t.group g = { s.group g with vf := mv, supplyLow := true }
      ∧ Raised Ev.DG_SUPPLY_LOW (dpSrc g 0) (w32 mv) s t) :=
  ⟨_, congrArg Host.Outcome.next (supplyLow_sets mv h), setGroup_raiseN_effect ..⟩

theorem dgSupplyOk_completes {s : State} {g : Fin 8} (mv : Nat) (h : (s.group g).supplyLow = true) :
    Completes (.dgSupplyOk g mv) s (fun t => t.group g = { s.group g with vf := mv, supplyLow := false }
      ∧ Raised Ev.DG_SUPPLY_OK (dpSrc g 0) (w32 mv) s t) :=
  ⟨_, congrArg Host.Outcome.next (supplyOkGroup_clears mv h), setGroup_raiseN_effect ..⟩

theorem dgOverload_group_completes (s : State) (g : Fin 8) (ma : Nat) :
    Completes (.dgOverload g ma false) s (fun t => (t.group g).current = ma
      ∧ (∀ p : Fin 8, (s.point g p).mode = 8 → (t.point g p).latched = true ∧ (t.point g p).on = false)
      ∧ Raised Ev.DG_OVERLOAD (dpSrc g 0) (w32 (ma % 65536)) s t) := by
  have grown := overloads_grows g (s.setGroup g (fun x => { x with current := ma }))
  refine ⟨_, congrArg Host.Outcome.next (overload_group g ma s), ?_, fun p hm => ?_,
    raised_of_growsN (grown.from_eq rfl) ..⟩
  · rw [raiseN_group, overloads_group, setGroup_self]
  · rw [raiseN_point, overloads_point _ p.isLt]
    exact overloaded_of_output hm

theorem dgOverload_module_completes (s : State) (g : Fin 8) (ma : Nat) :
    Completes (.dgOverload g ma true) s (fun t => t.outCurrent = ma ∧ t.points = s.points
      ∧ Raised Ev.DG_OVERLOAD (dpSrc g 0) (w32 (ma % 65536 + 65536)) s t) :=
  ⟨_, congrArg Host.Outcome.next (overload_module g ma s), raiseN_outCurrent .., raiseN_points ..,
    raised_of_growsN (.of_eq rfl) ..⟩

theorem wdExpired_completes {s : State} {o : OutRef} (hu : outInUse s o = true)
    (hr : (wdOf s (refOfOut o)).state = .run) :
    Completes (.wdExpired o) s (fun t =>
      wdOf t (refOfOut o)
          = { wdOf s (refOfOut o) with state := .expired, since := s.now, hold := drivenNow s (refOfOut o) }
        ∧ Raised Ev.WD_EXPIRED 0xFD (w32 (wdData s (refOfOut o))) s t) :=
  ⟨_, congrArg Host.Outcome.next (wdTimeout_of_running hu hr), wdExpire_effect o s⟩

/-- Settles O21: each condition of a group by what it stores, switches and raises, and the expiry of a watchdog. -/
theorem groupsAndWatchdogs : Obligations.GroupsAndWatchdogs := by
  unfold Obligations.GroupsAndWatchdogs
  exact ⟨fun s g mv => dgSupplyLow_completes mv, fun s g mv => dgSupplyOk_completes mv,
    fun s g ma => ⟨dgOverload_group_completes s g ma, dgOverload_module_completes s g ma⟩,
    fun s o => wdExpired_completes⟩

end Sys2Proof.Proofs
end

section
/-! SUPPORT. The links, ports and match units, and what leaves the module on the ring: what each update writes and what
it leaves (07 R200, R205; 15 R483). -/

namespace Sys2Proof.Laws

open Sys2Proof Sys2Proof.Machine

/-! ### Ring ports -/

theorem portNo_otherPort_ne (p : Port) : portNo (otherPort p) ≠ portNo p := by cases p <;> decide

@[simp] theorem setPort_self (p : Port) (u : PortSt → PortSt) (s : State) : portOf (setPort p u s) p = u (portOf s p) :=
  Tab.look_upd_self ..

@[simp] theorem setPort_otherPort (p : Port) (u : PortSt → PortSt) (s : State) :
    portOf (setPort p u s) (otherPort p) = portOf s (otherPort p) :=
  Tab.look_upd_of_ne _ _ (portNo_otherPort_ne p)

theorem portOf_of_view {s t : State} (e : view N.mmpRest t = view N.mmpRest s) (p : Port) :
    portOf t p = portOf s p := by
  rw [portOf, mmp_ports_read, e, ← mmp_ports_read, portOf]

theorem sent_of_view {s t : State} (e : view N.mmpRest t = view N.mmpRest s) : t.mmp.sent = s.mmp.sent := by
  rw [mmp_sent_read, e, ← mmp_sent_read]

@[simp] theorem raiseN_sent (k : EvKind) (src d : Nat) (s : State) : (raiseN k src d s).mmp.sent = s.mmp.sent :=
  sent_of_view (raiseN_view (by decide) ..)

@[simp] theorem raiseN_portOf (k : EvKind) (src d : Nat) (s : State) (p : Port) :
    portOf (raiseN k src d s) p = portOf s p :=
  portOf_of_view (raiseN_view (by decide) ..) p

@[simp] theorem raiseIf_portOf (b : Bool) (k : EvKind) (src d : Nat) (s : State) (p : Port) :
    portOf (raiseIf b k src d s) p = portOf s p :=
  portOf_of_view (raiseIf_view (by decide) ..) p

/-! ### What is sent -/

@[simp] theorem send_sent (o : RingOut) (s : State) : (send o s).mmp.sent = o :: s.mmp.sent := by
  cases o <;> rfl

@[simp] theorem send_tu (o : RingOut) (s : State) : (send o s).tu = s.tu :=
  tu_of_view (m := N.tu) (send_view (by decide) ..) (by decide)

@[simp] theorem send_linkOf (o : RingOut) (s : State) (p : Port) : linkOf (send o s) p = linkOf s p :=
  congrArg (fun t : TimeSt => t.links.look (portNo p)) (send_tu o s)

/-- A frame sent on a port moves only the port's count of sent frames. -/
theorem countTx_port (p : Port) (s : State) : ∃ n, portOf (countTx p s) p = { portOf s p with tx := n } := by
  have counted : portOf (countTx p s) p
      = if (portOf s p).up then { portOf s p with tx := wrap32 ((portOf s p).tx + 1) } else portOf s p :=
    Tab.look_upd_self ..
  rw [counted]
  split
  · exact ⟨_, rfl⟩
  · exact ⟨_, rfl⟩

/-! ### Links -/

@[simp] theorem setLink_self (p : Port) (u : LinkSt → LinkSt) (s : State) : linkOf (setLink p u s) p = u (linkOf s p) :=
  Tab.look_upd_self ..

@[simp] theorem setLink_otherPort (p : Port) (u : LinkSt → LinkSt) (s : State) :
    linkOf (setLink p u s) (otherPort p) = linkOf s (otherPort p) :=
  Tab.look_upd_of_ne _ _ (portNo_otherPort_ne p)

@[simp] theorem raiseN_linkOf (k : EvKind) (src d : Nat) (s : State) (p : Port) :
    linkOf (raiseN k src d s) p = linkOf s p :=
  congrArg (fun t : TimeSt => t.links.look (portNo p)) (raiseN_tu ..)

@[simp] theorem raiseIf_linkOf (b : Bool) (k : EvKind) (src d : Nat) (s : State) (p : Port) :
    linkOf (raiseIf b k src d s) p = linkOf s p :=
  congrArg (fun t : TimeSt => t.links.look (portNo p)) (raiseIf_tu ..)

/-- The choice of the time port leaves the links. -/
@[simp] theorem updatePort_linkOf (s : State) (p : Port) : linkOf (updatePort s) p = linkOf s p := by
  unfold updatePort
  dsimp only
  split
  · rfl
  · exact raiseIf_linkOf ..

@[simp] theorem linkLost_self (p : Port) (s : State) :
    linkOf (linkLost p s) p = { linkOf s p with valid := false, validRun := 0 } := by
  rw [linkLost, updatePort_linkOf, raiseIf_linkOf, setLink_self]

@[simp] theorem linkLost_otherPort (p : Port) (s : State) :
    linkOf (linkLost p s) (otherPort p) = linkOf s (otherPort p) := by
  rw [linkLost, updatePort_linkOf, raiseIf_linkOf, setLink_otherPort]

@[simp] theorem linkLost_sent (p : Port) (s : State) : (linkLost p s).mmp.sent = s.mmp.sent :=
  sent_of_view (linkLost_view (by decide) ..)

@[simp] theorem linkLost_portOf (p q : Port) (s : State) : portOf (linkLost p s) q = portOf s q :=
  portOf_of_view (linkLost_view (by decide) ..) q

/-! ### Match units (07 R200) -/

@[simp] theorem setUnit_self (n : Nat) (u : MatchSt → MatchSt) (s : State) : unitOf (setUnit n u s) n = u (unitOf s n) :=
  Tab.look_upd_self ..

/-- A match unit that has fired (07 R200). -/
def firedUnit (late stepped : Bool) (u : MatchSt) : MatchSt :=
  { u with
    late := late, stepped := stepped, firings := satInc top16 u.firings
    target := if u.period = 0 then u.target else u.target + u.period
    armed := u.period != 0 }

theorem fireUnit_self (n : Nat) (late stepped : Bool) (s : State) :
    unitOf (fireUnit n late stepped s) n = firedUnit late stepped (unitOf s n) := by
  have raised : unitOf (raiseN Ev.TU_MATCH 0xCA (n + 256 * b2n late + 512 * b2n stepped) s) n = unitOf s n :=
    congrArg (fun t : TimeSt => t.units.look n) (raiseN_tu ..)
  unfold fireUnit
  extract_lets u s1 mask s2
  have acted : unitOf s2 n = unitOf s n := by
    unfold s2
    split
    · exact raised
    · split
      · exact raised
      · exact raised
  rw [setUnit_self, acted, firedUnit]

theorem fireUnit_raised (n : Nat) (late stepped : Bool) (s : State) :
    Raised Ev.TU_MATCH 0xCA (w32 (n + 256 * b2n late + 512 * b2n stepped)) s (fireUnit n late stepped s) := by
  refine raised_raiseN (u := s) rfl ?_
  unfold fireUnit
  dsimp only
  split
  · rfl
  · split
    · rfl
    · rfl

/-- The time unit without what a match unit changes as it fires: the units and the capture enables. -/
def sansUnits (t : TimeSt) : TimeSt := { t with units := [], capEnSet := none }

theorem fireUnit_sansUnits (n : Nat) (late stepped : Bool) (s : State) :
    sansUnits (fireUnit n late stepped s).tu = sansUnits s.tu := by
  unfold fireUnit
  dsimp only
  split
  · simp [sansUnits, setUnit]
  · split
    · simp [sansUnits, setUnit]
    · simp [sansUnits, setUnit]

theorem unitsAfterStep_sansUnits (s : State) : sansUnits (unitsAfterStep s).tu = sansUnits s.tu := by
  refine forRange_keeps (fun t : State => sansUnits t.tu) (fun n t => ?_) s
  split
  · exact fireUnit_sansUnits ..
  · rfl

end Sys2Proof.Laws
end

section
/-! SUPPORT. Link delays, the arming of match units, and the capture FIFO (07 R199, R205, R216, R217). -/

namespace Sys2Proof.Laws

open Sys2Proof Sys2Proof.Machine

/-! ### Link delays (07 R205) -/

/-- The missing answers of a link at the start of a measurement. -/
def missedAnswers (l : LinkSt) : Nat := if l.pending.isSome then l.missing + 1 else l.missing

/-- The third missing answer takes the link's delay, and nothing of what the start has stored. -/
theorem pdelayStart_cases {p : Port} (e : Int) {s : State} (h : s.live .ring = true) :
    ∃ u : State, pdelayStart p e s = send (.pdelayReq p (((linkOf s p).seq + 1) % 65536)) u ∧ u.mmp.sent = s.mmp.sent
      ∧ ∃ valid run, linkOf u p = { linkOf s p with
          missing := missedAnswers (linkOf s p), seq := ((linkOf s p).seq + 1) % 65536
          pending := some (((linkOf s p).seq + 1) % 65536), t1 := corrOut s p e, valid := valid, validRun := run } := by
  unfold pdelayStart
  rw [if_neg (by simp [h])]
  extract_lets l missing seq s1 s2
  have started : linkOf s1 p = { l with missing := missing, seq := seq, pending := some seq, t1 := corrOut s p e } :=
    setLink_self ..
  refine ⟨s2, rfl, ?_, ?_⟩
  · unfold s2
    split
    · exact linkLost_sent p s1
    · rfl
  · unfold s2
    split
    · exact ⟨_, _, by rw [linkLost_self, started]; rfl⟩
    · exact ⟨_, _, started⟩

/-- The link delay of a completed measurement. -/
def linkDelay (s : State) (p : Port) (corr t2 t3 t4 : Int) : Int :=
  ((corrIn s p t4 - (linkOf s p).t1) - (t3 - t2) - corr) / 2

/-- A measurement that completes may take the link's delay or give it, but nothing else of what it has stored. -/
theorem pdelayRespIn_link {p : Port} {seq : Nat} (corr t2 t3 t4 : Int) {s : State} (hl : s.live .ring = true)
    (hp : (linkOf s p).pending = some seq) :
    (∃ valid run, linkOf (pdelayRespIn p seq corr t2 t3 t4 s) p = { linkOf s p with
        pending := none, missing := 0, delays := (linkDelay s p corr t2 t3 t4 :: (linkOf s p).delays).take 8
        valid := valid, validRun := run })
      ∧ linkOf (pdelayRespIn p seq corr t2 t3 t4 s) (otherPort p) = linkOf s (otherPort p) := by
  unfold pdelayRespIn
  extract_lets l d s1 mean run s2
  rw [if_neg (by simp [l, hp, hl])]
  have stored : linkOf s1 p = { linkOf s p with
      pending := none, missing := 0, delays := (linkDelay s p corr t2 t3 t4 :: (linkOf s p).delays).take 8 } :=
    setLink_self ..
  have other : linkOf s1 (otherPort p) = linkOf s (otherPort p) := setLink_otherPort ..
  split
  · exact ⟨⟨_, _, by rw [linkLost_self, setLink_self, stored]⟩, by rw [linkLost_otherPort, setLink_otherPort, other]⟩
  · split
    · exact ⟨⟨_, _, by rw [updatePort_linkOf, raiseN_linkOf, setLink_self, setLink_self, stored]⟩,
        by rw [updatePort_linkOf, raiseN_linkOf, setLink_otherPort, setLink_otherPort, other]⟩
    · exact ⟨⟨_, _, by rw [setLink_self, stored]⟩, by rw [setLink_otherPort, other]⟩

/-! ### Arming a match unit (07 R199) -/

/-- A match unit that has been armed (07 R200). -/
def armedUnit (u : MatchSt) : MatchSt := { u with armed := true, firings := 0, late := false, stepped := false }

theorem armUnit_ahead {n : Nat} {s : State} (h : 0 < sdiff32 (unitOf s n).target (shortTime s)) :
    armUnit n s = setUnit n armedUnit s := by
  unfold armUnit
  rw [if_neg (by omega)]
  rfl

theorem armUnit_behind {n : Nat} {s : State} (h : sdiff32 (unitOf s n).target (shortTime s) ≤ 0) :
    armUnit n s = fireUnit n true false (setUnit n armedUnit s) := by
  unfold armUnit
  rw [if_pos h]
  rfl

theorem matchArm_of_role {n : Nat} {r : Role} {s : State} (hr : roleAtLeast r .engineer = true)
    (hl : s.live .time = true) : matchArm n r s = armUnit n s :=
  if_pos (by simp [hr, hl])

theorem matchReached_of_armed {n : Nat} {s : State} (ha : (unitOf s n).armed = true) (hl : s.live .time = true) :
    matchReached n s = fireUnit n false false s :=
  if_pos (by simp [ha, hl])

/-! ### The capture FIFO (07 R216 to R219) -/

/-- A capture entry as the FIFO takes it: with the state of the time unit, its number and its consumers (07 R216). -/
def capStored (e : CapEntry) (s : State) : CapEntry :=
  { e with
    timeValid := s.tu.valid, locked := s.tu.servo == .locked, stepped := s.tu.steppedSince
    lostBefore := s.tu.capEpisode != 0, seq := s.tu.capSeq, forAlarm := s.running .alarm
    forLogic := s.img.time.capLogic == 1 && s.running .logic }

theorem capWrite_of_room (e : CapEntry) (soe : Bool) {s : State} (h : (fifoHeld s).length < 1024) :
    (capWrite e soe s).tu.capSeq = (s.tu.capSeq + 1) % 65536
      ∧ (capWrite e soe s).tu.newest = (capStored e s :: s.tu.newest).take 64 := by
  unfold capWrite
  extract_lets u lost after stored keep fill s1 s2
  have written : s2.tu = s1.tu := raiseIf_tu ..
  have told : ∀ x, (if soe && u.running .recorder then
      raiseAt x Ev.CAP_EDGE stored.source (w32 (capWord2 stored)) .module s2 else s2).tu = s1.tu := fun x => by
    split
    · exact (tu_of_view (m := N.tu) (raiseAt_view (by decide) ..) (by decide)).trans written
    · exact written
  have room : ¬ 1024 ≤ u.tu.fifo.length := Nat.not_le.2 h
  rw [if_neg room, told]
  exact ⟨rfl, rfl⟩

theorem capWrite_of_full (e : CapEntry) (soe : Bool) {s : State} (h : 1024 ≤ (fifoHeld s).length) :
    (capWrite e soe s).tu = { s.tu with
      fifo := fifoHeld s, capLost := satInc top32 s.tu.capLost, capEpisode := s.tu.capEpisode + 1
      capOver := true } := by
  unfold capWrite
  extract_lets u lost
  have full : 1024 ≤ u.tu.fifo.length := h
  rw [if_pos full, raiseIf_tu]
  rfl

/-- The entry of an edge at a digital point (07 R214, R216). -/
def edgeEntry (s : State) (g p latched : Nat) (rising : Bool) (dur : Nat) : CapEntry :=
  { stamp := stampOf latched (capDelay s (8 * g + p)), source := 0x80 + (8 * g + p), bit8 := rising, kind := .digital
    short := decide (dur < filtNs (s.dpCfg g p)), word3 := w32 (min dur top32) }

theorem capture_edge {g p : Nat} (latched : Nat) (rising : Bool) (dur : Nat) {s : State} (hr : s.running .time = true)
    (hi : 8 * g + p < 64) (he : (capEn s).getLsbD (8 * g + p) = true) :
    ∃ soe, capture (.edge g p latched rising dur) s = capWrite (edgeEntry s g p latched rising dur) soe s := by
  unfold capture
  rw [if_neg (by simp [hr])]
  exact ⟨_, if_pos (by simp [hi, he])⟩

/-- The entry of a start of frame on a CAN controller (07 R216). -/
def sofEntry (s : State) (k : Nat) : CapEntry :=
  { stamp := s.tu.time, source := 0xC4 + k, kind := .can, word3 := canStampNow s }

theorem capture_sof {k : Nat} {s : State} (hr : s.running .time = true) (hk : k < 4)
    (hb : bitOf k s.img.time.capCan = true) : capture (.sof k) s = capWrite (sofEntry s k) false s := by
  unfold capture
  rw [if_neg (by simp [hr])]
  exact if_pos (by simp [hk, hb])

end Sys2Proof.Laws
end

section
/-! CERTIFICATE. Link delays, the CAN relation, match units and captures (07 R195, R197 to R200, R205, R213 to R219). -/

namespace Sys2Proof.Proofs

open Sys2Proof Sys2Proof.Machine Sys2Proof.Laws

theorem pdelayReq_completes {p : Port} (seq : Nat) (corr i e : Int) {s : State} (h : s.live .ring = true) :
    Completes (.pdelayReq p seq corr i e) s (fun t =>
      t.mmp.sent = .pdelayResp p seq (corr + (corrOut s p e - corrIn s p i)) :: s.mmp.sent ∧ t.tu = s.tu) :=
  ⟨_, congrArg Host.Outcome.next (if_pos h), send_sent .., send_tu ..⟩

theorem pdelayMeasurement_completes {p : Port} (e : Int) {s : State} (h : s.live .ring = true) :
    Completes (.pdelayMeasurement p e) s (fun t =>
      (linkOf t p).seq = ((linkOf s p).seq + 1) % 65536 ∧ (linkOf t p).pending = some (((linkOf s p).seq + 1) % 65536)
        ∧ (linkOf t p).t1 = corrOut s p e ∧ (linkOf t p).missing = missedAnswers (linkOf s p)
        ∧ t.mmp.sent = .pdelayReq p (((linkOf s p).seq + 1) % 65536) :: s.mmp.sent) := by
  obtain ⟨u, started, sent, valid, run, link⟩ := pdelayStart_cases (p := p) e h
  refine ⟨_, congrArg Host.Outcome.next started, ?_⟩
  beta_reduce
  rw [send_linkOf, link, send_sent, sent]
  exact ⟨rfl, rfl, rfl, rfl, rfl⟩

theorem pdelayResp_completes {p : Port} {seq : Nat} (corr t2 t3 t4 : Int) {s : State} (hl : s.live .ring = true)
    (hp : (linkOf s p).pending = some seq) :
    Completes (.pdelayResp p seq corr t2 t3 t4) s (fun t =>
      (linkOf t p).pending = none ∧ (linkOf t p).missing = 0
        ∧ (linkOf t p).delays = (linkDelay s p corr t2 t3 t4 :: (linkOf s p).delays).take 8
        ∧ linkOf t (otherPort p) = linkOf s (otherPort p)) := by
  obtain ⟨⟨valid, run, link⟩, other⟩ := pdelayRespIn_link corr t2 t3 t4 hl hp
  refine ⟨_, rfl, ?_⟩
  beta_reduce
  rw [link]
  exact ⟨rfl, rfl, rfl, other⟩

theorem matchArm_ahead_completes {n : Fin 8} {r : Role} {s : State} (hr : roleAtLeast r .engineer = true)
    (hl : s.live .time = true) (h : 0 < sdiff32 (unitOf s n).target (shortTime s)) :
    Completes (.matchArm n r) s (fun t => unitOf t n = armedUnit (unitOf s n) ∧ t.recd = s.recd) :=
  ⟨_, congrArg Host.Outcome.next ((matchArm_of_role hr hl).trans (armUnit_ahead h)), setUnit_self .., rfl⟩

theorem matchArm_behind_completes {n : Fin 8} {r : Role} {s : State} (hr : roleAtLeast r .engineer = true)
    (hl : s.live .time = true) (h : sdiff32 (unitOf s n).target (shortTime s) ≤ 0) :
    Completes (.matchArm n r) s (fun t =>
      (unitOf t n).late = true ∧ (unitOf t n).firings = 1 ∧ Raised Ev.TU_MATCH 0xCA (w32 (n + 256)) s t) := by
  refine ⟨_, congrArg Host.Outcome.next ((matchArm_of_role hr hl).trans (armUnit_behind h)), ?_⟩
  beta_reduce
  rw [fireUnit_self, setUnit_self]
  exact ⟨rfl, rfl, fireUnit_raised n.val true false (setUnit n armedUnit s)⟩

theorem tuMatch_completes {n : Fin 8} {s : State} (ha : (unitOf s n).armed = true) (hl : s.live .time = true) :
    Completes (.tuMatch n) s (fun t =>
      unitOf t n = firedUnit false false (unitOf s n) ∧ Raised Ev.TU_MATCH 0xCA (w32 n) s t) :=
  ⟨_, congrArg Host.Outcome.next (matchReached_of_armed ha hl), fireUnit_self .., fireUnit_raised n.val false false s⟩

theorem captureEdge_completes {g p : Nat} (latched dur : Nat) (rising : Bool) {s : State} (hr : s.running .time = true)
    (hi : 8 * g + p < 64) (he : (capEn s).getLsbD (8 * g + p) = true) (h : (fifoHeld s).length < 1024) :
    Completes (.firstOutCapture (.edge g p latched rising dur)) s (fun t =>
      t.tu.capSeq = (s.tu.capSeq + 1) % 65536
        ∧ ∃ e : CapEntry, t.tu.newest = (e :: s.tu.newest).take 64 ∧ e.stamp = stampOf latched (capDelay s (8 * g + p))
          ∧ e.source = 0x80 + (8 * g + p) ∧ e.bit8 = rising ∧ e.seq = s.tu.capSeq ∧ e.kind = .digital) := by
  obtain ⟨soe, written⟩ := capture_edge latched rising dur hr hi he
  obtain ⟨seq, newest⟩ := capWrite_of_room (edgeEntry s g p latched rising dur) soe h
  exact ⟨_, congrArg Host.Outcome.next written, seq, _, newest, rfl, rfl, rfl, rfl, rfl⟩

theorem captureSof_completes {c : Fin 4} {s : State} (hr : s.running .time = true)
    (hb : bitOf c s.img.time.capCan = true) (h : (fifoHeld s).length < 1024) :
    Completes (.firstOutCapture (.sof c)) s (fun t =>
      t.tu.capSeq = (s.tu.capSeq + 1) % 65536
        ∧ ∃ e : CapEntry, t.tu.newest = (e :: s.tu.newest).take 64 ∧ e.stamp = s.tu.time ∧ e.source = 0xC4 + c
          ∧ e.kind = .can ∧ e.word3 = w32 (s.now / 25)) := by
  obtain ⟨seq, newest⟩ := capWrite_of_room (sofEntry s c) false h
  exact ⟨_, congrArg Host.Outcome.next (capture_sof hr c.isLt hb), seq, _, newest, rfl, rfl, rfl, rfl⟩

theorem captureEdge_full_completes {g p : Nat} (latched dur : Nat) (rising : Bool) {s : State}
    (hr : s.running .time = true) (hi : 8 * g + p < 64) (he : (capEn s).getLsbD (8 * g + p) = true)
    (h : 1024 ≤ (fifoHeld s).length) :
    Completes (.firstOutCapture (.edge g p latched rising dur)) s (fun t =>
      t.tu.capLost = satInc top32 s.tu.capLost ∧ t.tu.fifo = fifoHeld s ∧ t.tu.newest = s.tu.newest) := by
  obtain ⟨soe, written⟩ := capture_edge latched rising dur hr hi he
  refine ⟨_, congrArg Host.Outcome.next written, ?_⟩
  beta_reduce
  rw [capWrite_of_full _ soe h]
  exact ⟨rfl, rfl, rfl⟩

/-- Settles O23: each command of a link, of the CAN relation, of a match unit and of a capture by what it stores. -/
theorem linkDelays : Obligations.LinkDelays := by
  unfold Obligations.LinkDelays
  refine ⟨fun s p seq corr i e => pdelayReq_completes seq corr i e, fun s p e => pdelayMeasurement_completes e,
    fun s p seq corr t2 t3 t4 => pdelayResp_completes corr t2 t3 t4, fun s => ⟨_, rfl, rfl⟩, fun s => ⟨_, rfl, rfl⟩,
    fun s n r => matchArm_ahead_completes, fun s n r => matchArm_behind_completes, fun s n => tuMatch_completes,
    fun s g p latched dur rising => captureEdge_completes latched dur rising, fun s c => captureSof_completes, ?_⟩
  rintro s _ g p latched dur rising rfl
  exact captureEdge_full_completes latched dur rising

end Sys2Proof.Proofs
end

section
/-! CERTIFICATE. A step takes the command at the front of the queue (07 R193; 95_what_each_step_holds.md). -/

namespace Sys2Proof.Proofs

open Sys2Proof Sys2Proof.Machine

/-- Settles O49: a step by the two forms of the queue. -/
theorem stepTakesFront : Obligations.StepTakesFront := by
  unfold Obligations.StepTakesFront
  refine ⟨fun c r s waiting => ?_, fun s empty => ?_⟩
  · rw [step, waiting]
  · rw [step, empty]

end Sys2Proof.Proofs
end

section
/-! SUPPORT. The servo, the choice of the master and the transparent clock (07 R202, R204, R207, R210, R211). -/

namespace Sys2Proof.Laws

open Sys2Proof Sys2Proof.Machine

/-! ### The servo (07 R210, R211) -/

theorem stepTime_sansUnits (off : Int) (s : State) : sansUnits (stepTime off s).tu = sansUnits { s.tu with
    time := s.tu.time + BitVec.ofInt 64 off, valid := true, steps := wrap32 (s.tu.steps + 1), steppedSince := true
    lockRun := 0 } := by
  rw [stepTime, unitsAfterStep_sansUnits, raiseN_tu, setTu_tu]

/-- An offset at which the servo steps the time word: any one in FREE, and one beyond 1 ms unless LOCKED (07 R210). -/
def ServoSteps (off : Int) (s : State) : Prop :=
  s.tu.servo = .free ∨ 1000000 < off.natAbs ∧ s.tu.servo ≠ .locked

/-- A step of the time word ends in LOCKING. -/
theorem servoSync_steps {off : Int} {s : State} (h : ServoSteps off s) : ∃ run,
    servoSync off s = stepTime off (s.setTu (fun t => { t with offset := off, servo := .locking, lockRun := run })) := by
  unfold servoSync
  cases servo : s.tu.servo with
  | free =>
    refine ⟨s.tu.lockRun, ?_⟩
    simp only [setTu_tu, servo]
    rfl
  | locking =>
    have far : 1000000 < off.natAbs := by simpa [ServoSteps, servo] using h
    refine ⟨s.tu.lockRun, ?_⟩
    simp only [setTu_tu, servo, if_pos far]
    congr 1
    simp only [State.setTu, servo]
  | locked => simp [ServoSteps, servo] at h
  | holdover =>
    have far : 1000000 < off.natAbs := by simpa [ServoSteps, servo] using h
    refine ⟨0, ?_⟩
    simp only [setTu_tu, servo, if_pos far]
    rfl

/-- The time unit without what the servo changes as it adjusts the rate. -/
def sansServo (t : TimeSt) : TimeSt := { t with servo := .free, adj := 0, adjs := [], lockRun := 0, unlockRun := 0 }

/-- An offset at which the servo does not step changes the rate, and of the rest of the time unit only the offset. -/
theorem servoSync_adjusts {off : Int} {s : State} (h : ¬ ServoSteps off s) :
    sansServo (servoSync off s).tu = sansServo { s.tu with offset := off } := by
  unfold servoSync
  cases servo : s.tu.servo with
  | free => simp [ServoSteps, servo] at h
  | locking =>
    have near : ¬ 1000000 < off.natAbs := by simpa [ServoSteps, servo] using h
    simp only [setTu_tu, servo, if_neg near]
    generalize (if off.natAbs ≤ 100 then s.tu.lockRun + 1 else 0) = run
    split
    · rw [raiseN_tu]; rfl
    · rfl
  | locked =>
    simp only [setTu_tu, servo]
    generalize (if 1000 < off.natAbs then s.tu.unlockRun + 1 else 0) = run
    split
    · rw [raiseN_tu]; rfl
    · rfl
  | holdover =>
    have near : ¬ 1000000 < off.natAbs := by simpa [ServoSteps, servo] using h
    simp only [setTu_tu, servo, if_neg near]
    rfl

/-- What a step of the time word leaves. -/
theorem servoSync_stepped {off : Int} {s : State} (h : ServoSteps off s) :
    sansUnits (servoSync off s).tu = sansUnits { s.tu with
      offset := off, servo := .locking, time := s.tu.time + BitVec.ofInt 64 off, valid := true
      steps := wrap32 (s.tu.steps + 1), steppedSince := true, lockRun := 0 } := by
  obtain ⟨run, stepped⟩ := servoSync_steps h
  rw [stepped, stepTime_sansUnits]
  rfl

/-- The servo takes the offset, and leaves the links and the choice of the port. -/
theorem servoSync_keeps (off : Int) (s : State) : (servoSync off s).tu.offset = off
    ∧ (servoSync off s).tu.links = s.tu.links ∧ (servoSync off s).tu.activePort = s.tu.activePort := by
  by_cases h : ServoSteps off s
  · have e := servoSync_stepped h
    exact ⟨(congrArg TimeSt.offset e :), (congrArg TimeSt.links e :), (congrArg TimeSt.activePort e :)⟩
  · have e := servoSync_adjusts h
    exact ⟨(congrArg TimeSt.offset e :), (congrArg TimeSt.links e :), (congrArg TimeSt.activePort e :)⟩

theorem servoSync_locked_time (off : Int) {s : State} (h : s.tu.servo = .locked) :
    (servoSync off s).tu.time = s.tu.time := by
  have e := servoSync_adjusts (off := off) (s := s) (by simp [ServoSteps, h])
  exact (congrArg TimeSt.time e :)

theorem servoSync_linkOf (off : Int) (s : State) (p : Port) : linkOf (servoSync off s) p = linkOf s p := by
  obtain ⟨-, links, -⟩ := servoSync_keeps off s
  rw [linkOf, links, linkOf]

/-! ### Sync on the active port (07 R204) -/

/-- The preferred port stays the active one while it serves. -/
theorem updatePort_of_serving {s : State} (ha : s.tu.activePort = portCode (prefPort s))
    (h : portServes s (prefPort s) = true) : updatePort s = s := by
  have chosen : choosePort s = s.tu.activePort := by
    unfold choosePort
    dsimp only
    rw [if_pos ha, if_pos h, ha]
  exact if_pos chosen

/-- The offset that a Sync measures (07 R210). -/
def syncOffset (s : State) (m : SyncMsg) : Int :=
  nsOf ((m.origin : Int) * 65536 + m.corr + meanDelay (linkOf s m.port) - corrIn s m.port m.ingress)

/-- The Sync counts on its link, which so serves, before the servo takes its offset. -/
theorem syncIn_measures {m : SyncMsg} {s : State} (hl : s.live .time = true) (hd : m.domain = s.img.time.domain)
    (hg : s.tu.gm = some m.gm) (hp : m.port = prefPort s) (ha : s.tu.activePort = portCode m.port)
    (hv : (linkOf s m.port).valid = true) : ∃ run : LinkSt → Nat,
      syncIn m s = servoSync (syncOffset s m) (setLink m.port (fun l =>
        { l with lastSync := some s.now, interval := m.interval, syncRun := run l }) s) := by
  unfold syncIn
  rw [if_neg (by simp [hl, hd, hg])]
  extract_lets l inTime s1 s2 master
  have link : linkOf s1 m.port = { l with
      lastSync := some s.now, interval := m.interval, syncRun := if inTime then l.syncRun + 1 else 1 } := setLink_self ..
  have pref : prefPort s1 = m.port := hp.symm
  have serves : portServes s1 (prefPort s1) = true := by
    have now : s1.now = s.now := rfl
    rw [pref, portServes, link, now]
    simp [l, hv]
  have active : s1.tu.activePort = portCode m.port := ha
  have kept : s2 = s1 := updatePort_of_serving (by rw [pref]; exact active) serves
  have measured : nsOf (master - corrIn s1 m.port m.ingress) = syncOffset s m := by
    unfold master
    rw [kept, link]
    rfl
  rw [kept, if_neg (by simp [active, link, l, hv]), measured]
  exact ⟨_, rfl⟩

/-! ### The choice of the master (07 R202) -/

/-- The members of a dataset in the order in which two datasets are compared. -/
def masterKey (x : Announce) : List Nat :=
  [x.prio1, x.clockClass, x.accuracy, x.variance, x.prio2, x.gm.toNat, x.stepsRemoved, portNo x.port]

theorem betterMaster_iff (a b : Announce) : betterMaster a b = true ↔ masterKey a < masterKey b := decide_eq_true_iff

theorem betterMaster_eq_false_iff (a b : Announce) : betterMaster a b = false ↔ masterKey b ≤ masterKey a := by
  rw [← Bool.not_eq_true, betterMaster_iff, not_lt]

theorem bestMaster_cons (a : Announce) (r : List Announce) : ∃ b, bestMaster (a :: r) = some b := by
  unfold bestMaster
  split
  · exact ⟨_, rfl⟩
  · exact ⟨_, rfl⟩

/-- The best master is one of the list, and none of the list is better. -/
theorem bestMaster_spec {l : List Announce} {b : Announce} (h : bestMaster l = some b) :
    b ∈ l ∧ ∀ x ∈ l, betterMaster x b = false := by
  induction l generalizing b with
  | nil => cases h
  | cons a r ih =>
    unfold bestMaster at h
    split at h
    · next hr =>
      have empty : r = [] := by
        cases r with
        | nil => rfl
        | cons c r =>
          obtain ⟨c, hc⟩ := bestMaster_cons c r
          cases hc.symm.trans hr
      cases h
      subst empty
      simp [betterMaster_eq_false_iff]
    · next c hc =>
      obtain ⟨hmem, hbest⟩ := ih hc
      simp only [betterMaster_eq_false_iff] at hbest ⊢
      cases h
      split
      · next hlt =>
        exact ⟨List.mem_cons_of_mem _ hmem,
          List.forall_mem_cons.2 ⟨((betterMaster_iff c a).1 hlt).le, hbest⟩⟩
      · next hge =>
        have hac := (betterMaster_eq_false_iff c a).1 (Bool.not_eq_true _ ▸ hge)
        exact ⟨List.mem_cons_self, List.forall_mem_cons.2 ⟨le_refl _, fun x hx => hac.trans (hbest x hx)⟩⟩

/-- The list of datasets once an Announce has taken the place of its sender's last one on its port (07 R202). -/
def announced (a : Announce) (s : State) : List Announce :=
  a :: s.tu.announces.filter (fun x => !(x.gm == a.gm && x.port == a.port))

theorem announceIn_chooses {a b : Announce} {s : State} (hl : s.live .time = true) (hd : a.domain = s.img.time.domain)
    (hb : bestMaster (announced a s) = some b) : ∃ run : Nat → Nat,
      announceIn a s = raiseIf (s.tu.announces.isEmpty || s.tu.gm != some b.gm) Ev.TU_GM_CHANGED 0xCA
        (b.gm.toNat % 4294967296) (s.setTu (fun t =>
          { t with announces := announced a s, gm := some b.gm, utcOffset := b.utcOffset, utcValid := b.utcValid
                   lockRun := run t.lockRun })) := by
  unfold announceIn
  rw [if_neg (by simp [hl, hd])]
  extract_lets l
  have best : bestMaster l = some b := hb
  rw [best]
  exact ⟨_, rfl⟩

/-! ### Holdover and the two-step table (07 R207, R210) -/

/-- The mean of the last adjustments, which holdover keeps (07 R210). -/
def meanAdj (t : TimeSt) : Int := if t.adjs = [] then t.adj else t.adjs.sum / (t.adjs.length : Int)

theorem holdover_holds {s : State} (h : s.tu.servo = .locking ∨ s.tu.servo = .locked) :
    holdover s = raiseN Ev.TU_HOLDOVER 0xCA 0 (s.setTu (fun t =>
      { t with servo := .holdover, adj := meanAdj s.tu, holdAt := s.now, announces := [], lockRun := 0 })) := by
  unfold holdover
  obtain locking | locked := h
  · rw [locking]
    simp only [meanAdj, List.length_eq_zero_iff]
  · rw [locked]
    simp only [meanAdj, List.length_eq_zero_iff]

theorem followUpIn_of_entry (p : Port) {src seq dom : Nat} (corr : Int) {e : TwoStep} {s : State}
    (hl : s.live .ring = true) (he : s.tu.twoStep.find? (twoStepKey src seq dom) = some e) :
    followUpIn p src seq dom corr s = send (.ptpForward (otherPort p) seq (corr + e.sum)) (s.setTu (fun t =>
      { t with twoStep := t.twoStep.filter (fun x => !twoStepKey src seq dom x), tcFwd := wrap32 (t.tcFwd + 1) })) := by
  unfold followUpIn
  rw [if_neg (by simp [hl]), he]

theorem followUpIn_of_none (p : Port) {src seq dom : Nat} (corr : Int) {s : State} (hl : s.live .ring = true)
    (he : s.tu.twoStep.find? (twoStepKey src seq dom) = none) :
    followUpIn p src seq dom corr s = followUpDrop p seq s := by
  unfold followUpIn
  rw [if_neg (by simp [hl]), he]

/-- A Follow_Up that is dropped is counted and reported, and nothing leaves the module (07 R207). -/
theorem followUpDrop_effect (p : Port) (seq : Nat) (s : State) :
    (followUpDrop p seq s).tu = { s.tu with tcDrop := wrap32 (s.tu.tcDrop + 1) }
      ∧ (followUpDrop p seq s).mmp.sent = s.mmp.sent
      ∧ Raised Ev.TC_FU_UNMATCHED (portSrc p) (w32 (seq % 65536)) s (followUpDrop p seq s) :=
  ⟨raiseN_tu .., raiseN_sent .., raised_of_growsN (.of_eq rfl) ..⟩

end Sys2Proof.Laws
end

section
/-! CERTIFICATE. Sync, holdover, Announce and Follow_Up (07 R202, R204, R207, R210, R211). -/

namespace Sys2Proof.Proofs

open Sys2Proof Sys2Proof.Machine Sys2Proof.Laws

theorem sync_completes {m : SyncMsg} {s : State} (hl : s.live .time = true) (hd : m.domain = s.img.time.domain)
    (hg : s.tu.gm = some m.gm) (hp : m.port = prefPort s) (ha : s.tu.activePort = portCode m.port)
    (hv : (linkOf s m.port).valid = true) :
    Completes (.sync m) s (fun t =>
      t.tu.offset = syncOffset s m ∧ (linkOf t m.port).lastSync = some s.now ∧ (linkOf t m.port).interval = m.interval
        ∧ t.tu.activePort = s.tu.activePort
        ∧ (s.tu.servo = .free → t.tu.servo = .locking ∧ t.tu.valid = true ∧ t.tu.steps = wrap32 (s.tu.steps + 1)
            ∧ t.tu.time = s.tu.time + BitVec.ofInt 64 t.tu.offset)
        ∧ (s.tu.servo ≠ .free → 1000000 < t.tu.offset.natAbs → s.tu.servo ≠ .locked → t.tu.servo = .locking
            ∧ t.tu.time = s.tu.time + BitVec.ofInt 64 t.tu.offset)
        ∧ (s.tu.servo = .locked → t.tu.time = s.tu.time)) := by
  obtain ⟨run, measured⟩ := syncIn_measures hl hd hg hp ha hv
  refine ⟨_, congrArg Host.Outcome.next measured, ?_⟩
  generalize syncOffset s m = off
  set u := setLink m.port (fun l => { l with lastSync := some s.now, interval := m.interval, syncRun := run l }) s
  obtain ⟨offset, -, active⟩ := servoSync_keeps off u
  rw [offset, servoSync_linkOf, setLink_self]
  refine ⟨rfl, rfl, rfl, active, fun free => ?_, fun _ far unlocked => ?_,
    servoSync_locked_time off (s := u)⟩
  · have e := servoSync_stepped (off := off) (s := u) (.inl free)
    exact ⟨(congrArg TimeSt.servo e :), (congrArg TimeSt.valid e :), (congrArg TimeSt.steps e :),
      (congrArg TimeSt.time e :)⟩
  · have e := servoSync_stepped (off := off) (s := u) (.inr ⟨far, unlocked⟩)
    exact ⟨(congrArg TimeSt.servo e :), (congrArg TimeSt.time e :)⟩

theorem tuHoldover_completes {s : State} (h : s.tu.servo = .locking ∨ s.tu.servo = .locked) :
    Completes .tuHoldover s (fun t => t.tu.servo = .holdover ∧ t.tu.holdAt = s.now ∧ t.tu.time = s.tu.time
      ∧ t.tu.adj = meanAdj s.tu ∧ Raised Ev.TU_HOLDOVER 0xCA 0 s t) := by
  refine ⟨_, congrArg Host.Outcome.next (holdover_holds h), ?_⟩
  beta_reduce
  rw [raiseN_tu]
  exact ⟨rfl, rfl, rfl, rfl, raised_of_growsN (.of_eq rfl) ..⟩

theorem announce_completes {a : Announce} {s : State} (hl : s.live .time = true) (hd : a.domain = s.img.time.domain) :
    Completes (.announce a) s (fun t =>
      ∃ best ∈ t.tu.announces, t.tu.gm = some best.gm ∧ t.tu.utcOffset = best.utcOffset ∧ a ∈ t.tu.announces
        ∧ (∀ x ∈ t.tu.announces, betterMaster x best = false)
        ∧ (s.tu.gm ≠ some best.gm → Raised Ev.TU_GM_CHANGED 0xCA (w32 (best.gm.toNat % 4294967296)) s t)) := by
  obtain ⟨b, hb⟩ : ∃ b, bestMaster (announced a s) = some b := bestMaster_cons ..
  obtain ⟨listed, best⟩ := bestMaster_spec hb
  obtain ⟨run, chosen⟩ := announceIn_chooses hl hd hb
  refine ⟨_, congrArg Host.Outcome.next chosen, b, ?_⟩
  rw [raiseIf_tu]
  refine ⟨listed, rfl, rfl, List.mem_cons_self, best, fun changed => ?_⟩
  rw [raiseIf, if_pos (by simp [changed])]
  exact raised_of_growsN (.of_eq rfl) ..

theorem followUp_forwards {p : Port} {src seq dom : Nat} (corr : Int) {e : TwoStep} {s : State}
    (hl : s.live .ring = true) (he : s.tu.twoStep.find? (twoStepKey src seq dom) = some e) :
    Completes (.followUp p src seq dom corr) s (fun t =>
      t.mmp.sent = .ptpForward (otherPort p) seq (corr + e.sum) :: s.mmp.sent
        ∧ t.tu = { s.tu with
            twoStep := s.tu.twoStep.filter (fun x => !twoStepKey src seq dom x), tcFwd := wrap32 (s.tu.tcFwd + 1) }) :=
  ⟨_, congrArg Host.Outcome.next (followUpIn_of_entry p corr hl he), send_sent .., send_tu ..⟩

theorem followUp_drops {p : Port} {src seq dom : Nat} (corr : Int) {s : State} (hl : s.live .ring = true)
    (he : s.tu.twoStep.find? (twoStepKey src seq dom) = none) :
    Completes (.followUp p src seq dom corr) s (fun t =>
      t.tu = { s.tu with tcDrop := wrap32 (s.tu.tcDrop + 1) } ∧ t.mmp.sent = s.mmp.sent
        ∧ Raised Ev.TC_FU_UNMATCHED (portSrc p) (w32 (seq % 65536)) s t) :=
  ⟨_, congrArg Host.Outcome.next (followUpIn_of_none p corr hl he), followUpDrop_effect p seq s⟩

/-- Settles O22: each command of the servo, of the choice of the master and of the two-step table by what it stores. -/
theorem timeServo : Obligations.TimeServo := by
  unfold Obligations.TimeServo
  exact ⟨fun s m => sync_completes, fun s => tuHoldover_completes, fun s a => announce_completes,
    fun s p src seq dom corr e => followUp_forwards corr, fun s p src seq dom corr => followUp_drops corr,
    fun s src seq dom => ⟨_, rfl, rfl, rfl⟩⟩

end Sys2Proof.Proofs
end

section
/-! SUPPORT. A ring frame on its way from one port to the other, with what the transparent clock makes of it
(07 R206, R207, R209; 15 R460 to R462). -/

namespace Sys2Proof.Laws

open Sys2Proof Sys2Proof.Machine

/-! ### Blocks of the pool (14 R443) -/

/-- A state with another pool. -/
def withPool (x : PoolSt) (s : State) : State := { s with pool := x }

/-- Blocks that are given change the pool alone. -/
theorem poolAlloc_of_pick {f : Fn} {n : Nat} {bs : List Nat} {s : State} (h : poolPick s f n = some bs) :
    ∃ x, poolAlloc f n s = (some bs, withPool x s) := by
  unfold poolAlloc
  rw [h]
  dsimp -zeta only
  extract_lets s1 s2
  have kept : withPool s.pool s1 = s := by
    refine forAll_keeps (withPool s.pool) (fun b t => ?_) s
    rfl
  have same : ∀ x, withPool x s1 = withPool x s := fun x => (congrArg (withPool x) kept :)
  exact ⟨_, congrArg (Prod.mk (some bs)) (same _)⟩

/-- Blocks given back leave the ring and the time unit. -/
theorem giveBacks_view (f : Fn) (bs : List Nat) (s : State) :
    view (P.event ||| P.pool ||| P.can) (forAll bs (fun b u => giveBack f b u) s)
      = view (P.event ||| P.pool ||| P.can) s :=
  view_forAll (fun b t => giveBack_view (by decide) f b t) s

/-! ### Forwarding (07 R206; 15 R460) -/

/-- A frame that the pool serves leaves on the other port as `passOn` makes it, where it is counted. -/
theorem forwardFrame_passes {p : Port} {f : RingIn} {bs : List Nat} {s : State} (hu : unmatched f.ptp s = none)
    (hup : (portOf s (otherPort p)).up = true) (hb : poolPick s .ring ((f.len + 255) / 256) = some bs) :
    ∃ x, (forwardFrame p f s).tu = (passOn p f (withPool x s)).tu
      ∧ (forwardFrame p f s).mmp.sent = (passOn p f (withPool x s)).mmp.sent
      ∧ portOf (forwardFrame p f s) (otherPort p)
        = { portOf (passOn p f (withPool x s)) (otherPort p) with
            fwd := wrap32 ((portOf (passOn p f (withPool x s)) (otherPort p)).fwd + 1) } := by
  obtain ⟨x, given⟩ := poolAlloc_of_pick hb
  have passed : forwardFrame p f s = forAll bs (fun b u => giveBack .ring b u)
      (setPort (otherPort p) (fun y => { y with fwd := wrap32 (y.fwd + 1) }) (passOn p f (withPool x s))) := by
    unfold forwardFrame
    rw [hu]
    dsimp only
    rw [if_neg (by simp [hup]), given]
  have kept := giveBacks_view .ring bs
    (setPort (otherPort p) (fun y => { y with fwd := wrap32 (y.fwd + 1) }) (passOn p f (withPool x s)))
  refine ⟨x, ?_, ?_, ?_⟩
  · rw [passed, tu_of_view kept (by decide)]
    rfl
  · rw [passed, sent_of_view (view_mono (by decide) kept)]
    rfl
  · rw [passed, portOf_of_view (view_mono (by decide) kept), setPort_self]

/-- A Follow_Up without an entry is dropped before the other port is looked at. -/
theorem forwardFrame_drops (p : Port) {f : RingIn} {seq : Nat} {s : State} (hu : unmatched f.ptp s = some seq) :
    forwardFrame p f s = followUpDrop p seq s := by
  unfold forwardFrame
  rw [hu]

/-- While the other port is down nothing is forwarded. -/
theorem forwardFrame_down {p : Port} (f : RingIn) {s : State} (h : (portOf s (otherPort p)).up = false) :
    portOf (forwardFrame p f s) p = portOf s p ∧ Grows s (forwardFrame p f s) := by
  cases hu : unmatched f.ptp s with
  | some seq =>
    rw [forwardFrame_drops p hu]
    exact ⟨raiseN_portOf .., (grows_raiseN ..).from_eq rfl⟩
  | none =>
    have stays : forwardFrame p f s = s := by
      unfold forwardFrame
      rw [hu]
      exact if_pos (by simp [h])
    rw [stays]
    exact ⟨rfl, .refl s⟩

theorem send_forward_port (q : Port) (id : Nat) (s : State) :
    ∃ n, portOf (send (.forward q id) s) q = { portOf s q with tx := n } :=
  countTx_port q (s.setMmp (fun m => { m with sent := .forward q id :: m.sent }))

/-! ### What the transparent clock makes of a message (07 R206, R207, R209) -/

/-- The constants of a port stand in the image, by the speed of its link (07 R208). -/
theorem portConsts_of_speed {s u : State} {q : Port} (hi : u.img = s.img)
    (h : (portOf u q).speed = (portOf s q).speed) : portConsts u q = portConsts s q := by
  have speed : (u.mmp.ports.look (portNo q)).speed = (s.mmp.ports.look (portNo q)).speed := h
  unfold portConsts stampConst
  rw [speed, hi]

/-- The link delay that a message takes stands in the time unit. -/
theorem linkTerm_of_tu {s u : State} (h : u.tu = s.tu) (p : Port) : linkTerm u p = linkTerm s p := by
  unfold linkTerm linkOf
  rw [h]

theorem ptpOut_oneStep_inTime {p : Port} (id : Nat) (corr : Int) {i e : Int} {s : State}
    (h : residence s p i e ≤ 65536000000) :
    (ptpOut p id (.oneStep corr i e) s).mmp.sent
        = .ptpForward (otherPort p) id (corr + residence s p i e + linkTerm s p) :: s.mmp.sent
      ∧ (ptpOut p id (.oneStep corr i e) s).tu = { s.tu with
          tcFwd := wrap32 (s.tu.tcFwd + 1)
          tcResMax := min top32 (max s.tu.tcResMax (nsOf (residence s p i e)).toNat) } := by
  have inTime : tooLate (residence s p i e) = false := by simp [tooLate, h]
  have corrected : ptpOut p id (.oneStep corr i e) s
      = send (.ptpForward (otherPort p) id (corr + residence s p i e + linkTerm s p))
        ((noteResidence (residence s p i e) s).setTu (fun t => { t with tcFwd := wrap32 (t.tcFwd + 1) })) :=
    if_neg (by simp [inTime])
  rw [corrected, send_sent, send_tu]
  refine ⟨rfl, ?_⟩
  simp only [noteResidence, setTu_tu, inTime]
  rfl

theorem ptpOut_oneStep_late {p : Port} (id : Nat) (corr : Int) {i e : Int} {s : State}
    (h : 65536000000 < residence s p i e) :
    (ptpOut p id (.oneStep corr i e) s).mmp.sent = .forward (otherPort p) id :: s.mmp.sent
      ∧ (ptpOut p id (.oneStep corr i e) s).tu.tcLate = wrap32 (s.tu.tcLate + 1)
      ∧ (ptpOut p id (.oneStep corr i e) s).tu.tcFwd = s.tu.tcFwd := by
  have late : tooLate (residence s p i e) = true := by simp [tooLate, h]
  have passed : ptpOut p id (.oneStep corr i e) s
      = send (.forward (otherPort p) id) (noteResidence (residence s p i e) s) := if_pos late
  rw [passed, send_sent, send_tu]
  refine ⟨rfl, ?_, rfl⟩
  simp [noteResidence, late]

theorem ptpOut_twoStep_inTime {p : Port} (id src seq dom : Nat) {i e : Int} {s : State}
    (h : residence s p i e ≤ 65536000000) :
    (ptpOut p id (.twoStep src seq dom i e) s).mmp.sent = .forward (otherPort p) id :: s.mmp.sent
      ∧ (ptpOut p id (.twoStep src seq dom i e) s).tu.twoStep.getLast? = some
          { srcId := src, seq := seq, domain := dom, sum := residence s p i e + linkTerm s p, at' := s.now } := by
  have inTime : tooLate (residence s p i e) = false := by simp [tooLate, h]
  unfold ptpOut
  dsimp only
  rw [send_sent, send_tu, inTime]
  exact ⟨rfl, List.getLast?_concat ..⟩

/-! ### A frame that is received (15 R460, R461) -/

/-- The state once a frame stands in the tables of duplicates, and is counted where it is one (15 R461). -/
def ringNoted (p : Port) (f : RingIn) (s : State) : State :=
  let here := f.kind != .other
  let on' := f.kind != .mine
  let d := dupSee s.now f.src f.seq s.mmp.dupDeliver
  let w := dupSee s.now f.src f.seq s.mmp.dupForward
  let s1 := s.setMmp (fun m =>
    { m with dupDeliver := if here then d.2 else m.dupDeliver, dupForward := if on' then w.2 else m.dupForward })
  if (here && d.1) || (on' && w.1) then setPort p (fun y => { y with dup := wrap32 (y.dup + 1) }) s1 else s1

theorem ringTake_eq (p : Port) (f : RingIn) (s : State) : ringTake p f s
    = if f.kind != .mine && !(dupSee s.now f.src f.seq s.mmp.dupForward).1 then forwardFrame p f (ringNoted p f s)
      else ringNoted p f s :=
  rfl

/-- The frame changes the part of the ring alone, and of that neither what was sent nor the other port. -/
theorem ringNoted_cases (p : Port) (f : RingIn) (s : State) : ∃ m, ringNoted p f s = { s with mmp := m }
    ∧ m.sent = s.mmp.sent ∧ m.ports.look (portNo (otherPort p)) = portOf s (otherPort p)
    ∧ ∃ n, m.ports.look (portNo p) = { portOf s p with dup := n } := by
  unfold ringNoted
  extract_lets here on' d w s1
  split
  · exact ⟨_, rfl, rfl, setPort_otherPort .., _, setPort_self ..⟩
  · exact ⟨_, rfl, rfl, rfl, _, rfl⟩

theorem ringNoted_duplicate {p : Port} {f : RingIn} {s : State} (hk : f.kind ≠ .mine)
    (hd : (dupSee s.now f.src f.seq s.mmp.dupForward).1 = true) :
    portOf (ringNoted p f s) p = { portOf s p with dup := wrap32 ((portOf s p).dup + 1) } := by
  unfold ringNoted
  dsimp only
  rw [if_pos (by simp [hk, hd]), setPort_self]
  rfl

/-- The count of a frame that is received without FCS or size error (15 R483). -/
def rxCounted (p : Port) (s : State) : State := setPort p (fun y => { y with rx := wrap32 (y.rx + 1) }) s

section
variable {p : Port} {f : RingIn} {s : State} (hal : portsAlive s = true) (hup : (portOf s p).up = true)
include hal hup

theorem ringFrame_damaged (hf : f.fcsOk = false) :
    ringFrame p f s = setPort p (fun y => { y with fcs := satInc top16 y.fcs }) s := by
  unfold ringFrame
  rw [if_neg (by simp [hal, hup]), if_pos (by simp [hf])]

variable (hf : f.fcsOk = true) (hlen : f.len ≤ 1528)
include hf hlen

theorem ringFrame_own (ho : f.own = true) : ringFrame p f s = rxCounted p s := by
  unfold ringFrame
  rw [if_neg (by simp [hal, hup]), if_neg (by simp [hf]), if_neg (Nat.not_lt.2 hlen)]
  exact if_pos ho

theorem ringFrame_foreign (ho : f.own = false) : ringFrame p f s
    = ringTake p f (if f.kind = .supervision then superviseIn p (rxCounted p s) else rxCounted p s) := by
  unfold ringFrame
  rw [if_neg (by simp [hal, hup]), if_neg (by simp [hf]), if_neg (Nat.not_lt.2 hlen)]
  exact if_neg (by simp [ho])

/-- A new foreign frame goes on from a state in which the counts of its port and the tables alone have moved. -/
theorem ringFrame_forwards (ho : f.own = false) (hm : f.kind ≠ .mine) (hs : f.kind ≠ .supervision)
    (hd : (dupSee s.now f.src f.seq s.mmp.dupForward).1 = false) :
    ∃ m, ringFrame p f s = forwardFrame p f { s with mmp := m }
      ∧ m.sent = s.mmp.sent ∧ m.ports.look (portNo (otherPort p)) = portOf s (otherPort p)
      ∧ (m.ports.look (portNo p)).speed = (portOf s p).speed := by
  obtain ⟨m, noted, sent, other, n, own⟩ := ringNoted_cases p f (rxCounted p s)
  refine ⟨m, ?_, sent, other.trans (setPort_otherPort ..), ?_⟩
  · have new : (dupSee (rxCounted p s).now f.src f.seq (rxCounted p s).mmp.dupForward).1 = false := hd
    rw [ringFrame_foreign hal hup hf hlen ho, if_neg hs, ringTake_eq, noted]
    exact if_pos (by simp [hm, new])
  · rw [own, rxCounted, setPort_self]

/-- A duplicate of a frame for another node is counted, and goes no further. -/
theorem ringFrame_duplicate (ho : f.own = false) (hk : f.kind = .other)
    (hd : (dupSee s.now f.src f.seq s.mmp.dupForward).1 = true) :
    ringFrame p f s = ringNoted p f (rxCounted p s) := by
  have again : (dupSee (rxCounted p s).now f.src f.seq (rxCounted p s).mmp.dupForward).1 = true := hd
  rw [ringFrame_foreign hal hup hf hlen ho, if_neg (by simp [hk]), ringTake_eq]
  exact if_neg (by simp [again])

/-- What a new foreign frame leaves where the pool serves it: `u` is the state in which it is passed on. -/
theorem ringFrame_passes {bs : List Nat} (ho : f.own = false) (hm : f.kind ≠ .mine) (hs : f.kind ≠ .supervision)
    (hd : (dupSee s.now f.src f.seq s.mmp.dupForward).1 = false) (hu : unmatched f.ptp s = none)
    (hq : (portOf s (otherPort p)).up = true) (hb : poolPick s .ring ((f.len + 255) / 256) = some bs) :
    ∃ u : State, (ringFrame p f s).tu = (passOn p f u).tu ∧ (ringFrame p f s).mmp.sent = (passOn p f u).mmp.sent
      ∧ portOf (ringFrame p f s) (otherPort p)
        = { portOf (passOn p f u) (otherPort p) with fwd := wrap32 ((portOf (passOn p f u) (otherPort p)).fwd + 1) }
      ∧ u.tu = s.tu ∧ u.mmp.sent = s.mmp.sent ∧ portOf u (otherPort p) = portOf s (otherPort p)
      ∧ ∀ i e, residence u p i e = residence s p i e := by
  obtain ⟨m, forwarded, sent, other, speed⟩ := ringFrame_forwards hal hup hf hlen ho hm hs hd
  have up : (portOf { s with mmp := m } (otherPort p)).up = true := (congrArg PortSt.up other).trans hq
  obtain ⟨x, htu, hsent, hport⟩ := forwardFrame_passes (s := { s with mmp := m }) hu up hb
  refine ⟨withPool x { s with mmp := m }, ?_, ?_, ?_, rfl, sent, other, fun i e => ?_⟩
  · rw [forwarded, htu]
  · rw [forwarded, hsent]
  · rw [forwarded, hport]
  · have consts : ∀ {q}, (m.ports.look (portNo q)).speed = (portOf s q).speed →
        portConsts (withPool x { s with mmp := m }) q = portConsts s q :=
      fun h => portConsts_of_speed rfl h
    rw [residence, corrOut, corrIn, consts speed, consts (congrArg PortSt.speed other), residence, corrOut, corrIn]

end

/-! ### Supervision and links (15 R459, R462) -/

/-- A supervision frame marks its port, with its event where the port was lost. -/
theorem superviseIn_port (p : Port) (s : State) :
    portOf (superviseIn p s) p = { portOf s p with supOk := true, supAt := some s.now } := by
  rw [superviseIn, raiseIf_portOf, setPort_self]

theorem superviseIn_otherPort (p : Port) (s : State) :
    portOf (superviseIn p s) (otherPort p) = portOf s (otherPort p) := by
  rw [superviseIn, raiseIf_portOf, setPort_otherPort]

theorem superviseIn_raised {p : Port} {s : State} (h : (portOf s p).supOk = false) :
    Raised Ev.RING_SUPERVISION_OK (portSrc p) 0 s (superviseIn p s) := by
  rw [superviseIn, raiseIf, if_pos (by simp [h])]
  exact raised_of_growsN (.of_eq rfl) ..

/-- While the other port is down a frame moves only the count of duplicates of its port. -/
theorem ringTake_down {p : Port} (f : RingIn) {s : State} (h : (portOf s (otherPort p)).up = false) :
    (∃ n, portOf (ringTake p f s) p = { portOf s p with dup := n }) ∧ Grows s (ringTake p f s) := by
  obtain ⟨m, noted, -, other, n, own⟩ := ringNoted_cases p f s
  have hp : portOf (ringNoted p f s) p = { portOf s p with dup := n } := by rw [noted]; exact own
  have hg : Grows s (ringNoted p f s) := by rw [noted]; exact .of_eq rfl
  have hq : (portOf (ringNoted p f s) (otherPort p)).up = false := by
    rw [noted]
    exact (congrArg PortSt.up other).trans h
  obtain ⟨kept, grows⟩ := forwardFrame_down f hq
  rw [ringTake_eq]
  split
  · exact ⟨⟨n, kept.trans hp⟩, hg.trans grows⟩
  · exact ⟨⟨n, hp⟩, hg⟩

theorem portDown_of_up {p : Port} {s : State} (h : (portOf s p).up = true) :
    portDown p s = linkLost p (raiseN Ev.PORT_LINK_DOWN (portSrc p) (portOf s p).speed
      (setPort p (fun y =>
        { y with up := false, speed := 0, supOk := false, supAt := none, downs := satInc top16 y.downs }) s)) :=
  if_neg (by simp [h])

theorem linkUp_of_down {p : Port} {speed : Nat} {s : State} (hal : portsAlive s = true) (h : (portOf s p).up = false)
    (hs : speed ≠ 0) : linkUp p speed s = raiseN Ev.PORT_LINK_UP (portSrc p) speed
      (setPort p (fun y => { y with up := true, speed := speed }) s) :=
  if_neg (by simp [hal, h, hs])

theorem superviseLost_of_ok {p : Port} {s : State} (hu : (portOf s p).up = true) (h : (portOf s p).supOk = true) :
    superviseLost p s = raiseN Ev.RING_SUPERVISION_LOST (portSrc p) 0 (setPort p (fun y => { y with supOk := false }) s) :=
  if_pos (by simp [hu, h])

end Sys2Proof.Laws
end

section
/-! CERTIFICATE. Frames, links and supervision of the ring (07 R206, R207, R209; 15 R459 to R462). -/

namespace Sys2Proof.Proofs

open Sys2Proof Sys2Proof.Machine Sys2Proof.Laws

section
variable {p : Port} {f : RingIn} {s : State} (hal : portsAlive s = true) (hup : (portOf s p).up = true)
include hal hup

theorem ringFrame_damaged_completes (hf : f.fcsOk = false) :
    Completes (.ringFrame p f) s (fun t => portOf t p = { portOf s p with fcs := satInc top16 (portOf s p).fcs }
      ∧ t.mmp.sent = s.mmp.sent) :=
  ⟨_, congrArg Host.Outcome.next (ringFrame_damaged hal hup hf), setPort_self .., rfl⟩

variable (hf : f.fcsOk = true) (hlen : f.len ≤ 1528)
include hf hlen

theorem ringFrame_own_completes (ho : f.own = true) :
    Completes (.ringFrame p f) s (fun t => portOf t p = { portOf s p with rx := wrap32 ((portOf s p).rx + 1) }
      ∧ t.mmp.sent = s.mmp.sent) :=
  ⟨_, congrArg Host.Outcome.next (ringFrame_own hal hup hf hlen ho), setPort_self .., rfl⟩

variable (ho : f.own = false)
include ho

theorem ringFrame_duplicate_completes (hk : f.kind = .other)
    (hd : (dupSee s.now f.src f.seq s.mmp.dupForward).1 = true) :
    Completes (.ringFrame p f) s (fun t => portOf t p = { portOf s p with
        rx := wrap32 ((portOf s p).rx + 1), dup := wrap32 ((portOf s p).dup + 1) }
      ∧ t.mmp.sent = s.mmp.sent) := by
  refine ⟨_, congrArg Host.Outcome.next (ringFrame_duplicate hal hup hf hlen ho hk hd), ?_, ?_⟩
  · rw [ringNoted_duplicate (s := rxCounted p s) (by simp [hk]) hd, rxCounted, setPort_self]
  · obtain ⟨m, noted, sent, -⟩ := ringNoted_cases p f (rxCounted p s)
    rw [noted]
    exact sent

theorem ringFrame_forwards_completes {bs : List Nat} (hq : (portOf s (otherPort p)).up = true) (hk : f.kind = .other)
    (hx : f.ptp = none) (hd : (dupSee s.now f.src f.seq s.mmp.dupForward).1 = false)
    (hb : poolPick s .ring ((f.len + 255) / 256) = some bs) :
    Completes (.ringFrame p f) s (fun t =>
      (portOf t (otherPort p)).fwd = wrap32 ((portOf s (otherPort p)).fwd + 1)
        ∧ t.mmp.sent = .forward (otherPort p) f.id :: s.mmp.sent) := by
  obtain ⟨u, -, sent, port, -, usent, uport, -⟩ := ringFrame_passes hal hup hf hlen ho (by simp [hk]) (by simp [hk]) hd
    (by rw [hx]; rfl) hq hb
  have passed : passOn p f u = send (.forward (otherPort p) f.id) u := by
    unfold passOn
    rw [hx]
  obtain ⟨n, counted⟩ := send_forward_port (otherPort p) f.id u
  refine ⟨_, rfl, ?_, ?_⟩
  · rw [port, passed, counted, uport]
  · rw [sent, passed, send_sent, usent]

variable (hk : f.kind = .multicast) (hd : (dupSee s.now f.src f.seq s.mmp.dupForward).1 = false)
include hk hd

/-- A PTP message that is not dropped leaves as the transparent clock makes it of a state with the same time unit. -/
theorem ringFrame_ptpOut {x : PtpFrame} {bs : List Nat} (hx : f.ptp = some x) (hu : unmatched (some x) s = none)
    (hq : (portOf s (otherPort p)).up = true) (hb : poolPick s .ring ((f.len + 255) / 256) = some bs) :
    ∃ u : State, (ringFrame p f s).tu = (ptpOut p f.id x u).tu
      ∧ (ringFrame p f s).mmp.sent = (ptpOut p f.id x u).mmp.sent
      ∧ u.tu = s.tu ∧ u.mmp.sent = s.mmp.sent ∧ ∀ i e, residence u p i e = residence s p i e := by
  obtain ⟨u, tu, sent, -, utu, usent, -, ures⟩ := ringFrame_passes hal hup hf hlen ho (by simp [hk]) (by simp [hk]) hd
    (by rw [hx]; exact hu) hq hb
  have passed : passOn p f u = ptpOut p f.id x u := by
    unfold passOn
    rw [hx]
  exact ⟨u, passed ▸ tu, passed ▸ sent, utu, usent, ures⟩

theorem ringFrame_oneStep_completes {bs : List Nat} {corr i e : Int} (hq : (portOf s (otherPort p)).up = true)
    (hx : f.ptp = some (.oneStep corr i e)) (hb : poolPick s .ring ((f.len + 255) / 256) = some bs)
    (hr : residence s p i e ≤ 65536000000) :
    Completes (.ringFrame p f) s (fun t =>
      t.mmp.sent = .ptpForward (otherPort p) f.id (corr + residence s p i e + linkTerm s p) :: s.mmp.sent
        ∧ t.tu.tcFwd = wrap32 (s.tu.tcFwd + 1)
        ∧ t.tu.tcResMax = min top32 (max s.tu.tcResMax (nsOf (residence s p i e)).toNat)
        ∧ t.tu.tcLate = s.tu.tcLate) := by
  obtain ⟨u, tu, sent, utu, usent, ures⟩ := ringFrame_ptpOut hal hup hf hlen ho hk hd hx rfl hq hb
  obtain ⟨left, clock⟩ := ptpOut_oneStep_inTime (p := p) f.id corr (s := u) ((ures i e).trans_le hr)
  refine ⟨_, rfl, ?_⟩
  beta_reduce
  rw [sent, left, tu, clock, ures, linkTerm_of_tu utu, usent, utu]
  exact ⟨rfl, rfl, rfl, rfl⟩

theorem ringFrame_late_completes {bs : List Nat} {corr i e : Int} (hq : (portOf s (otherPort p)).up = true)
    (hx : f.ptp = some (.oneStep corr i e)) (hb : poolPick s .ring ((f.len + 255) / 256) = some bs)
    (hr : 65536000000 < residence s p i e) :
    Completes (.ringFrame p f) s (fun t =>
      t.mmp.sent = .forward (otherPort p) f.id :: s.mmp.sent ∧ t.tu.tcLate = wrap32 (s.tu.tcLate + 1)
        ∧ t.tu.tcFwd = s.tu.tcFwd) := by
  obtain ⟨u, tu, sent, utu, usent, ures⟩ := ringFrame_ptpOut hal hup hf hlen ho hk hd hx rfl hq hb
  obtain ⟨left, late, fwd⟩ := ptpOut_oneStep_late (p := p) f.id corr (s := u) (hr.trans_eq (ures i e).symm)
  refine ⟨_, rfl, ?_⟩
  beta_reduce
  rw [sent, left, tu, late, fwd, usent, utu]
  exact ⟨rfl, rfl, rfl⟩

theorem ringFrame_twoStep_completes {bs : List Nat} {src seq dom : Nat} {i e : Int}
    (hq : (portOf s (otherPort p)).up = true) (hx : f.ptp = some (.twoStep src seq dom i e))
    (hb : poolPick s .ring ((f.len + 255) / 256) = some bs) (hr : residence s p i e ≤ 65536000000) :
    Completes (.ringFrame p f) s (fun t =>
      t.mmp.sent = .forward (otherPort p) f.id :: s.mmp.sent
        ∧ t.tu.twoStep.getLast? = some { srcId := src, seq := seq, domain := dom,
                                         sum := residence s p i e + linkTerm s p, at' := s.now }) := by
  obtain ⟨u, tu, sent, utu, usent, ures⟩ := ringFrame_ptpOut hal hup hf hlen ho hk hd hx rfl hq hb
  obtain ⟨left, entry⟩ := ptpOut_twoStep_inTime (p := p) f.id src seq dom (s := u) ((ures i e).trans_le hr)
  have now : u.now = s.now := congrArg TimeSt.mono utu
  refine ⟨_, rfl, ?_⟩
  beta_reduce
  rw [sent, left, tu, entry, ures, linkTerm_of_tu utu, usent, now]
  exact ⟨rfl, rfl⟩

theorem ringFrame_unmatched_completes {src seq dom : Nat} {corr : Int} (hx : f.ptp = some (.followUp src seq dom corr))
    (hn : s.tu.twoStep.any (twoStepKey src seq dom) = false) :
    Completes (.ringFrame p f) s (fun t =>
      t.mmp.sent = s.mmp.sent ∧ t.tu.tcDrop = wrap32 (s.tu.tcDrop + 1)
        ∧ Raised Ev.TC_FU_UNMATCHED (portSrc p) (w32 (seq % 65536)) s t) := by
  obtain ⟨m, forwarded, sent, -⟩ := ringFrame_forwards hal hup hf hlen ho (by simp [hk]) (by simp [hk]) hd
  have missing : unmatched f.ptp { s with mmp := m } = some seq := by
    rw [hx]
    exact if_neg (by simp [hn])
  obtain ⟨tu, dropped, raised⟩ := followUpDrop_effect p seq { s with mmp := m }
  refine ⟨_, congrArg Host.Outcome.next (forwarded.trans (forwardFrame_drops p missing)), dropped.trans sent, ?_, raised⟩
  rw [tu]

end

theorem ringFrame_supervision_completes {p : Port} {f : RingIn} {s : State} (hal : portsAlive s = true)
    (hup : (portOf s p).up = true) (hf : f.fcsOk = true) (hlen : f.len ≤ 1528) (ho : f.own = false)
    (hk : f.kind = .supervision) (hq : (portOf s (otherPort p)).up = false) (hs : (portOf s p).supOk = false) :
    Completes (.ringFrame p f) s (fun t => (portOf t p).supOk = true ∧ (portOf t p).supAt = some s.now
      ∧ Raised Ev.RING_SUPERVISION_OK (portSrc p) 0 s t) := by
  have taken : ringFrame p f s = ringTake p f (superviseIn p (rxCounted p s)) := by
    rw [ringFrame_foreign hal hup hf hlen ho, if_pos hk]
  have down : (portOf (superviseIn p (rxCounted p s)) (otherPort p)).up = false := by
    rw [superviseIn_otherPort, rxCounted, setPort_otherPort, hq]
  obtain ⟨⟨n, port⟩, grows⟩ := ringTake_down f down
  have lost : (portOf (rxCounted p s) p).supOk = false := by rw [rxCounted, setPort_self, hs]
  refine ⟨_, congrArg Host.Outcome.next taken, ?_⟩
  beta_reduce
  rw [port, superviseIn_port]
  have raised := superviseIn_raised lost
  exact ⟨rfl, rfl, raised_mid (.of_eq rfl) raised grows⟩

theorem portLinkDown_completes {p : Port} {s : State} (h : (portOf s p).up = true) :
    Completes (.portLinkDown p) s (fun t =>
      portOf t p = { portOf s p with up := false, speed := 0, supOk := false, supAt := none,
                                     downs := satInc top16 (portOf s p).downs }
        ∧ portOf t (otherPort p) = portOf s (otherPort p)
        ∧ Raised Ev.PORT_LINK_DOWN (portSrc p) (w32 (portOf s p).speed) s t) := by
  refine ⟨_, congrArg Host.Outcome.next (portDown_of_up h), ?_, ?_, ?_⟩
  · rw [linkLost_portOf, raiseN_portOf, setPort_self]
  · rw [linkLost_portOf, raiseN_portOf, setPort_otherPort]
  · refine raised_mid (.refl s) ?_ (linkLost_grows ..)
    exact raised_of_growsN (.of_eq rfl) ..

theorem portLinkUp_completes {p : Port} {speed : Fin 3} {s : State} (hal : portsAlive s = true)
    (h : (portOf s p).up = false) (hs : speed ≠ 0) :
    Completes (.portLinkUp p speed) s (fun t => portOf t p = { portOf s p with up := true, speed := speed.val }
      ∧ portOf t (otherPort p) = portOf s (otherPort p)
      ∧ Raised Ev.PORT_LINK_UP (portSrc p) (w32 speed) s t) := by
  refine ⟨_, congrArg Host.Outcome.next (linkUp_of_down hal h (Fin.val_ne_zero_iff.2 hs)), ?_, ?_, ?_⟩
  · rw [raiseN_portOf, setPort_self]
  · rw [raiseN_portOf, setPort_otherPort]
  · exact raised_of_growsN (.of_eq rfl) ..

theorem supervisionSend_completes {s : State} (h : delivers s = true) :
    Completes .supervisionSend s (fun t => t.mmp.sent = .supervision s.mmp.hsrSeq :: s.mmp.sent
      ∧ t.mmp.hsrSeq = (s.mmp.hsrSeq + 1) % 65536) :=
  ⟨_, congrArg Host.Outcome.next (if_pos h), send_sent .., rfl⟩

theorem ringSupervisionLost_completes {p : Port} {s : State} (hu : (portOf s p).up = true)
    (h : (portOf s p).supOk = true) :
    Completes (.ringSupervisionLost p) s (fun t => portOf t p = { portOf s p with supOk := false }
      ∧ Raised Ev.RING_SUPERVISION_LOST (portSrc p) 0 s t) := by
  refine ⟨_, congrArg Host.Outcome.next (superviseLost_of_ok hu h), ?_, raised_of_growsN (.of_eq rfl) ..⟩
  rw [raiseN_portOf, setPort_self]

/-- Settles O40: each kind of frame by what it leaves of the ports and of the time unit, then links and supervision. -/
theorem ringFrames : Obligations.RingFrames := by
  unfold Obligations.RingFrames
  exact ⟨fun s p f => ringFrame_damaged_completes, fun s p f => ringFrame_own_completes,
    fun s p f => ringFrame_duplicate_completes,
    fun s p f bs hal hup hq hf hlen ho => ringFrame_forwards_completes hal hup hf hlen ho hq,
    fun s p f bs corr i e hal hup hq hf hlen ho hk hx hd =>
      ringFrame_oneStep_completes hal hup hf hlen ho hk hd hq hx,
    fun s p f bs corr i e hal hup hq hf hlen ho hk hx hd =>
      ringFrame_late_completes hal hup hf hlen ho hk hd hq hx,
    fun s p f bs src seq dom i e hal hup hq hf hlen ho hk hx hd =>
      ringFrame_twoStep_completes hal hup hf hlen ho hk hd hq hx,
    fun s p f src seq dom corr hal hup hf hlen ho hk hx hd =>
      ringFrame_unmatched_completes hal hup hf hlen ho hk hd hx,
    fun s p f => ringFrame_supervision_completes, fun s p => portLinkDown_completes,
    fun s p speed => portLinkUp_completes, fun s => supervisionSend_completes, fun s p => ringSupervisionLost_completes⟩

end Sys2Proof.Proofs
end

section
/-! SUPPORT. What queues an alarm command, what an accepted one is answered, and what a GROUP_STATE leaves of its
station (08 R236, R238 to R241; 15 R475). -/

namespace Sys2Proof.Laws

open Sys2Proof Sys2Proof.Machine

/-! ### What the checks of a command read -/

theorem locOk_of_img {s u : State} (h : u.img = s.img) (loc : Nat) : locOk u loc = locOk s loc := by
  rw [locOk, h, locOk]

theorem almRow_of_img {s u : State} (h : u.img = s.img) (n : Nat) : almRow u n = almRow s n := by
  rw [almRow, h, almRow]

theorem almOf_of_alarm {s u : State} (h : u.alarm = s.alarm) (n : Nat) : almOf u n = almOf s n := by
  rw [almOf, h, almOf]

theorem almUsed_of_alarm {s u : State} (h : u.alarm = s.alarm) (n : Nat) : almUsed u n = almUsed s n := by
  rw [almUsed, almOf_of_alarm h, almUsed]

theorem shelveLimit_of_img_alarm {s u : State} (hi : u.img = s.img) (ha : u.alarm = s.alarm) (g : Nat) :
    shelveLimit u g = shelveLimit s g := by
  rw [shelveLimit, grpOf, ha, hi, shelveLimit, grpOf]

theorem accepted_img {m : Msg} {ty : Nat} {need : Role} {q : Req} {s u : State} (h : Accepted m ty need q s u) :
    u.img = s.img :=
  img_of_view (accepted_view h (v := N.img) (by decide)) (by decide)

theorem accepted_alarm {m : Msg} {ty : Nat} {need : Role} {q : Req} {s u : State} (h : Accepted m ty need q s u) :
    u.alarm = s.alarm :=
  alarm_of_view (accepted_view h (v := N.alarm) (by decide)) (by decide)

theorem accepted_now {m : Msg} {ty : Nat} {need : Role} {q : Req} {s u : State} (h : Accepted m ty need q s u) :
    u.now = s.now :=
  congrArg TimeSt.mono (tu_of_view (accepted_view h (v := N.tu) (by decide)) (by decide))

/-! ### Commands that are queued (08 R236, R238 to R241) -/

@[simp] theorem almQueue_alarm (c : AlmCmd) (s : State) :
    (almQueue c s).alarm = { s.alarm with cmds := s.alarm.cmds ++ [c], cmdRes := 0 } :=
  rfl

theorem ackArrives_queues {target index loc : Nat} {o : Origin} {s : State} (ht : target ≤ 3)
    (hp : target = 0 → index < 2048) (hg : target = 1 → index < 256) (hl : locOk s loc = true) :
    ackArrives target index loc o s = almQueue (.ack target index loc o) s := by
  have inRange : ¬ (3 < target || (target = 0 && 2048 ≤ index) || (target = 1 && 256 ≤ index)) = true := by
    simp only [Bool.or_eq_true, Bool.and_eq_true, decide_eq_true_eq]
    omega
  unfold ackArrives
  rw [if_neg inRange, if_neg (by simp [hl])]

/-- SHELVE and UNSHELVE pass their first checks for a used point, named as target 0 at location 0. -/
theorem pointTarget_passes {target index : Nat} {s : State} (ht : target = 0) (hi : index < 2048)
    (hu : almUsed s index = true) : ¬ (target != 0 || 2048 ≤ index || !almUsed s index) = true := by
  simp [ht, hi, hu]

theorem shelveArrives_queues {target index loc minutes : Nat} {o : Origin} {s : State} (ht : target = 0)
    (hi : index < 2048) (hu : almUsed s index = true) (hl : loc = 0) (hp : (almRow s index).prio ≠ 0)
    (hmin : 1 ≤ minutes) (hmax : minutes ≤ shelveLimit s (almRow s index).group)
    (ho : (almOf s index).state ≠ .oos) :
    shelveArrives target index loc minutes o s = almQueue (.shelve index minutes o) s := by
  have shelvable : ¬ ((almRow s index).prio = 0 || shelveLimit s (almRow s index).group = 0) = true := by
    simp only [Bool.or_eq_true, decide_eq_true_eq]
    omega
  have inLimit : ¬ (minutes < 1 || shelveLimit s (almRow s index).group < minutes) = true := by
    simp only [Bool.or_eq_true, decide_eq_true_eq]
    omega
  unfold shelveArrives
  dsimp only
  rw [if_neg (pointTarget_passes ht hi hu), if_neg (by simp [hl]), if_neg shelvable, if_neg inLimit,
    if_neg (by simp [ho])]

theorem unshelveArrives_queues {target index loc : Nat} {o : Origin} {s : State} (ht : target = 0) (hi : index < 2048)
    (hu : almUsed s index = true) (hl : loc = 0) :
    unshelveArrives target index loc o s = almQueue (.unshelve index o) s := by
  unfold unshelveArrives
  rw [if_neg (pointTarget_passes ht hi hu), if_neg (by simp [hl])]

theorem oosWrite_queues {v : W32} {r : Role} {s : State} (hr : roleAtLeast r .engineer = true)
    (hkey : v.toNat / 16777216 = 0x0A) (hlow : v.toNat / 2048 % 32 = 0) (hhigh : v.toNat / 131072 % 128 = 0)
    (hu : almUsed s (v.toNat % 2048) = true) :
    oosWrite v r s = some (almQueue (.oos (v.toNat % 2048) (v.getLsbD 16) (.role r)) s) := by
  unfold oosWrite
  dsimp only
  rw [if_neg (by simp [hr]), if_neg (by simp [hkey, hlow, hhigh]), if_neg (by simp [hu])]

theorem ackKey_queues {s : State} (hrun : s.running .alarm = true) (hl : locOk s s.img.alarm.panelLoc = true) :
    ackKey s = almQueue (.ack 2 0 s.img.alarm.panelLoc .panel) s := by
  rw [ackKey, if_pos hrun, ackArrives_queues (by decide) (by decide) (by decide) hl]

theorem silenceKey_queues {s : State} (hrun : s.running .alarm = true) :
    silenceKey s = almQueue (.silence s.img.alarm.panelLoc .panel) s := by
  rw [silenceKey, if_pos hrun]

/-! ### An ALARM_CMD that passes its checks (15 R475) -/

section
variable {m : Msg} {op : Nat} {need : Role} {q : Req} {s u : State} (h : Accepted m 7 need q s u)
  (hop : leAt q.payload 0 1 = op) (hlen : (if op = 2 then 8 else 6) ≤ q.payload.length)
  (hrun : u.running .alarm = true)
include h hop hlen hrun

theorem accepted_alarmCmd (k : Req → State → State) : onAlarmCmd m op need k s = alarmReply q (k q u) := by
  obtain ⟨hreceive, htype, hrole, hstate⟩ := h
  unfold onAlarmCmd onNoted
  rw [hreceive]
  dsimp only
  rw [if_neg (by simp [htype, hop]), if_neg (by simp [hrole]), if_neg (by simp [htype, hstate]),
    if_neg (Nat.not_lt.2 hlen), if_neg (by simp [hrun])]

/-- The reply leaves with the result 0 that queueing stores. -/
theorem alarmCmd_queued {k : Req → State → State} {c : AlmCmd} (hk : k q u = almQueue c u) :
    (onAlarmCmd m op need k s).alarm = { s.alarm with cmds := s.alarm.cmds ++ [c], cmdRes := 0 }
      ∧ Replied q .ok u (onAlarmCmd m op need k s) := by
  have answered : onAlarmCmd m op need k s = answer q .ok (almQueue c u) := by
    rw [accepted_alarmCmd h hop hlen hrun, hk]
    rfl
  rw [answered]
  refine ⟨?_, replied_answer q .ok rfl⟩
  rw [alarm_of_view (answer_view (m := N.alarm) (by decide) ..) (by decide), almQueue_alarm, accepted_alarm h]

end

/-! ### GROUP_STATE at the master (08 R247; 15 R475) -/

theorem groupState_station {station i : Nat} {bytes : List Byte} {s : State} (hrun : s.running .alarm = true)
    (hm : s.img.alarm.master = true)
    (hf : (List.range s.img.alarm.fwd.length).find? (fun i => s.img.alarm.fwd.getD i 0 == station) = some i) :
    (groupState station bytes s).alarm.stations.look i = { s.alarm.stations.look i with
      groups := fwdGroups (min 256 (leAt bytes 8 2)) (bytes.drop 10), at' := s.now, heard := true, lost := false } := by
  unfold groupState
  rw [if_neg (by simp [hrun, hm]), hf]
  dsimp only
  split
  · rw [raiseEng, raise_alarm, setAlm_alarm, Tab.look_upd_self]
  · rw [setAlm_alarm, Tab.look_upd_self]

end Sys2Proof.Laws
end

section
/-! CERTIFICATE. Alarm commands and GROUP_STATE (08 R233, R236, R239 to R241; 15 R475). -/

namespace Sys2Proof.Proofs

open Sys2Proof Sys2Proof.Machine Sys2Proof.Laws

theorem ack_queued {m : Msg} {q : Req} {s u : State} (h : Accepted m 7 .operate q s u) (hop : leAt q.payload 0 1 = 1)
    (hlen : 6 ≤ q.payload.length) (hrun : u.running .alarm = true) (ht : leAt q.payload 1 1 ≤ 3)
    (hp : leAt q.payload 1 1 = 0 → leAt q.payload 4 2 < 2048)
    (hg : leAt q.payload 1 1 = 1 → leAt q.payload 4 2 < 256)
    (hl : locOk s (leAt q.payload 2 1) = true) :
    Completes (.ack m) s (fun t =>
      t.alarm = { s.alarm with
        cmds := s.alarm.cmds
          ++ [.ack (leAt q.payload 1 1) (leAt q.payload 4 2) (leAt q.payload 2 1) (.role q.role)]
        cmdRes := 0 }
        ∧ Replied q .ok u t) := by
  have known : locOk u (leAt q.payload 2 1) = true := by rwa [locOk_of_img (accepted_img h)]
  exact ⟨_, rfl, alarmCmd_queued h hop hlen hrun (ackArrives_queues ht hp hg known)⟩

theorem shelve_queued {m : Msg} {q : Req} {s u : State} (h : Accepted m 7 .engineer q s u)
    (hop : leAt q.payload 0 1 = 2) (hlen : 8 ≤ q.payload.length) (hrun : u.running .alarm = true)
    (ht : leAt q.payload 1 1 = 0) (hl : leAt q.payload 2 1 = 0) (hi : leAt q.payload 4 2 < 2048)
    (hu : almUsed s (leAt q.payload 4 2) = true) (hp : (almRow s (leAt q.payload 4 2)).prio ≠ 0)
    (hmin : 1 ≤ leAt q.payload 6 2)
    (hmax : leAt q.payload 6 2 ≤ shelveLimit s (almRow s (leAt q.payload 4 2)).group)
    (ho : (almOf s (leAt q.payload 4 2)).state ≠ .oos) :
    Completes (.shelve m) s (fun t =>
      t.alarm = { s.alarm with
        cmds := s.alarm.cmds ++ [.shelve (leAt q.payload 4 2) (leAt q.payload 6 2) (.role q.role)], cmdRes := 0 }
        ∧ Replied q .ok u t) := by
  have img := accepted_img h
  have alarm := accepted_alarm h
  rw [← almUsed_of_alarm alarm] at hu
  rw [← almOf_of_alarm alarm] at ho
  rw [← shelveLimit_of_img_alarm img alarm, ← almRow_of_img img] at hmax
  rw [← almRow_of_img img] at hp
  exact ⟨_, rfl, alarmCmd_queued h hop hlen hrun (shelveArrives_queues ht hi hu hl hp hmin hmax ho)⟩

theorem unshelve_queued {m : Msg} {q : Req} {s u : State} (h : Accepted m 7 .engineer q s u)
    (hop : leAt q.payload 0 1 = 3) (hlen : 6 ≤ q.payload.length) (hrun : u.running .alarm = true)
    (ht : leAt q.payload 1 1 = 0) (hl : leAt q.payload 2 1 = 0) (hi : leAt q.payload 4 2 < 2048)
    (hu : almUsed s (leAt q.payload 4 2) = true) :
    Completes (.unshelve m) s (fun t =>
      t.alarm = { s.alarm with cmds := s.alarm.cmds ++ [.unshelve (leAt q.payload 4 2) (.role q.role)], cmdRes := 0 }
        ∧ Replied q .ok u t) := by
  have used : almUsed u (leAt q.payload 4 2) = true := by rwa [almUsed_of_alarm (accepted_alarm h)]
  exact ⟨_, rfl, alarmCmd_queued h hop hlen hrun (unshelveArrives_queues ht hi used hl)⟩

/-- A command that is queued and nothing else. -/
theorem completes_of_queued {c : Instr} {a : AlmCmd} {s : State} (h : exec c s = .next (almQueue a s)) :
    Completes c s (fun t => t.alarm = { s.alarm with cmds := s.alarm.cmds ++ [a], cmdRes := 0 }) :=
  ⟨_, h, almQueue_alarm ..⟩

theorem almOos_queued {s : State} {v : W32} {r : Role} (hr : roleAtLeast r .engineer = true)
    (hkey : v.toNat / 16777216 = 0x0A) (hlow : v.toNat / 2048 % 32 = 0) (hhigh : v.toNat / 131072 % 128 = 0)
    (hu : almUsed s (v.toNat % 2048) = true) :
    Completes (.almOos v r) s (fun t => t.alarm = { s.alarm with
      cmds := s.alarm.cmds ++ [.oos (v.toNat % 2048) (v.getLsbD 16) (.role r)], cmdRes := 0 }) :=
  completes_of_queued
    (congrArg (fun x : Option State => Host.Outcome.next (x.getD s)) (oosWrite_queues hr hkey hlow hhigh hu))

theorem panelKeys_queued {s : State} (hrun : s.running .alarm = true) (hl : locOk s s.img.alarm.panelLoc = true) :
    Completes .ackKey s (fun t =>
      t.alarm = { s.alarm with cmds := s.alarm.cmds ++ [.ack 2 0 s.img.alarm.panelLoc .panel], cmdRes := 0 })
    ∧ Completes .silenceKey s (fun t =>
      t.alarm = { s.alarm with cmds := s.alarm.cmds ++ [.silence s.img.alarm.panelLoc .panel], cmdRes := 0 }) :=
  ⟨completes_of_queued (congrArg Host.Outcome.next (ackKey_queues hrun hl)),
    completes_of_queued (congrArg Host.Outcome.next (silenceKey_queues hrun))⟩

theorem groupState_stored {m : Msg} {q : Req} {i : Nat} {s u : State} (h : Accepted m 0x13 .operate q s u)
    (hrun : u.running .alarm = true) (hm : s.img.alarm.master = true)
    (hlen : 10 + 8 * leAt q.payload 8 2 ≤ q.payload.length)
    (hf : (List.range s.img.alarm.fwd.length).find? (fun i => s.img.alarm.fwd.getD i 0 == q.sender) = some i) :
    Completes (.groupState m) s (fun t =>
      t.alarm.stations.look i = { s.alarm.stations.look i with
        groups := fwdGroups (min 256 (leAt q.payload 8 2)) (q.payload.drop 10), at' := s.now,
        heard := true, lost := false }) := by
  have img := accepted_img h
  refine ⟨_, rfl, ?_⟩
  beta_reduce
  rw [accepted_onPeer h, if_neg (Nat.not_lt.2 hlen), groupState_station hrun (by rwa [img]) (by rwa [img]),
    accepted_alarm h, accepted_now h]

/-- Settles O26: each command by what it queues and answers, and GROUP_STATE by the station that it stores. -/
theorem alarmCommands : Obligations.AlarmCommands := by
  unfold Obligations.AlarmCommands
  exact ⟨fun s u m q => ack_queued, fun s u m q => shelve_queued, fun s u m q => unshelve_queued,
    fun s v r => almOos_queued, fun s => panelKeys_queued, fun s u m q i => groupState_stored⟩

end Sys2Proof.Proofs
end

section
/-! SUPPORT. What an accepted FORCE and an accepted RELEASE leave of the logic engine, the event that each raises, and the
reply that leaves with their result (09 R282, R283, R286, R291; 15 R473). -/

namespace Sys2Proof.Laws

open Sys2Proof Sys2Proof.Machine

@[simp] theorem leResult_logic (code slot : Nat) (s : State) :
    (leResult code slot s).logic = { s.logic with cmdRes := code, cmdSlot := slot } :=
  rfl

theorem endLocals_logic (n : Nat) (o : Origin) (p : LocalPt → Bool) (s : State) : (endLocals n o p s).logic = s.logic :=
  logic_of_view (endLocals_view (m := N.logic) (by decide) ..) (by decide)

theorem accepted_logic {m : Msg} {ty : Nat} {need : Role} {q : Req} {s u : State} (h : Accepted m ty need q s u) :
    u.logic = s.logic :=
  logic_of_view (accepted_view h (v := N.logic) (by decide)) (by decide)

/-! ### FORCE (09 R282, R283) -/

section
variable {r : Role} {k : ForceKind} {ty : Vty} {tgt n : Nat} {v : W32} {s : State}
  (h : forceCheck s r k ty tgt v = (0, n))
include h

/-- An accepted FORCE fills its slot, raises its event, ends local control of its points and stores result 0. -/
theorem forceSet_of_check : ∃ pts, forceSet r k ty tgt v s =
    leResult 0 n (endLocals 2 (.role r) pts
      (raise Ev.FORCE_SET s.img.logic.leSrc (w32 (forceSetData n k ty tgt)) (.role r)
        (s.setLogic (fun l => { l with
          forces := l.forces.put n (forceSlotAfter s r k ty tgt v n)
          forcesAccepted := satInc top16 l.forcesAccepted })))) := by
  unfold forceSet
  rw [h]
  exact ⟨_, rfl⟩

theorem forceSet_logic : (forceSet r k ty tgt v s).logic = { s.logic with
    forces := s.logic.forces.put n (forceSlotAfter s r k ty tgt v n)
    forcesAccepted := satInc top16 s.logic.forcesAccepted, cmdRes := 0, cmdSlot := n } := by
  obtain ⟨pts, e⟩ := forceSet_of_check h
  rw [e, leResult_logic, endLocals_logic, raise_logic, setLogic_logic]

theorem forceSet_raised :
    Raised Ev.FORCE_SET s.img.logic.leSrc (w32 (forceSetData n k ty tgt)) s (forceSet r k ty tgt v s) := by
  obtain ⟨pts, e⟩ := forceSet_of_check h
  rw [e]
  refine raised_mid (.refl s) ?_ ((endLocals_grows 2 (.role r) pts _).trans (.of_eq rfl))
  exact raised_of_grows (.of_eq rfl) ..

end

theorem forceSet_replies (r : Role) (k : ForceKind) (ty : Vty) (tgt : Nat) (v : W32) (s : State) :
    (forceSet r k ty tgt v s).mmp.replies = s.mmp.replies :=
  replies_of_view (forceSet_view (by decide) ..)

/-! ### RELEASE (09 R286) -/

theorem forceDrop_logic (reason : Nat) (o : Origin) (n : Nat) (s : State) : (forceDrop reason o n s).logic =
    { s.logic with forces := s.logic.forces.put n { s.logic.forces.look n with ending := true } } := by
  unfold forceDrop
  rw [raise_logic, setLogic_logic]

theorem forceDrop_raised (reason : Nat) (o : Origin) (n : Nat) (s : State) :
    Raised Ev.FORCE_RELEASED s.img.logic.leSrc
      (w32 (n + 256 * reason + 65536 * ((s.logic.forces.look n).tgt % 65536))) s (forceDrop reason o n s) :=
  raised_of_grows (.of_eq rfl) ..

theorem forceRelease_replies (r : Role) (kind tgt : Nat) (s : State) :
    (forceRelease r kind tgt s).mmp.replies = s.mmp.replies :=
  replies_of_view (forceRelease_view (by decide) ..)

/-- A RELEASE of one target that passes its checks ends the force of the slot that holds the target. -/
theorem forceRelease_of_slot {r : Role} {kind tgt n : Nat} {s : State} (hr : roleAtLeast r .engineer = true)
    (hrun : s.running .logic = true) (hmod : s.mod.state = .run) (hk : kind ≠ 3)
    (hslot : slotOf s (forceKindOf kind) tgt = some n) (hend : (s.logic.forces.look n).ending = false) :
    forceRelease r kind tgt s = leResult 0 n (forceDrop 0 (.role r) n s) := by
  unfold forceRelease
  rw [if_neg (by simp [hr]), if_neg (by simp [hrun, hmod]), if_neg hk, hslot]
  dsimp only
  rw [if_neg (by simp [hend])]

/-! ### The reply (15 R473) -/

/-- The reply OK leaves the logic engine as it was and takes back neither an event nor a reply. -/
theorem forceReply_ok {q : Req} {k : EvKind} {src : Nat} {d : W32} {u t : State} (hres : t.logic.cmdRes = 0)
    (hrep : t.mmp.replies = u.mmp.replies) (hev : Raised k src d u t) :
    (forceReply q t).logic = t.logic ∧ Replied q .ok u (forceReply q t) ∧ Raised k src d u (forceReply q t) := by
  have answered : forceReply q t = answer q .ok t := by
    rw [forceReply, hres]
    rfl
  refine ⟨logic_of_view (forceReply_view (m := N.logic) (by decide) ..) (by decide), ?_⟩
  rw [answered]
  exact ⟨replied_answer q .ok hrep, raised_mid (.refl u) hev (answer_grows ..)⟩

end Sys2Proof.Laws
end

section
/-! CERTIFICATE. FORCE and RELEASE (09 R282, R283, R284, R286, R291). -/

namespace Sys2Proof.Proofs

open Sys2Proof Sys2Proof.Machine Sys2Proof.Laws

theorem force_completes {m : Msg} {q : Req} {kind : Fin 3} {ty : Vty} {tgt n : Nat} {v : W32} {s u : State}
    (h : Accepted m 5 .engineer q s u) (hc : forceCheck u q.role (forceKindOf kind) ty tgt v = (0, n)) :
    Completes (.force m kind ty tgt v) s (fun t =>
      (t.logic.forces.look n).kind = forceKindOf kind ∧ (t.logic.forces.look n).tgt = tgt
        ∧ (t.logic.forces.look n).ty = ty ∧ (t.logic.forces.look n).val = forceValue ty v
        ∧ (t.logic.forces.look n).role = roleCode q.role
        ∧ t.logic.cmdRes = 0 ∧ t.logic.cmdSlot = n ∧ t.logic.tasks = s.logic.tasks ∧ t.logic.vars = s.logic.vars
        ∧ Replied q .ok u t
        ∧ Raised Ev.FORCE_SET s.img.logic.leSrc (w32 (forceSetData n (forceKindOf kind) ty tgt)) u t) := by
  have stored := forceSet_logic hc
  obtain ⟨kept, replied, raised⟩ :=
    forceReply_ok (q := q) (by rw [stored]) (forceSet_replies ..) (forceSet_raised hc)
  refine ⟨_, congrArg Host.Outcome.next (accepted_noted h ..), ?_⟩
  beta_reduce
  rw [kept, stored, accepted_logic h, Tab.look_put_self, ← accepted_img h]
  exact ⟨rfl, rfl, rfl, rfl, rfl, rfl, rfl, rfl, rfl, replied, raised⟩

theorem release_completes {m : Msg} {q : Req} {kind : Fin 4} {tgt n : Nat} {s u : State}
    (h : Accepted m 6 .engineer q s u) (hrun : u.running .logic = true) (hmod : u.mod.state = .run)
    (hslot : slotOf s (forceKindOf kind) tgt = some n) (hk : kind ≠ 3)
    (hend : (s.logic.forces.look n).ending = false) :
    Completes (.release m kind tgt) s (fun t =>
      t.logic.forces.look n = { s.logic.forces.look n with ending := true } ∧ t.logic.cmdRes = 0 ∧ t.logic.cmdSlot = n
        ∧ Replied q .ok u t
        ∧ Raised Ev.FORCE_RELEASED s.img.logic.leSrc (w32 (n + 65536 * ((s.logic.forces.look n).tgt % 65536))) u t) := by
  have logic := accepted_logic h
  have held : slotOf u (forceKindOf kind) tgt = some n := by rwa [slotOf, logic]
  have dropped : forceRelease q.role kind tgt u = leResult 0 n (forceDrop 0 (.role q.role) n u) :=
    forceRelease_of_slot (accepted_role h) hrun hmod (fun e => hk (Fin.ext e)) held (by rwa [logic])
  have stored : (forceRelease q.role kind tgt u).logic = { s.logic with
      forces := s.logic.forces.put n { s.logic.forces.look n with ending := true }, cmdRes := 0, cmdSlot := n } := by
    rw [dropped, leResult_logic, forceDrop_logic, logic]
  have event : Raised Ev.FORCE_RELEASED u.img.logic.leSrc
      (w32 (n + 65536 * ((u.logic.forces.look n).tgt % 65536))) u (forceRelease q.role kind tgt u) := by
    rw [dropped]
    exact raised_mid (.refl u) (forceDrop_raised 0 ..) (.of_eq rfl)
  obtain ⟨kept, replied, raised⟩ :=
    forceReply_ok (q := q) (by rw [stored]) (forceRelease_replies ..) event
  rw [logic, accepted_img h] at raised
  refine ⟨_, congrArg Host.Outcome.next (accepted_noted h ..), ?_⟩
  beta_reduce
  rw [kept, stored]
  exact ⟨Tab.look_put_self .., rfl, rfl, replied, raised⟩

/-- Settles O29: each message by what it leaves of the logic engine, its event, and the reply with result 0. -/
theorem forcing : Obligations.Forcing := by
  unfold Obligations.Forcing
  exact ⟨fun s u m q kind ty tgt n v => force_completes, fun s u m q kind tgt n => release_completes⟩

end Sys2Proof.Proofs
end

section
/-! SUPPORT. What an MMP command to a loop leaves of the loop and of the command result, and the event of a loop
(11 R333, R338, R339, R341, R352, R357). -/

namespace Sys2Proof.Laws

open Sys2Proof Sys2Proof.Machine

/-! ### Reads of a loop -/

@[simp] theorem loopOf_setLp_self (s : State) (n : Nat) (f : LpSt → LpSt) : loopOf (s.setLp n f) n = f (loopOf s n) :=
  setLp_self ..
@[simp] theorem loopOf_pushCmd_self (n : Nat) (c : LoopCmd) (s : State) :
    loopOf (pushCmd n c s) n = { loopOf s n with cmds := (loopOf s n).cmds ++ [c] } :=
  loopOf_setLp_self ..
@[simp] theorem raiseLoop_loops (k : EvKind) (n d : Nat) (o : Origin) (s : State) : (raiseLoop k n d o s).loops = s.loops :=
  raise_loops ..
@[simp] theorem loopOf_raiseLoop (k : EvKind) (n d : Nat) (o : Origin) (s : State) (m : Nat) :
    loopOf (raiseLoop k n d o s) m = loopOf s m := by
  rw [loopOf, raiseLoop_loops, loopOf]
@[simp] theorem loopOf_loopResult (code n : Nat) (s : State) (m : Nat) : loopOf (loopResult code n s) m = loopOf s m := rfl

/-- The event of a loop, raised between an update that leaves the inbox alone and the result of the command. -/
theorem raised_loopResult_raiseLoop {s u : State} (k : EvKind) {n : Nat} (hn : n < 256) (code d : Nat) (o : Origin)
    (hi : u.recd.inbox = s.recd.inbox) :
    Raised k (loopSrc n) (w32 (n + 256 * d)) s (loopResult code n (raiseLoop k n d o u)) := by
  refine raised_raise (o := o) hi ?_
  rw [loopResult, setLoops_recd, raiseLoop, Nat.mod_eq_of_lt hn]

/-! ### Commands that pass the checks of 11 R352 -/

section
variable {n : Nat} {r need : Role} {s : State} (hrun : s.running .loop = true) (hu : loopUsed s n = true)
  (hl : heldLocal s 0 n = false)
include hrun hu hl

theorem loopGate_passes (hr : roleAtLeast r need = true) (k : State → State) : loopGate n r need s k = k s := by
  rw [loopGate, if_neg (by simp [hr]), if_neg (by simp [hrun]), if_neg (by simp [hu]), if_neg (by simp [hl])]

theorem lpTarget_of_inRange {v : F32} (hr : roleAtLeast r .operate = true)
    (hv : inRange (loopRow s n).spLo (loopRow s n).spHi v = true) :
    lpTarget n v r s = loopResult 0 n (pushCmd n (.target v) s) := by
  rw [lpTarget, loopGate_passes hrun hu hl hr, if_pos hv]

theorem lpManv_of_inRange {v : F32} (hr : roleAtLeast r .operate = true)
    (hv : inRange (loopRow s n).umin (loopRow s n).umax v = true) :
    lpManv n v r s = loopResult 0 n (pushCmd n (.manv v) s) := by
  rw [lpManv, loopGate_passes hrun hu hl hr, if_pos hv]

theorem lpModeReq_of_other {v : W32} (hr : roleAtLeast r .operate = true) (hv : v.toNat % 4 < 3)
    (hc : v.toNat % 4 = 2 → (loopRow s n).casRef ≠ none) (hq : reqAfter (loopOf s n) ≠ v.toNat % 4) :
    lpModeReq n v r s =
      loopResult 0 n (raiseLoop Ev.LOOP_MODE_SET n (v.toNat % 4) (.role r) (pushCmd n (.mode (v.toNat % 4)) s)) := by
  have hasPrimary : ¬ (v.toNat % 4 = 2 && (loopRow s n).casRef.isNone) = true := by
    simpa using hc
  rw [lpModeReq, loopGate_passes hrun hu hl hr, acceptMode, if_neg (Nat.not_le.2 hv), if_neg hasPrimary, if_neg hq,
    Nat.mul_zero, Nat.add_zero]

theorem loopSwap_of_valid (hr : roleAtLeast r .engineer = true) (hs : (loopOf s n).swap = false)
    (hb : bankValid (loopRow s n).form (if (loopOf s n).bankB then (loopOf s n).a else (loopOf s n).b) = true) :
    loopSwap n r s = loopResult 0 n (s.setLp n (fun x => { x with swap := true, swapBy := .role r })) := by
  rw [loopSwap, loopGate_passes hrun hu hl hr]
  dsimp only
  rw [if_neg (by simp [hs]), if_pos hb]

theorem loopRestart_of_fault (hr : roleAtLeast r .engineer = true) (hf : (loopOf s n).mode = .fault) :
    loopRestart n r s = loopResult 0 n (pushCmd n (.restart (.role r)) s) := by
  rw [loopRestart, loopGate_passes hrun hu hl hr, if_pos (by simp [hf])]

theorem bankEdit_of_inactive {inB : Bool} {k : Nat} {v : F32} (hr : roleAtLeast r .engineer = true)
    (hb : (loopOf s n).bankB ≠ inB) (hs : (loopOf s n).swap = false) :
    bankEdit n inB k v r s = loopResult 0 n (raiseLoop Ev.LOOP_BANK_EDITED n (b2n inB + 2 * k) (.role r)
      (s.setLp n (fun x => if inB then { x with b := bankSet x.b k v } else { x with a := bankSet x.a k v }))) := by
  have inactive : ¬ ((loopOf s n).bankB == inB || (loopOf s n).swap) = true := by simp [hb, hs]
  rw [bankEdit, loopGate_passes hrun hu hl hr]
  dsimp only
  rw [if_neg inactive]

end

end Sys2Proof.Laws
end

section
/-! CERTIFICATE. Commands to a loop (11 R333, R338, R339, R341, R352). -/

namespace Sys2Proof.Proofs

open Sys2Proof Sys2Proof.Machine Sys2Proof.Laws

/-- A command that only joins those that wait for the next sample of its loop. -/
theorem completes_of_pushed {c : Instr} {n : Nat} {k : LoopCmd} {s : State}
    (h : exec c s = .next (loopResult 0 n (pushCmd n k s))) :
    Completes c s (fun t => loopOf t n = { loopOf s n with cmds := (loopOf s n).cmds ++ [k] }
      ∧ t.loops.cmdRes = 0 ∧ t.loops.cmdLoop = n) :=
  ⟨_, h, loopOf_pushCmd_self .., rfl, rfl⟩

section
variable {s : State} {n : Fin 256} {r : Role} (hrun : s.running .loop = true) (hu : loopUsed s n = true)
  (hl : heldLocal s 0 n = false)
include hrun hu hl

theorem lpTarget_waits {v : F32} (hr : roleAtLeast r .operate = true)
    (hv : inRange (loopRow s n).spLo (loopRow s n).spHi v = true) :
    Completes (.lpTarget n v r) s (fun t =>
      loopOf t n = { loopOf s n with cmds := (loopOf s n).cmds ++ [.target v] }
        ∧ t.loops.cmdRes = 0 ∧ t.loops.cmdLoop = n) :=
  completes_of_pushed (congrArg Host.Outcome.next (lpTarget_of_inRange hrun hu hl hr hv))

theorem lpManv_waits {v : F32} (hr : roleAtLeast r .operate = true)
    (hv : inRange (loopRow s n).umin (loopRow s n).umax v = true) :
    Completes (.lpManv n v r) s (fun t =>
      loopOf t n = { loopOf s n with cmds := (loopOf s n).cmds ++ [.manv v] }
        ∧ t.loops.cmdRes = 0 ∧ t.loops.cmdLoop = n) :=
  completes_of_pushed (congrArg Host.Outcome.next (lpManv_of_inRange hrun hu hl hr hv))

theorem lpModeReq_waits {v : W32} (hr : roleAtLeast r .operate = true) (hv : v.toNat % 4 < 3)
    (hc : v.toNat % 4 = 2 → (loopRow s n).casRef ≠ none) (hq : reqAfter (loopOf s n) ≠ v.toNat % 4) :
    Completes (.lpModeReq n v r) s (fun t =>
      loopOf t n = { loopOf s n with cmds := (loopOf s n).cmds ++ [.mode (v.toNat % 4)] } ∧ t.loops.cmdRes = 0
        ∧ t.loops.cmdLoop = n ∧ Raised Ev.LOOP_MODE_SET (loopSrc n) (w32 (n + 256 * (v.toNat % 4))) s t) := by
  refine ⟨_, congrArg Host.Outcome.next (lpModeReq_of_other hrun hu hl hr hv hc hq), ?_⟩
  exact ⟨by simp, rfl, rfl, raised_loopResult_raiseLoop _ n.isLt _ _ _ rfl⟩

theorem swap_pending (hr : roleAtLeast r .engineer = true) (hs : (loopOf s n).swap = false)
    (hb : bankValid (loopRow s n).form (if (loopOf s n).bankB then (loopOf s n).a else (loopOf s n).b) = true) :
    Completes (.swap n r) s (fun t =>
      loopOf t n = { loopOf s n with swap := true, swapBy := .role r } ∧ t.loops.cmdRes = 0) := by
  refine ⟨_, congrArg Host.Outcome.next (loopSwap_of_valid hrun hu hl hr hs hb), ?_⟩
  exact ⟨by simp, rfl⟩

theorem restart_waits (hr : roleAtLeast r .engineer = true) (hf : (loopOf s n).mode = .fault) :
    Completes (.restart n r) s (fun t =>
      loopOf t n = { loopOf s n with cmds := (loopOf s n).cmds ++ [.restart (.role r)] } ∧ t.loops.cmdRes = 0) :=
  ⟨_, congrArg Host.Outcome.next (loopRestart_of_fault hrun hu hl hr hf), loopOf_pushCmd_self .., rfl⟩

theorem loopBankEdited_stored {inB : Bool} {k : Fin 6} {v : F32} (hr : roleAtLeast r .engineer = true)
    (hb : (loopOf s n).bankB ≠ inB) (hs : (loopOf s n).swap = false) :
    Completes (.loopBankEdited n inB k v r) s (fun t =>
      loopOf t n = (if inB then { loopOf s n with b := bankSet (loopOf s n).b k v }
          else { loopOf s n with a := bankSet (loopOf s n).a k v })
        ∧ t.loops.cmdRes = 0 ∧ Raised Ev.LOOP_BANK_EDITED (loopSrc n) (w32 (n + 256 * (b2n inB + 2 * k))) s t) := by
  refine ⟨_, congrArg Host.Outcome.next (bankEdit_of_inactive hrun hu hl hr hb hs), ?_⟩
  exact ⟨by simp, rfl, raised_loopResult_raiseLoop _ n.isLt _ _ _ rfl⟩

end

/-- Settles O31: each command by what it leaves of its loop, the result it stores, and its event. -/
theorem loopCommands : Obligations.LoopCommands := by
  unfold Obligations.LoopCommands
  intro s n r hrun hu hl
  refine ⟨fun hr => ⟨fun v => ?target, fun v => ?manv, fun v => ?mode⟩,
    fun hr => ⟨?swap, ?restart, fun inB k v => ?edit⟩⟩
  case target => exact lpTarget_waits hrun hu hl hr
  case manv => exact lpManv_waits hrun hu hl hr
  case mode => exact lpModeReq_waits hrun hu hl hr
  case swap => exact swap_pending hrun hu hl hr
  case restart => exact restart_waits hrun hu hl hr
  case edit => exact loopBankEdited_stored hrun hu hl hr

end Sys2Proof.Proofs
end

section
/-! SUPPORT. What the operations of an axis leave of it: its moves, brakes and rests, its commands from each source, and
what an event leaves of the entries that an axis reads (12 R363, R365, R367, R369, R376, R378, R384). -/

namespace Sys2Proof.Laws

open Sys2Proof Sys2Proof.Machine

/-! ### Events and the reads of an axis -/

@[simp] theorem raiseAx_axis (k : EvKind) (a d : Nat) (s : State) (b : Nat) : (raiseAx k a d s).axis b = s.axis b :=
  raiseN_axis ..
@[simp] theorem axCfg_setAxis (s : State) (b : Nat) (f : AxisSt → AxisSt) (a : Nat) :
    axCfg (s.setAxis b f) a = axCfg s a :=
  rfl
@[simp] theorem axCfg_raise (k : EvKind) (src : Nat) (d : W32) (o : Origin) (s : State) (a : Nat) :
    axCfg (raise k src d o s) a = axCfg s a := by
  rw [axCfg, raise_img, axCfg]
@[simp] theorem running_raise (k : EvKind) (src : Nat) (d : W32) (o : Origin) (s : State) (f : Fn) :
    (raise k src d o s).running f = s.running f := by
  rw [State.running, raise_fnState, State.running]
theorem raised_raiseAx {s u : State} (h : Grows s u) (k : EvKind) (a d : Nat) :
    Raised k (axSrc a) (w32 d) s (raiseAx k a d u) :=
  raised_of_growsN h ..

/-- An event changes FN_EVSTAT and the three places that it is delivered to. -/
theorem raise_shape (k : EvKind) (src : Nat) (d : W32) (o : Origin) (s : State) : ∃ fns mmp recd inbox,
    raise k src d o s = { s with fns := fns, mmp := mmp, recd := recd, taskInbox := inbox } := by
  unfold raise deliver
  dsimp only
  repeat' split
  all_goals exact ⟨_, _, _, _, rfl⟩

@[simp] theorem homeEntry_raise (k : EvKind) (src : Nat) (d : W32) (o : Origin) (s : State) (i : Nat) (r : Ref) :
    homeEntry (raise k src d o s) i r = homeEntry s i r := by
  obtain ⟨fns, mmp, recd, inbox, e⟩ := raise_shape k src d o s
  rw [e]
  cases r <;> rfl

theorem live_raise (k : EvKind) (src : Nat) (d : W32) (o : Origin) (s : State) :
    (raise k src d o s).live = s.live := by
  funext f
  rw [State.live, raise_fnState, State.live]

theorem readRef_raise (k : EvKind) (src : Nat) (d : W32) (o : Origin) (s : State) (r : Ref) :
    readRef (raise k src d o s) r = readRef s r := by
  simp only [readRef, readEntry, forceOf, layIdx, State.lay, raise_img, raise_logic, raise_div, homeEntry_raise,
    live_raise]

@[simp] theorem potValue_raise (k : EvKind) (src : Nat) (d : W32) (o : Origin) (s : State) (a : Nat) :
    potValue (raise k src d o s) a = potValue s a := by
  simp only [potValue, axCfg_raise, readRef_raise]

@[simp] theorem homeRef_raise (k : EvKind) (src : Nat) (d : W32) (o : Origin) (s : State) (a : Nat) :
    homeRef (raise k src d o s) a = homeRef s a := by
  simp only [homeRef, limitIn, axCfg_raise, readRef_raise]

@[simp] theorem tgtNow_raise (k : EvKind) (src : Nat) (d : W32) (o : Origin) (s : State) (a : Nat) :
    tgtNow (raise k src d o s) a = tgtNow s a := by
  obtain ⟨fns, mmp, recd, inbox, e⟩ := raise_shape k src d o s
  rw [e]
  rfl

/-! ### Moves, brakes and rests -/

/-- A move of an axis from rest that is allowed begins. -/
theorem tryMove_of_allowed {a : Nat} {t : Int} {s : State}
    (h : MoveAllowed a (prepTarget (axCfg s a) (s.axis a) t).1 s) :
    tryMove a t s = (s.setAxis a (fun y =>
      { beginMove s (axCfg s a) (prepTarget (axCfg s a) (s.axis a) t).1 y with
        state := .moving, pending := some (prepTarget (axCfg s a) (s.axis a) t).1
        blocked := (prepTarget (axCfg s a) (s.axis a) t).2 }), 0) := by
  obtain ⟨torque, line, away, known, free⟩ := h
  have bars : barred (s.axis a) (decide ((s.axis a).pos < (prepTarget (axCfg s a) (s.axis a) t).1)) = false := by
    simpa [barred] using free
  have homed : ((s.axis a).source == .unknown && (axCfg s a).homeMode != 0) = false := by
    simpa using imp_iff_not_or.2 known
  unfold tryMove
  simp only [torque, line, Bool.or_self, Bool.false_eq_true, if_false, away, homed, bars]

theorem tryMove_axis_of_allowed {a : Nat} {t : Int} {s : State}
    (h : MoveAllowed a (prepTarget (axCfg s a) (s.axis a) t).1 s) : (tryMove a t s).1.axis a =
      { beginMove s (axCfg s a) (prepTarget (axCfg s a) (s.axis a) t).1 (s.axis a) with
        state := .moving, pending := some (prepTarget (axCfg s a) (s.axis a) t).1
        blocked := (prepTarget (axCfg s a) (s.axis a) t).2 } := by
  rw [tryMove_of_allowed h]
  exact setAxis_self ..

/-- An axis of which a step has been issued brakes. -/
theorem brakeTo_axis_of_stepped {a : Nat} {s : State} (st : AxState) (by' : BrakeBy) (rest : AxState)
    (h : (s.axis a).first = false) : (brakeTo a st by' rest s).axis a =
      { s.axis a with state := st, braking := true, brakeBy := by', reversal := false, phase := 3 } := by
  simp [brakeTo, h]

theorem deenergised_axis (a : Nat) (s : State) :
    (deenergised a s).axis a = { restIn s .noTorque (s.axis a) with pending := none, queue := 0 } :=
  setAxis_self ..

/-- A homing starts away from an asserted reference, and toward it otherwise. -/
theorem homeStart_axis (a : Nat) (s : State) : (homeStart a s).axis a =
    { homeMotion s a (if homeRef s a then !(axCfg s a).homePos else (axCfg s a).homePos)
        (if homeRef s a then .away none else .approach) (s.axis a) with
      homing := 3, toOff := false, toIdle := false } := by
  rw [homeStart, setAxis_self]
  dsimp only
  split <;> rfl

/-! ### The effect of a command (12 R365, R369, R378, R384) -/

section
variable {a : Nat} {s : State}

theorem cmdEnergise_of_noTorque (h : (s.axis a).state = .noTorque) (torque : (s.axis a).torqueOff = false) :
    cmdEnergise a s = (s.setAxis a (fun y => { restIn s .stopped y with
      hold := true, pending := some (prepTarget (axCfg s a) (s.axis a) (tgtNow s a)).1 }), 0) := by
  unfold cmdEnergise
  simp only [h, torque, bne_self_eq_false, Bool.or_self, Bool.false_eq_true, if_false]

theorem cmdDeenergise_of_rest (h : (s.axis a).state = .idle ∨ (s.axis a).state = .stopped ∨ (s.axis a).state = .dwell) :
    cmdDeenergise a s = (deenergised a s, 0) := by
  unfold cmdDeenergise
  obtain h | h | h := h <;> simp [energised, h]

theorem cmdStop_of_moving (h : (s.axis a).state = .moving) : cmdStop a s =
    (brakeTo a .stopping .profile .stopped (s.setAxis a (fun y => { y with pending := some y.target })), 0) := by
  simp only [cmdStop, h]

theorem cmdQuick_of_moving (h : (s.axis a).state = .moving) : cmdQuick a s =
    (brakeTo a .quickStopping .quick .stopped (s.setAxis a (fun y => { y with pending := some y.target })), 0) := by
  simp only [cmdQuick, h]

theorem cmdResume_of_none (h : (s.axis a).state = .stopped) (line : (s.axis a).ss1Line = false)
    (mode : (axCfg s a).mode ≠ 2) (pending : (s.axis a).pending = none) :
    cmdResume a s = (s.setAxis a (fun y => { y with state := .idle, target := y.pos }), 0) := by
  simp [cmdResume, h, line, mode, pending]

theorem cmdResume_of_pending {p : Int} (h : (s.axis a).state = .stopped) (line : (s.axis a).ss1Line = false)
    (mode : (axCfg s a).mode ≠ 2) (pending : (s.axis a).pending = some p) : cmdResume a s = tryMove a p s := by
  simp [cmdResume, h, line, mode, pending]

theorem cmdHome_of_rest (h : (s.axis a).state = .idle ∨ (s.axis a).state = .stopped) (asked : (axCfg s a).homeMode ≠ 0)
    (mode : (axCfg s a).mode ≠ 2) (line : (s.axis a).ss1Line = false) : cmdHome a s = (homeStart a s, 0) := by
  unfold cmdHome
  obtain h | h := h <;> simp [h, asked, mode, line]

theorem cmdClear_of_cleared (h : (s.axis a).state = .fault) (drive : (s.axis a).drive = 0) : cmdClear a s =
    (s.setAxis a (fun y =>
      { restIn s (if 1 ≤ (s.axis a).cause && (s.axis a).cause ≤ 5 then .noTorque else .stopped) y with
        cause := 0, hold := true, pending := some (prepTarget (axCfg s a) (s.axis a) (tgtNow s a)).1 }), 0) := by
  unfold cmdClear
  simp only [h, drive, bne_self_eq_false, Bool.or_self, Bool.false_eq_true, if_false]

theorem cmdSyncPot_of_rest {p : Int} (h : potValue s a = some p) (rest : inMotion (s.axis a) = false) : cmdSyncPot a s =
    (raiseAx Ev.AX_POS_SYNC a (s32 p)
      (s.setAxis a (fun y => { y with pos := p, source := .pot, mismatch := false, potRun := 0 })), 0) := by
  unfold cmdSyncPot
  simp only [h, rest, Bool.false_eq_true, if_false]

end

/-! ### The sources of a command (12 R363, R364; 18 R546) -/

/-- The state in which a command acts: an MMP command has raised its event. -/
def commandNoted (a code : Nat) (src : CmdSrc) (s : State) : State :=
  match src with
  | .mmp r => raise Ev.AX_MMP_COMMAND (axSrc a) (w32 code) (.role r) s
  | .entry | .panel => s

/-- The result of a command is shown, unless the command came from the panel. -/
def commandShown (a code res : Nat) (src : CmdSrc) (s : State) : State :=
  match src with
  | .mmp _ => axResult a code res true s
  | .entry => axResult a code res false s
  | .panel => s

/-- A command that its source allows acts and shows its result. -/
theorem axCommand_of_allowed {a code : Nat} {src : CmdSrc} {s : State} (h : CmdAllowed a src s) (lo : 1 ≤ code)
    (hi : code ≤ 8) : axCommand a code src s =
      commandShown a code (axEffect a code (commandNoted a code src s)).2 src
        (axEffect a code (commandNoted a code src s)).1 := by
  cases src with
  | entry => simp [axCommand, commandShown, commandNoted, show heldLocal s 1 a = false from h]
  | panel => rfl
  | mmp r =>
    obtain ⟨role, free⟩ := h
    simp [axCommand, commandShown, commandNoted, role, free, lo, hi]

section
variable (a code : Nat) (src : CmdSrc) (s : State)

@[simp] theorem commandNoted_axis (b : Nat) : (commandNoted a code src s).axis b = s.axis b := by
  cases src with
  | mmp r => exact raise_axis ..
  | entry | panel => rfl

@[simp] theorem axCfg_commandNoted (b : Nat) : axCfg (commandNoted a code src s) b = axCfg s b := by
  cases src with
  | mmp r => exact axCfg_raise ..
  | entry | panel => rfl

@[simp] theorem running_commandNoted (f : Fn) : (commandNoted a code src s).running f = s.running f := by
  cases src with
  | mmp r => exact running_raise ..
  | entry | panel => rfl

@[simp] theorem tgtNow_commandNoted (b : Nat) : tgtNow (commandNoted a code src s) b = tgtNow s b := by
  cases src with
  | mmp r => exact tgtNow_raise ..
  | entry | panel => rfl

@[simp] theorem homeRef_commandNoted (b : Nat) : homeRef (commandNoted a code src s) b = homeRef s b := by
  cases src with
  | mmp r => exact homeRef_raise ..
  | entry | panel => rfl

@[simp] theorem potValue_commandNoted (b : Nat) : potValue (commandNoted a code src s) b = potValue s b := by
  cases src with
  | mmp r => exact potValue_raise ..
  | entry | panel => rfl

theorem commandNoted_grows : Grows s (commandNoted a code src s) := by
  cases src with
  | mmp r => exact grows_raise ..
  | entry | panel => exact .refl s

theorem commandShown_inbox (res : Nat) : (commandShown a code res src s).recd.inbox = s.recd.inbox := by
  cases src <;> rfl

/-- A shown result changes the three fields of the result alone, and those of a panel command stay. -/
theorem commandShown_axis (res : Nat) : ∃ r k m,
    (commandShown a code res src s).axis a = { s.axis a with cmdRes := r, cmdCode := k, cmdMmp := m }
      ∧ (src ≠ .panel → r = res ∧ k = code) := by
  cases src with
  | mmp _ | entry => exact ⟨_, _, _, setAxis_self .., fun _ => ⟨rfl, rfl⟩⟩
  | panel => exact ⟨_, _, _, rfl, fun h => absurd rfl h⟩

end

/-- A command that its source allows leaves the axis that its effect leaves, but for the fields of the result, which
hold result 0. -/
theorem axCommand_axis {a code : Nat} {src : CmdSrc} {s t : State} {x : AxisSt} (h : CmdAllowed a src s) (lo : 1 ≤ code)
    (hi : code ≤ 8) (effect : axEffect a code (commandNoted a code src s) = (t, 0)) (left : t.axis a = x) : ∃ r k m,
      (axCommand a code src s).axis a = { x with cmdRes := r, cmdCode := k, cmdMmp := m }
        ∧ (src ≠ .panel → r = 0 ∧ k = code) := by
  rw [axCommand_of_allowed h lo hi, effect, ← left]
  exact commandShown_axis ..

theorem axCommand_inbox {a code : Nat} {src : CmdSrc} {s t : State} (h : CmdAllowed a src s) (lo : 1 ≤ code)
    (hi : code ≤ 8) (effect : axEffect a code (commandNoted a code src s) = (t, 0)) :
    (axCommand a code src s).recd.inbox = t.recd.inbox := by
  rw [axCommand_of_allowed h lo hi, effect]
  exact commandShown_inbox ..

end Sys2Proof.Laws
end

section
/-! CERTIFICATE. The commands of an axis (12 R363, R364, R365, R368, R369, R376, R378, R384). -/

namespace Sys2Proof.Proofs

open Sys2Proof Sys2Proof.Machine Sys2Proof.Laws

section
variable {s : State} {a : Fin 4} {src : CmdSrc} (allowed : CmdAllowed a src s) (hrun : s.running (axisFn a) = true)
  (used : (axCfg s a).mode ≠ 0)
include hrun used

/-- A command to a used axis of a running function has the effect of its code. -/
theorem axEffect_of_used (code : Nat) : axEffect a code (commandNoted a code src s) =
    if code = 1 then cmdEnergise a (commandNoted a code src s)
    else if code = 2 then cmdDeenergise a (commandNoted a code src s)
    else if code = 3 then cmdStop a (commandNoted a code src s)
    else if code = 4 then cmdQuick a (commandNoted a code src s)
    else if code = 5 then cmdResume a (commandNoted a code src s)
    else if code = 6 then cmdHome a (commandNoted a code src s)
    else if code = 7 then cmdClear a (commandNoted a code src s)
    else if code = 8 then cmdSyncPot a (commandNoted a code src s)
    else (commandNoted a code src s, 5) := by
  rw [axEffect, if_neg (by simp [hrun, used])]

include allowed

theorem energise_stops (h : (s.axis a).state = .noTorque) (torque : (s.axis a).torqueOff = false) :
    Completes (.energise a src) s (fun t =>
      (t.axis a).state = .stopped ∧ (t.axis a).hold = true ∧ (t.axis a).pos = (s.axis a).pos
        ∧ (t.axis a).pending = some (prepTarget (axCfg s a) (s.axis a) (tgtNow s a)).1
        ∧ (src ≠ .panel → (t.axis a).cmdRes = 0 ∧ (t.axis a).cmdCode = 1)) := by
  have effect := (axEffect_of_used hrun used 1).trans
    (cmdEnergise_of_noTorque (s := commandNoted a 1 src s) (by simpa using h) (by simpa using torque))
  simp only [commandNoted_axis, axCfg_commandNoted, tgtNow_commandNoted] at effect
  obtain ⟨r, k, m, ax, shown⟩ := axCommand_axis allowed (by decide) (by decide) effect
    ((setAxis_self ..).trans (by rw [commandNoted_axis]))
  refine ⟨_, rfl, ?_⟩
  beta_reduce
  rw [ax]
  exact ⟨rfl, rfl, rfl, rfl, shown⟩

theorem deenergise_removesTorque
    (h : (s.axis a).state = .idle ∨ (s.axis a).state = .stopped ∨ (s.axis a).state = .dwell) :
    Completes (.deenergise a src) s (fun t => (t.axis a).state = .noTorque ∧ (t.axis a).pending = none
      ∧ (t.axis a).queue = 0 ∧ (t.axis a).pos = (s.axis a).pos
      ∧ (src ≠ .panel → (t.axis a).cmdRes = 0 ∧ (t.axis a).cmdCode = 2)) := by
  have effect := (axEffect_of_used hrun used 2).trans
    (cmdDeenergise_of_rest (s := commandNoted a 2 src s) (by simpa using h))
  obtain ⟨r, k, m, ax, shown⟩ := axCommand_axis allowed (by decide) (by decide) effect
    ((deenergised_axis ..).trans (by rw [commandNoted_axis]))
  refine ⟨_, rfl, ?_⟩
  beta_reduce
  rw [ax]
  exact ⟨rfl, rfl, rfl, rfl, shown⟩

theorem stop_brakes (h : (s.axis a).state = .moving) (stepped : (s.axis a).first = false) :
    Completes (.stop a src) s (fun t => (t.axis a).state = .stopping ∧ (t.axis a).braking = true
      ∧ (t.axis a).brakeBy = .profile ∧ (t.axis a).pending = some (s.axis a).target ∧ (t.axis a).v = (s.axis a).v
      ∧ (src ≠ .panel → (t.axis a).cmdRes = 0 ∧ (t.axis a).cmdCode = 3)) := by
  have effect := (axEffect_of_used hrun used 3).trans
    (cmdStop_of_moving (s := commandNoted a 3 src s) (by simpa using h))
  obtain ⟨r, k, m, ax, shown⟩ := axCommand_axis allowed (by decide) (by decide) effect
    ((brakeTo_axis_of_stepped _ _ _ (by simpa using stepped)).trans (by rw [setAxis_self, commandNoted_axis]))
  refine ⟨_, rfl, ?_⟩
  beta_reduce
  rw [ax]
  exact ⟨rfl, rfl, rfl, rfl, rfl, shown⟩

theorem quickStop_brakes (h : (s.axis a).state = .moving) (stepped : (s.axis a).first = false) :
    Completes (.quickStop a src) s (fun t => (t.axis a).state = .quickStopping ∧ (t.axis a).braking = true
      ∧ (t.axis a).brakeBy = .quick ∧ (t.axis a).pending = some (s.axis a).target ∧ (t.axis a).v = (s.axis a).v
      ∧ (src ≠ .panel → (t.axis a).cmdRes = 0 ∧ (t.axis a).cmdCode = 4)) := by
  have effect := (axEffect_of_used hrun used 4).trans
    (cmdQuick_of_moving (s := commandNoted a 4 src s) (by simpa using h))
  obtain ⟨r, k, m, ax, shown⟩ := axCommand_axis allowed (by decide) (by decide) effect
    ((brakeTo_axis_of_stepped _ _ _ (by simpa using stepped)).trans (by rw [setAxis_self, commandNoted_axis]))
  refine ⟨_, rfl, ?_⟩
  beta_reduce
  rw [ax]
  exact ⟨rfl, rfl, rfl, rfl, rfl, shown⟩

theorem resume_idles (h : (s.axis a).state = .stopped) (line : (s.axis a).ss1Line = false)
    (mode : (axCfg s a).mode ≠ 2) (dropped : (s.axis a).pending = none) :
    Completes (.resume a src) s (fun t =>
      (t.axis a).state = .idle ∧ (t.axis a).target = (s.axis a).pos ∧ (src ≠ .panel → (t.axis a).cmdRes = 0)) := by
  have effect := (axEffect_of_used hrun used 5).trans
    (cmdResume_of_none (s := commandNoted a 5 src s) (by simpa using h) (by simpa using line) (by simpa using mode)
      (by simpa using dropped))
  obtain ⟨r, k, m, ax, shown⟩ := axCommand_axis allowed (by decide) (by decide) effect
    ((setAxis_self ..).trans (by rw [commandNoted_axis]))
  refine ⟨_, rfl, ?_⟩
  beta_reduce
  rw [ax]
  exact ⟨rfl, rfl, fun n => (shown n).1⟩

theorem resume_moves (h : (s.axis a).state = .stopped) (line : (s.axis a).ss1Line = false)
    (mode : (axCfg s a).mode ≠ 2) {p : Int} (pending : (s.axis a).pending = some p)
    (move : MoveAllowed a (prepTarget (axCfg s a) (s.axis a) p).1 s) :
    Completes (.resume a src) s (fun t => (t.axis a).state = .moving
      ∧ (t.axis a).target = (prepTarget (axCfg s a) (s.axis a) p).1 ∧ (src ≠ .panel → (t.axis a).cmdRes = 0)) := by
  have effect := ((axEffect_of_used hrun used 5).trans
    (cmdResume_of_pending (s := commandNoted a 5 src s) (by simpa using h) (by simpa using line) (by simpa using mode)
      (by simpa using pending))).trans (tryMove_of_allowed (by simpa [MoveAllowed] using move))
  simp only [commandNoted_axis, axCfg_commandNoted] at effect
  obtain ⟨r, k, m, ax, shown⟩ := axCommand_axis allowed (by decide) (by decide) effect (setAxis_self ..)
  refine ⟨_, rfl, ?_⟩
  beta_reduce
  rw [ax]
  exact ⟨rfl, rfl, fun n => (shown n).1⟩

theorem home_starts (h : (s.axis a).state = .idle ∨ (s.axis a).state = .stopped) (asked : (axCfg s a).homeMode ≠ 0)
    (mode : (axCfg s a).mode ≠ 2) (line : (s.axis a).ss1Line = false) :
    Completes (.home a src) s (fun t =>
      (t.axis a).state = .homing ∧ (t.axis a).homing = 3 ∧ (t.axis a).travelled = 0
        ∧ (t.axis a).forward = (if homeRef s a then !(axCfg s a).homePos else (axCfg s a).homePos)
        ∧ (src ≠ .panel → (t.axis a).cmdRes = 0)) := by
  have effect := (axEffect_of_used hrun used 6).trans (cmdHome_of_rest (s := commandNoted a 6 src s)
    (by simpa using h) (by simpa using asked) (by simpa using mode) (by simpa using line))
  obtain ⟨r, k, m, ax, shown⟩ := axCommand_axis allowed (by decide) (by decide) effect (homeStart_axis ..)
  refine ⟨_, rfl, ?_⟩
  beta_reduce
  rw [ax, homeRef_commandNoted, axCfg_commandNoted]
  exact ⟨rfl, rfl, rfl, rfl, fun n => (shown n).1⟩

theorem clear_leavesFault (h : (s.axis a).state = .fault) (drive : (s.axis a).drive = 0) :
    Completes (.clear a src) s (fun t =>
      (t.axis a).state = (if 1 ≤ (s.axis a).cause ∧ (s.axis a).cause ≤ 5 then .noTorque else .stopped)
        ∧ (t.axis a).cause = 0 ∧ (t.axis a).hold = true ∧ (src ≠ .panel → (t.axis a).cmdRes = 0)) := by
  have effect := (axEffect_of_used hrun used 7).trans
    (cmdClear_of_cleared (s := commandNoted a 7 src s) (by simpa using h) (by simpa using drive))
  simp only [commandNoted_axis, Bool.and_eq_true, decide_eq_true_eq] at effect
  obtain ⟨r, k, m, ax, shown⟩ := axCommand_axis allowed (by decide) (by decide) effect (setAxis_self ..)
  refine ⟨_, rfl, ?_⟩
  beta_reduce
  rw [ax]
  exact ⟨rfl, rfl, rfl, fun n => (shown n).1⟩

theorem syncPot_takesPosition {p : Int} (h : potValue s a = some p) (rest : inMotion (s.axis a) = false) :
    Completes (.syncPot a src) s (fun t =>
      (t.axis a).pos = p ∧ (t.axis a).source = .pot ∧ (t.axis a).mismatch = false ∧ (t.axis a).state = (s.axis a).state
        ∧ (src ≠ .panel → (t.axis a).cmdRes = 0) ∧ Raised Ev.AX_POS_SYNC (axSrc a) (w32 (s32 p)) s t) := by
  have effect := (axEffect_of_used hrun used 8).trans
    (cmdSyncPot_of_rest (s := commandNoted a 8 src s) (by simpa using h) (by simpa using rest))
  obtain ⟨r, k, m, ax, shown⟩ := axCommand_axis allowed (by decide) (by decide) effect
    ((raiseAx_axis ..).trans ((setAxis_self ..).trans (by rw [commandNoted_axis])))
  refine ⟨_, rfl, ?_⟩
  beta_reduce
  rw [ax]
  refine ⟨rfl, rfl, rfl, rfl, fun n => (shown n).1, ?_⟩
  have kept : Grows _ (axCommand a 8 src s) := .of_eq (axCommand_inbox allowed (by decide) (by decide) effect)
  refine raised_mid (commandNoted_grows a 8 src s) ?_ kept
  exact raised_raiseAx (.of_eq rfl) ..

end

/-- Settles O32: each command by what its effect leaves of the axis, and by the result that its source is shown. -/
theorem axisCommands : Obligations.AxisCommands := by
  unfold Obligations.AxisCommands
  intro s a src allowed hrun used
  refine ⟨?energise, ?deenergise, fun h stepped => ⟨?stop, ?quickStop⟩,
    fun h line mode => ⟨?resumeIdle, fun p => ?resumeMove⟩, ?home, ?clear, fun p => ?syncPot⟩
  case energise => exact energise_stops allowed hrun used
  case deenergise => exact deenergise_removesTorque allowed hrun used
  case stop => exact stop_brakes allowed hrun used h stepped
  case quickStop => exact quickStop_brakes allowed hrun used h stepped
  case resumeIdle => exact resume_idles allowed hrun used h line mode
  case resumeMove => exact resume_moves allowed hrun used h line mode
  case home => exact home_starts allowed hrun used
  case clear => exact clear_leavesFault allowed hrun used
  case syncPot => exact syncPot_takesPosition allowed hrun used

end Sys2Proof.Proofs
end

section
/-! SUPPORT. What an axis tick takes from outside, the motor supply, the drive condition and the commands that wait,
which no other operation of an axis changes (12 R362, R363, R364). -/

namespace Sys2Proof.Laws

open Sys2Proof Sys2Proof.Machine

/-- The motor supply, the drive condition and the waiting commands of an axis. -/
def axInputs (x : AxisSt) : Nat × Nat × List (Nat × Role) × List Nat := (x.supply, x.drive, x.mmpCmds, x.panelCmds)

theorem setAxis_inputs {a : Nat} {f : AxisSt → AxisSt} (h : ∀ x, axInputs (f x) = axInputs x) (s : State) :
    axInputs ((s.setAxis a f).axis a) = axInputs (s.axis a) := by
  rw [setAxis_self, h]

section
variable (a : Nat) (s : State)

/-! ### Rests, moves and brakes -/

@[simp] theorem homeFail_inputs (n : Nat) : axInputs ((homeFail a n s).axis a) = axInputs (s.axis a) := by
  rw [homeFail, raiseAx_axis]
  exact setAxis_inputs (fun _ => by rfl) s

@[simp] theorem brakeTo_inputs (st : AxState) (by' : BrakeBy) (rest : AxState) :
    axInputs ((brakeTo a st by' rest s).axis a) = axInputs (s.axis a) :=
  setAxis_inputs (fun x => by dsimp only; split <;> rfl) s

@[simp] theorem deenergised_inputs : axInputs ((deenergised a s).axis a) = axInputs (s.axis a) :=
  setAxis_inputs (fun _ => by rfl) s

@[simp] theorem homeStart_inputs : axInputs ((homeStart a s).axis a) = axInputs (s.axis a) := by
  rw [homeStart_axis]
  rfl

@[simp] theorem tryMove_inputs (t : Int) : axInputs ((tryMove a t s).1.axis a) = axInputs (s.axis a) := by
  unfold tryMove
  extract_lets r x t clamped s1
  have blocked : axInputs (s1.axis a) = axInputs (s.axis a) := setAxis_inputs (fun _ => by rfl) s
  split
  · rfl
  split
  · exact setAxis_inputs (fun y => by dsimp only; split <;> rfl) s
  split
  · rfl
  split
  · dsimp only
    split
    · exact blocked
    · rw [raiseAx_axis, blocked]
  · exact setAxis_inputs (fun _ => by rfl) s

/-! ### References and limits (12 R376, R378) -/

@[simp] theorem homeWatch_inputs : axInputs ((homeWatch a s).axis a) = axInputs (s.axis a) := by
  unfold homeWatch
  dsimp only
  split
  · exact setAxis_inputs (fun _ => by rfl) s
  split
  · exact setAxis_inputs (fun _ => by rfl) s
  · rfl

@[simp] theorem limitAssert_inputs (p : Bool) : axInputs ((limitAssert a p s).axis a) = axInputs (s.axis a) := by
  unfold limitAssert
  extract_lets x r s1 reference toward s2
  have latched : axInputs (s1.axis a) = axInputs (s.axis a) := setAxis_inputs (fun y => by cases p <;> rfl) s
  have stopped : axInputs (s2.axis a) = axInputs (s1.axis a) := by
    unfold s2
    split
    · split
      · exact setAxis_inputs (fun _ => by rfl) s1
      · rfl
    split
    · split
      · rfl
      · exact (brakeTo_inputs ..).trans (homeFail_inputs ..)
    split
    · rfl
    split
    · exact (setAxis_inputs (fun _ => by rfl) _).trans (brakeTo_inputs ..)
    · exact setAxis_inputs (fun _ => by rfl) s1
    · rfl
  split
  · rfl
  · rw [raiseAx_axis, homeWatch_inputs, stopped, latched]

@[simp] theorem limitRelease_inputs (p : Bool) : axInputs ((limitRelease a p s).axis a) = axInputs (s.axis a) := by
  unfold limitRelease
  extract_lets x lat
  split
  · rw [raiseAx_axis]
    exact setAxis_inputs (fun _ => by cases p <;> rfl) s
  · rfl

@[simp] theorem limitTick_inputs : axInputs ((limitTick a s).axis a) = axInputs (s.axis a) := by
  have one : ∀ (p : Bool) (t : State),
      axInputs ((if limitIn t a p then limitAssert a p t else limitRelease a p t).axis a) = axInputs (t.axis a) := by
    intro p t
    split
    · exact limitAssert_inputs ..
    · exact limitRelease_inputs ..
  rw [limitTick]
  exact (one ..).trans (one ..)

/-! ### Commands (12 R363, R364, R365, R369) -/

@[simp] theorem cmdStop_inputs : axInputs ((cmdStop a s).1.axis a) = axInputs (s.axis a) := by
  unfold cmdStop
  dsimp only
  repeat' split
  all_goals simp only [setAxis_self, brakeTo_inputs, homeFail_inputs]
  all_goals rfl

@[simp] theorem cmdQuick_inputs : axInputs ((cmdQuick a s).1.axis a) = axInputs (s.axis a) := by
  unfold cmdQuick
  dsimp only
  repeat' split
  all_goals simp only [setAxis_self, brakeTo_inputs, homeFail_inputs, cmdStop_inputs]
  all_goals rfl

@[simp] theorem cmdDeenergise_inputs : axInputs ((cmdDeenergise a s).1.axis a) = axInputs (s.axis a) := by
  have toOff (t : State) : axInputs ((t.setAxis a (fun y => { y with toOff := true })).axis a) = axInputs (t.axis a) :=
    setAxis_inputs (fun _ => by rfl) t
  unfold cmdDeenergise
  dsimp only
  repeat' split
  all_goals simp only [toOff, deenergised_inputs, cmdStop_inputs]

@[simp] theorem cmdEnergise_inputs : axInputs ((cmdEnergise a s).1.axis a) = axInputs (s.axis a) := by
  unfold cmdEnergise
  dsimp only
  split
  · rfl
  · exact setAxis_inputs (fun _ => by rfl) s

@[simp] theorem cmdClear_inputs : axInputs ((cmdClear a s).1.axis a) = axInputs (s.axis a) := by
  unfold cmdClear
  dsimp only
  split
  · rfl
  · exact setAxis_inputs (fun _ => by rfl) s

@[simp] theorem cmdResume_inputs : axInputs ((cmdResume a s).1.axis a) = axInputs (s.axis a) := by
  unfold cmdResume
  dsimp only
  repeat' split
  all_goals simp only [setAxis_self, tryMove_inputs]
  all_goals rfl

@[simp] theorem cmdHome_inputs : axInputs ((cmdHome a s).1.axis a) = axInputs (s.axis a) := by
  unfold cmdHome
  dsimp only
  split
  · rfl
  · exact homeStart_inputs ..

@[simp] theorem cmdSyncPot_inputs : axInputs ((cmdSyncPot a s).1.axis a) = axInputs (s.axis a) := by
  unfold cmdSyncPot
  repeat' split
  · rfl
  · rfl
  · rw [raiseAx_axis]
    exact setAxis_inputs (fun _ => by rfl) s

@[simp] theorem axEffect_inputs (code : Nat) : axInputs ((axEffect a code s).1.axis a) = axInputs (s.axis a) := by
  unfold axEffect
  repeat' split
  all_goals simp

@[simp] theorem axResult_inputs (code res : Nat) (mmp : Bool) :
    axInputs ((axResult a code res mmp s).axis a) = axInputs (s.axis a) :=
  setAxis_inputs (fun _ => by rfl) s

@[simp] theorem axCommand_inputs (code : Nat) (src : CmdSrc) :
    axInputs ((axCommand a code src s).axis a) = axInputs (s.axis a) := by
  unfold axCommand
  cases src with
  | panel => exact axEffect_inputs ..
  | entry =>
    dsimp only
    split <;> simp
  | mmp r =>
    dsimp only
    repeat' split
    all_goals simp

theorem forAll_axCommand_inputs {β : Type} (l : List β) (code : β → Nat) (src : β → CmdSrc) :
    axInputs ((forAll l (fun p u => axCommand a (code p) (src p) u) s).axis a) = axInputs (s.axis a) :=
  forAll_keeps (fun u => axInputs (u.axis a)) (fun _ _ => axCommand_inputs ..) s

@[simp] theorem wdAction_inputs : axInputs ((wdAction a s).axis a) = axInputs (s.axis a) := by
  unfold wdAction
  dsimp only
  repeat' split
  all_goals simp only [setAxis_self, cmdStop_inputs, cmdQuick_inputs, cmdDeenergise_inputs]
  all_goals rfl

/-! ### Targets, estimator and entries (12 R362, R365, R368, R380) -/

@[simp] theorem targetChange_inputs (raw : Int) : axInputs ((targetChange a raw s).axis a) = axInputs (s.axis a) := by
  unfold targetChange
  dsimp only
  repeat' split
  all_goals simp only [setAxis_self, tryMove_inputs, raiseAx_axis]
  all_goals rfl

@[simp] theorem estTick_inputs : axInputs ((estTick a s).axis a) = axInputs (s.axis a) :=
  setAxis_inputs (fun x => by split <;> rfl) s

@[simp] theorem axEntries_axis (b : Nat) : (axEntries a s).axis b = s.axis b := by
  rw [State.axis, axes_of_view (axEntries_view (m := N.axes) (by decide) a s) (by decide), State.axis]

end

/-- A tick of a live axis without a drive fault stores the supply and ends the waiting commands: what the tick applies
after that changes none of them. -/
theorem axisTick_inputs {a : Nat} {s : State} (supply : Nat) (live : axLive s a = true)
    (torque : (s.axis a).torqueOff = false) : axInputs ((axisTick a supply 0 s).axis a) = (supply, 0, [], []) := by
  unfold axisTick
  extract_lets t t1 t2 t3 t4 w seq entry mmp panel t5 t6 t7 t8 tgt t9
  have stored : t.axis a = { s.axis a with supply := supply, drive := 0 } := setAxis_self ..
  have kept : t1 = t := if_neg (by simp [stored, torque])
  have stays : axLive t1 a = true := by rw [kept]; exact live
  have calm : t2 = t := (if_neg (by decide)).trans kept
  have before : axInputs (t4.axis a) = (supply, 0, (s.axis a).mmpCmds, (s.axis a).panelCmds) := by
    unfold t4 t3
    rw [wdAction_inputs, homeWatch_inputs, limitTick_inputs, calm, stored]
    rfl
  clear_value t4
  have taken : axInputs (t5.axis a) = (supply, 0, [], []) := by
    simp only [axInputs, Prod.mk.injEq] at before
    obtain ⟨supplied, driven, -, -⟩ := before
    simp only [t5, setAxis_self, axInputs, supplied, driven]
  clear_value t5
  have ordered : axInputs (t6.axis a) = axInputs (t5.axis a) := by
    refine forAll_keeps (fun u => axInputs (u.axis a)) (fun c u => ?_) t5
    exact (forAll_axCommand_inputs ..).trans ((forAll_axCommand_inputs ..).trans (forAll_axCommand_inputs ..))
  clear_value t6
  have others : axInputs (t8.axis a) = axInputs (t6.axis a) :=
    (forAll_axCommand_inputs ..).trans (forAll_axCommand_inputs ..)
  clear_value t8
  have targeted : axInputs (t9.axis a) = axInputs (t8.axis a) := by
    unfold t9
    split
    · exact targetChange_inputs ..
    · rfl
  rw [if_neg (by simp [stays]), axEntries_axis, estTick_inputs, targeted, others, ordered, taken]

end Sys2Proof.Laws
end

section
/-! SUPPORT. What the instants of a motion leave of an axis: targets, microsteps, the ends of the dwell and of the hold
delay, drive faults and limits (12 R359, R360, R364, R367, R368, R371, R372, R376). -/

namespace Sys2Proof.Laws

open Sys2Proof Sys2Proof.Machine

section
variable {a : Nat} {s : State}

/-! ### Targets and the dwell (12 R365, R368) -/

/-- A target that an idle axis takes may be its next move. -/
theorem targetChange_of_idle (raw : Int) (mode : (axCfg s a).mode ≠ 2) (h : (s.axis a).state = .idle) :
    targetChange a raw s = (tryMove a raw (s.setAxis a (fun x => { x with tgtSeen := raw }))).1 := by
  unfold targetChange
  simp [mode, h]

/-- A target to which a move is allowed starts the move. -/
theorem targetChange_axis_of_allowed {raw : Int} (mode : (axCfg s a).mode ≠ 2) (h : (s.axis a).state = .idle)
    (move : MoveAllowed a (prepTarget (axCfg s a) (s.axis a) raw).1 s) : ∃ u, (targetChange a raw s).axis a =
      { beginMove u (axCfg s a) (prepTarget (axCfg s a) (s.axis a) raw).1 { s.axis a with tgtSeen := raw } with
        state := .moving, pending := some (prepTarget (axCfg s a) (s.axis a) raw).1
        blocked := (prepTarget (axCfg s a) (s.axis a) raw).2 } := by
  have begun (u : State) (cfg : axCfg u a = axCfg s a) (ax : u.axis a = { s.axis a with tgtSeen := raw }) :
      (tryMove a raw u).1.axis a =
        { beginMove u (axCfg s a) (prepTarget (axCfg s a) (s.axis a) raw).1 { s.axis a with tgtSeen := raw } with
          state := .moving, pending := some (prepTarget (axCfg s a) (s.axis a) raw).1
          blocked := (prepTarget (axCfg s a) (s.axis a) raw).2 } := by
    have allowed : MoveAllowed a (prepTarget (axCfg u a) (u.axis a) raw).1 u := by
      simpa [MoveAllowed, prepTarget, cfg, ax] using move
    rw [tryMove_axis_of_allowed allowed, cfg, ax]
    rfl
  rw [targetChange_of_idle raw mode h]
  exact ⟨_, begun _ rfl (setAxis_self ..)⟩

theorem dwellEnd_of_allowed (live : axLive s a = true) (h : (s.axis a).state = .dwell)
    (move : MoveAllowed a (prepTarget (axCfg s a) (s.axis a) (s.axis a).target).1 s) :
    dwellEnd a s = (tryMove a (s.axis a).target s).1 := by
  unfold dwellEnd
  simp [live, h, tryMove_of_allowed move]

/-! ### Microsteps (12 R367, R371, R372) -/

theorem stepsLeft_of_moving {x : AxisSt} (h : x.state = .moving) (straight : x.reversal = false) :
    stepsLeft x = some (x.target - x.pos).natAbs := by
  simp [stepsLeft, h, straight]

/-- An advance of a move that does not reverse ends the move at its target. -/
theorem afterAdvance_of_moving (left : Nat) (slow : Bool) (h : (s.axis a).state = .moving)
    (straight : (s.axis a).reversal = false) : afterAdvance a left slow s =
      if left = 0 then s.setAxis a (fun y => restIn s .idle y) else s := by
  simp [afterAdvance, h, straight]

/-- A microstep of a move that does not reverse advances the axis, which idles at its target. -/
theorem moveStep_of_moving (h : (s.axis a).state = .moving) (straight : (s.axis a).reversal = false) :
    ((moveStep a s).axis a).pos = (if (s.axis a).forward then (s.axis a).pos + 1 else (s.axis a).pos - 1)
      ∧ ((moveStep a s).axis a).travelled = (s.axis a).travelled + 1
      ∧ ((moveStep a s).axis a).state =
        (if ((moveStep a s).axis a).pos = (s.axis a).target then .idle else .moving) := by
  unfold moveStep
  extract_lets x p g iv pos s1 left
  have advanced : s1.axis a = { x with
      v := g.1, braking := g.2, interval := iv.1, rem := iv.2, first := false, pos := pos, travelled := x.travelled + 1
      phase := if g.2 then 3 else if F64.lt x.v g.1 then 1 else 2 } := setAxis_self ..
  have moving : (s1.axis a).state = .moving := by rw [advanced]; exact h
  have onward : (s1.axis a).reversal = false := by rw [advanced]; exact straight
  have way : left = (x.target - pos).natAbs := by
    unfold left
    rw [stepsLeft_of_moving moving onward, advanced]
  rw [afterAdvance_of_moving _ _ moving onward, way]
  by_cases arrived : pos = x.target
  · rw [if_pos (by simp [arrived]), setAxis_self, advanced]
    exact ⟨rfl, rfl, (if_pos arrived).symm⟩
  · rw [if_neg (by simpa [sub_eq_zero] using Ne.symm arrived), advanced]
    exact ⟨rfl, rfl, h.trans (if_neg arrived).symm⟩

theorem microstep_of_moving (live : axLive s a = true) (mode : (axCfg s a).mode = 1) (h : (s.axis a).state = .moving) :
    microstep a s = moveStep a s := by
  simp [microstep, live, mode, inMotion, h]

theorem microstep_of_queued (live : axLive s a = true) (mode : (axCfg s a).mode = 2) (h : (s.axis a).state = .idle)
    (queued : (s.axis a).queue ≠ 0) : microstep a s = queueStep a s := by
  simp [microstep, live, mode, h, queued]

/-- A microstep of the queue moves one step from the queue to the position. -/
theorem queueStep_of_queued (queued : (s.axis a).queue ≠ 0) :
    ((queueStep a s).axis a).pos + ((queueStep a s).axis a).queue = (s.axis a).pos + (s.axis a).queue
      ∧ ((queueStep a s).axis a).pos = (if 0 < (s.axis a).queue then (s.axis a).pos + 1 else (s.axis a).pos - 1) := by
  rw [queueStep, setAxis_self, if_neg queued]
  by_cases ahead : 0 < (s.axis a).queue
  · simp only [if_pos ahead]
    exact ⟨by ring, trivial⟩
  · simp only [if_neg ahead]
    exact ⟨by ring, trivial⟩

/-! ### Drive faults (12 R360) -/

theorem homeFail_axis (a n : Nat) (s : State) : (homeFail a n s).axis a =
    { s.axis a with homing := 2, homeRes := n, source := .unknown, homePhase := .none } := by
  rw [homeFail, raiseAx_axis, setAxis_self]

/-- A fault brings the axis to rest, with its cause; the position may become unknown and a homing fails. -/
theorem axFault_axis (a cause : Nat) (s : State) : ∃ source homing res, (axFault a cause s).axis a =
    { restIn s .fault (s.axis a) with
      cause := cause, queue := 0, hold := true, source := source, homing := homing, homeRes := res } := by
  unfold axFault
  extract_lets wasHoming speed s1
  split
  · rw [homeFail_axis, setAxis_self]
    exact ⟨_, _, _, rfl⟩
  · rw [setAxis_self]
    exact ⟨_, _, _, rfl⟩

theorem axFault_grows (a cause : Nat) (s : State) : Grows s (axFault a cause s) := by
  unfold axFault
  dsimp only
  split
  · exact (homeFail_grows ..).from_eq rfl
  · exact .of_eq rfl

theorem driverFault_of_working (cause : Nat) (torque : (s.axis a).state ≠ .torqueRemoved)
    (h : (s.axis a).state ≠ .fault) : driverFault a cause s =
      raiseAx Ev.AX_DRIVER_FAULT a cause (axFault a cause (s.setAxis a (fun x => { x with drive := cause }))) := by
  unfold driverFault
  simp [torque, h]

/-! ### Limits (12 R376) -/

theorem homeWatch_of_not_homing (h : (s.axis a).state ≠ .homing) : homeWatch a s = s := by
  simp [homeWatch, h]

/-- A limit that asserts on an axis at rest latches, and may drop the queue of coarse steps. -/
theorem limitAssert_of_rest {p : Bool} (h : (s.axis a).state = .idle ∨ (s.axis a).state = .stopped)
    (free : barred (s.axis a) p = false) : ∃ u q v,
      limitAssert a p s = raiseAx Ev.AX_LIMIT a (b2n p) u ∧ u.recd.inbox = s.recd.inbox
        ∧ u.axis a = { (if p then { s.axis a with limP := true, latP := (s.axis a).pos }
            else { s.axis a with limN := true, latN := (s.axis a).pos }) with queue := q, v := v } := by
  have still : inMotion (s.axis a) = false := by
    obtain h | h := h <;> simp [inMotion, h]
  have away : (s.axis a).state ≠ .homing := by
    obtain h | h := h <;> simp [h]
  unfold limitAssert
  extract_lets x r s1 reference toward s2 stopped
  have latched : s1.axis a = (if p then { x with limP := true, latP := x.pos }
      else { x with limN := true, latN := x.pos }) := setAxis_self ..
  have unhurt : stopped = false := by simp [stopped, toward, x, still]
  have settled : ∃ q v, s2.axis a = { s1.axis a with queue := q, v := v } ∧ s2.recd.inbox = s.recd.inbox := by
    unfold s2
    split
    · split
      · exact ⟨_, _, setAxis_self .., rfl⟩
      · exact ⟨_, _, rfl, rfl⟩
    · rw [if_neg (by simpa using away), if_pos (by simp [toward, x, still])]
      exact ⟨_, _, rfl, rfl⟩
  obtain ⟨q, v, ax, quiet⟩ := settled
  have calm : homeWatch a s2 = s2 := homeWatch_of_not_homing (by rw [ax, latched]; cases p <;> exact away)
  rw [if_neg (by simp [x, free]), unhurt, calm]
  exact ⟨s2, q, v, rfl, quiet, by rw [ax, latched]⟩

end

end Sys2Proof.Laws
end

section
/-! CERTIFICATE. The motion of an axis (12 R359, R360, R364, R367, R368, R371, R372, R376). -/

namespace Sys2Proof.Proofs

open Sys2Proof Sys2Proof.Machine Sys2Proof.Laws

theorem holdDelayEnd_holds {s : State} {a : Fin 4} (current : energised (s.axis a) = true)
    (rest : inMotion (s.axis a) = false) :
    Completes (.holdDelayEnd a) s (fun t => t.axis a = { s.axis a with hold := true }) := by
  refine ⟨_, rfl, ?_⟩
  beta_reduce
  rw [holdDelay, setAxis_self, if_pos (by simp [current, rest])]

section
variable {s : State} {a : Fin 4} (live : axLive s a = true)
include live

theorem axisTick_takesInputs (supply : Nat) (torque : (s.axis a).torqueOff = false) :
    Completes (.axisTick a supply 0) s (fun t =>
      (t.axis a).supply = supply ∧ (t.axis a).drive = 0 ∧ (t.axis a).mmpCmds = [] ∧ (t.axis a).panelCmds = []) := by
  refine ⟨_, rfl, ?_⟩
  simpa only [axInputs, Prod.mk.injEq] using axisTick_inputs supply live torque

theorem targetChange_moves {w : W32} (hrun : s.running (axisFn a) = true) (mode : (axCfg s a).mode ≠ 2)
    (h : (s.axis a).state = .idle) (move : MoveAllowed a (prepTarget (axCfg s a) (s.axis a) w.toInt).1 s) :
    Completes (.targetChange a w) s (fun t => (t.axis a).state = .moving ∧ (t.axis a).tgtSeen = w.toInt
      ∧ (t.axis a).target = (prepTarget (axCfg s a) (s.axis a) w.toInt).1
      ∧ (t.axis a).forward = decide ((s.axis a).pos < (prepTarget (axCfg s a) (s.axis a) w.toInt).1)) := by
  have used : (axCfg s a).mode ≠ 0 := by
    simp only [axLive, Bool.and_eq_true, bne_iff_ne] at live
    exact live.1
  have allowed : (s.running (axisFn a) && (axCfg s a).mode != 0) = true := by simp [hrun, used]
  obtain ⟨u, ax⟩ := targetChange_axis_of_allowed mode h move
  refine ⟨targetChange a w.toInt s, congrArg Host.Outcome.next (if_pos allowed), ?_⟩
  beta_reduce
  rw [ax]
  exact ⟨rfl, rfl, rfl, rfl⟩

theorem microstep_advances (mode : (axCfg s a).mode = 1) (h : (s.axis a).state = .moving)
    (straight : (s.axis a).reversal = false) :
    Completes (.microstep a) s (fun t =>
      (t.axis a).pos = (if (s.axis a).forward then (s.axis a).pos + 1 else (s.axis a).pos - 1)
        ∧ (t.axis a).travelled = (s.axis a).travelled + 1
        ∧ (t.axis a).state = (if (t.axis a).pos = (s.axis a).target then .idle else .moving)) :=
  ⟨_, congrArg Host.Outcome.next (microstep_of_moving live mode h), moveStep_of_moving h straight⟩

theorem microstep_takesFromQueue (mode : (axCfg s a).mode = 2) (h : (s.axis a).state = .idle)
    (queued : (s.axis a).queue ≠ 0) :
    Completes (.microstep a) s (fun t =>
      (t.axis a).pos + (t.axis a).queue = (s.axis a).pos + (s.axis a).queue
        ∧ (t.axis a).pos = (if 0 < (s.axis a).queue then (s.axis a).pos + 1 else (s.axis a).pos - 1)) :=
  ⟨_, congrArg Host.Outcome.next (microstep_of_queued live mode h queued), queueStep_of_queued queued⟩

theorem dwellEnd_moves (h : (s.axis a).state = .dwell)
    (move : MoveAllowed a (prepTarget (axCfg s a) (s.axis a) (s.axis a).target).1 s) :
    Completes (.dwellEnd a) s (fun t => (t.axis a).state = .moving
      ∧ (t.axis a).target = (prepTarget (axCfg s a) (s.axis a) (s.axis a).target).1
      ∧ (t.axis a).pos = (s.axis a).pos) := by
  refine ⟨_, congrArg Host.Outcome.next (dwellEnd_of_allowed live h move), ?_⟩
  beta_reduce
  rw [tryMove_axis_of_allowed move]
  exact ⟨rfl, rfl, rfl⟩

theorem axDriverFault_faults {c : Nat} (lo : 1 ≤ c) (hi : c ≤ 5) (torque : (s.axis a).state ≠ .torqueRemoved)
    (h : (s.axis a).state ≠ .fault) :
    Completes (.axDriverFault a c) s (fun t => (t.axis a).state = .fault ∧ (t.axis a).cause = c ∧ (t.axis a).drive = c
      ∧ (t.axis a).pos = (s.axis a).pos ∧ Raised Ev.AX_DRIVER_FAULT (axSrc a) (w32 c) s t) := by
  have taken : (axLive s a && 1 ≤ c && c ≤ 5) = true := by simp [live, lo, hi]
  have faulted : (if axLive s a && 1 ≤ c && c ≤ 5 then driverFault a c s else s) = _ :=
    (if_pos taken).trans (driverFault_of_working c torque h)
  obtain ⟨source, homing, res, ax⟩ := axFault_axis a c (s.setAxis a (fun x => { x with drive := c }))
  refine ⟨_, congrArg Host.Outcome.next faulted, ?_⟩
  beta_reduce
  rw [raiseAx_axis, ax, setAxis_self]
  refine ⟨rfl, rfl, rfl, rfl, raised_raiseAx ?_ ..⟩
  exact (axFault_grows ..).from_eq rfl

/-- A limit that asserts on an axis at rest, in either direction. -/
theorem axLimit_latches {p : Bool} (h : (s.axis a).state = .idle ∨ (s.axis a).state = .stopped)
    (free : barred (s.axis a) p = false) :
    Completes (.axLimit a p) s (fun t => barred (t.axis a) p = true
      ∧ (if p then (t.axis a).latP else (t.axis a).latN) = (s.axis a).pos ∧ (t.axis a).state = (s.axis a).state
      ∧ Raised Ev.AX_LIMIT (axSrc a) (w32 (b2n p)) s t) := by
  obtain ⟨u, q, v, asserted, quiet, ax⟩ := limitAssert_of_rest h free
  refine ⟨_, congrArg Host.Outcome.next ((if_pos live).trans asserted), ?_⟩
  beta_reduce
  rw [raiseAx_axis, ax]
  have raised : Raised Ev.AX_LIMIT (axSrc a) (w32 (b2n p)) s (raiseAx Ev.AX_LIMIT a (b2n p) u) :=
    raised_raiseAx (.of_eq quiet) ..
  cases p <;> exact ⟨rfl, rfl, rfl, raised⟩

end

/-- Settles O33: the tick by what no operation of it changes, and every other instant by what it leaves of the axis. -/
theorem axisMotion : Obligations.AxisMotion := by
  unfold Obligations.AxisMotion
  intro s a live
  refine ⟨?tick, fun w => ?target, ?microstep, ?queue, ?dwell, ?hold, fun c => ?fault, fun h => ⟨?positive, ?negative⟩⟩
  case tick => exact axisTick_takesInputs live
  case target => exact targetChange_moves live
  case microstep => exact microstep_advances live
  case queue => exact microstep_takesFromQueue live
  case dwell => exact dwellEnd_moves live
  case hold => exact holdDelayEnd_holds
  case fault => exact axDriverFault_faults live
  case positive => exact axLimit_latches (p := true) live h
  case negative => exact axLimit_latches (p := false) live h

end Sys2Proof.Proofs
end

section
/-! SUPPORT. What the sensors, the coarse steps and the rate mode leave of an axis: the load angle and a stall, the
potentiometer check, a step edge, the velocity word and a carry (12 R371, R373, R374, R380, R381, R384). -/

namespace Sys2Proof.Laws

open Sys2Proof Sys2Proof.Machine

/-! ### The load angle and a stall (12 R380, R381) -/

/-- The load-angle and back-EMF estimates of an axis. -/
def loadReadings (x : AxisSt) : Nat × Nat × F32 := (x.loadAng, x.loadMax, x.emf)

theorem setAxis_loadReadings {a : Nat} {f : AxisSt → AxisSt} (h : ∀ x, loadReadings (f x) = loadReadings x)
    (s : State) :
    loadReadings ((s.setAxis a f).axis a) = loadReadings (s.axis a) := by
  rw [setAxis_self, h]

theorem axFault_loadReadings (a cause : Nat) (s : State) :
    loadReadings ((axFault a cause s).axis a) = loadReadings (s.axis a) := by
  obtain ⟨_, _, _, ax⟩ := axFault_axis a cause s
  rw [ax]
  rfl

theorem homeFail_loadReadings (a n : Nat) (s : State) :
    loadReadings ((homeFail a n s).axis a) = loadReadings (s.axis a) := by
  rw [homeFail_axis]
  rfl

/-- A stall, whatever its action, keeps the readings. -/
theorem stall_loadReadings (a : Nat) (s : State) : loadReadings ((stall a s).axis a) = loadReadings (s.axis a) := by
  unfold stall
  extract_lets x r s1 s2
  have counted : loadReadings (s1.axis a) = loadReadings (s.axis a) := setAxis_loadReadings (fun _ => by rfl) s
  have declared : loadReadings (s2.axis a) = loadReadings (s1.axis a) := by
    unfold s2
    rw [raiseAx_axis]
    exact setAxis_loadReadings (fun _ => by rfl) s1
  split
  · refine Eq.trans ?_ counted
    exact (setAxis_loadReadings (fun _ => by rfl) _).trans (setAxis_loadReadings (fun _ => by rfl) s1)
  split
  · exact counted
  split
  · rw [axFault_loadReadings, declared, counted]
  split
  · rw [homeFail_loadReadings, ← counted, ← declared]
    exact setAxis_loadReadings (fun _ => by rfl) s2
  · rw [declared, counted]

theorem loadEstimate_loadReadings {a : Nat} {s : State} (deg : Nat) (emf : F32) (live : axLive s a = true) :
    loadReadings ((loadEstimate a deg emf s).axis a) = (min deg 255, max (s.axis a).loadMax (min deg 255), emf) := by
  unfold loadEstimate
  extract_lets x r run valid sr s1
  have stored : loadReadings (s1.axis a) = (min deg 255, max (s.axis a).loadMax (min deg 255), emf) := by
    unfold s1
    rw [setAxis_self]
    rfl
  rw [if_neg (by simp [live])]
  split
  · rw [stall_loadReadings, stored]
  · exact stored

/-- Whatever follows an advance of a move, the position and the way stay. -/
theorem afterAdvance_of_moving_keeps {a : Nat} {s : State} (left : Nat) (slow : Bool) (h : (s.axis a).state = .moving) :
    ((afterAdvance a left slow s).axis a).pos = (s.axis a).pos
      ∧ ((afterAdvance a left slow s).axis a).travelled = (s.axis a).travelled := by
  have rests (st : AxState) : ((s.setAxis a (restIn s st)).axis a).pos = (s.axis a).pos
      ∧ ((s.setAxis a (restIn s st)).axis a).travelled = (s.axis a).travelled := by
    rw [setAxis_self]
    exact ⟨rfl, rfl⟩
  cases straight : (s.axis a).reversal with
  | false =>
    rw [afterAdvance_of_moving left slow h straight]
    split
    · exact rests .idle
    · exact ⟨rfl, rfl⟩
  | true =>
    unfold afterAdvance
    simp only [h, straight, if_true]
    split
    · exact rests .dwell
    · exact ⟨rfl, rfl⟩

theorem restState_of_rest {x : AxisSt} (rest : x.state = .idle ∨ x.state = .stopped ∨ x.state = .noTorque) :
    (x.state == .idle || x.state == .stopped || x.state == .noTorque) = true := by
  simpa [or_assoc] using rest

section
variable {a : Nat} {s : State} (live : axLive s a = true)
include live

/-! ### The potentiometer (12 R384) -/

section
variable {p : Int} (pot : potValue s a = some p) (init : (s.axis a).potInit = false)
  (rest : (s.axis a).state = .idle ∨ (s.axis a).state = .stopped ∨ (s.axis a).state = .noTorque)
  (long : (s.axis a).restAt + 500000000 ≤ s.now)
include pot init rest long

/-- A value within the tolerance ends the run of deviations. -/
theorem potCheck_within (near : (p - (s.axis a).pos).natAbs ≤ (axCfg s a).potTol) : potCheck a s =
    s.setAxis a (fun y =>
      { y with potDev := p - (s.axis a).pos, potRun := 0
               source := if y.source == .restored then .pot else y.source }) := by
  have atRest := restState_of_rest rest
  simp [potCheck, live, pot, init, atRest, long, Nat.not_lt.2 near]

/-- A value beyond the tolerance lengthens the run, and a run of three marks a mismatch, which may end in FAULT. -/
theorem potCheck_beyond (far : (axCfg s a).potTol < (p - (s.axis a).pos).natAbs) :
    ((potCheck a s).axis a).potDev = p - (s.axis a).pos ∧ ((potCheck a s).axis a).pos = (s.axis a).pos
      ∧ ((potCheck a s).axis a).potRun = min ((s.axis a).potRun + 1) 3
      ∧ ((s.axis a).potRun = 2 → ((potCheck a s).axis a).mismatch = true) := by
  have atRest := restState_of_rest rest
  unfold potCheck
  simp only [live, pot, init, atRest, long, far, Bool.not_true, Bool.false_and, Bool.true_and, Bool.false_eq_true,
    decide_true, if_true, if_false]
  split
  · split
    · obtain ⟨_, _, _, ax⟩ := axFault_axis a 7 (raiseAx Ev.AX_POS_MISMATCH a (s32 (p - (s.axis a).pos))
        ((s.setAxis a (fun y =>
          { y with potDev := p - (s.axis a).pos, potRun := min ((s.axis a).potRun + 1) 3 })).setAxis a
          (fun y => { y with mismatch := true })))
      rw [ax, raiseAx_axis, setAxis_self, setAxis_self]
      exact ⟨rfl, rfl, rfl, fun _ => rfl⟩
    · rw [raiseAx_axis, setAxis_self, setAxis_self]
      exact ⟨rfl, rfl, rfl, fun _ => rfl⟩
  · next unmarked =>
    rw [setAxis_self]
    refine ⟨rfl, rfl, rfl, fun run => ?_⟩
    simpa [run] using unmarked

end

/-! ### Coarse steps (12 R371) -/

/-- The queue of coarse steps with one more, in the direction of the edge. -/
def queueAfter (s : State) (a : Nat) (dir : Bool) : Int :=
  if dir then (s.axis a).queue + (axCfg s a).sdDiv else (s.axis a).queue - (axCfg s a).sdDiv

/-- A step edge that an idle axis takes changes the queue unless the queue would grow beyond its limit. -/
theorem stepEdge_axis {dir : Bool} (mode : (axCfg s a).mode = 2) (h : (s.axis a).state = .idle)
    (line : (s.axis a).ss1Line = false) (known : (s.axis a).source ≠ .unknown ∨ (axCfg s a).homeMode = 0)
    (free : barred (s.axis a) dir = false) :
    ∃ iv lag blocked v, (stepEdge a dir s).axis a = { s.axis a with
      queue := (prepTarget (axCfg s a) (s.axis a) ((s.axis a).pos
        + (if 65535 < (queueAfter s a dir).natAbs then (s.axis a).queue else queueAfter s a dir))).1 - (s.axis a).pos
      sdLost := if 65535 < (queueAfter s a dir).natAbs then satInc top32 (s.axis a).sdLost else (s.axis a).sdLost
      sdPrev := some (s.now / 100), sdInterval := iv, lagRaised := lag, blocked := blocked, hold := false
      v := v } := by
  have homed : ((s.axis a).source == .unknown && (axCfg s a).homeMode != 0) = false := by
    simpa using imp_iff_not_or.2 known
  unfold stepEdge
  extract_lets x r s0 q1 lost q0 t q edge per i iv lag s1
  rw [if_neg (by simp [live, r, x, mode, h, line]), if_neg (by simp [r, x, homed]), if_neg (by simp [x, free]),
    raiseIf_axis]
  have stored : s1.axis a = _ := setAxis_self ..
  have full : (lost = true) = (65535 < (queueAfter s a dir).natAbs) := decide_eq_true_eq
  rw [stored]
  unfold q t q0
  simp only [full]
  exact ⟨_, _, _, _, rfl⟩

/-! ### PS-40 rate mode (12 R373, R374) -/

/-- A move with room to brake gains speed up to the maximum. -/
theorem velocityUpdate_of_room (mode : (axCfg s a).mode = 3) (h : (s.axis a).state = .moving)
    (running : (s.axis a).braking = false) (straight : (s.axis a).reversal = false)
    (room : psBrake (axCfg s a) (s.axis a).vel < (carriesLeft (axCfg s a) (s.axis a) : Int)) :
    ∃ phase, (velocityUpdate a s).axis a =
      { setVel s (min ((s.axis a).vel + (axCfg s a).psAcc) (axCfg s a).psVmax) (s.axis a) with phase := phase } := by
  unfold velocityUpdate
  extract_lets x r vmax arrive quick v
  have enRoute : arrive = false := by
    unfold arrive
    rw [stepsLeft_of_moving h straight]
    exact decide_eq_false (Int.not_le.2 room)
  have top : vmax = r.psVmax := if_neg (by simp [x, h])
  have faster : v = min (x.vel + r.psAcc) r.psVmax := by
    unfold v
    rw [if_neg (by simp [x, running]), if_neg (by simp [x, running, enRoute]), top]
  rw [if_neg (by simp [live, r, x, mode, inMotion, h]), setAxis_self, faster]
  exact ⟨_, rfl⟩

/-- A carry of a move advances the axis by AX_PS_DIV, whether the move goes on or ends there. -/
theorem carryStep_of_moving (mode : (axCfg s a).mode = 3) (h : (s.axis a).state = .moving) (fast : (s.axis a).vel ≠ 0) :
    ((carryStep a s).axis a).pos =
        (if (s.axis a).forward then (s.axis a).pos + (axCfg s a).psDiv else (s.axis a).pos - (axCfg s a).psDiv)
      ∧ ((carryStep a s).axis a).travelled = (s.axis a).travelled + (axCfg s a).psDiv := by
  unfold carryStep
  extract_lets x r d s1 y passed left
  have advanced : s1.axis a = { x with
      pos := if x.forward then x.pos + d else x.pos - d, interval := 429496729600 / (x.vel * max 1 r.psDiv)
      first := false, travelled := x.travelled + r.psDiv } := setAxis_self ..
  have moving : (s1.axis a).state = .moving := by rw [advanced]; exact h
  rw [if_neg (by simp [live, r, x, mode, inMotion, h, fast])]
  obtain ⟨pos, travelled⟩ := afterAdvance_of_moving_keeps left (x.braking && decide (x.vel ≤ r.psVmin)) moving
  rw [pos, travelled, advanced]
  exact ⟨rfl, rfl⟩

end

end Sys2Proof.Laws
end

section
/-! CERTIFICATE. The sensors, the coarse steps and the rate mode of an axis (12 R371, R373, R374, R381, R384). -/

namespace Sys2Proof.Proofs

open Sys2Proof Sys2Proof.Machine Sys2Proof.Laws

section
variable {s : State} {a : Fin 4} (live : axLive s a = true)
include live

theorem loadAngleEstimate_keepsReadings (deg : Nat) (emf : F32) :
    Completes (.loadAngleEstimate a deg emf) s (fun t =>
      (t.axis a).loadAng = min deg 255 ∧ (t.axis a).loadMax = max (s.axis a).loadMax (min deg 255)
        ∧ (t.axis a).emf = emf) := by
  refine ⟨_, rfl, ?_⟩
  simpa only [loadReadings, Prod.mk.injEq] using loadEstimate_loadReadings deg emf live

theorem potCheck_compares {p : Int} (pot : potValue s a = some p) (init : (s.axis a).potInit = false)
    (rest : (s.axis a).state = .idle ∨ (s.axis a).state = .stopped ∨ (s.axis a).state = .noTorque)
    (long : (s.axis a).restAt + 500000000 ≤ s.now) :
    Completes (.potCheck a) s (fun t => (t.axis a).potDev = p - (s.axis a).pos ∧ (t.axis a).pos = (s.axis a).pos
      ∧ ((p - (s.axis a).pos).natAbs ≤ (axCfg s a).potTol → (t.axis a).potRun = 0
          ∧ (t.axis a).mismatch = (s.axis a).mismatch)
      ∧ ((axCfg s a).potTol < (p - (s.axis a).pos).natAbs → (t.axis a).potRun = min ((s.axis a).potRun + 1) 3
          ∧ ((s.axis a).potRun = 2 → (t.axis a).mismatch = true))) := by
  refine ⟨_, rfl, ?_⟩
  beta_reduce
  obtain far | near := Nat.lt_or_ge (axCfg s a).potTol (p - (s.axis a).pos).natAbs
  · obtain ⟨dev, pos, run, marked⟩ := potCheck_beyond live pot init rest long far
    exact ⟨dev, pos, fun near => absurd near (Nat.not_le.2 far), fun _ => ⟨run, marked⟩⟩
  · rw [potCheck_within live pot init rest long near, setAxis_self]
    exact ⟨rfl, rfl, fun _ => ⟨rfl, rfl⟩, fun far => absurd near (Nat.not_le.2 far)⟩

theorem stepEdge_queues {dir : Bool} (mode : (axCfg s a).mode = 2) (h : (s.axis a).state = .idle)
    (line : (s.axis a).ss1Line = false) (known : (s.axis a).source ≠ .unknown ∨ (axCfg s a).homeMode = 0)
    (free : barred (s.axis a) dir = false) :
    Completes (.stepEdge a dir) s (fun t => (t.axis a).sdPrev = some (s.now / 100) ∧ (t.axis a).hold = false
      ∧ (t.axis a).pos = (s.axis a).pos
      ∧ (t.axis a).sdLost = (if 65535 < (queueAfter s a dir).natAbs
          then satInc top32 (s.axis a).sdLost else (s.axis a).sdLost)
      ∧ ((queueAfter s a dir).natAbs ≤ 65535 →
          (t.axis a).queue = (prepTarget (axCfg s a) (s.axis a) ((s.axis a).pos + queueAfter s a dir)).1
            - (s.axis a).pos)) := by
  obtain ⟨iv, lag, blocked, v, ax⟩ := stepEdge_axis live mode h line known free
  refine ⟨_, rfl, ?_⟩
  beta_reduce
  rw [ax]
  refine ⟨rfl, rfl, rfl, rfl, fun fits => ?_⟩
  dsimp only
  rw [if_neg (Nat.not_lt.2 fits)]

theorem velocityUpdate_accelerates (mode : (axCfg s a).mode = 3) (h : (s.axis a).state = .moving)
    (running : (s.axis a).braking = false) (straight : (s.axis a).reversal = false)
    (room : psBrake (axCfg s a) (s.axis a).vel < (carriesLeft (axCfg s a) (s.axis a) : Int)) :
    Completes (.velocityUpdate a) s (fun t =>
      (t.axis a).vel = min ((s.axis a).vel + (axCfg s a).psAcc) (axCfg s a).psVmax ∧ (t.axis a).pos = (s.axis a).pos
        ∧ (t.axis a).state = .moving) := by
  obtain ⟨phase, ax⟩ := velocityUpdate_of_room live mode h running straight room
  refine ⟨_, rfl, ?_⟩
  beta_reduce
  rw [ax]
  exact ⟨rfl, rfl, h⟩

theorem carry_advances (mode : (axCfg s a).mode = 3) (h : (s.axis a).state = .moving) (fast : (s.axis a).vel ≠ 0) :
    Completes (.carry a) s (fun t =>
      (t.axis a).pos =
          (if (s.axis a).forward then (s.axis a).pos + (axCfg s a).psDiv else (s.axis a).pos - (axCfg s a).psDiv)
        ∧ (t.axis a).travelled = (s.axis a).travelled + (axCfg s a).psDiv) :=
  ⟨_, rfl, carryStep_of_moving live mode h fast⟩

end

/-- Settles O34: each command of a sensor, of the coarse steps and of the rate mode by what it leaves of the axis. -/
theorem axisSensors : Obligations.AxisSensors := by
  unfold Obligations.AxisSensors
  intro s a live
  refine ⟨?angle, fun p => ?pot, fun dir => ?edge, ?velocity, ?carry⟩
  case angle => exact loadAngleEstimate_keepsReadings live
  case pot => exact potCheck_compares live
  case edge => exact stepEdge_queues live
  case velocity => exact velocityUpdate_accelerates live
  case carry => exact carry_advances live

end Sys2Proof.Proofs
end

section
/-! SUPPORT. What lasts over every command but a row period: the ledgers of the glass stay or are cleared by a start
(18 R527), and the recorder's FIFO and regions stay within their sizes (19 R553, R554, R560). -/

namespace Sys2Proof.Laws

open Sys2Proof Sys2Proof.Machine

/-- Every part but the panel and the records. -/
abbrev N.lasting : Nat := N.panel &&& N.recRest

/-- A recorder that was within its sizes in `r` is within them in `q`. -/
structure Fits (r q : RecSt) : Prop where
  staging : r.staging.length ≤ 512 → q.staging.length ≤ 512
  ring : r.ring.length ≤ 90048 → q.ring.length ≤ 90048
  audit : r.auditRing.length ≤ 8192 → q.auditRing.length ≤ 8192

/-- From `s` to `t` the ledgers stay or are cleared, and the recorder stays within its sizes. -/
structure Lasts (s t : State) : Prop where
  rows : t.panel.rows = s.panel.rows ∨ t.panel.rows = []
  records : Fits s.recd t.recd

theorem Fits.trans {a b c : RecSt} (h : Fits a b) (h' : Fits b c) : Fits a c :=
  ⟨h'.staging ∘ h.staging, h'.ring ∘ h.ring, h'.audit ∘ h.audit⟩

variable {s u : State}

namespace Lasts

theorem refl (s : State) : Lasts s s := ⟨.inl rfl, id, id, id⟩

theorem trans {a b c : State} (h : Lasts a b) (h' : Lasts b c) : Lasts a c where
  rows := h'.rows.elim (fun e => e ▸ h.rows) .inr
  records := h.records.trans h'.records

/-- What changes neither the panel nor the records. -/
theorem via {t : State} (e : view N.lasting t = view N.lasting u) (h : Lasts s u) : Lasts s t := by
  have same : { t.recd with inbox := [] } = { u.recd with inbox := [] } := recRest_of_view e (by decide)
  have staging := congrArg RecSt.staging same
  have ring := congrArg RecSt.ring same
  have audit := congrArg RecSt.auditRing same
  exact h.trans ⟨.inl (congrArg PanelSt.rows (panel_of_view e (by decide))), fun k => staging ▸ k, fun k => ring ▸ k,
    fun k => audit ▸ k⟩

/-- What is written beside the ledgers and the recorder. -/
theorem same {t : State} (h : Lasts s u) (e : (t.panel.rows, t.recd) = (u.panel.rows, u.recd)) : Lasts s t := by
  obtain ⟨rows, records⟩ := Prod.mk.inj e
  exact h.trans ⟨.inl rows, records ▸ id, records ▸ id, records ▸ id⟩

/-- A panel with other contents but the same ledgers. -/
theorem setPanel {f : PanelSt → PanelSt} (h : Lasts s u) (k : (f u.panel).rows = u.panel.rows) :
    Lasts s (u.setPanel f) :=
  h.trans ⟨.inl k, id, id, id⟩

theorem setRec {f : RecSt → RecSt} (h : Lasts s u) (k : Fits u.recd (f u.recd)) :
    Lasts s (u.setRec f) :=
  h.trans ⟨.inl rfl, k⟩

theorem setMod {f : ModuleSt → ModuleSt} (h : Lasts s u) : Lasts s (u.setMod f) := h.via (setMod_view (by decide) ..)

theorem setPair {f : PairSt → PairSt} (h : Lasts s u) : Lasts s (u.setPair f) := h.via (setPair_view (by decide) ..)

theorem setPeg {f : PegSt → PegSt} (h : Lasts s u) : Lasts s (u.setPeg f) := h.same rfl

theorem modPair {m : ModuleSt} {p : PairSt} (h : Lasts s u) : Lasts s { u with mod := m, pair := p } := h.same rfl

theorem setHdr {g : Fn} {f : FnHdr → FnHdr} (h : Lasts s u) : Lasts s (u.setHdr g f) := h.via (setHdr_view (by decide) ..)

theorem ite {a b : State} {c : Prop} [Decidable c] (ha : Lasts s a) (hb : Lasts s b) : Lasts s (if c then a else b) := by
  split <;> assumption

theorem forAll {β : Type} {l : List β} {f : β → State → State} (k : ∀ a t, Lasts s t → Lasts s (f a t)) (h : Lasts s u) :
    Lasts s (forAll l f u) := forAll_invariant k h

theorem outsideMessages (s : State) : OutsideMessages (Lasts s) := fun _ _ e h => h.via (view_mono (by decide) e)

theorem raise {k : EvKind} {src : Nat} {d : W32} {o : Origin} (h : Lasts s u) : Lasts s (raise k src d o u) :=
  h.via (raise_view (by decide) ..)

theorem raiseN {k : EvKind} {src d : Nat} (h : Lasts s u) : Lasts s (raiseN k src d u) := h.raise

theorem raiseIf {b : Bool} {k : EvKind} {src d : Nat} (h : Lasts s u) : Lasts s (raiseIf b k src d u) :=
  h.via (raiseIf_view (by decide) ..)

theorem answer {q : Req} {st : Status} (h : Lasts s u) : Lasts s (answer q st u) := h.via (answer_view (by decide) ..)

end Lasts

/-! ### The panel (18) -/

theorem setReg_lasts {r : Nat} {f : RegionSt → RegionSt} (h : Lasts s u) : Lasts s (setReg r f u) := h.setPanel rfl

theorem startRegion_lasts {r : Nat} (h : Lasts s u) : Lasts s (startRegion r u) := setReg_lasts h

theorem grantRegions_lasts {l : List Nat} (h : Lasts s u) : Lasts s (grantRegions l u) := by
  induction l generalizing u with
  | nil => exact h.setPanel rfl
  | cons r l ih => exact .ite (ih (startRegion_lasts h)) (h.setPanel rfl)

theorem requestRegion_lasts {r : Nat} (h : Lasts s u) : Lasts s (requestRegion r u) :=
  .ite h (.ite (setReg_lasts h) (.ite (startRegion_lasts h) (.setPanel (setReg_lasts h) rfl)))

theorem redrawAll_lasts (h : Lasts s u) : Lasts s (redrawAll u) := .forAll (fun _ _ => requestRegion_lasts) (h.setPanel rfl)

theorem renderComplete_lasts {r : Nat} (h : Lasts s u) : Lasts s (renderComplete r u) := .ite (setReg_lasts h) h

theorem regionEnds_lasts {l : List Nat} (h : Lasts s u) : Lasts s (regionEnds l u) :=
  .forAll (fun _ _ k => .ite (requestRegion_lasts (setReg_lasts k)) k)
    (grantRegions_lasts (.forAll (fun _ _ => setReg_lasts) h))

theorem regionShows_lasts (h : Lasts s u) : Lasts s (regionShows u) := .forAll (fun _ _ k => .setPanel (setReg_lasts k) rfl) h

theorem showPage_lasts {n : Nat} (h : Lasts s u) : Lasts s (showPage n u) := redrawAll_lasts (h.setPanel rfl)

theorem frameBegin_lasts (h : Lasts s u) : Lasts s (frameBegin u) := .raiseIf (regionShows_lasts (regionEnds_lasts (h.setPanel rfl)))

theorem panelFrame_lasts (h : Lasts s u) : Lasts s (panelFrame u) := by
  unfold panelFrame
  split
  · exact h
  split
  · exact frameBegin_lasts h
  · exact h
  · exact .ite h (frameBegin_lasts (redrawAll_lasts (h.setPanel rfl)))

theorem panelDischarge_lasts {cause : Nat} (h : Lasts s u) : Lasts s (panelDischarge cause u) := .ite h (.raiseN (h.setPanel rfl))

theorem dischargeEnd_lasts (h : Lasts s u) : Lasts s (dischargeEnd u) := .ite (h.setPanel rfl) h

theorem panelTemp_lasts {temp : Option Int} (h : Lasts s u) : Lasts s (panelTemp temp u) := .raiseIf (.raiseIf (h.setPanel rfl))

theorem endLocal_lasts {reason : Nat} {o : Origin} {p : LocalPt} (h : Lasts s u) : Lasts s (endLocal reason o p u) := by
  unfold endLocal
  split
  · exact h
  extract_lets _ s1 s2
  have h1 : Lasts s s1 := h.trans ⟨.inl rfl, id, id, id⟩
  exact .raise (.ite (h1.via (wdRestart_view (by decide) ..)) (.ite (h1.via (localAxisEnd_view (by decide) ..)) h1))

theorem endLocals_lasts {reason : Nat} {o : Origin} {p : LocalPt → Bool} (h : Lasts s u) : Lasts s (endLocals reason o p u) :=
  .forAll (fun _ _ => endLocal_lasts) h

theorem keySwitch_lasts {on : Bool} (h : Lasts s u) : Lasts s (keySwitch on u) :=
  .ite (h.setPanel rfl) (.ite (.raise (h.setPanel rfl)) (endLocals_lasts (.raise (h.setPanel rfl))))

theorem keySwitchFault_lasts (h : Lasts s u) : Lasts s (keySwitchFault u) := .ite h (.raiseN (.setPanel (keySwitch_lasts h) rfl))

theorem takePoint_lasts {p : LocalPt} (h : Lasts s u) : Lasts s (takePoint p u) := by
  unfold takePoint
  extract_lets c s0 s1 s2
  have h0 : Lasts s s0 := h.setPanel rfl
  have h1 : Lasts s s1 := h0.setPanel rfl
  exact .ite h0 (.raise (.ite (h1.via (wdSuspend_view (by decide) ..)) (.ite (h1.via (setAxis_view (by decide) ..)) h1)))

theorem functionKey_lasts {k : Nat} (h : Lasts s u) : Lasts s (functionKey k u) := by
  unfold functionKey
  split
  · exact h
  split
  · exact h
  · exact .ite (showPage_lasts h) h
  · exact h.setPanel rfl
  · split
    · exact takePoint_lasts h
    · exact h
  · split
    · exact endLocal_lasts h
    · exact h
  · exact endLocals_lasts h
  · split
    · exact .via (localCmd_view (by decide) ..) (h.setPanel rfl)
    · exact h

theorem brightWrite_lasts {v : W32} (h : Lasts s u) {t : State} (e : brightWrite v u = some t) : Lasts s t := by
  simp only [brightWrite, Option.ite_none_right_eq_some, Option.some.injEq] at e
  obtain ⟨-, rfl⟩ := e
  exact h.setPanel rfl

theorem pageWrite_lasts {v : W32} (h : Lasts s u) {t : State} (e : pageWrite v u = some t) : Lasts s t := by
  simp only [pageWrite, Option.ite_none_right_eq_some, Option.some.injEq] at e
  obtain ⟨-, rfl⟩ := e
  exact showPage_lasts h

theorem resetPanel_lasts (h : Lasts s u) : Lasts s (resetPanel u) := by
  unfold resetPanel
  exact .setPanel (endLocals_lasts (panelDischarge_lasts h)) rfl

/-! ### The recorder (19) -/

theorem length_updLast (f : Rec → Rec) (l : List Rec) : (updLast f l).length = l.length := by
  unfold updLast
  split
  next e => rw [List.reverse_eq_nil_iff.1 e]
  next a r e =>
    have := congrArg List.length e
    simpa using this.symm

theorem length_updFirst {α : Type} (p : α → Bool) (f : α → α) (l : List α) : (updFirst p f l).length = l.length := by
  induction l with
  | nil => rfl
  | cons a l ih =>
    unfold updFirst
    split
    · rfl
    · simp [ih]

theorem foldEvent_lasts {e : Event} (h : Lasts s u) {t : State} (k : foldEvent e u = some t) : Lasts s t := by
  unfold foldEvent at k
  split at k
  · simp only [Option.ite_none_right_eq_some, Option.some.injEq] at k
    obtain ⟨-, rfl⟩ := k
    exact h.setRec ⟨fun k => by simpa [length_updLast] using k, id, id⟩
  · split at k
    next r rest hr =>
      simp only [Option.ite_none_right_eq_some, Option.some.injEq] at k
      obtain ⟨-, rfl⟩ := k
      exact h.setRec ⟨id, fun k => by simpa [hr] using k, id⟩
    · cases k

theorem loseEvent_lasts {b : Bool} (h : Lasts s u) : Lasts s (loseEvent b u) := h.setRec ⟨id, id, id⟩

/-- An event is staged only where the FIFO has room. -/
theorem recordOne_lasts {e : Event} (h : Lasts s u) : Lasts s (recordOne e u) := by
  unfold recordOne
  split
  · exact loseEvent_lasts h
  split
  next k => exact foldEvent_lasts h k
  · split
    · exact loseEvent_lasts h
    next room =>
      refine h.setRec ⟨fun _ => ?_, id, id⟩
      simp only [stagingSize] at room
      simp only [List.length_append, List.length_singleton]
      omega

theorem recordNext_lasts (h : Lasts s u) : Lasts s (recordNext u) := by
  unfold recordNext
  split
  · exact h
  · exact recordOne_lasts (h.setRec ⟨id, id, id⟩)

theorem raiseOwn_lasts {k : EvKind} {d : Nat} {o : Origin} (h : Lasts s u) : Lasts s (raiseOwn k d o u).2 := by
  unfold raiseOwn
  extract_lets e inbox
  dsimp only
  exact .setRec (h.via (deliver_view (by decide) ..)) ⟨id, id, id⟩

theorem writeRing_lasts {r : Rec} (h : Lasts s u) : Lasts s (writeRing r u) := h.setRec ⟨id, fun _ => List.length_take_le .., id⟩

theorem writeAudit_lasts {r : Rec} (h : Lasts s u) : Lasts s (writeAudit r u) :=
  .ite h (h.setRec ⟨id, id, fun _ => List.length_take_le ..⟩)

theorem commitRec_lasts {r : Rec} (h : Lasts s u) : Lasts s (commitRec r u) :=
  have written : Lasts s (writeAudit r (writeRing r u)) := writeAudit_lasts (writeRing_lasts h)
  .raiseIf (.ite (writeRing_lasts (raiseOwn_lasts written)) written)

theorem clearNow_lasts (h : Lasts s u) : Lasts s (clearNow u) := by
  unfold clearNow
  split
  · exact h
  · extract_lets hidden p
    have own : Lasts s p.2 := raiseOwn_lasts (h.setRec ⟨id, id, id⟩)
    exact .raiseIf (writeAudit_lasts (writeRing_lasts own))

theorem commitAll_lasts (h : Lasts s u) : Lasts s (commitAll u) :=
  .forAll (fun _ _ => commitRec_lasts) (clearNow_lasts (.forAll (fun _ _ => commitRec_lasts)
    (h.setRec ⟨fun _ => Nat.zero_le _, id, id⟩)))

theorem stagingCommit_lasts (h : Lasts s u) : Lasts s (stagingCommit u) := .ite (commitAll_lasts h) h

theorem recClear_lasts {v : W32} {r : Role} (h : Lasts s u) : Lasts s (recClear v r u).2 := by
  unfold recClear
  split
  · exact h
  split
  · exact h
  · dsimp only
    exact h.setRec ⟨id, id, id⟩

theorem recRepeatWrite_lasts {v : W32} (h : Lasts s u) {t : State} (e : recRepeatWrite v u = some t) : Lasts s t := by
  simp only [recRepeatWrite, Option.ite_none_right_eq_some, Option.some.injEq] at e
  obtain ⟨-, rfl⟩ := e
  exact h.setRec ⟨id, id, id⟩

theorem setCursor_lasts {q : Req} {region v : Nat} (h : Lasts s u) : Lasts s (setCursor q region v u) := h.setRec ⟨id, id, id⟩

theorem badRecord_lasts {region q : Nat} (h : Lasts s u) : Lasts s (badRecord region q u) := by
  unfold badRecord
  split
  · exact h
  · refine .raiseIf (h.setRec ⟨id, fun k => ?_, fun k => ?_⟩)
    · dsimp only
      split
      · rwa [length_updFirst]
      · exact k
    · dsimp only
      split
      · exact k
      · rwa [length_updFirst]

theorem recWin_lasts {q : Req} {bad : List Nat} (h : Lasts s u) : Lasts s (recWin q bad u) :=
  .ite h.answer (.via (reply_view (by decide) ..) (.forAll (fun _ _ => badRecord_lasts) (setCursor_lasts h)))

theorem recCursor_lasts {q : Req} (h : Lasts s u) : Lasts s (recCursor q u) :=
  .ite h.answer (.ite (.answer (setCursor_lasts h)) (.ite (.answer (setCursor_lasts h))
    (.ite (.answer (setCursor_lasts h)) h.answer)))

theorem resetRecorder_lasts (h : Lasts s u) : Lasts s (resetRecorder u) := .setRec (commitAll_lasts h) ⟨id, id, id⟩

theorem restartRecorder_lasts (h : Lasts s u) : Lasts s (restartRecorder u) := h.setRec ⟨id, id, id⟩

theorem recordAll_lasts (h : Lasts s u) : Lasts s (recordAll u) :=
  commitAll_lasts (.forAll (fun _ _ => recordOne_lasts) (h.setRec ⟨id, id, id⟩))

end Sys2Proof.Laws
end

section
/-! SUPPORT. What lasts over the states of functions and of the module: HOLD, faults, starts, resets, disables, the
image in use and take-overs (01 R21, R25; 02 R44, R57; 15 R479, R481; 17 R514; 20 R575, R588, R593). -/

namespace Sys2Proof.Laws

open Sys2Proof Sys2Proof.Machine

variable {s u : State}

/-! ### HOLD and faults (01 R21, R25) -/

theorem enterFn_lasts {f : Fn} {st : FnState} (h : Lasts s u) : Lasts s (enterFn f st u) :=
  h.via (enterFn_view (by decide) ..)

theorem enterHold_lasts {c : HoldCause} (h : Lasts s u) : Lasts s (enterHold c u) := by
  unfold enterHold
  extract_lets s1 s2
  have h2 : Lasts s s2 := .via (outputsOff_view (by decide) _) (endLocals_lasts h)
  exact .via ((holdRuns_view (by decide) _).trans (applyDomains_view (by decide) _)) h2.modPair

theorem fnFault_lasts {f : Fn} {code : Nat} (h : Lasts s u) : Lasts s (fnFault f code u) := by
  unfold fnFault
  split
  case h_4 => exact h
  all_goals exact .ite (enterHold_lasts (h.same rfl)) (h.same rfl)

theorem faultFn_lasts {f : Fn} {code : Nat} (h : Lasts s u) : Lasts s (faultFn f code u) :=
  .ite (.via (tripEvery_view (by decide) ..) (fnFault_lasts h)) (fnFault_lasts h)

theorem parityLost_lasts {e : Engine} {word : Nat} (h : Lasts s u) : Lasts s (parityLost e word u) := faultFn_lasts h.raiseN

theorem scrubHit_lasts {p : Engine × ParityHit} (h : Lasts s u) : Lasts s (scrubHit p u) := by
  unfold scrubHit
  split
  · exact h.via (parityRepair_view (by decide) ..)
  · exact parityLost_lasts h
  · exact h

theorem segmentCompare_lasts {e : Engine} {n : Nat} {r : SegRun} (h : Lasts s u) : Lasts s (segmentCompare e n r u) := by
  unfold segmentCompare
  extract_lets v
  have hv : Lasts s v := h.via (openUnit_view (by decide) ..)
  have repaired : ∀ e' c w, Lasts s (parityRepair e' c false w v) := fun _ _ _ => hv.via (parityRepair_view (by decide) ..)
  split
  · split
    · exact hv
    split
    · exact repaired ..
    · exact parityLost_lasts hv
    · exact hv
  · split
    · exact hv
    split
    · exact hv
    split
    · exact hv.via (segmentEnd_view (by decide) ..)
    · exact .via (segmentEnd_view (by decide) ..) (repaired ..)
    · exact parityLost_lasts hv
    · exact .ite (hv.via (comparatorFault_view (by decide) ..)) (hv.via (repeatUnit_view (by decide) ..))

theorem testPart_lasts {e : Engine} {upto : Nat} {fails : List Nat} (h : Lasts s u) : Lasts s (testPart e upto fails u) := by
  unfold testPart
  extract_lets c x on
  split
  · exact h
  split
  · exact enterHold_lasts (.raiseN (h.same rfl))
  · exact .ite (h.same rfl) (.raiseN (h.same rfl))

theorem clockFault_lasts {ppm : Int} (h : Lasts s u) : Lasts s (clockFault ppm u) := by
  unfold clockFault
  split
  · exact h
  extract_lets s1
  have h1 : Lasts s s1 := h.same rfl
  split
  · exact h1
  · exact h1
  · exact enterHold_lasts h1.raiseN

theorem clockLost_lasts {k : Nat} (h : Lasts s u) : Lasts s (clockLost k u) :=
  .ite h (.forAll (fun _ _ k => .ite (.same (faultFn_lasts k) rfl) k) (.raiseN (h.same rfl)))

theorem noImage_lasts (h : Lasts s u) : Lasts s (noImage u) := enterHold_lasts h.raiseN

theorem forceSet_lasts {r : Role} {k : ForceKind} {ty : Vty} {tgt : Nat} {v : W32} (h : Lasts s u) :
    Lasts s (forceSet r k ty tgt v u) := by
  unfold forceSet
  split
  · extract_lets s1 s2 pts
    have h2 : Lasts s s2 := .raise (h.same rfl)
    exact .via (leResult_view (by decide) ..) (endLocals_lasts h2)
  · exact h.via (leResult_view (by decide) ..)

/-! ### The states of functions (01 R21; 15 R479; 20 R591, R592) -/

theorem runEffects_lasts {f : Fn} (h : Lasts s u) : Lasts s (runEffects f u) := by
  unfold runEffects
  cases f with
  | panel => exact redrawAll_lasts h
  | logic | alarm => exact .via (skipCaptures_view (by decide) ..) (h.same rfl)
  | bedrock => exact h.via (startBedrock_view (by decide) ..)
  | bank b => exact h.via ((reSuspend_view (by decide) ..).trans (resumeBank_view (by decide) ..))
  | group g => exact h.via ((reSuspend_view (by decide) ..).trans (resumeGroup_view (by decide) ..))
  | axis a => exact .via ((reSuspend_view (by decide) ..).trans (wdRestart_view (by decide) ..)) (h.same rfl)
  | can c => exact h.via (settleCan_view (by decide) ..)
  | _ => exact h.same rfl

theorem enterRun_lasts {f : Fn} (h : Lasts s u) : Lasts s (enterRun f u) := runEffects_lasts (.same (enterFn_lasts h) rfl)

theorem acceptFn_lasts {f : Fn} (h : Lasts s u) : Lasts s (acceptFn f u) := by
  unfold acceptFn
  split
  · exact enterRun_lasts h
  · exact enterRun_lasts h
  · exact .ite (h.via (enterStandby_view (by decide) ..)) (.ite (h.same rfl) (enterRun_lasts h))
  · exact h.same rfl
  · exact h

theorem functionConfigured_lasts {f : Fn} (h : Lasts s u) : Lasts s (functionConfigured f u) := by
  unfold functionConfigured
  extract_lets x on s1
  split
  · exact h
  split
  · exact h
  have h1 : Lasts s s1 := h.via (configureFn_view (by decide) ..)
  exact .ite h1 (acceptFn_lasts h1)

theorem runConfigured_lasts (h : Lasts s u) : Lasts s (runConfigured u) :=
  .forAll (fun _ _ k => .ite (enterRun_lasts k) k) h

theorem resetEffects_lasts {f : Fn} (h : Lasts s u) : Lasts s (resetEffects f u) := by
  unfold resetEffects
  cases f with
  | recorder => exact resetRecorder_lasts h
  | panel => exact resetPanel_lasts h
  | logic => exact h.via (resetLogic_view (by decide) ..)
  | loop => exact h.via (resetLoops_view (by decide) ..)
  | bedrock => exact h.via (resetBedrock_view (by decide) ..)
  | alarm => exact h.via (resetAlarm_view (by decide) ..)
  | time => exact h.via (resetTime_view (by decide) ..)
  | ring => exact h.via (resetRing_view (by decide) ..)
  | peg => exact h.via (pegStops_view (by decide) ..)
  | bank b => exact h.via (resetBank_view (by decide) ..)
  | group g => exact h.via (resetGroup_view (by decide) ..)
  | axis a => exact h.via (resetAxis_view (by decide) ..)
  | can c => exact h.via (resetCan_view (by decide) ..)
  | guy | module | pool => exact h.same rfl

theorem resetFn_lasts {f : Fn} (h : Lasts s u) : Lasts s (resetFn f u) :=
  .same (enterFn_lasts (resetEffects_lasts (endLocals_lasts h))) rfl

/-- A start keeps the ledgers or clears them, and it keeps the records (18 R527; 20 R593). -/
theorem freshStart_lasts {k : StartKind} (h : Lasts s u) : Lasts s (freshStart k u) := by
  refine h.trans ⟨?_, id, id, id⟩
  unfold freshStart
  dsimp only
  split
  · exact .inl rfl
  · exact .inr rfl

theorem restartNow_lasts {k : StartKind} (h : Lasts s u) : Lasts s (restartNow k u) := by
  unfold restartNow
  extract_lets s1 s2 s3 s4
  have h1 : Lasts s s1 := endLocals_lasts h
  have h2 : Lasts s s2 := .ite (panelDischarge_lasts h1) h1
  have h3 : Lasts s s3 := .forAll (fun _ _ k => k.via (forceEndNow_view (by decide) ..)) h2
  have h4 : Lasts s s4 := .forAll (fun _ _ k => .ite k (enterFn_lasts k)) (h3.via (outputsOff_view (by decide) _))
  exact restartRecorder_lasts (freshStart_lasts h4)

theorem doReset_lasts {f : Fn} (h : Lasts s u) : Lasts s (doReset f u) := by
  unfold doReset
  split
  · exact h
  · exact h
  · exact h
  · exact .ite h (.ite (restartNow_lasts h) (.ite (h.same rfl) (resetFn_lasts h)))

theorem fnCtrl_lasts {f : Fn} {v : W32} {r : Role} (h : Lasts s u) : Lasts s (fnCtrl f v r u).2 := by
  unfold fnCtrl
  split
  · exact h
  split
  · exact h
  split
  · exact h
  split
  · exact h
  split
  · exact h
  · exact .ite (doReset_lasts h) (.ite (h.via (doDisable_view (by decide) ..)) (h.via (doEnable_view (by decide) ..)))

theorem breakEffects_lasts {f : Fn} (h : Lasts s u) : Lasts s (breakEffects f u) := by
  have safe : ∀ r t, Lasts s t → Lasts s (toSafe r t) := fun _ _ k => k.via (toSafe_view (by decide) ..)
  have fault : ∀ w t, Lasts s t → Lasts s (writerFault w t) := fun _ _ k => k.via (writerFault_view (by decide) ..)
  unfold breakEffects
  cases f with
  | recorder => exact commitAll_lasts h
  | panel => exact .setPanel (endLocals_lasts h) rfl
  | logic | loop => exact .forAll (fun _ _ => fault _ _) h
  | alarm => exact fault _ _ h
  | time => exact h.via (fifoDump_view (by decide) ..)
  | ring => exact h.via ((portDown_view (by decide) ..).trans (portDown_view (by decide) ..))
  | peg => exact h.via (pegStops_view (by decide) ..)
  | bank b | group g => exact .forAll (fun _ _ k => .ite (safe _ _ k) k) h
  | axis a => exact h.via (drainedAxis_view (by decide) ..)
  | can c => exact h.via (abortFrames_view (by decide) ..)
  | module | bedrock | pool | guy => exact h

theorem breakPoint_lasts {f : Fn} (h : Lasts s u) : Lasts s (breakPoint f u) := by
  unfold breakPoint
  extract_lets s1 s2
  have h2 : Lasts s s2 := enterFn_lasts (.via (giveBackAll_view (by decide) ..) (breakEffects_lasts h))
  exact .ite h (.ite (enterHold_lasts h2) (h2.via (domainCheck_view (by decide) ..)))

theorem drainTimeout_lasts {f : Fn} (h : Lasts s u) : Lasts s (drainTimeout f u) := by
  unfold drainTimeout
  split
  · exact h
  split
  · exact .via (domainCheck_view (by decide) ..) (enterFn_lasts
      (h.via ((giveBackAll_view (by decide) ..).trans (drainedAxis_view (by decide) ..))))
  · exact faultFn_lasts h.raiseN

/-! ### Starts, the image and roles (01 R25; 02 R44; 17 R508; 20 R572, R585) -/

theorem imageValues_lasts (h : Lasts s u) : Lasts s (imageValues u) := h.trans ⟨.inl rfl, id, id, id⟩

theorem powerGood_lasts {a b coding : Nat} (h : Lasts s u) : Lasts s (powerGood a b coding u) := by
  unfold powerGood
  extract_lets s1 s2 s3
  have h2 : Lasts s s2 := .same (freshStart_lasts h) rfl
  have h3 : Lasts s s3 := restartRecorder_lasts h2.raiseN
  exact .ite h (.ite (h3.same rfl) (enterHold_lasts h3.raiseN))

theorem selfTestEnd_lasts {ok : Bool} {fails : List (Nat × Nat)} {dev : Int} (h : Lasts s u) :
    Lasts s (selfTestEnd ok fails dev u) := by
  unfold selfTestEnd
  split
  · exact h
  extract_lets s1 s2 badClock s3 badCmp
  have h1 : Lasts s s1 := .forAll (fun _ _ k => k.via (selfTestEngine_view (by decide) ..)) h
  have h3 : Lasts s s3 := .raiseIf (h1.same rfl)
  exact .ite (enterHold_lasts h3) (.ite (enterHold_lasts h3) (.ite (enterHold_lasts h3) (h3.same rfl)))

theorem imageSelectEnd_lasts (h : Lasts s u) : Lasts s (imageSelectEnd u) := by
  unfold imageSelectEnd
  extract_lets again m read s1
  have h1 : Lasts s s1 := h.same rfl
  split
  · exact h
  split
  · exact noImage_lasts h1.setPeg
  · exact enterHold_lasts (.raiseN h1.setPeg)
  · extract_lets id slots s2 s3 s4 s5
    have h2 : Lasts s s2 := h1.same rfl
    have h4 : Lasts s s4 := .raiseIf h2.raise
    have h5 : Lasts s s5 := h4.setMod
    exact .ite h4 (.via (pitchHealth_view (by decide) _) (.forAll (fun _ _ k => .ite (enterFn_lasts k) k) h5))

theorem secondReadEnd_lasts {crc : W32} (h : Lasts s u) : Lasts s (secondReadEnd crc u) := by
  unfold secondReadEnd
  extract_lets again s0 secs img s1
  have h0 : Lasts s s0 := h.same rfl
  have h1 : Lasts s s1 := h0.via ((loadEvents_view (by decide) ..).trans (budgetEvents_view (by decide) ..))
  exact .ite h (.ite (enterHold_lasts h0.raiseN) (.ite (noImage_lasts h1) (imageValues_lasts (h1.same rfl))))

theorem enterModStandby_lasts (h : Lasts s u) : Lasts s (enterModStandby u) :=
  .forAll (fun _ _ k => .ite k (.ite (k.via (enterStandby_view (by decide) ..)) (enterRun_lasts k))) (h.same rfl)

theorem startRun_lasts {peg : Option Ckpt} (h : Lasts s u) : Lasts s (startRun peg u) := by
  unfold startRun
  extract_lets cold src s1 s2 s3 s4 held
  have h1 : Lasts s s1 := h.same rfl
  have h2 : Lasts s s2 := by
    unfold s2
    clear_value src
    cases src with
    | none => exact h1
    | some p => exact h1.via (restoreProcess_view (by decide) ..)
  have h3 : Lasts s s3 := runConfigured_lasts h2
  have h4 : Lasts s s4 := by
    unfold s4
    clear_value src
    cases src with
    | none => exact h3.raiseN
    | some p => exact .ite h3.raiseN (.via (restoreBedrock_view (by decide) ..) h3.raiseN)
  exact .via (driveAll_view (by decide) _) h4.raiseIf

theorem pitchEnd_lasts {peg : Option Ckpt} {claim same : Bool} (h : Lasts s u) : Lasts s (pitchEnd peg claim same u) := by
  have announced : ∀ t, Lasts s t → Lasts s (announceUncommissioned t) :=
    fun t k => k.via (announceUncommissioned_view (by decide) t)
  unfold pitchEnd
  split
  · exact h
  split
  · extract_lets s1
    have h1 : Lasts s s1 := .setPair (h.via (setImageRefs_view (by decide) u))
    exact .forAll (fun _ _ k => .ite (k.via (enterStandby_view (by decide) ..)) k) (announced _ h1)
  split
  · exact h
  extract_lets s1 s2
  have h0 : Lasts s (u.setPair (fun p => { p with partnerClaim := claim })) := h.setPair
  have h1 : Lasts s s1 := .via (decidePref_view (by decide) _) (announced _ (h0.via (setImageRefs_view (by decide) _)))
  split
  · have h2 : Lasts s s2 := h1.via (assertClaim_view (by decide) ..)
    exact .ite (startRun_lasts h2) (.via (prefConflict_view (by decide) _) (enterModStandby_lasts h2))
  · exact .via (holdoffNote_view (by decide) _) (enterModStandby_lasts h1)
  · exact .setPair (enterModStandby_lasts h1)
  · exact enterModStandby_lasts (.raiseN h1.setPair)

theorem pegRemoved_lasts (h : Lasts s u) : Lasts s (pegRemoved u) := by
  unfold pegRemoved
  extract_lets s1 s2
  have h1 : Lasts s s1 := .raiseN (h.same rfl)
  have h2 : Lasts s s2 := h1.via (abandonSlot_view (by decide) _)
  exact .ite h (.ite (h.same rfl) (.ite (enterHold_lasts (h1.same rfl)) (.ite (h2.via (commitRefused_view (by decide) ..)) h2)))

/-! ### The online change (02 R57, R60) -/

theorem switchPanel_lasts {old : ImageCfg} (h : Lasts s u) : Lasts s (switchPanel old u) := by
  unfold switchPanel
  extract_lets s1 gone
  have h1 : Lasts s s1 := .ite (h.setRec ⟨id, id, id⟩) h
  exact .ite h1 (redrawAll_lasts (h1.setPanel rfl))

theorem commitSwitch_lasts (h : Lasts s u) : Lasts s (commitSwitch u) := by
  unfold commitSwitch
  split
  · exact h
  extract_lets old img _ s1 s2 s3 s4 s5
  have h1 : Lasts s s1 := h.same rfl
  have h2 : Lasts s s2 := h1.via ((switchAlarm_view (by decide) ..).trans
    ((switchLoops_view (by decide) ..).trans (switchLogic_view (by decide) ..)))
  have h3 : Lasts s s3 := .forAll (fun _ _ k => k.via (switchGroup_view (by decide) ..))
    (.forAll (fun _ _ k => k.via (switchBank_view (by decide) ..)) h2)
  have h4 : Lasts s s4 := endLocals_lasts (switchPanel_lasts h3)
  have h5 : Lasts s s5 := by
    refine .forAll (fun p t k => ?_) h4
    split
    · exact k
    · exact k.via (forceEndNow_view (by decide) ..)
  exact h5.via ((resumeLoops_view (by decide) _).trans
    ((resumeReleases_view (by decide) _).trans (restartWatchdogs_view (by decide) _)))

theorem commitDone_lasts (h : Lasts s u) : Lasts s (commitDone u) := by
  unfold commitDone
  split
  · exact h
  extract_lets o s1 s2 s3 s4 s5 s6
  have h1 : Lasts s s1 := h.same rfl
  have h2 : Lasts s s2 := .ite (h1.via (refreshSlots_view (by decide) _)) h1
  have h3 : Lasts s s3 := .via (setImageRefs_view (by decide) _) h2.raise
  have h4 : Lasts s s4 := h3.via (answerHeld_view (by decide) ..)
  have h5 : Lasts s s5 := .ite h4.setPair h4
  have h6 : Lasts s s6 := .ite (resetFn_lasts h5.setPeg) h5
  exact .ite (breakPoint_lasts h6.setPeg) h6

/-! ### Power and bivouac (20 R575, R588, R590) -/

theorem mirrorHeader_lasts (h : Lasts s u) : Lasts s (mirrorHeader u) := h.setRec ⟨id, id, id⟩

theorem powerFail_lasts {a b : Nat} (h : Lasts s u) : Lasts s (powerFail a b u) := by
  unfold powerFail
  extract_lets s1 s2
  have h2 : Lasts s s2 := .raiseN (h.same rfl)
  exact .ite h (panelDischarge_lasts (.via (abandonCkpt_view (by decide) _) (mirrorHeader_lasts h2)))

theorem windowClose_lasts (h : Lasts s u) : Lasts s (windowClose u) := .ite h (.same (recordAll_lasts h) rfl)

theorem Fits.emptied (r : RecSt) : Fits r { r with staging := [] } := ⟨fun _ => Nat.zero_le _, id, id⟩

theorem storeExhausted_lasts (h : Lasts s u) : Lasts s (storeExhausted u) := by
  unfold storeExhausted
  split
  · exact h
  extract_lets s1 s2 s3 s4 s5
  have h1 : Lasts s s1 := windowClose_lasts h
  have emptied : Lasts s (s1.setRec (fun r => { r with inbox := [] })) := h1.setRec ⟨id, id, id⟩
  have h2 : Lasts s s2 := .via (outputsOff_view (by decide) _) (.forAll (fun _ _ => loseEvent_lasts) emptied)
  have h3 : Lasts s s3 := .forAll (fun _ _ k => .setHdr (.ite k (enterFn_lasts k))) h2
  have h5 : Lasts s s5 := h3.setMod.setPair
  clear_value s5
  exact .setRec (h5.setPanel rfl) (.emptied _)

theorem wakeNow_lasts {w : WakeCause} (h : Lasts s u) : Lasts s (wakeNow w u) := by
  unfold wakeNow
  extract_lets s1 s2
  have h1 : Lasts s s1 := .raiseN (h.same rfl)
  exact restartNow_lasts (.ite h1 (h1.same rfl))

theorem wakeBy_lasts {w : WakeCause} (h : Lasts s u) : Lasts s (wakeBy w u) := .ite (wakeNow_lasts h) (.ite (h.same rfl) h)

theorem enterBivouac_lasts {timer : Nat} (h : Lasts s u) : Lasts s (enterBivouac timer u) := by
  unfold enterBivouac
  extract_lets s1 s2 s3 s4 s5
  have h1 : Lasts s s1 := .via (outputsOff_view (by decide) _)
    (panelDischarge_lasts (.forAll (fun _ _ k => k.via (canSleep_view (by decide) ..)) h))
  have h2 : Lasts s s2 := recordAll_lasts h1.raiseN
  have h3 : Lasts s (s3.setPair fun p => { p with claim := false, enabled := u.mod.position == 0 }) := h2.same rfl
  have h4 : Lasts s s4 := h3.via (applyDomains_view (by decide) _)
  have h5 : Lasts s s5 := .forAll (fun _ _ k => k.via (setPort_view (by decide) ..)) h4
  split
  · exact wakeNow_lasts h5
  · exact h5

theorem bivouacMsg_lasts {q : Req} (h : Lasts s u) : Lasts s (bivouacMsg q u) := by
  unfold bivouacMsg
  extract_lets op t timer
  refine .ite h.answer (.ite (.answer (wakeBy_lasts h)) (.ite h.answer ?_))
  split
  · exact .answer (h.via (bivAccept_view (by decide) ..))
  · exact h.via (refused_view (by decide) ..)

theorem canWake_lasts {c : Nat} {f : Option CanFrame} (h : Lasts s u) : Lasts s (canWake c f u) := by
  unfold canWake
  extract_lets mode hit
  exact .ite h (wakeBy_lasts (h.via (raiseCan_view (by decide) ..)))

theorem wakeInput_lasts {n : Nat} {rising : Bool} (h : Lasts s u) : Lasts s (wakeInput n rising u) := by
  unfold wakeInput
  split
  · exact h
  · exact .ite (wakeBy_lasts h) h

theorem siltTimeout_lasts (h : Lasts s u) : Lasts s (siltTimeout u) := .ite (wakeBy_lasts h) h

theorem mmpWake_lasts {m : Msg} (h : Lasts s u) : Lasts s (mmpWake m u) := by
  unfold mmpWake
  extract_lets r t pass
  have asleep : Lasts s (u.setMod fun x => { x with state := .hold }) := h.same rfl
  have received : Lasts s r.2 := asleep.via (receive_view (by decide) m [] _)
  have ht : Lasts s t := received.same rfl
  exact .ite h (.ite (wakeBy_lasts ht) ht.setMod)

/-! ### The pair (15 R481; 17 R507, R513, R514) -/

theorem pairTakeover_lasts (h : Lasts s u) : Lasts s (pairTakeover u) := by
  unfold pairTakeover
  extract_lets trigger s1
  have h1 : Lasts s s1 := .ite h (h.same rfl)
  exact .ite h (.ite (restartNow_lasts h1) (.ite (h1.same rfl) (h1.via (beginTakeover_view (by decide) ..))))

theorem takeoverBase_lasts (h : Lasts s u) : Lasts s (takeoverBase u) := by
  unfold takeoverBase
  extract_lets _ s1 s2
  have h1 : Lasts s s1 := imageValues_lasts (h.same rfl)
  have h2 : Lasts s s2 := .forAll (fun _ _ k => k.via (setAxis_view (by decide) ..)) h1
  exact h2.same rfl

theorem finishTakeover_lasts {peg : Option Ckpt} (h : Lasts s u) : Lasts s (finishTakeover peg u) := by
  unfold finishTakeover
  extract_lets ck age s1 s2 s3 s4 s5 s6 s7 s8
  have h1 : Lasts s s1 := takeoverBase_lasts h
  have h2 : Lasts s s2 := by
    unfold s2
    clear_value ck
    cases ck with
    | none => exact h1.raiseN
    | some c => exact h1.via ((restoreForces_view (by decide) ..).trans (restoreProcess_view (by decide) ..))
  have h5 : Lasts s s5 := runConfigured_lasts h2.setMod.setPair
  have h7 : Lasts s s7 := .raiseIf (.ite (h5.via (restoreBedrock_view (by decide) ..)) h5)
  have h8 : Lasts s s8 := by
    unfold s8
    clear_value ck
    cases ck with
    | none => exact h7
    | some c => exact h7.via (setCkpt_view (by decide) ..)
  exact .via (driveAll_view (by decide) _) (.ite (redrawAll_lasts h8) h8)

theorem takeoverRestore_lasts {peg : Option Ckpt} (h : Lasts s u) : Lasts s (takeoverRestore peg u) :=
  .ite h (.ite (startRun_lasts (h.same rfl)) (finishTakeover_lasts h))

theorem pitchEnds_lasts {peg : Option Ckpt} {claim same : Bool} (h : Lasts s u) : Lasts s (pitchEnds peg claim same u) := by
  have ended : Lasts s (pitchEnd peg claim same u) := pitchEnd_lasts h
  unfold pitchEnds
  dsimp only
  split
  · exact .ite (ended.via (beginTakeover_view (by decide) ..)) ended
  · exact ended

theorem heartbeatIn_lasts {x : Heartbeat} {claim : Bool} (h : Lasts s u) : Lasts s (heartbeatIn x claim u) := by
  unfold heartbeatIn
  extract_lets was s1 s2 s3
  have h1 : Lasts s s1 := .same (h.via (heartbeatNotes_view (by decide) ..)) rfl
  have h2 : Lasts s s2 := h1.raiseIf
  have h3 : Lasts s s3 := .ite h2 (h2.via (decidePref_view (by decide) _))
  exact .ite h (.ite (restartNow_lasts h3) (h3.via ((waitEnds_view (by decide) _).trans (holdoffNote_view (by decide) _))))

theorem moduleRestart_lasts {q : Req} (h : Lasts s u) : Lasts s (moduleRestart q u) := by
  unfold moduleRestart
  extract_lets first s1
  have h1 : Lasts s s1 := h.answer.raise
  have waiting : Lasts s (s1.setMod fun m => { m with restartAfterHandover := true }) := h1.same rfl
  exact .ite h.answer (.ite h (.ite (waiting.via (grantHandover_view (by decide) _)) (restartNow_lasts h1)))

/-! ### Writes of objects (00 R5; 15 R474, R479) -/

theorem needs_lasts {least r : Role} {k : WriteRes} (h : Lasts s u) (hk : Lasts s k.2.2) :
    Lasts s (needs least r u k).2.2 := by
  unfold needs
  split
  · exact hk
  · exact h

theorem taken_lasts {v : Option State} (h : Lasts s u) (hv : ∀ t, v = some t → Lasts s t) : Lasts s (taken v u).2.2 := by
  unfold taken
  split
  · exact hv _ rfl
  · exact h

theorem ite_res_lasts {c : Prop} [Decidable c] {a b : WriteRes} (ha : Lasts s a.2.2) (hb : Lasts s b.2.2) :
    Lasts s (if c then a else b).2.2 := by
  split <;> assumption

theorem headerWrite_lasts {f : Fn} {off : Nat} {v : W32} {r : Role} (h : Lasts s u) :
    Lasts s (headerWrite f off v r u).2.2 :=
  ite_res_lasts (fnCtrl_lasts h) (ite_res_lasts (needs_lasts h (h.same rfl)) (ite_res_lasts (needs_lasts h (h.same rfl)) h))

/-- Of the objects beyond the headers, those of the recorder and of the panel reach the records and the panel. -/
theorem bodyWrite_lasts {f : Fn} {blk off : Nat} {v : W32} {r : Role} (h : Lasts s u) :
    Lasts s (bodyWrite f blk off v r u).2.2 := by
  cases f with
  | recorder =>
    exact ite_res_lasts (needs_lasts h (taken_lasts h fun t => recRepeatWrite_lasts h))
      (ite_res_lasts (recClear_lasts h) h)
  | panel =>
    exact ite_res_lasts (needs_lasts h (taken_lasts h fun t => brightWrite_lasts h))
      (ite_res_lasts (needs_lasts h (taken_lasts h fun t => pageWrite_lasts h)) h)
  | module => exact h.via (moduleWrite_view (by decide) ..)
  | bank b => exact h.via (bankWrite_view (by decide) ..)
  | loop => exact h.via (loopWrite_view (by decide) ..)
  | alarm => exact h.via (almWrite_view (by decide) ..)
  | time => exact h.via (timeWrite_view (by decide) ..)
  | can c => exact h.via (canWrite_view (by decide) ..)
  | logic => exact ite_res_lasts (ite_res_lasts h (h.via (taskRestart_view (by decide) ..))) h
  | group g => exact ite_res_lasts (ite_res_lasts h (needs_lasts h (h.via (dgClear_view (by decide) ..)))) h
  | axis a =>
    have written : Lasts s (axMmpWrite a.val v r u) := h.via (axMmpWrite_view (by decide) ..)
    exact ite_res_lasts (ite_res_lasts h (ite_res_lasts written written)) h
  | bedrock | ring | pool | peg | guy => exact h

theorem writeWord_lasts {addr : Nat} {v : W32} {r : Role} (h : Lasts s u) : Lasts s (writeWord addr v r u).2.2 := by
  unfold writeWord
  dsimp only
  split
  · exact ite_res_lasts h (ite_res_lasts (headerWrite_lasts h)
      (ite_res_lasts (h.via (shadowWrite_view (by decide) ..)) (bodyWrite_lasts h)))
  · exact h

theorem writeWords_lasts {src : Nat} {r : Role} {l : List (Nat × W32)} {i : Nat} (h : Lasts s u) :
    Lasts s (writeWords src r l i u).2.2.2 := by
  induction l generalizing i u with
  | nil => exact h
  | cons p l ih =>
    have written : Lasts s (writeWord p.1 p.2 r u).2.2 := writeWord_lasts h
    unfold writeWords
    split
    next e =>
      rw [e] at written
      exact ih (.ite written.raise written)
    next e =>
      rw [e] at written
      exact written

theorem mmpWrite_lasts {q : Req} (h : Lasts s u) : Lasts s (mmpWrite q u) :=
  .ite h.answer (writeWords_lasts (h.via (reply_view (by decide) ..)))

theorem funcReset_lasts {fid : Nat} {q : Req} (h : Lasts s u) : Lasts s (funcReset fid q u) := by
  unfold funcReset
  split
  · exact h.answer
  · split
    · exact fnCtrl_lasts h.raise.answer
    · exact h.answer

end Sys2Proof.Laws
end

section
/-! SUPPORT. What lasts over a command, and the ledgers of a row period (18 R527, R528; 19 R553, R554, R560). -/

namespace Sys2Proof.Laws

open Sys2Proof Sys2Proof.Machine

/-! ### The commands -/

/-- What holds of what a command gives, in the form in which the dispatch gives it. -/
theorem Lasts.of_next {s t u : State} (e : (.next u : Host.Outcome State Fault Refusal) = .next t) (h : Lasts s u) :
    Lasts s t := Host.Outcome.next.inj e ▸ h

/-- The commands that reach the panel or the records keep the sizes, and all of them but a row period keep the ledgers
or clear them; the others leave both parts as they are. -/
theorem exec_lasts (c : Instr) {s t : State} (row : ∀ r, c ≠ .rowPeriod r) (e : exec c s = .next t) : Lasts s t := by
  have h : Lasts s s := .refl s
  have outside := Lasts.outsideMessages s
  cases c with
  | rowPeriod r => exact absurd rfl (row r)
  | powerGood => exact .of_next e (powerGood_lasts h)
  | selfTestEnd => exact .of_next e (selfTestEnd_lasts h)
  | imageSelectEnd => exact .of_next e (imageSelectEnd_lasts h)
  | secondReadEnd => exact .of_next e (secondReadEnd_lasts h)
  | functionConfigured => exact .of_next e (functionConfigured_lasts h)
  | pitchEnd => exact .of_next e (pitchEnds_lasts h)
  | functionReset => exact .of_next e (fnCtrl_lasts h)
  | functionDisable => exact .of_next e (fnCtrl_lasts h)
  | functionEnable => exact .of_next e (fnCtrl_lasts h)
  | drainBreakPoint => exact .of_next e (breakPoint_lasts h)
  | drainTimeout => exact .of_next e (drainTimeout_lasts h)
  | powerFailWarning => exact .of_next e (powerFail_lasts h)
  | eventWindowClose => exact .of_next e (windowClose_lasts h)
  | storeExhausted => exact .of_next e (storeExhausted_lasts h)
  | clockFault => exact .of_next e (clockFault_lasts h)
  | clockLost => exact .of_next e (clockLost_lasts h)
  | headerMirror => exact .of_next e (.ite (mirrorHeader_lasts h) h)
  | bivouac m => exact .of_next e (onSized_keeps outside m _ _ _ (fun _ _ => bivouacMsg_lasts) h)
  | bivouacEntered => exact .of_next e (.ite (enterBivouac_lasts h) h)
  | guyLineBivouacRequest => exact .of_next e (.ite (enterBivouac_lasts h) h)
  | canWake => exact .of_next e (canWake_lasts h)
  | wakeInput => exact .of_next e (wakeInput_lasts h)
  | siltTimer => exact .of_next e (siltTimeout_lasts h)
  | mmpWake => exact .of_next e (mmpWake_lasts h)
  | wakeLine => exact .of_next e (wakeBy_lasts h)
  | moduleRestart m => exact .of_next e (onSized_keeps outside m _ _ _ (fun _ _ => moduleRestart_lasts) h)
  | pegRemoved => exact .of_next e (pegRemoved_lasts h)
  | commitSwitch => exact .of_next e (commitSwitch_lasts h)
  | commitDone => exact .of_next e (commitDone_lasts h)
  | segmentCompare => exact .of_next e (segmentCompare_lasts h)
  | force m =>
    exact .of_next e (onNoted_keeps outside m _ _ _ (fun _ _ k => k.via (forceNote_view (by decide) ..))
      (fun _ _ k => .via (forceReply_view (by decide) ..) (forceSet_lasts k)) h)
  | scrub => exact .of_next e (.forAll (fun _ _ => scrubHit_lasts) h)
  | comparatorTestPart => exact .of_next e (testPart_lasts h)
  | fabricParity => exact .of_next e (faultFn_lasts (h.via (fabricParity_view (by decide) ..)))
  | write m => exact .of_next e (onMessage_keeps outside m _ _ _ (fun _ _ => mmpWrite_lasts) h)
  | registerWrite => exact .of_next e (writeWord_lasts h)
  | funcReset m => exact .of_next e (onMessage_keeps outside m _ _ _ (fun _ _ => funcReset_lasts) h)
  | heartbeat => exact .of_next e (heartbeatIn_lasts h)
  | pairTakeover => exact .of_next e (pairTakeover_lasts h)
  | takeoverRestore => exact .of_next e (takeoverRestore_lasts h)
  | panelFrame => exact .of_next e (panelFrame_lasts h)
  | panelTempRead => exact .of_next e (.ite (panelTemp_lasts h) h)
  | regionUpdateRequest => exact .of_next e (.ite (requestRegion_lasts h) h)
  | renderComplete => exact .of_next e (renderComplete_lasts h)
  | dischargeEnd => exact .of_next e (dischargeEnd_lasts h)
  | functionKey => exact .of_next e (functionKey_lasts h)
  | f6Held => exact .of_next e (.ite (h.setPanel rfl) h)
  | pnlKeyswitch => exact .of_next e (.ite (keySwitch_lasts h) h)
  | pnlKeyswitchFault => exact .of_next e (.ite (keySwitchFault_lasts h) h)
  | take => exact .of_next e (.ite (takePoint_lasts h) h)
  | localRelease => exact .of_next e (.ite h (.ite (endLocals_lasts h) (endLocal_lasts h)))
  | recordEvent => exact .of_next e (recordNext_lasts h)
  | stagingCommit => exact .of_next e (stagingCommit_lasts h)
  | recClear => exact .of_next e (recClear_lasts h)
  | recwin m => exact .of_next e (onSized_keeps outside m _ _ _ (fun _ _ => recWin_lasts) h)
  | reccursor m => exact .of_next e (onSized_keeps outside m _ _ _ (fun _ _ => recCursor_lasts) h)
  | _ => exact h.via (view_mono (by dsimp only [touches]; decide) (exec_view _ s e))

end Sys2Proof.Laws
end

section
/-! SUPPORT. The ledgers of a row that has been driven (18 R527, R528). -/

namespace Sys2Proof.Laws

open Sys2Proof Sys2Proof.Machine

/-- The row that a drive of the listed columns leaves, where `g` gives each column's ledger and whether it was clamped. -/
def drivenRow (g : Nat → Int × Bool) (l : List Nat) : RowLedger :=
  { cells := ((l.map (fun c => (c, g c))).map (fun p => (p.1, p.2.1))).filter (fun p => p.2 != 0)
    marked := (l.map (fun c => (c, g c))).any (fun p => p.2.2) }

theorem drivenRow_look (g : Nat → Int × Bool) (l : List Nat) (c : Nat) :
    (drivenRow g l).cells.look c = if c ∈ l then (g c).1 else 0 := by
  unfold drivenRow
  induction l with
  | nil => rfl
  | cons a l ih =>
    rw [List.map_cons, List.map_cons, List.filter_cons]
    by_cases zero : (g a).1 = 0
    · simp only [zero, bne_self_eq_false, Bool.false_eq_true, if_false, ih, List.mem_cons]
      by_cases ca : c = a
      · subst ca
        simp [zero]
      · simp [ca]
    · have listed : ((a, (g a).1).2 != 0) = true := bne_iff_ne.mpr zero
      rw [if_pos listed, Tab.look, ih]
      by_cases ca : a = c
      · simp [ca]
      · simp [ca, Ne.symm ca]

theorem drivenRow_marked (g : Nat → Int × Bool) (l : List Nat) :
    (drivenRow g l).marked = true ↔ ∃ c ∈ l, (g c).2 = true := by
  simp only [drivenRow, List.any_map, List.any_eq_true, Function.comp]

/-- What a row period makes of the ledger of column `c`, and whether it clamps it. -/
def drivenCell (s : State) (r c : Nat) : Int × Bool :=
  let g := s.panel.rows.look r
  let a := amplitude s.panel.bandNow (frameLevel s.panel.prev (c / 3) r (c % 3)) (frameLevel s.panel.cur (c / 3) r (c % 3))
  ledgerStep (g.cells.look c) (polarity g.marked (g.cells.look c) s.panel.frames r c) (driveWeight a)

theorem driveRow_eq (s : State) (r : Nat) : driveRow s r = drivenRow (drivenCell s r) (List.range 2400) := by
  unfold driveRow
  generalize List.range 2400 = columns
  rfl

theorem driveRow_look (s : State) (r c : Nat) :
    (driveRow s r).cells.look c = if c < 2400 then (drivenCell s r c).1 else 0 := by
  simp only [driveRow_eq, drivenRow_look, List.mem_range]

theorem driveRow_marked (s : State) (r : Nat) :
    (driveRow s r).marked = true ↔ ∃ c < 2400, (drivenCell s r c).2 = true := by
  simp only [driveRow_eq, drivenRow_marked, List.mem_range]

theorem ledgerStep_range (l p w : Int) : -7 ≤ (ledgerStep l p w).1 ∧ (ledgerStep l p w).1 ≤ 7 := by
  simp only [ledgerStep]
  omega

theorem ledgerStep_clamped (l p w : Int) :
    (ledgerStep l p w).1 = if l + p * w < -7 then -7 else if 7 < l + p * w then 7 else l + p * w := by
  simp only [ledgerStep]
  generalize l + p * w = n
  split
  · omega
  split <;> omega

theorem ledgerStep_marks (l p w : Int) : (ledgerStep l p w).2 = true ↔ l + p * w < -7 ∨ 7 < l + p * w := by
  simp [ledgerStep]

theorem driveRow_range (s : State) (r c : Nat) :
    -7 ≤ (driveRow s r).cells.look c ∧ (driveRow s r).cells.look c ≤ 7 := by
  rw [driveRow_look]
  split
  · exact ledgerStep_range ..
  · decide

theorem rowPeriod_drives {s : State} {r : Nat} (h : (s.panel.scan == .on && panelDrives s && decide (r < 480)) = true) :
    (rowPeriod r s).panel.rows = s.panel.rows.put r (driveRow s r) := by
  unfold rowPeriod
  generalize driveRow s r = driven
  rw [if_pos h]
  rfl

theorem rowPeriod_rows (r : Nat) (s : State) :
    (rowPeriod r s).panel.rows = s.panel.rows ∨ (rowPeriod r s).panel.rows = s.panel.rows.put r (driveRow s r) := by
  unfold rowPeriod
  generalize driveRow s r = driven
  split
  · exact .inr rfl
  · exact .inl rfl

theorem rowPeriod_ledgers (r : Nat) {s : State} (h : LedgersInRange s) : LedgersInRange (rowPeriod r s) := by
  intro k c
  rcases rowPeriod_rows r s with same | driven
  · rw [same]
    exact h k c
  · rw [driven]
    by_cases e : k = r
    · rw [e, Tab.look_put_self]
      exact driveRow_range s r c
    · rw [Tab.look_put_of_ne _ _ e]
      exact h k c

theorem rowPeriod_recd (r : Nat) (s : State) : (rowPeriod r s).recd = s.recd := by
  unfold rowPeriod
  generalize driveRow s r = driven
  split <;> rfl

theorem Lasts.ledgers {s t : State} (h : Lasts s t) (k : LedgersInRange s) : LedgersInRange t := by
  intro r c
  rcases h.rows with same | cleared
  · rw [same]
    exact k r c
  · rw [cleared]
    exact ⟨(by decide : (-7 : Int) ≤ 0), (by decide : (0 : Int) ≤ 7)⟩

theorem Lasts.bounds {s t : State} (h : Lasts s t) (k : RecordsInBounds s) : RecordsInBounds t := by
  obtain ⟨staging, ring, audit⟩ := k
  exact ⟨h.records.staging staging, h.records.ring ring, h.records.audit audit⟩

theorem exec_ledgers (c : Instr) {s t : State} (h : LedgersInRange s) (e : exec c s = .next t) : LedgersInRange t := by
  by_cases row : ∃ r, c = .rowPeriod r
  · obtain ⟨r, rfl⟩ := row
    exact Host.Outcome.next.inj e ▸ rowPeriod_ledgers r h
  · exact (exec_lasts c (fun r k => row ⟨r, k⟩) e).ledgers h

theorem exec_bounds (c : Instr) {s t : State} (h : RecordsInBounds s) (e : exec c s = .next t) : RecordsInBounds t := by
  by_cases row : ∃ r, c = .rowPeriod r
  · obtain ⟨r, rfl⟩ := row
    obtain rfl : rowPeriod r s = t := Host.Outcome.next.inj e
    unfold RecordsInBounds
    rwa [rowPeriod_recd]
  · exact (exec_lasts c (fun r k => row ⟨r, k⟩) e).bounds h

theorem clockCycle_lasts (s : State) : Lasts s (clockCycle s) := by
  unfold clockCycle
  split
  · exact (Lasts.refl s).same rfl
  · exact (Lasts.refl s).same rfl

end Sys2Proof.Laws
end

section
/-! CERTIFICATE. The ledgers of the glass and the sizes of the recorder over every step, and the ledgers of a row period
(18 R527, R528; 19 R553, R554, R560). -/

namespace Sys2Proof.Proofs

open Sys2Proof Sys2Proof.Machine Sys2Proof.Laws

/-- Settles O54: a row period saturates every ledger of its row; every other step keeps the ledgers or clears them. -/
theorem ledgersKept : Obligations.LedgersKept := by
  unfold Obligations.LedgersKept
  intro s t h e
  unfold step at e
  split at e
  · exact Host.Outcome.next.inj e ▸ (clockCycle_lasts s).ledgers h
  next c r _ => exact exec_ledgers c (s := { s with pending := r }) h e

/-- Settles O55: what adds a record keeps the FIFO and the two regions within their sizes. -/
theorem recordsKept : Obligations.RecordsKept := by
  unfold Obligations.RecordsKept
  intro s t h e
  unfold step at e
  split at e
  · exact Host.Outcome.next.inj e ▸ (clockCycle_lasts s).bounds h
  next c r _ => exact exec_bounds c (s := { s with pending := r }) h e

/-- Settles O59: the row period puts the driven row in its place, and each of its cells is the saturated sum. -/
theorem ledgerAndPolarity : Obligations.LedgerAndPolarity := by
  unfold Obligations.LedgerAndPolarity
  intro s r on drives inside
  extract_lets old code weight pdef pol sum
  have row : (rowPeriod r s).panel.rows.look r = driveRow s r := by
    have driven : (s.panel.scan == .on && panelDrives s && decide (r < 480)) = true := by simp [on, drives, inside]
    rw [rowPeriod_drives driven, Tab.look_put_self]
  refine ⟨rowPeriod r s, rfl, fun c hc => ?_, ?_⟩
  · rw [row, driveRow_look, if_pos hc]
    exact ledgerStep_clamped ..
  · rw [row, driveRow_marked]
    exact exists_congr fun c => and_congr_right fun _ => ledgerStep_marks ..

end Sys2Proof.Proofs
end

section
/-! SUPPORT. Every command answers, and none touches the queue (95_what_each_step_holds.md). -/

namespace Sys2Proof.Laws

open Sys2Proof Sys2Proof.Machine

/-- The model refuses no command: each arm of the dispatch answers a next state. -/
theorem exec_answers (c : Instr) (s : State) : ∃ t, exec c s = .next t := by
  cases c <;> exact ⟨_, rfl⟩

theorem queue_untouched (c : Instr) : Part.pending ∉ touches c := by
  cases c <;> dsimp only [touches] <;> decide

end Sys2Proof.Laws
end

section
/-! CERTIFICATE. Every command of the table answers and leaves the queue to the step (95_what_each_step_holds.md). -/

namespace Sys2Proof.Proofs

open Sys2Proof Sys2Proof.Machine Sys2Proof.Laws

/-- Settles O51: each command answers, and its frame holds the queue. -/
theorem everyCommandAnswers : Obligations.EveryCommandAnswers := by
  unfold Obligations.EveryCommandAnswers
  intro c s
  obtain ⟨t, e⟩ := exec_answers c s
  exact ⟨t, e, same_of_view (p := .pending) (exec_view c s e) (queue_untouched c)⟩

end Sys2Proof.Proofs
end

section
/-! SUPPORT. Operations on one channel, one digital point, one axis or one CAN controller leave the others as they are
(95_what_each_step_holds.md): channels and points. -/

namespace Sys2Proof.Laws

open Sys2Proof Sys2Proof.Machine

variable {s u t : State}

/-! ### A change of one entry of a table -/

/-- Of a table of the state, only entry `k` may differ. -/
def Beside {α : Type} [Inhabited α] (tab : State → Tab α) (k : Nat) (s t : State) : Prop :=
  ∀ j, j ≠ k → (tab t).look j = (tab s).look j

namespace Beside

variable {α : Type} [Inhabited α] {tab : State → Tab α} {k : Nat}

theorem refl : Beside tab k s s := fun _ _ => rfl

theorem of_tab (e : tab t = tab u) (h : Beside tab k s u) : Beside tab k s t := fun j hj => by rw [e, h j hj]

theorem upd [DecidableEq α] {f : α → α} (h : Beside tab k s u) (e : tab t = (tab u).upd k f) : Beside tab k s t :=
  fun j hj => by rw [e, Tab.look_upd_of_ne _ _ hj, h j hj]

/-- The form in which the dispatch gives a command of number `n`. -/
theorem of_exec {n : Nat} {r : State} (hk : some n = some k) (e : (.next r : Host.Outcome State Fault Refusal) = .next t)
    (h : Beside tab n s r) : Beside tab k s t := Option.some.inj hk ▸ Host.Outcome.next.inj e ▸ h

theorem ite {a b : State} {c : Prop} [Decidable c] (ha : Beside tab k s a) (hb : Beside tab k s b) :
    Beside tab k s (if c then a else b) := by
  split <;> assumption

theorem forAll {β : Type} {l : List β} {f : β → State → State} (step : ∀ a t, Beside tab k s t → Beside tab k s (f a t))
    (h : Beside tab k s u) : Beside tab k s (forAll l f u) := forAll_invariant step h

end Beside

/-! ### Channels -/

/-- Only channel `c` of bank `b` may differ. -/
abbrev ChBeside (b c : Nat) : State → State → Prop := Beside State.chs (16 * b + c)

section
variable {b c : Nat}

theorem ChBeside.via (e : view N.chs t = view N.chs u) (h : ChBeside b c s u) : ChBeside b c s t :=
  .of_tab (chs_of_view e (by decide)) h

theorem ChBeside.raise {k : EvKind} {src d : Nat} (h : ChBeside b c s u) : ChBeside b c s (raiseN k src d u) :=
  h.via (raiseN_view (by decide) ..)

theorem setCh_beside {f : ChSt → ChSt} (h : ChBeside b c s u) : ChBeside b c s (u.setCh b c f) := h.upd rfl

theorem publish_beside (h : ChBeside b c s u) : ChBeside b c s (publish b c u) := by
  unfold publish publishRow
  extract_lets
  exact .via (raiseIf_view (by decide) ..) (setCh_beside h)

theorem settleVisible_beside {p : Bool} (h : ChBeside b c s u) : ChBeside b c s (settleVisible b c p u) :=
  publish_beside (setCh_beside h)

theorem headroom_beside {supply head : Nat} (h : ChBeside b c s u) : ChBeside b c s (headroom b c supply head u) :=
  .ite h (.ite (setCh_beside h) (.ite (setCh_beside h) h))

theorem compLow_beside (h : ChBeside b c s u) : ChBeside b c s (compLow b c u) := .ite (setCh_beside h).raise h

theorem compShort_beside {ua : Nat} (h : ChBeside b c s u) : ChBeside b c s (compShort b c ua u) :=
  .ite (setCh_beside h).raise h

theorem compOk_beside (h : ChBeside b c s u) : ChBeside b c s (compOk b c u) := .ite (setCh_beside h).raise h

theorem driveAo_beside (h : ChBeside b c s u) : ChBeside b c s (driveAo b c u) := .ite h (setCh_beside h)

theorem declareMismatch_beside {cmd rb : F32} (h : ChBeside b c s u) : ChBeside b c s (declareMismatch b c cmd rb u) := by
  unfold declareMismatch
  extract_lets a s1
  have h1 : ChBeside b c s s1 := (setCh_beside h).raise
  exact .ite (driveAo_beside (setCh_beside h1)) (.ite (setCh_beside h1) h1)

theorem countVisit_beside {cmd rb : F32} (h : ChBeside b c s u) : ChBeside b c s (countVisit b c cmd rb u) := by
  have set : ∀ f, ChBeside b c s (u.setCh b c f) := fun _ => setCh_beside h
  exact .ite (.ite (set _) (.ite (set _) (declareMismatch_beside h)))
    (.ite (.ite (set _) (.ite (set _) (set _).raise)) (.ite (set _) (.ite (set _) (set _).raise)))

theorem secondPath_beside {raw : Int} {rr : F32} (h : ChBeside b c s u) : ChBeside b c s (secondPath b c raw rr u) := by
  unfold secondPath
  extract_lets r xs x ts y g
  have drawn : ChBeside b c s ts.2 := by
    unfold ts
    split
    · exact h
    split
    · exact h
    · exact h.via (takeFree_view (by decide) _)
  exact setCh_beside drawn

theorem readbackVisit_beside {v : Visit} (h : ChBeside b c s u) : ChBeside b c s (readbackVisit b c v u) := by
  unfold readbackVisit
  extract_lets x
  split
  · exact h
  cases v with
  | output rb =>
    have cycled : ChBeside b c s (countCycle b c (u.setCh b c fun y => { y with
        readback := rb, rbEntry := { val := rb, q := if trimOpen u b c then qUnc 0 else qGood } })) :=
      (setCh_beside h).via (countCycle_view (by decide) ..)
    exact .ite h (.ite (countVisit_beside cycled) cycled)
  | crossCheck raw r => exact .ite (secondPath_beside h) h
  | lead ohms => exact .ite (setCh_beside h) h

theorem backfeed_beside {mv : Int} (h : ChBeside b c s u) : ChBeside b c s (backfeed b c mv u) := by
  have marked := (setCh_beside (f := fun y => { y with backfeed := true, supply := if y.mode = 2 then 0 else y.supply }) h).raise
    (k := Ev.CH_BACKFEED) (src := chSrc b c) (d := s32 mv)
  exact .ite h (.ite (publish_beside marked) marked)

theorem compFail_beside (h : ChBeside b c s u) : ChBeside b c s (compFail b c u) :=
  .ite (publish_beside (setCh_beside h).raise) h

theorem rideEnds_beside (h : ChBeside b c s u) : ChBeside b c s (rideEnds b c u) := .ite (publish_beside (setCh_beside h)) h

theorem trackMeasure_beside {chz : Nat} (h : ChBeside b c s u) : ChBeside b c s (trackMeasure b c chz u) := by
  unfold trackMeasure
  extract_lets r x good valid since
  split
  · exact h
  split
  · exact setCh_beside h
  split
  · exact setCh_beside h
  · exact (setCh_beside h).raise
  · exact .ite (settleVisible_beside (setCh_beside h).raise) (setCh_beside h)
  · exact h

theorem trackLost_beside (h : ChBeside b c s u) : ChBeside b c s (trackLost b c u) := .ite (setCh_beside h).raise h

theorem trackFallback_beside (h : ChBeside b c s u) : ChBeside b c s (trackFallback b c u) :=
  .ite (settleVisible_beside (setCh_beside h).raise) h

theorem declareBreak_beside {m : Nat} (h : ChBeside b c s u) : ChBeside b c s (declareBreak b c m u) :=
  publish_beside (setCh_beside h).raise

theorem breakPass_beside {p : Bool} (h : ChBeside b c s u) : ChBeside b c s (breakPass b c p u) := by
  unfold breakPass
  extract_lets x
  split
  · exact h
  · exact .ite (setCh_beside h) (settleVisible_beside (setCh_beside h).raise)

theorem testPulse_beside {dev1 dev2 : Nat} (h : ChBeside b c s u) : ChBeside b c s (testPulse b c dev1 dev2 u) := by
  unfold testPulse
  extract_lets r x m fail s1
  have marked : ChBeside b c s s1 := setCh_beside h
  split
  · exact h
  split
  · split
    · exact setCh_beside marked
    · exact declareBreak_beside marked
  · exact .ite (breakPass_beside marked) marked

end

/-- A command of one channel leaves every other channel. -/
theorem exec_channels (i : Instr) {k : Nat} (hk : channelOf i = some k) (e : exec i s = .next t) : Beside State.chs k s t := by
  cases i with
  | headroomMeasurement => exact .of_exec hk e (headroom_beside .refl)
  | chComplianceLow => exact .of_exec hk e (compLow_beside .refl)
  | chComplianceShortfall => exact .of_exec hk e (compShort_beside .refl)
  | chComplianceOk => exact .of_exec hk e (compOk_beside .refl)
  | readbackVisit => exact .of_exec hk e (readbackVisit_beside .refl)
  | chBackfeed => exact .of_exec hk e (backfeed_beside .refl)
  | compFailed => exact .of_exec hk e (compFail_beside .refl)
  | rideTimeEnd => exact .of_exec hk e (rideEnds_beside .refl)
  | trackMeasurement => exact .of_exec hk e (trackMeasure_beside .refl)
  | notchTrackLost => exact .of_exec hk e (trackLost_beside .refl)
  | notchFallback => exact .of_exec hk e (trackFallback_beside .refl)
  | testPulse => exact .of_exec hk e (testPulse_beside .refl)
  | _ => cases hk

/-! ### Digital points -/

/-- Only point `p` of group `g` may differ. -/
abbrev DpBeside (g p : Nat) : State → State → Prop := Beside State.points (8 * g + p)

section
variable {g p : Nat}

theorem DpBeside.via (e : view N.points t = view N.points u) (h : DpBeside g p s u) : DpBeside g p s t :=
  .of_tab (points_of_view e (by decide)) h

theorem DpBeside.raise {k : EvKind} {src d : Nat} (h : DpBeside g p s u) : DpBeside g p s (raiseN k src d u) :=
  h.via (raiseN_view (by decide) ..)

theorem setPoint_beside {f : DpSt → DpSt} (h : DpBeside g p s u) : DpBeside g p s (u.setPoint g p f) := h.upd rfl

theorem driveDo_beside (h : DpBeside g p s u) : DpBeside g p s (driveDo g p u) := by
  unfold driveDo
  split
  · exact h
  split
  iterate 4 exact setPoint_beside h
  exact h

theorem freqGate_beside (h : DpBeside g p s u) : DpBeside g p s (freqGate g p u) := by
  unfold freqGate
  extract_lets x r n dt fr m high f
  have drawn : DpBeside g p s fr.2 := h.via (takeFree_view (by decide) _)
  exact .ite h (.ite (setPoint_beside h) (.ite (setPoint_beside drawn) (DpBeside.via (raiseIf_view (by decide) ..) (setPoint_beside h))))

end

/-- A command of one digital point leaves every other point. -/
theorem exec_points (i : Instr) {k : Nat} (hk : pointOf i = some k) (e : exec i s = .next t) : Beside State.points k s t := by
  cases i with
  | counterPreset => exact .of_exec hk e (.ite (setPoint_beside .refl) .refl)
  | freqGateEnd => exact .of_exec hk e (freqGate_beside .refl)
  | dpOutTrip => exact .of_exec hk e (.ite .refl (.ite (setPoint_beside .refl).raise (setPoint_beside .refl).raise))
  | outputRetry => exact .of_exec hk e (.ite (driveDo_beside (setPoint_beside .refl)) .refl)
  | tripFreeTime => exact .of_exec hk e (.ite (setPoint_beside .refl) .refl)
  | dpExternalFeed => exact .of_exec hk e (.ite .refl (setPoint_beside .refl).raise)
  | outputReadback => exact .of_exec hk e (.ite .refl (setPoint_beside .refl))
  | _ => cases hk

end Sys2Proof.Laws
end

section
/-! SUPPORT. Operations on one axis or one CAN controller leave the others as they are (95_what_each_step_holds.md). -/

namespace Sys2Proof.Laws

open Sys2Proof Sys2Proof.Machine

variable {s u t : State}

/-! ### Axes -/

/-- Only axis `a` may differ. -/
abbrev AxBeside (a : Nat) : State → State → Prop := Beside State.axes a

section
variable {a : Nat}

theorem AxBeside.via (e : view N.axes t = view N.axes u) (h : AxBeside a s u) : AxBeside a s t :=
  .of_tab (axes_of_view e (by decide)) h

theorem AxBeside.raise {k : EvKind} {d : Nat} (h : AxBeside a s u) : AxBeside a s (raiseAx k a d u) :=
  h.via (raiseAx_view (by decide) ..)

theorem setAxis_beside {f : AxisSt → AxisSt} (h : AxBeside a s u) : AxBeside a s (u.setAxis a f) := h.upd rfl

theorem tryMove_beside {p : Int} (h : AxBeside a s u) : AxBeside a s (tryMove a p u).1 := by
  unfold tryMove
  extract_lets r x goal clamped s1
  split
  · exact h
  split
  · exact setAxis_beside h
  split
  · exact h
  split
  · exact .ite (setAxis_beside h) (setAxis_beside h).raise
  · exact setAxis_beside h

theorem homeFail_beside {n : Nat} (h : AxBeside a s u) : AxBeside a s (homeFail a n u) := (setAxis_beside h).raise

theorem brakeTo_beside {st rest : AxState} {by' : BrakeBy} (h : AxBeside a s u) : AxBeside a s (brakeTo a st by' rest u) :=
  setAxis_beside h

theorem axFault_beside {cause : Nat} (h : AxBeside a s u) : AxBeside a s (axFault a cause u) :=
  .ite (homeFail_beside (setAxis_beside h)) (setAxis_beside h)

theorem driverFault_beside {cause : Nat} (h : AxBeside a s u) : AxBeside a s (driverFault a cause u) :=
  .ite (setAxis_beside h) (axFault_beside (setAxis_beside h)).raise

theorem torqueRemoved_beside {ss1 : Bool} (h : AxBeside a s u) : AxBeside a s (torqueRemoved a ss1 u) := by
  unfold torqueRemoved
  split
  · exact h
  · exact AxBeside.raise (.ite (homeFail_beside (setAxis_beside h)) (setAxis_beside h))

theorem targetChange_beside {raw : Int} (h : AxBeside a s u) : AxBeside a s (targetChange a raw u) := by
  unfold targetChange
  extract_lets s0 r x goal clamped ahead n far
  have seen : AxBeside a s s0 := setAxis_beside h
  split
  · exact seen
  split
  · exact tryMove_beside seen
  · exact setAxis_beside seen
  · exact .ite (setAxis_beside seen) (.ite (tryMove_beside (setAxis_beside seen))
      (.ite (setAxis_beside seen) (setAxis_beside seen).raise))
  iterate 3 exact setAxis_beside seen
  exact seen

/-! #### Homing and limits -/

theorem homeDone_beside (h : AxBeside a s u) : AxBeside a s (homeDone a u) := (setAxis_beside (setAxis_beside h)).raise

theorem homeSet_beside (h : AxBeside a s u) : AxBeside a s (homeSet a u) := setAxis_beside h

theorem homeBackoff_beside (h : AxBeside a s u) : AxBeside a s (homeBackoff a u) := .ite (homeDone_beside h) (setAxis_beside h)

theorem homeWatch_beside (h : AxBeside a s u) : AxBeside a s (homeWatch a u) :=
  .ite (setAxis_beside h) (.ite (setAxis_beside h) h)

theorem limitAssert_beside {positive : Bool} (h : AxBeside a s u) : AxBeside a s (limitAssert a positive u) := by
  unfold limitAssert
  extract_lets x r s1 reference toward s2 stopped
  have h1 : AxBeside a s s1 := setAxis_beside h
  have h2 : AxBeside a s s2 := by
    unfold s2
    split
    · exact .ite (setAxis_beside h1) h1
    split
    · exact .ite h1 (brakeTo_beside (homeFail_beside h1))
    split
    · exact h1
    split
    · exact setAxis_beside (brakeTo_beside h1)
    · exact setAxis_beside h1
    · exact h1
  exact .ite h (homeWatch_beside h2).raise

theorem limitRelease_beside {positive : Bool} (h : AxBeside a s u) : AxBeside a s (limitRelease a positive u) :=
  .ite (setAxis_beside h).raise h

theorem limitTick_beside (h : AxBeside a s u) : AxBeside a s (limitTick a u) := by
  have one : ∀ p t, AxBeside a s t → AxBeside a s (if limitIn t a p then limitAssert a p t else limitRelease a p t) :=
    fun _ _ k => .ite (limitAssert_beside k) (limitRelease_beside k)
  exact one _ _ (one _ _ h)

/-! #### Commands -/

theorem deenergised_beside (h : AxBeside a s u) : AxBeside a s (deenergised a u) := setAxis_beside h

theorem cmdStop_beside (h : AxBeside a s u) : AxBeside a s (cmdStop a u).1 := by
  unfold cmdStop
  extract_lets x goal
  split
  · exact brakeTo_beside (setAxis_beside h)
  · exact setAxis_beside h
  · exact setAxis_beside h
  · split
    · exact homeFail_beside (setAxis_beside h)
    · exact brakeTo_beside (homeFail_beside h)
  · exact h

theorem cmdQuick_beside (h : AxBeside a s u) : AxBeside a s (cmdQuick a u).1 := by
  unfold cmdQuick
  extract_lets x
  split
  · exact brakeTo_beside (setAxis_beside h)
  · exact setAxis_beside h
  · split
    · exact homeFail_beside (setAxis_beside h)
    · exact brakeTo_beside (homeFail_beside h)
  · split
    · exact cmdStop_beside h
    · exact h
  · exact h

theorem cmdDeenergise_beside (h : AxBeside a s u) : AxBeside a s (cmdDeenergise a u).1 := by
  have stopped : AxBeside a s (cmdStop a u).1 := cmdStop_beside h
  unfold cmdDeenergise
  extract_lets x s1
  split
  · exact h
  split
  iterate 2 exact .ite (setAxis_beside stopped) (deenergised_beside stopped)
  iterate 2 exact setAxis_beside h
  exact deenergised_beside h

theorem cmdResume_beside (h : AxBeside a s u) : AxBeside a s (cmdResume a u).1 := by
  unfold cmdResume
  extract_lets x
  split
  · exact h
  split
  · exact setAxis_beside h
  split
  · exact setAxis_beside h
  · exact tryMove_beside h

theorem cmdSyncPot_beside (h : AxBeside a s u) : AxBeside a s (cmdSyncPot a u).1 := by
  unfold cmdSyncPot
  split
  · exact h
  split
  · exact h
  · exact (setAxis_beside h).raise

/-- A command that takes effect or is refused with STATE. -/
theorem refusable_beside {c : Prop} [Decidable c] {v : State} {n m : Nat} (h : AxBeside a s u) (k : AxBeside a s v) :
    AxBeside a s (if c then (u, n) else (v, m)).1 := by
  split <;> assumption

theorem axEffect_beside {code : Nat} (h : AxBeside a s u) : AxBeside a s (axEffect a code u).1 := by
  unfold axEffect
  split
  · exact h
  split
  · exact refusable_beside h (setAxis_beside h)
  split
  · exact cmdDeenergise_beside h
  split
  · exact cmdStop_beside h
  split
  · exact cmdQuick_beside h
  split
  · exact cmdResume_beside h
  split
  · exact refusable_beside h (setAxis_beside h)
  split
  · exact refusable_beside h (setAxis_beside h)
  split
  · exact cmdSyncPot_beside h
  · exact h

theorem axResult_beside {code res : Nat} {mmp : Bool} (h : AxBeside a s u) : AxBeside a s (axResult a code res mmp u) :=
  setAxis_beside h

theorem axCommand_beside {code : Nat} {src : CmdSrc} (h : AxBeside a s u) : AxBeside a s (axCommand a code src u) := by
  unfold axCommand
  split
  · exact axEffect_beside h
  · exact .ite (axResult_beside h) (axResult_beside (axEffect_beside h))
  · exact .ite (axResult_beside h) (.ite (axResult_beside h)
      (axResult_beside (axEffect_beside (.ite (h.via (raise_view (by decide) ..)) h))))

/-! #### The tick and the steps -/

theorem wdAction_beside (h : AxBeside a s u) : AxBeside a s (wdAction a u) := by
  unfold wdAction
  extract_lets x s1 safe s2
  have h1 : AxBeside a s s1 := setAxis_beside h
  exact .ite (.ite (cmdStop_beside h1) (.ite (cmdQuick_beside h1) (.ite (cmdDeenergise_beside (cmdStop_beside h1)) h1)))
    (.ite (setAxis_beside h) h)

theorem axisTick_beside {supply drive : Nat} (h : AxBeside a s u) : AxBeside a s (axisTick a supply drive u) := by
  unfold axisTick
  extract_lets s0 s1 s2 s3 s4 w seq entry mmp panel s5 s6 s7 s8 goal s9
  have h0 : AxBeside a s s0 := setAxis_beside h
  have h1 : AxBeside a s s1 := .ite (torqueRemoved_beside h0) h0
  have h3 : AxBeside a s s3 := homeWatch_beside (limitTick_beside (.ite (driverFault_beside h1) h1))
  have h5 : AxBeside a s s5 := setAxis_beside (wdAction_beside h3)
  have h6 : AxBeside a s s6 := .forAll (fun _ _ k => .forAll (fun _ _ => axCommand_beside)
    (.forAll (fun _ _ => axCommand_beside) (.forAll (fun _ _ => axCommand_beside) k))) h5
  have h8 : AxBeside a s s8 := .forAll (fun _ _ => axCommand_beside) (.forAll (fun _ _ => axCommand_beside) h6)
  have h9 : AxBeside a s s9 := .ite (targetChange_beside h8) h8
  have ended : AxBeside a s (estTick a s9) := setAxis_beside h9
  exact .ite h1 (ended.via (axEntries_view (by decide) ..))

theorem afterAdvance_beside {left : Nat} {slow : Bool} (h : AxBeside a s u) : AxBeside a s (afterAdvance a left slow u) := by
  unfold afterAdvance
  extract_lets x r s1
  have idle : AxBeside a s s1 := setAxis_beside h
  have braked : AxBeside a s (if slow || (left = 0 && !x.reversal && x.homePhase == .none && x.pending == some x.pos) then
      if x.toOff then deenergised a u
      else if x.toIdle then
        match x.pending with | some t => (tryMove a t s1).1 | none => s1
      else u.setAxis a (fun y => restIn u .stopped y)
    else u) := by
    refine .ite (.ite (deenergised_beside h) (.ite ?_ (setAxis_beside h))) h
    split
    · exact tryMove_beside idle
    · exact idle
  split
  · exact .ite (.ite (setAxis_beside h) h) (.ite idle h)
  · exact braked
  · exact braked
  · split
    · exact .ite (setAxis_beside h) (setAxis_beside h)
    · exact homeWatch_beside h
    · exact .ite (setAxis_beside h) h
    · exact .ite (brakeTo_beside (homeFail_beside h)) (homeWatch_beside h)
    · exact .ite (homeSet_beside h) h
    · exact .ite (homeDone_beside h) h
    · exact h
  · exact h

theorem microstep_beside (h : AxBeside a s u) : AxBeside a s (microstep a u) := by
  have moved : AxBeside a s (moveStep a u) := afterAdvance_beside (setAxis_beside h)
  have queued : AxBeside a s (queueStep a u) := setAxis_beside h
  unfold microstep
  extract_lets x
  split
  · exact h
  split
  · exact .ite moved h
  · exact .ite queued h
  · exact h

theorem dwellEnd_beside (h : AxBeside a s u) : AxBeside a s (dwellEnd a u) := by
  unfold dwellEnd
  extract_lets x g
  have tried : AxBeside a s g.1 := tryMove_beside h
  exact .ite h (.ite (.ite tried (setAxis_beside tried)) (.ite (homeBackoff_beside h) h))

theorem carryStep_beside (h : AxBeside a s u) : AxBeside a s (carryStep a u) :=
  .ite h (afterAdvance_beside (setAxis_beside h))

theorem stepEdge_beside {dir : Bool} (h : AxBeside a s u) : AxBeside a s (stepEdge a dir u) := by
  have blocked : AxBeside a s (u.setAxis a fun y => { y with blocked := true, blockRaised := true }) := setAxis_beside h
  unfold stepEdge
  exact .ite h (.ite h (.ite (.ite blocked blocked.raise) (AxBeside.via (raiseIf_view (by decide) ..) (setAxis_beside h))))

theorem stall_beside (h : AxBeside a s u) : AxBeside a s (stall a u) := by
  unfold stall
  extract_lets x r s1 s2
  have h1 : AxBeside a s s1 := setAxis_beside h
  have h2 : AxBeside a s s2 := (setAxis_beside h1).raise
  exact .ite (homeSet_beside (setAxis_beside h1)) (.ite h1 (.ite (axFault_beside h2)
    (.ite (homeFail_beside (setAxis_beside h2)) h2)))

theorem loadEstimate_beside {deg : Nat} {emf : F32} (h : AxBeside a s u) : AxBeside a s (loadEstimate a deg emf u) :=
  .ite h (.ite (stall_beside (setAxis_beside h)) (setAxis_beside h))

theorem potCheck_beside (h : AxBeside a s u) : AxBeside a s (potCheck a u) := by
  unfold potCheck
  split
  · exact h
  split
  · exact h
  · extract_lets x r dev n s1 s2
    have h1 : AxBeside a s s1 := setAxis_beside h
    have h2 : AxBeside a s s2 := (setAxis_beside h1).raise
    exact .ite (setAxis_beside h) (.ite h (.ite (.ite (.ite (axFault_beside h2) h2) h1) (setAxis_beside h)))

end

/-- A command of one axis leaves every other axis. -/
theorem exec_axes (i : Instr) {k : Nat} (hk : axisOf i = some k) (e : exec i s = .next t) : Beside State.axes k s t := by
  cases i with
  | axisTick => exact .of_exec hk e (axisTick_beside .refl)
  | energise => exact .of_exec hk e (axCommand_beside .refl)
  | deenergise => exact .of_exec hk e (axCommand_beside .refl)
  | stop => exact .of_exec hk e (axCommand_beside .refl)
  | quickStop => exact .of_exec hk e (axCommand_beside .refl)
  | resume => exact .of_exec hk e (axCommand_beside .refl)
  | home => exact .of_exec hk e (axCommand_beside .refl)
  | clear => exact .of_exec hk e (axCommand_beside .refl)
  | syncPot => exact .of_exec hk e (axCommand_beside .refl)
  | targetChange => exact .of_exec hk e (.ite (targetChange_beside .refl) .refl)
  | microstep => exact .of_exec hk e (microstep_beside .refl)
  | dwellEnd => exact .of_exec hk e (dwellEnd_beside .refl)
  | holdDelayEnd => exact .of_exec hk e (setAxis_beside .refl)
  | axDriverFault => exact .of_exec hk e (.ite (driverFault_beside .refl) .refl)
  | axLimit => exact .of_exec hk e (.ite (limitAssert_beside .refl) .refl)
  | loadAngleEstimate => exact .of_exec hk e (loadEstimate_beside .refl)
  | potCheck => exact .of_exec hk e (potCheck_beside .refl)
  | stepEdge => exact .of_exec hk e (stepEdge_beside .refl)
  | velocityUpdate => exact .of_exec hk e (.ite .refl (setAxis_beside .refl))
  | carry => exact .of_exec hk e (carryStep_beside .refl)
  | _ => cases hk

/-! ### CAN controllers -/

/-- Only controller `c` may differ. -/
abbrev CanBeside (c : Nat) : State → State → Prop := Beside State.can c

section
variable {c : Nat}

theorem CanBeside.via (e : view N.can t = view N.can u) (h : CanBeside c s u) : CanBeside c s t :=
  .of_tab (can_of_view e (by decide)) h

theorem CanBeside.raise {k : EvKind} {d : Nat} (h : CanBeside c s u) : CanBeside c s (raiseCan k c d u) :=
  h.via (raiseCan_view (by decide) ..)

theorem setCan_beside {f : CanSt → CanSt} (h : CanBeside c s u) : CanBeside c s (u.setCan c f) := h.upd rfl

theorem filterNote_beside (h : CanBeside c s u) : CanBeside c s (filterNote c u) := .ite h (setCan_beside h).raise

theorem dropFrame_beside {q : Nat} {byPool : Bool} (h : CanBeside c s u) : CanBeside c s (dropFrame c q byPool u) :=
  CanBeside.via (raiseIf_view (by decide) ..) (setCan_beside h)

theorem queueFrame_beside {q elem : Nat} {f : CanFrame} (h : CanBeside c s u) : CanBeside c s (queueFrame c q elem f u) := by
  unfold queueFrame
  extract_lets x byList a
  have drawn : CanBeside c s a.2 := h.via (poolAlloc_view (by decide) ..)
  split
  · exact dropFrame_beside h
  split
  · exact dropFrame_beside drawn
  · exact CanBeside.via (raiseIf_view (by decide) ..) (setCan_beside drawn)

theorem deliverFrame_beside {f : CanFrame} (h : CanBeside c s u) : CanBeside c s (deliverFrame c f u) := by
  unfold deliverFrame
  split
  · split
    · exact queueFrame_beside h
    · exact setCan_beside h
  · exact h.via (bslOffer_view (by decide) ..)

theorem startFrame_beside (h : CanBeside c s u) : CanBeside c s (startFrame c u) := by
  unfold startFrame
  extract_lets x
  split
  · exact h
  split
  · exact h
  · exact setCan_beside h

theorem errState_beside (h : CanBeside c s u) : CanBeside c s (errState c u) := by
  unfold errState
  extract_lets x high
  split
  · exact .ite (setCan_beside h).raise h
  · exact .ite h (setCan_beside h)
  · exact h

theorem canTestStep_beside (h : CanBeside c s u) : CanBeside c s (canTestStep c u) := by
  unfold canTestStep
  extract_lets x
  split
  · exact h
  split
  iterate 3 exact .ite (setCan_beside h) h
  · exact .ite (errState_beside (setCan_beside h)) h
  · exact h

theorem settleCan_beside (h : CanBeside c s u) : CanBeside c s (settleCan c u) :=
  startFrame_beside (filterNote_beside (canTestStep_beside h))

theorem recDown_beside (h : CanBeside c s u) : CanBeside c s (recDown c u) := by
  have drawn : CanBeside c s (takeFree u).2 := h.via (takeFree_view (by decide) _)
  exact .ite (setCan_beside drawn) (setCan_beside h)

theorem okFrame_beside (h : CanBeside c s u) : CanBeside c s (okFrame c u) := setCan_beside h

theorem canReceive_beside {f : CanFrame} (h : CanBeside c s u) : CanBeside c s (canReceive c f u) := by
  have delivered : CanBeside c s (deliverFrame c f (filterNote c (u.setCan c fun y => { y with sof := sofStamp u }))) :=
    deliverFrame_beside (filterNote_beside (setCan_beside h))
  exact .ite h (settleCan_beside (errState_beside (okFrame_beside (recDown_beside delivered))))

theorem canRequest_beside {b : Nat} {f : CanFrame} (h : CanBeside c s u) : CanBeside c s (canRequest c b f u) :=
  .ite h (startFrame_beside (setCan_beside h))

theorem canTxEnd_beside {ok : Bool} {tdc : Option Nat} (h : CanBeside c s u) : CanBeside c s (canTxEnd c ok tdc u) := by
  unfold canTxEnd
  extract_lets s0 x
  have h0 : CanBeside c s s0 := by
    unfold s0
    split
    · exact setCan_beside h
    · exact h
  split
  · exact h0
  split
  · exact h0
  · extract_lets s1 s2
    have sent : CanBeside c s s1 := setCan_beside h0
    have told : CanBeside c s s2 := .ite (deliverFrame_beside (filterNote_beside sent)) sent
    exact .ite (settleCan_beside (errState_beside (okFrame_beside told)))
      (.ite (settleCan_beside (setCan_beside h0).raise) (settleCan_beside (setCan_beside h0)))

theorem busOffStops_beside (h : CanBeside c s u) : CanBeside c s (busOffStops c u) :=
  .forAll (fun _ _ k => .ite k (.ite (setCan_beside k).raise (setCan_beside k))) h

theorem canError_beside {tec rec' : Nat} (h : CanBeside c s u) : CanBeside c s (canError c tec rec' u) := by
  unfold canError
  extract_lets x s1 n s2
  have h1 : CanBeside c s s1 := setCan_beside h
  have h2 : CanBeside c s s2 := busOffStops_beside (setCan_beside h1)
  split
  iterate 3 exact .ite (settleCan_beside h2.raise) (settleCan_beside (errState_beside h1))
  · exact setCan_beside h
  · exact h

end

/-- A command of one controller leaves every other controller. -/
theorem exec_controllers (i : Instr) {k : Nat} (hk : controllerOf i = some k) (e : exec i s = .next t) :
    Beside State.can k s t := by
  cases i with
  | canRxFrame => exact .of_exec hk e (canReceive_beside .refl)
  | canTxRequest => exact .of_exec hk e (canRequest_beside .refl)
  | canTxEnd => exact .of_exec hk e (canTxEnd_beside .refl)
  | canError => exact .of_exec hk e (canError_beside .refl)
  | busOffRecovery => exact .of_exec hk e (.ite (settleCan_beside (setCan_beside .refl)) .refl)
  | canRecovered =>
    exact .of_exec hk e (.ite (settleCan_beside (errState_beside (setCan_beside .refl).raise)) .refl)
  | canTest => exact .of_exec hk e (.ite .refl (settleCan_beside (setCan_beside .refl)))
  | canFilterEdited =>
    exact .of_exec hk e (.ite .refl (CanBeside.via (raise_view (by decide) ..) (setCan_beside .refl)))
  | busIntegration => exact .of_exec hk e (.ite (settleCan_beside (setCan_beside .refl)) .refl)
  | _ => cases hk

end Sys2Proof.Laws
end

section
/-! CERTIFICATE. Commands of one number leave the others (95_what_each_step_holds.md). -/

namespace Sys2Proof.Proofs

open Sys2Proof Sys2Proof.Machine Sys2Proof.Laws

/-- Settles O57: each operation of such a command writes its own entry of the table alone. -/
theorem otherInstances : Obligations.OtherInstances := by
  unfold Obligations.OtherInstances
  intro i s t e
  exact ⟨fun _ hk => exec_channels i hk e, fun _ hk => exec_points i hk e, fun _ hk => exec_axes i hk e,
    fun _ hk => exec_controllers i hk e⟩

end Sys2Proof.Proofs
end

section
/-! SUPPORT. A voting group's evaluation and the votes of the kinds (13 R407, R408). -/

namespace Sys2Proof.Laws

open Sys2Proof Sys2Proof.Machine

/-- The values of a group's channels as its vote reads them. -/
abbrev groupValues (s : State) (g : Nat) : List F32 := (vgRow s g).chs.map fun c => (chanQv s c).val

/-- Without a discrepancy action a group takes the demand and the value of its vote. -/
theorem evalGroup_vote (g : Nat) (s : State) (h : (vgRow s g).discAct = 0) :
    (vgOf (evalGroup g s) g).demand = (vote (vgRow s g) (vgOf s g) (groupValues s g)).demand
      ∧ (vgOf (evalGroup g s) g).val = (vote (vgRow s g) (vgOf s g) (groupValues s g)).val := by
  unfold evalGroup
  extract_lets r t vals x v diff apart together begins disc d s1
  have written : vgOf s1 g = { x with
      demand := d, byInvalid := v.byInvalid && !(disc && r.discAct == 1), median := v.median, disc := disc
      apart := apart, together := together, val := v.val } := setVg_self s g _
  have after : vgOf (if begins then raiseVg Ev.VOTE_DISCREPANCY g 0 s1 else s1) g = vgOf s1 g := by
    split
    · simp [vgOf, raiseVg]
    · rfl
  rw [after, written]
  exact ⟨by simp [d, r, h, v, x, vals], rfl⟩

variable {r : VgRow} {x : VgSt} {vals : List F32}

theorem vote_single (h : r.kind = 1 ∨ r.kind = 5) : (vote r x vals).demand = (vcOf x 0).demand := by
  cases hd : (vcOf x 0).demand <;> rcases h with h | h <;> simp [vote, h, vgChans, hd]

theorem vote_single_val (h : r.kind = 5) : (vote r x vals).val = vals.getD 0 0#32 := by simp [vote, h]

theorem vote_any (h : r.kind = 2 ∨ r.kind = 6) : (vote r x vals).demand = ((vcOf x 0).demand || (vcOf x 1).demand) := by
  cases h0 : (vcOf x 0).demand <;> cases h1 : (vcOf x 1).demand <;> rcases h with h | h <;>
    simp [vote, h, vgChans, List.range_succ, h0, h1]

theorem vote_both (h : r.kind = 3) : (vote r x vals).demand = ((vcOf x 0).demand && (vcOf x 1).demand) := by
  cases h0 : (vcOf x 0).demand <;> cases h1 : (vcOf x 1).demand <;> simp [vote, h, vgChans, List.range_succ, h0, h1]

theorem vote_two_of_three (h : r.kind = 4) : (vote r x vals).demand = ((vcOf x 0).demand && (vcOf x 1).demand
    || (vcOf x 0).demand && (vcOf x 2).demand || (vcOf x 1).demand && (vcOf x 2).demand) := by
  cases h0 : (vcOf x 0).demand <;> cases h1 : (vcOf x 1).demand <;> cases h2 : (vcOf x 2).demand <;>
    simp [vote, h, vgChans, List.range_succ, h0, h1, h2]

theorem vote_more_demanding (h : r.kind = 6) (h0 : x.c0.valid = true) (h1 : x.c1.valid = true) :
    (vote r x vals).val = moreDemanding r (vals.getD 0 0#32) (vals.getD 1 0#32) := by
  simp [vote, h, vgChans, List.range_succ, vcOf, h0, h1]

theorem vote_median (h : r.kind = 7) (h0 : x.c0.valid = true) (h1 : x.c1.valid = true) (h2 : x.c2.valid = true) :
    let m := median3 (vals.getD 0 0#32) (vals.getD 1 0#32) (vals.getD 2 0#32)
    (vote r x vals).demand = analogDemand r x.median m ∧ (vote r x vals).val = m := by
  simp [vote, h, vgChans, List.range_succ, vcOf, h0, h1, h2]

theorem vote_first_two (h : r.kind = 7) (h0 : x.c0.valid = true) (h1 : x.c1.valid = true) (h2 : x.c2.valid = false) :
    (vote r x vals).demand = (x.c0.hyst || x.c1.hyst)
      ∧ (vote r x vals).val = moreDemanding r (vals.getD 0 0#32) (vals.getD 1 0#32) := by
  cases k0 : x.c0.hyst <;> cases k1 : x.c1.hyst <;>
    simp [vote, h, vgChans, List.range_succ, vcOf, h0, h1, h2, k0, k1]

theorem vote_too_few (h : r.kind = 7) (h0 : x.c0.valid = false) (h1 : x.c1.valid = false) :
    (vote r x vals).demand = true ∧ (vote r x vals).val = x.val := by
  cases h2 : x.c2.valid <;> simp [vote, h, vgChans, List.range_succ, vcOf, h0, h1, h2]

end Sys2Proof.Laws
end

section
/-! CERTIFICATE. The votes of a group with no discrepancy action (13 R407, R408). -/

namespace Sys2Proof.Proofs

open Sys2Proof Sys2Proof.Machine Sys2Proof.Laws

/-- Settles O60: such a group takes its vote, and each kind's vote is read off its channels. -/
theorem groupVotes : Obligations.GroupVotes := by
  unfold Obligations.GroupVotes
  intro s g r x d t quiet
  obtain ⟨demand, val⟩ := evalGroup_vote g s quiet
  have first : ∀ {c l}, r.chs = c :: l → (groupValues s g).getD 0 0#32 = (chanQv s c).val := fun h => by
    rw [groupValues, h]
    rfl
  have second : ∀ {a b l}, r.chs = a :: b :: l → (groupValues s g).getD 1 0#32 = (chanQv s b).val := fun h => by
    rw [groupValues, h]
    rfl
  have third : ∀ {a b c l}, r.chs = a :: b :: c :: l → (groupValues s g).getD 2 0#32 = (chanQv s c).val := fun h => by
    rw [groupValues, h]
    rfl
  refine ⟨fun c l chs kind => ⟨demand.trans (vote_single kind), fun five => ?_⟩, fun kind => demand.trans (vote_any kind),
    fun a b l chs kind h0 h1 => ?_, fun kind => demand.trans (vote_both kind),
    fun kind => demand.trans (vote_two_of_three kind), fun a b c l chs kind h0 h1 h2 => ?_,
    fun a b c l chs kind h0 h1 h2 => ?_, fun kind h0 h1 => ?_⟩
  · rw [val, vote_single_val five, first chs]
  · rw [val, vote_more_demanding kind h0 h1, first chs, second chs]
    rfl
  · obtain ⟨limit, middle⟩ := vote_median (vals := groupValues s g) kind h0 h1 h2
    rw [first chs, second chs, third chs] at limit middle
    exact ⟨demand.trans limit, val.trans middle⟩
  · obtain ⟨either, more⟩ := vote_first_two (vals := groupValues s g) kind h0 h1 h2
    rw [first chs, second chs] at more
    exact ⟨demand.trans either, val.trans more⟩
  · obtain ⟨demanded, kept⟩ := vote_too_few (vals := groupValues s g) kind h0 h1
    exact ⟨demand.trans demanded, val.trans kept⟩

end Sys2Proof.Proofs
end

section
/-! SUPPORT. A channel fault of an STO pair: the latch, the line of the pair and the trips (13 R399, R400, R402). -/

namespace Sys2Proof.Laws

open Sys2Proof Sys2Proof.Machine

/-! ### Trips -/

@[simp] theorem sfTrip_sto (f cause : Nat) (s : State) : (sfTrip f cause s).bedrock.sto = s.bedrock.sto := by
  unfold sfTrip
  split
  iterate 2
    · rw [raiseSf, raiseN_bedrock]
      rfl
  · rfl

theorem sfTrip_img (f cause : Nat) (s : State) : (sfTrip f cause s).img = s.img :=
  img_of_view (sfTrip_view (m := N.img) (by decide) f cause s) (by decide)

/-- A function that is in operation trips with the cause. -/
theorem sfTrip_trips {f cause : Nat} {s : State} (h : (sfOf s f).state = .normal) :
    (sfOf (sfTrip f cause s) f).state = .tripped ∧ (sfOf (sfTrip f cause s) f).cause = cause := by
  have written : ∀ u : SfSt → SfSt, sfOf (raiseSf Ev.SF_TRIPPED f cause (s.setSf f u)) f = u (sfOf s f) := fun u => by
    simp [raiseSf, sfOf]
  simp only [sfTrip, h, written, and_self]

theorem sfTrip_other {f g cause : Nat} {s : State} (h : g ≠ f) : sfOf (sfTrip f cause s) g = sfOf s g := by
  unfold sfTrip
  split <;> simp [raiseSf, sfOf, State.setSf, h]

/-! ### The lines -/

theorem stoLine_fns (k : Nat) (s : State) : (stoLine k s).bedrock.fns = s.bedrock.fns := rfl

/-- A latched pair is switched off, and nothing else of it changes. -/
theorem stoLine_latched {k : Nat} {s : State} (h : (stoOf s k).latched = true) :
    stoOf (stoLine k s) k = { stoOf s k with on := false } := by
  simp [stoLine, stoOf] at h ⊢
  simp [h]

theorem stoLine_other {k j : Nat} {s : State} (h : j ≠ k) : stoOf (stoLine k s) j = stoOf s j := by
  simp [stoLine, stoOf, State.setSto, h]

/-- The lines of the axes leave the partition. -/
theorem axisLine_bedrock (a : Nat) (s : State) : (axisLine a s).bedrock = s.bedrock :=
  bedrock_of_view (axisLine_view (m := N.bedrock) (by decide) a s) (by decide)

theorem brLines_fns (s : State) : (brLines s).bedrock.fns = s.bedrock.fns := by
  rw [brLines, forRange_keeps State.bedrock axisLine_bedrock]
  exact forRange_keeps (fun t : State => t.bedrock.fns) stoLine_fns s

theorem brLines_latched {k : Nat} (hk : k < 4) {s : State} (h : (stoOf s k).latched = true) :
    stoOf (brLines s) k = { stoOf s k with on := false } := by
  have axes : stoOf (brLines s) k = stoOf (forRange 4 stoLine s) k := by
    rw [stoOf, brLines, forRange_keeps State.bedrock axisLine_bedrock, stoOf]
  obtain ⟨u, before, after⟩ := forRange_get (fun t => stoOf t k) (f := stoLine) (fun j t ne => stoLine_other (Ne.symm ne)) hk s
  rw [axes, after, stoLine_latched (by rw [before, h]), before]

/-! ### The fault of a channel -/

/-- The state in which the fault is latched and announced. -/
def stoMarked (k : Nat) (ch2 : Bool) (s : State) : State :=
  raiseBsl Ev.STO_CHANNEL_FAULT k (4 * b2n ch2) (s.setSto k fun x => { x with on := false, latched := true, faulty2 := ch2 })

/-- The functions that name the pair trip in the marked state. -/
def stoTrips (k : Nat) (s : State) : State :=
  forAll (sfUsed s) (fun f t => if namesSto t f k then sfTrip f 10 t else t) s

theorem stoFault_eq {k : Nat} {ch2 : Bool} {s : State} (run : s.running .bedrock = true) (free : (stoOf s k).latched = false) :
    stoFault k ch2 s = brLines (stoTrips k (stoMarked k ch2 s)) := by
  simp [stoFault, run, free, stoMarked, stoTrips]

theorem stoMarked_sto (k : Nat) (ch2 : Bool) (s : State) :
    stoOf (stoMarked k ch2 s) k = { stoOf s k with on := false, latched := true, faulty2 := ch2 } := by
  simp [stoMarked, raiseBsl, stoOf]

theorem stoMarked_sf (k : Nat) (ch2 : Bool) (s : State) (f : Nat) : sfOf (stoMarked k ch2 s) f = sfOf s f := by
  simp [stoMarked, raiseBsl, sfOf, State.setSto]

theorem stoMarked_img (k : Nat) (ch2 : Bool) (s : State) : (stoMarked k ch2 s).img = s.img := by
  simp [stoMarked, raiseBsl]

theorem stoTrips_sto (k j : Nat) (s : State) : stoOf (stoTrips k s) j = stoOf s j := by
  refine forAll_keeps (fun t => stoOf t j) (fun f t => ?_) s
  split
  · exact congrArg (Tab.look · j) (sfTrip_sto ..)
  · rfl

theorem stoTrips_grows (k : Nat) (s : State) : Grows s (stoTrips k s) := by
  refine forAll_grows (fun f t => ?_) s
  split
  · exact sfTrip_grows ..
  · exact .refl t

/-- Every function in use that names the pair and is in operation trips for the channel fault. -/
theorem stoTrips_trips {k f : Nat} {s : State} (used : f ∈ sfUsed s) (names : namesSto s f k = true)
    (normal : (sfOf s f).state = .normal) :
    (sfOf (stoTrips k s) f).state = .tripped ∧ (sfOf (stoTrips k s) f).cause = 10 := by
  have once : (sfUsed s).Nodup := List.nodup_range.filter _
  have others : ∀ g t, g ≠ f → sfOf (if namesSto t g k then sfTrip g 10 t else t) f = sfOf t f
      ∧ (if namesSto t g k then sfTrip g 10 t else t).img = t.img := fun g t ne => by
    split
    · exact ⟨sfTrip_other (Ne.symm ne), sfTrip_img ..⟩
    · exact ⟨rfl, rfl⟩
  obtain ⟨u, ⟨sf, img⟩, after, -⟩ := forAll_at (R := fun x y : State => sfOf y f = sfOf x f ∧ y.img = x.img)
    (fun _ => ⟨rfl, rfl⟩) (fun _ _ _ h k => ⟨k.1.trans h.1, k.2.trans h.2⟩) others once used s
  have named : namesSto u f k = true := by
    simp only [namesSto, sfRow, img] at names ⊢
    exact names
  rw [if_pos named] at after
  rw [stoTrips, after]
  exact sfTrip_trips (by rw [sf, normal])

end Sys2Proof.Laws
end

section
/-! CERTIFICATE. Test pulses and channel faults of the STO pairs (13 R402, R403). -/

namespace Sys2Proof.Proofs

open Sys2Proof Sys2Proof.Machine Sys2Proof.Laws

variable {s : State} {k : Fin 4} {ch : Fin 2}

/-- The second channel of a pair by its number. -/
theorem channel_two (ch : Fin 2) : b2n (ch.val == 1) = ch.val ∧ (ch.val == 1) = decide (ch = 1) := by
  revert ch
  decide

/-- The pair after a channel fault in RUN, and the announcement. -/
theorem stoFault_latches (run : s.fnState .bedrock = .run) (free : (stoOf s k).latched = false) :
    let t := stoFault k.val (ch.val == 1) s
    (stoOf t k).on = false ∧ (stoOf t k).latched = true ∧ (stoOf t k).faulty2 = decide (ch = 1)
      ∧ Raised Ev.STO_CHANNEL_FAULT 0xF6 (w32 (k + 4 * ch)) s t := by
  intro t
  have shape : t = brLines (stoTrips k (stoMarked k (ch.val == 1) s)) := stoFault_eq (by simp [State.running, run]) free
  have marked := (stoTrips_sto k k (stoMarked k (ch.val == 1) s)).trans (stoMarked_sto k (ch.val == 1) s)
  have pair := brLines_latched k.isLt (s := stoTrips k (stoMarked k (ch.val == 1) s)) (by rw [marked])
  rw [marked, ← shape] at pair
  have announced : Raised Ev.STO_CHANNEL_FAULT 0xF6 (w32 (k.val + 4 * b2n (ch.val == 1))) s (stoMarked k (ch.val == 1) s) :=
    raised_of_growsN (.of_eq rfl) ..
  obtain ⟨number, second⟩ := channel_two ch
  rw [number] at announced
  refine ⟨by rw [pair], by rw [pair], by rw [pair, ← second], ?_⟩
  · rw [shape]
    exact raised_mid (.refl s) announced ((stoTrips_grows ..).trans (brLines_grows _))

/-- Settles O36: the fault latches the pair before the functions trip and the lines follow, which keeps it off. -/
theorem stoFaults : Obligations.StoFaults := by
  unfold Obligations.StoFaults
  refine ⟨fun s k ch => ⟨s, by simp [exec, execStoTestPulse, stoPulse], rfl⟩, fun s k ch on tested run free => ?_,
    fun s k ch run free => ?_⟩
  · have pulse : stoPulse k.val (ch.val == 1) false s = stoFault k.val (ch.val == 1) s := by simp [stoPulse, on, tested]
    exact ⟨_, rfl, pulse ▸ stoFault_latches run free⟩
  · obtain ⟨off, latched, channel, raised⟩ := stoFault_latches (ch := ch) run free
    refine ⟨_, rfl, off, latched, channel, raised, fun f used names normal => ?_⟩
    have shape := stoFault_eq (ch2 := ch.val == 1) (by simp [State.running, run]) free
    have row := stoMarked_img k (ch.val == 1) s
    have tripped := stoTrips_trips (k := k) (f := f) (s := stoMarked k (ch.val == 1) s)
      (by simpa only [sfUsed, sfRow, row] using used) (by simpa only [namesSto, sfRow, row] using names)
      (by rw [stoMarked_sf, normal])
    have same : sfOf (stoFault k.val (ch.val == 1) s) f = sfOf (stoTrips k (stoMarked k (ch.val == 1) s)) f := by
      rw [shape]
      exact congrArg (Tab.look · f) (brLines_fns _)
    rw [same]
    exact tripped

end Sys2Proof.Proofs
end

section
/-! SUPPORT. A message that passes its checks leaves no reply behind, and a frame of the Bedrock safety layer in RUN
(13 R428, R430, R431; 15 R471). -/

namespace Sys2Proof.Laws

open Sys2Proof Sys2Proof.Machine

/-! ### What receiving answers (15 R465, R471) -/

theorem queueFree_replies (p : Port) (s : State) : (queueFree p s).mmp.replies = s.mmp.replies := by
  unfold queueFree
  split
  · rfl
  · exact raiseN_replies ..

/-- A message whose sequence number is new is not answered by its check. -/
theorem checkSeq_replies {q r : Req} {peer : Bool} {s t : State} (e : checkSeq q peer s = (some r, t)) :
    t.mmp.replies = s.mmp.replies := by
  unfold checkSeq at e
  split at e
  · split at e
    · cases e
    split at e
    · cases e
    · obtain ⟨-, rfl⟩ := Prod.mk.inj e
      rfl
  · split at e
    · cases e
    split at e
    · obtain ⟨-, rfl⟩ := Prod.mk.inj e
      rfl
    · cases e

theorem receivePeer_replies {q r : Req} {full : Bool} {s t : State} (e : receivePeer q full s = (some r, t)) :
    t.mmp.replies = s.mmp.replies := by
  unfold receivePeer at e
  split at e
  · split at e
    · cases e
    split at e
    · cases e
    · refine (checkSeq_replies e).trans ((queueFree_replies ..).trans ?_)
      split <;> rfl
  · split at e
    · cases e
    · exact (checkSeq_replies e).trans (queueFree_replies ..)

/-- A request that goes on to check 6 has not been answered. -/
theorem receive_replies {m : Msg} {addrs : List W32} {r : Req} {s t : State} (e : receive m addrs s = (some r, t)) :
    t.mmp.replies = s.mmp.replies := by
  unfold receive at e
  dsimp only at e
  split at e
  · cases e
  split at e
  · cases e
  split at e
  · cases e
  split at e
  · cases e
  split at e
  · cases e
  split at e
  · exact receivePeer_replies e
  split at e
  · cases e
  split at e
  · cases e
  split at e
  · cases e
  split at e
  · cases e
  next checked =>
    split at e
    · cases e
    · obtain ⟨-, rfl⟩ := Prod.mk.inj e
      exact (checkSeq_replies checked).trans (queueFree_replies ..)

theorem accepted_replies {m : Msg} {ty : Nat} {need : Role} {q : Req} {s u : State} (h : Accepted m ty need q s u) :
    u.mmp.replies = s.mmp.replies := by
  obtain ⟨received, -⟩ := h
  exact receive_replies received

theorem accepted_bedrock {m : Msg} {ty : Nat} {need : Role} {q : Req} {s u : State} (h : Accepted m ty need q s u) :
    u.bedrock = s.bedrock :=
  bedrock_of_view (accepted_view h (v := N.bedrock) (by decide)) (by decide)

/-! ### Frames of the safety layer (13 R430, R431) -/

@[simp] theorem setBsl_self (s : State) (c : Nat) (f : BslSt → BslSt) : bslOf (s.setBsl c f) c = f (bslOf s c) := by
  simp [bslOf, State.setBsl, State.setBr]

theorem setBsl_other (s : State) {c d : Nat} (f : BslSt → BslSt) (h : d ≠ c) : bslOf (s.setBsl c f) d = bslOf s d := by
  simp [bslOf, State.setBsl, State.setBr, h]

/-- The one connection that takes a frame is the one it is offered to, when the frame's check passes. -/
theorem bslOffer_taken {conns : List Nat} {bytes : List Byte} {c : Nat} {s : State}
    (one : conns.filter (bslTakes s) = [c]) (check : bslCheck (bslRow s c) bytes = true) :
    bslOffer conns bytes s = bslPassed c bytes s := by
  simp [bslOffer, one, check]

/-- In RUN a frame with the next number, a time within the window and no flag is accepted without a loss. -/
theorem bslPassed_next {c : Nat} {bytes : List Byte} {s : State} (run : (bslOf s c).state = 2)
    (next : leAt bytes 0 2 = ((bslOf s c).seq + 1) % 65536)
    (noReset : bitOf 1 (leAt bytes 7 1) = false) (noFail : bitOf 0 (leAt bytes 7 1) = false)
    (later : 0 < (w32 (leAt bytes 2 4) - w32 (bslOf s c).texp).toInt)
    (within : (w32 (leAt bytes 2 4) - w32 (bslOf s c).texp).toInt ≤ ((bslRow s c).wd * 1000 : Nat)) :
    bslPassed c bytes s = bslAccept c (leAt bytes 0 2) (leAt bytes 2 4) 1 false false ((bytes.drop 8).take (bslRow s c).len)
      true s := by
  have gap : (leAt bytes 0 2 + 65536 - (bslOf s c).seq % 65536) % 65536 = 1 := by omega
  simp only [bslPassed, run, gap, noReset, noFail, decide_eq_true later, decide_eq_true within]
  rfl

/-- A frame accepted with the next number: the connection's references, count, instant and data. -/
theorem bslAccept_next (c seq texp : Nat) (data : List Byte) (s : State) :
    let t := bslAccept c seq texp 1 false false data true s
    (bslOf t c).state = (bslOf s c).state ∧ (bslOf t c).seq = seq ∧ (bslOf t c).texp = texp
      ∧ (bslOf t c).ok = wrap32 ((bslOf s c).ok + 1) ∧ (bslOf t c).lost = (bslOf s c).lost
      ∧ (bslOf t c).at' = some (nowMs s) ∧ (bslOf t c).data = data ∧ t.mmp.replies = s.mmp.replies := by
  intro t
  have written := setBsl_self s c
  simp only [t, bslAccept, written]
  simp [State.setBsl, State.setBr]

end Sys2Proof.Laws
end

section
/-! CERTIFICATE. Frames and time-outs of the Bedrock safety layer in RUN (13 R427–R431). -/

namespace Sys2Proof.Proofs

open Sys2Proof Sys2Proof.Machine Sys2Proof.Laws

/-- Settles O37: the frame reaches its one connection and is accepted there; the time-out writes its connection alone. -/
theorem bslFrames : Obligations.BslFrames := by
  unfold Obligations.BslFrames
  refine ⟨fun m q s u c h one check run next _ noReset noFail later within => ?_, fun s c fn dir run => ?_⟩
  · have conn : bslOf u c = bslOf s c := by rw [bslOf, accepted_bedrock h, bslOf]
    have row : bslRow u c = bslRow s c := by rw [bslRow, accepted_img h, bslRow]
    have taken := bslPassed_next (c := c) (bytes := q.payload) (s := u) (by rwa [conn]) (by rwa [conn])
      noReset noFail (by rwa [conn]) (by rwa [conn, row])
    have e : exec (.bsl m) s = .next (bslPassed c q.payload u) := by
      show execBsl m s = _
      rw [execBsl, accepted_onPeer h, bslOffer_taken one check]
    rw [taken, row] at e
    obtain ⟨state, seq, texp, ok, lost, at', data, replies⟩ :=
      bslAccept_next c (leAt q.payload 0 2) (leAt q.payload 2 4) ((q.payload.drop 8).take (bslRow s c).len) u
    rw [conn] at state ok lost
    rw [nowMs, accepted_now h] at at'
    exact ⟨_, e, state.trans run, seq, texp, ok, lost, at', data, replies.trans (accepted_replies h)⟩
  · have takes : (bslTakes s c && (bslOf s c).state == 2) = true := by simp [bslTakes, State.running, fn, dir, run]
    have timed : bslTimeout c.val s = raiseBsl Ev.BSL_TIMEOUT c 0 (s.setBsl c fun x =>
        { x with state := 1, passed := 0, data := x.data.map (fun _ => 0#8) }) := if_pos takes
    have kept : ∀ (t : State) d, bslOf (raiseBsl Ev.BSL_TIMEOUT c 0 t) d = bslOf t d := fun t d => by
      rw [bslOf, raiseBsl, raiseN_bedrock, bslOf]
    refine ⟨_, rfl, ?_, fun d ne => ?_, ?_⟩
    · rw [timed, kept, setBsl_self]
    · rw [timed, kept, setBsl_other _ _ ne]
    · rw [timed]
      exact raised_of_growsN (.of_eq rfl) ..

end Sys2Proof.Proofs
end

section
/-! SUPPORT. Blocks of the pool: what an allocation, a return and a parity error write (14 R443, R445, R454). -/

namespace Sys2Proof.Laws

open Sys2Proof Sys2Proof.Machine

/-! ### Blocks -/

theorem poolBlock_of_pool {s t : State} (h : t.pool = s.pool) (b : Nat) : poolBlock t b = poolBlock s b := by
  rw [poolBlock, h, poolBlock]

@[simp] theorem poolBlock_raiseN (k : EvKind) (src d : Nat) (s : State) (b : Nat) :
    poolBlock (raiseN k src d s) b = poolBlock s b := poolBlock_of_pool (raiseN_pool ..) b

/-- A change of one block of the pool. -/
abbrev updBlock (b : Nat) (f : BlockSt → BlockSt) (s : State) : State :=
  s.setPool fun p => { p with blocks := p.blocks.upd b f }

theorem poolBlock_upd_self (b : Nat) (f : BlockSt → BlockSt) (s : State) :
    poolBlock (updBlock b f s) b = f (poolBlock s b) := by
  simp [poolBlock, updBlock]

theorem poolBlock_upd_other {b c : Nat} (f : BlockSt → BlockSt) (s : State) (h : c ≠ b) :
    poolBlock (updBlock b f s) c = poolBlock s c := by
  simp [poolBlock, updBlock, h]

/-! ### Allocation (14 R443, R445) -/

/-- What a pick answers has the length asked for. -/
theorem poolPick_length {s : State} {f : Fn} {n : Nat} {bs : List Nat} (h : poolPick s f n = some bs) : bs.length = n := by
  unfold poolPick at h
  split at h
  · cases h
  · obtain ⟨l, -, found⟩ := List.exists_of_findSome?_eq_some h
    split at found
    · cases found
      simpa using ‹n ≤ l.length›
    · cases found

/-- Every block of the list is given to the owner, and no other. -/
theorem given_block (o : Nat) (bs : List Nat) (s : State) (b : Nat) :
    poolBlock (forAll bs (fun c t => updBlock c (fun x => { x with owner := some o }) t) s) b
      = if b ∈ bs then { poolBlock s b with owner := some o } else poolBlock s b := by
  induction bs generalizing s with
  | nil => rfl
  | cons c bs ih =>
    rw [forAll_cons, ih]
    by_cases same : b = c
    · subst same
      simp [poolBlock_upd_self]
    · simp [poolBlock_upd_other _ _ same, same]

theorem given_fns (o : Nat) (bs : List Nat) (s : State) :
    (forAll bs (fun c t => updBlock c (fun x => { x with owner := some o }) t) s).pool.fns = s.pool.fns := by
  refine forAll_keeps (fun t : State => t.pool.fns) (fun c t => ?_) s
  rfl

/-- An allocation that a pick serves. -/
theorem poolAlloc_serves {f : Fn} {n : Nat} {bs : List Nat} {s : State} (h : poolPick s f n = some bs) (b : Nat) :
    poolBlock (poolAlloc f n s).2 b = (if b ∈ bs then { poolBlock s b with owner := some (fnId f) } else poolBlock s b)
      ∧ ((poolAlloc f n s).2.pool.fns.look (fnId f)).refusals = (s.pool.fns.look (fnId f)).refusals := by
  unfold poolAlloc
  rw [h]
  refine ⟨given_block .., ?_⟩
  dsimp only [setArb]
  simp only [setPool_pool, Tab.look_upd_self]
  exact congrArg (fun t : Tab ArbFn => (t.look (fnId f)).refusals) (given_fns (fnId f) bs s)

/-- An allocation that no pick serves. -/
theorem poolAlloc_refuses {f : Fn} {n : Nat} {s : State} (h : poolPick s f n = none)
    (first : (s.pool.fns.look (fnId f)).exhausted = false) :
    (poolAlloc f n s).2 = raiseN Ev.POOL_EXHAUSTED 0xCE (fnId f + 256 * n)
      (setArb f (fun a => { a with refusals := satInc 16383 a.refusals, exhausted := true }) s) := by
  simp [poolAlloc, h, first, raiseIf]

/-! ### Return (14 R454) -/

theorem freeBlock_plain {b : Nat} {s : State} (h : (poolBlock s b).marked = false) :
    freeBlock b s = s.setPool fun p => { p with blocks := p.blocks.put b {} } := by
  simp [freeBlock, h]

theorem freeBlock_marked {b : Nat} {s : State} (h : (poolBlock s b).marked = true) :
    let u := s.setPool fun p => { p with blocks := p.blocks.put b { retired := true } }
    freeBlock b s = raiseN Ev.POOL_BLOCK_RETIRED 0xCE (b + 65536 * retiredBlocks u) u := by
  simp [freeBlock, h]

/-- A block that a function returns leaves the queue of a controller beside the pool. -/
theorem giveBack_owned {f : Fn} {b : Nat} {s : State} (h : (poolBlock s b).owner = some (fnId f)) :
    (giveBack f b s).pool = (freeBlock b s).pool ∧ (giveBack f b s).recd = (freeBlock b s).recd := by
  unfold giveBack
  rw [if_neg (by simp [h])]
  cases f <;> exact ⟨rfl, rfl⟩

end Sys2Proof.Laws
end

section
/-! CERTIFICATE. The blocks of the pool (14 R443, R445, R454). -/

namespace Sys2Proof.Proofs

open Sys2Proof Sys2Proof.Machine Sys2Proof.Laws

variable {s : State} {f : Fn} {b : Nat}

theorem poolAllocate_serves {n : Nat} {bs : List Nat} (low : 1 ≤ n) (high : n ≤ 64) (free : masked s f = false)
    (pick : poolPick s f n = some bs) :
    Completes (.poolAllocate f n) s (fun t =>
      (∀ b ∈ bs, (poolBlock t b).owner = some (fnId f)) ∧ (∀ b, b ∉ bs → poolBlock t b = poolBlock s b)
        ∧ bs.length = n ∧ (t.pool.fns.look (fnId f)).refusals = (s.pool.fns.look (fnId f)).refusals) := by
  have e : exec (.poolAllocate f n) s = .next (poolAlloc f n s).2 := by
    show execPoolAllocate f n s = _
    rw [execPoolAllocate, if_neg (by simp [free]; omega)]
  refine ⟨_, e, fun b inside => ?_, fun b outside => ?_, poolPick_length pick, (poolAlloc_serves pick 0).2⟩
  · rw [(poolAlloc_serves pick b).1, if_pos inside]
  · rw [(poolAlloc_serves pick b).1, if_neg outside]

theorem poolAllocate_refuses {n : Nat} (low : 1 ≤ n) (high : n ≤ 64) (free : masked s f = false)
    (pick : poolPick s f n = none) (first : (s.pool.fns.look (fnId f)).exhausted = false) :
    Completes (.poolAllocate f n) s (fun t =>
      t.pool.blocks = s.pool.blocks
        ∧ (t.pool.fns.look (fnId f)).refusals = satInc 16383 (s.pool.fns.look (fnId f)).refusals
        ∧ Raised Ev.POOL_EXHAUSTED 0xCE (w32 (fnId f + 256 * n)) s t) := by
  have e : exec (.poolAllocate f n) s = .next (raiseN Ev.POOL_EXHAUSTED 0xCE (fnId f + 256 * n)
      (setArb f (fun a => { a with refusals := satInc 16383 a.refusals, exhausted := true }) s)) := by
    show execPoolAllocate f n s = _
    rw [execPoolAllocate, if_neg (by simp [free]; omega), poolAlloc_refuses pick first]
  refine ⟨_, e, ?_, ?_, raised_of_growsN (.of_eq rfl) ..⟩
  · rw [raiseN_pool]
    rfl
  · rw [raiseN_pool, setArb, setPool_pool, Tab.look_upd_self]

theorem blockFree_returns (owned : (poolBlock s b).owner = some (fnId f)) (plain : (poolBlock s b).marked = false) :
    Completes (.blockFree f [b]) s (fun t => poolBlock t b = {} ∧ ∀ c, c ≠ b → poolBlock t c = poolBlock s c) := by
  have pool := (giveBack_owned owned).1
  rw [freeBlock_plain plain] at pool
  refine ⟨giveBack f b s, rfl, ?_, fun c other => ?_⟩
  · rw [poolBlock_of_pool pool, poolBlock, setPool_pool, Tab.look_put_self]
  · rw [poolBlock_of_pool pool, poolBlock, setPool_pool, Tab.look_put_of_ne _ _ other, poolBlock]

theorem blockFree_retires (owned : (poolBlock s b).owner = some (fnId f)) (marked : (poolBlock s b).marked = true) :
    Completes (.blockFree f [b]) s (fun t => poolBlock t b = { retired := true }
      ∧ Raised Ev.POOL_BLOCK_RETIRED 0xCE (w32 (b + 65536 * retiredBlocks t)) s t) := by
  obtain ⟨pool, recd⟩ := giveBack_owned owned
  rw [freeBlock_marked marked] at pool recd
  rw [raiseN_pool] at pool
  refine ⟨giveBack f b s, rfl, ?_, ?_⟩
  · rw [poolBlock_of_pool pool, poolBlock, setPool_pool, Tab.look_put_self]
  · have count : retiredBlocks (giveBack f b s)
        = retiredBlocks (s.setPool fun p => { p with blocks := p.blocks.put b { retired := true } }) := by
      rw [retiredBlocks, pool, retiredBlocks]
    rw [count]
    exact raised_raiseN (u := s.setPool fun p => { p with blocks := p.blocks.put b { retired := true } }) rfl
      (congrArg RecSt.inbox recd)

theorem poolParity_marks (low : b < 8192) (live : (poolBlock s b).retired = false) :
    Completes (.poolParity b) s (fun t => poolBlock t b = { poolBlock s b with marked := true }
      ∧ (∀ c, c ≠ b → poolBlock t c = poolBlock s c) ∧ Raised Ev.POOL_PARITY 0xCE (w32 b) s t) := by
  have e : poolParity b s = raiseN Ev.POOL_PARITY 0xCE b (updBlock b (fun x => { x with marked := true }) s) :=
    if_neg (by simp [live]; omega)
  refine ⟨poolParity b s, rfl, ?_, fun c other => ?_, ?_⟩
  · rw [e, poolBlock_raiseN, poolBlock_upd_self]
  · rw [e, poolBlock_raiseN, poolBlock_upd_other _ _ other]
  · rw [e]
    exact raised_of_growsN (.of_eq rfl) ..

/-- The block after a scrub has found its error, before a free one is retired. -/
theorem scrubFinds_eq (low : b < 8192) (live : (poolBlock s b).retired = false) :
    let u := raiseN Ev.POOL_PARITY 0xCE (b + 65536) (updBlock b (fun x => { x with marked := true }) s)
    scrubFinds b s = if (poolBlock s b).owner.isNone then freeBlock b u else u :=
  if_neg (by simp [live]; omega)

theorem poolScrub_retires (low : b < 8192) (live : (poolBlock s b).retired = false) (free : (poolBlock s b).owner = none) :
    Completes (.poolScrub [b]) s (fun t => poolBlock t b = { retired := true }
      ∧ Raised Ev.POOL_PARITY 0xCE (w32 (b + 65536)) s t) := by
  have e := scrubFinds_eq low live
  dsimp only at e
  rw [free, if_pos Option.isNone_none] at e
  have raised : Raised Ev.POOL_PARITY 0xCE (w32 (b + 65536)) s
      (raiseN Ev.POOL_PARITY 0xCE (b + 65536) (updBlock b (fun x => { x with marked := true }) s)) :=
    raised_of_growsN (.of_eq rfl) ..
  refine ⟨scrubFinds b s, rfl, ?_, ?_⟩
  · rw [e, freeBlock_marked (by rw [poolBlock_raiseN, poolBlock_upd_self]), poolBlock_raiseN, poolBlock, setPool_pool,
      Tab.look_put_self]
  · rw [e]
    exact raised_mid (.refl s) raised (freeBlock_grows ..)

theorem poolScrub_marks {o : Nat} (low : b < 8192) (live : (poolBlock s b).retired = false)
    (owned : (poolBlock s b).owner = some o) :
    Completes (.poolScrub [b]) s (fun t => poolBlock t b = { poolBlock s b with marked := true }
      ∧ Raised Ev.POOL_PARITY 0xCE (w32 (b + 65536)) s t) := by
  have e := scrubFinds_eq low live
  dsimp only at e
  rw [owned, if_neg (by simp)] at e
  refine ⟨scrubFinds b s, rfl, ?_, ?_⟩
  · rw [e, poolBlock_raiseN, poolBlock_upd_self]
  · rw [e]
    exact raised_of_growsN (.of_eq rfl) ..

/-- Settles O38: each command writes the entry of its block, and the events follow the mark. -/
theorem poolBlocks : Obligations.PoolBlocks := by
  unfold Obligations.PoolBlocks
  exact ⟨fun _ _ _ _ => poolAllocate_serves, fun _ _ _ => poolAllocate_refuses, fun _ _ _ => blockFree_returns,
    fun _ _ _ => blockFree_retires, fun _ _ => poolParity_marks, fun _ _ => poolScrub_retires,
    fun _ _ _ => poolScrub_marks⟩

end Sys2Proof.Proofs
end

section
/-! SUPPORT. The arbiter: decision points, tags and locks (14 R440, R447, R448, R453). -/

namespace Sys2Proof.Laws

open Sys2Proof Sys2Proof.Machine

variable {s : State}

/-! ### Decision points (14 R447, R449) -/

@[simp] theorem setArb_holder (f : Fn) (g : ArbFn → ArbFn) (s : State) : (setArb f g s).pool.holder = s.pool.holder := rfl
@[simp] theorem setArb_waits (f : Fn) (g : ArbFn → ArbFn) (s : State) : (setArb f g s).pool.waits = s.pool.waits := rfl
@[simp] theorem setArb_tags (f : Fn) (g : ArbFn → ArbFn) (s : State) : (setArb f g s).pool.tags = s.pool.tags := rfl

@[simp] theorem moveBurst_holder (r : Requester) (n : Nat) (s : State) : (moveBurst r n s).pool.holder = s.pool.holder := rfl
@[simp] theorem moveBurst_waits (r : Requester) (n : Nat) (s : State) : (moveBurst r n s).pool.waits = s.pool.waits := rfl
@[simp] theorem moveBurst_tags (r : Requester) (n : Nat) (s : State) : (moveBurst r n s).pool.tags = s.pool.tags := rfl

/-- Without a holder the first by rank and function gets the grant. -/
theorem decide_of_no_holder (h : s.pool.holder = none) (reqs : List Requester) : decide' s reqs = firstGranted reqs := by
  simp [decide', h]

/-- The holder that goes before the other requester keeps the grant. -/
theorem decide_keeps_holder {h r : Requester} (held : s.pool.holder = some h) (before : rankOf h < rankOf r) :
    decide' s [r, h] = some h := by
  simp [decide', held, firstGranted, grantedBefore, before]

theorem freeTag_isNone {k : Nat} (h : freeTag s = some k) : (s.pool.tags.look k).isNone = true :=
  List.find?_some (p := fun t => (s.pool.tags.look t).isNone) h

end Sys2Proof.Laws
end

section
/-! CERTIFICATE. The arbiter's commands (14 R440, R441, R447, R448, R453). -/

namespace Sys2Proof.Proofs

open Sys2Proof Sys2Proof.Machine Sys2Proof.Laws

variable {s : State} {f : Fn}

theorem decisionPoint_grants {r : Requester} {beats : Nat} (may : eligible s none r = true) (idle : s.pool.holder = none)
    (low : 1 ≤ beats) (high : beats ≤ 16) :
    Completes (.decisionPoint [r] beats none false) s (fun t =>
      t.pool.holder = some r ∧ t.pool.waits = []
        ∧ (∃ k, freeTag s = some k ∧ t.pool.tags.look k = some { fn := fnId r.fn, portB := r.portB, since := s.now })
        ∧ t.pool.bursts.head? = some { time := s.now, fn := fnId r.fn, bytes := 8 * beats, cycles := beats + 2 }) := by
  have served : (freeTag s).isSome = true := by
    simp only [eligible, tagAvailable, Bool.and_eq_true, Bool.false_or] at may
    exact may.2.1
  obtain ⟨k, tag⟩ := Option.isSome_iff_exists.1 served
  have winner : decide' s [r] = some r := decide_of_no_holder idle [r]
  have size : max 1 (min 16 beats) = beats := by omega
  have fresh := freeTag_isNone tag
  refine ⟨decisionPoint [r] beats none false s, rfl, ?_⟩
  simp only [decisionPoint, List.filter_cons, may, if_true, List.filter_nil, winner, tag, fresh, size, Bool.false_eq_true,
    if_false]
  refine ⟨rfl, ?_, ⟨k, rfl, ?_⟩, rfl⟩
  · simp [waitsAfter]
  · simp

theorem decisionPoint_ends {h r : Requester} {k beats : Nat} (held : s.pool.holder = some h) (own : ownsTag s h k = true)
    (free : masked s h.fn = false) (may : eligible s (some k) r = true) (before : rankOf h < rankOf r) (other : h.fn ≠ .logic) :
    Completes (.decisionPoint [r, h] beats (some k) true) s (fun t =>
      t.pool.holder = some h ∧ t.pool.tags.look k = none ∧ (t.pool.waits.map (·.who)) = [r]) := by
  have continues : eligible s (some k) h = true := by
    have notLogic : (h.fn == Fn.logic) = false := by simp [other]
    simp [eligible, free, own, notLogic]
  have winner : decide' s [r, h] = some h := decide_keeps_holder held before
  have unmasked : masked s r.fn = false := by
    simp only [eligible, Bool.and_eq_true, Bool.not_eq_true'] at may
    exact may.1.1
  have apart : r ≠ h := fun e => by
    rw [e] at before
    exact Nat.lt_irrefl _ before
  refine ⟨decisionPoint [r, h] beats (some k) true s, rfl, ?_⟩
  simp only [decisionPoint, List.filter_cons, may, continues, if_true, List.filter_nil, winner, own]
  refine ⟨?_, ?_, ?_⟩
  · split <;> rfl
  · simp [dropTag]
  · have waits : (waitsAfter s [r, h] (some h)).map (·.who) = [r] := by
      have kept : ([r, h].filter fun x => some x != some h && !masked s x.fn) = [r] := by simp [apart, unmasked]
      rw [waitsAfter, kept]
      cases found : s.pool.waits.find? (fun x => x.who == r) with
      | none => simp [found]
      | some x => simpa [found] using List.find?_some found
    split <;> exact waits

theorem arbStarved_marks {w : WaitSt} (one : s.pool.waits = [w]) (who : w.who.fn = f) (first : w.starved = false) :
    Completes (.arbStarved f) s (fun t =>
      t.pool.waits = [{ w with starved := true }]
        ∧ Raised Ev.ARB_STARVED 0xCE (w32 (fnId f + 256 * rankOf w.who)) s t) := by
  have e : arbStarved f s = raiseN Ev.ARB_STARVED 0xCE (fnId f + 256 * rankOf w.who)
      (s.setPool fun p => { p with waits := updFirst (fun x => x == w) (fun x => { x with starved := true }) p.waits }) := by
    simp [arbStarved, one, who, first]
  refine ⟨arbStarved f s, rfl, ?_, ?_⟩
  · rw [e, raiseN_pool, setPool_pool, one]
    simp [updFirst]
  · rw [e]
    exact raised_of_growsN (.of_eq rfl) ..

theorem tagTimeout_frees {k : Nat} (low : k < 256) :
    Completes (.tagTimeout f k) s (fun t => t.pool.tags.look k = none
      ∧ (∀ j, j ≠ k → t.pool.tags.look j = s.pool.tags.look j)
      ∧ Raised Ev.TAG_TIMEOUT 0xCE (w32 (fnId f + 256 * k)) s t) := by
  have e : tagTimeout f k s = raiseN Ev.TAG_TIMEOUT 0xCE (fnId f + 256 * k) (dropTag k s) := by
    rw [tagTimeout, Nat.mod_eq_of_lt low]
  have tags : (tagTimeout f k s).pool.tags = s.pool.tags.put k none := by rw [e, raiseN_pool, dropTag, setPool_pool]
  refine ⟨tagTimeout f k s, rfl, ?_, fun j other => ?_, ?_⟩
  · rw [tags, Tab.look_put_self]
  · rw [tags, Tab.look_put_of_ne _ _ other]
  · rw [e]
    exact raised_of_growsN (.of_eq rfl) ..

/-- A fault of a function that is not fatal writes its header, and for Bedrock the partition. -/
theorem faultFn_header {code : Nat} (work : s.fnState f = .run ∨ s.fnState f = .drain ∨ s.fnState f = .standby)
    (hm : f ≠ .module) (hp : f ≠ .pool) :
    fnFault f code s = s.setHdr f (fun h => { h with state := .fault, fault := code % 4096 }) := by
  rcases work with h | h | h <;> simp [fnFault, h, hm, hp]

theorem fabricParity_faults {k : Nat} (low : k < 256) (hm : f ≠ .module) (hp : f ≠ .pool)
    (work : s.fnState f = .run ∨ s.fnState f = .drain ∨ s.fnState f = .standby) :
    Completes (.fabricParity f k) s (fun t => t.pool.parity = min top32 (s.pool.parity + 2) ∧ t.fnState f = .fault
      ∧ (t.hdr f).fault = 0xC05 ∧ Raised Ev.FABRIC_PARITY 0xCE (w32 (fnId f + 256 * k)) s t) := by
  let u := fabricParity f k s
  have shape : u = raiseN Ev.FABRIC_PARITY 0xCE (fnId f + 256 * k)
      ((dropTag k s).setPool fun p => { p with parity := min top32 (p.parity + 2) }) := by
    show fabricParity f k s = _
    rw [fabricParity, Nat.mod_eq_of_lt low]
  have state : u.fnState f = s.fnState f := fnStateRead s f (fabricParity_view (by decide) ..)
  have faulted : fnFault f 0xC05 u = u.setHdr f (fun h => { h with state := .fault, fault := 0xC05 }) :=
    faultFn_header (state ▸ work) hm hp
  have beyond : view (P.event ||| P.axes ||| P.bedrock) (faultFn f 0xC05 u)
      = view (P.event ||| P.axes ||| P.bedrock) (u.setHdr f (fun h => { h with state := .fault, fault := 0xC05 })) := by
    unfold faultFn
    dsimp only
    rw [faulted]
    exact view_ite (tripEvery_view (by decide) ..) rfl
  have grows : Grows u (faultFn f 0xC05 u) := by
    unfold faultFn
    dsimp only
    rw [faulted]
    split
    · exact (tripEvery_grows ..).from_eq rfl
    · exact .of_eq rfl
  refine ⟨faultFn f 0xC05 u, rfl, ?_, ?_, ?_, ?_⟩
  · rw [pool_of_view beyond (by decide), setHdr_pool, shape, raiseN_pool]
    rfl
  · rw [fnStateRead _ f (view_mono (by decide) beyond), setHdr_fnState_self]
  · rw [(hdrRead _ f (view_mono (by decide) beyond)).2.2.1, setHdr_self]
  · refine raised_mid (.refl s) ?_ grows
    rw [shape]
    exact raised_of_growsN (.of_eq rfl) ..

/-! ### Locks -/

/-- A function that keeps the order and finds the resource free or held. -/
theorem lock_writes {n : Nat} (known : n ≤ 10) (free : masked s f = false) (order : ∀ h ∈ locksOf s f, h < n) :
    lockRes f n s = s.setPool fun p => { p with locks := p.locks.upd n fun l =>
      match l.owner with
      | none => { l with owner := some (fnId f) }
      | some _ => if l.waiters.contains (fnId f) then l else { l with waiters := l.waiters ++ [fnId f] } } := by
  have above : (locksOf s f).any (fun h => decide (n ≤ h)) = false := by
    simpa [List.any_eq_false] using order
  unfold lockRes
  rw [if_neg (by simp [free]; omega)]
  dsimp only
  rw [above]
  rfl

theorem lock_takes {n : Nat} (known : n ≤ 10) (free : masked s f = false) (order : ∀ h ∈ locksOf s f, h < n)
    (open' : (s.pool.locks.look n).owner = none) :
    Completes (.lock f n) s (fun t => (t.pool.locks.look n).owner = some (fnId f)
      ∧ (t.pool.locks.look n).waiters = (s.pool.locks.look n).waiters
      ∧ ∀ m, m ≠ n → t.pool.locks.look m = s.pool.locks.look m) := by
  refine ⟨lockRes f n s, rfl, ?_⟩
  rw [lock_writes known free order]
  simp only [setPool_pool, Tab.look_upd_self, open', true_and]
  exact fun m other => Tab.look_upd_of_ne _ _ other

theorem lock_waits {n o : Nat} (known : n ≤ 10) (free : masked s f = false) (order : ∀ h ∈ locksOf s f, h < n)
    (held : (s.pool.locks.look n).owner = some o) (new : fnId f ∉ (s.pool.locks.look n).waiters) :
    Completes (.lock f n) s (fun t =>
      t.pool.locks.look n = { owner := some o, waiters := (s.pool.locks.look n).waiters ++ [fnId f] }) := by
  refine ⟨lockRes f n s, rfl, ?_⟩
  rw [lock_writes known free order]
  simp [held, new]

theorem lock_violates {n : Nat} (known : n ≤ 10) (free : masked s f = false) (above : ∃ h ∈ locksOf s f, n ≤ h) :
    Completes (.lock f n) s (fun t => t.pool.locks = s.pool.locks ∧ t.pool.orderCount = satInc top32 s.pool.orderCount
      ∧ Raised Ev.ORDER_VIOLATION 0xCE (w32 (fnId f + 256 * (locksOf s f).foldl max 0 + 4096 * n)) s t) := by
  have some' : (locksOf s f).any (fun h => decide (n ≤ h)) = true := by simpa using above
  have e : lockRes f n s = raiseN Ev.ORDER_VIOLATION 0xCE (fnId f + 256 * (locksOf s f).foldl max 0 + 4096 * n)
      (s.setPool fun p => { p with orderCount := satInc top32 p.orderCount }) := by
    unfold lockRes
    rw [if_neg (by simp [free]; omega)]
    dsimp only
    rw [some']
    rfl
  refine ⟨lockRes f n s, rfl, ?_, ?_, ?_⟩
  · rw [e, raiseN_pool, setPool_pool]
  · rw [e, raiseN_pool, setPool_pool]
  · rw [e]
    exact raised_of_growsN (.of_eq rfl) ..

theorem unlock_frees {n : Nat} (held : (s.pool.locks.look n) = { owner := some (fnId f), waiters := [] }) :
    Completes (.unlock f n) s (fun t => t.pool.locks.look n = {} ∧ ∀ m, m ≠ n → t.pool.locks.look m = s.pool.locks.look m) := by
  have e : unlockRes f n s = s.setPool fun p => { p with locks := p.locks.put n {} } := by
    simp [unlockRes, held, passLock, grantLock]
  refine ⟨unlockRes f n s, rfl, ?_, fun m other => ?_⟩
  · rw [e, setPool_pool, Tab.look_put_self]
  · rw [e, setPool_pool, Tab.look_put_of_ne _ _ other]

theorem unlock_passes {g : Fn} {n : Nat} {w : List Nat}
    (held : (s.pool.locks.look n) = { owner := some (fnId f), waiters := fnId g :: w })
    (below : ∀ p ∈ s.pool.locks, p.2.owner = some (fnId g) → p.1 < n) :
    Completes (.unlock f n) s (fun t => t.pool.locks.look n = { owner := some (fnId g), waiters := w }
      ∧ ∀ m, m ≠ n → t.pool.locks.look m = s.pool.locks.look m) := by
  have order : ((s.pool.locks.filter (fun p => p.2.owner == some (fnId g) && p.1 != n)).map (·.1)).any
      (fun h => decide (n ≤ h)) = false := by
    simp only [List.any_eq_false, List.mem_map, List.mem_filter, Bool.and_eq_true, beq_iff_eq, decide_eq_true_eq]
    rintro _ ⟨p, ⟨listed, owner, -⟩, rfl⟩
    exact Nat.not_le.2 (below p listed owner)
  have e : unlockRes f n s = s.setPool fun p => { p with locks := p.locks.put n { owner := some (fnId g), waiters := w } } := by
    simp only [unlockRes, held, passLock, grantLock, order, beq_self_eq_true, if_true, Bool.false_eq_true, if_false]
  refine ⟨unlockRes f n s, rfl, ?_, fun m other => ?_⟩
  · rw [e, setPool_pool, Tab.look_put_self]
  · rw [e, setPool_pool, Tab.look_put_of_ne _ _ other]

/-- Settles O39: a decision writes holder, waits, tags and bursts; the other commands write the entry they name. -/
theorem arbiterCommands : Obligations.ArbiterCommands := by
  unfold Obligations.ArbiterCommands
  exact ⟨fun _ _ _ => decisionPoint_grants, fun _ _ _ _ _ => decisionPoint_ends, fun _ _ _ => arbStarved_marks,
    fun _ _ _ => tagTimeout_frees, fun _ _ _ => fabricParity_faults, fun _ _ _ => lock_takes, fun _ _ _ _ => lock_waits,
    fun _ _ _ => lock_violates, fun _ _ _ => unlock_frees, fun _ _ _ _ _ => unlock_passes⟩

end Sys2Proof.Proofs
end

section
/-! SUPPORT. The warm start by a wake source and by the restart message (15 R481; 20 R590). -/

namespace Sys2Proof.Laws

open Sys2Proof Sys2Proof.Machine

/-- A wake keeps its cause over the start. -/
theorem wakeNow_mod (w : WakeCause) (s : State) :
    (wakeNow w s).mod = freshModule .bivouacExit { s.mod with bivCause := w.cause, bivArg := w.arg } := by
  rw [wakeNow, restartNow_mod]
  dsimp only
  split <;> simp

/-- In BIVOUAC a wake cause wakes the module. -/
theorem wakeBy_bivouac {w : WakeCause} {s : State} (h : s.mod.state = .bivouac) : wakeBy w s = wakeNow w s := by
  simp [wakeBy, h]

/-- What a wake source leaves behind. -/
structure Woken (w : WakeCause) (t : State) : Prop where
  state : t.mod.state = .selfTest
  start : t.mod.start = .bivouacExit
  cause : t.mod.bivCause = w.cause
  arg : t.mod.bivArg = w.arg

theorem wakeBy_wakes {w : WakeCause} {s : State} (h : s.mod.state = .bivouac) : Woken w (wakeBy w s) := by
  rw [wakeBy_bivouac h]
  constructor <;> rw [wakeNow_mod] <;> rfl

theorem restartNow_img (k : StartKind) (s : State) : (restartNow k s).img = {} := rfl

end Sys2Proof.Laws
end

section
/-! CERTIFICATE. The wake sources and the restart message (15 R481; 16 R497; 20 R589, R590). -/

namespace Sys2Proof.Proofs

open Sys2Proof Sys2Proof.Machine Sys2Proof.Laws

variable {s u : State}

theorem canWake_wakes {c : Fin 4} {f : CanFrame} (asleep : s.mod.state = .bivouac)
    (pattern : (wakeWord s c).toNat % 4 = 2) (hit : wakeFrame s c f = true) :
    Completes (.canWake c (some f)) s (fun t =>
      t.mod.state = .selfTest ∧ t.mod.start = .bivouacExit ∧ t.mod.bivCause = 1 ∧ t.mod.bivArg = c.val) := by
  have e : canWake c.val (some f) s
      = wakeBy { cause := 1, arg := c.val } (raiseCan Ev.CAN_WAKE c.val (f.id % 536870912) s) := by
    simp [canWake, wakeArmed, asleep, pattern, hit]
  have woken : Woken { cause := 1, arg := c.val } (canWake c.val (some f) s) := by
    rw [e]
    exact wakeBy_wakes (by rwa [raiseCan, raiseN_mod])
  exact ⟨_, rfl, woken.state, woken.start, woken.cause, woken.arg⟩

theorem wakeInput_wakes {n : Fin 8} {rising : Bool} {w : WakeCfg} (asleep : s.mod.state = .bivouac)
    (row : s.img.module.wakes[n.val]? = some w) (edge : bitOf (if rising then 0 else 1) w.edge = true) :
    Completes (.wakeInput n rising) s (fun t =>
      t.mod.state = .selfTest ∧ t.mod.start = .bivouacExit ∧ t.mod.bivCause = 2 ∧ t.mod.bivArg = n.val) := by
  have e : wakeInput n.val rising s = wakeBy { cause := 2, arg := n.val } s := by simp [wakeInput, row, edge]
  have woken : Woken { cause := 2, arg := n.val } (wakeInput n.val rising s) := e ▸ wakeBy_wakes asleep
  exact ⟨_, rfl, woken.state, woken.start, woken.cause, woken.arg⟩

theorem siltTimer_wakes (asleep : s.mod.state = .bivouac) (set : s.mod.siltTimer ≠ 0) :
    Completes .siltTimer s (fun t => t.mod.state = .selfTest ∧ t.mod.start = .bivouacExit ∧ t.mod.bivCause = 3) := by
  have e : siltTimeout s = wakeBy { cause := 3 } s := by simp [siltTimeout, asleep, set]
  have woken : Woken { cause := 3 } (siltTimeout s) := e ▸ wakeBy_wakes asleep
  exact ⟨_, rfl, woken.state, woken.start, woken.cause⟩

theorem mmpWake_wakes {m : Msg} {q : Req} (asleep : s.mod.state = .bivouac) (mine : wakeDatagram m s = true)
    (received : receive m [] (s.setMod (fun x => { x with state := .hold })) = (some q, u)) (type : q.type = 0x0E)
    (role : roleAtLeast q.role .engineer = true) (long : 8 ≤ q.payload.length) :
    Completes (.mmpWake m) s (fun t => t.mod.state = .selfTest ∧ t.mod.start = .bivouacExit ∧ t.mod.bivCause = 4) := by
  have e : mmpWake m s = wakeBy { cause := 4 } ((u.setMod (fun x => { x with state := .bivouac })).setMmp
      (fun x => { x with replies := s.mmp.replies, hsrSeq := s.mmp.hsrSeq })) := by
    simp [mmpWake, asleep, mine, received, type, role, long]
  have woken : Woken { cause := 4 } (mmpWake m s) := by
    rw [e]
    exact wakeBy_wakes rfl
  exact ⟨_, rfl, woken.state, woken.start, woken.cause⟩

theorem wakeLine_wakes (asleep : s.mod.state = .bivouac) :
    Completes .wakeLine s (fun t => t.mod.state = .selfTest ∧ t.mod.start = .bivouacExit ∧ t.mod.bivCause = 0) := by
  have woken : Woken { cause := 0 } (wakeBy { cause := 0 } s) := wakeBy_wakes asleep
  exact ⟨_, rfl, woken.state, woken.start, woken.cause⟩

theorem moduleRestart_restarts {m : Msg} {q : Req} (h : Accepted m 4 .engineer q s u) (long : 5 ≤ q.payload.length)
    (key : leAt q.payload 0 4 = 0x52455354) (first : (leAt q.payload 4 1).testBit 0 = false)
    (waits : u.mod.restartAfterHandover = false) :
    Completes (.moduleRestart m) s (fun t =>
      t.mod.state = .selfTest ∧ t.mod.start = .restart ∧ t.mod.powerCycles = s.mod.powerCycles ∧ t.img = {}) := by
  have noFirst : bitOf 0 (leAt q.payload 4 1) = false := first
  obtain ⟨v, same, e⟩ : ∃ v, v.mod = s.mod ∧ moduleRestart q u = restartNow .restart v := by
    refine ⟨_, ?_, by simp only [moduleRestart, key, waits, noFirst, bne_self_eq_false, Bool.false_eq_true, if_false,
      Bool.false_and]; rfl⟩
    rw [raise_mod]
    exact mod_of_view (m := N.mod) ((answer_view (by decide) q .ok u).trans (accepted_view h (by decide))) (by decide)
  have mod : (moduleRestart q u).mod = freshModule .restart s.mod := by rw [e, restartNow_mod, same]
  have ran : exec (.moduleRestart m) s = .next (moduleRestart q u) := by
    show execModuleRestart m s = _
    rw [execModuleRestart, accepted_sized h long]
  refine ⟨_, ran, ?_, ?_, ?_, ?_⟩
  iterate 3
    rw [mod]
    rfl
  rw [e, restartNow_img]

/-- Settles O9: each source passes its own check and wakes; the restart message answers and starts warm. -/
theorem wakesAndRestarts : Obligations.WakesAndRestarts := by
  unfold Obligations.WakesAndRestarts
  exact ⟨fun _ _ _ => canWake_wakes, fun _ _ _ _ => wakeInput_wakes, fun _ => siltTimer_wakes,
    fun _ _ _ _ => mmpWake_wakes, fun _ => wakeLine_wakes, fun _ _ _ _ => moduleRestart_restarts⟩

end Sys2Proof.Proofs
end

section
/-! SUPPORT. What sending leaves of the endpoint (15 R463, R477, R478). -/

namespace Sys2Proof.Laws

open Sys2Proof Sys2Proof.Machine

@[simp] theorem send_echoes (o : RingOut) (s : State) : (send o s).mmp.echoes = s.mmp.echoes := by cases o <;> rfl
@[simp] theorem send_pubCount (o : RingOut) (s : State) : (send o s).mmp.pubCount = s.mmp.pubCount := by cases o <;> rfl
@[simp] theorem send_notifyQ (o : RingOut) (s : State) : (send o s).mmp.notifyQ = s.mmp.notifyQ := by cases o <;> rfl
@[simp] theorem send_notifyLost (o : RingOut) (s : State) : (send o s).mmp.notifyLost = s.mmp.notifyLost := by
  cases o <;> rfl
@[simp] theorem send_mod (o : RingOut) (s : State) : (send o s).mod = s.mod :=
  mod_of_view (m := N.mod) (send_view (by decide) ..) (by decide)

theorem pubSkipped_of_view {s t : State} (e : view N.mmpRest t = view N.mmpRest s) :
    t.mmp.pubSkipped = s.mmp.pubSkipped := congrArg (fun v : View => v.mmpRest.pubSkipped) e

/-- The same events sent to every receiver in turn. -/
theorem sendEach {β : Type} (l : List β) (out : β → RingOut) (s : State) :
    let t := forAll l (fun p t => send (out p) t) s
    t.mmp.sent = (l.map out).reverse ++ s.mmp.sent ∧ t.mmp.notifyQ = s.mmp.notifyQ ∧ t.mmp.notifyLost = s.mmp.notifyLost := by
  induction l generalizing s with
  | nil => exact ⟨rfl, rfl, rfl⟩
  | cons p l ih =>
    obtain ⟨sent, queue, lost⟩ := ih (send (out p) s)
    exact ⟨by simp [sent], queue.trans (send_notifyQ ..), lost.trans (send_notifyLost ..)⟩

end Sys2Proof.Laws
end

section
/-! CERTIFICATE. ARP, echo, PUBLISH, HEALTH and NOTIFY (15 R463, R477, R478). -/

namespace Sys2Proof.Proofs

open Sys2Proof Sys2Proof.Machine Sys2Proof.Laws

variable {s : State}

theorem arp_answers (mac : Nat) (live : delivers s = true) :
    Completes (.arp s.img.mmp.ip mac) s (fun t => t.mmp.sent = .arp s.img.mmp.ip mac :: s.mmp.sent) := by
  have e : arpIn s.img.mmp.ip mac s = send (.arp s.img.mmp.ip mac) s := by simp [arpIn, live]
  exact ⟨_, rfl, (congrArg (fun t : State => t.mmp.sent) e).trans (send_sent ..)⟩

theorem echo_answers {ip id seq : Nat} {data : List Byte} (live : delivers s = true)
    (few : (s.mmp.echoes.filter (fun x => decide (s.now < x + 1000000000))).length < 10) :
    Completes (.icmpEcho ip id seq data) s (fun t => t.mmp.sent = .echo ip id seq data :: s.mmp.sent
      ∧ t.mmp.echoes = s.now :: s.mmp.echoes.filter (fun x => decide (s.now < x + 1000000000))) := by
  have e : echoIn ip id seq data s = send (.echo ip id seq data) (s.setMmp fun m =>
      { m with echoes := s.now :: s.mmp.echoes.filter (fun x => decide (s.now < x + 1000000000)) }) :=
    if_pos (by simp [live, few])
  refine ⟨_, rfl, ?_, ?_⟩
  · rw [e, send_sent]
    rfl
  · rw [e, send_echoes]
    rfl

theorem echo_silent {ip id seq : Nat} {data : List Byte}
    (many : 10 ≤ (s.mmp.echoes.filter (fun x => decide (s.now < x + 1000000000))).length) :
    Completes (.icmpEcho ip id seq data) s (fun t => t = s) :=
  ⟨_, rfl, if_neg (by simp [Nat.not_lt.2 many])⟩

/-- A publish set that is due in RUN where the module can sign. -/
theorem publish_due {n : Nat} (run : s.mod.state = .run) (used : (s.img.mmp.pubs.look n).period ≠ 0)
    (key : (s.roleKey .observe).isSome = true) :
    (s.mod.state != .run || (s.img.mmp.pubs.look n).period = 0 || !observes s) = false := by
  simp [run, used, observes, key]

theorem publish_sends {n : Fin 16} (run : s.mod.state = .run) (used : (s.img.mmp.pubs.look n).period ≠ 0)
    (key : (s.roleKey .observe).isSome = true) (live : delivers s = true) :
    Completes (.publish n) s (fun t =>
      t.mmp.sent = .publish n (wrap32 (s.mmp.pubCount.look n + 1)) s.tu.time
          ((s.img.mmp.pubs.look n).entries.map (readEntry s)) :: s.mmp.sent
        ∧ t.mmp.pubCount.look n = wrap32 (s.mmp.pubCount.look n + 1)) := by
  have due := publish_due run used key
  have e : publishSet n.val s = send (.publish n (wrap32 (s.mmp.pubCount.look n + 1)) s.tu.time
        ((s.img.mmp.pubs.look n).entries.map (readEntry s)))
      (s.setMmp fun m => { m with
        pubCount := m.pubCount.put n (wrap32 (s.mmp.pubCount.look n + 1))
        pubEpisode := if m.pubEpisode.testBit n then m.pubEpisode - 2 ^ n.val else m.pubEpisode }) := by
    unfold publishSet
    dsimp only
    rw [due, if_neg Bool.false_ne_true, live]
    rfl
  refine ⟨_, rfl, by rw [e, send_sent]; rfl, ?_⟩
  rw [e, send_pubCount]
  exact Tab.look_put_self ..

theorem publish_misses {n : Fin 16} (run : s.mod.state = .run) (used : (s.img.mmp.pubs.look n).period ≠ 0)
    (key : (s.roleKey .observe).isSome = true) (silent : delivers s = false) (first : s.mmp.pubEpisode.testBit n = false) :
    Completes (.publish n) s (fun t => t.mmp.pubSkipped = satInc top16 s.mmp.pubSkipped ∧ t.mmp.sent = s.mmp.sent
      ∧ Raised Ev.PUBLISH_MISSED 0xC8 (w32 n) s t) := by
  have due := publish_due run used key
  have e : publishSet n.val s = raiseN Ev.PUBLISH_MISSED 0xC8 n (s.setMmp fun m =>
      { m with pubSkipped := satInc top16 m.pubSkipped, pubEpisode := m.pubEpisode ||| 2 ^ n.val }) := by
    unfold publishSet
    dsimp only
    rw [due, if_neg Bool.false_ne_true, silent, first]
    rfl
  have endpoint := raiseN_view (m := N.mmpRest) (by decide) Ev.PUBLISH_MISSED 0xC8 n.val (s.setMmp fun m =>
    { m with pubSkipped := satInc top16 m.pubSkipped, pubEpisode := m.pubEpisode ||| 2 ^ n.val })
  rw [← e] at endpoint
  refine ⟨_, rfl, pubSkipped_of_view endpoint, (sent_of_view endpoint).trans rfl, ?_⟩
  rw [e]
  exact raised_of_growsN (.of_eq rfl) ..

theorem health_sends (live : delivers s = true) :
    Completes .health s (fun t =>
      t.mmp.sent = .health s.healthNow (w32 (modCode s.mod.state + 256 * holdCode s.mod.hold)) s.tu.time
          (s.hdr .module).imageref (w32 s.epoch) (s.roleKey .observe).isNone :: s.mmp.sent
        ∧ t.mod = { s.mod with health := s.healthNow, parityRepair := false }) := by
  have e : healthSend s = send (.health s.healthNow (w32 (modCode s.mod.state + 256 * holdCode s.mod.hold)) s.tu.time
        (s.hdr .module).imageref (w32 s.epoch) (!observes s))
      (s.setMod fun m => { m with health := s.healthNow, parityRepair := false }) := if_neg (by simp [live])
  have unsigned : (!observes s) = (s.roleKey .observe).isNone := by
    rw [observes]
    exact Option.not_isSome _
  refine ⟨_, rfl, ?_, ?_⟩
  · rw [e, send_sent, unsigned]
    rfl
  · rw [e, send_mod]
    rfl

theorem notify_sends (live : delivers s = true) (key : (s.roleKey .observe).isSome = true) (receivers : s.img.mmp.notify ≠ [])
    (events : s.mmp.notifyQ ≠ []) :
    Completes .notify s (fun t =>
      t.mmp.sent = (s.img.mmp.notify.map (fun p => RingOut.notify p (s.mmp.notifyQ.take 32))).reverse ++ s.mmp.sent
        ∧ t.mmp.notifyQ = [] ∧ t.mmp.notifyLost = min top32 (s.mmp.notifyLost + (s.mmp.notifyQ.length - 32))) := by
  have e : notifySend s = forAll s.img.mmp.notify (fun p t => send (.notify p (s.mmp.notifyQ.take 32)) t)
      (s.setMmp fun m => { m with notifyQ := [], notifyLost := min top32 (m.notifyLost + (s.mmp.notifyQ.length - 32)) }) := by
    simp [notifySend, live, observes, key, receivers, events]
  obtain ⟨sent, queue, lost⟩ := sendEach s.img.mmp.notify (fun p => RingOut.notify p (s.mmp.notifyQ.take 32))
    (s.setMmp fun m => { m with notifyQ := [], notifyLost := min top32 (m.notifyLost + (s.mmp.notifyQ.length - 32)) })
  rw [← e] at sent queue lost
  exact ⟨_, rfl, sent, queue, lost⟩

/-- Settles O41: each service sends what it sends by one frame of its own. -/
theorem hostServices : Obligations.HostServices := by
  unfold Obligations.HostServices
  exact ⟨fun _ => arp_answers, fun _ _ _ _ _ => echo_answers, fun _ _ _ _ _ => echo_silent, fun _ _ => publish_sends,
    fun _ _ => publish_misses, fun _ => health_sends, fun _ => notify_sends⟩

end Sys2Proof.Proofs
end

section
/-! SUPPORT. What the shared operations of a CAN FD controller leave of it (16 R488–R494). -/

namespace Sys2Proof.Laws

open Sys2Proof Sys2Proof.Machine

variable {s t : State} {c : Nat}

/-! ### The record of a controller -/

@[simp] theorem canOf_setCan (s : State) (c : Nat) (f : CanSt → CanSt) : canOf (s.setCan c f) c = f (canOf s c) :=
  Tab.look_upd_self ..
theorem canOf_of_can (h : t.can = s.can) (c : Nat) : canOf t c = canOf s c := congrArg (Tab.look · c) h
@[simp] theorem canOf_raiseN (k : EvKind) (src d : Nat) (s : State) (c : Nat) : canOf (raiseN k src d s) c = canOf s c :=
  canOf_of_can (raiseN_can ..) c
@[simp] theorem canOf_raiseCan (k : EvKind) (c d : Nat) (s : State) (e : Nat) : canOf (raiseCan k c d s) e = canOf s e :=
  canOf_raiseN ..
@[simp] theorem canOf_raiseIf (b : Bool) (k : EvKind) (src d : Nat) (s : State) (c : Nat) :
    canOf (raiseIf b k src d s) c = canOf s c :=
  canOf_of_can (raiseIf_can ..) c

@[simp] theorem txb_setTxb (b : Fin 3) (f : CanTxb → CanTxb) (x : CanSt) : txb (setTxb b f x) b = f (txb x b) := by
  obtain rfl | rfl | rfl : b = 0 ∨ b = 1 ∨ b = 2 := by omega
  all_goals rfl
@[simp] theorem canQ_setQ_entries (q : Nat) (f : CanQueue → CanQueue) (x : CanSt) : canQ (setQ q f x) q = f (canQ x q) := by
  unfold canQ setQ
  split <;> rfl

/-! ### What settling a controller keeps

A bus in flight: settling may announce a filter set, enter or leave a test mode and start the next frame. `settled`
leaves out what these write. -/

/-- A transmit buffer without the frame that is under way. -/
def restBuffer (x : CanTxb) : CanTxb := { x with busy := false, sof := 0 }
/-- A controller without what `settleCan` and `errState` may write. -/
def settled (x : CanSt) : CanSt :=
  { x with state := .off, listSet := false, sof := 0, b0 := restBuffer x.b0, b1 := restBuffer x.b1, b2 := restBuffer x.b2 }

/-- The controller `c` is the same in `s` and `t` apart from what settling writes. -/
def SameSettled (c : Nat) (s t : State) : Prop := settled (canOf t c) = settled (canOf s c)

theorem settled_txb (x : CanSt) (b : Nat) : txb (settled x) b = restBuffer (txb x b) := by
  unfold txb
  split
  · rfl
  · split <;> rfl
theorem SameSettled.trans {u : State} (h : SameSettled c s t) (k : SameSettled c t u) : SameSettled c s u := Eq.trans k h
/-- A field that settling does not write. -/
theorem SameSettled.field {α : Type} (h : SameSettled c s t) (f : CanSt → α) :
    f (settled (canOf t c)) = f (settled (canOf s c)) := congrArg f h
theorem SameSettled.buffer {α : Type} (h : SameSettled c s t) (b : Nat) (f : CanTxb → α) :
    f (restBuffer (txb (canOf t c) b)) = f (restBuffer (txb (canOf s c) b)) := by
  rw [← settled_txb, ← settled_txb, show settled (canOf t c) = _ from h]
theorem SameSettled.frame (h : SameSettled c s t) (b : Nat) : (txb (canOf t c) b).frame = (txb (canOf s c) b).frame :=
  h.buffer b CanTxb.frame
theorem SameSettled.next (h : SameSettled c s t) (b : Nat) : (txb (canOf t c) b).next = (txb (canOf s c) b).next :=
  h.buffer b CanTxb.next
theorem SameSettled.sent (h : SameSettled c s t) (b : Nat) : (txb (canOf t c) b).sent = (txb (canOf s c) b).sent :=
  h.buffer b CanTxb.sent
theorem SameSettled.stamp (h : SameSettled c s t) (b : Nat) : (txb (canOf t c) b).stamp = (txb (canOf s c) b).stamp :=
  h.buffer b CanTxb.stamp
theorem SameSettled.q0 (h : SameSettled c s t) : (canOf t c).q0 = (canOf s c).q0 := h.field CanSt.q0
theorem SameSettled.q1 (h : SameSettled c s t) : (canOf t c).q1 = (canOf s c).q1 := h.field CanSt.q1
theorem SameSettled.queue (h : SameSettled c s t) (q : Nat) : canQ (canOf t c) q = canQ (canOf s c) q := by
  unfold canQ
  rw [h.q0, h.q1]
theorem SameSettled.tec (h : SameSettled c s t) : (canOf t c).tec = (canOf s c).tec := h.field CanSt.tec
theorem SameSettled.rec' (h : SameSettled c s t) : (canOf t c).rec' = (canOf s c).rec' := h.field CanSt.rec'
theorem SameSettled.okRun (h : SameSettled c s t) : (canOf t c).okRun = (canOf s c).okRun := h.field CanSt.okRun
theorem SameSettled.rxDrop (h : SameSettled c s t) : (canOf t c).rxDrop = (canOf s c).rxDrop := h.field CanSt.rxDrop
theorem SameSettled.noMatch (h : SameSettled c s t) : (canOf t c).noMatch = (canOf s c).noMatch :=
  h.field CanSt.noMatch
theorem SameSettled.busOffs (h : SameSettled c s t) : (canOf t c).busOffs = (canOf s c).busOffs :=
  h.field CanSt.busOffs
theorem SameSettled.test (h : SameSettled c s t) : (canOf t c).test = (canOf s c).test := h.field CanSt.test
theorem SameSettled.sentFrames (h : SameSettled c s t) : (canOf t c).sentFrames = (canOf s c).sentFrames :=
  h.field CanSt.sentFrames

/-- Noting the filter set in force writes that note only. -/
theorem canOf_filterNote (c : Nat) (s : State) :
    canOf (filterNote c s) c = { canOf s c with listSet := listInForce s c } := by
  unfold filterNote
  dsimp only
  split
  next same => rw [← eq_of_beq same]
  next => simp

/-- The next frame marks a buffer as busy and latches the instant. -/
theorem startFrame_settled (c : Nat) (s : State) :
    SameSettled c s (startFrame c s) ∧ (canOf (startFrame c s) c).state = (canOf s c).state := by
  unfold startFrame SameSettled
  dsimp only
  split
  · exact ⟨rfl, rfl⟩
  · split
    · exact ⟨rfl, rfl⟩
    · rw [canOf_setCan]
      unfold setTxb
      split
      · exact ⟨rfl, rfl⟩
      · split <;> exact ⟨rfl, rfl⟩

/-- The error state follows the counters and writes nothing else of the controller. -/
theorem errState_settled (c : Nat) (s : State) : SameSettled c s (errState c s) := by
  unfold errState SameSettled
  dsimp only
  split
  · split
    · rw [canOf_raiseCan, canOf_setCan]
      rfl
    · rfl
  · split
    · rfl
    · rw [canOf_setCan]
      rfl
  · rfl

theorem canTestStep_settled (c : Nat) (s : State) : SameSettled c s (canTestStep c s) := by
  have entered (x : CanState) : SameSettled c s (s.setCan c (fun y => { y with state := x })) := by
    rw [SameSettled, canOf_setCan]
    rfl
  unfold canTestStep
  dsimp only
  split
  · rfl
  · split
    iterate 3
      split
      · exact entered _
      · rfl
    · split
      · exact (entered _).trans (errState_settled ..)
      · rfl
    · rfl

theorem settleCan_settled (c : Nat) (s : State) : SameSettled c s (settleCan c s) := by
  have noted : SameSettled c (canTestStep c s) (filterNote c (canTestStep c s)) := by
    rw [SameSettled, canOf_filterNote]
    rfl
  exact ((canTestStep_settled c s).trans noted).trans (startFrame_settled ..).1

/-- Outside a test mode and with none asked for, settling keeps the state of the controller. -/
theorem settleCan_state (quiet : (canOf s c).test = 0 ∨ (canOf s c).state = .busOff) (h : (canOf s c).state ≠ .test) :
    (canOf (settleCan c s) c).state = (canOf s c).state := by
  have still : canTestStep c s = s := by
    unfold canTestStep
    grind
  rw [settleCan, (startFrame_settled ..).2, canOf_filterNote, still]

/-! ### What settling a controller raises -/

theorem startFrame_grows (c : Nat) (s : State) : Grows s (startFrame c s) := grows_of_silent (startFrame_view (by decide) ..)
theorem errState_grows (c : Nat) (s : State) : Grows s (errState c s) := by
  unfold errState
  dsimp only
  split
  · split
    · exact (grows_raiseN ..).from_eq rfl
    · exact .refl s
  · split <;> exact .of_eq rfl
  · exact .refl s
theorem canTestStep_grows (c : Nat) (s : State) : Grows s (canTestStep c s) := by
  unfold canTestStep
  dsimp only
  split
  · exact .refl s
  · split
    iterate 3 split <;> exact .of_eq rfl
    · split
      · exact (errState_grows ..).from_eq rfl
      · exact .refl s
    · exact .refl s
theorem settleCan_grows (c : Nat) (s : State) : Grows s (settleCan c s) :=
  ((canTestStep_grows c s).trans (filterNote_grows ..)).trans (startFrame_grows ..)
theorem okFrame_grows (c : Nat) (s : State) : Grows s (okFrame c s) := .of_eq rfl
theorem recDown_grows (c : Nat) (s : State) : Grows s (recDown c s) := grows_of_silent (recDown_view (by decide) ..)

/-! ### Counters after a frame -/

/-- A controller whose receive error counter and run of good frames are left out. -/
theorem canOf_recDown (c : Nat) (s : State) : ∃ n, canOf (recDown c s) c = { canOf s c with rec' := n } := by
  unfold recDown
  dsimp only
  split
  · exact ⟨_, canOf_setCan ..⟩
  · exact ⟨_, canOf_setCan ..⟩
theorem canOf_okFrame (c : Nat) (s : State) : ∃ n, canOf (okFrame c s) c = { canOf s c with okRun := n } := by
  rw [okFrame, canOf_setCan]
  split <;> exact ⟨_, rfl⟩

/-! ### Filters -/

/-- The filter set and its elements stand on the image, the state of the function and of the controller, and its pairs. -/
theorem filterFrame_congr (himg : t.img = s.img) (hfn : t.fnState (canFn c) = s.fnState (canFn c))
    (hstate : (canOf t c).state = (canOf s c).state) (hpairs : (canOf t c).pairs = (canOf s c).pairs) (f : CanFrame) :
    listInForce t c = listInForce s c ∧ filterFrame t c f = filterFrame s c f := by
  have list : listInForce t c = listInForce s c := by rw [listInForce, listInForce, hfn, hstate]
  have pairs : pairOf t c = pairOf s c := by
    funext n
    rw [pairOf, pairOf, hpairs, canCfg, canCfg, himg]
  exact ⟨list, by rw [filterFrame, filterFrame, list, pairs, canCfg, canCfg, himg]⟩

end Sys2Proof.Laws
end

section
/-! CERTIFICATE. Frames of a controller: reception, request and end of a transmission (16 R486–R495). -/

namespace Sys2Proof.Proofs

open Sys2Proof Sys2Proof.Machine Sys2Proof.Laws

variable {s u : State} {c : Fin 4} {f : CanFrame}

/-! ### Reception -/

/-- The controller has latched the start of a frame and noted the filter set in force. -/
def heard (c : Nat) (s : State) : State := filterNote c (s.setCan c (fun y => { y with sof := sofStamp s }))

/-- The counters, the error state and the next frame after a delivery. -/
def received (c : Nat) (u : State) : State := settleCan c (errState c (okFrame c (recDown c u)))

theorem canOf_heard (c : Nat) (s : State) :
    canOf (heard c s) c = { canOf s c with sof := sofStamp s, listSet := listInForce s c } := by
  have list := (filterFrame_congr (s := s) (t := s.setCan c (fun y => { y with sof := sofStamp s })) rfl rfl
    (by rw [canOf_setCan]) (by rw [canOf_setCan]) default).1
  rw [heard, canOf_filterNote, canOf_setCan, list]

theorem heard_view {m : Nat} (h : P.event ||| P.can ||| m = m) (c : Nat) (s : State) :
    view m (heard c s) = view m s := by
  have can : P.can ||| m = m := by rw [← h, ← Nat.lor_assoc]; congr 1
  exact (filterNote_view h ..).trans (setCan_view can ..)
theorem heard_img (c : Nat) (s : State) : (heard c s).img = s.img :=
  img_of_view (m := P.event ||| P.can) (heard_view (by decide) c s) (by decide)
theorem heard_cfg (c d : Nat) (s : State) : canCfg (heard c s) d = canCfg s d := by rw [canCfg, canCfg, heard_img]
theorem heard_pool (c : Nat) (s : State) : (heard c s).pool = s.pool :=
  pool_of_view (m := P.event ||| P.can) (heard_view (by decide) c s) (by decide)
theorem heard_fnState (c : Nat) (s : State) (g : Fn) : (heard c s).fnState g = s.fnState g :=
  fnStateRead _ _ (heard_view (by decide) c s)
theorem heard_grows (c : Nat) (s : State) : Grows s (heard c s) := (filterNote_grows ..).from_eq rfl

theorem heard_filters (c : Nat) (s : State) (f : CanFrame) :
    listInForce (heard c s) c = listInForce s c ∧ filterFrame (heard c s) c f = filterFrame s c f :=
  filterFrame_congr (heard_img c s) (heard_fnState c s _) (by rw [canOf_heard]) (by rw [canOf_heard]) f

theorem heard_pick (c : Nat) (s : State) (g : Fn) (n : Nat) : poolPick (heard c s) g n = poolPick s g n := by
  have free : freeIn (heard c s) = freeIn s := by
    funext k
    rw [freeIn, freeIn, heard_pool]
  have held : heldByRank (heard c s) = heldByRank s := by
    funext g
    rw [heldByRank, heldByRank, heard_pool]
  have used : commonUsed (heard c s) = commonUsed s := by
    rw [commonUsed, commonUsed, held, heard_img, retiredBlocks, retiredBlocks, heard_pool]
  rw [poolPick, poolPick, held, used, free, heard_img]

/-- What follows a delivery leaves the queues, the counters of dropped and unmatched frames and the events raised. -/
theorem received_keeps (c : Nat) (u : State) :
    (canOf (received c u) c).q0 = (canOf u c).q0 ∧ (canOf (received c u) c).q1 = (canOf u c).q1
      ∧ (canOf (received c u) c).rxDrop = (canOf u c).rxDrop ∧ (canOf (received c u) c).noMatch = (canOf u c).noMatch
      ∧ Grows u (received c u) := by
  have same := (errState_settled c (okFrame c (recDown c u))).trans (settleCan_settled ..)
  obtain ⟨n, hn⟩ := canOf_okFrame c (recDown c u)
  obtain ⟨m, hm⟩ := canOf_recDown c u
  have grown := (((recDown_grows c u).trans (okFrame_grows c _)).trans (errState_grows c _)).trans (settleCan_grows c _)
  exact ⟨by rw [received, same.q0, hn, hm], by rw [received, same.q1, hn, hm], by rw [received, same.rxDrop, hn, hm],
    by rw [received, same.noMatch, hn, hm], grown⟩

theorem received_queue (c q : Nat) (u : State) : canQ (canOf (received c u) c) q = canQ (canOf u c) q := by
  obtain ⟨q0, q1, -⟩ := received_keeps c u
  rw [canQ, canQ, q0, q1]

section
variable (on : canFnOn s c = true) (active : (canOf s c).state = .active)
  (mode : (canCfg s c).mode = 2 → f.fdf = false) (free : bslFromCan s c f = [])
include on active mode free

/-- A frame heard by a live controller, of no BSL connection, is judged by the filters. -/
theorem rxFrame_filters : exec (.canRxFrame c f) s = .next (received c (match filterFrame s c f with
    | some (n, q) => queueFrame c q n f (heard c s)
    | none => (heard c s).setCan c (fun x => { x with noMatch := satInc top32 x.noMatch }))) := by
  have carried : ((canCfg s c).mode == 2 && f.fdf) = false := by
    rw [Bool.and_eq_false_iff, beq_eq_false_iff_ne]
    exact or_iff_not_imp_left.2 fun h => mode (not_not.1 h)
  have empty : bslFromCan (heard c s) c f = [] := by
    rw [← free, bslFromCan, bslFromCan]
    simp only [bslRow, heard_img]
  refine congrArg Host.Outcome.next ?_
  rw [canReceive]
  simp only [on, active, carried, Bool.not_true, Bool.or_false, Bool.false_eq_true, if_false]
  rw [← heard, deliverFrame, empty]
  simp only [(heard_filters c s f).2]
  rfl

theorem rxFrame_queued {n q : Nat} {bs : List Nat} (hit : filterFrame s c f = some (n, q))
    (room : (canQ (canOf s c) q).entries.length < (canCfg s c).qdepth.getD q 64)
    (block : poolPick s (canFn c) 1 = some bs) :
    Completes (.canRxFrame c f) s (fun t => (canQ (canOf t c) q).entries = (canQ (canOf s c) q).entries
      ++ [{ frame := f, byList := listInForce s c, element := n, lostBefore := (canQ (canOf s c) q).lost
            seq := (canQ (canOf s c) q).seq, stamp := w32 ((s.tu.mono - 90) / 25), block := bs.headD 0 }]) := by
  refine ⟨_, rxFrame_filters on active mode free, ?_⟩
  beta_reduce
  have queue : canQ (canOf (heard c s) c) q = canQ (canOf s c) q := by rw [canOf_heard]; rfl
  have stamp : (canOf (heard c s) c).sof = sofStamp s := by rw [canOf_heard]
  have picked : poolAlloc (canFn c) 1 (heard c s) = (some bs, (poolAlloc (canFn c) 1 (heard c s)).2) :=
    Prod.ext (by rw [poolAlloc, heard_pick, block]) rfl
  have kept : canOf (poolAlloc (canFn c) 1 (heard c s)).2 c = canOf (heard c s) c :=
    canOf_of_can (can_of_view (m := P.event ||| P.pool) (poolAlloc_view (by decide) ..) (by decide)) c
  rw [received_queue, hit]
  dsimp only
  rw [queueFrame]
  simp only [queue, heard_cfg]
  rw [if_neg (Nat.not_le.2 room), picked]
  simp only [canOf_raiseIf, canOf_setCan, canQ_setQ_entries, kept, queue, stamp, (heard_filters c s f).1]
  rfl

theorem rxFrame_full {n q : Nat} (hit : filterFrame s c f = some (n, q))
    (full : (canCfg s c).qdepth.getD q 64 ≤ (canQ (canOf s c) q).entries.length)
    (first : (canQ (canOf s c) q).lost = false) :
    Completes (.canRxFrame c f) s (fun t => (canQ (canOf t c) q).entries = (canQ (canOf s c) q).entries
      ∧ (canOf t c).rxDrop = satInc top32 (canOf s c).rxDrop
      ∧ Raised Ev.CAN_RX_DROPPED (0xC4 + c) (w32 q) s t) := by
  refine ⟨_, rxFrame_filters on active mode free, ?_⟩
  beta_reduce
  have queue : canQ (canOf (heard c s) c) q = canQ (canOf s c) q := by rw [canOf_heard]; rfl
  obtain ⟨-, -, drops, -, grown⟩ := received_keeps c (queueFrame c q n f (heard c s))
  have dropped : queueFrame c q n f (heard c s) = dropFrame c q false (heard c s) := by
    rw [queueFrame]
    simp only [queue, heard_cfg]
    exact if_pos full
  rw [hit]
  dsimp only
  refine ⟨?_, ?_, raised_mid (heard_grows c s) ?_ grown⟩
  · rw [received_queue, dropped, dropFrame, canOf_raiseIf, canOf_setCan, canQ_setQ_entries, ← queue]
    rfl
  · rw [drops, dropped, dropFrame, canOf_raiseIf, canOf_setCan, canOf_heard]
    unfold setQ
    split <;> rfl
  · rw [dropped, dropFrame]
    simp only [queue, first, raiseIf, Bool.not_false, if_true, show q + 2 * b2n false = q from rfl]
    exact raised_of_growsN (.of_eq rfl) ..

theorem rxFrame_unmatched (miss : filterFrame s c f = none) :
    Completes (.canRxFrame c f) s (fun t => (canOf t c).noMatch = satInc top32 (canOf s c).noMatch
      ∧ (canOf t c).q0 = (canOf s c).q0 ∧ (canOf t c).q1 = (canOf s c).q1) := by
  refine ⟨_, rxFrame_filters on active mode free, ?_⟩
  beta_reduce
  rw [miss]
  obtain ⟨q0, q1, -, misses, -⟩ := received_keeps c
    ((heard c s).setCan c (fun x => { x with noMatch := satInc top32 x.noMatch }))
  rw [q0, q1, misses, canOf_setCan, canOf_heard]
  exact ⟨rfl, rfl, rfl⟩

end

/-! ### Transmission -/

theorem setTxb_congr {b : Nat} {g h : CanTxb → CanTxb} {x : CanSt} (e : g (txb x b) = h (txb x b)) :
    setTxb b g x = setTxb b h x := by
  unfold txb at e
  unfold setTxb
  grind
theorem txb_setTxb_other {b k : Nat} (hk : k < 3) (hb : b < 3) (h : k ≠ b) (g : CanTxb → CanTxb) (x : CanSt) :
    txb (setTxb b g x) k = txb x k := by
  unfold txb setTxb
  grind
theorem setTxb_state (b : Nat) (g : CanTxb → CanTxb) (x : CanSt) : (setTxb b g x).state = x.state := by
  unfold setTxb
  grind

theorem sending_of_idle {x : CanSt} (h : ∀ k < 3, (txb x k).busy = false) : sending x = none := by
  simp [sending, h]

/-- Of idle buffers the only one with a frame is sent next. -/
theorem nextBuffer_only {x : CanSt} {b : Fin 3} (order : Nat) (mine : (txb x b).frame.isSome = true)
    (others : ∀ k < 3, k ≠ b.val → (txb x k).frame = none) : nextBuffer order x = some b.val := by
  have ready : [0, 1, 2].filter (fun k => (txb x k).frame.isSome) = [b.val] := by
    obtain rfl | rfl | rfl : b = 0 ∨ b = 1 ∨ b = 2 := by omega
    · have h1 := others 1 (by decide) (by decide)
      have h2 := others 2 (by decide) (by decide)
      simp_all
    · have h0 := others 0 (by decide) (by decide)
      have h2 := others 2 (by decide) (by decide)
      simp_all
    · have h0 := others 0 (by decide) (by decide)
      have h1 := others 1 (by decide) (by decide)
      simp_all
  simp [nextBuffer, ready]

/-- On an idle bus the only frame that waits starts at once. -/
theorem startFrame_only {v : State} {b : Fin 3} (up : (canOf v c).state = .active ∨ (canOf v c).state = .passive)
    (idle : ∀ k < 3, (txb (canOf v c) k).busy = false) (mine : (txb (canOf v c) b).frame.isSome = true)
    (others : ∀ k < 3, k ≠ b.val → (txb (canOf v c) k).frame = none) :
    txb (canOf (startFrame c v) c) b = { txb (canOf v c) b with busy := true, sof := sofStamp v } := by
  have may : maySend (canOf v c) = true := by
    rw [maySend]
    rcases up with h | h <;> rw [h]
  rw [startFrame]
  simp only [may, sending_of_idle idle, nextBuffer_only _ mine others, Bool.not_true, Option.isSome_none, Bool.or_self,
    Bool.false_eq_true, if_false]
  rw [canOf_setCan, txb_setTxb]
  rfl

theorem txRequest_starts {b : Fin 3} (used : (canCfg s c).mode ≠ 0) (on : canFnOn s c = true)
    (mode : (canCfg s c).mode = 2 → f.fdf = false) (up : (canOf s c).state = .active ∨ (canOf s c).state = .passive)
    (idle : ∀ k < 3, (txb (canOf s c) k).frame = none ∧ (txb (canOf s c) k).next = none ∧ (txb (canOf s c) k).busy = false) :
    Completes (.canTxRequest c b f) s (fun t =>
      txb (canOf t c) b = { txb (canOf s c) b with
        frame := some { f with brs := f.brs && f.fdf && (canCfg s c).brs == 1 }, busy := true, sof := sofStamp s }) := by
  refine ⟨_, rfl, ?_⟩
  obtain ⟨empty, noNext, notBusy⟩ := idle b b.isLt
  have carried : ((canCfg s c).mode == 2 && f.fdf) = false := by
    rw [Bool.and_eq_false_iff, beq_eq_false_iff_ne]
    exact or_iff_not_imp_left.2 fun h => mode (not_not.1 h)
  have awake : ((canOf s c).state == CanState.sleep) = false := by
    rcases up with h | h <;> rw [h] <;> rfl
  rw [canRequest]
  simp only [on, awake, carried, beq_eq_false_iff_ne.2 used, Bool.not_true, Bool.or_false, Bool.false_eq_true, if_false]
  generalize hv : s.setCan c _ = v
  have held : canOf v c = setTxb b (fun y =>
      { y with frame := some { f with brs := f.brs && f.fdf && (canCfg s c).brs == 1 } }) (canOf s c) := by
    rw [← hv, canOf_setCan]
    apply setTxb_congr
    simp [empty, noNext, notBusy]
  have mine : txb (canOf v c) b = { txb (canOf s c) b with
      frame := some { f with brs := f.brs && f.fdf && (canCfg s c).brs == 1 } } := by rw [held, txb_setTxb]
  have other (k : Nat) (hk : k < 3) (h : k ≠ b.val) : txb (canOf v c) k = txb (canOf s c) k := by
    rw [held, txb_setTxb_other hk b.isLt h]
  rw [startFrame_only, mine]
  · rw [← hv]
    rfl
  · rw [held, setTxb_state]
    exact up
  · intro k hk
    by_cases h : k = b.val
    · rw [h, mine]
      exact notBusy
    · rw [other k hk h]
      exact (idle k hk).2.2
  · rw [mine]
    rfl
  · intro k hk h
    rw [other k hk h]
    exact (idle k hk).1

/-- A transmission that ends well leaves the bus to the next frame. -/
theorem canTxEnd_sent {b : Fin 3} (busy : sending (canOf s c) = some b.val) (frame : (txb (canOf s c) b).frame = some f)
    (up : (canOf s c).state = .active ∨ (canOf s c).state = .passive) :
    let t := canTxEnd c true none s
    (canOf t c).sentFrames = f :: (canOf s c).sentFrames
      ∧ (txb (canOf t c) b).sent = ((txb (canOf s c) b).sent + 1) % 65536
      ∧ (txb (canOf t c) b).stamp = (txb (canOf s c) b).sof
      ∧ (txb (canOf t c) b).frame = (txb (canOf s c) b).next ∧ (txb (canOf t c) b).next = none
      ∧ (canOf t c).tec = (canOf s c).tec - 1 := by
  have noTest : ((canOf s c).state == CanState.test) = false := by
    rcases up with h | h <;> rw [h] <;> rfl
  simp only [canTxEnd, busy, frame, noTest, Bool.false_and, Bool.false_eq_true, if_false, if_true]
  generalize hv : s.setCan c _ = v
  obtain ⟨n, counted⟩ := canOf_okFrame c v
  have same := (errState_settled c (okFrame c v)).trans (settleCan_settled ..)
  have keeps (g : CanTxb → CanTxb) (x : CanSt) : (setTxb b g x).sentFrames = x.sentFrames ∧ (setTxb b g x).tec = x.tec := by
    unfold setTxb
    grind
  have buffer (x : CanSt) (l : List CanFrame) (k m : Nat) :
      txb { x with tec := k, sentFrames := l } b = txb x b ∧ txb { x with okRun := m } b = txb x b := ⟨rfl, rfl⟩
  rw [same.sentFrames, same.sent, same.stamp, same.frame, same.next, same.tec, counted, (buffer _ [] 0 n).2, ← hv,
    canOf_setCan, txb_setTxb, (buffer _ _ _ n).1, (keeps ..).1, (keeps ..).2]
  exact ⟨rfl, rfl, rfl, rfl, rfl, rfl⟩

theorem txEnd_sent {b : Fin 3} (tdc : Option Nat) (busy : sending (canOf s c) = some b.val)
    (frame : (txb (canOf s c) b).frame = some f) (up : (canOf s c).state = .active ∨ (canOf s c).state = .passive) :
    Completes (.canTxEnd c true tdc) s (fun t => (canOf t c).sentFrames = f :: (canOf s c).sentFrames
      ∧ (txb (canOf t c) b).sent = ((txb (canOf s c) b).sent + 1) % 65536
      ∧ (txb (canOf t c) b).stamp = (txb (canOf s c) b).sof
      ∧ (txb (canOf t c) b).frame = (txb (canOf s c) b).next ∧ (txb (canOf t c) b).next = none
      ∧ (canOf t c).tec = (canOf s c).tec - 1) := by
  refine ⟨_, rfl, ?_⟩
  cases tdc with
  | none => exact canTxEnd_sent busy frame up
  | some d =>
    have measured : canOf (s.setCan c (fun y => { y with tdc := min 127 d })) c = { canOf s c with tdc := min 127 d } :=
      canOf_setCan ..
    have sent := canTxEnd_sent (s := s.setCan c (fun y => { y with tdc := min 127 d })) (b := b) (f := f)
      (by rw [measured]; exact busy) (by rw [measured]; exact frame) (by rw [measured]; exact up)
    rw [measured] at sent
    exact sent

theorem txEnd_failed {b : Fin 3} (busy : sending (canOf s c) = some b.val) (frame : (txb (canOf s c) b).frame = some f)
    (oneShot : (canCfg s c).oneshot.getD b 0 = 1) :
    Completes (.canTxEnd c false none) s (fun t => (canOf t c).sentFrames = (canOf s c).sentFrames
      ∧ (txb (canOf t c) b).frame = (txb (canOf s c) b).next
      ∧ Raised Ev.CAN_TX_FAILED (0xC4 + c) (w32 b) s t) := by
  have e : exec (.canTxEnd c false none) s
      = .next (settleCan c (raiseCan Ev.CAN_TX_FAILED c b (s.setCan c (setTxb b nextHeld)))) := by
    refine congrArg Host.Outcome.next ?_
    simp only [canTxEnd, busy, frame, Bool.false_eq_true, if_false]
    exact if_pos oneShot
  have same := settleCan_settled c (raiseCan Ev.CAN_TX_FAILED c b (s.setCan c (setTxb b nextHeld)))
  have raised : Raised Ev.CAN_TX_FAILED (0xC4 + c) (w32 b) s
      (raiseCan Ev.CAN_TX_FAILED c b (s.setCan c (setTxb b nextHeld))) := raised_of_growsN (.of_eq rfl) ..
  refine ⟨_, e, ?_, ?_, raised_mid (.refl s) raised (settleCan_grows ..)⟩
  · rw [same.sentFrames, canOf_raiseCan, canOf_setCan]
    unfold setTxb
    grind
  · rw [same.frame, canOf_raiseCan, canOf_setCan, txb_setTxb]
    rfl

/-- Settles O43: a frame that the filters name joins its queue, is dropped or is counted; settling the controller
afterwards keeps what was written. -/
theorem canFrames : Obligations.CanFrames := by
  unfold Obligations.CanFrames
  exact ⟨fun _ _ _ _ _ _ on active mode free hit room block => rxFrame_queued on active mode free hit room block,
    fun _ _ _ _ _ on active mode free hit full first => rxFrame_full on active mode free hit full first,
    fun _ _ _ on active mode free miss => rxFrame_unmatched on active mode free miss,
    fun _ _ _ _ used on mode up idle => txRequest_starts used on mode up idle,
    fun _ _ _ _ tdc busy frame up => txEnd_sent tdc busy frame up,
    fun _ _ _ _ busy frame oneShot => txEnd_failed busy frame oneShot⟩

end Sys2Proof.Proofs
end

section
/-! CERTIFICATE. Error states, test mode and filter edits of a controller (16 R488, R495, R500). -/

namespace Sys2Proof.Proofs

open Sys2Proof Sys2Proof.Machine Sys2Proof.Laws

variable {s : State} {c : Fin 4}

/-- Without a test mode, the counters alone choose between ACTIVE and PASSIVE, and settling keeps the choice. -/
theorem settled_errState {v : State} (up : (canOf v c).state = .active ∨ (canOf v c).state = .passive)
    (quiet : (canOf v c).test = 0) :
    (canOf (settleCan c (errState c v)) c).state
      = (if 127 < (canOf v c).tec ∨ 127 < (canOf v c).rec' then .passive else .active) := by
  have chosen : (canOf (errState c v) c).state
      = (if 127 < (canOf v c).tec ∨ 127 < (canOf v c).rec' then .passive else .active) := by
    rw [errState]
    rcases up with h | h <;> simp only [h, Bool.or_eq_true, decide_eq_true_eq] <;> split <;> simp [h]
  rw [settleCan_state, chosen]
  · exact .inl (by rw [(errState_settled c v).test, quiet])
  · rw [chosen]
    split <;> decide

theorem error_counts {tec rec' : Nat} (up : (canOf s c).state = .active ∨ (canOf s c).state = .passive)
    (quiet : (canOf s c).test = 0) (low : tec ≤ 255) :
    Completes (.canError c tec rec') s (fun t => (canOf t c).tec = tec ∧ (canOf t c).rec' = min 255 rec'
      ∧ (canOf t c).state = (if 127 < tec ∨ 127 < rec' then .passive else .active)) := by
  have counted : canOf (s.setCan c (fun y => { y with tec := min 256 tec, rec' := min 255 rec', okRun := 0 })) c
      = { canOf s c with tec := min 256 tec, rec' := min 255 rec', okRun := 0 } := canOf_setCan ..
  have e : exec (.canError c tec rec') s = .next (settleCan c (errState c
      (s.setCan c (fun y => { y with tec := min 256 tec, rec' := min 255 rec', okRun := 0 })))) := by
    refine congrArg Host.Outcome.next ?_
    rw [canError]
    rcases up with h | h <;> simp only [h, if_neg (Nat.not_lt.2 low)]
  have same := (errState_settled c _).trans (settleCan_settled c (errState c
    (s.setCan c (fun y => { y with tec := min 256 tec, rec' := min 255 rec', okRun := 0 }))))
  refine ⟨_, e, ?_, ?_, ?_⟩
  · rw [same.tec, counted]
    exact Nat.min_eq_right (by omega)
  · rw [same.rec', counted]
  · rw [settled_errState, counted]
    · exact if_congr (by simp only [lt_min_iff]; omega) rfl rfl
    · rw [counted]
      exact up
    · rw [counted]
      exact quiet

/-- The transmissions that stop at bus-off leave the state and the count of the controller. -/
theorem busOffStops_keeps (c : Nat) (s : State) :
    (canOf (busOffStops c s) c).state = (canOf s c).state ∧ (canOf (busOffStops c s) c).busOffs = (canOf s c).busOffs
      ∧ Grows s (busOffStops c s) := by
  have buffer (b : Nat) (g : CanTxb → CanTxb) (x : CanSt) :
      (setTxb b g x).state = x.state ∧ (setTxb b g x).busOffs = x.busOffs := by
    unfold setTxb
    grind
  refine forAll_invariant
    (P := fun t => (canOf t c).state = (canOf s c).state ∧ (canOf t c).busOffs = (canOf s c).busOffs ∧ Grows s t)
    ?_ ⟨rfl, rfl, .refl s⟩
  rintro b t ⟨state, count, grown⟩
  split
  · exact ⟨state, count, grown⟩
  · split
    · rw [canOf_raiseCan, canOf_setCan, (buffer ..).1, (buffer ..).2]
      exact ⟨state, count, (grown.trans (.of_eq rfl)).trans (grows_raiseN ..)⟩
    · rw [canOf_setCan, (buffer ..).1, (buffer ..).2]
      exact ⟨state, count, grown.trans (.of_eq rfl)⟩

theorem error_busOff {tec rec' : Nat} (up : (canOf s c).state = .active ∨ (canOf s c).state = .passive)
    (high : 255 < tec) :
    Completes (.canError c tec rec') s (fun t => (canOf t c).state = .busOff
      ∧ (canOf t c).busOffs = satInc top16 (canOf s c).busOffs
      ∧ Raised Ev.CAN_BUS_OFF (0xC4 + c) (w32 (satInc top16 (canOf s c).busOffs)) s t) := by
  obtain ⟨v, inbox, hv, e⟩ : ∃ v : State, v.recd.inbox = s.recd.inbox
      ∧ canOf v c = { canOf s c with tec := min 256 tec, rec' := min 255 rec', okRun := 0
                                     state := .busOff, busOffs := satInc top16 (canOf s c).busOffs }
      ∧ exec (.canError c tec rec') s
        = .next (settleCan c (raiseCan Ev.CAN_BUS_OFF c (satInc top16 (canOf s c).busOffs) (busOffStops c v))) := by
    refine ⟨(s.setCan c (fun y => { y with tec := min 256 tec, rec' := min 255 rec', okRun := 0 })).setCan c
      (fun y => { y with state := .busOff, busOffs := satInc top16 (canOf s c).busOffs }), rfl, ?_,
      congrArg Host.Outcome.next ?_⟩
    · rw [canOf_setCan, canOf_setCan]
    · rw [canError]
      rcases up with h | h <;> simp only [h, if_pos high]
  obtain ⟨state, count, grown⟩ := busOffStops_keeps c v
  have off : (canOf (raiseCan Ev.CAN_BUS_OFF c (satInc top16 (canOf s c).busOffs) (busOffStops c v)) c).state = .busOff := by
    rw [canOf_raiseCan, state, hv]
  have raised : Raised Ev.CAN_BUS_OFF (0xC4 + c) (w32 (satInc top16 (canOf s c).busOffs)) s
      (raiseCan Ev.CAN_BUS_OFF c (satInc top16 (canOf s c).busOffs) (busOffStops c v)) :=
    raised_of_growsN (grown.from_eq inbox) ..
  refine ⟨_, e, ?_, ?_, raised_mid (.refl s) raised (settleCan_grows ..)⟩
  · rw [settleCan_state (.inr off) (by rw [off]; decide), off]
  · rw [(settleCan_settled ..).busOffs, canOf_raiseCan, count, hv]

theorem recovery_enters (off : (canOf s c).state = .busOff) (quiet : (canOf s c).test = 0) :
    Completes (.busOffRecovery c) s (fun t => (canOf t c).state = .recovery ∧ (canOf t c).tec = 0
      ∧ (canOf t c).rec' = 0 ∧ (canOf t c).okRun = 0) := by
  have e : exec (.busOffRecovery c) s
      = .next (settleCan c (s.setCan c (fun y => { y with state := .recovery, tec := 0, rec' := 0, okRun := 0 }))) :=
    congrArg Host.Outcome.next (if_pos (beq_iff_eq.2 off))
  have entered : canOf (s.setCan c (fun y => { y with state := .recovery, tec := 0, rec' := 0, okRun := 0 })) c
      = { canOf s c with state := .recovery, tec := 0, rec' := 0, okRun := 0 } := canOf_setCan ..
  have same := settleCan_settled c (s.setCan c (fun y => { y with state := .recovery, tec := 0, rec' := 0, okRun := 0 }))
  refine ⟨_, e, ?_, ?_, ?_, ?_⟩
  · rw [settleCan_state, entered]
    · exact .inl (by rw [entered]; exact quiet)
    · rw [entered]
      exact nofun
  · rw [same.tec, entered]
  · rw [same.rec', entered]
  · rw [same.okRun, entered]

theorem recovered_active (waits : (canOf s c).state = .recovery) (quiet : (canOf s c).test = 0)
    (run : 128 ≤ (canOf s c).okRun) (tec : (canOf s c).tec ≤ 127) (rec' : (canOf s c).rec' ≤ 127) :
    Completes (.canRecovered c) s (fun t => (canOf t c).state = .active ∧ (canOf t c).okRun = 0
      ∧ Raised Ev.CAN_RECOVERED (0xC4 + c) 0 s t) := by
  have e : exec (.canRecovered c) s = .next (settleCan c (errState c
      (raiseCan Ev.CAN_RECOVERED c 0 (s.setCan c (fun y => { y with state := .active, okRun := 0 }))))) :=
    congrArg Host.Outcome.next (if_pos (by rw [waits]; simpa using run))
  have entered : canOf (raiseCan Ev.CAN_RECOVERED c 0 (s.setCan c (fun y => { y with state := .active, okRun := 0 }))) c
      = { canOf s c with state := .active, okRun := 0 } := by rw [canOf_raiseCan, canOf_setCan]
  have same := (errState_settled c _).trans (settleCan_settled c (errState c
    (raiseCan Ev.CAN_RECOVERED c 0 (s.setCan c (fun y => { y with state := .active, okRun := 0 })))))
  have raised : Raised Ev.CAN_RECOVERED (0xC4 + c) (w32 0) s
      (raiseCan Ev.CAN_RECOVERED c 0 (s.setCan c (fun y => { y with state := .active, okRun := 0 }))) :=
    raised_of_growsN (.of_eq rfl) ..
  refine ⟨_, e, ?_, ?_, raised_mid (.refl s) raised ((errState_grows ..).trans (settleCan_grows ..))⟩
  · rw [settled_errState, entered]
    · exact if_neg (by simp only; omega)
    · exact .inl (by rw [entered])
    · rw [entered]
      exact quiet
  · rw [same.okRun, entered]

theorem integration_active (off : (canOf s c).state = .off) (on : canFnOn s c = true) (used : (canCfg s c).mode ≠ 0)
    (quiet : (canOf s c).test = 0) : Completes (.busIntegration c) s (fun t => (canOf t c).state = .active) := by
  have e : exec (.busIntegration c) s = .next (settleCan c (s.setCan c (fun y => { y with state := .active }))) :=
    congrArg Host.Outcome.next (if_pos (by simp [off, on, used]))
  have entered : canOf (s.setCan c (fun y => { y with state := .active })) c = { canOf s c with state := .active } :=
    canOf_setCan ..
  refine ⟨_, e, ?_⟩
  beta_reduce
  rw [settleCan_state, entered]
  · exact .inl (by rw [entered]; exact quiet)
  · rw [entered]
    exact nofun

/-- On an idle bus a test mode that is asked for is entered. -/
theorem canTestStep_enters {v : State} (idle : sending (canOf v c) = none) (active : (canOf v c).state = .active)
    (on : (canOf v c).test ≠ 0) : canTestStep c v = v.setCan c (fun y => { y with state := .test }) := by
  simp [canTestStep, idle, active, on]

theorem test_enters {v : W32} {r : Role} (role : roleAtLeast r .engineer = true) (named : v.toNat % 4 ≠ 3)
    (on : v.toNat % 4 ≠ 0) (active : (canOf s c).state = .active) (idle : sending (canOf s c) = none) :
    Completes (.canTest c v r) s (fun t => (canOf t c).test = v.toNat % 4 ∧ (canOf t c).state = .test) := by
  have e : exec (.canTest c v r) s = .next (settleCan c (s.setCan c (fun y => { y with test := v.toNat % 4 }))) :=
    congrArg Host.Outcome.next (if_neg (by simp [role, named]))
  have written : canOf (s.setCan c (fun y => { y with test := v.toNat % 4 })) c = { canOf s c with test := v.toNat % 4 } :=
    canOf_setCan ..
  have entered : (canOf (canTestStep c (s.setCan c (fun y => { y with test := v.toNat % 4 }))) c).state = .test := by
    rw [canTestStep_enters, canOf_setCan]
    · rw [written]
      exact idle
    · rw [written]
      exact active
    · rw [written]
      exact on
  refine ⟨_, e, ?_, ?_⟩
  · rw [(settleCan_settled ..).test, written]
  · rw [settleCan, (startFrame_settled ..).2, canOf_filterNote, entered]

/-- Words 0 and 1 that a load of a pair takes: those staged, else its own. -/
def stagedWords (s : State) (c n : Nat) : W32 × W32 :=
  match (canOf s c).staged.look n with | some w => w | none => ((pairOf s c n).w0, (pairOf s c n).w1)
/-- A controller with a pair loaded. -/
def loaded (s : State) (c n : Nat) (v : W32) (x : CanSt) : CanSt :=
  { x with
    staged := x.staged.put n none
    pairs := x.pairs.put n (some { w0 := (stagedWords s c n).1, w1 := (stagedWords s c n).2, w2 := v &&& 7#32 }) }

theorem filter_edited {n : Fin 32} {v : W32} {r : Role} (role : roleAtLeast r .engineer = true) :
    Completes (.canFilterEdited c n v r) s (fun t =>
      (pairOf t c n).w2 = v &&& 7#32
        ∧ ((pairOf t c n).w0, (pairOf t c n).w1) = (match (canOf s c).staged.look n with
            | some w => w | none => ((pairOf s c n).w0, (pairOf s c n).w1))
        ∧ (∀ m : Nat, m ≠ n.val → pairOf t c m = pairOf s c m)
        ∧ Raised Ev.CAN_FILTER_EDITED (0xC4 + c) (w32 n) s t) := by
  have e : exec (.canFilterEdited c n v r) s = .next (raise Ev.CAN_FILTER_EDITED (0xC4 + c) (w32 n) (.role r)
      (s.setCan c (loaded s c n v))) := congrArg Host.Outcome.next (if_neg (by simp [role]))
  have edited : canOf (raise Ev.CAN_FILTER_EDITED (0xC4 + c) (w32 n) (.role r) (s.setCan c (loaded s c n v))) c
      = loaded s c n v (canOf s c) := (canOf_of_can (raise_can ..) c).trans (canOf_setCan ..)
  have own : pairOf (raise Ev.CAN_FILTER_EDITED (0xC4 + c) (w32 n) (.role r) (s.setCan c (loaded s c n v))) c n
      = { w0 := (stagedWords s c n).1, w1 := (stagedWords s c n).2, w2 := v &&& 7#32 } := by
    rw [pairOf, edited]
    simp only [loaded, Tab.look_put_self]
  refine ⟨_, e, by rw [own], by rw [own]; rfl, fun m other => ?_, raised_raise (u := s.setCan c (loaded s c n v)) rfl rfl⟩
  rw [pairOf, edited]
  simp only [loaded, Tab.look_put_of_ne _ _ other, pairOf, canCfg, raise_img, setCan_img]

/-- Settles O44: the error counters choose the state, settling keeps it, and an edit loads its pair only. -/
theorem canStates : Obligations.CanStates := by
  unfold Obligations.CanStates
  exact ⟨fun _ _ _ _ up quiet low => error_counts up quiet low, fun _ _ _ _ up high => error_busOff up high,
    fun _ _ off quiet => recovery_enters off quiet,
    fun _ _ waits quiet run tec rec' => recovered_active waits quiet run tec rec',
    fun _ _ off on used quiet => integration_active off on used quiet,
    fun _ _ _ _ role named on active idle => test_enters role named on active idle,
    fun _ _ _ _ _ role => filter_edited role⟩

end Sys2Proof.Proofs
end

section
/-! CERTIFICATE. Checkpoints (17 R509, R511; 19 R558; 20 R584). -/

namespace Sys2Proof.Proofs

open Sys2Proof Sys2Proof.Machine Sys2Proof.Laws

variable {s : State}

theorem nextCkptSeq_congr {t : State} (halves : newestLocal t = newestLocal s) (seq : t.ckpt.pairSeq = s.ckpt.pairSeq) :
    nextCkptSeq t = nextCkptSeq s := by
  rw [nextCkptSeq, nextCkptSeq, halves, seq]

theorem checkpoint_begins (takes : takesCkpt s = true) (free : s.ckpt.busy = none) :
    Completes .checkpoint s (fun t => ∃ w : CkptWrite,
      t.ckpt.busy = some w ∧ w.half = 1 - s.ckpt.last ∧ w.localDone = false ∧ w.pegDone = false
        ∧ w.ck.seq = nextCkptSeq s ∧ w.ck.instant = s.now ∧ w.ck.alarm = s.alarm ∧ w.ck.axes = s.axes) := by
  have e : exec .checkpoint s = .next (beginCkpt (ckptEpisodeEnd s)) :=
    congrArg Host.Outcome.next (by simp [ckptDue, takes, free])
  have ended : (ckptEpisodeEnd s).ckpt = { s.ckpt with episode := 0 } := by
    rw [ckptEpisodeEnd, raiseIf_ckpt]
    rfl
  have event : view (P.event ||| P.ckpt) (ckptEpisodeEnd s) = view (P.event ||| P.ckpt) s :=
    ckptEpisodeEnd_view (by decide) s
  have station : (ckptEpisodeEnd s).station = s.station := by
    have otp := otp_of_view event (by decide)
    simp only [State.station, State.otpWord, State.otpValue, otp]
  have same : newestLocal (ckptEpisodeEnd s) = newestLocal s := by
    have mine : ckptMine (ckptEpisodeEnd s) = ckptMine s := by
      funext c
      rw [ckptMine, ckptMine, station]
    rw [newestLocal, newestLocal, mine, ended]
  refine ⟨_, e, _, rfl, ?_, rfl, rfl, ?_, ?_, ?_, ?_⟩
  · simp only [ended, free]
  · exact nextCkptSeq_congr same (by rw [ended])
  · exact congrArg TimeSt.mono (tu_of_view event (by decide))
  · exact alarm_of_view event (by decide)
  · exact axes_of_view event (by decide)

theorem checkpoint_skips (takes : takesCkpt s = true) (busy : s.ckpt.busy.isSome = true) :
    Completes .checkpoint s (fun t =>
      t.ckpt.busy = s.ckpt.busy ∧ t.pair.ckptSkip = satInc top32 s.pair.ckptSkip) := by
  have e : exec .checkpoint s = .next ((s.setPair (fun p => { p with ckptSkip := satInc top32 p.ckptSkip })).setCkpt
      (fun k => { k with episode := k.episode + 1 })) := congrArg Host.Outcome.next (by simp [ckptDue, takes, busy])
  exact ⟨_, e, rfl, rfl⟩

theorem checkpoint_local {w : CkptWrite} (busy : s.ckpt.busy = some w) (plain : w.peg = false) :
    Completes (.checkpointComplete false) s (fun t =>
      t.ckpt.busy = none ∧ t.ckpt.last = w.half ∧ t.ckpt.pairSeq = w.ck.seq
        ∧ (if w.half = 0 then t.ckpt.halfA else t.ckpt.halfB) = some w.ck) := by
  have e : exec (.checkpointComplete false) s = .next (s.setCkpt (fun k =>
      { setHalf w.half (some w.ck) k with
        last := w.half, pairSeq := w.ck.seq, pairAt := some w.ck.instant, pairKib := w.ck.kib, busy := none })) :=
    congrArg Host.Outcome.next (by simp [ckptWritten, busy, plain])
  refine ⟨_, e, rfl, rfl, rfl, ?_⟩
  by_cases h : w.half = 0 <;> simp [State.setCkpt, setHalf, h]

theorem checkpoint_onPeg {w : CkptWrite} (busy : s.ckpt.busy = some w) (onPeg : w.peg = true) (done : w.localDone = true) :
    Completes (.checkpointComplete true) s (fun t =>
      t.ckpt.busy = none ∧ t.ckpt.pairSeq = w.ck.seq ∧ t.ckpt.pairAt = some w.ck.instant ∧ t.ckpt.pairKib = w.ck.kib) := by
  have e : exec (.checkpointComplete true) s = .next (s.setCkpt (fun k =>
      { k with pairSeq := w.ck.seq, pairAt := some w.ck.instant, pairKib := w.ck.kib, busy := none })) :=
    congrArg Host.Outcome.next (by simp [ckptWritten, busy, onPeg, done])
  exact ⟨_, e, rfl, rfl, rfl, rfl⟩

theorem header_mirrored (up : awake s = true) :
    Completes .headerMirror s (fun t => t = { s with recd := { s.recd with
      mirSecs := operSecs s, mirCycles := s.mod.powerCycles, mirLost := s.recd.lost } }) :=
  ⟨_, congrArg Host.Outcome.next (if_pos up), rfl⟩

/-- The standby takes the newest checkpoint's fields when it verifies, and else marks it bad. -/
theorem standby_checks (pairs : paired s = true) (standby : s.mod.state = .standby) (seq ageMs kib : Nat) (buf : Bool) :
    Completes (.standbyCkptCheck seq ageMs kib buf true) s (fun t =>
      t.pair.ckptBad = false ∧ t.ckpt.pairSeq = wrap32 seq ∧ t.ckpt.pairAt = some (s.now - 1000000 * ageMs)
        ∧ t.ckpt.pairKib = kib)
    ∧ Completes (.standbyCkptCheck seq ageMs kib buf false) s (fun t =>
      t.pair.ckptBad = true ∧ Raised Ev.PAIR_CKPT_BAD 0xCB (w32 (b2n buf)) s t) := by
  have open' (ok : Bool) : standbyCheck seq ageMs kib buf ok s = if ok then
      (s.setPair (fun p => { p with ckptBad := false })).setCkpt (fun k =>
        { k with pairSeq := wrap32 seq, pairAt := some (s.now - 1000000 * ageMs), pairKib := kib })
      else raiseN Ev.PAIR_CKPT_BAD 0xCB (b2n buf) (s.setPair (fun p => { p with ckptBad := true })) :=
    if_neg (by simp [pairs, standby])
  refine ⟨⟨_, congrArg Host.Outcome.next (open' true), rfl, rfl, rfl, rfl⟩,
    ⟨_, congrArg Host.Outcome.next (open' false), ?_, raised_of_growsN (.of_eq rfl) ..⟩⟩
  simp

/-- Settles O6: each command of the checkpoints by what it writes. -/
theorem checkpoints : Obligations.Checkpoints := by
  unfold Obligations.Checkpoints
  exact ⟨fun _ takes free => checkpoint_begins takes free, fun _ takes busy => checkpoint_skips takes busy,
    fun _ _ busy plain => checkpoint_local busy plain, fun _ _ busy onPeg done => checkpoint_onPeg busy onPeg done,
    fun _ up => header_mirrored up, fun _ _ _ _ _ pairs standby => standby_checks pairs standby ..⟩

end Sys2Proof.Proofs
end

section
/-! CERTIFICATE. The pair: heartbeats, the guy line, the claim and the straps (17 R503–R507). -/

namespace Sys2Proof.Proofs

open Sys2Proof Sys2Proof.Machine Sys2Proof.Laws

variable {s : State}

/-- With no wait that ends and no grant that is due, a heartbeat is sent and nothing else happens. -/
theorem heartbeat_sent
    (sends : s.mod.state = .imageSelect ∨ s.mod.state = .pitch ∨ s.mod.state = .run ∨ s.mod.state = .standby)
    (fitted : s.mod.position ≠ 0) (noWait : s.pair.waitUntilRun = false) (noGrant : s.pair.grantWaits = false) :
    Completes .heartbeatSend s (fun t =>
      t.pair.sent = .heartbeat (ownHeartbeat s) :: s.pair.sent ∧ t.pair.lastHeartbeatAt = s.now
        ∧ t.mod.health = s.healthNow) := by
  have e : exec .heartbeatSend s = .next (sendHeartbeat s) := by
    have still : waitEnds s = s := if_neg (by simp [noWait])
    refine congrArg Host.Outcome.next ?_
    rcases sends with h | h | h | h <;> simp [heartbeatSend, h, fitted, still, noGrant]
  exact ⟨_, e, rfl, rfl, rfl⟩

/-- What a heartbeat says of the partner. -/
def Heard (h : Heartbeat) (claim : Bool) (at' : Nat) (p : PairSt) : Prop :=
  p.heard = true ∧ p.everHeard = true ∧ p.heardAt = at' ∧ p.partner = h ∧ p.partnerClaim = claim ∧ p.guyLost = false

/-- Deciding the preference writes the preference only. -/
theorem decidePref_pair (s : State) : ∃ a b c,
    (decidePref s).pair = { s.pair with preferred := a, prefSource := b, conflict := c } := by
  unfold decidePref prefConflict
  dsimp only
  split
  · exact ⟨_, _, _, rfl⟩
  · split
    · exact ⟨_, _, _, rfl⟩
    · split <;> split <;> (try split) <;> simp only [setPair_pair, raiseN_pair] <;> exact ⟨_, _, _, rfl⟩

/-- Noting the hold-off writes its start only. -/
theorem holdoffNote_pair (s : State) : ∃ a, (holdoffNote s).pair = { s.pair with holdoffStart := a } := by
  unfold holdoffNote
  split
  · split
    · exact ⟨_, rfl⟩
    · exact ⟨_, raiseN_pair ..⟩
  · exact ⟨_, rfl⟩

/-- The partner is heard and no start waits for it. -/
def HeardNow (h : Heartbeat) (claim : Bool) (at' : Nat) (p : PairSt) : Prop :=
  Heard h claim at' p ∧ p.waitUntilRun = false

theorem decidePref_heard {h : Heartbeat} {claim : Bool} {n : Nat} (x : HeardNow h claim n s.pair) :
    HeardNow h claim n (decidePref s).pair := by
  obtain ⟨a, b, c, e⟩ := decidePref_pair s
  rw [e]
  exact x

theorem holdoffNote_heard {h : Heartbeat} {claim : Bool} {n : Nat} (x : HeardNow h claim n s.pair) :
    HeardNow h claim n (holdoffNote s).pair := by
  obtain ⟨a, e⟩ := holdoffNote_pair s
  rw [e]
  exact x

/-- A valid heartbeat is noted; the preference and the hold-off that follow leave what it says. -/
theorem heartbeat_heard {h : Heartbeat} {claim : Bool} (pairs : paired s = true) (crc : h.crcOk = true)
    (stays : s.mod.restartAfterHandover = false) (noWait : s.pair.waitUntilRun = false) :
    Completes (.heartbeat h claim) s (fun t => Heard h claim s.now t.pair) := by
  refine ⟨_, rfl, ?_⟩
  rw [heartbeatIn, if_neg (by simp [pairs, crc])]
  dsimp only
  generalize hu : raiseIf s.pair.guyLost Ev.PAIR_GUY_OK 0xCB 0 _ = u
  have noted : HeardNow h claim s.now u.pair := by
    rw [← hu, raiseIf_pair]
    unfold heartbeatNotes
    refine ⟨⟨rfl, rfl, rfl, ?_, rfl, rfl⟩, ?_⟩ <;> dsimp only <;> split <;> simp [noWait]
  have kept : u.mod = s.mod := by
    rw [← hu, raiseIf_mod]
    exact mod_of_view (m := N.mod) (heartbeatNotes_view (by decide) ..) (by decide)
  generalize hv : (if s.partnerHeard || !(s.mod.state == .run || s.mod.state == .standby) then u else decidePref u) = v
  have vnoted : HeardNow h claim s.now v.pair := by
    rw [← hv]
    split
    · exact noted
    · exact decidePref_heard noted
  have vkept : v.mod = s.mod := by
    rw [← hv, ← kept]
    split
    · rfl
    · exact mod_of_view (m := N.mod) (decidePref_view (by decide) ..) (by decide)
  rw [vkept, stays]
  have noted' := holdoffNote_heard vnoted
  have still : waitEnds (holdoffNote v) = holdoffNote v := if_neg (by simp [noted'.2])
  simpa [still] using noted'.1

theorem guyLost_marks (pairs : paired s = true) (linked : s.pair.guyLost = false) :
    Completes .pairGuyLost s (fun t =>
      t.pair.guyLost = true ∧ t.pair.heard = false ∧ t.pair.partnerClaim = true ∧ Raised Ev.PAIR_GUY_LOST 0xCB 0 s t) := by
  have e : exec .pairGuyLost s = .next (raiseN Ev.PAIR_GUY_LOST 0xCB 0
      (s.setPair (fun p => { p with heard := false, guyLost := true, partnerClaim := true, holdoffStart := none }))) :=
    congrArg Host.Outcome.next (if_neg (by simp [pairs, linked]))
  exact ⟨_, e, by simp, by simp, by simp, raised_of_growsN (.of_eq rfl) ..⟩

theorem claim_drops (pairs : paired s = true) (claims : s.pair.claim = true) :
    Completes .claimDrop s (fun t => t.pair = { s.pair with claim := false, enabled := false }) := by
  have e : exec .claimDrop s = .next (outputsOff (s.setPair (fun p => { p with claim := false, enabled := false }))) :=
    congrArg Host.Outcome.next (if_neg (by simp [pairs, claims]))
  exact ⟨_, e, pair_of_view (m := N.pair) (outputsOff_view (by decide) ..) (by decide)⟩

theorem straps_announced {n : Fin 4} (pairs : paired s = true) (changed : s.pair.straps ≠ n.val) :
    Completes (.prefStrapSense n) s (fun t =>
      t.pair = { s.pair with straps := n.val }
        ∧ Raised Ev.PAIR_PREF_CONFLICT 0xCB (w32 (n.val % 4 + 4 * (ownPref s % 4) + 16 * (s.pair.partner.prefOtp % 4))) s t) := by
  have e : exec (.prefStrapSense n) s = .next (prefConflict (s.setPair (fun p => { p with straps := n.val }))) :=
    congrArg Host.Outcome.next (if_neg (by simp [pairs, changed]))
  exact ⟨_, e, raiseN_pair .., raised_of_growsN (.of_eq rfl) ..⟩

/-- Settles O10: each command of the pair by what it writes. -/
theorem pairClaims : Obligations.PairClaims := by
  unfold Obligations.PairClaims
  exact ⟨fun _ sends fitted noWait noGrant => heartbeat_sent sends fitted noWait noGrant,
    fun _ _ _ pairs crc stays noWait => heartbeat_heard pairs crc stays noWait,
    fun _ pairs linked => guyLost_marks pairs linked, fun _ pairs claims => claim_drops pairs claims,
    fun _ _ pairs changed => straps_announced pairs changed⟩

end Sys2Proof.Proofs
end

section
/-! CERTIFICATE. Take-over and handover (17 R513–R520). -/

namespace Sys2Proof.Proofs

open Sys2Proof Sys2Proof.Machine Sys2Proof.Laws

variable {s : State}

theorem beginTakeover_role (trigger : Nat) (s : State) :
    let p := (beginTakeover trigger s).pair
    p.role = .takingOver ∧ p.claim = true ∧ p.enabled = true ∧ p.lastHeartbeatAt = s.now ∧ p.handshake = 0 :=
  ⟨rfl, rfl, rfl, rfl, rfl⟩

theorem takeover_begins (pairs : paired s = true) (standby : s.mod.state = .standby) (idle : s.pair.role ≠ .takingOver)
    (stays : s.mod.restartAfterHandover = false) (pitched : s.pair.repitch = false) :
    Completes .pairTakeover s (fun t =>
      t.pair.role = .takingOver ∧ t.pair.claim = true ∧ t.pair.enabled = true ∧ t.pair.lastHeartbeatAt = s.now
        ∧ t.pair.handshake = 0) := by
  refine ⟨_, rfl, ?_⟩
  have ready : (!paired s || s.mod.state != .standby || s.pair.role == .takingOver) = false := by
    simp [pairs, standby, idle]
  rw [pairTakeover, if_neg (by simp [ready])]
  dsimp only
  generalize (if s.partnerHeard && s.pair.partner.handshake = 3 then 1 else if s.pair.guyLost then 2 else 0 : Nat) = n
  generalize hu : (if n = 1 then s else s.setPair (fun p => { p with heard := false, partnerClaim := false })) = u
  obtain ⟨mod, repitch, now⟩ : u.mod = s.mod ∧ u.pair.repitch = s.pair.repitch ∧ u.now = s.now := by
    rw [← hu]
    split <;> exact ⟨rfl, rfl, rfl⟩
  simp only [mod, repitch, stays, pitched, Bool.false_eq_true, if_false, ← now]
  exact beginTakeover_role n u

/-- A take-over up to the instant at which the module counts as running. -/
def takenOver (peg : Option Ckpt) (s : State) : State :=
  let ck := peg.filter (ckptMine s)
  let s2 := match ck with
    | some c => restoreForces c (restoreProcess c (takeoverBase s))
    | none => raiseN Ev.PAIR_NO_CKPT 0xCB 0 (takeoverBase s)
  (s2.setMod (fun m => { m with state := .run })).setPair (fun p =>
    { p with
      role := .active, last := min top16 ((s.now - p.takeoverAt) / 100000)
      lastAge := if ck.isSome then min 255 ((s.pair.partner.ckptAge + (s.now - s.pair.heardAt) / 1000000) / 10) else 0
      switches := if p.takeoverByHandshake then p.switches else satInc top16 p.switches
      handovers := if p.takeoverByHandshake then satInc top16 p.handovers else p.handovers })

/-- What a take-over does after that instant leaves the module and the pair. -/
theorem finishTakeover_after (peg : Option Ckpt) (s : State) :
    view (N.mod &&& N.pair) (finishTakeover peg s) = view (N.mod &&& N.pair) (takenOver peg s) := by
  unfold finishTakeover
  dsimp only
  rw [driveAll_view (by decide)]
  refine (view_ite (redrawAll_view (by decide) _) rfl).trans ?_
  cases found : peg.filter (ckptMine s) with
  | none =>
    rw [raiseIf_view (by decide)]
    refine (view_ite (restoreBedrock_view (by decide) ..) rfl).trans ?_
    rw [runConfigured_view (by decide)]
    simp only [takenOver, found]
  | some c =>
    rw [setCkpt_view (by decide), raiseIf_view (by decide)]
    refine (view_ite (restoreBedrock_view (by decide) ..) rfl).trans ?_
    rw [runConfigured_view (by decide)]
    simp only [takenOver, found]

theorem takenOver_role (peg : Option Ckpt) (s : State) :
    let t := takenOver peg s
    t.mod.state = .run ∧ t.pair.role = .active
      ∧ t.pair.switches = (if s.pair.takeoverByHandshake then s.pair.switches else satInc top16 s.pair.switches)
      ∧ t.pair.handovers = (if s.pair.takeoverByHandshake then satInc top16 s.pair.handovers else s.pair.handovers) := by
  unfold takenOver
  dsimp only
  generalize hu : (match peg.filter (ckptMine s) with
    | some c => restoreForces c (restoreProcess c (takeoverBase s))
    | none => raiseN Ev.PAIR_NO_CKPT 0xCB 0 (takeoverBase s)) = u
  have kept : u.pair = s.pair := by
    rw [← hu]
    refine pair_of_view (m := N.pair) ?_ (by decide)
    split
    · rw [restoreForces_view (by decide), restoreProcess_view (by decide), takeoverBase_view (by decide)]
    · rw [raiseN_view (by decide), takeoverBase_view (by decide)]
  rw [← kept]
  exact ⟨rfl, rfl, rfl, rfl⟩

theorem finishTakeover_role (peg : Option Ckpt) (s : State) :
    let t := finishTakeover peg s
    t.mod.state = .run ∧ t.pair.role = .active
      ∧ t.pair.switches = (if s.pair.takeoverByHandshake then s.pair.switches else satInc top16 s.pair.switches)
      ∧ t.pair.handovers = (if s.pair.takeoverByHandshake then satInc top16 s.pair.handovers else s.pair.handovers) := by
  have after := finishTakeover_after peg s
  dsimp only
  rw [mod_of_view after (by decide), pair_of_view after (by decide)]
  exact takenOver_role peg s

theorem takeover_restores {peg : Option Ckpt} (pairs : paired s = true) (standby : s.mod.state = .standby)
    (taking : s.pair.role = .takingOver) (noStart : s.pair.startRestore = false) :
    Completes (.takeoverRestore peg) s (fun t =>
      t.mod.state = .run ∧ t.pair.role = .active
        ∧ t.pair.switches = (if s.pair.takeoverByHandshake then s.pair.switches else satInc top16 s.pair.switches)
        ∧ t.pair.handovers = (if s.pair.takeoverByHandshake then satInc top16 s.pair.handovers else s.pair.handovers)) :=
  ⟨_, congrArg Host.Outcome.next (by simp [takeoverRestore, pairs, standby, taking, noStart]), finishTakeover_role peg s⟩

theorem holdoff_ends (pairs : paired s = true) (standby : s.mod.state = .standby)
    (runs : s.pair.holdoffStart.isSome = true) (preferred : isPreferred s = true) (ready : standbyReady s = true) :
    Completes .holdoffEnd s (fun t => t = { s with pair := { s.pair with holdoffStart := none, handshake := 1 } }) :=
  ⟨_, congrArg Host.Outcome.next (if_pos (by simp [pairs, standby, runs, preferred, ready])), rfl⟩

theorem handover_granted (pairs : paired s = true) (running : s.mod.state = .run) (active : s.pair.role = .active)
    (free : grantBlocked s = false) :
    Completes .handoverRequest s (fun t =>
      t = { s with pair := { s.pair with grantWaits := false, handshake := 2, role := .handingOver } }) := by
  have e : exec .handoverRequest s
      = .next (s.setPair (fun p => { p with grantWaits := false, handshake := 2, role := .handingOver })) :=
    congrArg Host.Outcome.next (by simp [handoverRequest, pairs, running, active, grantHandover, free])
  exact ⟨_, e, rfl⟩

theorem handover_holds (handing : s.pair.role = .handingOver) (held : s.logic.held = true)
    (first : s.pair.handoverHold = false) (idle : allIdle s = true) (noWarning : s.mod.warning = false) :
    Completes .handoverIdle s (fun t =>
      t.pair = { s.pair with handoverHold := true } ∧ t.ckpt.busy.isSome = true) := by
  have e : exec .handoverIdle s = .next (beginCkpt (s.setPair (fun p => { p with handoverHold := true }))) :=
    congrArg Host.Outcome.next (if_pos (by simp [handing, held, first, idle, noWarning]))
  exact ⟨_, e, rfl, rfl⟩

/-- The old active module has switched off and is in STANDBY; its functions follow. -/
def leaving (s : State) : State :=
  let off := outputsOff (s.setPair (fun p =>
    { p with role := .standby, claim := false, enabled := false, handoverHold := false, holdoffStart := none
             grantWaits := false }))
  { off with mod := { off.mod with state := .standby }, logic := { off.logic with held := false, forces := [] } }

theorem leaveControl_after (s : State) :
    view (N.mod &&& N.pair) (leaveControl s) = view (N.mod &&& N.pair) (leaving s) := by
  refine view_forAll (l := allFns) (fun f t => ?_) (leaving s)
  split
  · exact enterStandby_view (by decide) ..
  · rfl

/-- Leaving control writes mode and role, and the functions that enter STANDBY leave both. -/
theorem leaveControl_role (s : State) :
    let t := leaveControl s
    t.mod.state = .standby ∧ t.pair.role = .standby ∧ t.pair.claim = false ∧ t.pair.enabled = false
      ∧ t.pair.handshake = s.pair.handshake := by
  have off := pair_of_view (m := N.pair) (outputsOff_view (by decide) (s.setPair (fun p =>
    { p with role := .standby, claim := false, enabled := false, handoverHold := false, holdoffStart := none
             grantWaits := false }))) (by decide)
  have after := leaveControl_after s
  dsimp only
  rw [mod_of_view after (by decide), pair_of_view after (by decide), leaving]
  dsimp only
  rw [off]
  exact ⟨rfl, rfl, rfl, rfl, rfl⟩

theorem handover_ends (handing : s.pair.role = .handingOver) (holds : s.pair.handoverHold = true) :
    Completes .handoverCheckpoint s (fun t =>
      t.mod.state = .standby ∧ t.pair.role = .standby ∧ t.pair.claim = false ∧ t.pair.enabled = false
        ∧ t.pair.handshake = 3) := by
  have e : exec .handoverCheckpoint s = .next (leaveControl (sendHeartbeat
      ((ckptWritten true (ckptWritten false s)).setPair (fun p => { p with handshake := 3 })))) :=
    congrArg Host.Outcome.next (if_neg (by simp [handing, holds]))
  obtain ⟨mode, role, claim, enabled, handshake⟩ := leaveControl_role (sendHeartbeat
    ((ckptWritten true (ckptWritten false s)).setPair (fun p => { p with handshake := 3 })))
  exact ⟨_, e, mode, role, claim, enabled, handshake⟩

/-- Settles O11: each step of take-over and handover by what it writes; what follows it leaves mode and role. -/
theorem takeoverAndHandover : Obligations.TakeoverAndHandover := by
  unfold Obligations.TakeoverAndHandover
  exact ⟨fun _ pairs standby idle stays pitched => takeover_begins pairs standby idle stays pitched,
    fun _ _ pairs standby taking noStart => takeover_restores pairs standby taking noStart,
    fun _ pairs standby runs preferred ready => holdoff_ends pairs standby runs preferred ready,
    fun _ pairs running active free => handover_granted pairs running active free,
    fun _ handing held first idle noWarning => handover_holds handing held first idle noWarning,
    fun _ handing holds => handover_ends handing holds⟩

end Sys2Proof.Proofs
end

section
/-! SUPPORT. What region updates leave of the panel (18 R535, R536). -/

namespace Sys2Proof.Laws

open Sys2Proof Sys2Proof.Machine

variable {s t : State}

/-- The panel without the regions of the page shown and their queue. -/
def shell (p : PanelSt) : PanelSt :=
  { p with regs := [], queue := [], waitCount := 0, cur := { p.cur with regions := [] } }

/-- Only regions and their queue differ between `s` and `t`. -/
def SameShell (s t : State) : Prop := shell t.panel = shell s.panel

theorem SameShell.trans {u : State} (h : SameShell s t) (k : SameShell t u) : SameShell s u := Eq.trans k h
theorem SameShell.ite {c : Prop} [Decidable c] {u : State} (h : SameShell s t) (k : SameShell s u) :
    SameShell s (if c then t else u) := by
  split <;> assumption
theorem SameShell.forAll {β : Type} {l : List β} {f : β → State → State} (h : ∀ a t, SameShell t (f a t)) (s : State) :
    SameShell s (forAll l f s) := forAll_keeps (fun t : State => shell t.panel) h s
theorem SameShell.field {α : Type} (h : SameShell s t) (f : PanelSt → α) : f (shell t.panel) = f (shell s.panel) :=
  congrArg f h
theorem SameShell.of_panel (h : t.panel = s.panel) : SameShell s t := congrArg shell h

theorem setReg_shell (r : Nat) (f : RegionSt → RegionSt) (s : State) : SameShell s (setReg r f s) := rfl
theorem startRegion_shell (r : Nat) (s : State) : SameShell s (startRegion r s) := rfl
theorem grantRegions_shell (l : List Nat) (s : State) : SameShell s (grantRegions l s) := by
  induction l generalizing s with
  | nil => rfl
  | cons r l ih => exact .ite ((startRegion_shell r s).trans (ih _)) rfl
theorem requestRegion_shell (r : Nat) (s : State) : SameShell s (requestRegion r s) :=
  .ite rfl (.ite rfl (.ite rfl rfl))
theorem redrawAll_shell (s : State) : SameShell s (redrawAll s) :=
  forRange_keeps (fun t : State => shell t.panel) (fun r t => requestRegion_shell r t) _
theorem regionEnds_shell (l : List Nat) (s : State) : SameShell s (regionEnds l s) :=
  ((SameShell.forAll (fun r t => setReg_shell r _ t) s).trans (grantRegions_shell _ _)).trans
    (.forAll (fun r t => .ite ((setReg_shell r _ t).trans (requestRegion_shell r _)) rfl) _)
theorem regionShows_shell (s : State) : SameShell s (regionShows s) := by
  unfold regionShows
  refine .forAll (fun r t => ?_) s
  rfl

@[simp] theorem regOf_setReg (r : Nat) (f : RegionSt → RegionSt) (s : State) : regOf (setReg r f s) r = f (regOf s r) :=
  Tab.look_upd_self ..

end Sys2Proof.Laws
end

section
/-! CERTIFICATE. Frames, rows, temperature, regions and discharge of the panel (18 R525–R537). -/

namespace Sys2Proof.Proofs

open Sys2Proof Sys2Proof.Machine Sys2Proof.Laws

variable {s : State}

/-- Subpixel rows marked for balancing. -/
def markedRows (s : State) : Nat := (s.panel.rows.filter (fun p => p.2.marked)).length

/-- The start of a frame writes its fields; the regions that follow leave them. -/
theorem frameBegin_fields (s : State) :
    let t := frameBegin s
    t.panel.frames = wrap32 (s.panel.frames + 1) ∧ t.panel.prev = s.panel.cur ∧ t.panel.bandNow = s.panel.band
      ∧ t.panel.cur.page = pageNo s ∧ t.panel.cur.sys = (s.panel.sysPage || systemOnly s)
      ∧ t.panel.lastMarked = markedRows s
      ∧ t.panel.balances = (if markedRows s = 0 then s.panel.balances else satInc top16 s.panel.balances)
      ∧ t.panel.scan = s.panel.scan ∧ t.panel.dark = s.panel.dark := by
  unfold frameBegin
  dsimp only
  generalize hu : s.setPanel _ = u
  have same : SameShell u (raiseIf ((s.panel.rows.filter (fun p => p.2.marked)).length != 0) Ev.PNL_BALANCE 0xCC
      (s.panel.rows.filter (fun p => p.2.marked)).length
      (regionShows (regionEnds ((s.panel.regs.filter (fun p => p.2.phase == .shown)).map (·.1)) u))) :=
    ((regionEnds_shell _ u).trans (regionShows_shell _)).trans (.of_panel (raiseIf_panel ..))
  refine ⟨(same.field PanelSt.frames).trans ?_, (same.field PanelSt.prev).trans ?_, (same.field PanelSt.bandNow).trans ?_,
    (same.field (fun p => p.cur.page)).trans ?_, (same.field (fun p => p.cur.sys)).trans ?_,
    (same.field PanelSt.lastMarked).trans ?_, (same.field PanelSt.balances).trans ?_, (same.field PanelSt.scan).trans ?_,
    (same.field PanelSt.dark).trans ?_⟩
  all_goals
    rw [← hu]
    rfl

theorem frame_counts (drives : panelDrives s = true) (on : s.panel.scan = .on) :
    Completes .panelFrame s (fun t =>
      t.panel.frames = wrap32 (s.panel.frames + 1) ∧ t.panel.prev = s.panel.cur ∧ t.panel.bandNow = s.panel.band
        ∧ t.panel.cur.page = pageNo s ∧ t.panel.cur.sys = (s.panel.sysPage || systemOnly s)
        ∧ t.panel.lastMarked = markedRows s
        ∧ (0 < markedRows s →
            t.panel.balances = satInc top16 s.panel.balances ∧ Raised Ev.PNL_BALANCE 0xCC (w32 (markedRows s)) s t)) := by
  have e : exec .panelFrame s = .next (frameBegin s) :=
    congrArg Host.Outcome.next (by simp [panelFrame, drives, on])
  obtain ⟨frames, prev, band, page, sys, last, balances, -, -⟩ := frameBegin_fields s
  refine ⟨_, e, frames, prev, band, page, sys, last, fun some => ⟨balances.trans (if_neg (by omega)), ?_⟩⟩
  have any : ((s.panel.rows.filter (fun p => p.2.marked)).length != 0) = true := by
    rw [bne_iff_ne]
    exact Nat.pos_iff_ne_zero.1 some
  unfold frameBegin
  dsimp only
  rw [any]
  refine raised_of_growsN (.of_eq ?_) ..
  exact (inbox_of_view (m := P.panel) (regionShows_view (by decide) _) (by decide)).trans
    (inbox_of_view (m := P.panel) (regionEnds_view (by decide) ..) (by decide))

theorem frame_restarts (drives : panelDrives s = true) (off : s.panel.scan = .off) (power : s.mod.warning = false) :
    Completes .panelFrame s (fun t => t.panel.scan = .on ∧ t.panel.dark = false
      ∧ t.panel.frames = wrap32 (s.panel.frames + 1)) := by
  have e : exec .panelFrame s
      = .next (frameBegin (redrawAll (s.setPanel (fun p => { p with scan := .on, dark := false })))) :=
    congrArg Host.Outcome.next (by simp [panelFrame, drives, off, power])
  have same := redrawAll_shell (s.setPanel (fun p => { p with scan := .on, dark := false }))
  obtain ⟨frames, -, -, -, -, -, -, scan, dark⟩ :=
    frameBegin_fields (redrawAll (s.setPanel (fun p => { p with scan := .on, dark := false })))
  have before := same.field PanelSt.frames
  exact ⟨_, e, scan.trans (same.field PanelSt.scan), dark.trans (same.field PanelSt.dark),
    frames.trans (congrArg (fun n => wrap32 (n + 1)) before)⟩

theorem row_driven {r : Nat} (on : s.panel.scan = .on) (drives : panelDrives s = true) (low : r < 480) :
    Completes (.rowPeriod r) s (fun t => t.panel.rows.look r = driveRow s r
      ∧ ∀ k, k ≠ r → t.panel.rows.look k = s.panel.rows.look k) := by
  have rows := rowPeriod_drives (s := s) (r := r) (by simp [on, drives, low])
  refine ⟨_, rfl, ?_, fun k other => ?_⟩ <;> rw [rows]
  · exact Tab.look_put_self ..
  · exact Tab.look_put_of_ne _ _ other

theorem temp_read {x : Int} (drives : panelDrives s = true) (low : -400 ≤ x) (high : x ≤ 1000) :
    Completes (.panelTempRead (some x)) s (fun t => t.panel.temp = x ∧ t.panel.tempValid = true
      ∧ t.panel.tempFault = false ∧ t.panel.band = bandFor s.panel.band x
      ∧ (bandFor s.panel.band x ≠ s.panel.band →
          Raised Ev.PNL_BAND_CHANGED 0xCC (w32 (bandFor s.panel.band x + 65536 * s16 x)) s t)) := by
  let read := s.setPanel (fun p =>
    { p with temp := x, tempValid := true, tempFault := false, band := bandFor s.panel.band x })
  have e : exec (.panelTempRead (some x)) s = .next (raiseIf (bandFor s.panel.band x != s.panel.band)
      Ev.PNL_BAND_CHANGED 0xCC (bandFor s.panel.band x + 65536 * s16 x) read) := by
    refine congrArg Host.Outcome.next ?_
    rw [if_pos drives]
    simp [panelTemp, low, high, raiseIf, read]
  refine ⟨_, e, ?_, ?_, ?_, ?_, fun changed => ?_⟩
  iterate 4 rw [raiseIf_panel]; rfl
  rw [raiseIf, if_pos (bne_iff_ne.2 changed)]
  exact raised_of_growsN (.of_eq rfl) ..

theorem sensor_faults (drives : panelDrives s = true) (good : s.panel.tempFault = false) :
    Completes (.panelTempRead none) s (fun t => t.panel.temp = s.panel.temp ∧ t.panel.tempValid = false
      ∧ t.panel.tempFault = true ∧ t.panel.band = bandFor s.panel.band (s.mod.temp - 50)
      ∧ Raised Ev.PNL_SENSOR_FAULT 0xCC 0 s t) := by
  let band := bandFor s.panel.band (s.mod.temp - 50)
  let read := s.setPanel (fun p => { p with tempValid := false, tempFault := true, band := band })
  have e : exec (.panelTempRead none) s = .next (raiseIf (band != s.panel.band) Ev.PNL_BAND_CHANGED 0xCC
      (band + 65536 * s16 (s.mod.temp - 50)) (raiseN Ev.PNL_SENSOR_FAULT 0xCC 0 read)) := by
    refine congrArg Host.Outcome.next ?_
    rw [if_pos drives]
    simp [panelTemp, good, raiseIf, read, band]
  have raised : Raised Ev.PNL_SENSOR_FAULT 0xCC (w32 0) s (raiseN Ev.PNL_SENSOR_FAULT 0xCC 0 read) :=
    raised_of_growsN (.of_eq rfl) ..
  refine ⟨_, e, ?_, ?_, ?_, ?_, raised_mid (.refl s) raised (grows_raiseIf ..)⟩
  all_goals
    rw [raiseIf_panel, raiseN_panel]
    rfl

section
variable {r : Nat} (run : s.fnState .panel = .run) (on : s.panel.scan = .on) (low : r < (pageCfg s).regions.length)
  (idle : (regOf s r).phase = .idle)
include run on low idle

theorem region_renders (first : s.panel.queue = []) (room : regBytes s r ≤ backFree s) :
    Completes (.regionUpdateRequest r) s (fun t => (regOf t r).phase = .rendering
      ∧ (regOf t r).vals = (nth (pageCfg s).regions r).entries.map (readEntry s)) := by
  have e : exec (.regionUpdateRequest r) s = .next (startRegion r s) := by
    refine congrArg Host.Outcome.next ?_
    rw [if_pos (by simp [State.running, run, on]), requestRegion, if_neg (Nat.not_le.2 low), if_neg (by simp [idle]),
      if_pos (by simp [first, room])]
  refine ⟨_, e, ?_⟩
  beta_reduce
  rw [startRegion, regOf_setReg]
  exact ⟨rfl, rfl⟩

theorem region_waits (tight : backFree s < regBytes s r) :
    Completes (.regionUpdateRequest r) s (fun t => (regOf t r).phase = .waiting
      ∧ t.panel.queue = s.panel.queue ++ [r] ∧ t.panel.waitCount = satInc top32 s.panel.waitCount) := by
  have e : exec (.regionUpdateRequest r) s = .next ((setReg r (fun x => { x with phase := .waiting }) s).setPanel
      (fun p => { p with queue := p.queue ++ [r], waitCount := satInc top32 p.waitCount })) := by
    refine congrArg Host.Outcome.next ?_
    rw [if_pos (by simp [State.running, run, on]), requestRegion, if_neg (Nat.not_le.2 low), if_neg (by simp [idle]),
      if_neg (by simp [tight])]
  refine ⟨_, e, ?_, rfl, rfl⟩
  exact congrArg RegionSt.phase (regOf_setReg r (fun x => { x with phase := .waiting }) s)

end

theorem render_completes {r : Nat} (renders : (regOf s r).phase = .rendering) :
    Completes (.renderComplete r) s (fun t => (regOf t r).phase = .rendered ∧ (regOf t r).doneAt = s.now
      ∧ (regOf t r).vals = (regOf s r).vals) := by
  have e : exec (.renderComplete r) s = .next (setReg r (fun x => { x with phase := .rendered, doneAt := s.now }) s) :=
    congrArg Host.Outcome.next (if_pos (by simp [renders]))
  refine ⟨_, e, ?_⟩
  beta_reduce
  rw [regOf_setReg]
  exact ⟨rfl, rfl, rfl⟩

theorem discharge_ends (discharges : s.panel.scan = .discharging) :
    Completes .dischargeEnd s (fun t => t = { s with panel := { s.panel with scan := .off } }) :=
  ⟨_, congrArg Host.Outcome.next (if_pos (by simp [discharges])), rfl⟩

/-- Settles O45: each command of the panel by what it writes; region updates leave the rest of the panel. -/
theorem panelDrive : Obligations.PanelDrive := by
  unfold Obligations.PanelDrive
  exact ⟨fun _ drives on => frame_counts drives on, fun _ drives off power => frame_restarts drives off power,
    fun _ _ on drives low => row_driven on drives low, fun _ _ drives low high => temp_read drives low high,
    fun _ drives good => sensor_faults drives good,
    fun _ _ run on low idle first room => region_renders run on low idle first room,
    fun _ _ run on low idle tight => region_waits run on low idle tight, fun _ _ renders => render_completes renders,
    fun _ discharges => discharge_ends discharges⟩

end Sys2Proof.Proofs
end

section
/-! SUPPORT. Ending local control (18 R546, R547). -/

namespace Sys2Proof.Laws

open Sys2Proof Sys2Proof.Machine

variable {s t : State}

/-- Ending one point's local control takes it from the held points and writes nothing else of the panel. -/
theorem endLocal_panel (n : Nat) (o : Origin) (p : LocalPt) (s : State) :
    (endLocal n o p s).panel = { s.panel with locals := s.panel.locals.filter (fun q => q != p) } := by
  unfold endLocal
  split
  next free =>
    have none : s.panel.locals.filter (fun q => q != p) = s.panel.locals := by
      rw [List.filter_eq_self]
      rintro q held
      simp only [Bool.not_eq_true', List.contains_eq_mem, decide_eq_false_iff_not] at free
      rw [bne_iff_ne]
      rintro rfl
      exact free held
    rw [none]
  next =>
    rw [raise_panel]
    refine (panel_of_view (m := N.panel) (?_ : _ = view N.panel
      { s with panel := { s.panel with locals := s.panel.locals.filter (fun q => q != p) } }) (by decide)).trans rfl
    dsimp only
    split
    · exact wdRestart_view (by decide) ..
    · exact view_ite (localAxisEnd_view (by decide) ..) rfl

/-- Ending the local control of a list of points takes those points from the held ones. -/
theorem forAll_endLocal_panel (n : Nat) (o : Origin) (l : List LocalPt) (s : State) :
    (forAll l (endLocal n o) s).panel = { s.panel with locals := s.panel.locals.filter (fun q => !l.contains q) } := by
  induction l generalizing s with
  | nil => simp
  | cons p l ih =>
    have rest : (s.panel.locals.filter (fun q => q != p)).filter (fun q => !l.contains q)
        = s.panel.locals.filter (fun q => !(p :: l).contains q) := by
      rw [List.filter_filter]
      refine List.filter_congr fun q _ => ?_
      rw [List.contains_cons, Bool.not_or, Bool.and_comm]
      rfl
    rw [forAll_cons, ih, endLocal_panel]
    exact congrArg (fun held => { s.panel with locals := held }) rest

theorem endLocals_panel (n : Nat) (o : Origin) (s : State) :
    (endLocals n o (fun _ => true) s).panel = { s.panel with locals := [] } := by
  have gone : s.panel.locals.filter (fun q => !s.panel.locals.contains q) = [] := by
    simp [List.filter_eq_nil_iff]
  rw [endLocals, List.filter_true, forAll_endLocal_panel, gone]

/-- A held point whose local control ends is announced. -/
theorem endLocal_raised {n : Nat} {o : Origin} {p : LocalPt} (held : p ∈ s.panel.locals) :
    Raised Ev.PNL_LOCAL_RELEASED 0xCC (w32 (p.kind + 4 * p.index + 16777216 * n)) s (endLocal n o p s) := by
  unfold endLocal
  rw [if_neg (by simp [held])]
  dsimp only
  refine raised_of_grows (grows_of_silent ?_) ..
  split
  · exact (wdRestart_view (by decide) ..).trans rfl
  · exact view_ite (localAxisEnd_view (by decide) ..) rfl

/-- So is each of a list of held points. -/
theorem forAll_endLocal_raised {n : Nat} {o : Origin} {p : LocalPt} {l : List LocalPt} (listed : p ∈ l)
    (held : p ∈ s.panel.locals) :
    Raised Ev.PNL_LOCAL_RELEASED 0xCC (w32 (p.kind + 4 * p.index + 16777216 * n)) s (forAll l (endLocal n o) s) := by
  induction l generalizing s with
  | nil => cases listed
  | cons a l ih =>
    rw [forAll_cons]
    by_cases same : p = a
    · subst same
      exact raised_mid (.refl s) (endLocal_raised held) (forAll_grows (fun q t => endLocal_grows n o q t) _)
    · have still : p ∈ (endLocal n o a s).panel.locals := by
        rw [endLocal_panel]
        exact List.mem_filter.2 ⟨held, bne_iff_ne.2 same⟩
      exact raised_mid (endLocal_grows ..) (ih ((List.mem_cons.1 listed).resolve_left same) still) (.refl _)

theorem endLocals_raised {n : Nat} {o : Origin} {p : LocalPt} (held : p ∈ s.panel.locals) :
    Raised Ev.PNL_LOCAL_RELEASED 0xCC (w32 (p.kind + 4 * p.index + 16777216 * n)) s (endLocals n o (fun _ => true) s) := by
  rw [endLocals, List.filter_true]
  exact forAll_endLocal_raised held held

end Sys2Proof.Laws
end

section
/-! CERTIFICATE. Keys, the key switch and local control of the panel (18 R540–R547). -/

namespace Sys2Proof.Proofs

open Sys2Proof Sys2Proof.Machine Sys2Proof.Laws

variable {s : State}

/-! ### Keys -/

theorem pageKey_shows {k : Fin 6} {n : Nat} (keys : pageKeys s = true) (key : nth (pageCfg s).keys k = .page n)
    (page : n < s.img.panel.pages.length) :
    Completes (.functionKey k) s (fun t => t.panel.page = some n ∧ t.panel.sel = none ∧ pageNo t = n) := by
  have e : exec (.functionKey k) s = .next (showPage n s) :=
    congrArg Host.Outcome.next (by simp [functionKey, keys, key, page])
  have same := redrawAll_shell (s.setPanel (fun p => { p with page := some n, sel := none }))
  have shown : (showPage n s).panel.page = some n := same.field PanelSt.page
  exact ⟨_, e, shown, same.field PanelSt.sel, by rw [pageNo, shown]⟩

theorem selectKey_selects {k : Fin 6} {p : LocalPt} (keys : pageKeys s = true) (key : nth (pageCfg s).keys k = .select p) :
    Completes (.functionKey k) s (fun t => t = { s with panel := { s.panel with sel := some p } }) :=
  ⟨_, congrArg Host.Outcome.next (by simp only [functionKey, keys, key, Bool.not_true, Bool.false_eq_true, if_false]; rfl),
    rfl⟩

theorem systemKey_toggles (drives : panelDrives s = true) :
    Completes .f6Held s (fun t => t = { s with panel := { s.panel with sysPage := !s.panel.sysPage } }) :=
  ⟨_, congrArg Host.Outcome.next (if_pos drives), rfl⟩

theorem steps_repeat {p : LocalPt} {c : LocalCmd} {plus : Bool} (keys : pageKeys s = true) (sel : s.panel.sel = some p)
    (last : s.panel.lastStep = some c) (dir : stepDir c = some plus) :
    Completes (.keyRepeat plus) s (fun t => t = localCmd p c s) :=
  ⟨_, congrArg Host.Outcome.next (by simp [keyRepeat, keys, sel, last, dir]), rfl⟩

/-! ### The key switch -/

/-- The switch has been read as `on` and announced; nobody's control has ended yet. -/
def switched (on : Bool) (s : State) : State :=
  raise Ev.PNL_KEYSWITCH 0xCC (w32 (b2n on)) .panel (s.setPanel (fun p => { p with keyOn := on, keyFault := false }))

theorem switched_panel (on : Bool) (s : State) : (switched on s).panel = { s.panel with keyOn := on, keyFault := false } :=
  raise_panel ..
theorem switched_raised (on : Bool) (s : State) : Raised Ev.PNL_KEYSWITCH 0xCC (w32 (b2n on)) s (switched on s) :=
  raised_of_grows (.of_eq rfl) ..

theorem switched_grows (on : Bool) (s : State) : Grows s (switched on s) := (grows_raise ..).from_eq rfl

theorem keySwitch_changed {on : Bool} (changed : s.panel.keyOn = !on) :
    keySwitch on s = if on then switched on s else endLocals 1 .panel (fun _ => true) (switched on s) :=
  if_neg (by cases on <;> simp [changed])

theorem switch_on (powered : s.mod.domains.getLsbD 11 = true) (off : s.panel.keyOn = false) :
    Completes (.pnlKeyswitch true) s (fun t => t.panel.keyOn = true ∧ t.panel.keyFault = false
      ∧ t.panel.locals = s.panel.locals ∧ Raised Ev.PNL_KEYSWITCH 0xCC 1 s t) := by
  have e : exec (.pnlKeyswitch true) s = .next (switched true s) :=
    congrArg Host.Outcome.next ((if_pos powered).trans (keySwitch_changed off))
  refine ⟨_, e, ?_, ?_, ?_, switched_raised true s⟩ <;> rw [switched_panel]

theorem switch_off (powered : s.mod.domains.getLsbD 11 = true) (on : s.panel.keyOn = true) :
    Completes (.pnlKeyswitch false) s (fun t => t.panel.keyOn = false ∧ t.panel.locals = []
      ∧ Raised Ev.PNL_KEYSWITCH 0xCC 0 s t
      ∧ ∀ p ∈ s.panel.locals, Raised Ev.PNL_LOCAL_RELEASED 0xCC (w32 (p.kind + 4 * p.index + 16777216)) s t) := by
  have e : exec (.pnlKeyswitch false) s = .next (endLocals 1 .panel (fun _ => true) (switched false s)) :=
    congrArg Host.Outcome.next ((if_pos powered).trans (keySwitch_changed on))
  refine ⟨_, e, ?_, ?_, raised_mid (.refl s) (switched_raised false s) (endLocals_grows ..), fun p held => ?_⟩
  · rw [endLocals_panel, switched_panel]
  · rw [endLocals_panel]
  · have released := endLocals_raised (n := 1) (o := .panel) (s := switched false s) (p := p)
      (by rw [switched_panel]; exact held)
    exact raised_mid (switched_grows false s) released (.refl _)

theorem switch_faults (powered : s.mod.domains.getLsbD 11 = true) (sound : s.panel.keyFault = false) :
    Completes .pnlKeyswitchFault s (fun t => t.panel.keyOn = false ∧ t.panel.keyFault = true
      ∧ (s.panel.keyOn = true → t.panel.locals = []) ∧ Raised Ev.PNL_KEYSWITCH_FAULT 0xCC 0 s t) := by
  have e : exec .pnlKeyswitchFault s = .next (raiseN Ev.PNL_KEYSWITCH_FAULT 0xCC 0
      ((keySwitch false s).setPanel (fun p => { p with keyFault := true }))) :=
    congrArg Host.Outcome.next ((if_pos powered).trans (if_neg (by simp [sound])))
  have fault (u : State) (grown : Grows s u) : Raised Ev.PNL_KEYSWITCH_FAULT 0xCC (w32 0) s
      (raiseN Ev.PNL_KEYSWITCH_FAULT 0xCC 0 (u.setPanel (fun p => { p with keyFault := true }))) := by
    have marked : Grows s (u.setPanel (fun p => { p with keyFault := true })) := grown.trans (.of_eq rfl)
    exact raised_of_growsN marked ..
  refine ⟨_, e, ?_⟩
  beta_reduce
  rw [raiseN_panel, setPanel_panel]
  by_cases on : s.panel.keyOn = true
  · have off := keySwitch_changed (on := false) on
    have panel : (keySwitch false s).panel = { s.panel with keyOn := false, keyFault := false, locals := [] } := by
      rw [off, if_neg (by decide), endLocals_panel, switched_panel]
    have grown : Grows s (keySwitch false s) := by
      rw [off, if_neg (by decide)]
      exact (switched_grows false s).trans (endLocals_grows ..)
    rw [panel]
    exact ⟨rfl, rfl, fun _ => rfl, fault _ grown⟩
  · have same : keySwitch false s = s.setPanel (fun p => { p with keyFault := false }) := if_pos (by simpa using on)
    refine ⟨?_, rfl, fun h => absurd h on, fault _ ?_⟩
    · rw [same]
      simpa using on
    · rw [same]
      exact .of_eq rfl

/-! ### Taking and releasing -/

/-- A point has joined the held ones; its output or axis follows. -/
def held (p : LocalPt) (s : State) : State :=
  s.setPanel (fun x =>
    { x with
      locRes := 0, locals := x.locals ++ [p]
      takenAt := (p, operSecs s) :: x.takenAt.filter (fun q => q.1 != p) })
/-- What taking a point asks of its output or axis. -/
def suspended (p : LocalPt) (s : State) : State :=
  if p.kind = 2 then wdSuspend (s.lay p.index).ref s
  else if p.kind = 1 then s.setAxis p.index (fun x => { x with panelTgt := none }) else s

theorem suspended_view (p : LocalPt) (s : State) :
    view (P.chs ||| P.points ||| P.axes) (suspended p s) = view (P.chs ||| P.points ||| P.axes) s :=
  view_ite (wdSuspend_view (by decide) ..) (view_ite (setAxis_view (by decide) ..) rfl)

theorem takePoint_takes {p : LocalPt} (free : takeCode s p = 0) (new : p ∉ s.panel.locals) :
    takePoint p s = raise Ev.PNL_LOCAL_TAKEN 0xCC (w32 (p.kind + 4 * p.index)) .panel (suspended p (held p s)) := by
  rw [takePoint]
  simp only [free]
  exact if_neg (by simp [new])

theorem point_taken {kind : Fin 3} {i : Nat} (run : s.fnState .panel = .run)
    (free : takeCode s { kind := kind, index := i } = 0) (new : { kind := kind, index := i } ∉ s.panel.locals) :
    Completes (.take kind i) s (fun t => t.panel.locals = s.panel.locals ++ [{ kind := kind, index := i }]
      ∧ t.panel.locRes = 0 ∧ Raised Ev.PNL_LOCAL_TAKEN 0xCC (w32 (kind + 4 * i)) s t) := by
  obtain ⟨v, panel, inbox, e⟩ : ∃ v : State, v.panel = (held { kind := kind, index := i } s).panel
      ∧ v.recd.inbox = s.recd.inbox
      ∧ exec (.take kind i) s = .next (raise Ev.PNL_LOCAL_TAKEN 0xCC (w32 (kind + 4 * i)) .panel v) := by
    refine ⟨_, ?_, ?_, congrArg Host.Outcome.next ((if_pos (by simp [State.running, run])).trans
      (takePoint_takes free new))⟩
    · exact panel_of_view (suspended_view ..) (by decide)
    · exact (inbox_of_view (suspended_view ..) (by decide)).trans rfl
  refine ⟨_, e, ?_, ?_, raised_of_grows (.of_eq inbox) ..⟩ <;> rw [raise_panel, panel] <;> rfl

theorem take_refused {kind : Fin 3} {i : Nat} (run : s.fnState .panel = .run)
    (refused : takeCode s { kind := kind, index := i } ≠ 0) :
    Completes (.take kind i) s (fun t =>
      t = { s with panel := { s.panel with locRes := takeCode s { kind := kind, index := i } } }) := by
  have e : exec (.take kind i) s
      = .next (s.setPanel (fun x => { x with locRes := takeCode s { kind := kind, index := i } })) :=
    congrArg Host.Outcome.next ((if_pos (by simp [State.running, run])).trans (if_pos (by simp [refused])))
  exact ⟨_, e, rfl⟩

theorem point_released {kind : Fin 4} {i : Nat} (run : s.fnState .panel = .run) (one : kind ≠ 3)
    (held : { kind := kind, index := i } ∈ s.panel.locals) :
    Completes (.localRelease kind i) s (fun t =>
      t.panel.locals = s.panel.locals.filter (fun q => q != { kind := kind, index := i })
        ∧ Raised Ev.PNL_LOCAL_RELEASED 0xCC (w32 (kind + 4 * i)) s t) := by
  have e : exec (.localRelease kind i) s = .next (endLocal 0 .panel { kind := kind.val, index := i } s) := by
    refine congrArg Host.Outcome.next ?_
    rw [if_neg (by simp [State.running, run]), if_neg (show ¬ kind.val = 3 from fun h => one (Fin.ext h))]
  exact ⟨_, e, congrArg PanelSt.locals (endLocal_panel ..), endLocal_raised held⟩

theorem all_released {i : Nat} (run : s.fnState .panel = .run) :
    Completes (.localRelease 3 i) s (fun t => t.panel.locals = []) := by
  have e : exec (.localRelease 3 i) s = .next (endLocals 0 .panel (fun _ => true) s) :=
    congrArg Host.Outcome.next ((if_neg (by simp [State.running, run])).trans (if_pos rfl))
  exact ⟨_, e, congrArg PanelSt.locals (endLocals_panel ..)⟩

/-- A local ON writes the entry, which the stage then follows. -/
theorem output_on {g p i : Nat} {k : LocalCfg} (run : s.fnState .panel = .run)
    (held : { kind := 2, index := i } ∈ s.panel.locals) (cfg : localCfg s { kind := 2, index := i } = some k)
    (ref : (s.lay i).ref = .doOut g p) :
    Completes (.pnlLocalCmd 2 i .on) s (fun t => piRaw t i = { val := 1, q := qGood }
      ∧ Raised Ev.PNL_LOCAL_CMD 0xCC (w32 (2 + 4 * i + 16777216 * (Config.localCmdCode .on).toNat)) s t) := by
  have e : exec (.pnlLocalCmd 2 i .on) s = .next (raise Ev.PNL_LOCAL_CMD 0xCC
      (w32 (2 + 4 * i + 16777216 * (Config.localCmdCode .on).toNat)) .panel
      (driveDo g p (s.setPi i { val := 1, q := qGood }))) := by
    refine congrArg Host.Outcome.next ((if_pos (by simp [State.running, run])).trans ?_)
    simp [localCmd, held, cfg, outLocal, ref, driveOut]
  have written : (driveDo g p (s.setPi i { val := 1, q := qGood })).pi = s.pi.put i (some { val := 1, q := qGood }) :=
    (pi_of_view (m := N.pi) (driveDo_view (by decide) ..) (by decide)).trans rfl
  have silent : (driveDo g p (s.setPi i { val := 1, q := qGood })).recd.inbox = s.recd.inbox :=
    inbox_of_view (m := P.points ||| P.pi) ((driveDo_view (by decide) ..).trans (setPi_view (by decide) ..)) (by decide)
  refine ⟨_, e, ?_, raised_of_grows (.of_eq silent) ..⟩
  rw [piRaw, raise_pi, written, Tab.look_put_self]

/-- Settles O46: each key and local command by what it writes; ending control takes its points from the held ones. -/
theorem localControl : Obligations.LocalControl := by
  unfold Obligations.LocalControl
  exact ⟨fun _ _ _ keys key page => pageKey_shows keys key page, fun _ _ _ keys key => selectKey_selects keys key,
    fun _ drives => systemKey_toggles drives, fun _ powered off => switch_on powered off,
    fun _ powered on => switch_off powered on, fun _ powered sound => switch_faults powered sound,
    fun _ _ _ run free new => point_taken run free new, fun _ _ _ run refused => take_refused run refused,
    fun _ _ _ run one held => point_released run one held, fun _ _ run => all_released run,
    fun _ _ _ _ _ run held cfg ref => output_on run held cfg ref,
    fun _ _ _ _ keys sel last dir => steps_repeat keys sel last dir⟩

end Sys2Proof.Proofs
end

section
/-! CERTIFICATE. The instants of a power failure (19 R558; 20 R575, R577). -/

namespace Sys2Proof.Proofs

open Sys2Proof Sys2Proof.Machine Sys2Proof.Laws

variable {s : State} {a b : Nat}

theorem warning_set (up : awake s = true) (good : s.mod.warning = false) :
    Completes (.powerFailWarning a b) s (fun t =>
      t.mod.warning = true ∧ t.mod.warnAt = s.now ∧ t.mod.supplyA = a ∧ t.mod.supplyB = b
        ∧ t.recd.mirSecs = operSecs s ∧ t.recd.mirCycles = s.mod.powerCycles) := by
  let failed := s.setMod (fun m =>
    { m with supplyA := a, supplyB := b, warning := true, warnAt := s.now, windowClosed := false, below14 := false })
  let told := raiseN Ev.POWER_FAIL_WARNING 0xF8 (a % 65536 + 65536 * (b % 65536)) failed
  have e : exec (.powerFailWarning a b) s = .next (panelDischarge 0 (abandonCkpt (mirrorHeader told))) :=
    congrArg Host.Outcome.next (if_neg (by simp [up, good]))
  have after : view (P.event ||| P.panel ||| P.ckpt) (panelDischarge 0 (abandonCkpt (mirrorHeader told)))
      = view (P.event ||| P.panel ||| P.ckpt) (mirrorHeader told) :=
    (panelDischarge_view (by decide) ..).trans (abandonCkpt_view (by decide) ..)
  have mod : told.mod = failed.mod := raiseN_mod ..
  have module := (mod_of_view after (by decide)).trans mod
  have records := recRest_of_view after (by decide)
  have secs : operSecs told = operSecs failed := congrArg (fun m : ModuleSt => m.operNs / 1000000000) mod
  have cycles : told.mod.powerCycles = failed.mod.powerCycles := congrArg ModuleSt.powerCycles mod
  exact ⟨_, e, congrArg ModuleSt.warning module, congrArg ModuleSt.warnAt module, congrArg ModuleSt.supplyA module,
    congrArg ModuleSt.supplyB module,
    (congrArg RecSt.mirSecs records).trans secs, (congrArg RecSt.mirCycles records).trans cycles⟩

/-- Recording what waits touches the recorder only, and the events it raises. -/
theorem window_closes (up : awake s = true) (warned : s.mod.warning = true) (waits : s.mod.windowClosed = false) :
    Completes .eventWindowClose s (fun t => t.mod = { s.mod with windowClosed := true }) := by
  have e : exec .eventWindowClose s = .next ((recordAll s).setMod (fun m => { m with windowClosed := true })) :=
    congrArg Host.Outcome.next (if_neg (by simp [up, warned, waits]))
  have mod : (recordAll s).mod = s.mod := mod_of_view (m := N.mod) (recordAll_view (by decide) s) (by decide)
  exact ⟨_, e, congrArg (fun m : ModuleSt => { m with windowClosed := true }) mod⟩

theorem domains_shed (up : awake s = true) (warned : s.mod.warning = true) (above : s.mod.below14 = false) :
    Completes (.inputBelow14v a b) s (fun t =>
      t.mod.below14 = true ∧ t.mod.supplyA = a ∧ t.mod.supplyB = b ∧ t.mod.domains = s.mod.domains &&& 0x811#12
        ∧ t.mod.clocks = s.mod.clocks &&& 0x3011#14) := by
  have e : exec (.inputBelow14v a b) s = .next (applyDomains ((outputsOff s).setMod (fun m =>
      { m with
        supplyA := a, supplyB := b, below14 := true, domains := m.domains &&& 0x811#12
        clocks := m.clocks &&& 0x3011#14 }))) := congrArg Host.Outcome.next (if_neg (by simp [up, warned, above]))
  have off : (outputsOff s).mod = s.mod := mod_of_view (m := N.mod) (outputsOff_view (by decide) s) (by decide)
  refine ⟨_, e, ?_⟩
  beta_reduce
  rw [mod_of_view (m := N.mod) (applyDomains_view (by decide) _) (by decide), setMod_mod, off]
  exact ⟨rfl, rfl, rfl, rfl, rfl⟩

theorem store_exhausted (ends : s.mod.state = .bivouac ∨ (awake s = true ∧ s.mod.warning = true)) :
    Completes .storeExhausted s (fun t =>
      t.mod.state = .off ∧ t.mod.domains = 0 ∧ t.mod.clocks = 0 ∧ t.pair.claim = false ∧ t.pair.enabled = false
        ∧ t.recd.staging = [] ∧ t.panel.dark = true) := by
  refine ⟨_, congrArg Host.Outcome.next (if_neg ?_), rfl, rfl, rfl, rfl, rfl, rfl, rfl⟩
  rcases ends with h | ⟨h, k⟩
  · simp [h]
  · simp [h, k]

theorem power_returns (up : awake s = true) (warned : s.mod.warning = true) (above : s.mod.below14 = false) :
    Completes (.powerRestored a b) s (fun t =>
      t.mod.warning = false ∧ t.mod.warnEnded = satInc top16 s.mod.warnEnded ∧ t.mod.supplyA = a ∧ t.mod.supplyB = b
        ∧ Raised Ev.POWER_RESTORED 0xF8 (w32 ((s.now - s.mod.warnAt) / 1000000)) s t) := by
  have e : exec (.powerRestored a b) s = .next (raiseN Ev.POWER_RESTORED 0xF8 ((s.now - s.mod.warnAt) / 1000000)
      (s.setMod (fun m =>
        { m with
          supplyA := a, supplyB := b, warning := false, windowClosed := false
          warnEnded := satInc top16 m.warnEnded }))) := congrArg Host.Outcome.next (if_neg (by simp [up, warned, above]))
  refine ⟨_, e, ?_, ?_, ?_, ?_, raised_of_growsN (.of_eq rfl) ..⟩
  all_goals
    rw [raiseN_mod]
    rfl

/-- Settles O3: each instant of a power failure by what it writes. -/
theorem powerFails : Obligations.PowerFails := by
  unfold Obligations.PowerFails
  exact ⟨fun _ _ _ up good => warning_set up good, fun _ up warned waits => window_closes up warned waits,
    fun _ _ _ up warned above => domains_shed up warned above, fun _ ends => store_exhausted ends,
    fun _ _ _ up warned above => power_returns up warned above⟩

end Sys2Proof.Proofs
end

section
/-! CERTIFICATE. Supplies, the hold-up store and the internal temperature (20 R572, R573, R583). -/

namespace Sys2Proof.Proofs

open Sys2Proof Sys2Proof.Machine Sys2Proof.Laws

variable {s : State}

/-- An event raised over a write of the module function. -/
theorem completes_raised {c : Instr} {m : ModuleSt} {k : EvKind} {src d : Nat} (e : exec c s = .next (raiseN k src d { s with mod := m })) :
    Completes c s (fun t => t.mod = m ∧ Raised k src (w32 d) s t) :=
  ⟨_, e, raiseN_mod .., raised_of_growsN (.of_eq rfl) ..⟩

/-- The second of two such events. -/
theorem completes_raised_second {c : Instr} {m : ModuleSt} {k l : EvKind} {src d src' d' : Nat}
    (e : exec c s = .next (raiseN k src d (raiseN l src' d' { s with mod := m }))) :
    Completes c s (fun t => t.mod = m ∧ Raised k src (w32 d) s t) := by
  have grown : Grows s (raiseN l src' d' { s with mod := m }) := (grows_raiseN ..).from_eq rfl
  exact ⟨_, e, by rw [raiseN_mod, raiseN_mod], raised_of_growsN grown ..⟩

/-- An input is lost while the other is good, and returns. -/
theorem supplies_marked (mv : Nat) (up : awake s = true) :
    (s.mod.lostA = false → 18000 ≤ s.mod.supplyB →
      Completes (.supplyLost false mv) s (fun t =>
        t.mod = { s.mod with supplyA := mv, lostA := true } ∧ Raised Ev.SUPPLY_LOST 0xF8 0 s t))
    ∧ (s.mod.lostB = false → 18000 ≤ s.mod.supplyA →
      Completes (.supplyLost true mv) s (fun t =>
        t.mod = { s.mod with supplyB := mv, lostB := true } ∧ Raised Ev.SUPPLY_LOST 0xF8 1 s t))
    ∧ (s.mod.lostA = true →
      Completes (.supplyOk false mv) s (fun t =>
        t.mod = { s.mod with supplyA := mv, lostA := false } ∧ Raised Ev.SUPPLY_OK 0xF8 0 s t))
    ∧ (s.mod.lostB = true →
      Completes (.supplyOk true mv) s (fun t =>
        t.mod = { s.mod with supplyB := mv, lostB := false } ∧ Raised Ev.SUPPLY_OK 0xF8 1 s t)) := by
  refine ⟨fun sound good => completes_raised (congrArg Host.Outcome.next ?_),
    fun sound good => completes_raised (congrArg Host.Outcome.next ?_),
    fun lost => completes_raised (congrArg Host.Outcome.next ?_),
    fun lost => completes_raised (congrArg Host.Outcome.next ?_)⟩
  · rw [supplyLost, if_neg (by simp [up])]
    exact if_neg (by simp [lostOf, sound, good])
  · rw [supplyLost, if_neg (by simp [up])]
    exact if_neg (by simp [lostOf, sound, good])
  · rw [supplyOk, if_neg (by simp [up])]
    exact if_pos lost
  · rw [supplyOk, if_neg (by simp [up])]
    exact if_pos lost

theorem store_low {charge : Nat} (up : awake s = true) (good : s.mod.storeGood = true) (low : charge < 100) :
    Completes (.holdupLow charge) s (fun t =>
      t.mod = { s.mod with charge := charge, storeGood := false } ∧ Raised Ev.HOLDUP_LOW 0xF8 (w32 charge) s t) := by
  refine completes_raised (congrArg Host.Outcome.next ?_)
  have kept : min 255 charge = charge := Nat.min_eq_right (by omega)
  simp [holdupLow, up, good, low, raiseIf, kept, Nat.not_le.2 low, State.setMod]

theorem store_good {charge : Nat} (up : awake s = true) (high : 100 ≤ charge) :
    Completes (.holdUpStoreGood charge) s
      (fun t => t = { s with mod := { s.mod with charge := min 255 charge, storeGood := true } }) := by
  refine ⟨_, congrArg Host.Outcome.next (if_neg (by simp [up])), ?_⟩
  simp [State.setMod, high]

/-- Writing a flag as it stands changes nothing. -/
theorem same_overTempCrit {m : ModuleSt} (h : m.overTempCrit = false) : { m with overTempCrit := false } = m := by
  rw [← h]
theorem same_overTemp {m : ModuleSt} (h : m.overTemp = false) : { m with overTemp := false } = m := by
  rw [← h]

/-- From no warning, the two thresholds divide what a temperature does. -/
theorem temperature_read {c : Int} (up : awake s = true) (noCrit : s.mod.overTempCrit = false) (noWarn : s.mod.overTemp = false) :
    (c < 1000 → Completes (.temperatureRead c) s
      (fun t => t = { s with mod := { s.mod with temp := c, tempMax := max s.mod.tempMax c } }))
    ∧ (1000 ≤ c → c < 1150 → Completes (.temperatureRead c) s (fun t =>
        t.mod = { s.mod with temp := c, tempMax := max s.mod.tempMax c, overTemp := true }
          ∧ Raised Ev.OVER_TEMP 0xF9 (w32 (s32 c)) s t))
    ∧ (1150 ≤ c → Completes (.temperatureRead c) s (fun t =>
        t.mod = { s.mod with temp := c, tempMax := max s.mod.tempMax c, overTemp := true, overTempCrit := true }
          ∧ Raised Ev.OVER_TEMP_CRITICAL 0xF9 (w32 (s32 c)) s t)) := by
  have read (high crit : Bool) (h : decide (1000 ≤ c) = high) (k : decide (1150 ≤ c) = crit) :
      temperatureRead c s = raiseIf crit Ev.OVER_TEMP_CRITICAL 0xF9 (s32 c) (raiseIf high Ev.OVER_TEMP 0xF9 (s32 c)
        { s with mod := { s.mod with temp := c, tempMax := max s.mod.tempMax c, overTemp := high, overTempCrit := crit } }) := by
    simp [temperatureRead, up, noCrit, noWarn, h, k, raiseIf, State.setMod]
  refine ⟨fun low => ?_, fun warm low => ?_, fun hot => ?_⟩
  · refine ⟨_, congrArg Host.Outcome.next (read false false (decide_eq_false (by omega)) (decide_eq_false (by omega))), ?_⟩
    have same : { s.mod with temp := c, tempMax := max s.mod.tempMax c, overTemp := false, overTempCrit := false }
        = { s.mod with temp := c, tempMax := max s.mod.tempMax c } :=
      (same_overTempCrit (m := { s.mod with temp := c, tempMax := max s.mod.tempMax c, overTemp := false }) noCrit).trans
        (same_overTemp (m := { s.mod with temp := c, tempMax := max s.mod.tempMax c }) noWarn)
    exact congrArg (fun m => { s with mod := m }) same
  · refine completes_raised (congrArg Host.Outcome.next ?_)
    have same := same_overTempCrit
      (m := { s.mod with temp := c, tempMax := max s.mod.tempMax c, overTemp := true }) noCrit
    exact (read true false (decide_eq_true warm) (decide_eq_false (by omega))).trans
      (congrArg (fun m => raiseN Ev.OVER_TEMP 0xF9 (s32 c) { s with mod := m }) same)
  · exact completes_raised_second (congrArg Host.Outcome.next
      (read true true (decide_eq_true (by omega)) (decide_eq_true hot)))

/-- Settles O4: each measured value by the flags and events that its thresholds give. -/
theorem suppliesAndTemperature : Obligations.SuppliesAndTemperature := by
  unfold Obligations.SuppliesAndTemperature
  exact ⟨fun _ mv up => supplies_marked mv up, fun _ _ up good low => store_low up good low,
    fun _ _ up high => store_good up high, fun _ _ up noCrit noWarn => temperature_read up noCrit noWarn⟩

end Sys2Proof.Proofs
end

section
/-! CERTIFICATE. The clock monitor and a lost clock (20 R581, R582). -/

namespace Sys2Proof.Proofs

open Sys2Proof Sys2Proof.Machine Sys2Proof.Laws

variable {s : State}

theorem window_counted {ppm : Int} (up : awake s = true) :
    Completes (.clockMonitorWindow ppm) s (fun t =>
      t.mod.clkDev = ppm ∧ (200 < ppm.natAbs → t.mod.okRun = 0 ∧ t.mod.driftRun = min 1000 (s.mod.driftRun + 1))
        ∧ (ppm.natAbs ≤ 200 → t.mod.driftRun = 0 ∧ t.mod.okRun = min 1000 (s.mod.okRun + 1)
            ∧ (999 ≤ s.mod.okRun → t.mod.drift = false))) := by
  refine ⟨_, congrArg Host.Outcome.next (if_neg (by simp [up])), rfl, fun beyond => ?_, fun within => ?_⟩
  · have out : ¬ ppm.natAbs ≤ 200 := Nat.not_le.2 beyond
    simp [State.setMod, out]
  · refine ⟨by simp [State.setMod, within], by simp [State.setMod, within], fun long => ?_⟩
    have full : min 1000 (s.mod.okRun + 1) = 1000 := Nat.min_eq_left (by omega)
    simp [State.setMod, within, full]

theorem drift_raised {ppm : Int} (up : awake s = true) (first : s.mod.drift = false) (beyond : 200 < ppm.natAbs) :
    Completes (.clockDrift ppm) s (fun t =>
      t.mod.drift = true ∧ t.mod.clkDev = ppm ∧ Raised Ev.CLOCK_DRIFT 0xF8 (w32 (s32 ppm)) s t) := by
  have e : exec (.clockDrift ppm) s = .next (raiseN Ev.CLOCK_DRIFT 0xF8 (s32 ppm)
      (s.setMod (fun m => { m with clkDev := ppm, drift := true, okRun := 0 }))) :=
    congrArg Host.Outcome.next (if_neg (by simp [up, first, beyond]))
  exact ⟨_, e, by rw [raiseN_mod]; rfl, by rw [raiseN_mod]; rfl, raised_of_growsN (.of_eq rfl) ..⟩

theorem fault_holds {ppm : Int} (up : awake s = true) (beyond : 20000 < ppm.natAbs) (noTest : s.mod.state ≠ .selfTest)
    (noHold : s.mod.state ≠ .hold) :
    Completes (.clockFault ppm) s (fun t =>
      t.mod.state = .hold ∧ t.mod.hold = .clockMonitor ∧ t.mod.clkDev = ppm ∧ t.mod.imageValid = false) := by
  have e : exec (.clockFault ppm) s = .next (enterHold .clockMonitor (raiseN Ev.CLOCK_FAULT 0xF8 (s32 ppm)
      (s.setMod (fun m => { m with clkDev := ppm })))) := by
    refine congrArg Host.Outcome.next ((if_neg (by simp [up, beyond])).trans ?_)
    dsimp only
    split
    next h => exact absurd h noTest
    next h => exact absurd h noHold
    next => rfl
  refine ⟨_, e, ?_⟩
  beta_reduce
  rw [enterHold_mod, raiseN_mod]
  exact ⟨rfl, rfl, rfl, rfl⟩

/-! ### A lost clock -/

/-- A function that is at work. -/
def works (x : FnState) : Bool := x == .run || x == .drain || x == .standby

/-- The fault of a function other than the module, the pool and Bedrock stays in its header. -/
theorem faultFn_plain {f : Fn} {code : Nat} (hm : f ≠ .module) (hp : f ≠ .pool) (hb : f ≠ .bedrock) (t : State) :
    faultFn f code t
      = if works (t.fnState f) then t.setHdr f (fun h => { h with state := .fault, fault := code % 4096 }) else t := by
  unfold faultFn
  simp only [hb, Bool.false_eq_true, if_false, decide_false, Bool.false_and]
  unfold fnFault works
  cases t.fnState f <;> simp [hm, hp]

/-- A function on the clock `k` stops; every other one goes on. -/
def unclock (k : Nat) (f : Fn) (t : State) : State :=
  if (clocksOf f).contains k then (faultFn f 0x009 t).setHdr f (fun h => { h with clocked := false }) else t

section
variable {k : Nat} (h2 : k ≠ 2) (h4 : k ≠ 4)
include h2 h4

theorem unclock_plain (f : Fn) (t : State) : unclock k f t
    = if (clocksOf f).contains k then
        (if works (t.fnState f) then t.setHdr f (fun h => { h with state := .fault, fault := 0x009 % 4096 }) else t).setHdr f
          (fun h => { h with clocked := false })
      else t := by
  unfold unclock
  split
  next on =>
    rw [faultFn_plain]
    · rintro rfl
      exact h4 (by simpa [clocksOf] using on)
    · rintro rfl
      exact h4 (by simpa [clocksOf] using on)
    · rintro rfl
      exact h2 (by simpa [clocksOf] using on)
  next => rfl

theorem unclock_mod (f : Fn) (t : State) : (unclock k f t).mod = t.mod := by
  rw [unclock_plain h2 h4]
  split
  · split <;> rfl
  · rfl

theorem unclock_self (f : Fn) (t : State) : (unclock k f t).fnState f
    = if k ∈ clocksOf f ∧ works (t.fnState f) = true then .fault else t.fnState f := by
  rw [unclock_plain h2 h4]
  by_cases on : k ∈ clocksOf f
  · by_cases work : works (t.fnState f) = true
    · simp [on, work]
    · simp only [List.contains_eq_mem, on, work, decide_true, if_true, Bool.false_eq_true, if_false, true_and,
        setHdr_fnState_self]
      rfl
  · simp [on]

theorem unclock_other {f g : Fn} (other : g ≠ f) (t : State) : (unclock k f t).fnState g = t.fnState g := by
  rw [unclock_plain h2 h4]
  split
  · split <;> simp [setHdr_fnState_other, other]
  · rfl

end

theorem clock_lost {k : Fin 14} (up : awake s = true) (h0 : k.val ≠ 0) (h2 : k.val ≠ 2)
    (runs : s.mod.clocks.getLsbD k = true) (h4 : k.val ≠ 4) :
    Completes (.clockLost k) s (fun t =>
      t.mod = { s.mod with clocks := s.mod.clocks &&& ~~~(1#14 <<< k.val) }
        ∧ ∀ f ∈ allFns, t.fnState f =
            if k.val ∈ clocksOf f ∧ (s.fnState f = .run ∨ s.fnState f = .drain ∨ s.fnState f = .standby) then .fault
            else s.fnState f) := by
  let told := raiseN Ev.CLOCK_LOST 0xF8 k (s.setMod (fun m => { m with clocks := m.clocks &&& ~~~(1#14 <<< k.val) }))
  have e : exec (.clockLost k) s = .next (forAll allFns (unclock k) told) :=
    congrArg Host.Outcome.next (if_neg (by simp [up, h0, h2, runs]))
  have mod : (forAll allFns (unclock k) told).mod = told.mod := forAll_keeps State.mod (unclock_mod h2 h4) told
  have state (f : Fn) := forAll_fnState (F := fun f x => if k.val ∈ clocksOf f ∧ works x = true then .fault else x)
    (fun f t g other => unclock_other h2 h4 other t) (fun f t => unclock_self h2 h4 f t) allFns told (by decide) f
  have before (f : Fn) : told.fnState f = s.fnState f := raiseN_fnState ..
  refine ⟨_, e, mod.trans (raiseN_mod ..), fun f listed => ?_⟩
  rw [state f, if_pos listed, before]
  exact if_congr (by simp [works, or_assoc]) rfl rfl

/-- Settles O5: the runs of windows by their thresholds, and a lost clock function by function. -/
theorem clocks : Obligations.Clocks := by
  unfold Obligations.Clocks
  exact ⟨fun _ _ up => window_counted up, fun _ _ up first beyond => drift_raised up first beyond,
    fun _ _ up beyond noTest noHold => fault_holds up beyond noTest noHold,
    fun _ _ up h0 h2 runs h4 => clock_lost up h0 h2 runs h4⟩

end Sys2Proof.Proofs
end

section
/-! CERTIFICATE. Bivouac: the request and the entry (20 R586, R588). -/

namespace Sys2Proof.Proofs

open Sys2Proof Sys2Proof.Machine Sys2Proof.Laws

variable {s u : State}

theorem bivAccept_mod (timer : Nat) (s : State) :
    (bivAccept timer s).mod = { s.mod with bivStage := .accepted, bivRequestTimer := timer } := by
  unfold bivAccept
  dsimp only
  split <;> rfl
theorem bivAccept_replies (timer : Nat) (s : State) : (bivAccept timer s).mmp.replies = s.mmp.replies := by
  unfold bivAccept
  dsimp only
  split <;> rfl

theorem bivouac_accepted {m : Msg} {q : Req} (accepted : Accepted m 0x0E .engineer q s u) (long : 8 ≤ q.payload.length)
    (enter : leAt q.payload 0 1 = 0) (idle : u.mod.bivStage = .none) (timed : 0 < leAt q.payload 4 4)
    (passes : bivCheck u (leAt q.payload 4 4) = 0) :
    Completes (.bivouac m) s (fun t =>
      t.mod = { s.mod with bivStage := .accepted, bivRequestTimer := leAt q.payload 4 4 } ∧ Replied q .ok u t) := by
  have e : exec (.bivouac m) s = .next (answer q .ok (bivAccept (leAt q.payload 4 4) u)) := by
    refine congrArg Host.Outcome.next ((accepted_sized accepted long _).trans ?_)
    have timer : leAt q.payload 4 4 ≠ 0 := Nat.pos_iff_ne_zero.1 timed
    simp [bivouacMsg, enter, idle, timer, passes]
  have mod : u.mod = s.mod := mod_of_view (accepted_view accepted (v := N.mod) (by decide)) (by decide)
  refine ⟨_, e, ?_, replied_answer q .ok (bivAccept_replies ..)⟩
  rw [mod_of_view (m := N.mod) (answer_view (by decide) ..) (by decide), bivAccept_mod, mod]

theorem bivouac_requested {v : Nat} (some' : v ≠ 0) (valued : v ≠ 0xFFFFFFFF) (run : s.running .logic = true)
    (idle : s.mod.bivStage = .none) (passes : bivCheck s v = 0) :
    Completes (.bivouacRequest v) s (fun t => t.mod = { s.mod with bivStage := .accepted, bivRequestTimer := v }) := by
  have e : exec (.bivouacRequest v) s = .next (bivAccept v s) := by
    refine congrArg Host.Outcome.next ((if_neg (by simp [some', run, idle])).trans ?_)
    simp [valued, passes]
  exact ⟨_, e, bivAccept_mod v s⟩

/-- The entry switches off, records and takes the module and the pair to bivouac; ports and lines follow. -/
theorem enterBivouac_enters (timer : Nat) (noWake : s.mod.bivWakeLatched = none) :
    let t := enterBivouac timer s
    t.mod = { s.mod with
      state := .bivouac, domains := 0x041#12, clocks := 0x0001#14, bivCount := wrap32 (s.mod.bivCount + 1), siltTimer := timer
      bivStage := .none, bivRequestTimer := 0, bivWakeLatched := none } ∧ t.pair.claim = false := by
  unfold enterBivouac
  dsimp only
  rw [noWake]
  dsimp only
  generalize hv : recordAll (raiseN Ev.BIVOUAC_ENTERED 0xF8 timer (outputsOff (panelDischarge 1 (forRange 4 canSleep s)))) = v
  have before : v.mod = s.mod := by
    rw [← hv]
    refine mod_of_view (m := N.mod) ?_ (by decide)
    rw [recordAll_view (by decide), raiseN_view (by decide), outputsOff_view (by decide), panelDischarge_view (by decide)]
    exact view_forRange (fun c t => canSleep_view (by decide) c t) s
  generalize hw : (v.setMod _).setPair _ = w
  have after : view (N.mod &&& N.pair) (forAll [Port.a, Port.b] (fun p => setPort p (fun y =>
      { y with up := false, speed := 0, supOk := false, supAt := none })) (applyDomains w)) = view (N.mod &&& N.pair) w :=
    (view_forAll (fun p t => setPort_view (by decide) ..) _).trans (applyDomains_view (by decide) w)
  rw [mod_of_view after (by decide), pair_of_view after (by decide), ← hw, ← before]
  exact ⟨rfl, rfl⟩

theorem bivouac_entered (run : s.mod.state = .run) (armed : wakeArmed s = true) (noWake : s.mod.bivWakeLatched = none) :
    Completes .bivouacEntered s (fun t =>
      t.mod.state = .bivouac ∧ t.mod.siltTimer = s.mod.bivRequestTimer ∧ t.mod.bivCount = wrap32 (s.mod.bivCount + 1)
        ∧ t.mod.bivStage = .none ∧ t.mod.domains = 0x041#12 ∧ t.mod.clocks = 0x0001#14 ∧ t.pair.claim = false) := by
  obtain ⟨mod, claim⟩ := enterBivouac_enters s.mod.bivRequestTimer noWake
  refine ⟨_, congrArg Host.Outcome.next (if_pos (by simp [run, armed])), ?_⟩
  beta_reduce
  rw [mod]
  exact ⟨rfl, rfl, rfl, rfl, rfl, rfl, claim⟩

theorem standby_follows {timer : Nat} (standby : s.mod.state = .standby) (noWake : s.mod.bivWakeLatched = none) :
    Completes (.guyLineBivouacRequest timer) s (fun t =>
      t.mod.state = .bivouac ∧ t.mod.siltTimer = timer ∧ t.mod.bivCount = wrap32 (s.mod.bivCount + 1)
        ∧ t.mod.domains = 0x041#12 ∧ t.mod.clocks = 0x0001#14 ∧ t.pair.claim = false) := by
  obtain ⟨mod, claim⟩ := enterBivouac_enters timer noWake
  refine ⟨_, congrArg Host.Outcome.next (if_pos (by simp [standby])), ?_⟩
  beta_reduce
  rw [mod]
  exact ⟨rfl, rfl, rfl, rfl, rfl, claim⟩

/-- Settles O8: a request is accepted by its checks, and an entry writes module and pair before ports and lines. -/
theorem bivouac : Obligations.Bivouac := by
  unfold Obligations.Bivouac
  exact ⟨fun _ _ _ _ accepted long enter idle timed passes => bivouac_accepted accepted long enter idle timed passes,
    fun _ _ some' valued run idle passes => bivouac_requested some' valued run idle passes,
    fun _ run armed noWake => bivouac_entered run armed noWake, fun _ _ standby noWake => standby_follows standby noWake⟩

end Sys2Proof.Proofs
end

section
/-! SUPPORT. Folding, staging and committing one event (19 R554, R559–R561, R566). -/

namespace Sys2Proof.Laws

open Sys2Proof Sys2Proof.Machine

variable {s : State}

/-! ### One event reaches the recorder -/

/-- An event of class 5 folds into no record. -/
theorem folds_class5 {e : Event} (h : e.code / 4096 = 5) (s : State) (r : Rec) : folds s e r = false := by
  simp [folds, h]

theorem foldEvent_class5 {e : Event} (h : e.code / 4096 = 5) (s : State) : foldEvent e s = none := by
  unfold foldEvent
  split
  · simp [folds_class5 h]
  · split
    · simp [folds_class5 h]
    · rfl

/-- The oldest event of the inbox leaves it on its way to the recorder. -/
def taken (r : List Event) (s : State) : State := s.setRec (fun x => { x with inbox := r })

theorem recordNext_taken {e : Event} {r : List Event} (h : s.recd.inbox = e :: r) :
    recordNext s = recordOne e (taken r s) := by
  rw [recordNext, h]
  rfl

theorem recordOne_stages {e : Event} (window : pastWindow s e = false) (class5 : e.code / 4096 = 5)
    (room : s.recd.staging.length < stagingSize) : recordOne e s = stageEvent e s := by
  rw [recordOne, window, foldEvent_class5 class5]
  exact if_neg (Nat.not_le.2 room)

theorem recordOne_loses {e : Event} (window : pastWindow s e = false) (class5 : e.code / 4096 = 5)
    (full : stagingSize ≤ s.recd.staging.length) : recordOne e s = loseEvent true s := by
  rw [recordOne, window, foldEvent_class5 class5]
  exact if_pos full

theorem updLast_append (f : Rec → Rec) (l : List Rec) (k : Rec) : updLast f (l ++ [k]) = l ++ [f k] := by
  simp [updLast]

theorem recordOne_folds {e : Event} {l : List Rec} {k : Rec} (window : pastWindow s e = false)
    (staged : s.recd.staging = l ++ [k]) (noClear : s.recd.clearWaits = none) (fits : folds s e k = true) :
    recordOne e s = s.setRec (fun x => { x with staging := updLast (foldIn e) x.staging }) := by
  have last : s.recd.staging.getLast? = some k := by rw [staged]; simp
  have folded : foldEvent e s = some (s.setRec (fun x => { x with staging := updLast (foldIn e) x.staging })) := by
    rw [foldEvent, last]
    simp [noClear, fits]
  rw [recordOne, window, folded]
  rfl

/-! ### One record is committed -/

theorem auditWrap_same {n : Nat} (h : s.recd.auditOverwritten = n) : auditWrap n s = s := by
  simp [auditWrap, h, raiseIf]

theorem commitRec_plain {r : Rec} (whole : r.lostBefore = false) (other : r.ev.code / 4096 ≠ 5) :
    commitRec r s = writeRing r s := by
  have written : writeAudit r (writeRing r s) = writeRing r s := if_pos (by simp [other])
  simp only [commitRec, whole, written, Bool.false_eq_true, if_false]
  exact auditWrap_same rfl

/-- A class 5 record joins the audit region too, whose older records stay while there is room. -/
theorem commitRec_audit {r : Rec} (whole : r.lostBefore = false) (class5 : r.ev.code / 4096 = 5)
    (room : s.recd.auditRing.length < auditSize) :
    commitRec r s = (writeRing r s).setRec (fun x =>
      { x with
        auditRing := { r with seq := x.auditNext, audit := true } :: x.auditRing
        auditNext := wrap32 (x.auditNext + 1) }) := by
  have fits : (({ r with seq := s.recd.auditNext, audit := true } : Rec) :: s.recd.auditRing).take auditSize
      = { r with seq := s.recd.auditNext, audit := true } :: s.recd.auditRing :=
    List.take_of_length_le (by simpa using room)
  have written : writeAudit r (writeRing r s) = (writeRing r s).setRec (fun x =>
      { x with
        auditRing := { r with seq := x.auditNext, audit := true } :: x.auditRing
        auditNext := wrap32 (x.auditNext + 1) }) := by
    have notFull : ¬ auditSize ≤ s.recd.auditRing.length := Nat.not_le.2 room
    simp [writeAudit, class5, writeRing, State.setRec, notFull, fits]
  simp only [commitRec, whole, written, Bool.false_eq_true, if_false]
  exact auditWrap_same rfl

/-- Without a clear that waits, a commit of one staged record writes it. -/
theorem commitAll_one {r : Rec} (noClear : s.recd.clearWaits = none) (staged : s.recd.staging = [r]) :
    commitAll s = commitRec r (s.setRec (fun x => { x with staging := [] })) := by
  simp [commitAll, noClear, staged, clearNow, State.setRec]

/-- With nothing staged, a commit carries out the clear that waits. -/
theorem commitAll_clears (empty : s.recd.staging = []) :
    commitAll s = clearNow (s.setRec (fun x => { x with staging := [] })) := by
  simp [commitAll, empty]

/-! ### The recorder's own events -/

theorem raiseOwn_recRest (k : EvKind) (d : Nat) (o : Origin) (s : State) :
    { (raiseOwn k d o s).2.recd with inbox := [] } = { s.recd with inbox := [] } :=
  recRest_of_view (m := P.event) (deliver_view (by decide) k (mkEvent k 0xCF (w32 d) o s) s) (by decide)

/-- Writing to the audit region leaves the event ring. -/
theorem writeAudit_ring (r : Rec) (s : State) : (writeAudit r s).recd.ring = s.recd.ring
    ∧ (writeAudit r s).recd.next = s.recd.next ∧ (writeAudit r s).recd.oldest = s.recd.oldest
    ∧ (writeAudit r s).recd.clearWaits = s.recd.clearWaits := by
  unfold writeAudit
  split <;> exact ⟨rfl, rfl, rfl, rfl⟩

theorem auditWrap_recRest (n : Nat) (s : State) :
    { (auditWrap n s).recd with inbox := [] } = { s.recd with inbox := [] } :=
  recRest_of_view (m := P.event) (auditWrap_view (by decide) n s) (by decide)

/-- The first record after a sequence that becomes the oldest leaves it the oldest. -/
theorem writeRing_oldest {r : Rec} (first : s.recd.oldest = s.recd.next) : (writeRing r s).recd.oldest = s.recd.next := by
  have one : seqDiff (wrap32 (s.recd.next + 1)) s.recd.next = 1 := by
    unfold seqDiff wrap32
    omega
  simp [writeRing, State.setRec, first, one, ringSize]

/-- The clear hides what stood there and writes its own record as the first visible one. -/
theorem clearNow_clears {o : Origin} (waits : s.recd.clearWaits = some o) :
    (clearNow s).recd.clearWaits = none ∧ (clearNow s).recd.oldest = s.recd.next
      ∧ (clearNow s).recd.next = wrap32 (s.recd.next + 1)
      ∧ ∃ r : Rec, (clearNow s).recd.ring.head? = some r ∧ r.seq = s.recd.next ∧ r.ev.code = Ev.REC_CLEARED.code
          ∧ r.ev.origin = o ∧ r.ev.data = w32 (seqDiff s.recd.next s.recd.oldest) := by
  rw [clearNow, waits]
  dsimp only
  generalize hp : raiseOwn Ev.REC_CLEARED (seqDiff s.recd.next s.recd.oldest) o
    (s.setRec (fun x => { x with clearWaits := none, clearAfter := 0, oldest := x.next })) = p
  have rest : { p.2.recd with inbox := [] } = { s.recd with clearWaits := none, clearAfter := 0, oldest := s.recd.next, inbox := [] } := by
    rw [← hp]
    exact raiseOwn_recRest ..
  have next : p.2.recd.next = s.recd.next := (congrArg RecSt.next rest :)
  have oldest : p.2.recd.oldest = s.recd.next := (congrArg RecSt.oldest rest :)
  have cleared : p.2.recd.clearWaits = none := (congrArg RecSt.clearWaits rest :)
  obtain ⟨audRing, audNext, audOldest, audWaits⟩ := writeAudit_ring { ev := p.1 } (writeRing { ev := p.1 } p.2)
  have wrap := auditWrap_recRest s.recd.auditOverwritten (writeAudit { ev := p.1 } (writeRing { ev := p.1 } p.2))
  refine ⟨?_, ?_, ?_, { ev := p.1, seq := s.recd.next }, ?_, rfl, ?_, ?_, ?_⟩
  · exact (congrArg RecSt.clearWaits wrap).trans (audWaits.trans cleared)
  · exact (congrArg RecSt.oldest wrap).trans (audOldest.trans ((writeRing_oldest (oldest.trans next.symm)).trans next))
  · refine (congrArg RecSt.next wrap).trans (audNext.trans ?_)
    exact congrArg (fun n => wrap32 (n + 1)) next
  · refine (congrArg (fun x : RecSt => x.ring.head?) wrap).trans ?_
    rw [audRing, ← next]
    rfl
  all_goals
    rw [← hp]
    rfl

end Sys2Proof.Laws
end

section
/-! CERTIFICATE. Events on their way into the recorder (19 R553–R566). -/

namespace Sys2Proof.Proofs

open Sys2Proof Sys2Proof.Machine Sys2Proof.Laws

variable {s : State} {e : Event} {r : List Event}

theorem event_staged (oldest : s.recd.inbox = e :: r) (window : pastWindow s e = false) (class5 : e.code / 4096 = 5)
    (room : s.recd.staging.length < 512) :
    Completes .recordEvent s (fun t => t.recd.inbox = r
      ∧ t.recd.staging = s.recd.staging ++ [{ ev := e, lostBefore := s.recd.lostEpisode != 0, lostN := s.recd.lostEpisode }]
      ∧ t.recd.lostEpisode = 0 ∧ t.recd.ring = s.recd.ring ∧ t.recd.lost = s.recd.lost) := by
  have staged : exec .recordEvent s = .next (stageEvent e (taken r s)) :=
    congrArg Host.Outcome.next ((recordNext_taken oldest).trans (recordOne_stages window class5 room))
  exact ⟨_, staged, rfl, rfl, rfl, rfl, rfl⟩

theorem event_folded {l : List Rec} {k : Rec} (oldest : s.recd.inbox = e :: r) (window : pastWindow s e = false)
    (staged : s.recd.staging = l ++ [k]) (noClear : s.recd.clearWaits = none) (code : e.code = k.ev.code)
    (source : e.source = k.ev.source) (data : e.data = k.ev.data) (other : e.code / 4096 ≠ 5) (room : k.rep < 65535)
    (whole : k.lostBefore = false) (soon : e.mono ≤ k.ev.mono + 1000 * repeatWindow s) :
    Completes .recordEvent s (fun t => t.recd.inbox = r
      ∧ t.recd.staging = l ++ [{ k with rep := k.rep + 1, lastOff := min 65535 ((e.mono - k.ev.mono) / 1000) }]) := by
  have fits : folds (taken r s) e k = true := by
    have window' : e.mono ≤ k.ev.mono + 1000 * repeatWindow (taken r s) := soon
    simp [folds, ← code, source, data, other, room, whole, window']
  have folded : exec .recordEvent s
      = .next ((taken r s).setRec (fun x => { x with staging := updLast (foldIn e) x.staging })) :=
    congrArg Host.Outcome.next ((recordNext_taken oldest).trans (recordOne_folds window staged noClear fits))
  refine ⟨_, folded, rfl, ?_⟩
  exact (congrArg (updLast (foldIn e)) staged).trans (updLast_append ..)

theorem event_lost (oldest : s.recd.inbox = e :: r) (window : pastWindow s e = false) (class5 : e.code / 4096 = 5)
    (full : 512 ≤ s.recd.staging.length) :
    Completes .recordEvent s (fun t => t.recd.inbox = r ∧ t.recd.staging = s.recd.staging
      ∧ t.recd.lost = satInc top32 s.recd.lost ∧ t.recd.lostEpisode = s.recd.lostEpisode + 1) := by
  have lost : exec .recordEvent s = .next (loseEvent true (taken r s)) :=
    congrArg Host.Outcome.next ((recordNext_taken oldest).trans (recordOne_loses window class5 full))
  exact ⟨_, lost, rfl, rfl, rfl, rfl⟩

section
variable {r : Rec} (commits : recorderCommits s = true)
include commits

theorem record_committed (noClear : s.recd.clearWaits = none) (staged : s.recd.staging = [r])
    (whole : r.lostBefore = false) (other : r.ev.code / 4096 ≠ 5) :
    Completes .stagingCommit s (fun t => t.recd.staging = []
      ∧ t.recd.ring = ({ r with seq := s.recd.next } :: s.recd.ring).take 90048
      ∧ t.recd.next = wrap32 (s.recd.next + 1) ∧ t.recd.auditRing = s.recd.auditRing) := by
  have written : exec .stagingCommit s = .next (writeRing r (s.setRec (fun x => { x with staging := [] }))) :=
    congrArg Host.Outcome.next ((if_pos commits).trans
      ((commitAll_one noClear staged).trans (commitRec_plain whole other)))
  exact ⟨_, written, rfl, rfl, rfl, rfl⟩

theorem audit_committed (noClear : s.recd.clearWaits = none) (staged : s.recd.staging = [r])
    (whole : r.lostBefore = false) (class5 : r.ev.code / 4096 = 5) (room : s.recd.auditRing.length < 8192) :
    Completes .stagingCommit s (fun t => t.recd.staging = []
      ∧ t.recd.ring = ({ r with seq := s.recd.next } :: s.recd.ring).take 90048
      ∧ t.recd.auditRing = { r with seq := s.recd.auditNext, audit := true } :: s.recd.auditRing
      ∧ t.recd.auditNext = wrap32 (s.recd.auditNext + 1)) := by
  have written := (commitAll_one noClear staged).trans
    (commitRec_audit (s := s.setRec (fun x => { x with staging := [] })) whole class5 room)
  exact ⟨_, congrArg Host.Outcome.next ((if_pos commits).trans written), rfl, rfl, rfl, rfl⟩

theorem clear_committed {o : Origin} (waits : s.recd.clearWaits = some o) (empty : s.recd.staging = []) :
    Completes .stagingCommit s (fun t => t.recd.clearWaits = none ∧ t.recd.oldest = s.recd.next
      ∧ t.recd.next = wrap32 (s.recd.next + 1)
      ∧ ∃ r : Rec, t.recd.ring.head? = some r ∧ r.seq = s.recd.next ∧ r.ev.code = Ev.REC_CLEARED.code ∧ r.ev.origin = o
          ∧ r.ev.data = w32 (seqDiff s.recd.next s.recd.oldest)) :=
  ⟨_, congrArg Host.Outcome.next ((if_pos commits).trans (commitAll_clears empty)),
    clearNow_clears (s := s.setRec (fun x => { x with staging := [] })) waits⟩

end

theorem clear_waits {r : Role} (role : roleAtLeast r .commission = true) :
    Completes (.recClear 0xC1EA0001#32 r) s (fun t =>
      t = { s with recd := { s.recd with clearWaits := some (.role r), clearAfter := s.recd.staging.length } }) := by
  have accepted : recClear 0xC1EA0001#32 r s
      = (.ok, s.setRec (fun x => { x with clearWaits := some (.role r), clearAfter := x.staging.length })) := by
    simp [recClear, role]
  exact ⟨_, congrArg (fun p : Status × State => Host.Outcome.next p.2) accepted, rfl⟩

/-- Settles O47: an event by what the recorder makes of it, and a commit by the records it writes. -/
theorem eventRecords : Obligations.EventRecords := by
  unfold Obligations.EventRecords
  exact ⟨fun _ _ _ oldest window class5 room => event_staged oldest window class5 room,
    fun _ _ _ _ _ oldest window staged noClear code source data other room whole soon =>
      event_folded oldest window staged noClear code source data other room whole soon,
    fun _ _ _ oldest window class5 full => event_lost oldest window class5 full,
    fun _ _ commits noClear staged whole other => record_committed commits noClear staged whole other,
    fun _ _ commits noClear staged whole class5 room => audit_committed commits noClear staged whole class5 room,
    fun _ _ role => clear_waits role, fun _ _ commits waits empty => clear_committed commits waits empty⟩

end Sys2Proof.Proofs
end

section
/-! CERTIFICATE. Reading the recorder (19 R563–R565). -/

namespace Sys2Proof.Proofs

open Sys2Proof Sys2Proof.Machine Sys2Proof.Laws

variable {m : Msg} {q : Req} {s u : State} {area : Nat}

/-- The recorder without its inbox is the same in `s` and `t`. -/
def SameRecords (s t : State) : Prop := { t.recd with inbox := [] } = { s.recd with inbox := [] }

theorem SameRecords.field {α : Type} (h : SameRecords s u) (f : RecSt → α) :
    f { u.recd with inbox := [] } = f { s.recd with inbox := [] } := congrArg f h
theorem SameRecords.part (h : SameRecords s u) (n : Nat) : regionOf u n = regionOf s n :=
  h.field (fun x => if n = 0 then (x.ring, x.next, x.oldest) else (x.auditRing, x.auditNext, x.auditOldest))
theorem SameRecords.cursor (h : SameRecords s u) (q : Req) (n : Nat) : cursorOf u q n = cursorOf s q n := by
  have cursors : u.recd.cursors = s.recd.cursors := h.field RecSt.cursors
  rw [cursorOf, cursorOf, cursors, h.part]
theorem SameRecords.visible (h : SameRecords s u) (n x : Nat) : recVisible u n x = recVisible s n x := by
  rw [recVisible, recVisible, h.part]
theorem SameRecords.record (h : SameRecords s u) (n x : Nat) : recAt u n x = recAt s n x := by
  rw [recAt, recAt, h.part]

/-- The checks of a message leave the records. -/
theorem accepted_records {ty : Nat} {need : Role} (accepted : Accepted m ty need q s u) : SameRecords s u :=
  recRest_of_view (accepted_view accepted (v := N.recRest) (by decide)) (by decide)
/-- A reply with its body. -/
theorem reply_body (q : Req) (st : Status) (body : List Byte) (s : State) : ∃ a : Reply,
    (reply q st 0 0 body s).mmp.replies = a :: s.mmp.replies ∧ a.status = st ∧ a.seq = q.seq ∧ a.body = body :=
  ⟨{ sender := q.sender, role := q.role, type := q.type, seq := q.seq, epoch := s.epoch, status := st, body := body
     unsigned := q.unsigned }, rfl, rfl, rfl, rfl⟩
theorem reply_records (st : Status) (a b : Nat) (l : List Byte) (s : State) : SameRecords s (reply q st a b l s) :=
  recRest_of_view (m := N.recRest) (reply_view (by decide) ..) (by decide)

/-- The cursor of a sender after it has been set. -/
theorem cursorOf_setCursor (v : Nat) (s : State) : cursorOf (setCursor q area v s) q area = v := by
  simp [cursorOf, setCursor, State.setRec]

/-- A reply that follows a write of the cursor. -/
theorem cursor_replied (st : Status) (a b : Nat) (l : List Byte) (v : Nat) (s : State) :
    cursorOf (reply q st a b l (setCursor q area v s)) q area = v :=
  ((reply_records ..).cursor q area).trans (cursorOf_setCursor v s)

/-! ### RECWIN -/

/-- The records of a window, from the sequence `c` on. -/
def windowBytes (s : State) (area c n : Nat) : List Byte :=
  (List.range n).flatMap (fun i => match recAt s area (wrap32 (c + i)) with | some r => recBytes r | none => [])

/-- With the cursor in place and no record that fails its check, the window starts at the cursor and ends where the
records do; twelve bytes stand before the records. -/
theorem recWindow_reads {count : Nat} (seen : recVisible u area (cursorOf u q area) = true
      ∨ cursorOf u q area = (regionOf u area).2.1) :
    ∃ head : List Byte, head.length = 12 ∧ recWindow q area count [] u
      = reply q .ok 0 0 (head ++ windowBytes u area (cursorOf u q area)
            (min count (seqDiff (regionOf u area).2.1 (cursorOf u q area))))
          (setCursor q area (wrap32 (cursorOf u q area
            + min count (seqDiff (regionOf u area).2.1 (cursorOf u q area)))) u) := by
  have placed : (recVisible u area (cursorOf u q area) || cursorOf u q area == (regionOf u area).2.1) = true := by
    simpa using seen
  simp only [recWindow, placed, if_true, List.contains_nil, List.filter_false, forAll_nil, List.flatMap_map]
  refine ⟨_, ?_, rfl⟩
  simp [length_leBytes]

theorem window_read {count : Nat} (accepted : Accepted m 8 .observe q s u) (long : 2 ≤ q.payload.length)
    (of : leAt q.payload 0 1 = area) (asks : leAt q.payload 1 1 = count) (named : area ≤ 1) (low : 1 ≤ count)
    (high : count ≤ 16)
    (seen : recVisible s area (cursorOf s q area) = true ∨ cursorOf s q area = (regionOf s area).2.1) :
    Completes (.recwin m []) s (fun t =>
      cursorOf t q area
          = wrap32 (cursorOf s q area + min count (seqDiff (regionOf s area).2.1 (cursorOf s q area)))
        ∧ ∃ a : Reply, t.mmp.replies = a :: u.mmp.replies ∧ a.status = .ok ∧ a.seq = q.seq
            ∧ a.body.drop 12 = (List.range (min count (seqDiff (regionOf s area).2.1 (cursorOf s q area)))).flatMap
                (fun i => match recAt s area (wrap32 (cursorOf s q area + i)) with | some r => recBytes r | none => [])) := by
  have same := accepted_records accepted
  rw [← same.visible, ← same.cursor, ← same.part] at seen
  obtain ⟨head, twelve, window⟩ := recWindow_reads (count := count) seen
  have e : exec (.recwin m []) s = .next (recWindow q area count [] u) := by
    refine congrArg Host.Outcome.next ((accepted_sized accepted long _).trans ?_)
    rw [recWin, of, asks]
    exact if_neg (by simp; omega)
  rw [window] at e
  have bytes : windowBytes u area = windowBytes s area := by
    funext c n
    simp only [windowBytes, same.record]
  refine ⟨_, e, ?_, ?_⟩
  · rw [cursor_replied, same.cursor, same.part]
  · obtain ⟨a, sent, status, seq, body⟩ := reply_body q .ok (head ++ windowBytes u area (cursorOf u q area)
      (min count (seqDiff (regionOf u area).2.1 (cursorOf u q area))))
      (setCursor q area (wrap32 (cursorOf u q area + min count (seqDiff (regionOf u area).2.1 (cursorOf u q area)))) u)
    refine ⟨a, sent, status, seq, ?_⟩
    rw [body, ← twelve, List.drop_left, bytes, same.cursor, same.part]
    rfl

theorem window_malformed {bad : List Nat} (accepted : Accepted m 8 .observe q s u)
    (malformed : q.payload.length < 2 ∨ 1 < leAt q.payload 0 1 ∨ leAt q.payload 1 1 < 1 ∨ 16 < leAt q.payload 1 1) :
    Completes (.recwin m bad) s (fun t => Replied q .format u t ∧ t.recd.ring = s.recd.ring) := by
  have e : exec (.recwin m bad) s = .next (answer q .format u) := by
    refine congrArg Host.Outcome.next ?_
    rw [onSized, onMessage, accepted_noted (accepted_observe accepted)]
    by_cases short : q.payload.length < 2
    · exact if_pos short
    · refine (if_neg short).trans (if_pos ?_)
      simpa [or_assoc] using malformed.resolve_left short
  have same : SameRecords s (answer q .format u) := (reply_records .format 0 0 [] u).trans (accepted_records accepted)
  exact ⟨_, e, replied_answer q .format rfl, same.field RecSt.ring⟩

/-! ### RECCURSOR -/

/-- An operation that sets the cursor is answered OK. -/
theorem cursor_set {v : Nat} (accepted : Accepted m 9 .observe q s u) (long : 8 ≤ q.payload.length)
    (sets : recCursor q u = answer q .ok (setCursor q area v u)) :
    Completes (.reccursor m) s (fun t => cursorOf t q area = v ∧ Replied q .ok u t) :=
  ⟨_, congrArg Host.Outcome.next ((accepted_sized accepted long _).trans sets), cursor_replied .ok 0 0 [] v u,
    replied_answer q .ok rfl⟩

/-- Operation 0 answers by whether its number is a place for a cursor. -/
theorem recCursor_numbered (of : leAt q.payload 0 1 = area) (named : area ≤ 1) (op : leAt q.payload 1 1 = 0) :
    recCursor q u
      = if recVisible u area (leAt q.payload 4 4) || leAt q.payload 4 4 == (regionOf u area).2.1 then
        answer q .ok (setCursor q area (leAt q.payload 4 4) u) else answer q .access u := by
  rw [recCursor, of, op]
  exact (if_neg (by simp; omega)).trans ((if_neg (by decide)).trans (if_neg (by decide)))

section
variable (accepted : Accepted m 9 .observe q s u) (long : 8 ≤ q.payload.length) (of : leAt q.payload 0 1 = area)
  (named : area ≤ 1)
include accepted long of named

theorem cursor_oldest (op : leAt q.payload 1 1 = 1) :
    Completes (.reccursor m) s (fun t => cursorOf t q area = (regionOf s area).2.2 ∧ Replied q .ok u t) := by
  refine cursor_set accepted long ?_
  rw [← (accepted_records accepted).part, recCursor, of, op]
  exact (if_neg (by simp; omega)).trans (if_pos rfl)

theorem cursor_newest (op : leAt q.payload 1 1 = 2) :
    Completes (.reccursor m) s (fun t => cursorOf t q area = (regionOf s area).2.1 ∧ Replied q .ok u t) := by
  refine cursor_set accepted long ?_
  rw [← (accepted_records accepted).part, recCursor, of, op]
  exact (if_neg (by simp; omega)).trans ((if_neg (by decide)).trans (if_pos rfl))

theorem cursor_numbered (op : leAt q.payload 1 1 = 0) (visible : recVisible s area (leAt q.payload 4 4) = true) :
    Completes (.reccursor m) s (fun t => cursorOf t q area = leAt q.payload 4 4 ∧ Replied q .ok u t) := by
  refine cursor_set accepted long ?_
  rw [recCursor_numbered of named op, (accepted_records accepted).visible, visible]
  rfl

theorem cursor_refused (op : leAt q.payload 1 1 = 0) (hidden : recVisible s area (leAt q.payload 4 4) = false)
    (past : leAt q.payload 4 4 ≠ (regionOf s area).2.1) :
    Completes (.reccursor m) s (fun t => t.recd.cursors = s.recd.cursors ∧ Replied q .access u t) := by
  have same := accepted_records accepted
  have e : exec (.reccursor m) s = .next (answer q .access u) := by
    refine congrArg Host.Outcome.next ((accepted_sized accepted long _).trans ?_)
    rw [recCursor_numbered of named op, same.visible, same.part, hidden]
    exact if_neg (by simpa using past)
  have kept : SameRecords s (answer q .access u) := (reply_records .access 0 0 [] u).trans same
  exact ⟨_, e, kept.field RecSt.cursors, replied_answer q .access rfl⟩

end

/-- Settles O48: the window from the cursor on, and the four places that a cursor can be set to. -/
theorem recorderReading : Obligations.RecorderReading := by
  unfold Obligations.RecorderReading
  exact ⟨fun _ _ _ _ _ _ accepted long of asks named low high seen =>
      window_read accepted long of asks named low high seen,
    fun _ _ _ _ _ accepted malformed => window_malformed accepted malformed,
    fun _ _ _ _ _ accepted long of named op => cursor_oldest accepted long of named op,
    fun _ _ _ _ _ accepted long of named op => cursor_newest accepted long of named op,
    fun _ _ _ _ _ accepted long of named op visible => cursor_numbered accepted long of named op visible,
    fun _ _ _ _ _ accepted long of named op hidden past => cursor_refused accepted long of named op hidden past⟩

end Sys2Proof.Proofs
end

section
/-! CERTIFICATE. From power-good to RUN (01 R21, R27; 02 R39–R47; 17 R508; 20 R572). -/

namespace Sys2Proof.Proofs

open Sys2Proof Sys2Proof.Machine Sys2Proof.Laws

variable {s : State}

/-! ### Power-good -/

/-- Headers written one function after another: each function of the list reads what was written. -/
theorem headers_reset (l : List Fn) (t : Tab FnHdr) {f : Fn}
    (h : f ∈ l ∨ (t.look (fnId f)).state = .reset) :
    ((l.foldl (fun (t : Tab FnHdr) f => t.put (fnId f) { state := .reset }) t).look (fnId f)).state = .reset := by
  induction l generalizing t with
  | nil => simpa using h
  | cons g l ih =>
    refine ih _ ?_
    by_cases same : fnId f = fnId g
    · right
      rw [same, Tab.look_put_self]
    · rw [Tab.look_put_of_ne _ _ same]
      exact h.imp_left fun listed => (List.mem_cons.1 listed).resolve_left fun e => same (congrArg fnId e)

theorem freshStart_fnState (k : StartKind) (s : State) {f : Fn} (listed : f ∈ allFns) :
    (freshStart k s).fnState f = .reset :=
  headers_reset allFns [] (.inl listed)

theorem power_good {a b coding : Nat} (off : s.mod.state = .off) (valid : coding ≤ 2) :
    Completes (.powerGood a b coding) s (fun t =>
      t.mod.state = .selfTest ∧ t.mod.position = coding ∧ t.mod.supplyA = a ∧ t.mod.supplyB = b
        ∧ t.mod.powerCycles = wrap32 (s.recd.mirCycles + 1) ∧ ∀ f ∈ allFns, t.fnState f = .reset) := by
  let started := (freshStart .powerOn s).setMod (fun m =>
    { m with
      supplyA := a, supplyB := b, position := coding, operNs := s.recd.mirSecs * 1000000000
      powerCycles := wrap32 (s.recd.mirCycles + 1), warning := false
      windowClosed := false, below14 := false, warnEnded := 0, lostA := false, lostB := false, charge := 0
      storeGood := false, overTemp := false, overTempCrit := false, tempMax := m.temp, bivCount := 0 })
  let told := raiseN Ev.POWER_ON 0xF8 started.mod.powerCycles started
  have e : exec (.powerGood a b coding) s = .next ((restartRecorder told).setPair (fun p =>
      { p with enabled := coding == 0, statePeg := coding != 0 })) :=
    congrArg Host.Outcome.next ((if_neg (by simp [off])).trans (if_pos valid))
  have mod : told.mod = started.mod := raiseN_mod ..
  refine ⟨_, e, congrArg ModuleSt.state mod, congrArg ModuleSt.position mod, congrArg ModuleSt.supplyA mod,
    congrArg ModuleSt.supplyB mod, congrArg ModuleSt.powerCycles mod, fun f listed => ?_⟩
  exact (raiseN_fnState Ev.POWER_ON 0xF8 started.mod.powerCycles started f).trans (freshStart_fnState .powerOn s listed)

/-! ### The end of SELF-TEST -/

/-- An engine without a failing case has passed all 106. -/
theorem selfTestEngine_passes (e : Nat) (s : State) : selfTestEngine [] e s
    = raiseN Ev.COMPARATOR_TEST_PASS 0xFA e
        (s.setTrx e (fun x => { x with passed := 106, result := 1, firstFail := 0xFFFF, testAt := operSecs s })) := by
  have none : (List.range 106).filter (fun c => ([] : List (Nat × Nat)).contains (e, c)) = [] := by
    simp
  unfold selfTestEngine
  dsimp only
  rw [none]

theorem selfTestEngine_self (e : Nat) (s : State) : ((selfTestEngine [] e s).trx.look e).passed = 106 := by
  rw [selfTestEngine_passes, raiseN_trx]
  simp [State.setTrx]
theorem selfTestEngine_other {e d : Nat} (h : e ≠ d) (s : State) : (selfTestEngine [] d s).trx.look e = s.trx.look e := by
  rw [selfTestEngine_passes, raiseN_trx]
  simp [State.setTrx, h]

theorem selfTest_ends {dev : Int} (testing : s.mod.state = .selfTest) (within : dev.natAbs ≤ 20000) :
    Completes (.selfTestEnd true [] dev) s (fun t =>
      t.mod.state = .imageSelect ∧ t.mod.selfTestPass = true ∧ t.mod.clkDev = dev
        ∧ ∀ e < 3, (t.trx.look e).passed = 106) := by
  have e : exec (.selfTestEnd true [] dev) s = .next ((((forRange 3 (selfTestEngine []) s).setMod (fun m =>
      { m with clkDev := dev })).setMod (fun m => { m with state := .imageSelect, selfTestPass := true })).setPeg
      (fun p => { p with reading := true, selecting := true })) := by
    refine congrArg Host.Outcome.next ((if_neg (by simp [testing])).trans ?_)
    simp [Nat.not_lt.2 within, raiseIf]
  refine ⟨_, e, rfl, rfl, rfl, fun n low => ?_⟩
  obtain ⟨u, -, last⟩ := forRange_get (fun t : State => (t.trx.look n).passed) (n := 3) (f := selfTestEngine []) (c := n)
    (fun d t h => by rw [selfTestEngine_other h.symm]) low s
  exact last.trans (selfTestEngine_self n u)

/-! ### The choice and the second read -/

/-- Functions in RESET enter PITCH. -/
def pitchFns (s : State) : State := forAll allFns (fun f t => if t.fnState f == .reset then enterFn f .pitch t else t) s

theorem pitchHealth_state (s : State) : (pitchHealth s).mod.state = s.mod.state := rfl
theorem pitchHealth_imgId (s : State) : (pitchHealth s).imgId = s.imgId := rfl
theorem pitchHealth_peg (s : State) : (pitchHealth s).peg = s.peg := rfl

theorem pitchFns_view (s : State) :
    view (P.event ||| P.hdrs ||| P.pool) (pitchFns s) = view (P.event ||| P.hdrs ||| P.pool) s :=
  view_forAll (fun _ _ => view_ite (enterFn_view (by decide) ..) rfl) s

/-- The slots as the reads of IMAGE SELECT find them. -/
def slotsRead (s : State) : Tab SlotSt := forRange 3 (fun n (t : Tab SlotSt) => t.put n (readSlot s.peg.mem s.station n)) []

/-- The chosen slot `n` with its identity. -/
def imageNoted (read : Tab SlotSt) (n : Nat) (uncom : Bool) (s : State) : State :=
  { s with
    imgId := slotId s.peg.mem n
    peg := { s.peg with
      slots := classify read s.lastCommissioned (slotId s.peg.mem n) n
      selecting := false, sel := n, uncommissioned := uncom } }

/-- The image of slot `n` is taken, before the functions follow. -/
def imageTaken (read : Tab SlotSt) (n : Nat) (uncom : Bool) (s : State) : State :=
  let noted := imageNoted read n uncom s
  let differ := differMask (classify read s.lastCommissioned (slotId s.peg.mem n) n)
  (raiseIf (differ != 0) Ev.PEG_COPIES_DIFFER 0xCD differ
    (raise Ev.IMAGE_CHOSEN 0xCD (slotId s.peg.mem n).seq .module noted)).setMod (fun g =>
      { g with state := .pitch, imageValid := true })

theorem imageTaken_state (read : Tab SlotSt) (n : Nat) (uncom : Bool) (s : State) :
    (imageTaken read n uncom s).mod.state = .pitch := by
  rw [imageTaken, setMod_mod]

theorem imageTaken_imgId (read : Tab SlotSt) (n : Nat) (uncom : Bool) (s : State) :
    (imageTaken read n uncom s).imgId = slotId s.peg.mem n := by
  rw [imageTaken, setMod_imgId, raiseIf_imgId, raise_imgId, imageNoted]

theorem imageTaken_peg (read : Tab SlotSt) (n : Nat) (uncom : Bool) (s : State) :
    (imageTaken read n uncom s).peg = (imageNoted read n uncom s).peg := by
  rw [imageTaken, setMod_peg, raiseIf_peg, raise_peg]

/-- IMAGE SELECT whose choice falls on slot `n`. -/
theorem imageSelectEnd_chosen {n : Nat} {uncom : Bool} {ign : List Nat} (selects : s.mod.state = .imageSelect)
    (selecting : s.peg.selecting = true) (fitted : s.peg.present = true)
    (choice : chooseImage (slotsRead s) s.lastCommissioned = .chosen n uncom ign) :
    imageSelectEnd s = pitchHealth (pitchFns (imageTaken (slotsRead s) n uncom s)) := by
  have notAgain : (s.pair.repitch && s.mod.state == ModState.standby) = false := by rw [selects]; exact Bool.and_false _
  have open' : ¬ (!s.peg.selecting
      || !((s.pair.repitch && s.mod.state == ModState.standby) || s.mod.state == ModState.imageSelect)) = true := by
    rw [notAgain, selecting, selects]
    decide
  rw [imageSelectEnd]
  refine (if_neg open').trans ?_
  dsimp only
  rw [if_pos fitted, ← slotsRead, choice]
  dsimp only
  rw [notAgain]
  rfl

theorem image_selected {n : Nat} {uncom : Bool} {ign : List Nat} (selects : s.mod.state = .imageSelect)
    (selecting : s.peg.selecting = true) (fitted : s.peg.present = true)
    (choice : chooseImage (slotsRead s) s.lastCommissioned = .chosen n uncom ign) :
    Completes .imageSelectEnd s (fun t =>
      t.mod.state = .pitch ∧ t.imgId = slotId s.peg.mem n ∧ t.peg.sel = n ∧ t.peg.selecting = false) := by
  have after := pitchFns_view (imageTaken (slotsRead s) n uncom s)
  have state : (pitchFns (imageTaken (slotsRead s) n uncom s)).mod.state = .pitch := by
    rw [mod_of_view after (by decide), imageTaken_state]
  have peg := (peg_of_view after (by decide) (by decide)).trans (imageTaken_peg (slotsRead s) n uncom s)
  refine ⟨_, congrArg Host.Outcome.next (imageSelectEnd_chosen selects selecting fitted choice), ?_⟩
  beta_reduce
  rw [pitchHealth_state, pitchHealth_imgId, pitchHealth_peg, state, peg, imgId_of_view after (by decide), imageTaken_imgId]
  exact ⟨rfl, rfl, rfl, rfl⟩

/-- The state after the second read has told what it found, before the image is taken into use. -/
def readTold (s : State) : State :=
  let img := loadImage (imgSections s.peg.mem s.peg.sel)
  loadEvents img (budgetEvents img (s.setPeg (fun p => { p with reading := false })))

/-- An image taken into use. -/
def imageUsed (img : ImageCfg) (secs : List Section) (s : State) : State :=
  imageValues { s with img := img, sections := secs }

theorem imageUsed_img (img : ImageCfg) (secs : List Section) (s : State) :
    (imageUsed img secs s).sections = secs ∧ (imageUsed img secs s).img = img :=
  ⟨rfl, rfl⟩
theorem imageUsed_peg (img : ImageCfg) (secs : List Section) (s : State) : (imageUsed img secs s).peg = s.peg := rfl
theorem imageUsed_state (img : ImageCfg) (secs : List Section) (s : State) :
    (imageUsed img secs s).mod.state = s.mod.state :=
  rfl

theorem readTold_view (s : State) :
    view P.event (readTold s) = view P.event (s.setPeg (fun p => { p with reading := false })) :=
  (loadEvents_view (by decide) ..).trans (budgetEvents_view (by decide) ..)

theorem second_read {crc : W32} (pitching : s.mod.state = .pitch) (reading : s.peg.reading = true)
    (chosen : s.peg.selecting = false) (confirms : crc = (s.peg.slots.look s.peg.sel).crc) :
    Completes (.secondReadEnd crc) s (fun t =>
      if imageChecks (loadImage (imgSections s.peg.mem s.peg.sel)) (imgSections s.peg.mem s.peg.sel) s.imgId.safety then
        t.sections = imgSections s.peg.mem s.peg.sel ∧ t.img = loadImage (imgSections s.peg.mem s.peg.sel)
          ∧ t.peg.reading = false ∧ t.mod.state = .pitch
      else t.mod.state = .hold ∧ t.mod.hold = .noImage ∧ t.img = s.img) := by
  have e : exec (.secondReadEnd crc) s
      = .next (if !imageChecks (loadImage (imgSections s.peg.mem s.peg.sel)) (imgSections s.peg.mem s.peg.sel) s.imgId.safety
          then noImage (readTold s)
          else imageUsed (loadImage (imgSections s.peg.mem s.peg.sel)) (imgSections s.peg.mem s.peg.sel) (readTold s)) := by
    refine congrArg Host.Outcome.next ((if_neg (by simp [pitching, reading, chosen])).trans ?_)
    exact if_neg (by simp [confirms])
  have told := readTold_view s
  refine ⟨_, e, ?_⟩
  beta_reduce
  cases imageChecks (loadImage (imgSections s.peg.mem s.peg.sel)) (imgSections s.peg.mem s.peg.sel) s.imgId.safety with
  | true =>
    rw [if_pos rfl, Bool.not_true, if_neg Bool.false_ne_true]
    obtain ⟨secs, img⟩ := imageUsed_img (loadImage (imgSections s.peg.mem s.peg.sel))
      (imgSections s.peg.mem s.peg.sel) (readTold s)
    refine ⟨secs, img, ?_, ?_⟩
    · rw [imageUsed_peg, peg_of_view told (by decide) (by decide), setPeg_peg]
    · rw [imageUsed_state, mod_of_view told (by decide), setPeg_mod, pitching]
  | false =>
    rw [if_neg Bool.false_ne_true, Bool.not_false, if_pos rfl]
    have kept := (img_of_view (noImage_view (m := N.img) (by decide) (readTold s)) (by decide)).trans
      (img_of_view told (by decide))
    rw [kept, noImage, enterHold_mod]
    exact ⟨rfl, rfl, rfl⟩

/-! ### Configuration -/

theorem function_configured {f : Fn} (pitches : s.fnState f = .pitch) (first : (s.hdr f).configured = false)
    (pitching : s.mod.state = .pitch) (read : s.peg.reading = false) (takes : (configureFn f s).fnState f ≠ .fault) :
    Completes (.functionConfigured f) s (fun t => (t.hdr f).configured = true ∧ t.mod = s.mod) := by
  have mod : (configureFn f s).mod = s.mod := mod_of_view (m := N.mod) (configureFn_view (by decide) f s) (by decide)
  have e : exec (.functionConfigured f) s = .next ((configureFn f s).setHdr f (fun h => { h with configured := true })) := by
    refine congrArg Host.Outcome.next ?_
    have open' : (s.hdr f).state = .pitch := pitches
    rw [functionConfigured]
    simp only [open', first, pitching, read, beq_eq_false_iff_ne.2 takes, bne_self_eq_false, Bool.or_self, Bool.not_false,
      Bool.not_true, Bool.false_eq_true, if_false, acceptFn, mod]
  refine ⟨_, e, ?_, mod⟩
  rw [setHdr_self]

/-! ### The end of PITCH -/

/-- What a start does after the module has entered RUN leaves module and pair. -/
theorem startRun_after (peg : Option Ckpt) (s : State) : view (N.mod &&& N.pair) (startRun peg s)
    = view (N.mod &&& N.pair) (s.setMod (fun m => { m with
        state := .run, restored := (newestSource s (if s.mod.position = 0 then none else peg)).isSome })) := by
  unfold startRun
  dsimp only
  rw [driveAll_view (by decide), raiseIf_view (by decide)]
  cases newestSource s (if s.mod.position = 0 then none else peg) with
  | none => rw [raiseN_view (by decide), runConfigured_view (by decide)]
  | some c =>
    refine (view_ite rfl (restoreBedrock_view (by decide) ..)).trans ?_
    rw [raiseN_view (by decide), runConfigured_view (by decide), restoreProcess_view (by decide)]

theorem startRun_state (peg : Option Ckpt) (s : State) : (startRun peg s).mod.state = .run := by
  rw [mod_of_view (startRun_after peg s) (by decide), setMod_mod]
theorem startRun_pair (peg : Option Ckpt) (s : State) : (startRun peg s).pair = s.pair := by
  rw [pair_of_view (startRun_after peg s) (by decide), setMod_pair]

theorem pitch_ends {peg : Option Ckpt} {same : Bool} (pitching : s.mod.state = .pitch) (single : s.mod.position = 0)
    (read : s.peg.reading = false) (ready : allConfigured s = true) :
    Completes (.pitchEnd peg false same) s (fun t =>
      t.mod.state = .run ∧ t.pair.enabled = true ∧ t.pair.role = .single) := by
  let s1 := announceUncommissioned (setImageRefs (s.setPair (fun p => { p with partnerClaim := false })))
  let claimed := s1.setPair (fun p => { p with enabled := true, role := .single })
  have kept : view (P.event ||| P.fns) s1
      = view (P.event ||| P.fns) (s.setPair (fun p => { p with partnerClaim := false })) :=
    (announceUncommissioned_view (by decide) _).trans (setImageRefs_view (by decide) _)
  have single' : s1.mod.position = 0 := (congrArg ModuleSt.position (mod_of_view kept (by decide))).trans single
  have ends : pitchEnd peg false same s = startRun peg claimed := by
    rw [pitchEnd, if_neg (by simp [read, ready]), if_neg (by simp [pitching]), if_neg (by simp [pitching])]
    have settled : decidePref s1 = s1 := if_pos single'
    have role : startRole s1 false = .run := if_pos single'
    have claims : assertClaim false same s1 = claimed := if_pos single'
    dsimp only
    rw [settled, role]
    dsimp only
    rw [claims]
    exact if_pos rfl
  have state := startRun_state peg claimed
  have pair := startRun_pair peg claimed
  have e : exec (.pitchEnd peg false same) s = .next (startRun peg claimed) := by
    refine congrArg Host.Outcome.next ?_
    rw [pitchEnds, ends]
    cases (startRun peg claimed).pair.takeoverWaits with
    | none => rfl
    | some n => exact if_neg (by simp [state])
  exact ⟨_, e, state, (congrArg PairSt.enabled pair :), (congrArg PairSt.role pair :)⟩

/-- Settles O1: each start command by what it writes before the functions follow. -/
theorem moduleStarts : Obligations.ModuleStarts := by
  unfold Obligations.ModuleStarts
  exact ⟨fun _ _ _ _ off valid => power_good off valid, fun _ _ testing within => selfTest_ends testing within,
    fun _ _ _ _ selects selecting fitted choice => image_selected selects selecting fitted choice,
    fun _ _ pitching reading chosen confirms => second_read pitching reading chosen confirms,
    fun _ _ pitches first pitching read takes => function_configured pitches first pitching read takes,
    fun _ _ _ pitching single read ready => pitch_ends pitching single read ready⟩

end Sys2Proof.Proofs
end
